-- ==== Sys2Proof/Word.lean ====
section
/-! DEFINITION. The word types of the model and their plainest arithmetic. -/

namespace Sys2Proof

/-- A byte: the smallest addressable unit of the address map (R37). -/
abbrev Byte := BitVec 8

/-- A 32-bit word: a register, an angle word (R7), an instruction word, a bus word. -/
abbrev Word := BitVec 32

end Sys2Proof
end

