-- ==== Sys2Proof/Syntax.lean ====
section
/-! DEFINITION. The commands of the block: one constructor per row of spec/opcode_table.json, with the operands a step of the
spec needs (which instance, the value written, what the outside world shows at that moment). The order is the table's. -/

namespace Sys2Proof

/-- The clock islands of R19, in the order of the UNIT codes of crossings in R551. -/
inductive Island where
  | angle | policy | fabric | combustion | converter | link | timer | guard | drive
  deriving DecidableEq, Repr, Inhabited

/-- A bus master: a policy pair (R280), an angle thread, a DMA channel, Loupe (R632), the SPI target port (R546). -/
inductive Master where
  | pair (t : Fin 4)
  | thread (n : Fin 64)
  | dma (c : Fin 16)
  | loupe
  | spi
  deriving DecidableEq, Repr, Inhabited

/-- What the error code of a memory word shows at an access: nothing, a single-bit error, or more, each with the syndrome the code
gives (R257, R283, R288, R566). -/
inductive Ecc where
  | clean
  | corrected (syn : Byte)
  | uncorrectable (syn : Byte)
  deriving DecidableEq, Repr, Inhabited

/-- Who executes a Gental instruction: policy pair `t` (Gental-P) or angle thread `n` (Gental-A), and what the error code of the
instruction word shows at its fetch. -/
inductive Agent where
  | pair (t : Fin 4) (fetch : Ecc)
  | thread (n : Fin 64) (fetch : Ecc)
  deriving DecidableEq, Repr, Inhabited

/-- How a transaction of the SPI port came in: whole, with a wrong CRC, with a wrong count of words, with a part of a word (R546). -/
inductive SpiForm where
  | good | badCrc | badLen | badFrame
  deriving DecidableEq, Repr, Inhabited

/-- The commands of the IL-7940, one per row of the table of operations and events. -/
inductive Instr where
  /-- `REGISTER_WRITE` (R40): A posted write to a register that has no row of its own takes effect at its block, or is
  refused whole under R13. Master `m` writes `w` to the word whose byte address is 4 times `addr`. -/
  | registerWrite (m : Master) (addr : BitVec 30) (w : Word)
  /-- `CROSSING_DELIVERY` (R23): An item launched on a handshake crossing reaches its destination island in launch order.
  `src` and `dst` are the islands of the crossing; `good`: the dual-rail code is legal. -/
  | crossingDelivery (src dst : Island) (good : Bool)
  /-- `STUCK` (R25): A handshake not complete 1.024 us after launch is declared stuck and a U-class message is sent. `src`
  and `dst` are the islands of the crossing. -/
  | stuck (src dst : Island)
  /-- `KEEPALIVE` (R30): An idle direction of the die-to-die link sends a keep-alive frame when its interval expires.
  `toHv`: from the logic die to the high-voltage die; `good`: its CRC is right. -/
  | keepalive (toHv good : Bool)
  /-- `LINK_LOSS_HV` (R32): The HV die declares link loss after tLOSS without a good frame, ends pulses, sets PWM safe
  duties, stops boost and pulls ALRT_N low. -/
  | linkLossHv
  /-- `REFERENCE_LOSS` (R31): The HV die detects loss of the forwarded 25 MHz reference or drive PLL unlock and declares
  link loss. -/
  | referenceLoss
  /-- `LINKLOSS` (R33): The logic die declares link loss, clears OUT_ENI, retires INJ and PWM actions and sends a U-class
  message. -/
  | linkloss
  /-- `LINK_RETRAIN` (R34): Once both ends are healthy the die-to-die link retrains and disables every injection channel and
  PWM pair. -/
  | linkRetrain
  /-- `BUDGET_FRAME_PULSE` (R29): The fabric island generates the budget frame pulse every 4,096 fabric clocks. -/
  | budgetFramePulse
  /-- `FRAME_PULSE_AT_METER` (R503): The frame pulse reaches a meter, which closes the frame's accounting, refills every
  account and releases stalled activities. `isl` is the island of the meter. -/
  | framePulseAtMeter (isl : Island)
  /-- `BUDGET_OVERRUN_REPORT` (R505): At frame close a meter's overrun report reaches the guard island, which updates the
  account's overrun counts and events. `src` is the island of the reporting meter. -/
  | budgetOverrunReport (src : Island)
  /-- `VSYS_HV_HOLD` (R50): VSYS reaching 5.0 V makes the HV die hold its pins in their reset states. -/
  | vsysHvHold
  /-- `PORST_ASSERT` (R614): PORST_N low after its glitch filter starts power-on reset. -/
  | porstAssert
  /-- `RAIL_RESET_CROSSING` (R609): A rail crossing its reset threshold starts power-on reset at once with no sequence.
  `rail` is the rail code. -/
  | railResetCrossing (rail : Fin 5)
  /-- `POR_RELEASE` (R59): Power-on reset is released once PORST_N is high and every rail lies above its reset threshold
  plus hysteresis. `warn` holds the rails below their warning threshold at the release. -/
  | porRelease (warn : BitVec 5)
  /-- `SUPPLY_WARNING` (R610): A rail crossing its warning threshold runs the supply warning sequence: SUPWARN message,
  Locket commit, SAFE 3, system reset. `rail` is the rail code. -/
  | supplyWarning (rail : Fin 5)
  /-- `SYSTEM_RESET` (R614): A system reset is issued, resetting the logic die except the kept state and driving RST_N low. -/
  | systemReset
  /-- `SYSTEM_RESET_END` (R614): A system reset ends after tSRS, the boot ROM runs and RST_N is released tRSTO later. -/
  | systemResetEnd
  /-- `RESET_HOLD_END` (R613): After a supply warning sequence the unit leaves reset once every rail has stayed above its
  warning threshold for 10 ms. -/
  | resetHoldEnd
  /-- `RSTN_INPUT` (R614): RST_N held low from outside for 1 us causes a system reset with cause RSTN. -/
  | rstnInput
  /-- `SYS_RST` (R614): A write of GO with KEY 0x5A to SYS_RST issues a system reset with cause SOFTWARE. `w` is the word
  written to SYS_RST. -/
  | sysRst (w : Word)
  /-- `CRYSTAL_VALID` (R617): The 25 MHz crystal becomes valid after 1,024 good cycles and the main, link and timer PLLs
  start. -/
  | crystalValid
  /-- `PLL_LOCK` (R617): A PLL locks and its islands leave reset. `pll` is 0 for the main PLL, 1 for the link PLL, 2 for the
  timer doubler. -/
  | pllLock (pll : Fin 3)
  /-- `CLKFAIL` (R619): A clock failure sends an F-class CLKFAIL message, applies SAFE 3, commits Locket and issues a system
  reset. `code` is the clock code of R618. -/
  | clkfail (code : Fin 4)
  /-- `RTCF` (R620): With no 32.768 kHz crystal edge for 4 ticks the RTC switches to the divided RC oscillator and sets
  RTCF. -/
  | rtcf
  /-- `ALARM_ARM` (R621): A write to SYS_ALMH arms the RTC alarm with a value after the count in force, or disarms it with
  0. `w` is the word written to SYS_ALMH. -/
  | alarmArm (w : Word)
  /-- `ALARM` (R621): The RTC count steps onto the armed alarm value and sets ALARM. -/
  | alarmMatch
  /-- `SLEEP_GO` (R622): A legal write of GO to SYS_SLEEP halts the pairs, drains Locket and DMA and sends the HV die its
  sleep command. `active` holds the wake sources active then, in the layout of SYS_WAKE. -/
  | sleepGo (active : Word)
  /-- `SLEEP_ENTER` (R622): When the entry has drained, the main, link and drive PLLs stop and the unit enters SLEEP. -/
  | sleepEnter
  /-- `WAKE` (R625): An enabled wake source in SLEEP restarts the PLLs and islands, reloads the slot counter and sets WAKE.
  `src` holds the wake sources active, in the layout of SYS_WAKE. -/
  | wakeUp (src : Word)
  /-- `VR_HALF_WAVE` (R63): A VR half-wave ends; its peak updates the arming threshold and, if armed, its zero crossing
  gives a detected level change. `n` is the wheel input, `peak` the peak magnitude in 10 mV. -/
  | vrHalfWave (n : Fin 6) (positive : Bool) (peak : Nat)
  /-- `HALL_THRESHOLD_CROSSING` (R65): A Hall-mode input crosses its upper or lower threshold, changing its detected level.
  `up`: the upper threshold. -/
  | hallThresholdCrossing (n : Fin 6) (up : Bool)
  /-- `EDGE_FILTER_PASS` (R67): A detected level that has held for FILT angle clocks passes the filter and becomes an edge,
  checked against the 640 ns spacing. `n` is the wheel input. -/
  | edgeFilterPass (n : Fin 6)
  /-- `DIRECTION_PULSE_END` (R73): With DIREN, the opposite edge ends the measured pulse, tags the tooth forward or reverse
  and delivers the stamp. `n` is the wheel input. -/
  | directionPulseEnd (n : Fin 6)
  /-- `TOOTH_DELIVERY` (R78): A stamp accepted in a wheel's state table is delivered as a tooth to the observer and
  synchronisation. `n` is the wheel input. -/
  | toothDelivery (n : Fin 6)
  /-- `WINDOW_CLOSE` (R78): A wheel window closes with no edge, sets MISSING and moves the reference to the observer's paste
  tooth. `n` is the wheel input. -/
  | windowClose (n : Fin 6)
  /-- `WHEEL_TIMEOUT` (R77): A wheel's timeout expires, STALL is set and the prediction discarded. `n` is the wheel input. -/
  | wheelTimeout (n : Fin 6)
  /-- `CAM_EDGE` (R147): A cam edge is matched against the cam table to resolve phase, count phase errors or indicate
  reverse rotation. -/
  | camEdge
  /-- `CAMLOSS` (R154): Two whole cycles of angle pass without a cam edge and CAMLOSS is set. -/
  | camloss
  /-- `SECONDARY_TOOTH` (R157): A tooth of the placed secondary sensor updates the difference e and the agreement state. -/
  | secondaryTooth
  /-- `PROVISIONAL_PREDICTION` (R113): The angle reaches the next tooth angle before the tooth and continues at a
  provisional rate. -/
  | provisionalPrediction
  /-- `CEIL` (R114): The angle reaches the ceiling one tick before the tooth after the outstanding one and holds there. -/
  | ceil
  /-- `CYCLE_BOUNDARY` (R303): The cycle count changes and every trim's base and value in force are re-evaluated. -/
  | cycleBoundary
  /-- `WHEEL_ENABLE` (R78): Setting a wheel's EN bit in WHL_CTRL clears its prediction and peaks and starts the 500 ms
  timeout in FREE. `w` is the word written to WHL_CTRL. -/
  | wheelEnable (w : Word)
  /-- `WHEEL_DISABLE` (R78): Clearing a wheel's EN bit discards its prediction, reference and timeout. `w` is the word
  written to WHL_CTRL. -/
  | wheelDisable (w : Word)
  /-- `WHL_CLR_CNT` (R99): A write of 1 to a bit of WHL_CLR clears that wheel's counters. `wheels` is the mask written to
  WHL_CLR. -/
  | whlClrCnt (wheels : BitVec 6)
  /-- `WHL_SLOTL_READ` (R99): A read of WHL_SLOTL returns the slot counter low word and latches the high bits into
  WHL_SLOTH. -/
  | whlSlotlRead
  /-- `ECHO_ENABLE` (R90): Enabling an echo generator takes ownership of its AOUT pin and starts its synthetic angle at 0.
  `w` is the word written to WHL_ECFGk. -/
  | echoEnable (k : Fin 2) (w : Word)
  /-- `ECHO_DISABLE` (R95): Clearing an echo generator's EN ends its pulse at its natural end and holds the pin low. `w` is
  the word written to WHL_ECFGk. -/
  | echoDisable (k : Fin 2) (w : Word)
  /-- `ECHO_PULSE_END` (R91): An echo pulse of programmed width ends. `k` is the generator. -/
  | echoPulseEnd (k : Fin 2)
  /-- `FOLLOW_EDGE` (R93): A FOLLOW or SYNTH echo edge falls on its predicted slot. `k` is the generator. -/
  | followEdge (k : Fin 2)
  /-- `ECHO_RAMP_STEP` (R94): Every 10.24 us the SYNTH period in force moves toward ESPD by at most ERAMP. `k` is the
  generator. -/
  | echoRampStep (k : Fin 2)
  /-- `OBS_ENABLE` (R138): Setting OBS_CFG.EN enables the observer and synchronisation from STOP. `w` is the word written to
  OBS_CFG. -/
  | obsEnable (w : Word)
  /-- `OBS_DISABLE` (R165): Clearing OBS_CFG.EN applies the safe end if placed, withdraws the prediction and enters STOP.
  `w` is the word written to OBS_CFG. -/
  | obsDisable (w : Word)
  /-- `OBS_ANG_READ` (R136): A read of OBS_ANG returns the angle word and latches the slot counter into OBS_ANGT. -/
  | obsAngRead
  /-- `OBS_CLR_FACT` (R136): OBS_CLR.FACT sets every tooth factor of a wheel to 16,384 and clears its FVAL. `wheels` is the
  mask written to OBS_CLR.FACT. -/
  | obsClrFact (wheels : BitVec 6)
  /-- `OBS_CLR_TORS` (R136): OBS_CLR.TORS sets every torsional entry to 0. -/
  | obsClrTors
  /-- `OBS_CLR_JMAX` (R136): OBS_CLR.JMAX clears OBS_JMAX. -/
  | obsClrJmax
  /-- `RESEEK` (R165): The RESEEK command in LOST starts the gap search. -/
  | reseek
  /-- `PHASE_KEEP` (R149): OBS_SCMD.PHASE = 1 in CRANK resolves the phase on the tentative revolution and enters FULL. -/
  | phaseKeep
  /-- `PHASE_ADD` (R149): OBS_SCMD.PHASE = 2 in CRANK adds 2^23 to the angle word and enters FULL. -/
  | phaseAdd
  /-- `SWAP` (R158): The SWAP command in FULL with AGREE changes the source in force to the secondary. -/
  | swapSource
  /-- `DROP` (R171): The DROP command in FULL or HOLD enters LOST with cause SOFTWARE and a safe end. -/
  | dropSync
  /-- `POLICY_POST` (R174): A write of CAL_PPnD3 posts the descriptor of that port and its result is placed in CAL_PPnRES.
  `t` is the port, `w` the word written to D3. -/
  | policyPost (t : Fin 4) (w : Word)
  /-- `POLICY_ABORT` (R198): A write of a handle to CAL_PPnCAN sends an abort toward the output unit. `t` is the port, `h`
  the handle. -/
  | policyAbort (t : Fin 4) (h : Word)
  /-- `ABORT_ARRIVAL` (R198): An abort reaches the output unit and acts according to where the action stands. -/
  | abortArrival
  /-- `BUCKET_WALK` (R180): The angle word enters a bucket and the calendar walks the next bucket, releasing due entries. -/
  | bucketWalk
  /-- `ACTION_RELEASE` (R181): The calendar releases one action per angle clock to its output stage, waiting while the stage
  is full or the budget is empty. -/
  | actionRelease
  /-- `ACTION_FIRE` (R182): An action's compared word reaches its ANGLE and it fires, or is judged late and fired or dropped
  by its late limit. `ix` is the entry index of the released action. -/
  | actionFire (ix : Nat)
  /-- `INJ_END_DISPATCH` (R186): An INJ end command is dispatched 64 slots before t_end. `ix` is the entry index of the
  action. -/
  | injEndDispatch (ix : Nat)
  /-- `PULSE_END` (R186): An IGN or APULSE pulse ends at t_end, firing or suppressing the spark, and the action retires.
  `ix` is the entry index of the action. -/
  | pulseEnd (ix : Nat)
  /-- `DEFERRED_START` (R188): A start held back by an active pulse, soft shutdown or MINOFF proceeds as late with DEFER.
  `ix` is the entry index of the action. -/
  | deferredStart (ix : Nat)
  /-- `SOFT_SHUTDOWN_END` (R191): An ignition soft shutdown completes its 500 periods and the pin stays idle. `n` is the IGN
  channel. -/
  | softShutdownEnd (n : Fin 24)
  /-- `CYC_COMPARE` (R194): The cycle position steps onto OUT_ASET or OUT_ACLR of a CYC channel and the pin changes. `n` is
  the AOUT channel; `clr` is false for OUT_ASET, true for OUT_ACLR. -/
  | cycCompare (n : Fin 16) (clr : Bool)
  /-- `CYC_RETURN_DELAYED` (R196): After a jump passing both compares, the return to idle fires 40 ns later. `n` is the AOUT
  channel. -/
  | cycReturnDelayed (n : Fin 16)
  /-- `CHANNEL_DISABLE` (R200): Clearing a bit of OUT_ENI, OUT_ENG or OUT_ENA retires the channel's actions CANCELLED and
  ends its active pulse. A write of `w` to OUT_ENI (0), OUT_ENG (1) or OUT_ENA (2). -/
  | channelDisable (grp : Fin 3) (w : Word)
  /-- `CALENDAR_DISABLE` (R201): Clearing CAL_CTRL.EN ends every channel and retires every entry CANCELLED. -/
  | calendarDisable
  /-- `CAL_CLR_CNT` (R209): CAL_CLR.CNT clears CAL_CNT0, CAL_CNT1 and CAL_RSTALL. -/
  | calClrCnt
  /-- `CAL_CLR_BMAX` (R209): CAL_CLR.BMAX clears CAL_BMAX. -/
  | calClrBmax
  /-- `ADD` (R220): Integer add. -/
  | add (a : Agent) (rd rs1 rs2 : BitVec 5)
  /-- `SUB` (R220): Integer subtract. -/
  | sub (a : Agent) (rd rs1 rs2 : BitVec 5)
  /-- `AND` (R220): Bitwise and. -/
  | and (a : Agent) (rd rs1 rs2 : BitVec 5)
  /-- `OR` (R220): Bitwise or. -/
  | or (a : Agent) (rd rs1 rs2 : BitVec 5)
  /-- `XOR` (R220): Bitwise exclusive or. -/
  | xor (a : Agent) (rd rs1 rs2 : BitVec 5)
  /-- `SLL` (R220): Shift left logical by register. -/
  | sll (a : Agent) (rd rs1 rs2 : BitVec 5)
  /-- `SRL` (R220): Shift right logical by register. -/
  | srl (a : Agent) (rd rs1 rs2 : BitVec 5)
  /-- `SRA` (R220): Shift right arithmetic by register. -/
  | sra (a : Agent) (rd rs1 rs2 : BitVec 5)
  /-- `SLT` (R220): Set on signed less than. -/
  | slt (a : Agent) (rd rs1 rs2 : BitVec 5)
  /-- `SLTU` (R220): Set on unsigned less than. -/
  | sltu (a : Agent) (rd rs1 rs2 : BitVec 5)
  /-- `MIN` (R220): Signed minimum. -/
  | min (a : Agent) (rd rs1 rs2 : BitVec 5)
  /-- `MAX` (R220): Signed maximum. -/
  | max (a : Agent) (rd rs1 rs2 : BitVec 5)
  /-- `MINU` (R220): Unsigned minimum. -/
  | minu (a : Agent) (rd rs1 rs2 : BitVec 5)
  /-- `MAXU` (R220): Unsigned maximum. -/
  | maxu (a : Agent) (rd rs1 rs2 : BitVec 5)
  /-- `MUL` (R220): Low 32 bits of a product. -/
  | mul (a : Agent) (rd rs1 rs2 : BitVec 5)
  /-- `MULSH` (R220): High 32 bits of a signed product. -/
  | mulsh (a : Agent) (rd rs1 rs2 : BitVec 5)
  /-- `MULUH` (R220): High 32 bits of an unsigned product. -/
  | muluh (a : Agent) (rd rs1 rs2 : BitVec 5)
  /-- `DIVS` (R221): Signed saturating division. -/
  | divs (a : Agent) (rd rs1 rs2 : BitVec 5)
  /-- `DIVU` (R221): Unsigned saturating division. -/
  | divu (a : Agent) (rd rs1 rs2 : BitVec 5)
  /-- `MODS` (R221): Signed remainder. -/
  | mods (a : Agent) (rd rs1 rs2 : BitVec 5)
  /-- `MODU` (R221): Unsigned remainder. -/
  | modu (a : Agent) (rd rs1 rs2 : BitVec 5)
  /-- `ADDI` (R220): Add sign-extended immediate. -/
  | addi (a : Agent) (rd rs1 : BitVec 5) (imm : BitVec 16)
  /-- `ANDI` (R220): And with zero-extended immediate. -/
  | andi (a : Agent) (rd rs1 : BitVec 5) (imm : BitVec 16)
  /-- `ORI` (R220): Or with zero-extended immediate. -/
  | ori (a : Agent) (rd rs1 : BitVec 5) (imm : BitVec 16)
  /-- `XORI` (R220): Exclusive or with zero-extended immediate. -/
  | xori (a : Agent) (rd rs1 : BitVec 5) (imm : BitVec 16)
  /-- `SLTI` (R220): Set on signed less than immediate. -/
  | slti (a : Agent) (rd rs1 : BitVec 5) (imm : BitVec 16)
  /-- `SLTIU` (R220): Set on unsigned less than sign-extended immediate. -/
  | sltiu (a : Agent) (rd rs1 : BitVec 5) (imm : BitVec 16)
  /-- `LUI` (R220): Load immediate into the upper 16 bits. -/
  | lui (a : Agent) (rd : BitVec 5) (imm : BitVec 16)
  /-- `SLLI` (R220): Shift left logical by immediate. `amount` is the rs2 field. -/
  | slli (a : Agent) (rd rs1 amount : BitVec 5)
  /-- `SRLI` (R220): Shift right logical by immediate. `amount` is the rs2 field. -/
  | srli (a : Agent) (rd rs1 amount : BitVec 5)
  /-- `SRAI` (R220): Shift right arithmetic by immediate. `amount` is the rs2 field. -/
  | srai (a : Agent) (rd rs1 amount : BitVec 5)
  /-- `LW` (R223): Load word. -/
  | lw (a : Agent) (rd rs1 : BitVec 5) (imm : BitVec 16) (ecc : Ecc)
  /-- `LH` (R223): Load sign-extended halfword. -/
  | lh (a : Agent) (rd rs1 : BitVec 5) (imm : BitVec 16) (ecc : Ecc)
  /-- `LHU` (R223): Load zero-extended halfword. -/
  | lhu (a : Agent) (rd rs1 : BitVec 5) (imm : BitVec 16) (ecc : Ecc)
  /-- `LB` (R223): Load sign-extended byte. -/
  | lb (a : Agent) (rd rs1 : BitVec 5) (imm : BitVec 16) (ecc : Ecc)
  /-- `LBU` (R223): Load zero-extended byte. -/
  | lbu (a : Agent) (rd rs1 : BitVec 5) (imm : BitVec 16) (ecc : Ecc)
  /-- `SW` (R223): Store word. -/
  | sw (a : Agent) (rt rs1 : BitVec 5) (imm : BitVec 16) (ecc : Ecc)
  /-- `SH` (R223): Store halfword. -/
  | sh (a : Agent) (rt rs1 : BitVec 5) (imm : BitVec 16) (ecc : Ecc)
  /-- `SB` (R223): Store byte. -/
  | sb (a : Agent) (rt rs1 : BitVec 5) (imm : BitVec 16) (ecc : Ecc)
  /-- `FLW` (R223): Load a binary32 value into an f register. -/
  | flw (a : Agent) (rd rs1 : BitVec 5) (imm : BitVec 16) (ecc : Ecc)
  /-- `FSW` (R223): Store an f register. -/
  | fsw (a : Agent) (rt rs1 : BitVec 5) (imm : BitVec 16) (ecc : Ecc)
  /-- `LOAD_COMPLETE` (R229): An outstanding load's data returns and is written to its register. `t` is the pair. -/
  | loadComplete (t : Fin 4)
  /-- `ASWP` (R230): Atomic swap on an SRAM word. -/
  | aswp (a : Agent) (rd rs1 rs2 : BitVec 5) (ecc : Ecc)
  /-- `AADD` (R230): Atomic wrapping add on an SRAM word. -/
  | aadd (a : Agent) (rd rs1 rs2 : BitVec 5) (ecc : Ecc)
  /-- `AADDS` (R230): Atomic saturating add on an SRAM word. -/
  | aadds (a : Agent) (rd rs1 rs2 : BitVec 5) (ecc : Ecc)
  /-- `AAND` (R230): Atomic and on an SRAM word. -/
  | aand (a : Agent) (rd rs1 rs2 : BitVec 5) (ecc : Ecc)
  /-- `AORR` (R230): Atomic or on an SRAM word. -/
  | aorr (a : Agent) (rd rs1 rs2 : BitVec 5) (ecc : Ecc)
  /-- `ACAS` (R230): Atomic compare and swap on an SRAM word. -/
  | acas (a : Agent) (rd rs1 rs2 : BitVec 5) (ecc : Ecc)
  /-- `BEQ` (R231): Branch if equal. -/
  | beq (a : Agent) (rt rs1 : BitVec 5) (imm : BitVec 16)
  /-- `BNE` (R231): Branch if not equal. -/
  | bne (a : Agent) (rt rs1 : BitVec 5) (imm : BitVec 16)
  /-- `BLT` (R231): Branch if signed less than. -/
  | blt (a : Agent) (rt rs1 : BitVec 5) (imm : BitVec 16)
  /-- `BGE` (R231): Branch if signed greater or equal. -/
  | bge (a : Agent) (rt rs1 : BitVec 5) (imm : BitVec 16)
  /-- `BLTU` (R231): Branch if unsigned less than. -/
  | bltu (a : Agent) (rt rs1 : BitVec 5) (imm : BitVec 16)
  /-- `BGEU` (R231): Branch if unsigned greater or equal. -/
  | bgeu (a : Agent) (rt rs1 : BitVec 5) (imm : BitVec 16)
  /-- `JAL` (R231): Jump and link relative. -/
  | jal (a : Agent) (rd : BitVec 5) (imm : BitVec 16)
  /-- `JALR` (R231): Jump and link to a register address. -/
  | jalr (a : Agent) (rd rs1 : BitVec 5) (imm : BitVec 16)
  /-- `FENCE` (R234): Wait until earlier memory accesses of the core have completed. -/
  | fence (a : Agent)
  /-- `ECALL` (R234): Raise the ECALL exception. -/
  | ecall (a : Agent)
  /-- `ERET` (R330): Return from a handler through the exit sequence, restoring the top frame. -/
  | eret (a : Agent)
  /-- `WFI` (R234): Wait until an interrupt is pending above the core's threshold. -/
  | wfi (a : Agent)
  /-- `WFI_WAKE` (R234): A pending interrupt above threshold ends a WFI wait. `t` is the pair. -/
  | wfiWake (t : Fin 4)
  /-- `BRK` (R234): Raise BRK, or halt the pair or thread when its debug bit is set. -/
  | brk (a : Agent)
  /-- `CSRR` (R235): Read a control register. -/
  | csrr (a : Agent) (rd : BitVec 5) (num : BitVec 16)
  /-- `CSRW` (R235): Write a control register. -/
  | csrw (a : Agent) (rs1 : BitVec 5) (num : BitVec 16)
  /-- `FADD` (R238): Floating-point add. -/
  | fadd (a : Agent) (rd rs1 rs2 : BitVec 5)
  /-- `FSUB` (R238): Floating-point subtract. -/
  | fsub (a : Agent) (rd rs1 rs2 : BitVec 5)
  /-- `FMUL` (R238): Floating-point multiply. -/
  | fmul (a : Agent) (rd rs1 rs2 : BitVec 5)
  /-- `FDIV` (R238): Floating-point divide. -/
  | fdiv (a : Agent) (rd rs1 rs2 : BitVec 5)
  /-- `FSQRT` (R238): Floating-point square root. -/
  | fsqrt (a : Agent) (rd rs1 : BitVec 5)
  /-- `FMIN` (R238): IEEE 754 minimum. -/
  | fmin (a : Agent) (rd rs1 rs2 : BitVec 5)
  /-- `FMAX` (R238): IEEE 754 maximum. -/
  | fmax (a : Agent) (rd rs1 rs2 : BitVec 5)
  /-- `FMINN` (R238): IEEE 754 minimumNumber. -/
  | fminn (a : Agent) (rd rs1 rs2 : BitVec 5)
  /-- `FMAXN` (R238): IEEE 754 maximumNumber. -/
  | fmaxn (a : Agent) (rd rs1 rs2 : BitVec 5)
  /-- `FABS` (R238): Clear the sign bit. -/
  | fabs (a : Agent) (rd rs1 : BitVec 5)
  /-- `FNEG` (R238): Invert the sign bit. -/
  | fneg (a : Agent) (rd rs1 : BitVec 5)
  /-- `FCPYS` (R238): Copy sign. -/
  | fcpys (a : Agent) (rd rs1 rs2 : BitVec 5)
  /-- `FCMP` (R238): Quiet floating-point compare into a one-hot relation. -/
  | fcmp (a : Agent) (rd rs1 rs2 : BitVec 5)
  /-- `FCMPS` (R238): Signalling floating-point compare. -/
  | fcmps (a : Agent) (rd rs1 rs2 : BitVec 5)
  /-- `FTYPE` (R238): Classify a floating-point value. -/
  | ftype (a : Agent) (rd rs1 : BitVec 5)
  /-- `FTOI` (R238): Convert to signed integer by RM. -/
  | ftoi (a : Agent) (rd rs1 : BitVec 5)
  /-- `FTOIZ` (R238): Convert to signed integer toward zero. -/
  | ftoiz (a : Agent) (rd rs1 : BitVec 5)
  /-- `FTOIU` (R238): Convert to unsigned integer by RM. -/
  | ftoiu (a : Agent) (rd rs1 : BitVec 5)
  /-- `FITOF` (R238): Convert a signed integer to binary32. -/
  | fitof (a : Agent) (rd rs1 : BitVec 5)
  /-- `FUTOF` (R238): Convert an unsigned integer to binary32. -/
  | futof (a : Agent) (rd rs1 : BitVec 5)
  /-- `FMVGF` (R238): Move f register bits to a g register. -/
  | fmvgf (a : Agent) (rd rs1 : BitVec 5)
  /-- `FMVFG` (R238): Move g register bits to an f register. -/
  | fmvfg (a : Agent) (rd rs1 : BitVec 5)
  /-- `FMAC` (R238): Fused multiply-add. -/
  | fmac (a : Agent) (rd rs1 rs2 : BitVec 5)
  /-- `FMSC` (R238): Fused multiply-subtract. -/
  | fmsc (a : Agent) (rd rs1 rs2 : BitVec 5)
  /-- `FSCL` (R238): Scale by a power of two. -/
  | fscl (a : Agent) (rd rs1 rs2 : BitVec 5)
  /-- `WAIT_ANG` (R241): Suspend a thread until the angle reaches a target or a masked event is pending. -/
  | waitAng (a : Agent) (rd rs1 rs2 : BitVec 5)
  /-- `WAIT_TIM` (R241): Suspend a thread until the slot counter reaches a target or a masked event is pending. -/
  | waitTim (a : Agent) (rd rs1 rs2 : BitVec 5) (rel : Bool)
  /-- `WAIT_EVT` (R241): Read pending bits, or suspend until a masked event is pending and clear the bits seen. -/
  | waitEvt (a : Agent) (rd : BitVec 5) (imm : BitVec 16)
  /-- `WAIT_WAKE` (R265): A suspended thread's wait condition holds, rd is written and the thread becomes READY or STALL.
  `n` is the thread. -/
  | waitWake (n : Fin 64)
  /-- `POST` (R241): Post a template descriptor with the given angle. `k` is the template. -/
  | postAction (a : Agent) (rd rs1 rs2 : BitVec 5) (k : BitVec 11) (ecc : Ecc)
  /-- `PULSE` (R241): Post a pulse template with a start and an end angle. `k` is the template. -/
  | pulse (a : Agent) (rd rs1 rs2 : BitVec 5) (k : BitVec 11) (ecc : Ecc)
  /-- `SAMP` (R241): Post a SAMPLE template with the given angle and channel. `k` is the template. -/
  | samp (a : Agent) (rd rs1 rs2 : BitVec 5) (k : BitVec 11) (ecc : Ecc)
  /-- `CANCL` (R241): Abort the action named by a handle. -/
  | cancl (a : Agent) (rd rs1 : BitVec 5)
  /-- `TRIM` (R241): Read a trim register's value in force. -/
  | trimRead (a : Agent) (rd rs1 : BitVec 5) (imm : BitVec 16)
  /-- `QPUT` (R241): Put 16 bytes of data SRAM into a queue. `q` is the queue. -/
  | qput (a : Agent) (rd rs1 q : BitVec 5) (ecc : Ecc)
  /-- `QGET` (R241): Take the oldest entry of a queue into data SRAM. `q` is the queue. -/
  | qget (a : Agent) (rd rs1 q : BitVec 5)
  /-- `SYNCQ` (R241): Read OBS_STATE into a register. -/
  | syncq (a : Agent) (rd : BitVec 5)
  /-- `ANGQ` (R241): Read the angle word, slot counter or rate. `what` is the function field. -/
  | angq (a : Agent) (rd : BitVec 5) (what : Fin 4)
  /-- `SIGT` (R241): Set a SIG pending bit of a named thread. -/
  | sigt (a : Agent) (rd rs1 : BitVec 5) (sig : BitVec 2)
  /-- `TEND` (R241): End the thread, which becomes IDLE. -/
  | tend (a : Agent)
  /-- `INTERRUPT_ENTRY` (R329): A core takes an interrupt request and runs the 12-clock entry sequence. `t` is the pair. -/
  | interruptEntry (t : Fin 4)
  /-- `START` (R258): The START command starts an IDLE thread at AEN_TPCn. `n` is the thread. -/
  | threadStart (n : Fin 64)
  /-- `KILL` (R258): The KILL command ends a thread after its instruction in progress. `n` is the thread. -/
  | threadKill (n : Fin 64)
  /-- `RETARGET` (R275): The RETARGET command moves a thread to AEN_TNPCn at a wait. `n` is the thread. -/
  | threadRetarget (n : Fin 64)
  /-- `SIGNAL` (R268): The SIGNAL command sets a thread's SIG pending bits. `n` is the thread, `sig` the SIG bits. -/
  | threadSignal (n : Fin 64) (sig : BitVec 4)
  /-- `ENGINE_DISABLE` (R258): Clearing an engine's bit in AEN_CTRL returns every thread of it to IDLE. `w` is the word
  written to AEN_CTRL. -/
  | engineDisable (w : Word)
  /-- `CODE_WINDOW_WRITE` (R255): A policy write to an angle code page takes effect, or is refused if the page is protected.
  `e` is the engine, `word` the number of the code word, `w` the word written. -/
  | codeWindowWrite (e : Fin 2) (word : BitVec 16) (w : Word)
  /-- `AEN_CLR_ECC` (R278): AEN_CLR.ECC clears AEN_ECC. -/
  | aenClrEcc
  /-- `LOCKSTEP` (R281): A lockstep mismatch halts both cores and sends a U-class LOCKSTEP message. `t` is the pair. -/
  | lockstep (t : Fin 4)
  /-- `PAIR_RESTART_DONE` (R282): A restarted pair finishes the boot ROM reload and enters its entry point. `t` is the pair. -/
  | pairRestartDone (t : Fin 4)
  /-- `SRAM_SCRUB_READ` (R289): The scrubber reads an SRAM word and corrects a single-bit error. `word` is the number of the
  64-bit word, `ecc` what its code shows. -/
  | sramScrubRead (word : BitVec 20) (ecc : Ecc)
  /-- `MRAM_SCRUB_READ` (R291): The background scrub reads an MRAM word and rewrites it only when corrected. `word` is the
  number of the 64-bit word, `ecc` what its code shows. -/
  | mramScrubRead (word : BitVec 20) (ecc : Ecc)
  /-- `MRAM_LINE_WRITE` (R292): QUE_MCMD OP 1 starts a 32-byte MRAM line write. `t` is the policy target that writes
  QUE_MCMD, `ecc` what the code of the source line shows. -/
  | mramLineWrite (t : Fin 4) (ecc : Ecc)
  /-- `MRAM_LINE_WRITE_DONE` (R292): A line write completes its verify and reports its result. `ok`: the line read back
  agrees. -/
  | mramLineWriteDone (ok : Bool)
  /-- `QUEUE_PUT_PORT` (R296): A write of QUE_PPtD3 puts an entry into the port's target queue. `t` is the port, `w` the
  word written to D3. -/
  | queuePutPort (t : Fin 4) (w : Word)
  /-- `QUEUE_POP` (R296): A write of k to QUE_QPOPn removes up to k entries. `n` is the queue, `w` the word written. -/
  | queuePop (n : Fin 32) (w : Word)
  /-- `QUEUE_BASE_WRITE` (R294): A write to QUE_QBASEn sets the ring base and resets head, tail and count. `n` is the queue,
  `w` the word written. -/
  | queueBaseWrite (n : Fin 32) (w : Word)
  /-- `QUE_CLR_ECC` (R314): QUE_CLR.ECC clears QUE_SECC and QUE_MECC. -/
  | queClrEcc
  /-- `DMA_START` (R314): QUE_DCMDc START begins the channel at its first descriptor. `c` is the channel, `ecc` what the
  code of its descriptor shows. -/
  | dmaStart (c : Fin 16) (ecc : Ecc)
  /-- `DMA_STOP` (R301): QUE_DCMDc STOP lets the element complete and takes the channel to IDLE. `c` is the channel. -/
  | dmaStop (c : Fin 16)
  /-- `DMA_SOFT` (R300): QUE_DCMDc SOFT acts as a trigger on the channel. `c` is the channel, `ecc` what the code of its
  descriptor shows. -/
  | dmaSoft (c : Fin 16) (ecc : Ecc)
  /-- `DMA_TRIGGER` (R300): A trigger pulse starts a descriptor or chain, or is held or dropped. `c` is the channel, `ecc`
  what the code of its descriptor shows. -/
  | dmaTrigger (c : Fin 16) (ecc : Ecc)
  /-- `DMA_ELEMENT_DONE` (R298): A DMA element transfer completes and the channel moves to the next element or descriptor.
  `c` is the channel, `src` and `dst` are what the codes of the words read and written show. -/
  | dmaElementDone (c : Fin 16) (src dst : Ecc)
  /-- `TRIM_REQUEST_WRITE` (R303): A write to AEN_TRQi re-evaluates the trim's value in force within its envelope. Policy
  target `t` writes `w` to trim `ix`. -/
  | trimRequestWrite (t : Fin 4) (ix : Fin 512) (w : Word)
  /-- `ENVELOPE_WRITE` (R305): A write to a trim's LO, HI or SLEW sets B and the value in force, or is refused when locked.
  `word` is 0 for LO, 1 for HI, 2 for SLEW. -/
  | envelopeWrite (ix : Fin 512) (word : Fin 3) (w : Word)
  /-- `ELOCK` (R305): Writing 1 to AEN_ELOCK.LOCK locks the envelopes until reset. `w` is the word written. -/
  | elockWrite (w : Word)
  /-- `BOOT` (R306): P0 runs the boot ROM: clear SRAM, choose and verify slots, load sections, lock and release the pairs. -/
  | bootRom
  /-- `IRQ_MESSAGE` (R320): An interrupt message reaches the controller, counts and sets its source pending. `src` is the
  island the message comes from. -/
  | irqMessage (src : Island)
  /-- `IRQ_CLAIM` (R327): A read of IRQ_CLAIMt claims the highest deliverable source of that target. Master `m` reads
  IRQ_CLAIMt. -/
  | irqClaim (m : Master) (t : Fin 4)
  /-- `IRQ_COMPLETE` (R328): A write of a source number to IRQ_CLAIMt completes that source. Master `m` writes `w` to
  IRQ_CLAIMt. -/
  | irqComplete (m : Master) (t : Fin 4) (w : Word)
  /-- `IRQ_PENDING_CLEAR` (R324): A W1C write to IRQ_PENDg clears pending bits. `w` is the word written for group `g`. -/
  | irqPendingClear (g : Fin 32) (w : Word)
  /-- `IRQ_MASK_SET` (R324): A write to IRQ_MSETg sets mask bits. `w` is the word written for group `g`. -/
  | irqMaskSet (g : Fin 32) (w : Word)
  /-- `IRQ_MASK_CLEAR` (R324): A write to IRQ_MCLRg clears mask bits. `w` is the word written for group `g`. -/
  | irqMaskClear (g : Fin 32) (w : Word)
  /-- `IRQ_COUNTER_CLEAR` (R321): A write to IRQ_CCLRg clears the named sources' counters. `w` is the word written for group
  `g`. -/
  | irqCounterClear (g : Fin 32) (w : Word)
  /-- `IRQ_DOORBELL` (R318): A write to IRQ_DOOR raises a software source 496 to 511. `w` is the word written. -/
  | irqDoorbell (w : Word)
  /-- `HOLDOFF_END` (R323): A group's hold-off timer expires and its sources become deliverable again. `g` is the group. -/
  | holdoffEnd (g : Fin 32)
  /-- `EXTINT_ENABLE` (R333): Setting IRQ_XCFGx.EN sends a message if the pin is asserted, entering SENT or QUIET. `w` is
  the word written to IRQ_XCFGx. -/
  | extintEnable (x : Fin 8) (w : Word)
  /-- `EXTINT_DISABLE` (R333): Clearing IRQ_XCFGx.EN returns the converter to OFF with no message. `w` is the word written
  to IRQ_XCFGx. -/
  | extintDisable (x : Fin 8) (w : Word)
  /-- `EXTINT_LEVEL_CHANGE` (R333): An EXTINT level that held FILT timer clocks is taken, sending a message or a count-only
  message. `level` is the level taken. -/
  | extintLevelChange (x : Fin 8) (level : Bool)
  /-- `EXTINT_RESEND` (R333): Completion of an EXTINT source whose pin is still asserted resends it pending without
  counting. -/
  | extintResend
  /-- `TIMER_STEP` (R334): A running channel's prescaler expires and its count steps. `n` is the channel. -/
  | timerStep (n : Fin 16)
  /-- `TIMER_MATCH` (R336): A channel's count reaches its compare position, setting its event and pulsing its selected
  triggers. `n` is the channel. -/
  | timerMatch (n : Fin 16)
  /-- `TIMER_WRAP` (R334): A channel wraps, setting its event, pulsing triggers and stopping if ONE. `n` is the channel. -/
  | timerWrap (n : Fin 16)
  /-- `LINKED_STEP` (R341): A linked odd channel steps one timer clock after the wrap of its lower channel. `n` is the
  linked channel. -/
  | linkedStep (n : Fin 16)
  /-- `TMR_START` (R339): A write to TMR_START starts the named channels in one timer clock. `w` is the word written. -/
  | tmrStart (w : Word)
  /-- `TMR_STOP` (R339): A write to TMR_STOP stops the named channels in one timer clock. `w` is the word written. -/
  | tmrStop (w : Word)
  /-- `TIMER_TRIGGER_START` (R339): A pulse on a channel's STRT line starts it if stopped. `line` is the trigger line. -/
  | timerTriggerStart (line : Fin 32)
  /-- `TIMER_CAPTURE` (R340): A trigger pulse or filtered comparator edge captures the count into TMR_CAPn. `n` is the
  channel. -/
  | timerCapture (n : Fin 16)
  /-- `TIMER_COUNT_LOAD` (R337): A write to TMR_CNTn loads the count. `w` is the word written. -/
  | timerCountLoad (n : Fin 16) (w : Word)
  /-- `TIMER_COMPARE_WRITE` (R336): A write to TMR_CMPn sets the compare whose match is counted from the present position.
  `w` is the word written. -/
  | timerCompareWrite (n : Fin 16) (w : Word)
  /-- `INJ_CTRL_WRITE` (R386): A write to INJ_CTRL reaches the drive island and its enables and generation come into force.
  `w` is the word written. -/
  | injCtrlWrite (w : Word)
  /-- `INJ_START_COMMAND` (R376): An INJ start command reaches the drive island and starts, waits in WAITB or is refused. -/
  | injStartCommand
  /-- `INJ_END_COMMAND` (R372): An INJ end command turns the low side off at t_end and the channel enters DECAY. -/
  | injEndCommand
  /-- `INJ_REGULATION` (R363): A current sample crossing the band sets or clears REQ or sheds a channel, driving the bank
  high side. `code` is the sample of channel `n`. -/
  | injRegulation (n : Fin 12) (code : BitVec 10)
  /-- `INJ_BOOST_DONE` (R376): A BOOST channel reaches IBST and the bank's boost phase ends. `n` is the channel. -/
  | injBoostDone (n : Fin 12)
  /-- `INJ_SHIFTED_START` (R368): A start waiting in WAITB starts tBSH after the bank boost phase ends, its end shifted. `n`
  is the channel. -/
  | injShiftedStart (n : Fin 12)
  /-- `BCANCEL` (R369): A waiting start reaching SHMAX is cancelled without an edge. `n` is the channel. -/
  | bcancel (n : Fin 12)
  /-- `TBMAX_EXPIRY` (R376): TBMAX elapses in BOOST, giving BSTTO and continuing, or OPENON and ending the pulse. `n` is the
  channel. -/
  | tbmaxExpiry (n : Fin 12)
  /-- `TPK_END` (R376): TPK elapses and the channel goes to TRANS or HOLD. `n` is the channel. -/
  | tpkEnd (n : Fin 12)
  /-- `INJ_TRANS_END` (R376): A TRANS channel's current falls to IHLD and its low side returns in HOLD. `n` is the channel. -/
  | injTransEnd (n : Fin 12)
  /-- `INJ_DECAY_END` (R376): A DECAY channel's current falls to ICLS to enter CLOSE, or to IZ to enter OFF. `n` is the
  channel. -/
  | injDecayEnd (n : Fin 12)
  /-- `INJ_CLOSE_END` (R376): CLOSE ends on closing found, current at IZ, 4 ms or high side turned on, and is reported. `n`
  is the channel. -/
  | injCloseEnd (n : Fin 12)
  /-- `OC` (R358): The overcurrent comparator turns the low side off and latches the channel. `n` is the channel. -/
  | overcurrent (n : Fin 12)
  /-- `DUTY` (R378): The 100 ms on-time sum reaches the duty limit, ending the pulse and refusing starts. `n` is the
  channel. -/
  | dutyLimit (n : Fin 12)
  /-- `OPEN` (R379): Opening is detected in BOOST and the filtered delay is adapted. `n` is the channel. -/
  | openDetected (n : Fin 12)
  /-- `CLOSE` (R380): Closing is detected in CLOSE and the filtered closing delay is adapted. `n` is the channel. -/
  | closeDetected (n : Fin 12)
  /-- `DRIVE_REPORT` (R382): An opening, closing, shift, cancel or end report from the drive island reaches the angle island
  and its queue. -/
  | driveReport
  /-- `HSOPEN` (R383): HSB_S below V_HV − 5 V for 2 us with the high side on latches the bank. `b` is the bank. -/
  | hsopen (b : Fin 4)
  /-- `HSSHORT` (R383): HSB_S above V_HV − 5 V for 2 us with the high side off latches the bank. `b` is the bank. -/
  | hsshort (b : Fin 4)
  /-- `VHVUV` (R383): VHV below its undervoltage limit raises VHVUV. `v` is VHVk measured, in 0.1 V. -/
  | vhvuv (k : Fin 2) (v : BitVec 10)
  /-- `VHVOV` (R383): VHV above its overvoltage limit stops the converter until below OV − 1.0 V. `v` is VHVk measured, in
  0.1 V. -/
  | vhvov (k : Fin 2) (v : BitVec 10)
  /-- `BSTFB` (R354): The measured and feedback-derived VHV differ by more than 5 % for 1 ms. `v` is VHVk measured, `f` VHVk
  derived from the feedback, in 0.1 V. -/
  | bstfb (k : Fin 2) (v f : BitVec 10)
  /-- `INJ_DIAG_GO` (R384): INJ_DIAG GO starts the off-state test on the named banks. `w` is the word written. -/
  | injDiagGo (w : Word)
  /-- `DIAGDONE` (R384): The off-state test completes, recording SHORTGND, OPENOFF or pass per channel. `short` names the
  banks whose node stayed below 1.0 V, `opn` the channels whose node stayed above 2.5 V, `between` those with a result
  between. -/
  | diagdone (short : BitVec 4) (opn between : BitVec 12)
  /-- `INJ_FCLR` (R376): A write to INJ_FCLR returns a LATCHED channel at IZ or below to OFF. `w` is the word written. -/
  | injFclr (w : Word)
  /-- `ALRT_PULSE_END` (R385): The ALRT_N pulse ends and the pin is released unless held. -/
  | alrtPulseEnd
  /-- `ALRT_REL` (R385): INJ_ALRT.REL releases a held ALRT_N. `w` is the word written. -/
  | alrtRel (w : Word)
  /-- `PWM_CTRL_WRITE` (R407): A write to PWM_CTRL reaches the drive island, enabling or disabling pairs. `w` is the word
  written. -/
  | pwmCtrlWrite (w : Word)
  /-- `PWM_BOUNDARY` (R392): A pair's counter reaches a period boundary and loads shadows, starting or skipping a boost
  period. `n` is the pair; `below`: BST_FB of pair 8 or 9 measures below its target. -/
  | pwmBoundary (n : Fin 10) (below : Bool)
  /-- `PWM_TRANSITION` (R398): A window transition turns off the outgoing switch and starts the dead time. `active`: the
  active window of pair `n` begins. -/
  | pwmTransition (n : Fin 10) (active : Bool)
  /-- `SW_NODE_CROSSING` (R398): The switch node crossing is detected and the incoming switch turns on after MARGIN. `n` is
  the pair. -/
  | swNodeCrossing (n : Fin 10)
  /-- `NODE` (R399): No node crossing by DTMAX turns the incoming switch on and sets NODE. `n` is the pair. -/
  | nodeTimeout (n : Fin 10)
  /-- `PWM_COMMIT` (R394): A write of 1 to PWM_CMITn sets commit pending. `w` is the word written to PWM_CMITn. -/
  | pwmCommit (n : Fin 10) (w : Word)
  /-- `COMMUTATION` (R402): A commutation trigger pulse applies the pair's next mask. `line` is the trigger line. -/
  | commutation (line : Fin 32)
  /-- `PWM_CMUT` (R402): A write to PWM_CMUT is a software commutation event. `w` is the word written. -/
  | pwmCmut (w : Word)
  /-- `PWM_SAFECMD` (R404): A write to PWM_SAFECMD puts pairs into the safe state. `w` is the word written. -/
  | pwmSafecmd (w : Word)
  /-- `PWM_RESUME` (R405): A write to PWM_RESUME takes pairs out of the safe state at the next boundary. `w` is the word
  written. -/
  | pwmResume (w : Word)
  /-- `BOOST_TRIP` (R410): After blanking, a high comparator level turns the boost main switch off. `k` is the boost
  converter. -/
  | boostTrip (k : Fin 2)
  /-- `BMAXD` (R410): The boost on-time reaches DMAX and PWM_L turns off. `k` is the boost converter. -/
  | bmaxd (k : Fin 2)
  /-- `SR_OFF` (R411): The synchronous rectifier turns off after SRTON. `k` is the boost converter. -/
  | srOff (k : Fin 2)
  /-- `RAMP_START` (R412): A period-start message reaches the boost comparator and starts its threshold ramp. -/
  | rampStart
  /-- `CMP_FILTERED_EDGE` (R414): A comparator level that held EFILT clocks gives a rising or falling edge to its consumers.
  `n` is the comparator. -/
  | cmpFilteredEdge (n : Fin 8) (rising : Bool)
  /-- `CMP_ENABLE` (R415): Setting CMP_CFGn.EN forces the output low for tCPU. `w` is the word written to CMP_CFGn. -/
  | cmpEnable (n : Fin 8) (w : Word)
  /-- `CMP_DISABLE` (R415): Clearing CMP_CFGn.EN forces the output low without an edge. `w` is the word written to CMP_CFGn. -/
  | cmpDisable (n : Fin 8) (w : Word)
  /-- `CMP_FORCE_END` (R415): The output forcing ends, giving a rising edge if the level is high. `high` is the compared
  level. -/
  | cmpForceEnd (n : Fin 8) (high : Bool)
  /-- `FADC_SAMPLE_DISPATCH` (R429): A SAMPLE dispatch reaches a fast converter, abandoning another conversion if needed. -/
  | fadcSampleDispatch
  /-- `FADC_NEXT_CONVERSION` (R426): A free fast converter begins the next conversion by source priority and reservation.
  `f` is the converter. -/
  | fadcNextConversion (f : Fin 4)
  /-- `FADC_CONVERSION_DONE` (R423): A fast conversion result is corrected, flagged and delivered to its destinations. `raw`
  is the raw code of the oldest conversion of converter `f`; `outside`: its input lies outside the range. -/
  | fadcConversionDone (f : Fin 4) (raw : BitVec 16) (outside : Bool)
  /-- `FADC_REGULAR_TRIGGER` (R432): A regular trigger arrives, starting the sequence after RDLY or being held or dropped.
  `line` is the trigger line. -/
  | fadcRegularTrigger (line : Fin 32)
  /-- `FADC_INJECTED_TRIGGER` (R433): An injected trigger arrives, starting the sequence after JDLY or being held or
  dropped. `line` is the trigger line. -/
  | fadcInjectedTrigger (line : Fin 32)
  /-- `FADC_RSW` (R432): FADC_CMD.RSW starts the regular sequence by software. `conv` is the RSW field written. -/
  | fadcRsw (conv : BitVec 4)
  /-- `FADC_JSW` (R433): FADC_CMD.JSW starts the injected sequence by software. `conv` is the JSW field written. -/
  | fadcJsw (conv : BitVec 4)
  /-- `FADC_SCAL` (R451): FADC_CMD.SCAL starts self-calibration of the selected gains. `conv` is the SCAL field written. -/
  | fadcScal (conv : BitVec 4)
  /-- `FADC_DISABLE` (R442): Clearing a FADC_CTRL bit invalidates the conversion in progress, retires SAMPLE actions and
  stops sequences. `w` is the word written to FADC_CTRL. -/
  | fadcDisable (w : Word)
  /-- `PADC_PERIOD_END` (R446): A precision integration period ends and a word may be delivered. `raw` is the raw result of
  the period; `sat`: the modulator saturated in it. -/
  | padcPeriodEnd (c : Fin 2) (raw : BitVec 24) (sat : Bool)
  /-- `PADC_SCAL` (R452): PADC_CMD.SCAL suspends the list at the next boundary for self-calibration. `conv` is the SCAL
  field written. -/
  | padcScal (conv : BitVec 2)
  /-- `PADC_DISABLE` (R449): Clearing a PADC_CTRL bit lets the period complete with an invalid word and stops the list. `w`
  is the word written to PADC_CTRL. -/
  | padcDisable (w : Word)
  /-- `GRIDZ_EDGE` (R445): A rising GRIDZ edge updates the mains lock and period. -/
  | gridzEdge
  /-- `GRIDLOSS` (R445): No GRIDZ edge for 25 ms loses the mains lock and sends a C-class message. -/
  | gridloss
  /-- `STALE` (R456): An input without a valid result for TOUT sets STALE and sends a C-class message. `fast`: fast input
  `n`; otherwise precision channel `n`. -/
  | staleInput (fast : Bool) (n : Fin 48)
  /-- `CMB_CTRL_WRITE` (R490): A write to CMB_CTRL enables or disables streams once checked or abandoned. `w` is the word
  written. -/
  | cmbCtrlWrite (w : Word)
  /-- `CMB_SAMPLE` (R462): A sample entry reaches its combustion stream and joins its open windows or is discarded. -/
  | cmbSample
  /-- `CMB_WINDOW_OPEN` (R466): The angle reaches a window start in FULL or HOLD and an instance opens. `c` is the stream;
  `work`: its work window, otherwise its combustion window. -/
  | cmbWindowOpen (c : Fin 12) (work : Bool)
  /-- `CMB_WINDOW_CLOSE` (R466): An instance closes tCLS after its window end is signalled. `c` is the stream; `work`: its
  work window, otherwise its combustion window. -/
  | cmbWindowClose (c : Fin 12) (work : Bool)
  /-- `CMB_RECORD` (R480): Processing of a closed combustion instance completes and its record is stored and queued. -/
  | cmbRecord
  /-- `CMB_WORK_RECORD` (R478): A closed work instance yields its IMEP record. -/
  | cmbWorkRecord
  /-- `CMB_RULE_ENABLE` (R486): Setting a rule's EN writes its accumulator to its trim. `w` is the word written to
  CMB_RCFGr. -/
  | cmbRuleEnable (r : Fin 32) (w : Word)
  /-- `CMB_DITHER_ENABLE` (R489): Enabling a dither adapter writes its DAMP at once. `w` is the word written to CMB_DCFGd. -/
  | cmbDitherEnable (d : Fin 4) (w : Word)
  /-- `BUD_CLR_CNT` (R509): BUD_CLR.CNT clears every overrun frame count and drop count. -/
  | budClrCnt
  /-- `BUD_CLR_PEAK` (R509): BUD_CLR.PEAK clears BUD_MONPEAK. -/
  | budClrPeak
  /-- `BUD_MONSEL_WRITE` (R509): A write to BUD_MONSEL selects the monitored account and restarts the peak. `w` is the word
  written. -/
  | budMonselWrite (w : Word)
  /-- `SUPERFRAME_START` (R511): A Chain superframe begins at the frame pulse and the ring election and timers are
  evaluated. -/
  | superframeStart
  /-- `STATUS_FRAME` (R524): A STATUS frame is received, forwarded and its tag verified. `p` is the port the frame arrives
  on, `bytes` the frame; `res` is the residence of its forwarded copy in 0.32 ns. -/
  | statusFrame (p : Fin 2) (bytes : List Byte) (res : Nat)
  /-- `TAG_TIMEOUT` (R524): A frame whose tag has not arrived within 2 superframes is discarded. `unit` is the member, `p`
  the port. -/
  | tagTimeout (unit : BitVec 18) (p : Fin 2)
  /-- `ANGLE_FRAME` (R527): A verified ANGLE frame forms the reference and error and steers or drives the angle. `p` is the
  port the frame arrives on, `bytes` the frame; `res` is the residence of its forwarded copy in 0.32 ns. -/
  | angleFrame (p : Fin 2) (bytes : List Byte) (res : Nat)
  /-- `DATA_FRAME` (R535): A DATA frame is received and its entry put into the named queue or dropped. `p` is the port the
  frame arrives on, `bytes` the frame; `res` is the residence of its forwarded copy in 0.32 ns. -/
  | dataFrame (p : Fin 2) (bytes : List Byte) (res : Nat)
  /-- `DATA_CHANNEL_SEND` (R536): A data channel takes an entry from its queue and sends it within quota and budget. `d` is
  the data channel. -/
  | dataChannelSend (d : Fin 16)
  /-- `DREQ_FRAME` (R526): A DREQ is received and answered with a DRSP. `p` is the port, `bytes` the frame; `turn` is t3 -
  t2 of the answer. -/
  | dreqFrame (p : Fin 2) (bytes : List Byte) (turn : Word)
  /-- `DRSP_FRAME` (R525): A DRSP completes a link-delay measurement. `p` is the port, `bytes` the frame; `elapsed` is t4 -
  t1. -/
  | drspFrame (p : Fin 2) (bytes : List Byte) (elapsed : Word)
  /-- `DREQ_TIMEOUT` (R526): No matching DRSP within 8 superframes sends a new DREQ. `p` is the port. -/
  | dreqTimeout (p : Fin 2)
  /-- `AUTH_FRAME` (R519): An AUTH fragment is received, assembled, acknowledged and its item processed. `p` is the port,
  `bytes` the frame. -/
  | authFrame (p : Fin 2) (bytes : List Byte)
  /-- `KEY_FRAME` (R521): A KEY fragment is received and the ring key and member table taken. `p` is the port, `bytes` the
  frame. -/
  | keyFrame (p : Fin 2) (bytes : List Byte)
  /-- `MEMB_FRAME` (R523): A verified MEMB frame adds or removes a member. `p` is the port the frame arrives on, `bytes` the
  frame; `res` is the residence of its forwarded copy in 0.32 ns. -/
  | membFrame (p : Fin 2) (bytes : List Byte) (res : Nat)
  /-- `AUTH_ITEM_RESEND` (R519): An unacknowledged item is sent again after 64 superframes. `p` is the port. -/
  | authItemResend (p : Fin 2)
  /-- `AUTH_TIMEOUT` (R519): Authentication not complete within 100 ms takes the link down for 1 s and sets JOINREF. `p` is
  the port. -/
  | authTimeout (p : Fin 2)
  /-- `LINK_HOLDOFF_END` (R520): The 1 s link-down after a refused join ends. `p` is the port. -/
  | linkHoldoffEnd (p : Fin 2)
  /-- `RING_OF_ONE` (R520): With no member neighbour for 32 superframes the unit becomes a ring of one. -/
  | ringOfOne
  /-- `MEMBER_TIMEOUT` (R522): A member unverified for 32 superframes is removed. `unit` is the member. -/
  | memberTimeout (unit : BitVec 18)
  /-- `PORT_DOWN` (R534): A Chain port goes down on lost sync, code errors or CRC failures. `p` is the port. -/
  | portDown (p : Fin 2)
  /-- `PORT_RETRAIN` (R534): A down port retrains and starts authentication. `p` is the port. -/
  | portRetrain (p : Fin 2)
  /-- `CHN_CTRL_WRITE` (R548): A write to CHN_CTRL enables or disables the Chain ports. `w` is the word written. -/
  | chnCtrlWrite (w : Word)
  /-- `CLRFAR` (R530): CHN_CMD.CLRFAR clears FAR and resumes steering. `w` is the word written to CHN_CMD. -/
  | clrfar (w : Word)
  /-- `ETH_RECEIVE` (R539): A received Ethernet frame is filtered, stamped and put into the receive queue or dropped.
  `bytes` is the frame without its FCS; `good`: FCS and length are right. -/
  | ethReceive (bytes : List Byte) (good : Bool)
  /-- `ETH_TRANSMIT` (R540): The MAC takes a transmit entry and sends its frame. -/
  | ethTransmit
  /-- `ETH_TX_COMPLETE` (R540): A transmitted frame completes and its completion entry is put. -/
  | ethTxComplete
  /-- `ETH_STEP` (R541): ETH_PCMD.STEP adds the step offset to the ETH clock. `w` is the word written to ETH_PCMD. -/
  | ethStep (w : Word)
  /-- `PCAP` (R541): A CTRIG pulse latches the ETH clock. `line` is the trigger line. -/
  | pcapLatch (line : Fin 32)
  /-- `CAN_RECEIVE` (R544): A received CAN frame is filtered and put into its queue or dropped. `k` is the controller; the
  rest is the frame. -/
  | canReceive (k : Fin 2) (id : BitVec 29) (ide fdf brs rtr : Bool) (dlc : BitVec 4) (data : List Byte)
  /-- `CAN_TRANSMIT` (R543): A controller takes a transmit entry and sends it, or discards it as TXBAD. `k` is the
  controller. -/
  | canTransmit (k : Fin 2)
  /-- `BUSOFF` (R544): A controller enters bus-off and sends a C-class message. `k` is the controller. -/
  | busoff (k : Fin 2)
  /-- `CAN_AUTO_RECOVERY` (R544): With AUTOREC the controller recovers after 128 occurrences of 11 recessive bits. `k` is
  the controller. -/
  | canAutoRecovery (k : Fin 2)
  /-- `CAN_REC` (R544): CAN_CMDk.REC starts recovery from bus-off. `w` is the word written to CAN_CMDk. -/
  | canRec (k : Fin 2) (w : Word)
  /-- `SPI_READ` (R546): An SPI READ transaction reads words after its command CRC verifies. `win`, `off` and `len` are the
  fields of the command word; `ecc` is what the codes of the words show. -/
  | spiRead (win : Fin 4) (off : BitVec 22) (len : BitVec 4) (form : SpiForm) (ecc : Ecc)
  /-- `SPI_WRITE` (R546): An SPI WRITE transaction is applied after SPI_CS_N rises with a correct CRC. `data` holds the 1 to
  16 data words. -/
  | spiWrite (win : Fin 4) (off : BitVec 22) (data : List Word) (form : SpiForm) (ecc : Ecc)
  /-- `SPI_QPUT` (R546): An SPI QPUT transaction puts an entry into a queue. `q` is the queue, `data` holds the data words. -/
  | spiQput (q : BitVec 5) (data : List Word) (form : SpiForm)
  /-- `SPI_QGET` (R546): An SPI QGET transaction takes an entry from a queue. `q` is the queue, `len` the LEN field. -/
  | spiQget (q : BitVec 5) (len : BitVec 4) (form : SpiForm)
  /-- `SPI_NOP` (R547): An SPI NOP transaction returns status only. -/
  | spiNop (form : SpiForm)
  /-- `RLOAD` (R547): In RECOVERY, RLOAD writes its words into SRAM. `data` holds the 1 to 16 data words. -/
  | rload (off : BitVec 22) (data : List Word) (form : SpiForm)
  /-- `RCOMMIT` (R547): In RECOVERY, RCOMMIT verifies the staged image, writes it to slot A or C0 and resets. `typ` is the
  data word. -/
  | rcommit (typ : Word) (form : SpiForm)
  /-- `SPI_TOUT` (R546): SPI_CS_N low longer than SPI_TOUT ends the transaction with status TOUT. -/
  | spiTout
  /-- `FAULT_DECISION` (R554): A fault message reaches the collector and is classed, counted, logged and reacted to. `src`
  is the island the message comes from. -/
  | faultDecision (src : Island)
  /-- `SHADOW_END` (R558): A shadow ends at its SHADOW-th frame pulse. -/
  | shadowEnd
  /-- `FLT_UPEND_CLEAR` (R561): A W1C write to FLT_UPEND clears U bits and may release FLT_N. `w` is the word written to
  FLT_UPEND. -/
  | fltUpendClear (w : Word)
  /-- `FLT_ARM` (R563): Writing ARM = 1 to FLT_CTRL makes FLT_N follow the pending U and F bits. `logc` is the LOGC bit of
  the word written. -/
  | fltArm (logc : Bool)
  /-- `FLT_LOCK` (R569): Writing LOCK = 1 to FLT_CTRL locks the reaction table until reset. `logc` is the LOGC bit of the
  word written. -/
  | fltLock (logc : Bool)
  /-- `FLT_CLR_CNT` (R570): FLT_CLR.CNT clears the C, U, SEC and INJ counts. -/
  | fltClrCnt
  /-- `FLT_INJ_ARM` (R565): Writing ARM = 1 to FLT_INJ arms a check-bit injection on the word at FLT_INJA. `target` and
  `tout` are the fields written. -/
  | fltInjArm (target : BitVec 4) (tout : BitVec 16)
  /-- `FLT_INJ_DISARM` (R565): Writing ARM = 0 to FLT_INJ disarms an armed injection. `target` and `tout` are the fields
  written. -/
  | fltInjDisarm (target : BitVec 4) (tout : BitVec 16)
  /-- `INJTO` (R565): No access within TOUT ms disarms the injection with result TIMEOUT. -/
  | injto
  /-- `LOCKET_ENTRY` (R580): An entry reaches Locket's input queue, or is dropped and counted when full. -/
  | locketEntry
  /-- `LOCKET_RECORD_WRITE` (R579): Locket starts writing one record per frame as two line writes. -/
  | locketRecordWrite
  /-- `LOCKET_RECORD_DONE` (R575): A record's second line verifies, its pinned copy follows and a full block starts its
  seal. -/
  | locketRecordDone
  /-- `SEAL_SIGNED` (R578): Hallmark completes a block seal signature and the seal records are written. -/
  | sealSigned
  /-- `SEAL` (R576): LKT_CMD.SEAL closes the open ring block early. `w` is the word written to LKT_CMD. -/
  | sealRing (w : Word)
  /-- `PSEAL` (R585): LKT_CMD.PSEAL closes the open pinned block early. `w` is the word written to LKT_CMD. -/
  | pseal (w : Word)
  /-- `PINNED_SEAL_TIMEOUT` (R585): PTIME after its last copy, the open pinned block is sealed early. -/
  | pinnedSealTimeout
  /-- `LOCKET_SCAN_DONE` (R583): The start-up scan ends; an unfinished clear resumes, a torn slot is marked, blocks are
  sealed and the queue opens. -/
  | locketScanDone
  /-- `USER_PUT` (R580): LKT_UCMD.PUT queues a USER entry, pinned if requested. `w` is the word written to LKT_UCMD. -/
  | userPut (w : Word)
  /-- `VERIFY_BLOCK` (R587): LKT_VCMD GO starts verification of a block. `w` is the word written to LKT_VCMD. -/
  | verifyBlock (w : Word)
  /-- `VDONE` (R587): Block verification completes and its result is reported. -/
  | vdone
  /-- `AUTHORISED_REQUEST` (R589): LKT_ACMD GO checks an authorised CLEAR or TIMESET request and carries it out or refuses
  it. `w` is the word written to LKT_ACMD. -/
  | authorisedRequest (w : Word)
  /-- `CLRDONE` (R590): A clear finishes its erases and writes the CLRDONE record. -/
  | clrdone
  /-- `TIME_STEP` (R601): LKT_TCMD.STEP adds the step offset to calendar time. `w` is the word written to LKT_TCMD. -/
  | timeStep (w : Word)
  /-- `TIME_ADJUST` (R601): A write to LKT_TADJ sets the calendar rate and TSRC to DISC. `w` is the word written to
  LKT_TADJ. -/
  | timeAdjust (w : Word)
  /-- `TLOSS` (R600): HOLD seconds without a step or slew set TSRC to FREE and TLOSS. -/
  | tloss
  /-- `LKT_TSECL_READ` (R605): A read of LKT_TSECL latches LKT_TSECH and LKT_TNS. -/
  | lktTseclRead
  /-- `ENROLMENT` (R596): HMK_ECMD GO checks an enrolment package and writes the next slot or refuses it. `w` is the word
  written to HMK_ECMD. -/
  | enrolment (w : Word)
  /-- `ROLLBACK_RAISE` (R598): A write to HMK_RBCMD raises a rollback minimum. `w` is the word written to HMK_RBCMD. -/
  | rollbackRaise (w : Word)
  /-- `RNGERR` (R594): A failed entropy health test sets RNGERR and refuses random operations. -/
  | rngerr
  /-- `LOUPE_NOP` (R631): A Loupe NOP command frame is answered with a RESP. `tag` and `addr` are fields of the frame;
  `good`: CRC and stop bit are right; `idle`: 16 idle bits came before it. -/
  | loupeNop (tag : BitVec 4) (addr : Word) (good idle : Bool)
  /-- `LOUPE_READ` (R632): A Loupe READ performs one bus read and returns it in a RESP. `tag` and `addr` are fields of the
  frame; `good`: CRC and stop bit are right; `idle`: 16 idle bits came before it. -/
  | loupeRead (tag : BitVec 4) (addr : Word) (good idle : Bool) (ecc : Ecc)
  /-- `LOUPE_WRITE` (R632): A Loupe WRITE performs one bus write after its CRC passes. `tag` and `addr` are fields of the
  frame; `good`: CRC and stop bit are right; `idle`: 16 idle bits came before it. -/
  | loupeWrite (tag : BitVec 4) (addr w : Word) (good idle : Bool) (ecc : Ecc)
  /-- `RESYNC` (R631): A RESYNC command sends a SYNC packet after its RESP. `tag` and `addr` are fields of the frame;
  `good`: CRC and stop bit are right; `idle`: 16 idle bits came before it. -/
  | resync (tag : BitVec 4) (addr : Word) (good idle : Bool)
  /-- `LOUPE_SYNC` (R634): Loupe sends a SYNC packet when 4,096 bytes or 65,536 slots have passed. `n` trace packets have
  left the buffer. -/
  | loupeSync (n : Nat)
  /-- `TRACE_RESUME` (R635): A trace buffer drained to half full resumes with LOSS and SYNC packets. -/
  | traceResume
  /-- `DBG_ENABLE_WRITE` (R630): A level-S write changing DBG_CTRL.EN opens or closes Loupe and queues a DEBUG entry. Master
  `m` writes `w` to DBG_CTRL. -/
  | dbgEnableWrite (m : Master) (w : Word)
  /-- `DBG_HALT` (R636): A write to DBG_HALT halts the named pairs at an instruction boundary. `w` is the word written to
  DBG_HALT. -/
  | dbgHalt (w : Word)
  /-- `DBG_RES` (R636): A write to DBG_RES resumes the named halted pairs. `w` is the word written to DBG_RES. -/
  | dbgRes (w : Word)
  /-- `DBG_STEP` (R636): A write to DBG_STEP executes one instruction of the named halted pairs. `w` is the word written to
  DBG_STEP. -/
  | dbgStep (w : Word)
  /-- `DBG_TRES` (R637): A write to DBG_TRES resumes a HALTED thread after its BRK. `w` is the word written to DBG_TRES. -/
  | dbgTres (w : Word)
  /-- `DBG_UTRC` (R633): A write to DBG_UTRC sends a USER trace packet. `w` is the word written to DBG_UTRC. -/
  | dbgUtrc (w : Word)
  /-- `DUTY_SUB_WINDOW` (R378): Each 1 ms sub-window of a channel's 100 ms on-time window closes, the oldest drops out and
  starts are accepted again once the sum lies below the limit minus 1 ms. `n` is the channel. -/
  | dutySubWindow (n : Fin 12)
  /-- `VHVOV_RELEASE` (R383): VHVk falls below OV − 1.0 V and switching of boost converter k resumes. `v` is VHVk measured,
  in 0.1 V. -/
  | vhvovRelease (k : Fin 2) (v : BitVec 10)
  /-- `AUTO_NEGOTIATION_WORD` (R538): The PHY's SGMII auto-negotiation word changes, setting the MAC's link state and speed
  and the LINK event. `link` and `speed` (0 10, 1 100, 2 1,000 Mbit/s) are what the word says. -/
  | autoNegotiationWord (link : Bool) (speed : Fin 3)
  /-- `ETH_STALE` (R539): No Ethernet frame accepted for TOUT ms sets STALE and sends a C-class message. -/
  | ethStale
  /-- `FILTER_STALE` (R544): A CAN filter with TOUT ≠ 0 that matches no frame for TOUT ms sets STALE and sends a C-class
  message. `k` is the controller, `j` the filter. -/
  | filterStale (k : Fin 2) (j : Fin 32)
  /-- `TRIGGER_POINT` (R403): A PWM counter steps onto TPOS in direction TDIR and, every TPRE + 1 times, pulses the pair's
  trigger output. `n` is the pair. -/
  | triggerPoint (n : Fin 10)
  /-- `ILLEGAL` (R217): An instruction word with an unassigned opcode or function, non-zero unused field, or a profile it is
  not legal in raises ILLEGAL. `word` is the instruction word. -/
  | illegal (a : Agent) (word : Word)
  /-- `LOUPE_UNUSED_OP` (R631): A Loupe command frame with an OP other than 0 to 3 is answered with a RESP of status OP.
  `tag` and `addr` are fields of the frame; `good`: CRC and stop bit are right; `idle`: 16 idle bits came before it. -/
  | loupeUnusedOp (tag : BitVec 4) (addr : Word) (good idle : Bool)
  deriving DecidableEq, Repr

end Sys2Proof
end

