-- ==== Sys2Proof/Config.lean ====
section
/-! DEFINITION. What an implementation fixes and what the spec leaves open: constants with no body. Nothing in Lean can
evaluate one of them, so a claim about the model holds whatever they are. -/

namespace Sys2Proof.Config

/-- The bytes of the boot ROM (R37): the spec gives its procedure (R306), not its contents. -/
opaque romByte : Nat → Byte

/-- A free value: the number an unstated result takes, for a use count and what it depends on (log 7). -/
opaque freeValue : Nat → Nat → Nat

/-- The nonce Hallmark draws at reset, word by word (R606: "Drawn at reset"; log 6). -/
opaque hmkChal : Nat → Word

/-- Natural logarithm and power in binary32 as the combustion datapath forms them (R472, R473): the spec does not say how they
round (log 7). -/
opaque lnF : Word → Word
opaque powF : Word → Word → Word

/-- Whether infinity times zero added to a quiet NaN raises IV: IEEE 754 leaves it to the implementation, and so does the spec
(log 7). -/
opaque macNaNInvalid : Bool

/-! Cryptography: the spec names the standards and gives none of their arithmetic, so each function is left without a body (log
11); the length of a result is that of its standard. Keys, messages and signatures are byte lists. -/

/-- SHA-256. -/
opaque sha256Of : List Byte → Vector Byte 32
def sha256 (msg : List Byte) : List Byte := (sha256Of msg).toList

/-- AES-CMAC: key, message; 16 bytes. -/
opaque cmacOf : List Byte → List Byte → Vector Byte 16
def cmac (key msg : List Byte) : List Byte := (cmacOf key msg).toList

/-- ECDSA P-256 over SHA-256: public key, message, signature. -/
opaque ecdsaOk : List Byte → List Byte → List Byte → Bool

/-- ECDSA P-256 over SHA-256 with the nonce of RFC 6979: private key, message. -/
opaque ecdsaSignOf : List Byte → List Byte → Vector Byte 64
def ecdsaSign (key msg : List Byte) : List Byte := (ecdsaSignOf key msg).toList

/-- ECDH P-256: the public key of an ephemeral private key (named by a number), and the secret shared with a public key. -/
opaque ecdhPubOf : Nat → Vector Byte 64
def ecdhPub (seed : Nat) : List Byte := (ecdhPubOf seed).toList
opaque ecdhShared : Nat → List Byte → List Byte

/-- HKDF-SHA-256: input keying material, salt; an AES-128 key (R518). -/
opaque hkdfOf : List Byte → List Byte → Vector Byte 16
def hkdf (ikm salt : List Byte) : List Byte := (hkdfOf ikm salt).toList

/-- AES key wrap of RFC 3394: key, data. -/
opaque keyWrap : List Byte → List Byte → List Byte
opaque keyUnwrap : List Byte → List Byte → Option (List Byte)

/-- X.509 v3: a certificate leads to a trusted key (the flag: validity periods are checked, at the seconds given); its public key;
its unit number. -/
opaque certOk : List Byte → List Byte → Bool → Nat → Bool
opaque certKey : List Byte → List Byte
opaque certUnit : List Byte → Nat

/-- The store of Hallmark written at manufacture (R593): device private key, device public key, device certificate, and the
public keys of the manufacturing CA, of the image key and of the service key. -/
opaque devPrivateOf : Vector Byte 32
def devPrivate : List Byte := devPrivateOf.toList
opaque devPublicOf : Vector Byte 64
def devPublic : List Byte := devPublicOf.toList
opaque devCert : List Byte
opaque caKeyOf : Vector Byte 64
def caKey : List Byte := caKeyOf.toList
opaque imageKeyOf : Vector Byte 64
def imageKey : List Byte := imageKeyOf.toList
opaque serviceKeyOf : Vector Byte 64
def serviceKey : List Byte := serviceKeyOf.toList

/-- Bytes drawn from the random bit generator, by a use count (R594). -/
opaque randomByte : Nat → Nat → Byte

end Sys2Proof.Config
end

