-- ==== Sys2Proof/Machine/Bits.lean ====
section
/-! DEFINITION. Bit fields, saturating and signed arithmetic, byte order, sparse tables and fixed arrays addressed by number:
the plain helpers every other file uses. -/

namespace Sys2Proof.Machine

/-! ### Bit fields of a register word -/

/-- A bit field: its lowest bit and its width. -/
structure Fld where
  lo : Nat
  w  : Nat
  deriving DecidableEq, Repr

/-- The value of the field in a register word, as a number. -/
def Fld.get (f : Fld) (r : Word) : Nat := r.toNat / 2 ^ f.lo % 2 ^ f.w

/-- A number below `2 ^ w` read as two's complement. -/
def signedOf (w n : Nat) : Int := if n % 2 ^ w < 2 ^ (w - 1) then ((n % 2 ^ w : Nat) : Int) else ((n % 2 ^ w : Nat) : Int) - 2 ^ w

/-- The two's complement pattern of `i` in `w` bits. -/
def patternOf (w : Nat) (i : Int) : Nat := (i % (2 ^ w : Int)).toNat

/-- The value of the field read as two's complement. -/
def Fld.getI (f : Fld) (r : Word) : Int := signedOf f.w (f.get r)

/-- The bits of the field, in place. -/
def Fld.mask (f : Fld) : Word := BitVec.ofNat 32 ((2 ^ f.w - 1) * 2 ^ f.lo)

/-- The register word with the field set to `v` (modulo the field's width), every other bit kept. -/
def Fld.set (f : Fld) (r : Word) (v : Nat) : Word :=
  (r &&& ~~~f.mask) ||| BitVec.ofNat 32 (v % 2 ^ f.w * 2 ^ f.lo)

/-- The field one bit wide at `i`. -/
abbrev bitFld (i : Nat) : Fld := ⟨i, 1⟩

/-- Bit `i` of a word. -/
def bitOf (r : Word) (i : Nat) : Bool := r.getLsbD i

/-- The word with bit `i` set to `b`, every other bit kept. -/
def withBit (r : Word) (i : Nat) (b : Bool) : Word :=
  if b then r ||| BitVec.ofNat 32 (2 ^ i) else r &&& ~~~BitVec.ofNat 32 (2 ^ i)

/-- 1 for true, 0 for false. -/
def b2n (b : Bool) : Nat := if b then 1 else 0

/-! ### Arithmetic -/

/-- `n` held at most at `top` (a saturating counter). -/
def capAt (top n : Nat) : Nat := if n < top then n else top

/-- The signed number `i` held between `lo` and `hi`. -/
def clampI (lo hi i : Int) : Int := if i < lo then lo else if hi < i then hi else i

/-- `num / den` rounded to the nearest whole number, an exact half up (R9); 0 for `den = 0`. -/
def roundDiv (num den : Int) : Int := (2 * num + den) / (2 * den)

/-- The natural-number form of `roundDiv`. -/
def roundDivN (num den : Nat) : Nat := (2 * num + den) / (2 * den)

/-- Word `a` lies after word `b`, for angle words and slot words alike (R10). -/
def wLater (a b : Word) : Bool := 1 ≤ (a - b).toNat && (a - b).toNat ≤ 2 ^ 31 - 1

/-- Word `a` lies at or after word `b` (R10). -/
def wReached (a b : Word) : Bool := (a - b).toNat ≤ 2 ^ 31 - 1

/-- The signed difference `a - b` of two words, the nearer way round. -/
def wDiff (a b : Word) : Int := signedOf 32 (a - b).toNat

/-! ### Bytes -/

/-- The `n` little-endian bytes of a number, lowest first (R6). -/
def toBytes : Nat → Nat → List Byte
  | 0, _ => []
  | n + 1, v => BitVec.ofNat 8 v :: toBytes n (v / 256)

/-- The number a little-endian byte list stands for (R6). -/
def ofBytes : List Byte → Nat
  | [] => 0
  | b :: t => b.toNat + 256 * ofBytes t

/-- The bytes of a list of words, each little-endian (R6). -/
def wordsToBytes : List Word → List Byte
  | [] => []
  | w :: t => toBytes 4 w.toNat ++ wordsToBytes t

/-! ### Sparse tables: a list of key and value pairs in one canonical form (keys strictly rising, no entry equal to the
value an unlisted key has) -/

/-- The entry of a key, if it is listed. -/
def tabFind {α : Type} : List (Nat × α) → Nat → Option α
  | [], _ => none
  | (k', v) :: t, k => if k' = k then some v else tabFind t k

/-- The value of a key: the entry's, or what an unlisted key holds. -/
def tabGet {α : Type} (d : Nat → α) (l : List (Nat × α)) (k : Nat) : α :=
  match tabFind l k with
  | some v => v
  | none => d k

/-- The list without any entry of the key. -/
def tabDel {α : Type} : List (Nat × α) → Nat → List (Nat × α)
  | [], _ => []
  | (k', v) :: t, k => if k' = k then tabDel t k else (k', v) :: tabDel t k

/-- The list with a new entry put before the first larger key. -/
def tabIns {α : Type} : List (Nat × α) → Nat → α → List (Nat × α)
  | [], k, v => [(k, v)]
  | (k', v') :: t, k, v => if k < k' then (k, v) :: (k', v') :: t else (k', v') :: tabIns t k v

/-- The table with the value of one key set. Setting the value an unlisted key has removes the entry. -/
def tabSet {α : Type} [DecidableEq α] (d : Nat → α) (l : List (Nat × α)) (k : Nat) (v : α) : List (Nat × α) :=
  if v = d k then tabDel l k else tabIns (tabDel l k) k v

/-- A key lies above a bound (none: no bound). -/
def keyAbove : Option Nat → Nat → Bool
  | none, _ => true
  | some b, k => decide (b < k)

/-- The canonical form: keys strictly rising from above `lo`, no entry equal to what an unlisted key has. -/
def tabWfFrom {α : Type} [DecidableEq α] (d : Nat → α) (lo : Option Nat) : List (Nat × α) → Bool
  | [] => true
  | (k, v) :: t =>
    keyAbove lo k && decide (v ≠ d k) && tabWfFrom d (some k) t

/-- The canonical form of a whole table. -/
def tabWf {α : Type} [DecidableEq α] (d : Nat → α) (l : List (Nat × α)) : Bool := tabWfFrom d none l

/-! ### Fixed arrays addressed by number -/

/-- Element `i` of a fixed array (the default element outside it). -/
def vat {α : Type} {n : Nat} [Inhabited α] (v : Vector α n) (i : Nat) : α := v.toList.getD i default

/-- The array with element `i` changed by `f` (unchanged outside it). -/
def vupd {α : Type} {n : Nat} (v : Vector α n) (i : Nat) (f : α → α) : Vector α n :=
  Vector.ofFn fun j => if j.val = i then f v[j] else v[j]

/-- The array with element `i` set. -/
def vset {α : Type} {n : Nat} (v : Vector α n) (i : Nat) (x : α) : Vector α n := vupd v i fun _ => x

/-! ### Register rows -/

/-- The access codes of R11. -/
inductive Acc where
  | rw | ro | w1c | wo | rwc
  deriving DecidableEq, Repr

/-- A static legal range of a field (R13): any value, an unsigned range, a two's complement range. -/
inductive Rng where
  | any
  | u (min max : Nat)
  | s (min max : Int)
  deriving DecidableEq, Repr

/-- One field of a register row. -/
structure FRow where
  fld : Fld
  acc : Acc
  rng : Rng
  deriving DecidableEq, Repr

/-- The bit of the write-error register that reports a refused write: none, one bit, or one bit per instance from a base. -/
inductive WErr where
  | none
  | bit (b : Nat)
  | inst (base : Nat)
  deriving DecidableEq, Repr

/-- The unit whose enable makes the RWC fields of a register read-only (R11, R13); what "disabled" means for each is said by
the block's own file. -/
inductive Lock where
  | none | wheel | echo | pat | obs | tors | fact | cal | thr | que | dma | xcfg | tmr | injAll | injBst | injBank | injCh
  | pwm | pwmBst | cmp | cmbAll | cmbStr | cmbRule | cmbDith | chnAll | chnData | eth | can | spi | ign | aout
  deriving DecidableEq, Repr

/-- One row of a block's register map: a register, or an array of `c1` by `c2` registers at strides `s1` and `s2`. -/
structure Row where
  off  : Nat
  s1   : Nat
  c1   : Nat
  s2   : Nat
  c2   : Nat
  rst  : Nat
  werr : WErr
  lock : Lock
  flds : List FRow
  deriving DecidableEq, Repr

/-- The instance numbers an offset names in a row, if it names one. -/
def Row.index (r : Row) (o : Nat) : Option (Nat × Nat) :=
  if o < r.off then none
  else
    let i := (o - r.off) / r.s1
    let rem := (o - r.off) % r.s1
    if i < r.c1 ∧ rem % r.s2 = 0 ∧ rem / r.s2 < r.c2 then some (i, rem / r.s2) else none

/-- The row of a list that holds an offset, with the instance numbers. -/
def rowFind : List Row → Nat → Option (Row × Nat × Nat)
  | [], _ => none
  | r :: t, o =>
    match r.index o with
    | some (i, j) => some (r, i, j)
    | none => rowFind t o

/-- The field value lies in the static legal range. -/
def Rng.ok (g : Rng) (f : Fld) (w : Word) : Bool :=
  match g with
  | .any => true
  | .u a b => decide (a ≤ f.get w) && decide (f.get w ≤ b)
  | .s a b => decide (a ≤ f.getI w) && decide (f.getI w ≤ b)

/-- Every written field of a register lies in its static legal range (R13). -/
def fieldsLegal (fs : List FRow) (w : Word) : Bool :=
  fs.all fun f => match f.acc with
    | .ro | .w1c => true
    | .rw | .wo | .rwc => f.rng.ok f.fld w

/-- The write repeats the value held in every RWC field (R11, R13). -/
def rwcSame (fs : List FRow) (old w : Word) : Bool :=
  fs.all fun f => match f.acc with
    | .rwc => f.fld.get w == f.fld.get old
    | .ro | .w1c | .rw | .wo => true

/-- The register after the write of `w`: RW and RWC fields take the value written, W1C fields lose the bits written 1, RO, WO
and reserved bits are unchanged (R11, R12). -/
def mergeFields (fs : List FRow) (old w : Word) : Word :=
  fs.foldl (fun acc f => match f.acc with
    | .rw | .rwc => f.fld.set acc (f.fld.get w)
    | .w1c => acc &&& ~~~(w &&& f.fld.mask)
    | .ro | .wo => acc) old

end Sys2Proof.Machine
end

