-- ==== Sys2Proof/Machine/Map.lean ====
section
/-! DEFINITION. The register map: one name per register of the spec's register maps (its bus address, R37 and R39, as a
function of its index letters), one name per field (its lowest bit and its width) and one number per event bit. The names are
the spec's own, with the index letters left out: `WHL_CFG n` is the spec's `WHL_CFGn`, `WHL_CFG_FILT` its field `FILT`. -/

namespace Sys2Proof.Machine


/-! ### Block SYS, base 0x40000000 (R39) -/

/-- `SYS_STAT` (R629). -/
abbrev SYS_STAT : Nat := 0x40000000
abbrev SYS_STAT_GOOD : Fld := ⟨0, 5⟩
abbrev SYS_STAT_WARN : Fld := ⟨8, 5⟩
abbrev SYS_STAT_SEQ : Fld := ⟨16, 1⟩
/-- `SYS_EVT` (R629). -/
abbrev SYS_EVT : Nat := 0x40000004
abbrev SYS_EVT_ANY : Fld := ⟨0, 4⟩
abbrev SYS_EVT_WAKE : Nat := 0
abbrev SYS_EVT_ALARM : Nat := 1
abbrev SYS_EVT_RTCF : Nat := 2
abbrev SYS_EVT_SLPABT : Nat := 3
/-- `SYS_WERR` (R629). -/
abbrev SYS_WERR : Nat := 0x40000008
abbrev SYS_WERR_ANY : Fld := ⟨0, 5⟩
abbrev SYS_WERR_THR : Nat := 0
abbrev SYS_WERR_RST : Nat := 1
abbrev SYS_WERR_SLEEP : Nat := 2
abbrev SYS_WERR_WAKE : Nat := 3
abbrev SYS_WERR_ALM : Nat := 4
/-- `SYS_WERRA` (R629). -/
abbrev SYS_WERRA : Nat := 0x4000000c
abbrev SYS_WERRA_OFFSET : Fld := ⟨0, 16⟩
/-- `SYS_THR` (R629). -/
abbrev SYS_THR : Nat := 0x40000010
abbrev SYS_THR_WARN : Fld := ⟨0, 8⟩
abbrev SYS_THR_RST : Fld := ⟨8, 8⟩
/-- `SYS_RCAUSE` (R629). -/
abbrev SYS_RCAUSE : Nat := 0x40000014
abbrev SYS_RCAUSE_CAUSE : Fld := ⟨0, 4⟩
abbrev SYS_RCAUSE_DETAIL : Fld := ⟨4, 3⟩
abbrev SYS_RCAUSE_COUNT : Fld := ⟨16, 8⟩
/-- `SYS_RST` (R629). -/
abbrev SYS_RST : Nat := 0x40000018
abbrev SYS_RST_GO : Fld := ⟨0, 1⟩
abbrev SYS_RST_KEY : Fld := ⟨8, 8⟩
/-- `SYS_CLK` (R629). -/
abbrev SYS_CLK : Nat := 0x4000001c
abbrev SYS_CLK_ANY : Fld := ⟨0, 6⟩
abbrev SYS_CLK_XOK : Nat := 0
abbrev SYS_CLK_MLOCK : Nat := 1
abbrev SYS_CLK_LLOCK : Nat := 2
abbrev SYS_CLK_TLOCK : Nat := 3
abbrev SYS_CLK_RTCOK : Nat := 4
abbrev SYS_CLK_RTCRC : Nat := 5
/-- `SYS_SLEEP` (R629). -/
abbrev SYS_SLEEP : Nat := 0x40000020
abbrev SYS_SLEEP_GO : Fld := ⟨0, 1⟩
/-- `SYS_WAKE` (R629). -/
abbrev SYS_WAKE : Nat := 0x40000024
abbrev SYS_WAKE_EXT : Fld := ⟨0, 8⟩
abbrev SYS_WAKE_CMP : Fld := ⟨8, 1⟩
abbrev SYS_WAKE_ALARM : Fld := ⟨9, 1⟩
abbrev SYS_WAKE_WHL : Fld := ⟨10, 1⟩
abbrev SYS_WAKE_CAN : Fld := ⟨11, 2⟩
abbrev SYS_WAKE_SPI : Fld := ⟨13, 1⟩
abbrev SYS_WAKE_TMR : Fld := ⟨16, 16⟩
/-- `SYS_WSRC` (R629). -/
abbrev SYS_WSRC : Nat := 0x40000028
abbrev SYS_WSRC_SRC : Fld := ⟨0, 32⟩
/-- `SYS_RTCL` (R629). -/
abbrev SYS_RTCL : Nat := 0x4000002c
abbrev SYS_RTCL_CNT : Fld := ⟨0, 32⟩
/-- `SYS_RTCH` (R629). -/
abbrev SYS_RTCH : Nat := 0x40000030
abbrev SYS_RTCH_CNT : Fld := ⟨0, 16⟩
/-- `SYS_ALML` (R629). -/
abbrev SYS_ALML : Nat := 0x40000034
abbrev SYS_ALML_ALM : Fld := ⟨0, 32⟩
/-- `SYS_ALMH` (R629). -/
abbrev SYS_ALMH : Nat := 0x40000038
abbrev SYS_ALMH_ALM : Fld := ⟨0, 16⟩
abbrev SYS_ALMH_ARMED : Fld := ⟨16, 1⟩
/-- `SYS_CFG` (R629). -/
abbrev SYS_CFG : Nat := 0x4000003c
abbrev SYS_CFG_LOCK : Fld := ⟨0, 1⟩

/-! ### Block FLT, base 0x40010000 (R39) -/

/-- `FLT_CTRL` (R570). -/
abbrev FLT_CTRL : Nat := 0x40010000
abbrev FLT_CTRL_ARM : Fld := ⟨0, 1⟩
abbrev FLT_CTRL_LOGC : Fld := ⟨1, 1⟩
abbrev FLT_CTRL_LOCK : Fld := ⟨2, 1⟩
/-- `FLT_STAT` (R570). -/
abbrev FLT_STAT : Nat := 0x40010004
abbrev FLT_STAT_LOW : Fld := ⟨0, 1⟩
abbrev FLT_STAT_INJARM : Fld := ⟨1, 1⟩
/-- `FLT_EVT` (R570). -/
abbrev FLT_EVT : Nat := 0x40010008
abbrev FLT_EVT_ANY : Fld := ⟨0, 7⟩
abbrev FLT_EVT_C : Nat := 0
abbrev FLT_EVT_U : Nat := 1
abbrev FLT_EVT_F : Nat := 2
abbrev FLT_EVT_SEC : Nat := 3
abbrev FLT_EVT_INJOK : Nat := 4
abbrev FLT_EVT_INJTO : Nat := 5
abbrev FLT_EVT_REACT : Nat := 6
/-- `FLT_WERR` (R570). -/
abbrev FLT_WERR : Nat := 0x4001000c
abbrev FLT_WERR_ANY : Fld := ⟨0, 3⟩
abbrev FLT_WERR_CTRL : Nat := 0
abbrev FLT_WERR_INJ : Nat := 1
abbrev FLT_WERR_RCT : Nat := 2
/-- `FLT_WERRA` (R570). -/
abbrev FLT_WERRA : Nat := 0x40010010
abbrev FLT_WERRA_OFFSET : Fld := ⟨0, 16⟩
/-- `FLT_UPEND` (R570). -/
abbrev FLT_UPEND : Nat := 0x40010014
abbrev FLT_UPEND_BLK : Fld := ⟨0, 28⟩
/-- `FLT_FLAT` (R570). -/
abbrev FLT_FLAT : Nat := 0x40010018
abbrev FLT_FLAT_BLK : Fld := ⟨0, 28⟩
/-- `FLT_SHAD` (R570). -/
abbrev FLT_SHAD : Nat := 0x4001001c
abbrev FLT_SHAD_BLK : Fld := ⟨0, 28⟩
/-- `FLT_CNT0` (R570). -/
abbrev FLT_CNT0 : Nat := 0x40010020
abbrev FLT_CNT0_C : Fld := ⟨0, 16⟩
abbrev FLT_CNT0_U : Fld := ⟨16, 16⟩
/-- `FLT_CNT1` (R570). -/
abbrev FLT_CNT1 : Nat := 0x40010024
abbrev FLT_CNT1_SEC : Fld := ⟨0, 16⟩
abbrev FLT_CNT1_INJ : Fld := ⟨16, 8⟩
abbrev FLT_CNT1_F : Fld := ⟨24, 8⟩
/-- `FLT_CLR` (R570). -/
abbrev FLT_CLR : Nat := 0x40010028
abbrev FLT_CLR_CNT : Fld := ⟨0, 1⟩
/-- `FLT_LASTL` (R570). -/
abbrev FLT_LASTL : Nat := 0x40010040
abbrev FLT_LASTL_MSG : Fld := ⟨0, 32⟩
/-- `FLT_LASTH` (R570). -/
abbrev FLT_LASTH : Nat := 0x40010044
abbrev FLT_LASTH_MSG : Fld := ⟨0, 32⟩
/-- `FLT_FIRSTL` (R570). -/
abbrev FLT_FIRSTL : Nat := 0x40010048
abbrev FLT_FIRSTL_MSG : Fld := ⟨0, 32⟩
/-- `FLT_FIRSTH` (R570). -/
abbrev FLT_FIRSTH : Nat := 0x4001004c
abbrev FLT_FIRSTH_MSG : Fld := ⟨0, 32⟩
/-- `FLT_INJ` (R570). -/
abbrev FLT_INJ : Nat := 0x40010050
abbrev FLT_INJ_TARGET : Fld := ⟨0, 4⟩
abbrev FLT_INJ_ARM : Fld := ⟨8, 1⟩
abbrev FLT_INJ_TOUT : Fld := ⟨16, 16⟩
/-- `FLT_INJA` (R570). -/
abbrev FLT_INJA : Nat := 0x40010054
abbrev FLT_INJA_ADDR : Fld := ⟨0, 32⟩
/-- `FLT_INJS` (R570). -/
abbrev FLT_INJS : Nat := 0x40010058
abbrev FLT_INJS_SYN : Fld := ⟨0, 8⟩
abbrev FLT_INJS_RESULT : Fld := ⟨8, 2⟩
/-- `FLT_RMx` (R570). -/
abbrev FLT_RM (n : Nat) : Nat := 0x40010100 + 0x10 * n
abbrev FLT_RM_BLOCK : Fld := ⟨0, 6⟩
abbrev FLT_RM_BANY : Fld := ⟨6, 1⟩
abbrev FLT_RM_UNIT : Fld := ⟨8, 4⟩
abbrev FLT_RM_UANY : Fld := ⟨12, 1⟩
abbrev FLT_RM_KIND : Fld := ⟨16, 8⟩
abbrev FLT_RM_KANY : Fld := ⟨24, 1⟩
abbrev FLT_RM_EN : Fld := ⟨31, 1⟩
/-- `FLT_RAx` (R570). -/
abbrev FLT_RA (n : Nat) : Nat := 0x40010104 + 0x10 * n
abbrev FLT_RA_SAFE : Fld := ⟨0, 2⟩
abbrev FLT_RA_ACTION : Fld := ⟨2, 2⟩
abbrev FLT_RA_PROMO : Fld := ⟨4, 2⟩
abbrev FLT_RA_LOG : Fld := ⟨6, 1⟩
abbrev FLT_RA_SHADOW : Fld := ⟨16, 12⟩
/-- `FLT_RDx` (R570). -/
abbrev FLT_RD (n : Nat) : Nat := 0x40010108 + 0x10 * n
abbrev FLT_RD_DEP : Fld := ⟨0, 28⟩

/-! ### Block BUD, base 0x40020000 (R39) -/

/-- `BUD_EVT` (R509). -/
abbrev BUD_EVT : Nat := 0x40020000
abbrev BUD_EVT_ANY : Fld := ⟨0, 4⟩
abbrev BUD_EVT_OVR : Nat := 0
abbrev BUD_EVT_WATCH : Nat := 1
abbrev BUD_EVT_PERS : Nat := 2
abbrev BUD_EVT_DROP : Nat := 3
/-- `BUD_WERR` (R509). -/
abbrev BUD_WERR : Nat := 0x40020004
abbrev BUD_WERR_ANY : Fld := ⟨0, 5⟩
abbrev BUD_WERR_ACFG : Nat := 0
abbrev BUD_WERR_LIM : Nat := 1
abbrev BUD_WERR_BIND : Nat := 2
abbrev BUD_WERR_MON : Nat := 3
abbrev BUD_WERR_CLR : Nat := 4
/-- `BUD_WERRA` (R509). -/
abbrev BUD_WERRA : Nat := 0x40020008
abbrev BUD_WERRA_OFFSET : Fld := ⟨0, 16⟩
/-- `BUD_MONSEL` (R509). -/
abbrev BUD_MONSEL : Nat := 0x4002000c
abbrev BUD_MONSEL_ACCT : Fld := ⟨0, 6⟩
abbrev BUD_MONSEL_RES : Fld := ⟨8, 3⟩
/-- `BUD_MONPEAK` (R509). -/
abbrev BUD_MONPEAK : Nat := 0x40020010
abbrev BUD_MONPEAK_PEAK : Fld := ⟨0, 17⟩
/-- `BUD_CLR` (R509). -/
abbrev BUD_CLR : Nat := 0x40020014
abbrev BUD_CLR_CNT : Fld := ⟨0, 1⟩
abbrev BUD_CLR_PEAK : Fld := ⟨1, 1⟩
/-- `BUD_OVRSUM0` (R509). -/
abbrev BUD_OVRSUM0 : Nat := 0x40020018
abbrev BUD_OVRSUM0_OVR : Fld := ⟨0, 32⟩
/-- `BUD_OVRSUM1` (R509). -/
abbrev BUD_OVRSUM1 : Nat := 0x4002001c
abbrev BUD_OVRSUM1_OVR : Fld := ⟨0, 16⟩
/-- `BUD_BINDx` (R509). -/
abbrev BUD_BIND (n : Nat) : Nat := 0x40020040 + 0x4 * n
abbrev BUD_BIND_ACCT : Fld := ⟨0, 6⟩
abbrev BUD_BIND_EN : Fld := ⟨7, 1⟩
/-- `BUD_ACFGa` (R509). -/
abbrev BUD_ACFG (n : Nat) : Nat := 0x40021000 + 0x20 * n
abbrev BUD_ACFG_EN : Fld := ⟨0, 1⟩
abbrev BUD_ACFG_MODE : Fld := ⟨1, 1⟩
abbrev BUD_ACFG_PERS : Fld := ⟨8, 8⟩
/-- `BUD_LIMa_r` (R509). -/
abbrev BUD_LIM (n i : Nat) : Nat := 0x40021004 + 0x20 * n + 0x4 * i
abbrev BUD_LIM_LIMIT : Fld := ⟨0, 17⟩
/-- `BUD_OVRa` (R509). -/
abbrev BUD_OVR (n : Nat) : Nat := 0x40021018 + 0x20 * n
abbrev BUD_OVR_FRAMES : Fld := ⟨0, 16⟩
abbrev BUD_OVR_RUN : Fld := ⟨16, 8⟩
abbrev BUD_OVR_RES : Fld := ⟨24, 5⟩
/-- `BUD_DROPa` (R509). -/
abbrev BUD_DROP (n : Nat) : Nat := 0x4002101c + 0x20 * n
abbrev BUD_DROP_DROP : Fld := ⟨0, 16⟩

/-! ### Block IRQ, base 0x40030000 (R39) -/

/-- `IRQ_SCFGs` (R348). -/
abbrev IRQ_SCFG (n : Nat) : Nat := 0x40030000 + 0x4 * n
abbrev IRQ_SCFG_PRIO : Fld := ⟨0, 4⟩
abbrev IRQ_SCFG_TGT : Fld := ⟨4, 2⟩
/-- `IRQ_PENDg` (R348). -/
abbrev IRQ_PEND (n : Nat) : Nat := 0x40030800 + 0x4 * n
abbrev IRQ_PEND_PEND : Fld := ⟨0, 16⟩
/-- `IRQ_MASKg` (R348). -/
abbrev IRQ_MASK (n : Nat) : Nat := 0x40030880 + 0x4 * n
abbrev IRQ_MASK_MASK : Fld := ⟨0, 16⟩
/-- `IRQ_MSETg` (R348). -/
abbrev IRQ_MSET (n : Nat) : Nat := 0x40030900 + 0x4 * n
abbrev IRQ_MSET_BITS : Fld := ⟨0, 16⟩
/-- `IRQ_MCLRg` (R348). -/
abbrev IRQ_MCLR (n : Nat) : Nat := 0x40030980 + 0x4 * n
abbrev IRQ_MCLR_BITS : Fld := ⟨0, 16⟩
/-- `IRQ_HOLDg` (R348). -/
abbrev IRQ_HOLD (n : Nat) : Nat := 0x40030a00 + 0x4 * n
abbrev IRQ_HOLD_HOLD : Fld := ⟨0, 16⟩
abbrev IRQ_HOLD_ACT : Fld := ⟨16, 1⟩
/-- `IRQ_INSVg` (R348). -/
abbrev IRQ_INSV (n : Nat) : Nat := 0x40030a80 + 0x4 * n
abbrev IRQ_INSV_INSV : Fld := ⟨0, 16⟩
/-- `IRQ_CCLRg` (R348). -/
abbrev IRQ_CCLR (n : Nat) : Nat := 0x40030b00 + 0x4 * n
abbrev IRQ_CCLR_BITS : Fld := ⟨0, 16⟩
/-- `IRQ_CNTw` (R348). -/
abbrev IRQ_CNT (n : Nat) : Nat := 0x40030c00 + 0x4 * n
abbrev IRQ_CNT_CNT0 : Fld := ⟨0, 8⟩
abbrev IRQ_CNT_CNT1 : Fld := ⟨8, 8⟩
abbrev IRQ_CNT_CNT2 : Fld := ⟨16, 8⟩
abbrev IRQ_CNT_CNT3 : Fld := ⟨24, 8⟩
/-- `IRQ_CLAIMt` (R348). -/
abbrev IRQ_CLAIM (n : Nat) : Nat := 0x40030e00 + 0x10 * n
abbrev IRQ_CLAIM_SRC : Fld := ⟨0, 9⟩
/-- `IRQ_THRt` (R348). -/
abbrev IRQ_THR (n : Nat) : Nat := 0x40030e04 + 0x10 * n
abbrev IRQ_THR_THR : Fld := ⟨0, 4⟩
/-- `IRQ_RUNt` (R348). -/
abbrev IRQ_RUN (n : Nat) : Nat := 0x40030e08 + 0x10 * n
abbrev IRQ_RUN_RUNP : Fld := ⟨0, 4⟩
abbrev IRQ_RUN_DEPTH : Fld := ⟨8, 7⟩
/-- `IRQ_XCFGx` (R348). -/
abbrev IRQ_XCFG (n : Nat) : Nat := 0x40030e40 + 0x4 * n
abbrev IRQ_XCFG_EN : Fld := ⟨0, 1⟩
abbrev IRQ_XCFG_POL : Fld := ⟨1, 1⟩
abbrev IRQ_XCFG_FILT : Fld := ⟨8, 8⟩
/-- `IRQ_XSTAT` (R348). -/
abbrev IRQ_XSTAT : Nat := 0x40030e60
abbrev IRQ_XSTAT_ASSERT : Fld := ⟨0, 8⟩
abbrev IRQ_XSTAT_SENT : Fld := ⟨8, 8⟩
/-- `IRQ_WERR` (R348). -/
abbrev IRQ_WERR : Nat := 0x40030e70
abbrev IRQ_WERR_ANY : Fld := ⟨0, 6⟩
abbrev IRQ_WERR_SCFG : Nat := 0
abbrev IRQ_WERR_HOLD : Nat := 1
abbrev IRQ_WERR_CLAIM : Nat := 2
abbrev IRQ_WERR_THR : Nat := 3
abbrev IRQ_WERR_XCFG : Nat := 4
abbrev IRQ_WERR_DOOR : Nat := 5
/-- `IRQ_WERRA` (R348). -/
abbrev IRQ_WERRA : Nat := 0x40030e74
abbrev IRQ_WERRA_OFFSET : Fld := ⟨0, 16⟩
/-- `IRQ_DOOR` (R348). -/
abbrev IRQ_DOOR : Nat := 0x4003f000
abbrev IRQ_DOOR_SRC : Fld := ⟨0, 9⟩

/-! ### Block TMR, base 0x40040000 (R39) -/

/-- `TMR_EVT` (R350). -/
abbrev TMR_EVT : Nat := 0x40040000
abbrev TMR_EVT_CMP : Fld := ⟨0, 16⟩
abbrev TMR_EVT_WRAP : Fld := ⟨16, 16⟩
/-- `TMR_CEVT` (R350). -/
abbrev TMR_CEVT : Nat := 0x40040004
abbrev TMR_CEVT_CAP : Fld := ⟨0, 16⟩
/-- `TMR_WERR` (R350). -/
abbrev TMR_WERR : Nat := 0x40040008
abbrev TMR_WERR_CHAN : Fld := ⟨0, 16⟩
abbrev TMR_WERR_TSEL : Fld := ⟨16, 1⟩
abbrev TMR_WERR_TSEL_bit : Nat := 16
/-- `TMR_WERRA` (R350). -/
abbrev TMR_WERRA : Nat := 0x4004000c
abbrev TMR_WERRA_OFFSET : Fld := ⟨0, 16⟩
/-- `TMR_START` (R350). -/
abbrev TMR_START : Nat := 0x40040010
abbrev TMR_START_CH : Fld := ⟨0, 16⟩
/-- `TMR_STOP` (R350). -/
abbrev TMR_STOP : Nat := 0x40040014
abbrev TMR_STOP_CH : Fld := ⟨0, 16⟩
/-- `TMR_STAT` (R350). -/
abbrev TMR_STAT : Nat := 0x40040018
abbrev TMR_STAT_RUN : Fld := ⟨0, 16⟩
/-- `TMR_TSELk` (R350). -/
abbrev TMR_TSEL (n : Nat) : Nat := 0x40040080 + 0x4 * n
abbrev TMR_TSEL_SEL : Fld := ⟨0, 8⟩
/-- `TMR_CFGn` (R350). -/
abbrev TMR_CFG (n : Nat) : Nat := 0x40040100 + 0x20 * n
abbrev TMR_CFG_MODE : Fld := ⟨0, 2⟩
abbrev TMR_CFG_ONE : Fld := ⟨2, 1⟩
abbrev TMR_CFG_LINK : Fld := ⟨3, 1⟩
abbrev TMR_CFG_CDIR : Fld := ⟨4, 1⟩
abbrev TMR_CFG_PRE : Fld := ⟨8, 8⟩
abbrev TMR_CFG_STRT : Fld := ⟨16, 6⟩
/-- `TMR_CNTn` (R350). -/
abbrev TMR_CNT (n : Nat) : Nat := 0x40040104 + 0x20 * n
abbrev TMR_CNT_CNT : Fld := ⟨0, 32⟩
/-- `TMR_TOPn` (R350). -/
abbrev TMR_TOP (n : Nat) : Nat := 0x40040108 + 0x20 * n
abbrev TMR_TOP_TOP : Fld := ⟨0, 32⟩
/-- `TMR_CMPn` (R350). -/
abbrev TMR_CMP (n : Nat) : Nat := 0x4004010c + 0x20 * n
abbrev TMR_CMP_CMP : Fld := ⟨0, 32⟩
/-- `TMR_CAPn` (R350). -/
abbrev TMR_CAP (n : Nat) : Nat := 0x40040110 + 0x20 * n
abbrev TMR_CAP_CAP : Fld := ⟨0, 32⟩
/-- `TMR_CCFGn` (R350). -/
abbrev TMR_CCFG (n : Nat) : Nat := 0x40040114 + 0x20 * n
abbrev TMR_CCFG_CSRC : Fld := ⟨0, 7⟩
abbrev TMR_CCFG_CFILT : Fld := ⟨8, 8⟩

/-! ### Block WHL, base 0x40050000 (R39) -/

/-- `WHL_CTRL` (R99). -/
abbrev WHL_CTRL : Nat := 0x40050000
abbrev WHL_CTRL_EN : Fld := ⟨0, 6⟩
/-- `WHL_STAT` (R99). -/
abbrev WHL_STAT : Nat := 0x40050004
abbrev WHL_STAT_LVL : Fld := ⟨0, 6⟩
abbrev WHL_STAT_SIG : Fld := ⟨8, 6⟩
abbrev WHL_STAT_DIR : Fld := ⟨16, 6⟩
/-- `WHL_EVT` (R99). -/
abbrev WHL_EVT : Nat := 0x40050008
abbrev WHL_EVT_ANY : Fld := ⟨0, 30⟩
abbrev WHL_EVT_ETRUNC : Fld := ⟨30, 2⟩
abbrev WHL_EVT_EARLY (n : Nat) : Nat := 5 * n + 0
abbrev WHL_EVT_MISS (n : Nat) : Nat := 5 * n + 1
abbrev WHL_EVT_STALL (n : Nat) : Nat := 5 * n + 2
abbrev WHL_EVT_OVR (n : Nat) : Nat := 5 * n + 3
abbrev WHL_EVT_AMP (n : Nat) : Nat := 5 * n + 4
/-- `WHL_WERR` (R99). -/
abbrev WHL_WERR : Nat := 0x4005000c
abbrev WHL_WERR_CTRL : Fld := ⟨0, 1⟩
abbrev WHL_WERR_ECHO : Fld := ⟨2, 2⟩
abbrev WHL_WERR_WHEEL : Fld := ⟨4, 6⟩
abbrev WHL_WERR_TABLE : Fld := ⟨10, 6⟩
abbrev WHL_WERR_CTRL_bit : Nat := 0
/-- `WHL_CLR` (R99). -/
abbrev WHL_CLR : Nat := 0x40050010
abbrev WHL_CLR_CNT : Fld := ⟨0, 6⟩
/-- `WHL_SLOTL` (R99). -/
abbrev WHL_SLOTL : Nat := 0x40050014
abbrev WHL_SLOTL_SLOT : Fld := ⟨0, 32⟩
/-- `WHL_SLOTH` (R99). -/
abbrev WHL_SLOTH : Nat := 0x40050018
abbrev WHL_SLOTH_SLOT : Fld := ⟨0, 16⟩
/-- `WHL_WERRA` (R99). -/
abbrev WHL_WERRA : Nat := 0x4005001c
abbrev WHL_WERRA_OFFSET : Fld := ⟨0, 16⟩
/-- `WHL_ECFGk` (R100). -/
abbrev WHL_ECFG (n : Nat) : Nat := 0x40050040 + 0x20 * n
abbrev WHL_ECFG_EN : Fld := ⟨0, 1⟩
abbrev WHL_ECFG_MODE : Fld := ⟨1, 2⟩
abbrev WHL_ECFG_SRC : Fld := ⟨4, 3⟩
abbrev WHL_ECFG_PIN : Fld := ⟨8, 4⟩
abbrev WHL_ECFG_INV : Fld := ⟨12, 1⟩
abbrev WHL_ECFG_SHARE : Fld := ⟨13, 1⟩
abbrev WHL_ECFG_NOPIN : Fld := ⟨14, 1⟩
abbrev WHL_ECFG_DUTY : Fld := ⟨16, 8⟩
/-- `WHL_EWIDk` (R100). -/
abbrev WHL_EWID (n : Nat) : Nat := 0x40050044 + 0x20 * n
abbrev WHL_EWID_WIDTH : Fld := ⟨0, 16⟩
/-- `WHL_EOFSk` (R100). -/
abbrev WHL_EOFS (n : Nat) : Nat := 0x40050048 + 0x20 * n
abbrev WHL_EOFS_OFS : Fld := ⟨0, 24⟩
/-- `WHL_ESPDk` (R100). -/
abbrev WHL_ESPD (n : Nat) : Nat := 0x4005004c + 0x20 * n
abbrev WHL_ESPD_PERIOD : Fld := ⟨0, 32⟩
/-- `WHL_ERAMPk` (R100). -/
abbrev WHL_ERAMP (n : Nat) : Nat := 0x40050050 + 0x20 * n
abbrev WHL_ERAMP_RAMP : Fld := ⟨0, 24⟩
/-- `WHL_EANGk` (R100). -/
abbrev WHL_EANG (n : Nat) : Nat := 0x40050054 + 0x20 * n
abbrev WHL_EANG_ANGLE : Fld := ⟨0, 32⟩
/-- `WHL_ESPDAk` (R100). -/
abbrev WHL_ESPDA (n : Nat) : Nat := 0x40050058 + 0x20 * n
abbrev WHL_ESPDA_PERIOD : Fld := ⟨0, 32⟩
/-- `WHL_CFGn` (R101). -/
abbrev WHL_CFG (n : Nat) : Nat := 0x40050100 + 0x40 * n
abbrev WHL_CFG_MODE : Fld := ⟨0, 2⟩
abbrev WHL_CFG_EDGE : Fld := ⟨2, 2⟩
abbrev WHL_CFG_ROLE : Fld := ⟨4, 2⟩
abbrev WHL_CFG_HTH : Fld := ⟨6, 2⟩
abbrev WHL_CFG_SRC : Fld := ⟨8, 2⟩
abbrev WHL_CFG_DIREN : Fld := ⟨10, 1⟩
abbrev WHL_CFG_FILT : Fld := ⟨16, 8⟩
/-- `WHL_TEETHn` (R101). -/
abbrev WHL_TEETH (n : Nat) : Nat := 0x40050104 + 0x40 * n
abbrev WHL_TEETH_COUNT : Fld := ⟨0, 13⟩
abbrev WHL_TEETH_PERCYC : Fld := ⟨16, 1⟩
/-- `WHL_VRn` (R101). -/
abbrev WHL_VR (n : Nat) : Nat := 0x40050108 + 0x40 * n
abbrev WHL_VR_FRAC : Fld := ⟨0, 4⟩
abbrev WHL_VR_FLOOR : Fld := ⟨8, 8⟩
/-- `WHL_WINn` (R101). -/
abbrev WHL_WIN (n : Nat) : Nat := 0x4005010c + 0x40 * n
abbrev WHL_WIN_LO : Fld := ⟨0, 8⟩
abbrev WHL_WIN_HI : Fld := ⟨8, 8⟩
/-- `WHL_OFSn` (R101). -/
abbrev WHL_OFS (n : Nat) : Nat := 0x40050110 + 0x40 * n
abbrev WHL_OFS_OFS : Fld := ⟨0, 24⟩
/-- `WHL_DIRn` (R101). -/
abbrev WHL_DIR (n : Nat) : Nat := 0x40050114 + 0x40 * n
abbrev WHL_DIR_THR : Fld := ⟨0, 16⟩
/-- `WHL_LOGn` (R101). -/
abbrev WHL_LOG (n : Nat) : Nat := 0x40050118 + 0x40 * n
abbrev WHL_LOG_EN : Fld := ⟨0, 1⟩
abbrev WHL_LOG_QUE : Fld := ⟨8, 5⟩
/-- `WHL_LASTn` (R101). -/
abbrev WHL_LAST (n : Nat) : Nat := 0x40050120 + 0x40 * n
abbrev WHL_LAST_STAMP : Fld := ⟨0, 32⟩
/-- `WHL_PERn` (R101). -/
abbrev WHL_PER (n : Nat) : Nat := 0x40050124 + 0x40 * n
abbrev WHL_PER_PERIOD : Fld := ⟨0, 32⟩
/-- `WHL_PREDn` (R101). -/
abbrev WHL_PRED (n : Nat) : Nat := 0x40050128 + 0x40 * n
abbrev WHL_PRED_P : Fld := ⟨0, 32⟩
/-- `WHL_CNTn` (R101). -/
abbrev WHL_CNT (n : Nat) : Nat := 0x4005012c + 0x40 * n
abbrev WHL_CNT_EARLY : Fld := ⟨0, 8⟩
abbrev WHL_CNT_MISS : Fld := ⟨8, 8⟩
abbrev WHL_CNT_OVR : Fld := ⟨16, 8⟩
abbrev WHL_CNT_LOGDROP : Fld := ⟨24, 8⟩
/-- `WHL_PKn` (R101). -/
abbrev WHL_PK (n : Nat) : Nat := 0x40050130 + 0x40 * n
abbrev WHL_PK_PPK : Fld := ⟨0, 9⟩
abbrev WHL_PK_NPK : Fld := ⟨16, 9⟩
/-- `WHL_PATn` (R102). -/
abbrev WHL_PAT (n i : Nat) : Nat := 0x40054000 + 0x2000 * n + 0x4 * i
abbrev WHL_PAT_E0 : Fld := ⟨0, 16⟩
abbrev WHL_PAT_E1 : Fld := ⟨16, 16⟩

/-! ### Block OBS, base 0x40060000 (R39) -/

/-- `OBS_CFG` (R136). -/
abbrev OBS_CFG : Nat := 0x40060000
abbrev OBS_CFG_EN : Fld := ⟨0, 1⟩
abbrev OBS_CFG_CYCLE : Fld := ⟨1, 1⟩
abbrev OBS_CFG_SRC : Fld := ⟨4, 3⟩
abbrev OBS_CFG_NFIRE : Fld := ⟨8, 5⟩
/-- `OBS_PCFG` (R136). -/
abbrev OBS_PCFG : Nat := 0x40060004
abbrev OBS_PCFG_SLIM : Fld := ⟨0, 6⟩
abbrev OBS_PCFG_SKIP : Fld := ⟨8, 4⟩
/-- `OBS_ANG` (R136). -/
abbrev OBS_ANG : Nat := 0x40060008
abbrev OBS_ANG_ANGLE : Fld := ⟨0, 32⟩
/-- `OBS_ANGT` (R136). -/
abbrev OBS_ANGT : Nat := 0x4006000c
abbrev OBS_ANGT_SLOT : Fld := ⟨0, 32⟩
/-- `OBS_RATE` (R136). -/
abbrev OBS_RATE : Nat := 0x40060010
abbrev OBS_RATE_RATE : Fld := ⟨0, 32⟩
/-- `OBS_SPEED` (R136). -/
abbrev OBS_SPEED : Nat := 0x40060014
abbrev OBS_SPEED_SPEED : Fld := ⟨0, 32⟩
/-- `OBS_FLAGS` (R136). -/
abbrev OBS_FLAGS : Nat := 0x40060018
abbrev OBS_FLAGS_VALID : Fld := ⟨0, 1⟩
abbrev OBS_FLAGS_CEIL : Fld := ⟨1, 1⟩
abbrev OBS_FLAGS_COAST : Fld := ⟨2, 1⟩
abbrev OBS_FLAGS_PRED : Fld := ⟨3, 1⟩
abbrev OBS_FLAGS_FVAL : Fld := ⟨8, 6⟩
abbrev OBS_FLAGS_TVAL : Fld := ⟨16, 1⟩
abbrev OBS_FLAGS_SRCA : Fld := ⟨24, 3⟩
/-- `OBS_EVT` (R136). -/
abbrev OBS_EVT : Nat := 0x4006001c
abbrev OBS_EVT_JUMP : Fld := ⟨0, 1⟩
abbrev OBS_EVT_PASTE : Fld := ⟨1, 1⟩
abbrev OBS_EVT_SKIP : Fld := ⟨2, 1⟩
abbrev OBS_EVT_CEIL : Fld := ⟨3, 1⟩
abbrev OBS_EVT_LDONE : Fld := ⟨4, 1⟩
abbrev OBS_EVT_LDISC : Fld := ⟨5, 1⟩
abbrev OBS_EVT_FBAD : Fld := ⟨6, 1⟩
abbrev OBS_EVT_JUMP_bit : Nat := 0
abbrev OBS_EVT_PASTE_bit : Nat := 1
abbrev OBS_EVT_SKIP_bit : Nat := 2
abbrev OBS_EVT_CEIL_bit : Nat := 3
abbrev OBS_EVT_LDONE_bit : Nat := 4
abbrev OBS_EVT_LDISC_bit : Nat := 5
abbrev OBS_EVT_FBAD_bit : Nat := 6
/-- `OBS_WERR` (R136). -/
abbrev OBS_WERR : Nat := 0x40060020
abbrev OBS_WERR_REG : Fld := ⟨0, 20⟩
abbrev OBS_WERR_TORS : Fld := ⟨20, 1⟩
abbrev OBS_WERR_FACT : Fld := ⟨21, 6⟩
abbrev OBS_WERR_HIGH : Fld := ⟨28, 4⟩
abbrev OBS_WERR_TORS_bit : Nat := 20
/-- `OBS_JTHR` (R136). -/
abbrev OBS_JTHR : Nat := 0x40060024
abbrev OBS_JTHR_JTHR : Fld := ⟨0, 24⟩
/-- `OBS_JLAST` (R136). -/
abbrev OBS_JLAST : Nat := 0x40060028
abbrev OBS_JLAST_JUMP : Fld := ⟨0, 24⟩
/-- `OBS_JMAX` (R136). -/
abbrev OBS_JMAX : Nat := 0x4006002c
abbrev OBS_JMAX_JUMP : Fld := ⟨0, 24⟩
/-- `OBS_LCTL` (R136). -/
abbrev OBS_LCTL : Nat := 0x40060030
abbrev OBS_LCTL_LEN : Fld := ⟨0, 6⟩
abbrev OBS_LCTL_TEN : Fld := ⟨8, 1⟩
abbrev OBS_LCTL_COAST : Fld := ⟨9, 1⟩
abbrev OBS_LCTL_CSRC : Fld := ⟨10, 1⟩
abbrev OBS_LCTL_LRATE : Fld := ⟨12, 4⟩
abbrev OBS_LCTL_TRATE : Fld := ⟨16, 4⟩
abbrev OBS_LCTL_LMIN : Fld := ⟨20, 8⟩
/-- `OBS_LSPD` (R136). -/
abbrev OBS_LSPD : Nat := 0x40060034
abbrev OBS_LSPD_LO : Fld := ⟨0, 16⟩
abbrev OBS_LSPD_HI : Fld := ⟨16, 16⟩
/-- `OBS_LFUEL` (R136). -/
abbrev OBS_LFUEL : Nat := 0x40060038
abbrev OBS_LFUEL_MASK : Fld := ⟨0, 16⟩
/-- `OBS_TOFS` (R136). -/
abbrev OBS_TOFS : Nat := 0x4006003c
abbrev OBS_TOFS_OFS : Fld := ⟨0, 24⟩
/-- `OBS_LCNT` (R136). -/
abbrev OBS_LCNT : Nat := 0x40060040
abbrev OBS_LCNT_PASSES : Fld := ⟨0, 16⟩
abbrev OBS_LCNT_DISC : Fld := ⟨16, 16⟩
/-- `OBS_RESID` (R136). -/
abbrev OBS_RESID : Nat := 0x40060044
abbrev OBS_RESID_RESID : Fld := ⟨0, 16⟩
/-- `OBS_LRES` (R136). -/
abbrev OBS_LRES : Nat := 0x40060048
abbrev OBS_LRES_LRES : Fld := ⟨0, 16⟩
/-- `OBS_CLR` (R136). -/
abbrev OBS_CLR : Nat := 0x4006004c
abbrev OBS_CLR_FACT : Fld := ⟨0, 6⟩
abbrev OBS_CLR_TORS : Fld := ⟨8, 1⟩
abbrev OBS_CLR_JMAX : Fld := ⟨9, 1⟩
/-- `OBS_WERRA` (R136). -/
abbrev OBS_WERRA : Nat := 0x40060050
abbrev OBS_WERRA_OFFSET : Fld := ⟨0, 16⟩
/-- `OBS_STATE` (R171). -/
abbrev OBS_STATE : Nat := 0x40060200
abbrev OBS_STATE_SYNC : Fld := ⟨0, 3⟩
abbrev OBS_STATE_GRADE : Fld := ⟨4, 3⟩
abbrev OBS_STATE_PHASE : Fld := ⟨8, 1⟩
abbrev OBS_STATE_AGREE : Fld := ⟨9, 1⟩
abbrev OBS_STATE_SECPL : Fld := ⟨10, 1⟩
abbrev OBS_STATE_HOLDN : Fld := ⟨16, 5⟩
abbrev OBS_STATE_SGEN : Fld := ⟨24, 8⟩
/-- `OBS_SCFG` (R171). -/
abbrev OBS_SCFG : Nat := 0x40060204
abbrev OBS_SCFG_PLACE : Fld := ⟨0, 1⟩
abbrev OBS_SCFG_CAMEN : Fld := ⟨1, 1⟩
abbrev OBS_SCFG_CAM : Fld := ⟨2, 3⟩
abbrev OBS_SCFG_SECEN : Fld := ⟨5, 1⟩
abbrev OBS_SCFG_SEC : Fld := ⟨6, 3⟩
abbrev OBS_SCFG_AUTO : Fld := ⟨9, 1⟩
abbrev OBS_SCFG_RELOCK : Fld := ⟨10, 1⟩
abbrev OBS_SCFG_NMIS : Fld := ⟨12, 4⟩
abbrev OBS_SCFG_RTOL : Fld := ⟨16, 16⟩
/-- `OBS_SCHK` (R171). -/
abbrev OBS_SCHK : Nat := 0x40060208
abbrev OBS_SCHK_GTOL : Fld := ⟨0, 3⟩
abbrev OBS_SCHK_EMAX : Fld := ⟨8, 8⟩
abbrev OBS_SCHK_NDIR : Fld := ⟨16, 4⟩
abbrev OBS_SCHK_PWMSAFE : Fld := ⟨24, 8⟩
/-- `OBS_SCAM` (R171). -/
abbrev OBS_SCAM : Nat := 0x4006020c
abbrev OBS_SCAM_TOL : Fld := ⟨0, 8⟩
abbrev OBS_SCAM_NCONF : Fld := ⟨8, 4⟩
abbrev OBS_SCAM_REFSLOT : Fld := ⟨16, 12⟩
abbrev OBS_SCAM_REFREV : Fld := ⟨28, 1⟩
/-- `OBS_SCMD` (R171). -/
abbrev OBS_SCMD : Nat := 0x40060210
abbrev OBS_SCMD_RESEEK : Fld := ⟨0, 1⟩
abbrev OBS_SCMD_PHASE : Fld := ⟨1, 2⟩
abbrev OBS_SCMD_SWAP : Fld := ⟨3, 1⟩
abbrev OBS_SCMD_DROP : Fld := ⟨4, 1⟩
/-- `OBS_SEVT` (R171). -/
abbrev OBS_SEVT : Nat := 0x40060214
abbrev OBS_SEVT_ANY : Fld := ⟨0, 11⟩
abbrev OBS_SEVT_FULL : Nat := 0
abbrev OBS_SEVT_HOLD : Nat := 1
abbrev OBS_SEVT_LOST : Nat := 2
abbrev OBS_SEVT_STALL : Nat := 3
abbrev OBS_SEVT_REVERSE : Nat := 4
abbrev OBS_SEVT_CAMERR : Nat := 5
abbrev OBS_SEVT_CAMLOSS : Nat := 6
abbrev OBS_SEVT_DISAGREE : Nat := 7
abbrev OBS_SEVT_SWITCH : Nat := 8
abbrev OBS_SEVT_WITHHELD : Nat := 9
abbrev OBS_SEVT_CFG : Nat := 10
/-- `OBS_SCAUSE` (R171). -/
abbrev OBS_SCAUSE : Nat := 0x40060218
abbrev OBS_SCAUSE_CAUSE : Fld := ⟨0, 4⟩
abbrev OBS_SCAUSE_FROM : Fld := ⟨4, 3⟩
abbrev OBS_SCAUSE_WHEEL : Fld := ⟨8, 3⟩
/-- `OBS_SLOSTA` (R171). -/
abbrev OBS_SLOSTA : Nat := 0x4006021c
abbrev OBS_SLOSTA_ANGLE : Fld := ⟨0, 32⟩
/-- `OBS_SCNT` (R171). -/
abbrev OBS_SCNT : Nat := 0x40060220
abbrev OBS_SCNT_PASTE : Fld := ⟨0, 8⟩
abbrev OBS_SCNT_LOST : Fld := ⟨8, 8⟩
abbrev OBS_SCNT_CAMERR : Fld := ⟨16, 8⟩
abbrev OBS_SCNT_EARLYREV : Fld := ⟨24, 8⟩
/-- `OBS_SDIFF` (R171). -/
abbrev OBS_SDIFF : Nat := 0x40060224
abbrev OBS_SDIFF_E : Fld := ⟨0, 32⟩
/-- `OBS_TORSn` (R137). -/
abbrev OBS_TORS (n : Nat) : Nat := 0x40061000 + 0x4 * n
abbrev OBS_TORS_H0 : Fld := ⟨0, 16⟩
abbrev OBS_TORS_H1 : Fld := ⟨16, 16⟩
/-- `OBS_FACTn` (R137). -/
abbrev OBS_FACT (n i : Nat) : Nat := 0x40064000 + 0x2000 * n + 0x4 * i
abbrev OBS_FACT_F0 : Fld := ⟨0, 16⟩
abbrev OBS_FACT_F1 : Fld := ⟨16, 16⟩

/-! ### Block CAL, base 0x40070000 (R39) -/

/-- `CAL_CTRL` (R209). -/
abbrev CAL_CTRL : Nat := 0x40070000
abbrev CAL_CTRL_EN : Fld := ⟨0, 1⟩
/-- `CAL_BASE` (R209). -/
abbrev CAL_BASE : Nat := 0x40070004
abbrev CAL_BASE_BASE : Fld := ⟨21, 11⟩
/-- `CAL_USED` (R209). -/
abbrev CAL_USED : Nat := 0x40070008
abbrev CAL_USED_USED : Fld := ⟨0, 18⟩
/-- `CAL_BMAX` (R209). -/
abbrev CAL_BMAX : Nat := 0x4007000c
abbrev CAL_BMAX_BMAX : Fld := ⟨0, 11⟩
/-- `CAL_EVT` (R209). -/
abbrev CAL_EVT : Nat := 0x40070010
abbrev CAL_EVT_ANY : Fld := ⟨0, 8⟩
abbrev CAL_EVT_LATE : Nat := 0
abbrev CAL_EVT_DROP : Nat := 1
abbrev CAL_EVT_SUPPR : Nat := 2
abbrev CAL_EVT_FULL : Nat := 3
abbrev CAL_EVT_REFUSE : Nat := 4
abbrev CAL_EVT_RSTALL : Nat := 5
abbrev CAL_EVT_RQDROP : Nat := 6
abbrev CAL_EVT_DEFER : Nat := 7
/-- `CAL_WERR` (R209). -/
abbrev CAL_WERR : Nat := 0x40070014
abbrev CAL_WERR_ANY : Fld := ⟨0, 4⟩
abbrev CAL_WERR_CTRL : Nat := 0
abbrev CAL_WERR_BASE : Nat := 1
abbrev CAL_WERR_RCFG : Nat := 2
abbrev CAL_WERR_CLR : Nat := 3
/-- `CAL_WERRA` (R209). -/
abbrev CAL_WERRA : Nat := 0x40070018
abbrev CAL_WERRA_OFFSET : Fld := ⟨0, 16⟩
/-- `CAL_RCFG` (R209). -/
abbrev CAL_RCFG : Nat := 0x4007001c
abbrev CAL_RCFG_EN : Fld := ⟨0, 1⟩
abbrev CAL_RCFG_QUE : Fld := ⟨8, 5⟩
/-- `CAL_CNT0` (R209). -/
abbrev CAL_CNT0 : Nat := 0x40070020
abbrev CAL_CNT0_LATE : Fld := ⟨0, 16⟩
abbrev CAL_CNT0_DROP : Fld := ⟨16, 16⟩
/-- `CAL_CNT1` (R209). -/
abbrev CAL_CNT1 : Nat := 0x40070024
abbrev CAL_CNT1_REFUSE : Fld := ⟨0, 16⟩
abbrev CAL_CNT1_RQDROP : Fld := ⟨16, 16⟩
/-- `CAL_RSTALL` (R209). -/
abbrev CAL_RSTALL : Nat := 0x40070028
abbrev CAL_RSTALL_STALL : Fld := ⟨0, 32⟩
/-- `CAL_CLR` (R209). -/
abbrev CAL_CLR : Nat := 0x4007002c
abbrev CAL_CLR_CNT : Fld := ⟨0, 1⟩
abbrev CAL_CLR_BMAX : Fld := ⟨1, 1⟩
/-- `CAL_PPnD0` (R209). -/
abbrev CAL_PPD0 (n : Nat) : Nat := 0x40070100 + 0x20 * n
abbrev CAL_PPD0_WORD : Fld := ⟨0, 32⟩
/-- `CAL_PPnD1` (R209). -/
abbrev CAL_PPD1 (n : Nat) : Nat := 0x40070104 + 0x20 * n
abbrev CAL_PPD1_WORD : Fld := ⟨0, 32⟩
/-- `CAL_PPnD2` (R209). -/
abbrev CAL_PPD2 (n : Nat) : Nat := 0x40070108 + 0x20 * n
abbrev CAL_PPD2_WORD : Fld := ⟨0, 32⟩
/-- `CAL_PPnD3` (R209). -/
abbrev CAL_PPD3 (n : Nat) : Nat := 0x4007010c + 0x20 * n
abbrev CAL_PPD3_WORD : Fld := ⟨0, 32⟩
/-- `CAL_PPnRES` (R209). -/
abbrev CAL_PPRES (n : Nat) : Nat := 0x40070110 + 0x20 * n
abbrev CAL_PPRES_RESULT : Fld := ⟨0, 32⟩
/-- `CAL_PPnCAN` (R209). -/
abbrev CAL_PPCAN (n : Nat) : Nat := 0x40070114 + 0x20 * n
abbrev CAL_PPCAN_HANDLE : Fld := ⟨0, 32⟩
/-- `CAL_PPnCRES` (R209). -/
abbrev CAL_PPCRES (n : Nat) : Nat := 0x40070118 + 0x20 * n
abbrev CAL_PPCRES_STATUS : Fld := ⟨0, 8⟩

/-! ### Block AEN, base 0x40080000 (R39) -/

/-- `AEN_CTRL` (R278). -/
abbrev AEN_CTRL : Nat := 0x40080000
abbrev AEN_CTRL_EN : Fld := ⟨0, 2⟩
/-- `AEN_STAT` (R278). -/
abbrev AEN_STAT : Nat := 0x40080004
abbrev AEN_STAT_ACT0 : Fld := ⟨0, 6⟩
abbrev AEN_STAT_ACT1 : Fld := ⟨8, 6⟩
abbrev AEN_STAT_FLT0 : Fld := ⟨16, 6⟩
abbrev AEN_STAT_FLT1 : Fld := ⟨24, 6⟩
/-- `AEN_EVT` (R278). -/
abbrev AEN_EVT : Nat := 0x40080008
abbrev AEN_EVT_ANY : Fld := ⟨0, 7⟩
abbrev AEN_EVT_FAULT0 : Nat := 0
abbrev AEN_EVT_FAULT1 : Nat := 1
abbrev AEN_EVT_BSTALL0 : Nat := 2
abbrev AEN_EVT_BSTALL1 : Nat := 3
abbrev AEN_EVT_CWREF : Nat := 4
abbrev AEN_EVT_ECCC : Nat := 5
abbrev AEN_EVT_ECCU : Nat := 6
/-- `AEN_WERR` (R278). -/
abbrev AEN_WERR : Nat := 0x4008000c
abbrev AEN_WERR_ANY : Fld := ⟨0, 10⟩
abbrev AEN_WERR_CTRL : Nat := 0
abbrev AEN_WERR_CWP : Nat := 1
abbrev AEN_WERR_TCFG : Nat := 2
abbrev AEN_WERR_TPC : Nat := 3
abbrev AEN_WERR_TNPC : Nat := 4
abbrev AEN_WERR_TCMD : Nat := 5
abbrev AEN_WERR_TQB : Nat := 6
abbrev AEN_WERR_TEVS : Nat := 7
abbrev AEN_WERR_TWIN : Nat := 8
abbrev AEN_WERR_TREG : Nat := 9
/-- `AEN_WERRA` (R278). -/
abbrev AEN_WERRA : Nat := 0x40080010
abbrev AEN_WERRA_OFFSET : Fld := ⟨0, 16⟩
/-- `AEN_CWRA` (R278). -/
abbrev AEN_CWRA : Nat := 0x40080014
abbrev AEN_CWRA_ADDR : Fld := ⟨0, 32⟩
/-- `AEN_ECC` (R278). -/
abbrev AEN_ECC : Nat := 0x40080018
abbrev AEN_ECC_CORR : Fld := ⟨0, 16⟩
abbrev AEN_ECC_UNC : Fld := ⟨16, 16⟩
/-- `AEN_CLR` (R278). -/
abbrev AEN_CLR : Nat := 0x4008001c
abbrev AEN_CLR_ECC : Fld := ⟨0, 1⟩
/-- `AEN_CWPeL` (R278). -/
abbrev AEN_CWPL (n : Nat) : Nat := 0x40080020 + 0x8 * n
abbrev AEN_CWPL_PROT : Fld := ⟨0, 32⟩
/-- `AEN_CWPeH` (R278). -/
abbrev AEN_CWPH (n : Nat) : Nat := 0x40080024 + 0x8 * n
abbrev AEN_CWPH_PROT : Fld := ⟨0, 32⟩
/-- `AEN_TCFGn` (R279). -/
abbrev AEN_TCFG (n : Nat) : Nat := 0x40081000 + 0x40 * n
abbrev AEN_TCFG_PRIO : Fld := ⟨0, 2⟩
abbrev AEN_TCFG_ACCT : Fld := ⟨8, 6⟩
/-- `AEN_TPCn` (R279). -/
abbrev AEN_TPC (n : Nat) : Nat := 0x40081004 + 0x40 * n
abbrev AEN_TPC_PC : Fld := ⟨0, 18⟩
/-- `AEN_TNPCn` (R279). -/
abbrev AEN_TNPC (n : Nat) : Nat := 0x40081008 + 0x40 * n
abbrev AEN_TNPC_NPC : Fld := ⟨0, 18⟩
/-- `AEN_TCMDn` (R279). -/
abbrev AEN_TCMD (n : Nat) : Nat := 0x4008100c + 0x40 * n
abbrev AEN_TCMD_OP : Fld := ⟨0, 3⟩
abbrev AEN_TCMD_SIG : Fld := ⟨4, 4⟩
/-- `AEN_TSTATn` (R279). -/
abbrev AEN_TSTAT (n : Nat) : Nat := 0x40081010 + 0x40 * n
abbrev AEN_TSTAT_STATE : Fld := ⟨0, 3⟩
abbrev AEN_TSTAT_RTP : Fld := ⟨3, 1⟩
abbrev AEN_TSTAT_WKIND : Fld := ⟨4, 2⟩
abbrev AEN_TSTAT_PEND : Fld := ⟨16, 16⟩
/-- `AEN_TQBn` (R279). -/
abbrev AEN_TQB (n : Nat) : Nat := 0x40081014 + 0x40 * n
abbrev AEN_TQB_Q0 : Fld := ⟨0, 5⟩
abbrev AEN_TQB_E0 : Fld := ⟨7, 1⟩
abbrev AEN_TQB_Q1 : Fld := ⟨8, 5⟩
abbrev AEN_TQB_E1 : Fld := ⟨15, 1⟩
abbrev AEN_TQB_Q2 : Fld := ⟨16, 5⟩
abbrev AEN_TQB_E2 : Fld := ⟨23, 1⟩
abbrev AEN_TQB_Q3 : Fld := ⟨24, 5⟩
abbrev AEN_TQB_E3 : Fld := ⟨31, 1⟩
/-- `AEN_TEVSn` (R279). -/
abbrev AEN_TEVS (n : Nat) : Nat := 0x40081018 + 0x40 * n
abbrev AEN_TEVS_S0 : Fld := ⟨0, 8⟩
abbrev AEN_TEVS_S1 : Fld := ⟨8, 8⟩
abbrev AEN_TEVS_S2 : Fld := ⟨16, 8⟩
abbrev AEN_TEVS_S3 : Fld := ⟨24, 8⟩
/-- `AEN_TWINn` (R279). -/
abbrev AEN_TWIN (n : Nat) : Nat := 0x4008101c + 0x40 * n
abbrev AEN_TWIN_CLO : Fld := ⟨0, 6⟩
abbrev AEN_TWIN_CHI : Fld := ⟨8, 6⟩
abbrev AEN_TWIN_DLO : Fld := ⟨16, 6⟩
abbrev AEN_TWIN_DHI : Fld := ⟨24, 6⟩
/-- `AEN_TFADn` (R279). -/
abbrev AEN_TFAD (n : Nat) : Nat := 0x40081020 + 0x40 * n
abbrev AEN_TFAD_ADDR : Fld := ⟨0, 18⟩
/-- `AEN_TFVALn` (R279). -/
abbrev AEN_TFVAL (n : Nat) : Nat := 0x40081024 + 0x40 * n
abbrev AEN_TFVAL_EVAL : Fld := ⟨0, 32⟩
/-- `AEN_TFCn` (R279). -/
abbrev AEN_TFC (n : Nat) : Nat := 0x40081028 + 0x40 * n
abbrev AEN_TFC_CODE : Fld := ⟨0, 4⟩
/-- `AEN_TISSn` (R279). -/
abbrev AEN_TISS (n : Nat) : Nat := 0x4008102c + 0x40 * n
abbrev AEN_TISS_SLOTS : Fld := ⟨0, 32⟩
/-- `AEN_TBSTn` (R279). -/
abbrev AEN_TBST (n : Nat) : Nat := 0x40081030 + 0x40 * n
abbrev AEN_TBST_FRAMES : Fld := ⟨0, 16⟩
/-- `AEN_TWAKEn` (R279). -/
abbrev AEN_TWAKE (n : Nat) : Nat := 0x40081034 + 0x40 * n
abbrev AEN_TWAKE_TARGET : Fld := ⟨0, 32⟩
/-- `AEN_TnGr` (R279). -/
abbrev AEN_TG (n i : Nat) : Nat := 0x40082000 + 0x40 * n + 0x4 * i
abbrev AEN_TG_G : Fld := ⟨0, 32⟩
/-- `AEN_ELOCK` (R315). -/
abbrev AEN_ELOCK : Nat := 0x40083000
abbrev AEN_ELOCK_LOCK : Fld := ⟨0, 1⟩
/-- `AEN_TRQi` (R315). -/
abbrev AEN_TRQ (n : Nat) : Nat := 0x40084000 + 0x10 * n
abbrev AEN_TRQ_REQ : Fld := ⟨0, 32⟩
/-- `AEN_TRMi` (R315). -/
abbrev AEN_TRM (n : Nat) : Nat := 0x40084004 + 0x10 * n
abbrev AEN_TRM_TRIM : Fld := ⟨0, 32⟩
/-- `AEN_TRSi` (R315). -/
abbrev AEN_TRS (n : Nat) : Nat := 0x40084008 + 0x10 * n
abbrev AEN_TRS_CLAMPED : Fld := ⟨0, 1⟩
abbrev AEN_TRS_ENVERR : Fld := ⟨1, 1⟩
abbrev AEN_TRS_SRC : Fld := ⟨2, 1⟩
abbrev AEN_TRS_TGT : Fld := ⟨4, 2⟩
/-- `AEN_ELOi` (R315). -/
abbrev AEN_ELO (n : Nat) : Nat := 0x40086000 + 0x10 * n
abbrev AEN_ELO_LO : Fld := ⟨0, 32⟩
/-- `AEN_EHIi` (R315). -/
abbrev AEN_EHI (n : Nat) : Nat := 0x40086004 + 0x10 * n
abbrev AEN_EHI_HI : Fld := ⟨0, 32⟩
/-- `AEN_ESLi` (R315). -/
abbrev AEN_ESL (n : Nat) : Nat := 0x40086008 + 0x10 * n
abbrev AEN_ESL_SLEW : Fld := ⟨0, 31⟩

/-! ### Block OUT, base 0x40090000 (R39) -/

/-- `OUT_ENI` (R211). -/
abbrev OUT_ENI : Nat := 0x40090000
abbrev OUT_ENI_EN : Fld := ⟨0, 12⟩
/-- `OUT_ENG` (R211). -/
abbrev OUT_ENG : Nat := 0x40090004
abbrev OUT_ENG_EN : Fld := ⟨0, 24⟩
/-- `OUT_ENA` (R211). -/
abbrev OUT_ENA : Nat := 0x40090008
abbrev OUT_ENA_EN : Fld := ⟨0, 16⟩
/-- `OUT_ACTI` (R211). -/
abbrev OUT_ACTI : Nat := 0x4009000c
abbrev OUT_ACTI_ACT : Fld := ⟨0, 12⟩
/-- `OUT_ACTG` (R211). -/
abbrev OUT_ACTG : Nat := 0x40090010
abbrev OUT_ACTG_ACT : Fld := ⟨0, 24⟩
/-- `OUT_SOFTG` (R211). -/
abbrev OUT_SOFTG : Nat := 0x40090014
abbrev OUT_SOFTG_SOFT : Fld := ⟨0, 24⟩
/-- `OUT_LVLA` (R211). -/
abbrev OUT_LVLA : Nat := 0x40090018
abbrev OUT_LVLA_LVL : Fld := ⟨0, 16⟩
/-- `OUT_EVT` (R211). -/
abbrev OUT_EVT : Nat := 0x4009001c
abbrev OUT_EVT_ANY : Fld := ⟨0, 4⟩
abbrev OUT_EVT_SOFT : Nat := 0
abbrev OUT_EVT_CLIP : Nat := 1
abbrev OUT_EVT_DEFER : Nat := 2
abbrev OUT_EVT_ALATE : Nat := 3
/-- `OUT_WERR` (R211). -/
abbrev OUT_WERR : Nat := 0x40090020
abbrev OUT_WERR_ANY : Fld := ⟨0, 6⟩
abbrev OUT_WERR_ENI : Nat := 0
abbrev OUT_WERR_ENG : Nat := 1
abbrev OUT_WERR_ENA : Nat := 2
abbrev OUT_WERR_INJ : Nat := 3
abbrev OUT_WERR_IGN : Nat := 4
abbrev OUT_WERR_AOUT : Nat := 5
/-- `OUT_WERRA` (R211). -/
abbrev OUT_WERRA : Nat := 0x40090024
abbrev OUT_WERRA_OFFSET : Fld := ⟨0, 16⟩
/-- `OUT_INJn` (R211). -/
abbrev OUT_INJ (n : Nat) : Nat := 0x40090100 + 0x4 * n
abbrev OUT_INJ_MINOFF : Fld := ⟨0, 16⟩
/-- `OUT_IGNn` (R211). -/
abbrev OUT_IGN (n : Nat) : Nat := 0x40090200 + 0x4 * n
abbrev OUT_IGN_MINOFF : Fld := ⟨0, 16⟩
abbrev OUT_IGN_INV : Fld := ⟨16, 1⟩
/-- `OUT_AOUTn` (R211). -/
abbrev OUT_AOUT (n : Nat) : Nat := 0x40090400 + 0x10 * n
abbrev OUT_AOUT_IDLE : Fld := ⟨0, 1⟩
abbrev OUT_AOUT_MODE : Fld := ⟨1, 1⟩
abbrev OUT_AOUT_MINOFF : Fld := ⟨16, 16⟩
/-- `OUT_ASETn` (R211). -/
abbrev OUT_ASET (n : Nat) : Nat := 0x40090404 + 0x10 * n
abbrev OUT_ASET_SET : Fld := ⟨0, 24⟩
/-- `OUT_ACLRn` (R211). -/
abbrev OUT_ACLR (n : Nat) : Nat := 0x40090408 + 0x10 * n
abbrev OUT_ACLR_CLR : Fld := ⟨0, 24⟩

/-! ### Block INJ, base 0x400a0000 (R39) -/

/-- `INJ_CTRL` (R389). -/
abbrev INJ_CTRL : Nat := 0x400a0000
abbrev INJ_CTRL_EN : Fld := ⟨0, 12⟩
abbrev INJ_CTRL_GEN : Fld := ⟨16, 8⟩
/-- `INJ_APPLIED` (R389). -/
abbrev INJ_APPLIED : Nat := 0x400a0004
abbrev INJ_APPLIED_EN : Fld := ⟨0, 12⟩
abbrev INJ_APPLIED_GEN : Fld := ⟨16, 8⟩
/-- `INJ_STAT` (R389). -/
abbrev INJ_STAT : Nat := 0x400a0008
abbrev INJ_STAT_LS : Fld := ⟨0, 12⟩
abbrev INJ_STAT_HS : Fld := ⟨12, 4⟩
abbrev INJ_STAT_LATCH : Fld := ⟨16, 12⟩
/-- `INJ_EVT` (R389). -/
abbrev INJ_EVT : Nat := 0x400a000c
abbrev INJ_EVT_ANY : Fld := ⟨0, 21⟩
abbrev INJ_EVT_OC : Nat := 0
abbrev INJ_EVT_OPENON : Nat := 1
abbrev INJ_EVT_BSTTO : Nat := 2
abbrev INJ_EVT_OPENOFF : Nat := 3
abbrev INJ_EVT_SHORTGND : Nat := 4
abbrev INJ_EVT_HSSHORT : Nat := 5
abbrev INJ_EVT_HSOPEN : Nat := 6
abbrev INJ_EVT_DUTY : Nat := 7
abbrev INJ_EVT_BSHIFT : Nat := 8
abbrev INJ_EVT_BCANCEL : Nat := 9
abbrev INJ_EVT_VHVUV : Nat := 10
abbrev INJ_EVT_VHVOV : Nat := 11
abbrev INJ_EVT_BSTFB : Nat := 12
abbrev INJ_EVT_PROFERR : Nat := 13
abbrev INJ_EVT_REFUSED : Nat := 14
abbrev INJ_EVT_OPEN : Nat := 15
abbrev INJ_EVT_CLOSE : Nat := 16
abbrev INJ_EVT_ODOUT : Nat := 17
abbrev INJ_EVT_DIAGDONE : Nat := 18
abbrev INJ_EVT_ALRT : Nat := 19
abbrev INJ_EVT_APPLY : Nat := 20
/-- `INJ_WERR` (R389). -/
abbrev INJ_WERR : Nat := 0x400a0010
abbrev INJ_WERR_ANY : Fld := ⟨0, 9⟩
abbrev INJ_WERR_CTRL : Nat := 0
abbrev INJ_WERR_ALRT : Nat := 1
abbrev INJ_WERR_CLASP : Nat := 2
abbrev INJ_WERR_RPT : Nat := 3
abbrev INJ_WERR_DIAG : Nat := 4
abbrev INJ_WERR_BST : Nat := 5
abbrev INJ_WERR_BANK : Nat := 6
abbrev INJ_WERR_CH : Nat := 7
abbrev INJ_WERR_PROF : Nat := 8
/-- `INJ_WERRA` (R389). -/
abbrev INJ_WERRA : Nat := 0x400a0014
abbrev INJ_WERRA_OFFSET : Fld := ⟨0, 16⟩
/-- `INJ_ALRT` (R389). -/
abbrev INJ_ALRT : Nat := 0x400a0018
abbrev INJ_ALRT_HOLDU : Fld := ⟨0, 1⟩
abbrev INJ_ALRT_REL : Fld := ⟨1, 1⟩
abbrev INJ_ALRT_LOW : Fld := ⟨2, 1⟩
abbrev INJ_ALRT_CAUSE : Fld := ⟨8, 5⟩
/-- `INJ_CLASP` (R389). -/
abbrev INJ_CLASP : Nat := 0x400a001c
abbrev INJ_CLASP_CL : Fld := ⟨0, 4⟩
/-- `INJ_RPT` (R389). -/
abbrev INJ_RPT : Nat := 0x400a0020
abbrev INJ_RPT_EN : Fld := ⟨0, 1⟩
abbrev INJ_RPT_QUE : Fld := ⟨8, 5⟩
abbrev INJ_RPT_KINDS : Fld := ⟨16, 3⟩
/-- `INJ_FCLR` (R389). -/
abbrev INJ_FCLR : Nat := 0x400a0024
abbrev INJ_FCLR_CH : Fld := ⟨0, 12⟩
/-- `INJ_DIAG` (R389). -/
abbrev INJ_DIAG : Nat := 0x400a0028
abbrev INJ_DIAG_GO : Fld := ⟨0, 1⟩
abbrev INJ_DIAG_BANKS : Fld := ⟨4, 4⟩
abbrev INJ_DIAG_BUSY : Fld := ⟨8, 1⟩
/-- `INJ_BSTk` (R389). -/
abbrev INJ_BST (n : Nat) : Nat := 0x400a0040 + 0x10 * n
abbrev INJ_BST_VSET : Fld := ⟨0, 10⟩
abbrev INJ_BST_EN : Fld := ⟨16, 1⟩
/-- `INJ_BFBk` (R389). -/
abbrev INJ_BFB (n : Nat) : Nat := 0x400a0044 + 0x10 * n
abbrev INJ_BFB_K : Fld := ⟨0, 16⟩
/-- `INJ_BLIMk` (R389). -/
abbrev INJ_BLIM (n : Nat) : Nat := 0x400a0048 + 0x10 * n
abbrev INJ_BLIM_UV : Fld := ⟨0, 10⟩
abbrev INJ_BLIM_OV : Fld := ⟨16, 10⟩
/-- `INJ_BVk` (R389). -/
abbrev INJ_BV (n : Nat) : Nat := 0x400a004c + 0x10 * n
abbrev INJ_BV_VHV : Fld := ⟨0, 10⟩
abbrev INJ_BV_VFB : Fld := ⟨16, 10⟩
/-- `INJ_BANKb` (R389). -/
abbrev INJ_BANK (n : Nat) : Nat := 0x400a0080 + 0x10 * n
abbrev INJ_BANK_SUP : Fld := ⟨0, 1⟩
abbrev INJ_BANK_SHMAX : Fld := ⟨16, 12⟩
/-- `INJ_BOVLb` (R389). -/
abbrev INJ_BOVL (n : Nat) : Nat := 0x400a0084 + 0x10 * n
abbrev INJ_BOVL_SHIFT : Fld := ⟨0, 16⟩
abbrev INJ_BOVL_CANC : Fld := ⟨16, 16⟩
/-- `INJ_BSHb` (R389). -/
abbrev INJ_BSH (n : Nat) : Nat := 0x400a0088 + 0x10 * n
abbrev INJ_BSH_LAST : Fld := ⟨0, 16⟩
/-- `INJ_DRESb` (R389). -/
abbrev INJ_DRES (n : Nat) : Nat := 0x400a008c + 0x10 * n
abbrev INJ_DRES_CH0 : Fld := ⟨0, 2⟩
abbrev INJ_DRES_CH1 : Fld := ⟨2, 2⟩
abbrev INJ_DRES_CH2 : Fld := ⟨4, 2⟩
abbrev INJ_DRES_SHORT : Fld := ⟨8, 1⟩
/-- `INJ_CHn` (R390). -/
abbrev INJ_CH (n : Nat) : Nat := 0x400a0100 + 0x20 * n
abbrev INJ_CH_RSH : Fld := ⟨0, 8⟩
abbrev INJ_CH_CLAMP : Fld := ⟨8, 8⟩
abbrev INJ_CH_DUTY : Fld := ⟨16, 10⟩
abbrev INJ_CH_ODET : Fld := ⟨28, 1⟩
abbrev INJ_CH_CDET : Fld := ⟨29, 1⟩
/-- `INJ_OCn` (R390). -/
abbrev INJ_OC (n : Nat) : Nat := 0x400a0104 + 0x20 * n
abbrev INJ_OC_IOC : Fld := ⟨0, 13⟩
/-- `INJ_ADPn` (R390). -/
abbrev INJ_ADP (n : Nat) : Nat := 0x400a0108 + 0x20 * n
abbrev INJ_ADP_EN : Fld := ⟨0, 1⟩
abbrev INJ_ADP_ARATE : Fld := ⟨1, 4⟩
abbrev INJ_ADP_OUTL : Fld := ⟨8, 8⟩
abbrev INJ_ADP_TEN : Fld := ⟨16, 1⟩
abbrev INJ_ADP_TRI : Fld := ⟨17, 9⟩
/-- `INJ_IMn` (R390). -/
abbrev INJ_IM (n : Nat) : Nat := 0x400a010c + 0x20 * n
abbrev INJ_IM_CODE : Fld := ⟨0, 10⟩
abbrev INJ_IM_I : Fld := ⟨16, 16⟩
/-- `INJ_ODn` (R390). -/
abbrev INJ_OD (n : Nat) : Nat := 0x400a0110 + 0x20 * n
abbrev INJ_OD_OD : Fld := ⟨0, 16⟩
abbrev INJ_OD_NVAL : Fld := ⟨16, 16⟩
/-- `INJ_CDn` (R390). -/
abbrev INJ_CD (n : Nat) : Nat := 0x400a0114 + 0x20 * n
abbrev INJ_CD_CD : Fld := ⟨0, 16⟩
abbrev INJ_CD_NVAL : Fld := ⟨16, 16⟩
/-- `INJ_DUTYn` (R390). -/
abbrev INJ_DUTY (n : Nat) : Nat := 0x400a0118 + 0x20 * n
abbrev INJ_DUTY_SUM : Fld := ⟨0, 10⟩
abbrev INJ_DUTY_LIM : Fld := ⟨16, 1⟩
/-- `INJ_FSTn` (R390). -/
abbrev INJ_FST (n : Nat) : Nat := 0x400a011c + 0x20 * n
abbrev INJ_FST_ANY : Fld := ⟨0, 8⟩
abbrev INJ_FST_OC : Nat := 0
abbrev INJ_FST_OPENON : Nat := 1
abbrev INJ_FST_BSTTO : Nat := 2
abbrev INJ_FST_DUTY : Nat := 3
abbrev INJ_FST_CLSINV : Nat := 4
abbrev INJ_FST_ODINV : Nat := 5
abbrev INJ_FST_ODOUT : Nat := 6
abbrev INJ_FST_PROFERR : Nat := 7
/-- `INJ_PROFp` (R390). -/
abbrev INJ_PROF (n : Nat) : Nat := 0x400a0400 + 0x20 * n
abbrev INJ_PROF_IBST : Fld := ⟨0, 12⟩
abbrev INJ_PROF_MODE : Fld := ⟨12, 1⟩
abbrev INJ_PROF_PHDEC : Fld := ⟨14, 1⟩
abbrev INJ_PROF_TBMAX : Fld := ⟨16, 16⟩
/-- `INJ_PKp` (R390). -/
abbrev INJ_PK (n : Nat) : Nat := 0x400a0404 + 0x20 * n
abbrev INJ_PK_IPK : Fld := ⟨0, 12⟩
abbrev INJ_PK_TPK : Fld := ⟨16, 16⟩
/-- `INJ_HLDp` (R390). -/
abbrev INJ_HLD (n : Nat) : Nat := 0x400a0408 + 0x20 * n
abbrev INJ_HLD_IHLD : Fld := ⟨0, 12⟩
abbrev INJ_HLD_HYST : Fld := ⟨16, 8⟩
/-- `INJ_DTHp` (R390). -/
abbrev INJ_DTH (n : Nat) : Nat := 0x400a040c + 0x20 * n
abbrev INJ_DTH_DFREQ : Fld := ⟨0, 9⟩
abbrev INJ_DTH_DAMP : Fld := ⟨16, 12⟩
/-- `INJ_DETp` (R390). -/
abbrev INJ_DET (n : Nat) : Nat := 0x400a0410 + 0x20 * n
abbrev INJ_DET_OBLK : Fld := ⟨0, 16⟩
abbrev INJ_DET_OFRAC : Fld := ⟨16, 4⟩
abbrev INJ_DET_ICLS : Fld := ⟨20, 12⟩

/-! ### Block PWM, base 0x400b0000 (R39) -/

/-- `PWM_CTRL` (R420). -/
abbrev PWM_CTRL : Nat := 0x400b0000
abbrev PWM_CTRL_EN : Fld := ⟨0, 10⟩
abbrev PWM_CTRL_GEN : Fld := ⟨16, 8⟩
/-- `PWM_APPLIED` (R420). -/
abbrev PWM_APPLIED : Nat := 0x400b0004
abbrev PWM_APPLIED_EN : Fld := ⟨0, 10⟩
abbrev PWM_APPLIED_GEN : Fld := ⟨16, 8⟩
/-- `PWM_EVT` (R420). -/
abbrev PWM_EVT : Nat := 0x400b0008
abbrev PWM_EVT_ANY : Fld := ⟨0, 16⟩
abbrev PWM_EVT_PRD0 : Nat := 0
abbrev PWM_EVT_PRD1 : Nat := 1
abbrev PWM_EVT_PRD2 : Nat := 2
abbrev PWM_EVT_PRD3 : Nat := 3
abbrev PWM_EVT_PRD4 : Nat := 4
abbrev PWM_EVT_PRD5 : Nat := 5
abbrev PWM_EVT_PRD6 : Nat := 6
abbrev PWM_EVT_PRD7 : Nat := 7
abbrev PWM_EVT_PRD8 : Nat := 8
abbrev PWM_EVT_PRD9 : Nat := 9
abbrev PWM_EVT_MISM : Nat := 10
abbrev PWM_EVT_SHORTP : Nat := 11
abbrev PWM_EVT_NODE : Nat := 12
abbrev PWM_EVT_SAFE : Nat := 13
abbrev PWM_EVT_BOOST : Nat := 14
abbrev PWM_EVT_APPLY : Nat := 15
/-- `PWM_WERR` (R420). -/
abbrev PWM_WERR : Nat := 0x400b000c
abbrev PWM_WERR_ANY : Fld := ⟨0, 7⟩
abbrev PWM_WERR_CTRL : Nat := 0
abbrev PWM_WERR_CMD : Nat := 1
abbrev PWM_WERR_CFG : Nat := 2
abbrev PWM_WERR_SHADOW : Nat := 3
abbrev PWM_WERR_DT : Nat := 4
abbrev PWM_WERR_TRG : Nat := 5
abbrev PWM_WERR_BST : Nat := 6
/-- `PWM_WERRA` (R420). -/
abbrev PWM_WERRA : Nat := 0x400b0010
abbrev PWM_WERRA_OFFSET : Fld := ⟨0, 16⟩
/-- `PWM_SAFECMD` (R420). -/
abbrev PWM_SAFECMD : Nat := 0x400b0014
abbrev PWM_SAFECMD_PAIR : Fld := ⟨0, 8⟩
/-- `PWM_RESUME` (R420). -/
abbrev PWM_RESUME : Nat := 0x400b0018
abbrev PWM_RESUME_PAIR : Fld := ⟨0, 8⟩
/-- `PWM_CMUT` (R420). -/
abbrev PWM_CMUT : Nat := 0x400b001c
abbrev PWM_CMUT_PAIR : Fld := ⟨0, 10⟩
/-- `PWM_BSTk` (R420). -/
abbrev PWM_BST (n : Nat) : Nat := 0x400b0080 + 0x10 * n
abbrev PWM_BST_BLANK : Fld := ⟨0, 8⟩
abbrev PWM_BST_DMAX : Fld := ⟨16, 10⟩
abbrev PWM_BST_SRMODE : Fld := ⟨28, 1⟩
/-- `PWM_BSRk` (R420). -/
abbrev PWM_BSR (n : Nat) : Nat := 0x400b0084 + 0x10 * n
abbrev PWM_BSR_SRTON : Fld := ⟨0, 16⟩
/-- `PWM_BCNTk` (R420). -/
abbrev PWM_BCNT (n : Nat) : Nat := 0x400b0088 + 0x10 * n
abbrev PWM_BCNT_SKIP : Fld := ⟨0, 16⟩
abbrev PWM_BCNT_MAXD : Fld := ⟨16, 16⟩
/-- `PWM_CFGn` (R420). -/
abbrev PWM_CFG (n : Nat) : Nat := 0x400b0100 + 0x40 * n
abbrev PWM_CFG_MODE : Fld := ⟨0, 1⟩
abbrev PWM_CFG_OUTM : Fld := ⟨1, 2⟩
abbrev PWM_CFG_SHORT : Fld := ⟨3, 1⟩
abbrev PWM_CFG_MINW : Fld := ⟨8, 8⟩
/-- `PWM_PERn` (R420). -/
abbrev PWM_PER (n : Nat) : Nat := 0x400b0104 + 0x40 * n
abbrev PWM_PER_TOP : Fld := ⟨0, 16⟩
/-- `PWM_DUTn` (R420). -/
abbrev PWM_DUT (n : Nat) : Nat := 0x400b0108 + 0x40 * n
abbrev PWM_DUT_DUTY : Fld := ⟨0, 16⟩
/-- `PWM_CMITn` (R420). -/
abbrev PWM_CMIT (n : Nat) : Nat := 0x400b010c + 0x40 * n
abbrev PWM_CMIT_COMMIT : Fld := ⟨0, 1⟩
/-- `PWM_ACTn` (R420). -/
abbrev PWM_ACT (n : Nat) : Nat := 0x400b0110 + 0x40 * n
abbrev PWM_ACT_TOP : Fld := ⟨0, 16⟩
abbrev PWM_ACT_DUTY : Fld := ⟨16, 16⟩
/-- `PWM_DTn` (R420). -/
abbrev PWM_DT (n : Nat) : Nat := 0x400b0114 + 0x40 * n
abbrev PWM_DT_DTMIN : Fld := ⟨0, 9⟩
abbrev PWM_DT_DTMAX : Fld := ⟨16, 9⟩
abbrev PWM_DT_MARGIN : Fld := ⟨28, 4⟩
/-- `PWM_SWTn` (R420). -/
abbrev PWM_SWT (n : Nat) : Nat := 0x400b0118 + 0x40 * n
abbrev PWM_SWT_FTH : Fld := ⟨0, 8⟩
abbrev PWM_SWT_RTH : Fld := ⟨8, 8⟩
/-- `PWM_SAFEn` (R420). -/
abbrev PWM_SAFE (n : Nat) : Nat := 0x400b011c + 0x40 * n
abbrev PWM_SAFE_SDUTY : Fld := ⟨0, 10⟩
/-- `PWM_TRGn` (R420). -/
abbrev PWM_TRG (n : Nat) : Nat := 0x400b0120 + 0x40 * n
abbrev PWM_TRG_TPOS : Fld := ⟨0, 16⟩
abbrev PWM_TRG_TDIR : Fld := ⟨16, 1⟩
abbrev PWM_TRG_TPRE : Fld := ⟨20, 4⟩
abbrev PWM_TRG_IPRE : Fld := ⟨24, 4⟩
abbrev PWM_TRG_TEN : Fld := ⟨28, 1⟩
/-- `PWM_MSKn` (R420). -/
abbrev PWM_MSK (n : Nat) : Nat := 0x400b0124 + 0x40 * n
abbrev PWM_MSK_NEXT : Fld := ⟨0, 2⟩
abbrev PWM_MSK_APPL : Fld := ⟨8, 2⟩
abbrev PWM_MSK_CSRC : Fld := ⟨16, 6⟩
/-- `PWM_MEASn` (R420). -/
abbrev PWM_MEAS (n : Nat) : Nat := 0x400b0128 + 0x40 * n
abbrev PWM_MEAS_DHL : Fld := ⟨0, 16⟩
abbrev PWM_MEAS_DLH : Fld := ⟨16, 16⟩
/-- `PWM_CNTn` (R420). -/
abbrev PWM_CNT (n : Nat) : Nat := 0x400b012c + 0x40 * n
abbrev PWM_CNT_CNT : Fld := ⟨0, 16⟩
abbrev PWM_CNT_DOWN : Fld := ⟨16, 1⟩
abbrev PWM_CNT_SAFE : Fld := ⟨17, 1⟩
abbrev PWM_CNT_CPEND : Fld := ⟨18, 1⟩
/-- `PWM_STn` (R420). -/
abbrev PWM_ST (n : Nat) : Nat := 0x400b0130 + 0x40 * n
abbrev PWM_ST_ANY : Fld := ⟨0, 6⟩
abbrev PWM_ST_MISM : Nat := 0
abbrev PWM_ST_DROP : Nat := 1
abbrev PWM_ST_STRETCH : Nat := 2
abbrev PWM_ST_NODE : Nat := 3
abbrev PWM_ST_BMAXD : Nat := 4
abbrev PWM_ST_BNOCMP : Nat := 5
/-- `PWM_SCNTn` (R420). -/
abbrev PWM_SCNT (n : Nat) : Nat := 0x400b0134 + 0x40 * n
abbrev PWM_SCNT_SHORT : Fld := ⟨0, 16⟩
abbrev PWM_SCNT_NODE : Fld := ⟨16, 16⟩

/-! ### Block CMP, base 0x400c0000 (R39) -/

/-- `CMP_STAT` (R421). -/
abbrev CMP_STAT : Nat := 0x400c0000
abbrev CMP_STAT_LVL : Fld := ⟨0, 8⟩
abbrev CMP_STAT_FORCE : Fld := ⟨8, 8⟩
abbrev CMP_STAT_RAMP : Fld := ⟨16, 8⟩
/-- `CMP_EVT` (R421). -/
abbrev CMP_EVT : Nat := 0x400c0004
abbrev CMP_EVT_ANY : Fld := ⟨0, 16⟩
abbrev CMP_EVT_RISE0 : Nat := 0
abbrev CMP_EVT_RISE1 : Nat := 1
abbrev CMP_EVT_RISE2 : Nat := 2
abbrev CMP_EVT_RISE3 : Nat := 3
abbrev CMP_EVT_RISE4 : Nat := 4
abbrev CMP_EVT_RISE5 : Nat := 5
abbrev CMP_EVT_RISE6 : Nat := 6
abbrev CMP_EVT_RISE7 : Nat := 7
abbrev CMP_EVT_FALL0 : Nat := 8
abbrev CMP_EVT_FALL1 : Nat := 9
abbrev CMP_EVT_FALL2 : Nat := 10
abbrev CMP_EVT_FALL3 : Nat := 11
abbrev CMP_EVT_FALL4 : Nat := 12
abbrev CMP_EVT_FALL5 : Nat := 13
abbrev CMP_EVT_FALL6 : Nat := 14
abbrev CMP_EVT_FALL7 : Nat := 15
/-- `CMP_WAKE` (R421). -/
abbrev CMP_WAKE : Nat := 0x400c0008
abbrev CMP_WAKE_EN : Fld := ⟨0, 8⟩
abbrev CMP_WAKE_FALL : Fld := ⟨8, 8⟩
/-- `CMP_WERR` (R421). -/
abbrev CMP_WERR : Nat := 0x400c000c
abbrev CMP_WERR_ANY : Fld := ⟨0, 3⟩
abbrev CMP_WERR_CFG : Nat := 0
abbrev CMP_WERR_THR : Nat := 1
abbrev CMP_WERR_WAKE : Nat := 2
/-- `CMP_WERRA` (R421). -/
abbrev CMP_WERRA : Nat := 0x400c0010
abbrev CMP_WERRA_OFFSET : Fld := ⟨0, 16⟩
/-- `CMP_CFGn` (R421). -/
abbrev CMP_CFG (n : Nat) : Nat := 0x400c0100 + 0x10 * n
abbrev CMP_CFG_EN : Fld := ⟨0, 1⟩
abbrev CMP_CFG_MODE : Fld := ⟨1, 1⟩
abbrev CMP_CFG_BST : Fld := ⟨2, 1⟩
abbrev CMP_CFG_EFILT : Fld := ⟨8, 8⟩
/-- `CMP_THRn` (R421). -/
abbrev CMP_THR (n : Nat) : Nat := 0x400c0104 + 0x10 * n
abbrev CMP_THR_THR : Fld := ⟨0, 10⟩
abbrev CMP_THR_RAMP : Fld := ⟨16, 6⟩
/-- `CMP_CNTn` (R421). -/
abbrev CMP_CNT (n : Nat) : Nat := 0x400c0108 + 0x10 * n
abbrev CMP_CNT_RISE : Fld := ⟨0, 16⟩
abbrev CMP_CNT_FALL : Fld := ⟨16, 16⟩

/-! ### Block FADC, base 0x400d0000 (R39) -/

/-- `FADC_CTRL` (R459). -/
abbrev FADC_CTRL : Nat := 0x400d0000
abbrev FADC_CTRL_EN : Fld := ⟨0, 4⟩
/-- `FADC_STAT` (R459). -/
abbrev FADC_STAT : Nat := 0x400d0004
abbrev FADC_STAT_RRUN : Fld := ⟨0, 4⟩
abbrev FADC_STAT_JRUN : Fld := ⟨4, 4⟩
abbrev FADC_STAT_CAL : Fld := ⟨8, 4⟩
abbrev FADC_STAT_RPEND : Fld := ⟨12, 4⟩
abbrev FADC_STAT_JPEND : Fld := ⟨16, 4⟩
/-- `FADC_EVT` (R459). -/
abbrev FADC_EVT : Nat := 0x400d0008
abbrev FADC_EVT_ANY : Fld := ⟨0, 16⟩
abbrev FADC_EVT_EOS0 : Nat := 0
abbrev FADC_EVT_EOS1 : Nat := 1
abbrev FADC_EVT_EOS2 : Nat := 2
abbrev FADC_EVT_EOS3 : Nat := 3
abbrev FADC_EVT_JEOS0 : Nat := 4
abbrev FADC_EVT_JEOS1 : Nat := 5
abbrev FADC_EVT_JEOS2 : Nat := 6
abbrev FADC_EVT_JEOS3 : Nat := 7
abbrev FADC_EVT_OVR : Nat := 8
abbrev FADC_EVT_WINF : Nat := 9
abbrev FADC_EVT_STALE : Nat := 10
abbrev FADC_EVT_DLY : Nat := 11
abbrev FADC_EVT_CALDONE : Nat := 12
abbrev FADC_EVT_CALERR : Nat := 13
abbrev FADC_EVT_TOVR : Nat := 14
abbrev FADC_EVT_QDROP : Nat := 15
/-- `FADC_WERR` (R459). -/
abbrev FADC_WERR : Nat := 0x400d000c
abbrev FADC_WERR_ANY : Fld := ⟨0, 8⟩
abbrev FADC_WERR_CTRL : Nat := 0
abbrev FADC_WERR_CMD : Nat := 1
abbrev FADC_WERR_TDAC : Nat := 2
abbrev FADC_WERR_CFG : Nat := 3
abbrev FADC_WERR_DLY : Nat := 4
abbrev FADC_WERR_OPT : Nat := 5
abbrev FADC_WERR_SEQ : Nat := 6
abbrev FADC_WERR_CH : Nat := 7
/-- `FADC_WERRA` (R459). -/
abbrev FADC_WERRA : Nat := 0x400d0010
abbrev FADC_WERRA_OFFSET : Fld := ⟨0, 16⟩
/-- `FADC_CMD` (R459). -/
abbrev FADC_CMD : Nat := 0x400d0014
abbrev FADC_CMD_RSW : Fld := ⟨0, 4⟩
abbrev FADC_CMD_JSW : Fld := ⟨4, 4⟩
abbrev FADC_CMD_SCAL : Fld := ⟨8, 4⟩
/-- `FADC_TDAC` (R459). -/
abbrev FADC_TDAC : Nat := 0x400d0018
abbrev FADC_TDAC_CODE : Fld := ⟨0, 12⟩
abbrev FADC_TDAC_INPUT : Fld := ⟨16, 6⟩
abbrev FADC_TDAC_MODE : Fld := ⟨24, 2⟩
/-- `FADC_CFGf` (R459). -/
abbrev FADC_CFG (n : Nat) : Nat := 0x400d0100 + 0x100 * n
abbrev FADC_CFG_RTRIG : Fld := ⟨0, 6⟩
abbrev FADC_CFG_RLEN : Fld := ⟨8, 4⟩
abbrev FADC_CFG_JTRIG : Fld := ⟨16, 6⟩
abbrev FADC_CFG_JLEN : Fld := ⟨22, 2⟩
abbrev FADC_CFG_LLEN : Fld := ⟨24, 5⟩
/-- `FADC_DLYf` (R459). -/
abbrev FADC_DLY (n : Nat) : Nat := 0x400d0104 + 0x100 * n
abbrev FADC_DLY_RDLY : Fld := ⟨0, 16⟩
abbrev FADC_DLY_JDLY : Fld := ⟨16, 16⟩
/-- `FADC_OPTf` (R459). -/
abbrev FADC_OPT (n : Nat) : Nat := 0x400d0108 + 0x100 * n
abbrev FADC_OPT_QUE : Fld := ⟨0, 5⟩
abbrev FADC_OPT_QEN : Fld := ⟨7, 1⟩
abbrev FADC_OPT_CALG : Fld := ⟨8, 4⟩
/-- `FADC_CNTf` (R459). -/
abbrev FADC_CNT (n : Nat) : Nat := 0x400d010c + 0x100 * n
abbrev FADC_CNT_OVR : Fld := ⟨0, 8⟩
abbrev FADC_CNT_TOVR : Fld := ⟨8, 8⟩
abbrev FADC_CNT_DLY : Fld := ⟨16, 16⟩
/-- `FADC_RSQf_i` (R459). -/
abbrev FADC_RSQ (n i : Nat) : Nat := 0x400d0110 + 0x100 * n + 0x4 * i
abbrev FADC_RSQ_E0 : Fld := ⟨0, 6⟩
abbrev FADC_RSQ_E1 : Fld := ⟨8, 6⟩
abbrev FADC_RSQ_E2 : Fld := ⟨16, 6⟩
abbrev FADC_RSQ_E3 : Fld := ⟨24, 6⟩
/-- `FADC_JSQf` (R459). -/
abbrev FADC_JSQ (n : Nat) : Nat := 0x400d0120 + 0x100 * n
abbrev FADC_JSQ_E0 : Fld := ⟨0, 6⟩
abbrev FADC_JSQ_E1 : Fld := ⟨8, 6⟩
abbrev FADC_JSQ_E2 : Fld := ⟨16, 6⟩
abbrev FADC_JSQ_E3 : Fld := ⟨24, 6⟩
/-- `FADC_LSQf_i` (R459). -/
abbrev FADC_LSQ (n i : Nat) : Nat := 0x400d0130 + 0x100 * n + 0x4 * i
abbrev FADC_LSQ_E0 : Fld := ⟨0, 6⟩
abbrev FADC_LSQ_E1 : Fld := ⟨8, 6⟩
abbrev FADC_LSQ_E2 : Fld := ⟨16, 6⟩
abbrev FADC_LSQ_E3 : Fld := ⟨24, 6⟩
/-- `FADC_RDATf_i` (R459). -/
abbrev FADC_RDAT (n i : Nat) : Nat := 0x400d0140 + 0x100 * n + 0x4 * i
abbrev FADC_RDAT_RESULT : Fld := ⟨0, 32⟩
/-- `FADC_JDATf_j` (R459). -/
abbrev FADC_JDAT (n i : Nat) : Nat := 0x400d0180 + 0x100 * n + 0x4 * i
abbrev FADC_JDAT_RESULT : Fld := ⟨0, 32⟩
/-- `FADC_CALf_g` (R459). -/
abbrev FADC_CAL (n i : Nat) : Nat := 0x400d0190 + 0x100 * n + 0x4 * i
abbrev FADC_CAL_OFS : Fld := ⟨0, 16⟩
abbrev FADC_CAL_GC : Fld := ⟨16, 16⟩
/-- `FADC_CHn` (R459). -/
abbrev FADC_CH (n : Nat) : Nat := 0x400d1000 + 0x10 * n
abbrev FADC_CH_GAIN : Fld := ⟨0, 2⟩
abbrev FADC_CH_NWIN : Fld := ⟨8, 4⟩
abbrev FADC_CH_TOUT : Fld := ⟨16, 16⟩
/-- `FADC_WINn` (R459). -/
abbrev FADC_WIN (n : Nat) : Nat := 0x400d1004 + 0x10 * n
abbrev FADC_WIN_LO : Fld := ⟨0, 16⟩
abbrev FADC_WIN_HI : Fld := ⟨16, 16⟩
/-- `FADC_LASTn` (R459). -/
abbrev FADC_LAST (n : Nat) : Nat := 0x400d1008 + 0x10 * n
abbrev FADC_LAST_RESULT : Fld := ⟨0, 32⟩

/-! ### Block PADC, base 0x400e0000 (R39) -/

/-- `PADC_CTRL` (R461). -/
abbrev PADC_CTRL : Nat := 0x400e0000
abbrev PADC_CTRL_EN : Fld := ⟨0, 2⟩
/-- `PADC_STAT` (R461). -/
abbrev PADC_STAT : Nat := 0x400e0004
abbrev PADC_STAT_CAL : Fld := ⟨0, 2⟩
abbrev PADC_STAT_LOCK : Fld := ⟨2, 1⟩
abbrev PADC_STAT_XRUN : Fld := ⟨3, 1⟩
/-- `PADC_EVT` (R461). -/
abbrev PADC_EVT : Nat := 0x400e0008
abbrev PADC_EVT_ANY : Fld := ⟨0, 13⟩
abbrev PADC_EVT_WORD0 : Nat := 0
abbrev PADC_EVT_WORD1 : Nat := 1
abbrev PADC_EVT_LEND0 : Nat := 2
abbrev PADC_EVT_LEND1 : Nat := 3
abbrev PADC_EVT_OVR : Nat := 4
abbrev PADC_EVT_WINF : Nat := 5
abbrev PADC_EVT_STALE : Nat := 6
abbrev PADC_EVT_GRIDLOCK : Nat := 7
abbrev PADC_EVT_GRIDLOSS : Nat := 8
abbrev PADC_EVT_CALDONE : Nat := 9
abbrev PADC_EVT_CALERR : Nat := 10
abbrev PADC_EVT_XCHK : Nat := 11
abbrev PADC_EVT_QDROP : Nat := 12
/-- `PADC_WERR` (R461). -/
abbrev PADC_WERR : Nat := 0x400e000c
abbrev PADC_WERR_ANY : Fld := ⟨0, 7⟩
abbrev PADC_WERR_CTRL : Nat := 0
abbrev PADC_WERR_CMD : Nat := 1
abbrev PADC_WERR_XCFG : Nat := 2
abbrev PADC_WERR_CFG : Nat := 3
abbrev PADC_WERR_LST : Nat := 4
abbrev PADC_WERR_CAL : Nat := 5
abbrev PADC_WERR_CH : Nat := 6
/-- `PADC_WERRA` (R461). -/
abbrev PADC_WERRA : Nat := 0x400e0010
abbrev PADC_WERRA_OFFSET : Fld := ⟨0, 16⟩
/-- `PADC_CMD` (R461). -/
abbrev PADC_CMD : Nat := 0x400e0014
abbrev PADC_CMD_SCAL : Fld := ⟨0, 2⟩
/-- `PADC_GRID` (R461). -/
abbrev PADC_GRID : Nat := 0x400e0018
abbrev PADC_GRID_TM : Fld := ⟨0, 24⟩
/-- `PADC_XCFG` (R461). -/
abbrev PADC_XCFG : Nat := 0x400e001c
abbrev PADC_XCFG_EN : Fld := ⟨0, 1⟩
abbrev PADC_XCFG_SRC : Fld := ⟨1, 2⟩
abbrev PADC_XCFG_SEL : Fld := ⟨4, 6⟩
abbrev PADC_XCFG_XINT : Fld := ⟨16, 16⟩
/-- `PADC_XTOL` (R461). -/
abbrev PADC_XTOL : Nat := 0x400e0020
abbrev PADC_XTOL_PTOL : Fld := ⟨0, 16⟩
abbrev PADC_XTOL_FTOL : Fld := ⟨16, 16⟩
/-- `PADC_XRES` (R461). -/
abbrev PADC_XRES : Nat := 0x400e0024
abbrev PADC_XRES_DP : Fld := ⟨0, 16⟩
abbrev PADC_XRES_DF : Fld := ⟨16, 16⟩
/-- `PADC_XSTAT` (R461). -/
abbrev PADC_XSTAT : Nat := 0x400e0028
abbrev PADC_XSTAT_NOFAST : Fld := ⟨0, 1⟩
abbrev PADC_XSTAT_FAIL : Fld := ⟨8, 8⟩
/-- `PADC_CFGc` (R461). -/
abbrev PADC_CFG (n : Nat) : Nat := 0x400e0100 + 0x80 * n
abbrev PADC_CFG_LOCK : Fld := ⟨0, 1⟩
abbrev PADC_CFG_FILT : Fld := ⟨1, 2⟩
abbrev PADC_CFG_MULT : Fld := ⟨8, 6⟩
abbrev PADC_CFG_LEN : Fld := ⟨16, 5⟩
/-- `PADC_PERc` (R461). -/
abbrev PADC_PER (n : Nat) : Nat := 0x400e0104 + 0x80 * n
abbrev PADC_PER_PER : Fld := ⟨0, 20⟩
/-- `PADC_LSTc_i` (R461). -/
abbrev PADC_LST (n i : Nat) : Nat := 0x400e0108 + 0x80 * n + 0x4 * i
abbrev PADC_LST_CH0 : Fld := ⟨0, 4⟩
abbrev PADC_LST_REP0 : Fld := ⟨4, 3⟩
abbrev PADC_LST_CH1 : Fld := ⟨8, 4⟩
abbrev PADC_LST_REP1 : Fld := ⟨12, 3⟩
abbrev PADC_LST_CH2 : Fld := ⟨16, 4⟩
abbrev PADC_LST_REP2 : Fld := ⟨20, 3⟩
abbrev PADC_LST_CH3 : Fld := ⟨24, 4⟩
abbrev PADC_LST_REP3 : Fld := ⟨28, 3⟩
/-- `PADC_OFSc` (R461). -/
abbrev PADC_OFS (n : Nat) : Nat := 0x400e0118 + 0x80 * n
abbrev PADC_OFS_OFS : Fld := ⟨0, 24⟩
/-- `PADC_GCc` (R461). -/
abbrev PADC_GC (n : Nat) : Nat := 0x400e011c + 0x80 * n
abbrev PADC_GC_GC : Fld := ⟨0, 24⟩
/-- `PADC_RESc` (R461). -/
abbrev PADC_RES (n : Nat) : Nat := 0x400e0120 + 0x80 * n
abbrev PADC_RES_WORD : Fld := ⟨0, 32⟩
/-- `PADC_OPTc` (R461). -/
abbrev PADC_OPT (n : Nat) : Nat := 0x400e0124 + 0x80 * n
abbrev PADC_OPT_QUE : Fld := ⟨0, 5⟩
abbrev PADC_OPT_QEN : Fld := ⟨7, 1⟩
/-- `PADC_CNTc` (R461). -/
abbrev PADC_CNT (n : Nat) : Nat := 0x400e0128 + 0x80 * n
abbrev PADC_CNT_OVR : Fld := ⟨0, 16⟩
abbrev PADC_CNT_INV : Fld := ⟨16, 16⟩
/-- `PADC_CHk` (R461). -/
abbrev PADC_CH (n : Nat) : Nat := 0x400e0400 + 0x10 * n
abbrev PADC_CH_DIFF : Fld := ⟨0, 1⟩
abbrev PADC_CH_NWIN : Fld := ⟨8, 4⟩
abbrev PADC_CH_TOUT : Fld := ⟨16, 16⟩
/-- `PADC_WLOk` (R461). -/
abbrev PADC_WLO (n : Nat) : Nat := 0x400e0404 + 0x10 * n
abbrev PADC_WLO_LO : Fld := ⟨0, 24⟩
/-- `PADC_WHIk` (R461). -/
abbrev PADC_WHI (n : Nat) : Nat := 0x400e0408 + 0x10 * n
abbrev PADC_WHI_HI : Fld := ⟨0, 24⟩
/-- `PADC_LASTk` (R461). -/
abbrev PADC_LAST (n : Nat) : Nat := 0x400e040c + 0x10 * n
abbrev PADC_LAST_WORD : Fld := ⟨0, 32⟩

/-! ### Block CMB, base 0x400f0000 (R39) -/

/-- `CMB_CTRL` (R493). -/
abbrev CMB_CTRL : Nat := 0x400f0000
abbrev CMB_CTRL_EN : Fld := ⟨0, 12⟩
abbrev CMB_CTRL_GEN : Fld := ⟨16, 8⟩
/-- `CMB_APPLIED` (R493). -/
abbrev CMB_APPLIED : Nat := 0x400f0004
abbrev CMB_APPLIED_EN : Fld := ⟨0, 12⟩
abbrev CMB_APPLIED_GEN : Fld := ⟨16, 8⟩
/-- `CMB_CFG` (R493). -/
abbrev CMB_CFG : Nat := 0x400f0008
abbrev CMB_CFG_ENGCYL : Fld := ⟨0, 5⟩
abbrev CMB_CFG_MISFL : Fld := ⟨5, 3⟩
abbrev CMB_CFG_RRN : Fld := ⟨8, 4⟩
abbrev CMB_CFG_BADMAX : Fld := ⟨16, 8⟩
abbrev CMB_CFG_BADRUN : Fld := ⟨24, 8⟩
/-- `CMB_EVT` (R493). -/
abbrev CMB_EVT : Nat := 0x400f000c
abbrev CMB_EVT_ANY : Fld := ⟨0, 17⟩
abbrev CMB_EVT_RECORD : Nat := 0
abbrev CMB_EVT_WORK : Nat := 1
abbrev CMB_EVT_INVAL : Nat := 2
abbrev CMB_EVT_MISF : Nat := 3
abbrev CMB_EVT_PART : Nat := 4
abbrev CMB_EVT_KNOCK : Nat := 5
abbrev CMB_EVT_MISFL : Nat := 6
abbrev CMB_EVT_PEGERR : Nat := 7
abbrev CMB_EVT_NFIX : Nat := 8
abbrev CMB_EVT_ABAND : Nat := 9
abbrev CMB_EVT_CHERR : Nat := 10
abbrev CMB_EVT_QDROP : Nat := 11
abbrev CMB_EVT_LATE : Nat := 12
abbrev CMB_EVT_RULEL : Nat := 13
abbrev CMB_EVT_DITH : Nat := 14
abbrev CMB_EVT_COAST : Nat := 15
abbrev CMB_EVT_APPLY : Nat := 16
/-- `CMB_WERR` (R493). -/
abbrev CMB_WERR : Nat := 0x400f0010
abbrev CMB_WERR_ANY : Fld := ⟨0, 6⟩
abbrev CMB_WERR_CTRL : Nat := 0
abbrev CMB_WERR_GLOBAL : Nat := 1
abbrev CMB_WERR_STREAM : Nat := 2
abbrev CMB_WERR_RULE : Nat := 3
abbrev CMB_WERR_DITH : Nat := 4
abbrev CMB_WERR_TABLE : Nat := 5
/-- `CMB_WERRA` (R493). -/
abbrev CMB_WERRA : Nat := 0x400f0014
abbrev CMB_WERRA_OFFSET : Fld := ⟨0, 16⟩
/-- `CMB_QCFG` (R493). -/
abbrev CMB_QCFG : Nat := 0x400f0018
abbrev CMB_QCFG_EN : Fld := ⟨0, 1⟩
abbrev CMB_QCFG_QUE : Fld := ⟨8, 5⟩
/-- `CMB_STAT` (R493). -/
abbrev CMB_STAT : Nat := 0x400f001c
abbrev CMB_STAT_COPEN : Fld := ⟨0, 12⟩
abbrev CMB_STAT_WOPEN : Fld := ⟨12, 12⟩
abbrev CMB_STAT_PEND : Fld := ⟨24, 4⟩
/-- `CMB_CNT` (R493). -/
abbrev CMB_CNT : Nat := 0x400f0020
abbrev CMB_CNT_QDROP : Fld := ⟨0, 16⟩
abbrev CMB_CNT_LATE : Fld := ⟨16, 16⟩
/-- `CMB_ACFG` (R493). -/
abbrev CMB_ACFG : Nat := 0x400f0024
abbrev CMB_ACFG_INJEN : Fld := ⟨0, 1⟩
abbrev CMB_ACFG_COASTEN : Fld := ⟨1, 1⟩
/-- `CMB_ASTAT` (R493). -/
abbrev CMB_ASTAT : Nat := 0x400f0028
abbrev CMB_ASTAT_INJOK : Fld := ⟨0, 12⟩
abbrev CMB_ASTAT_COAST : Fld := ⟨16, 1⟩
/-- `CMB_WWS` (R493). -/
abbrev CMB_WWS : Nat := 0x400f002c
abbrev CMB_WWS_S : Fld := ⟨0, 32⟩
/-- `CMB_WWE` (R493). -/
abbrev CMB_WWE : Nat := 0x400f0030
abbrev CMB_WWE_E : Fld := ⟨0, 32⟩
/-- `CMB_VD` (R493). -/
abbrev CMB_VD : Nat := 0x400f0034
abbrev CMB_VD_VD : Fld := ⟨0, 32⟩
/-- `CMB_MISQ` (R493). -/
abbrev CMB_MISQ : Nat := 0x400f0038
abbrev CMB_MISQ_MISQ : Fld := ⟨0, 32⟩
/-- `CMB_PARTQ` (R493). -/
abbrev CMB_PARTQ : Nat := 0x400f003c
abbrev CMB_PARTQ_PARTQ : Fld := ⟨0, 32⟩
/-- `CMB_KTHR` (R493). -/
abbrev CMB_KTHR : Nat := 0x400f0040
abbrev CMB_KTHR_KTHR : Fld := ⟨0, 32⟩
/-- `CMB_NMIN` (R493). -/
abbrev CMB_NMIN : Nat := 0x400f0044
abbrev CMB_NMIN_N : Fld := ⟨0, 32⟩
/-- `CMB_NMAX` (R493). -/
abbrev CMB_NMAX : Nat := 0x400f0048
abbrev CMB_NMAX_N : Fld := ⟨0, 32⟩
/-- `CMB_NDEF` (R493). -/
abbrev CMB_NDEF : Nat := 0x400f004c
abbrev CMB_NDEF_N : Fld := ⟨0, 32⟩
/-- `CMB_KCk` (R493). -/
abbrev CMB_KC (n : Nat) : Nat := 0x400f0080 + 0x4 * n
abbrev CMB_KC_COEF : Fld := ⟨0, 32⟩
/-- `CMB_CYLc` (R493). -/
abbrev CMB_CYL (n : Nat) : Nat := 0x400f0100 + 0x40 * n
abbrev CMB_CYL_CHAN : Fld := ⟨0, 6⟩
abbrev CMB_CYL_INJ : Fld := ⟨8, 4⟩
abbrev CMB_CYL_PEG : Fld := ⟨12, 2⟩
abbrev CMB_CYL_NFIT : Fld := ⟨14, 1⟩
/-- `CMB_TDCc` (R493). -/
abbrev CMB_TDC (n : Nat) : Nat := 0x400f0104 + 0x40 * n
abbrev CMB_TDC_TDC : Fld := ⟨0, 24⟩
/-- `CMB_GOFSc` (R493). -/
abbrev CMB_GOFS (n : Nat) : Nat := 0x400f0108 + 0x40 * n
abbrev CMB_GOFS_GOFS : Fld := ⟨0, 24⟩
/-- `CMB_WSc` (R493). -/
abbrev CMB_WS (n : Nat) : Nat := 0x400f010c + 0x40 * n
abbrev CMB_WS_WS : Fld := ⟨0, 32⟩
/-- `CMB_WEc` (R493). -/
abbrev CMB_WE (n : Nat) : Nat := 0x400f0110 + 0x40 * n
abbrev CMB_WE_WE : Fld := ⟨0, 32⟩
/-- `CMB_PAc` (R493). -/
abbrev CMB_PA (n : Nat) : Nat := 0x400f0114 + 0x40 * n
abbrev CMB_PA_P : Fld := ⟨0, 32⟩
/-- `CMB_PBc` (R493). -/
abbrev CMB_PB (n : Nat) : Nat := 0x400f0118 + 0x40 * n
abbrev CMB_PB_P : Fld := ⟨0, 32⟩
/-- `CMB_PWc` (R493). -/
abbrev CMB_PW (n : Nat) : Nat := 0x400f011c + 0x40 * n
abbrev CMB_PW_PW : Fld := ⟨0, 23⟩
/-- `CMB_FAc` (R493). -/
abbrev CMB_FA (n : Nat) : Nat := 0x400f0120 + 0x40 * n
abbrev CMB_FA_F : Fld := ⟨0, 32⟩
/-- `CMB_FBc` (R493). -/
abbrev CMB_FB (n : Nat) : Nat := 0x400f0124 + 0x40 * n
abbrev CMB_FB_F : Fld := ⟨0, 32⟩
/-- `CMB_KAc` (R493). -/
abbrev CMB_KA (n : Nat) : Nat := 0x400f0128 + 0x40 * n
abbrev CMB_KA_K : Fld := ⟨0, 32⟩
/-- `CMB_KBc` (R493). -/
abbrev CMB_KB (n : Nat) : Nat := 0x400f012c + 0x40 * n
abbrev CMB_KB_K : Fld := ⟨0, 32⟩
/-- `CMB_SGc` (R493). -/
abbrev CMB_SG (n : Nat) : Nat := 0x400f0130 + 0x40 * n
abbrev CMB_SG_SG : Fld := ⟨0, 32⟩
/-- `CMB_SOc` (R493). -/
abbrev CMB_SO (n : Nat) : Nat := 0x400f0134 + 0x40 * n
abbrev CMB_SO_SO : Fld := ⟨0, 32⟩
/-- `CMB_PREFc` (R493). -/
abbrev CMB_PREF (n : Nat) : Nat := 0x400f0138 + 0x40 * n
abbrev CMB_PREF_PREF : Fld := ⟨0, 32⟩
/-- `CMB_CNTc` (R493). -/
abbrev CMB_SCNT (n : Nat) : Nat := 0x400f013c + 0x40 * n
abbrev CMB_SCNT_INVAL : Fld := ⟨0, 8⟩
abbrev CMB_SCNT_ABAND : Fld := ⟨8, 8⟩
abbrev CMB_SCNT_MISRUN : Fld := ⟨16, 8⟩
abbrev CMB_SCNT_CHERR : Fld := ⟨24, 8⟩
/-- `CMB_RCFGr` (R493). -/
abbrev CMB_RCFG (n : Nat) : Nat := 0x400f0800 + 0x20 * n
abbrev CMB_RCFG_EN : Fld := ⟨0, 1⟩
abbrev CMB_RCFG_CYL : Fld := ⟨1, 4⟩
abbrev CMB_RCFG_METRIC : Fld := ⟨5, 4⟩
abbrev CMB_RCFG_MODE : Fld := ⟨9, 2⟩
abbrev CMB_RCFG_MISOK : Fld := ⟨11, 1⟩
abbrev CMB_RCFG_TRIM : Fld := ⟨16, 9⟩
/-- `CMB_RSETr` (R493). -/
abbrev CMB_RSET (n : Nat) : Nat := 0x400f0804 + 0x20 * n
abbrev CMB_RSET_VAL : Fld := ⟨0, 32⟩
/-- `CMB_RDBr` (R493). -/
abbrev CMB_RDB (n : Nat) : Nat := 0x400f0808 + 0x20 * n
abbrev CMB_RDB_VAL : Fld := ⟨0, 32⟩
/-- `CMB_RKUr` (R493). -/
abbrev CMB_RKU (n : Nat) : Nat := 0x400f080c + 0x20 * n
abbrev CMB_RKU_VAL : Fld := ⟨0, 32⟩
/-- `CMB_RKDr` (R493). -/
abbrev CMB_RKD (n : Nat) : Nat := 0x400f0810 + 0x20 * n
abbrev CMB_RKD_VAL : Fld := ⟨0, 32⟩
/-- `CMB_RLOr` (R493). -/
abbrev CMB_RLO (n : Nat) : Nat := 0x400f0814 + 0x20 * n
abbrev CMB_RLO_LO : Fld := ⟨0, 32⟩
/-- `CMB_RHIr` (R493). -/
abbrev CMB_RHI (n : Nat) : Nat := 0x400f0818 + 0x20 * n
abbrev CMB_RHI_HI : Fld := ⟨0, 32⟩
/-- `CMB_RACCr` (R493). -/
abbrev CMB_RACC (n : Nat) : Nat := 0x400f081c + 0x20 * n
abbrev CMB_RACC_ACC : Fld := ⟨0, 32⟩
/-- `CMB_DCFGd` (R493). -/
abbrev CMB_DCFG (n : Nat) : Nat := 0x400f0c00 + 0x20 * n
abbrev CMB_DCFG_EN : Fld := ⟨0, 1⟩
abbrev CMB_DCFG_PROF : Fld := ⟨4, 4⟩
abbrev CMB_DCFG_NCOV : Fld := ⟨8, 8⟩
abbrev CMB_DCFG_STEP : Fld := ⟨16, 10⟩
/-- `CMB_DMASKd` (R493). -/
abbrev CMB_DMASK (n : Nat) : Nat := 0x400f0c04 + 0x20 * n
abbrev CMB_DMASK_MASK : Fld := ⟨0, 12⟩
/-- `CMB_DCLOd` (R493). -/
abbrev CMB_DCLO (n : Nat) : Nat := 0x400f0c08 + 0x20 * n
abbrev CMB_DCLO_CLO : Fld := ⟨0, 32⟩
/-- `CMB_DCHId` (R493). -/
abbrev CMB_DCHI (n : Nat) : Nat := 0x400f0c0c + 0x20 * n
abbrev CMB_DCHI_CHI : Fld := ⟨0, 32⟩
/-- `CMB_DLIMd` (R493). -/
abbrev CMB_DLIM (n : Nat) : Nat := 0x400f0c10 + 0x20 * n
abbrev CMB_DLIM_DMIN : Fld := ⟨0, 10⟩
abbrev CMB_DLIM_DMAX : Fld := ⟨16, 10⟩
/-- `CMB_DAMPd` (R493). -/
abbrev CMB_DAMP (n : Nat) : Nat := 0x400f0c14 + 0x20 * n
abbrev CMB_DAMP_DAMP : Fld := ⟨0, 10⟩
/-- `CMB_DCOVd` (R493). -/
abbrev CMB_DCOV (n : Nat) : Nat := 0x400f0c18 + 0x20 * n
abbrev CMB_DCOV_COV : Fld := ⟨0, 32⟩
/-- `CMB_RECc` (R493). -/
abbrev CMB_REC (n i : Nat) : Nat := 0x400f1000 + 0x40 * n + 0x4 * i
abbrev CMB_REC_WORD : Fld := ⟨0, 32⟩
/-- `CMB_WRECc` (R493). -/
abbrev CMB_WREC (n i : Nat) : Nat := 0x400f1400 + 0x40 * n + 0x4 * i
abbrev CMB_WREC_WORD : Fld := ⟨0, 32⟩
/-- `CMB_VOLk` (R493). -/
abbrev CMB_VOL (n : Nat) : Nat := 0x400f4000 + 0x4 * n
abbrev CMB_VOL_V : Fld := ⟨0, 32⟩

/-! ### Block CHN, base 0x40100000 (R39) -/

/-- `CHN_CTRL` (R549). -/
abbrev CHN_CTRL : Nat := 0x40100000
abbrev CHN_CTRL_EN : Fld := ⟨0, 2⟩
abbrev CHN_CTRL_GEN : Fld := ⟨16, 8⟩
/-- `CHN_APPLIED` (R548). -/
abbrev CHN_APPLIED : Nat := 0x40100004
abbrev CHN_APPLIED_EN : Fld := ⟨0, 2⟩
abbrev CHN_APPLIED_GEN : Fld := ⟨16, 8⟩
/-- `CHN_EVT` (R549). -/
abbrev CHN_EVT : Nat := 0x40100008
abbrev CHN_EVT_ANY : Fld := ⟨0, 16⟩
abbrev CHN_EVT_UP0 : Nat := 0
abbrev CHN_EVT_UP1 : Nat := 1
abbrev CHN_EVT_DOWN0 : Nat := 2
abbrev CHN_EVT_DOWN1 : Nat := 3
abbrev CHN_EVT_ISOL : Nat := 4
abbrev CHN_EVT_JOIN : Nat := 5
abbrev CHN_EVT_JOINREF : Nat := 6
abbrev CHN_EVT_LEADER : Nat := 7
abbrev CHN_EVT_LCHG : Nat := 8
abbrev CHN_EVT_AGREE : Nat := 9
abbrev CHN_EVT_DISAGREE : Nat := 10
abbrev CHN_EVT_FAR : Nat := 11
abbrev CHN_EVT_TAGFAIL : Nat := 12
abbrev CHN_EVT_CRCERR : Nat := 13
abbrev CHN_EVT_DDROP : Nat := 14
abbrev CHN_EVT_APPLY : Nat := 15
/-- `CHN_WERR` (R548). -/
abbrev CHN_WERR : Nat := 0x4010000c
abbrev CHN_WERR_REG : Fld := ⟨0, 32⟩
/-- `CHN_WERRA` (R548). -/
abbrev CHN_WERRA : Nat := 0x40100010
abbrev CHN_WERRA_OFFSET : Fld := ⟨0, 16⟩
/-- `CHN_CFG` (R549). -/
abbrev CHN_CFG : Nat := 0x40100014
abbrev CHN_CFG_AUTH : Fld := ⟨0, 1⟩
abbrev CHN_CFG_UNIT : Fld := ⟨8, 18⟩
/-- `CHN_ECFG` (R549). -/
abbrev CHN_ECFG : Nat := 0x40100018
abbrev CHN_ECFG_CAND : Fld := ⟨0, 1⟩
abbrev CHN_ECFG_LPRIO : Fld := ⟨4, 4⟩
abbrev CHN_ECFG_MINGR : Fld := ⟨8, 3⟩
abbrev CHN_ECFG_HYST : Fld := ⟨16, 8⟩
/-- `CHN_ACFG` (R549). -/
abbrev CHN_ACFG : Nat := 0x4010001c
abbrev CHN_ACFG_MODE : Fld := ⟨0, 2⟩
abbrev CHN_ACFG_STEP : Fld := ⟨8, 8⟩
abbrev CHN_ACFG_NMIS : Fld := ⟨16, 4⟩
/-- `CHN_ATOL` (R549). -/
abbrev CHN_ATOL : Nat := 0x40100020
abbrev CHN_ATOL_ATOL : Fld := ⟨0, 16⟩
abbrev CHN_ATOL_CAPT : Fld := ⟨16, 16⟩
/-- `CHN_ASTAT` (R549). -/
abbrev CHN_ASTAT : Nat := 0x40100024
abbrev CHN_ASTAT_LDR : Fld := ⟨0, 18⟩
abbrev CHN_ASTAT_LEADER : Fld := ⟨20, 1⟩
abbrev CHN_ASTAT_REF : Fld := ⟨21, 1⟩
abbrev CHN_ASTAT_FAR : Fld := ⟨22, 1⟩
abbrev CHN_ASTAT_AGREE : Fld := ⟨23, 1⟩
abbrev CHN_ASTAT_LGEN : Fld := ⟨24, 8⟩
/-- `CHN_ADIFF` (R549). -/
abbrev CHN_ADIFF : Nat := 0x40100028
abbrev CHN_ADIFF_E : Fld := ⟨0, 32⟩
/-- `CHN_ACORR` (R549). -/
abbrev CHN_ACORR : Nat := 0x4010002c
abbrev CHN_ACORR_C : Fld := ⟨0, 32⟩
/-- `CHN_CMD` (R549). -/
abbrev CHN_CMD : Nat := 0x40100030
abbrev CHN_CMD_CLRFAR : Fld := ⟨0, 1⟩
/-- `CHN_PSTAT` (R549). -/
abbrev CHN_PSTAT : Nat := 0x40100034
abbrev CHN_PSTAT_UP : Fld := ⟨0, 2⟩
abbrev CHN_PSTAT_AUTH : Fld := ⟨2, 2⟩
abbrev CHN_PSTAT_MEMBERS : Fld := ⟨8, 6⟩
/-- `CHN_LDLYn` (R549). -/
abbrev CHN_LDLY (n : Nat) : Nat := 0x40100038 + 0x4 * n
abbrev CHN_LDLY_DLY : Fld := ⟨0, 32⟩
/-- `CHN_RDLY` (R549). -/
abbrev CHN_RDLY : Nat := 0x40100040
abbrev CHN_RDLY_DLY : Fld := ⟨0, 32⟩
/-- `CHN_CNT0` (R549). -/
abbrev CHN_CNT0 : Nat := 0x40100044
abbrev CHN_CNT0_CRC : Fld := ⟨0, 16⟩
abbrev CHN_CNT0_TAG : Fld := ⟨16, 16⟩
/-- `CHN_CNT1` (R549). -/
abbrev CHN_CNT1 : Nat := 0x40100048
abbrev CHN_CNT1_DDROP : Fld := ⟨0, 16⟩
abbrev CHN_CNT1_JOINREF : Fld := ⟨16, 8⟩
/-- `CHN_DCFGd` (R549). -/
abbrev CHN_DCFG (n : Nat) : Nat := 0x40100100 + 0x8 * n
abbrev CHN_DCFG_EN : Fld := ⟨0, 1⟩
abbrev CHN_DCFG_TXQ : Fld := ⟨8, 5⟩
abbrev CHN_DCFG_ACCT : Fld := ⟨16, 6⟩
abbrev CHN_DCFG_QUOTA : Fld := ⟨24, 8⟩
/-- `CHN_DDSTd` (R549). -/
abbrev CHN_DDST (n : Nat) : Nat := 0x40100104 + 0x8 * n
abbrev CHN_DDST_DST : Fld := ⟨0, 18⟩
abbrev CHN_DDST_RQ : Fld := ⟨18, 5⟩
abbrev CHN_DDST_ALL : Fld := ⟨23, 1⟩
/-- `CHN_RXQ` (R549). -/
abbrev CHN_RXQ : Nat := 0x40100200
abbrev CHN_RXQ_MASK : Fld := ⟨0, 32⟩

/-! ### Block ETH, base 0x40110000 (R39) -/

/-- `ETH_CTRL` (R548). -/
abbrev ETH_CTRL : Nat := 0x40110000
abbrev ETH_CTRL_EN : Fld := ⟨0, 1⟩
abbrev ETH_CTRL_GEN : Fld := ⟨16, 8⟩
/-- `ETH_APPLIED` (R548). -/
abbrev ETH_APPLIED : Nat := 0x40110004
abbrev ETH_APPLIED_EN : Fld := ⟨0, 1⟩
abbrev ETH_APPLIED_GEN : Fld := ⟨16, 8⟩
/-- `ETH_EVT` (R549). -/
abbrev ETH_EVT : Nat := 0x40110008
abbrev ETH_EVT_ANY : Fld := ⟨0, 11⟩
abbrev ETH_EVT_RXF : Nat := 0
abbrev ETH_EVT_TXC : Nat := 1
abbrev ETH_EVT_FCS : Nat := 2
abbrev ETH_EVT_RATE : Nat := 3
abbrev ETH_EVT_STALE : Nat := 4
abbrev ETH_EVT_LINK : Nat := 5
abbrev ETH_EVT_NOBUF : Nat := 6
abbrev ETH_EVT_TXBAD : Nat := 7
abbrev ETH_EVT_PCAP : Nat := 8
abbrev ETH_EVT_FILT : Nat := 9
abbrev ETH_EVT_APPLY : Nat := 10
/-- `ETH_WERR` (R548). -/
abbrev ETH_WERR : Nat := 0x4011000c
abbrev ETH_WERR_REG : Fld := ⟨0, 32⟩
/-- `ETH_WERRA` (R548). -/
abbrev ETH_WERRA : Nat := 0x40110010
abbrev ETH_WERRA_OFFSET : Fld := ⟨0, 16⟩
/-- `ETH_STAT` (R549). -/
abbrev ETH_STAT : Nat := 0x40110014
abbrev ETH_STAT_LINK : Fld := ⟨0, 1⟩
abbrev ETH_STAT_SPEED : Fld := ⟨1, 2⟩
/-- `ETH_MACL` (R549). -/
abbrev ETH_MACL : Nat := 0x40110018
abbrev ETH_MACL_ADDR : Fld := ⟨0, 32⟩
/-- `ETH_MACH` (R549). -/
abbrev ETH_MACH : Nat := 0x4011001c
abbrev ETH_MACH_ADDR : Fld := ⟨0, 16⟩
abbrev ETH_MACH_BCAST : Fld := ⟨16, 1⟩
abbrev ETH_MACH_UNTAG : Fld := ⟨17, 1⟩
abbrev ETH_MACH_PAUSE : Fld := ⟨18, 1⟩
/-- `ETH_QCFG` (R549). -/
abbrev ETH_QCFG : Nat := 0x40110020
abbrev ETH_QCFG_FBQ : Fld := ⟨0, 5⟩
abbrev ETH_QCFG_RXQ : Fld := ⟨8, 5⟩
abbrev ETH_QCFG_TXQ : Fld := ⟨16, 5⟩
abbrev ETH_QCFG_TCQ : Fld := ⟨24, 5⟩
/-- `ETH_RXLIM` (R549). -/
abbrev ETH_RXLIM : Nat := 0x40110024
abbrev ETH_RXLIM_LIM : Fld := ⟨0, 16⟩
abbrev ETH_RXLIM_TOUT : Fld := ⟨16, 16⟩
/-- `ETH_CNT` (R548). -/
abbrev ETH_CNT : Nat := 0x40110028
abbrev ETH_CNT_RXDROP : Fld := ⟨0, 16⟩
abbrev ETH_CNT_FCS : Fld := ⟨16, 16⟩
/-- `ETH_PSECL` (R549). -/
abbrev ETH_PSECL : Nat := 0x40110100
abbrev ETH_PSECL_TIME : Fld := ⟨0, 32⟩
/-- `ETH_PSECH` (R549). -/
abbrev ETH_PSECH : Nat := 0x40110104
abbrev ETH_PSECH_TIME : Fld := ⟨0, 16⟩
/-- `ETH_PNS` (R549). -/
abbrev ETH_PNS : Nat := 0x40110108
abbrev ETH_PNS_TIME : Fld := ⟨0, 30⟩
/-- `ETH_PADD` (R549). -/
abbrev ETH_PADD : Nat := 0x4011010c
abbrev ETH_PADD_ADD : Fld := ⟨0, 32⟩
/-- `ETH_PSTPS` (R549). -/
abbrev ETH_PSTPS : Nat := 0x40110110
abbrev ETH_PSTPS_OFS : Fld := ⟨0, 32⟩
/-- `ETH_PSTPN` (R549). -/
abbrev ETH_PSTPN : Nat := 0x40110114
abbrev ETH_PSTPN_OFS : Fld := ⟨0, 32⟩
/-- `ETH_PCMD` (R549). -/
abbrev ETH_PCMD : Nat := 0x40110118
abbrev ETH_PCMD_STEP : Fld := ⟨0, 1⟩
/-- `ETH_PLAT` (R549). -/
abbrev ETH_PLAT : Nat := 0x4011011c
abbrev ETH_PLAT_TXLAT : Fld := ⟨0, 16⟩
abbrev ETH_PLAT_RXLAT : Fld := ⟨16, 16⟩
/-- `ETH_PCFG` (R549). -/
abbrev ETH_PCFG : Nat := 0x40110120
abbrev ETH_PCFG_CTRIG : Fld := ⟨0, 6⟩
/-- `ETH_PCAPL` (R548). -/
abbrev ETH_PCAPL : Nat := 0x40110124
abbrev ETH_PCAPL_TIME : Fld := ⟨0, 32⟩
/-- `ETH_PCAPH` (R548). -/
abbrev ETH_PCAPH : Nat := 0x40110128
abbrev ETH_PCAPH_TIME : Fld := ⟨0, 16⟩
/-- `ETH_PCAPN` (R548). -/
abbrev ETH_PCAPN : Nat := 0x4011012c
abbrev ETH_PCAPN_TIME : Fld := ⟨0, 30⟩
/-- `ETH_MCLm` (R549). -/
abbrev ETH_MCL (n : Nat) : Nat := 0x40110200 + 0x8 * n
abbrev ETH_MCL_ADDR : Fld := ⟨0, 32⟩
/-- `ETH_MCHm` (R549). -/
abbrev ETH_MCH (n : Nat) : Nat := 0x40110204 + 0x8 * n
abbrev ETH_MCH_ADDR : Fld := ⟨0, 16⟩
abbrev ETH_MCH_EN : Fld := ⟨16, 1⟩
/-- `ETH_VLANv` (R549). -/
abbrev ETH_VLAN (n : Nat) : Nat := 0x40110280 + 0x4 * n
abbrev ETH_VLAN_VID0 : Fld := ⟨0, 12⟩
abbrev ETH_VLAN_EN0 : Fld := ⟨15, 1⟩
abbrev ETH_VLAN_VID1 : Fld := ⟨16, 12⟩
abbrev ETH_VLAN_EN1 : Fld := ⟨31, 1⟩

/-! ### Block CAN, base 0x40120000 (R39) -/

/-- `CAN_CTRL` (R548). -/
abbrev CAN_CTRL : Nat := 0x40120000
abbrev CAN_CTRL_EN : Fld := ⟨0, 2⟩
abbrev CAN_CTRL_GEN : Fld := ⟨16, 8⟩
/-- `CAN_APPLIED` (R548). -/
abbrev CAN_APPLIED : Nat := 0x40120004
abbrev CAN_APPLIED_EN : Fld := ⟨0, 2⟩
abbrev CAN_APPLIED_GEN : Fld := ⟨16, 8⟩
/-- `CAN_EVT` (R549). -/
abbrev CAN_EVT : Nat := 0x40120008
abbrev CAN_EVT_ANY : Fld := ⟨0, 16⟩
abbrev CAN_EVT_RXF (n : Nat) : Nat := 8 * n + 0
abbrev CAN_EVT_TXC (n : Nat) : Nat := 8 * n + 1
abbrev CAN_EVT_TXBAD (n : Nat) : Nat := 8 * n + 2
abbrev CAN_EVT_RATE (n : Nat) : Nat := 8 * n + 3
abbrev CAN_EVT_STALE (n : Nat) : Nat := 8 * n + 4
abbrev CAN_EVT_EPASS (n : Nat) : Nat := 8 * n + 5
abbrev CAN_EVT_BOFF (n : Nat) : Nat := 8 * n + 6
abbrev CAN_EVT_APPLY (n : Nat) : Nat := 8 * n + 7
/-- `CAN_WERR` (R548). -/
abbrev CAN_WERR : Nat := 0x4012000c
abbrev CAN_WERR_REG : Fld := ⟨0, 32⟩
/-- `CAN_WERRA` (R548). -/
abbrev CAN_WERRA : Nat := 0x40120010
abbrev CAN_WERRA_OFFSET : Fld := ⟨0, 16⟩
/-- `CAN_NBTk` (R549). -/
abbrev CAN_NBT (n : Nat) : Nat := 0x40120014 + 0x20 * n
abbrev CAN_NBT_BRPM1 : Fld := ⟨0, 5⟩
abbrev CAN_NBT_TSEG1 : Fld := ⟨5, 8⟩
abbrev CAN_NBT_TSEG2 : Fld := ⟨13, 7⟩
abbrev CAN_NBT_SJW : Fld := ⟨20, 7⟩
/-- `CAN_DBTk` (R549). -/
abbrev CAN_DBT (n : Nat) : Nat := 0x40120018 + 0x20 * n
abbrev CAN_DBT_BRP : Fld := ⟨0, 4⟩
abbrev CAN_DBT_TSEG1 : Fld := ⟨4, 6⟩
abbrev CAN_DBT_TSEG2 : Fld := ⟨10, 5⟩
abbrev CAN_DBT_SJW : Fld := ⟨15, 5⟩
abbrev CAN_DBT_TDCO : Fld := ⟨20, 8⟩
/-- `CAN_CFGk` (R549). -/
abbrev CAN_CFG (n : Nat) : Nat := 0x4012001c + 0x20 * n
abbrev CAN_CFG_FDEN : Fld := ⟨0, 1⟩
abbrev CAN_CFG_LOM : Fld := ⟨1, 1⟩
abbrev CAN_CFG_AUTOREC : Fld := ⟨2, 1⟩
abbrev CAN_CFG_RES : Fld := ⟨4, 4⟩
abbrev CAN_CFG_TXQ : Fld := ⟨8, 5⟩
abbrev CAN_CFG_RXLIM : Fld := ⟨16, 16⟩
/-- `CAN_STATk` (R549). -/
abbrev CAN_STAT (n : Nat) : Nat := 0x40120020 + 0x20 * n
abbrev CAN_STAT_STATE : Fld := ⟨0, 2⟩
abbrev CAN_STAT_TEC : Fld := ⟨8, 8⟩
abbrev CAN_STAT_REC : Fld := ⟨16, 8⟩
/-- `CAN_CMDk` (R549). -/
abbrev CAN_CMD (n : Nat) : Nat := 0x40120024 + 0x20 * n
abbrev CAN_CMD_REC : Fld := ⟨0, 1⟩
/-- `CAN_CNTk` (R549). -/
abbrev CAN_CNT (n : Nat) : Nat := 0x40120028 + 0x20 * n
abbrev CAN_CNT_DROP : Fld := ⟨0, 16⟩
abbrev CAN_CNT_TXBAD : Fld := ⟨16, 16⟩
/-- `CAN_FIDk_j` (R549). -/
abbrev CAN_FID (n i : Nat) : Nat := 0x40120400 + 0x200 * n + 0x10 * i
abbrev CAN_FID_ID : Fld := ⟨0, 29⟩
/-- `CAN_FMSKk_j` (R549). -/
abbrev CAN_FMSK (n i : Nat) : Nat := 0x40120404 + 0x200 * n + 0x10 * i
abbrev CAN_FMSK_MASK : Fld := ⟨0, 29⟩
/-- `CAN_FCFGk_j` (R549). -/
abbrev CAN_FCFG (n i : Nat) : Nat := 0x40120408 + 0x200 * n + 0x10 * i
abbrev CAN_FCFG_EN : Fld := ⟨0, 1⟩
abbrev CAN_FCFG_IDE : Fld := ⟨1, 1⟩
abbrev CAN_FCFG_QUE : Fld := ⟨8, 5⟩
abbrev CAN_FCFG_TOUT : Fld := ⟨16, 16⟩

/-! ### Block SPI, base 0x40130000 (R39) -/

/-- `SPI_CTRL` (R548). -/
abbrev SPI_CTRL : Nat := 0x40130000
abbrev SPI_CTRL_EN : Fld := ⟨0, 1⟩
abbrev SPI_CTRL_GEN : Fld := ⟨16, 8⟩
/-- `SPI_APPLIED` (R548). -/
abbrev SPI_APPLIED : Nat := 0x40130004
abbrev SPI_APPLIED_EN : Fld := ⟨0, 1⟩
abbrev SPI_APPLIED_GEN : Fld := ⟨16, 8⟩
/-- `SPI_EVT` (R549). -/
abbrev SPI_EVT : Nat := 0x40130008
abbrev SPI_EVT_ANY : Fld := ⟨0, 6⟩
abbrev SPI_EVT_DONE : Nat := 0
abbrev SPI_EVT_CRC : Nat := 1
abbrev SPI_EVT_ACCESS : Nat := 2
abbrev SPI_EVT_TOUT : Nat := 3
abbrev SPI_EVT_FRAME : Nat := 4
abbrev SPI_EVT_APPLY : Nat := 5
/-- `SPI_WERR` (R548). -/
abbrev SPI_WERR : Nat := 0x4013000c
abbrev SPI_WERR_REG : Fld := ⟨0, 32⟩
/-- `SPI_WERRA` (R548). -/
abbrev SPI_WERRA : Nat := 0x40130010
abbrev SPI_WERRA_OFFSET : Fld := ⟨0, 16⟩
/-- `SPI_STAT` (R549). -/
abbrev SPI_STAT : Nat := 0x40130014
abbrev SPI_STAT_STATUS : Fld := ⟨0, 32⟩
/-- `SPI_QEN` (R549). -/
abbrev SPI_QEN : Nat := 0x40130018
abbrev SPI_QEN_MASK : Fld := ⟨0, 32⟩
/-- `SPI_TOUT` (R549). -/
abbrev SPI_TOUT : Nat := 0x4013001c
abbrev SPI_TOUT_TOUT : Fld := ⟨0, 8⟩
/-- `SPI_CNT` (R549). -/
abbrev SPI_CNT : Nat := 0x40130020
abbrev SPI_CNT_OK : Fld := ⟨0, 16⟩
abbrev SPI_CNT_REFUSED : Fld := ⟨16, 16⟩
/-- `SPI_CFG` (R549). -/
abbrev SPI_CFG : Nat := 0x40130024
abbrev SPI_CFG_MODE : Fld := ⟨0, 1⟩
/-- `SPI_WINw` (R549). -/
abbrev SPI_WIN (n : Nat) : Nat := 0x40130100 + 0x4 * n
abbrev SPI_WIN_LOG2 : Fld := ⟨0, 5⟩
abbrev SPI_WIN_RD : Fld := ⟨5, 1⟩
abbrev SPI_WIN_WR : Fld := ⟨6, 1⟩
abbrev SPI_WIN_BASE : Fld := ⟨10, 22⟩

/-! ### Block LKT, base 0x40140000 (R39) -/

/-- `LKT_CFG` (R605). -/
abbrev LKT_CFG : Nat := 0x40140000
abbrev LKT_CFG_PINU : Fld := ⟨0, 1⟩
abbrev LKT_CFG_PTIME : Fld := ⟨8, 8⟩
/-- `LKT_STAT` (R605). -/
abbrev LKT_STAT : Nat := 0x40140004
abbrev LKT_STAT_SCAN : Fld := ⟨0, 1⟩
abbrev LKT_STAT_CLOSED : Fld := ⟨1, 1⟩
abbrev LKT_STAT_CLRBUSY : Fld := ⟨2, 1⟩
abbrev LKT_STAT_SIGN : Fld := ⟨3, 1⟩
abbrev LKT_STAT_PFULL : Fld := ⟨4, 1⟩
abbrev LKT_STAT_VBUSY : Fld := ⟨5, 1⟩
abbrev LKT_STAT_QCNT : Fld := ⟨8, 9⟩
/-- `LKT_EVT` (R605). -/
abbrev LKT_EVT : Nat := 0x40140008
abbrev LKT_EVT_ANY : Fld := ⟨0, 10⟩
abbrev LKT_EVT_LOST : Nat := 0
abbrev LKT_EVT_TORN : Nat := 1
abbrev LKT_EVT_PFULL : Nat := 2
abbrev LKT_EVT_SEALED : Nat := 3
abbrev LKT_EVT_CLRDONE : Nat := 4
abbrev LKT_EVT_AREF : Nat := 5
abbrev LKT_EVT_AOK : Nat := 6
abbrev LKT_EVT_VDONE : Nat := 7
abbrev LKT_EVT_TSET : Nat := 8
abbrev LKT_EVT_TLOSS : Nat := 9
/-- `LKT_WERR` (R605). -/
abbrev LKT_WERR : Nat := 0x4014000c
abbrev LKT_WERR_ANY : Fld := ⟨0, 6⟩
abbrev LKT_WERR_CFG : Nat := 0
abbrev LKT_WERR_CMD : Nat := 1
abbrev LKT_WERR_USER : Nat := 2
abbrev LKT_WERR_VFY : Nat := 3
abbrev LKT_WERR_AREQ : Nat := 4
abbrev LKT_WERR_TIME : Nat := 5
/-- `LKT_WERRA` (R605). -/
abbrev LKT_WERRA : Nat := 0x40140010
abbrev LKT_WERRA_OFFSET : Fld := ⟨0, 16⟩
/-- `LKT_HEADL` (R605). -/
abbrev LKT_HEADL : Nat := 0x40140014
abbrev LKT_HEADL_SEQ : Fld := ⟨0, 32⟩
/-- `LKT_HEADH` (R605). -/
abbrev LKT_HEADH : Nat := 0x40140018
abbrev LKT_HEADH_SEQ : Fld := ⟨0, 16⟩
abbrev LKT_HEADH_SLOT : Fld := ⟨16, 15⟩
/-- `LKT_OLDL` (R605). -/
abbrev LKT_OLDL : Nat := 0x4014001c
abbrev LKT_OLDL_SEQ : Fld := ⟨0, 32⟩
/-- `LKT_OLDH` (R605). -/
abbrev LKT_OLDH : Nat := 0x40140020
abbrev LKT_OLDH_SEQ : Fld := ⟨0, 16⟩
abbrev LKT_OLDH_SLOT : Fld := ⟨16, 15⟩
/-- `LKT_PHEAD` (R605). -/
abbrev LKT_PHEAD : Nat := 0x40140024
abbrev LKT_PHEAD_SLOT : Fld := ⟨0, 12⟩
/-- `LKT_CNT` (R605). -/
abbrev LKT_CNT : Nat := 0x40140028
abbrev LKT_CNT_DROP : Fld := ⟨0, 16⟩
abbrev LKT_CNT_TORN : Fld := ⟨16, 8⟩
abbrev LKT_CNT_PDROP : Fld := ⟨24, 8⟩
/-- `LKT_CMD` (R605). -/
abbrev LKT_CMD : Nat := 0x4014002c
abbrev LKT_CMD_SEAL : Fld := ⟨0, 1⟩
abbrev LKT_CMD_PSEAL : Fld := ⟨1, 1⟩
/-- `LKT_UCMD` (R605). -/
abbrev LKT_UCMD : Nat := 0x40140030
abbrev LKT_UCMD_PUT : Fld := ⟨0, 1⟩
abbrev LKT_UCMD_PIN : Fld := ⟨1, 1⟩
/-- `LKT_URES` (R605). -/
abbrev LKT_URES : Nat := 0x40140034
abbrev LKT_URES_RESULT : Fld := ⟨0, 2⟩
/-- `LKT_UPUTi` (R605). -/
abbrev LKT_UPUT (n : Nat) : Nat := 0x40140040 + 0x4 * n
abbrev LKT_UPUT_DATA : Fld := ⟨0, 32⟩
/-- `LKT_VCMD` (R605). -/
abbrev LKT_VCMD : Nat := 0x40140060
abbrev LKT_VCMD_SLOT : Fld := ⟨0, 15⟩
abbrev LKT_VCMD_AREA : Fld := ⟨15, 1⟩
abbrev LKT_VCMD_GO : Fld := ⟨31, 1⟩
/-- `LKT_VSTAT` (R605). -/
abbrev LKT_VSTAT : Nat := 0x40140064
abbrev LKT_VSTAT_RESULT : Fld := ⟨0, 2⟩
abbrev LKT_VSTAT_CHAIN : Fld := ⟨2, 1⟩
/-- `LKT_AREQi` (R605). -/
abbrev LKT_AREQ (n : Nat) : Nat := 0x40140080 + 0x4 * n
abbrev LKT_AREQ_WORD : Fld := ⟨0, 32⟩
/-- `LKT_ACMD` (R605). -/
abbrev LKT_ACMD : Nat := 0x401400e0
abbrev LKT_ACMD_GO : Fld := ⟨0, 1⟩
/-- `LKT_ARES` (R605). -/
abbrev LKT_ARES : Nat := 0x401400e4
abbrev LKT_ARES_RESULT : Fld := ⟨0, 4⟩
/-- `LKT_TSECL` (R605). -/
abbrev LKT_TSECL : Nat := 0x40140100
abbrev LKT_TSECL_SEC : Fld := ⟨0, 32⟩
/-- `LKT_TSECH` (R605). -/
abbrev LKT_TSECH : Nat := 0x40140104
abbrev LKT_TSECH_SEC : Fld := ⟨0, 16⟩
abbrev LKT_TSECH_TSRC : Fld := ⟨16, 2⟩
abbrev LKT_TSECH_XTAL : Fld := ⟨18, 1⟩
/-- `LKT_TNS` (R605). -/
abbrev LKT_TNS : Nat := 0x40140108
abbrev LKT_TNS_NS : Fld := ⟨0, 30⟩
/-- `LKT_TADJ` (R605). -/
abbrev LKT_TADJ : Nat := 0x4014010c
abbrev LKT_TADJ_ADJ : Fld := ⟨0, 32⟩
/-- `LKT_TSTEPS` (R605). -/
abbrev LKT_TSTEPS : Nat := 0x40140110
abbrev LKT_TSTEPS_OFS : Fld := ⟨0, 32⟩
/-- `LKT_TSTEPN` (R605). -/
abbrev LKT_TSTEPN : Nat := 0x40140114
abbrev LKT_TSTEPN_OFS : Fld := ⟨0, 32⟩
/-- `LKT_TCMD` (R605). -/
abbrev LKT_TCMD : Nat := 0x40140118
abbrev LKT_TCMD_STEP : Fld := ⟨0, 1⟩
/-- `LKT_TCFG` (R605). -/
abbrev LKT_TCFG : Nat := 0x4014011c
abbrev LKT_TCFG_HOLD : Fld := ⟨0, 8⟩

/-! ### Block HMK, base 0x40150000 (R39) -/

/-- `HMK_STAT` (R606). -/
abbrev HMK_STAT : Nat := 0x40150000
abbrev HMK_STAT_ENR : Fld := ⟨0, 1⟩
abbrev HMK_STAT_NENR : Fld := ⟨1, 3⟩
abbrev HMK_STAT_BUSY : Fld := ⟨4, 1⟩
abbrev HMK_STAT_RNGERR : Fld := ⟨5, 1⟩
/-- `HMK_EVT` (R606). -/
abbrev HMK_EVT : Nat := 0x40150004
abbrev HMK_EVT_ANY : Fld := ⟨0, 5⟩
abbrev HMK_EVT_ENROK : Nat := 0
abbrev HMK_EVT_ENRREF : Nat := 1
abbrev HMK_EVT_RBRAISE : Nat := 2
abbrev HMK_EVT_VERIFY : Nat := 3
abbrev HMK_EVT_RNGERR : Nat := 4
/-- `HMK_WERR` (R606). -/
abbrev HMK_WERR : Nat := 0x40150008
abbrev HMK_WERR_ANY : Fld := ⟨0, 3⟩
abbrev HMK_WERR_RBCMD : Nat := 0
abbrev HMK_WERR_ECMD : Nat := 1
abbrev HMK_WERR_EBUF : Nat := 2
/-- `HMK_WERRA` (R606). -/
abbrev HMK_WERRA : Nat := 0x4015000c
abbrev HMK_WERRA_OFFSET : Fld := ⟨0, 16⟩
/-- `HMK_UNIT` (R606). -/
abbrev HMK_UNIT : Nat := 0x40150010
abbrev HMK_UNIT_UNIT : Fld := ⟨0, 18⟩
/-- `HMK_RBMIN` (R606). -/
abbrev HMK_RBMIN : Nat := 0x40150014
abbrev HMK_RBMIN_CODE : Fld := ⟨0, 8⟩
abbrev HMK_RBMIN_CAL : Fld := ⟨8, 8⟩
/-- `HMK_RBCMD` (R606). -/
abbrev HMK_RBCMD : Nat := 0x40150018
abbrev HMK_RBCMD_VALUE : Fld := ⟨0, 8⟩
abbrev HMK_RBCMD_KIND : Fld := ⟨8, 1⟩
/-- `HMK_ECMD` (R606). -/
abbrev HMK_ECMD : Nat := 0x4015001c
abbrev HMK_ECMD_GO : Fld := ⟨0, 1⟩
/-- `HMK_ERES` (R606). -/
abbrev HMK_ERES : Nat := 0x40150020
abbrev HMK_ERES_RESULT : Fld := ⟨0, 4⟩
/-- `HMK_DCLEN` (R606). -/
abbrev HMK_DCLEN : Nat := 0x40150024
abbrev HMK_DCLEN_LEN : Fld := ⟨0, 11⟩
/-- `HMK_OCLEN` (R606). -/
abbrev HMK_OCLEN : Nat := 0x40150028
abbrev HMK_OCLEN_LEN : Fld := ⟨0, 11⟩
/-- `HMK_CHALi` (R606). -/
abbrev HMK_CHAL (n : Nat) : Nat := 0x40150030 + 0x4 * n
abbrev HMK_CHAL_NONCE : Fld := ⟨0, 32⟩
/-- `HMK_PUBi` (R606). -/
abbrev HMK_PUB (n : Nat) : Nat := 0x40150040 + 0x4 * n
abbrev HMK_PUB_KEY : Fld := ⟨0, 32⟩
/-- `HMK_DCERT` (R606). -/
abbrev HMK_DCERT (n : Nat) : Nat := 0x40151000 + 0x4 * n
abbrev HMK_DCERT_WORD : Fld := ⟨0, 32⟩
/-- `HMK_OCERT` (R606). -/
abbrev HMK_OCERT (n : Nat) : Nat := 0x40151400 + 0x4 * n
abbrev HMK_OCERT_WORD : Fld := ⟨0, 32⟩
/-- `HMK_EBUF` (R606). -/
abbrev HMK_EBUF (n : Nat) : Nat := 0x40152000 + 0x4 * n
abbrev HMK_EBUF_WORD : Fld := ⟨0, 32⟩

/-! ### Block QUE, base 0x40160000 (R39) -/

/-- `QUE_EVT` (R314). -/
abbrev QUE_EVT : Nat := 0x40160000
abbrev QUE_EVT_ANY : Fld := ⟨0, 8⟩
abbrev QUE_EVT_QFULL : Nat := 0
abbrev QUE_EVT_ECCC : Nat := 1
abbrev QUE_EVT_ECCU : Nat := 2
abbrev QUE_EVT_MDONE : Nat := 3
abbrev QUE_EVT_MERR : Nat := 4
abbrev QUE_EVT_DDONE : Nat := 5
abbrev QUE_EVT_DERR : Nat := 6
abbrev QUE_EVT_TOVR : Nat := 7
/-- `QUE_WERR` (R314). -/
abbrev QUE_WERR : Nat := 0x40160004
abbrev QUE_WERR_ANY : Fld := ⟨0, 6⟩
abbrev QUE_WERR_MEM : Nat := 0
abbrev QUE_WERR_QUEUE : Nat := 1
abbrev QUE_WERR_PORT : Nat := 2
abbrev QUE_WERR_DMA : Nat := 3
abbrev QUE_WERR_REGION : Nat := 4
abbrev QUE_WERR_CLR : Nat := 5
/-- `QUE_WERRA` (R314). -/
abbrev QUE_WERRA : Nat := 0x40160008
abbrev QUE_WERRA_OFFSET : Fld := ⟨0, 16⟩
/-- `QUE_SECC` (R314). -/
abbrev QUE_SECC : Nat := 0x4016000c
abbrev QUE_SECC_CORR : Fld := ⟨0, 16⟩
abbrev QUE_SECC_UNC : Fld := ⟨16, 16⟩
/-- `QUE_MECC` (R314). -/
abbrev QUE_MECC : Nat := 0x40160010
abbrev QUE_MECC_CORR : Fld := ⟨0, 16⟩
abbrev QUE_MECC_UNC : Fld := ⟨16, 16⟩
/-- `QUE_SCRUB` (R314). -/
abbrev QUE_SCRUB : Nat := 0x40160014
abbrev QUE_SCRUB_SPASS : Fld := ⟨0, 16⟩
abbrev QUE_SCRUB_MPASS : Fld := ⟨16, 16⟩
/-- `QUE_MCMD` (R314). -/
abbrev QUE_MCMD : Nat := 0x40160018
abbrev QUE_MCMD_OP : Fld := ⟨0, 2⟩
/-- `QUE_MSRC` (R314). -/
abbrev QUE_MSRC : Nat := 0x4016001c
abbrev QUE_MSRC_ADDR : Fld := ⟨5, 27⟩
/-- `QUE_MDST` (R314). -/
abbrev QUE_MDST : Nat := 0x40160020
abbrev QUE_MDST_ADDR : Fld := ⟨5, 27⟩
/-- `QUE_MSTAT` (R314). -/
abbrev QUE_MSTAT : Nat := 0x40160024
abbrev QUE_MSTAT_BUSY : Fld := ⟨0, 1⟩
abbrev QUE_MSTAT_RESULT : Fld := ⟨1, 3⟩
/-- `QUE_MPROT` (R314). -/
abbrev QUE_MPROT : Nat := 0x40160028
abbrev QUE_MPROT_ANY : Fld := ⟨0, 5⟩
abbrev QUE_MPROT_A : Nat := 0
abbrev QUE_MPROT_B : Nat := 1
abbrev QUE_MPROT_C0 : Nat := 2
abbrev QUE_MPROT_C1 : Nat := 3
abbrev QUE_MPROT_BC : Nat := 4
/-- `QUE_CLR` (R314). -/
abbrev QUE_CLR : Nat := 0x4016002c
abbrev QUE_CLR_ECC : Fld := ⟨0, 1⟩
/-- `QUE_QCFGn` (R314). -/
abbrev QUE_QCFG (n : Nat) : Nat := 0x40160100 + 0x20 * n
abbrev QUE_QCFG_EN : Fld := ⟨0, 1⟩
abbrev QUE_QCFG_LOG2 : Fld := ⟨8, 5⟩
/-- `QUE_QBASEn` (R314). -/
abbrev QUE_QBASE (n : Nat) : Nat := 0x40160104 + 0x20 * n
abbrev QUE_QBASE_BASE : Fld := ⟨4, 28⟩
/-- `QUE_QHEADn` (R314). -/
abbrev QUE_QHEAD (n : Nat) : Nat := 0x40160108 + 0x20 * n
abbrev QUE_QHEAD_INDEX : Fld := ⟨0, 16⟩
/-- `QUE_QTAILn` (R314). -/
abbrev QUE_QTAIL (n : Nat) : Nat := 0x4016010c + 0x20 * n
abbrev QUE_QTAIL_INDEX : Fld := ⟨0, 16⟩
/-- `QUE_QCNTn` (R314). -/
abbrev QUE_QCNT (n : Nat) : Nat := 0x40160110 + 0x20 * n
abbrev QUE_QCNT_COUNT : Fld := ⟨0, 17⟩
/-- `QUE_QPOPn` (R314). -/
abbrev QUE_QPOP (n : Nat) : Nat := 0x40160114 + 0x20 * n
abbrev QUE_QPOP_K : Fld := ⟨0, 17⟩
/-- `QUE_QDROPn` (R314). -/
abbrev QUE_QDROP (n : Nat) : Nat := 0x40160118 + 0x20 * n
abbrev QUE_QDROP_DROP : Fld := ⟨0, 16⟩
/-- `QUE_PPtQ` (R314). -/
abbrev QUE_PPQ (n : Nat) : Nat := 0x40160800 + 0x20 * n
abbrev QUE_PPQ_Q : Fld := ⟨0, 5⟩
/-- `QUE_PPtD0` (R314). -/
abbrev QUE_PPD0 (n : Nat) : Nat := 0x40160804 + 0x20 * n
abbrev QUE_PPD0_WORD : Fld := ⟨0, 32⟩
/-- `QUE_PPtD1` (R314). -/
abbrev QUE_PPD1 (n : Nat) : Nat := 0x40160808 + 0x20 * n
abbrev QUE_PPD1_WORD : Fld := ⟨0, 32⟩
/-- `QUE_PPtD2` (R314). -/
abbrev QUE_PPD2 (n : Nat) : Nat := 0x4016080c + 0x20 * n
abbrev QUE_PPD2_WORD : Fld := ⟨0, 32⟩
/-- `QUE_PPtD3` (R314). -/
abbrev QUE_PPD3 (n : Nat) : Nat := 0x40160810 + 0x20 * n
abbrev QUE_PPD3_WORD : Fld := ⟨0, 32⟩
/-- `QUE_PPtRES` (R314). -/
abbrev QUE_PPRES (n : Nat) : Nat := 0x40160814 + 0x20 * n
abbrev QUE_PPRES_RESULT : Fld := ⟨0, 2⟩
/-- `QUE_DCFGc` (R314). -/
abbrev QUE_DCFG (n : Nat) : Nat := 0x40160a00 + 0x20 * n
abbrev QUE_DCFG_EN : Fld := ⟨0, 1⟩
abbrev QUE_DCFG_TRIG : Fld := ⟨1, 6⟩
abbrev QUE_DCFG_MODE : Fld := ⟨7, 1⟩
abbrev QUE_DCFG_ACCT : Fld := ⟨8, 6⟩
/-- `QUE_DDESCc` (R314). -/
abbrev QUE_DDESC (n : Nat) : Nat := 0x40160a04 + 0x20 * n
abbrev QUE_DDESC_ADDR : Fld := ⟨4, 28⟩
/-- `QUE_DCMDc` (R314). -/
abbrev QUE_DCMD (n : Nat) : Nat := 0x40160a08 + 0x20 * n
abbrev QUE_DCMD_OP : Fld := ⟨0, 2⟩
/-- `QUE_DSTATc` (R314). -/
abbrev QUE_DSTAT (n : Nat) : Nat := 0x40160a0c + 0x20 * n
abbrev QUE_DSTAT_STATE : Fld := ⟨0, 2⟩
abbrev QUE_DSTAT_TPEND : Fld := ⟨2, 1⟩
abbrev QUE_DSTAT_TOVR : Fld := ⟨8, 8⟩
abbrev QUE_DSTAT_CAUSE : Fld := ⟨16, 4⟩
/-- `QUE_DCURc` (R314). -/
abbrev QUE_DCUR (n : Nat) : Nat := 0x40160a10 + 0x20 * n
abbrev QUE_DCUR_ADDR : Fld := ⟨0, 32⟩
/-- `QUE_DREMc` (R314). -/
abbrev QUE_DREM (n : Nat) : Nat := 0x40160a14 + 0x20 * n
abbrev QUE_DREM_LEN : Fld := ⟨0, 24⟩
/-- `QUE_RBtr` (R314). -/
abbrev QUE_RB (n i : Nat) : Nat := 0x40162000 + 0x100 * n + 0x8 * i
abbrev QUE_RB_ANY : Fld := ⟨0, 6⟩
abbrev QUE_RB_BASE : Fld := ⟨8, 24⟩
abbrev QUE_RB_EN : Nat := 0
abbrev QUE_RB_UR : Nat := 1
abbrev QUE_RB_UW : Nat := 2
abbrev QUE_RB_UX : Nat := 3
abbrev QUE_RB_SW : Nat := 4
abbrev QUE_RB_SX : Nat := 5
/-- `QUE_RLtr` (R314). -/
abbrev QUE_RL (n i : Nat) : Nat := 0x40162004 + 0x100 * n + 0x8 * i
abbrev QUE_RL_LIMIT : Fld := ⟨8, 24⟩

/-! ### Block DBG, base 0x40170000 (R39) -/

/-- `DBG_CTRL` (R640). -/
abbrev DBG_CTRL : Nat := 0x40170000
abbrev DBG_CTRL_EN : Fld := ⟨0, 1⟩
abbrev DBG_CTRL_PSEL : Fld := ⟨4, 2⟩
/-- `DBG_STAT` (R640). -/
abbrev DBG_STAT : Nat := 0x40170004
abbrev DBG_STAT_BUSY : Fld := ⟨0, 1⟩
abbrev DBG_STAT_FILL : Fld := ⟨4, 9⟩
/-- `DBG_EVT` (R640). -/
abbrev DBG_EVT : Nat := 0x40170008
abbrev DBG_EVT_ANY : Fld := ⟨0, 8⟩
abbrev DBG_EVT_HALT0 : Nat := 0
abbrev DBG_EVT_HALT1 : Nat := 1
abbrev DBG_EVT_HALT2 : Nat := 2
abbrev DBG_EVT_HALT3 : Nat := 3
abbrev DBG_EVT_THALT : Nat := 4
abbrev DBG_EVT_CMDERR : Nat := 5
abbrev DBG_EVT_LOSS : Nat := 6
abbrev DBG_EVT_ACCESS : Nat := 7
/-- `DBG_WERR` (R640). -/
abbrev DBG_WERR : Nat := 0x4017000c
abbrev DBG_WERR_ANY : Fld := ⟨0, 7⟩
abbrev DBG_WERR_CTRL : Nat := 0
abbrev DBG_WERR_HALT : Nat := 1
abbrev DBG_WERR_RES : Nat := 2
abbrev DBG_WERR_STEP : Nat := 3
abbrev DBG_WERR_BRK : Nat := 4
abbrev DBG_WERR_TRES : Nat := 5
abbrev DBG_WERR_TCFG : Nat := 6
/-- `DBG_WERRA` (R640). -/
abbrev DBG_WERRA : Nat := 0x40170010
abbrev DBG_WERRA_OFFSET : Fld := ⟨0, 16⟩
/-- `DBG_HALT` (R640). -/
abbrev DBG_HALT : Nat := 0x40170014
abbrev DBG_HALT_PAIR : Fld := ⟨0, 4⟩
/-- `DBG_RES` (R640). -/
abbrev DBG_RES : Nat := 0x40170018
abbrev DBG_RES_PAIR : Fld := ⟨0, 4⟩
/-- `DBG_STEP` (R640). -/
abbrev DBG_STEP : Nat := 0x4017001c
abbrev DBG_STEP_PAIR : Fld := ⟨0, 4⟩
/-- `DBG_PSTAT` (R640). -/
abbrev DBG_PSTAT : Nat := 0x40170020
abbrev DBG_PSTAT_HALTED : Fld := ⟨0, 4⟩
abbrev DBG_PSTAT_BYBRK : Fld := ⟨4, 4⟩
/-- `DBG_BRK` (R640). -/
abbrev DBG_BRK : Nat := 0x40170024
abbrev DBG_BRK_PAIR : Fld := ⟨0, 4⟩
abbrev DBG_BRK_ENG : Fld := ⟨4, 2⟩
/-- `DBG_TRES` (R640). -/
abbrev DBG_TRES : Nat := 0x40170028
abbrev DBG_TRES_THREAD : Fld := ⟨0, 6⟩
/-- `DBG_TCFG` (R640). -/
abbrev DBG_TCFG : Nat := 0x4017002c
abbrev DBG_TCFG_PC : Fld := ⟨0, 4⟩
abbrev DBG_TCFG_THR : Fld := ⟨4, 2⟩
abbrev DBG_TCFG_SYNCST : Fld := ⟨6, 1⟩
abbrev DBG_TCFG_FLT : Fld := ⟨7, 1⟩
abbrev DBG_TCFG_USER : Fld := ⟨8, 1⟩
/-- `DBG_UTRC` (R640). -/
abbrev DBG_UTRC : Nat := 0x40170030
abbrev DBG_UTRC_DATA : Fld := ⟨0, 32⟩
/-- `DBG_CNT` (R640). -/
abbrev DBG_CNT : Nat := 0x40170034
abbrev DBG_CNT_LOSS : Fld := ⟨0, 16⟩
abbrev DBG_CNT_CMDERR : Fld := ⟨16, 16⟩

end Sys2Proof.Machine
end

