-- ==== Sys2Proof/Machine/MapRows.lean ====
section
/-! DEFINITION. The rows of the register map: for each register of each block its offset and strides, the access and the static
legal range of every field (R11, R13), its reset value, the bit of the block's write-error register that reports a refused
write to it, and the unit whose enable makes its RWC fields read-only. The order of the blocks is that of R39. -/

namespace Sys2Proof.Machine

/-- Registers of block SYS, part 1. -/
def rowsSYS0 : List Row :=
  [
  { off := 0x0, s1 := 0x4, c1 := 1, s2 := 0x4, c2 := 1, rst := 0x0, werr := .none, lock := .none,
    flds := [⟨SYS_STAT_GOOD, .ro, .any⟩, ⟨SYS_STAT_WARN, .ro, .any⟩,
      ⟨SYS_STAT_SEQ, .ro, .any⟩] },
  { off := 0x4, s1 := 0x4, c1 := 1, s2 := 0x4, c2 := 1, rst := 0x0, werr := .none, lock := .none,
    flds := [⟨SYS_EVT_ANY, .w1c, .any⟩] },
  { off := 0x8, s1 := 0x4, c1 := 1, s2 := 0x4, c2 := 1, rst := 0x0, werr := .none, lock := .none,
    flds := [⟨SYS_WERR_ANY, .w1c, .any⟩] },
  { off := 0xc, s1 := 0x4, c1 := 1, s2 := 0x4, c2 := 1, rst := 0x0, werr := .none, lock := .none,
    flds := [⟨SYS_WERRA_OFFSET, .ro, .any⟩] },
  { off := 0x10, s1 := 0x4, c1 := 1, s2 := 0x4, c2 := 1, rst := 0x50a0, werr := .bit 0, lock := .none,
    flds := [⟨SYS_THR_WARN, .rw, .u 100 200⟩, ⟨SYS_THR_RST, .rw, .u 60 90⟩] },
  { off := 0x14, s1 := 0x4, c1 := 1, s2 := 0x4, c2 := 1, rst := 0x1, werr := .none, lock := .none,
    flds := [⟨SYS_RCAUSE_CAUSE, .ro, .any⟩, ⟨SYS_RCAUSE_DETAIL, .ro, .any⟩,
      ⟨SYS_RCAUSE_COUNT, .ro, .any⟩] },
  { off := 0x18, s1 := 0x4, c1 := 1, s2 := 0x4, c2 := 1, rst := 0x0, werr := .bit 1, lock := .none,
    flds := [⟨SYS_RST_GO, .wo, .any⟩, ⟨SYS_RST_KEY, .wo, .any⟩] },
  { off := 0x1c, s1 := 0x4, c1 := 1, s2 := 0x4, c2 := 1, rst := 0x0, werr := .none, lock := .none,
    flds := [⟨SYS_CLK_ANY, .ro, .any⟩] },
  { off := 0x20, s1 := 0x4, c1 := 1, s2 := 0x4, c2 := 1, rst := 0x0, werr := .bit 2, lock := .none,
    flds := [⟨SYS_SLEEP_GO, .wo, .any⟩] },
  { off := 0x24, s1 := 0x4, c1 := 1, s2 := 0x4, c2 := 1, rst := 0x0, werr := .bit 3, lock := .none,
    flds := [⟨SYS_WAKE_EXT, .rw, .any⟩, ⟨SYS_WAKE_CMP, .rw, .any⟩,
      ⟨SYS_WAKE_ALARM, .rw, .any⟩, ⟨SYS_WAKE_WHL, .rw, .any⟩,
      ⟨SYS_WAKE_CAN, .rw, .any⟩, ⟨SYS_WAKE_SPI, .rw, .any⟩,
      ⟨SYS_WAKE_TMR, .rw, .any⟩] },
  { off := 0x28, s1 := 0x4, c1 := 1, s2 := 0x4, c2 := 1, rst := 0x0, werr := .none, lock := .none,
    flds := [⟨SYS_WSRC_SRC, .ro, .any⟩] },
  { off := 0x2c, s1 := 0x4, c1 := 1, s2 := 0x4, c2 := 1, rst := 0x0, werr := .none, lock := .none,
    flds := [⟨SYS_RTCL_CNT, .ro, .any⟩] } ]

/-- Registers of block SYS, part 2. -/
def rowsSYS1 : List Row :=
  [
  { off := 0x30, s1 := 0x4, c1 := 1, s2 := 0x4, c2 := 1, rst := 0x0, werr := .none, lock := .none,
    flds := [⟨SYS_RTCH_CNT, .ro, .any⟩] },
  { off := 0x34, s1 := 0x4, c1 := 1, s2 := 0x4, c2 := 1, rst := 0x0, werr := .bit 4, lock := .none,
    flds := [⟨SYS_ALML_ALM, .rw, .any⟩] },
  { off := 0x38, s1 := 0x4, c1 := 1, s2 := 0x4, c2 := 1, rst := 0x0, werr := .bit 4, lock := .none,
    flds := [⟨SYS_ALMH_ALM, .rw, .any⟩, ⟨SYS_ALMH_ARMED, .ro, .any⟩] },
  { off := 0x3c, s1 := 0x4, c1 := 1, s2 := 0x4, c2 := 1, rst := 0x0, werr := .none, lock := .none,
    flds := [⟨SYS_CFG_LOCK, .rw, .any⟩] } ]

/-- Registers of block FLT, part 1. -/
def rowsFLT0 : List Row :=
  [
  { off := 0x0, s1 := 0x4, c1 := 1, s2 := 0x4, c2 := 1, rst := 0x0, werr := .bit 0, lock := .none,
    flds := [⟨FLT_CTRL_ARM, .rw, .any⟩, ⟨FLT_CTRL_LOGC, .rw, .any⟩,
      ⟨FLT_CTRL_LOCK, .rw, .any⟩] },
  { off := 0x4, s1 := 0x4, c1 := 1, s2 := 0x4, c2 := 1, rst := 0x1, werr := .none, lock := .none,
    flds := [⟨FLT_STAT_LOW, .ro, .any⟩, ⟨FLT_STAT_INJARM, .ro, .any⟩] },
  { off := 0x8, s1 := 0x4, c1 := 1, s2 := 0x4, c2 := 1, rst := 0x0, werr := .none, lock := .none,
    flds := [⟨FLT_EVT_ANY, .w1c, .any⟩] },
  { off := 0xc, s1 := 0x4, c1 := 1, s2 := 0x4, c2 := 1, rst := 0x0, werr := .none, lock := .none,
    flds := [⟨FLT_WERR_ANY, .w1c, .any⟩] },
  { off := 0x10, s1 := 0x4, c1 := 1, s2 := 0x4, c2 := 1, rst := 0x0, werr := .none, lock := .none,
    flds := [⟨FLT_WERRA_OFFSET, .ro, .any⟩] },
  { off := 0x14, s1 := 0x4, c1 := 1, s2 := 0x4, c2 := 1, rst := 0x0, werr := .none, lock := .none,
    flds := [⟨FLT_UPEND_BLK, .w1c, .any⟩] },
  { off := 0x18, s1 := 0x4, c1 := 1, s2 := 0x4, c2 := 1, rst := 0x0, werr := .none, lock := .none,
    flds := [⟨FLT_FLAT_BLK, .ro, .any⟩] },
  { off := 0x1c, s1 := 0x4, c1 := 1, s2 := 0x4, c2 := 1, rst := 0x0, werr := .none, lock := .none,
    flds := [⟨FLT_SHAD_BLK, .ro, .any⟩] },
  { off := 0x20, s1 := 0x4, c1 := 1, s2 := 0x4, c2 := 1, rst := 0x0, werr := .none, lock := .none,
    flds := [⟨FLT_CNT0_C, .ro, .any⟩, ⟨FLT_CNT0_U, .ro, .any⟩] },
  { off := 0x24, s1 := 0x4, c1 := 1, s2 := 0x4, c2 := 1, rst := 0x0, werr := .none, lock := .none,
    flds := [⟨FLT_CNT1_SEC, .ro, .any⟩, ⟨FLT_CNT1_INJ, .ro, .any⟩,
      ⟨FLT_CNT1_F, .ro, .any⟩] },
  { off := 0x28, s1 := 0x4, c1 := 1, s2 := 0x4, c2 := 1, rst := 0x0, werr := .none, lock := .none,
    flds := [⟨FLT_CLR_CNT, .wo, .any⟩] },
  { off := 0x40, s1 := 0x4, c1 := 1, s2 := 0x4, c2 := 1, rst := 0x0, werr := .none, lock := .none,
    flds := [⟨FLT_LASTL_MSG, .ro, .any⟩] } ]

/-- Registers of block FLT, part 2. -/
def rowsFLT1 : List Row :=
  [
  { off := 0x44, s1 := 0x4, c1 := 1, s2 := 0x4, c2 := 1, rst := 0x0, werr := .none, lock := .none,
    flds := [⟨FLT_LASTH_MSG, .ro, .any⟩] },
  { off := 0x48, s1 := 0x4, c1 := 1, s2 := 0x4, c2 := 1, rst := 0x0, werr := .none, lock := .none,
    flds := [⟨FLT_FIRSTL_MSG, .ro, .any⟩] },
  { off := 0x4c, s1 := 0x4, c1 := 1, s2 := 0x4, c2 := 1, rst := 0x0, werr := .none, lock := .none,
    flds := [⟨FLT_FIRSTH_MSG, .ro, .any⟩] },
  { off := 0x50, s1 := 0x4, c1 := 1, s2 := 0x4, c2 := 1, rst := 0x3e80000, werr := .bit 1, lock := .none,
    flds := [⟨FLT_INJ_TARGET, .rw, .u 0 14⟩, ⟨FLT_INJ_ARM, .rw, .any⟩,
      ⟨FLT_INJ_TOUT, .rw, .u 1 65535⟩] },
  { off := 0x54, s1 := 0x4, c1 := 1, s2 := 0x4, c2 := 1, rst := 0x0, werr := .bit 1, lock := .none,
    flds := [⟨FLT_INJA_ADDR, .rw, .any⟩] },
  { off := 0x58, s1 := 0x4, c1 := 1, s2 := 0x4, c2 := 1, rst := 0x0, werr := .none, lock := .none,
    flds := [⟨FLT_INJS_SYN, .ro, .any⟩, ⟨FLT_INJS_RESULT, .ro, .any⟩] },
  { off := 0x100, s1 := 0x10, c1 := 64, s2 := 0x4, c2 := 1, rst := 0x0, werr := .bit 2, lock := .none,
    flds := [⟨FLT_RM_BLOCK, .rw, .u 0 27⟩, ⟨FLT_RM_BANY, .rw, .any⟩,
      ⟨FLT_RM_UNIT, .rw, .any⟩, ⟨FLT_RM_UANY, .rw, .any⟩,
      ⟨FLT_RM_KIND, .rw, .u 1 255⟩, ⟨FLT_RM_KANY, .rw, .any⟩,
      ⟨FLT_RM_EN, .rw, .any⟩] },
  { off := 0x104, s1 := 0x10, c1 := 64, s2 := 0x4, c2 := 1, rst := 0x40, werr := .bit 2, lock := .none,
    flds := [⟨FLT_RA_SAFE, .rw, .any⟩, ⟨FLT_RA_ACTION, .rw, .any⟩,
      ⟨FLT_RA_PROMO, .rw, .u 0 2⟩, ⟨FLT_RA_LOG, .rw, .any⟩,
      ⟨FLT_RA_SHADOW, .rw, .any⟩] },
  { off := 0x108, s1 := 0x10, c1 := 64, s2 := 0x4, c2 := 1, rst := 0x0, werr := .bit 2, lock := .none,
    flds := [⟨FLT_RD_DEP, .rw, .any⟩] } ]

/-- Registers of block BUD, part 1. -/
def rowsBUD0 : List Row :=
  [
  { off := 0x0, s1 := 0x4, c1 := 1, s2 := 0x4, c2 := 1, rst := 0x0, werr := .none, lock := .none,
    flds := [⟨BUD_EVT_ANY, .w1c, .any⟩] },
  { off := 0x4, s1 := 0x4, c1 := 1, s2 := 0x4, c2 := 1, rst := 0x0, werr := .none, lock := .none,
    flds := [⟨BUD_WERR_ANY, .w1c, .any⟩] },
  { off := 0x8, s1 := 0x4, c1 := 1, s2 := 0x4, c2 := 1, rst := 0x0, werr := .none, lock := .none,
    flds := [⟨BUD_WERRA_OFFSET, .ro, .any⟩] },
  { off := 0xc, s1 := 0x4, c1 := 1, s2 := 0x4, c2 := 1, rst := 0x0, werr := .bit 3, lock := .none,
    flds := [⟨BUD_MONSEL_ACCT, .rw, .u 0 47⟩, ⟨BUD_MONSEL_RES, .rw, .u 0 4⟩] },
  { off := 0x10, s1 := 0x4, c1 := 1, s2 := 0x4, c2 := 1, rst := 0x0, werr := .none, lock := .none,
    flds := [⟨BUD_MONPEAK_PEAK, .ro, .any⟩] },
  { off := 0x14, s1 := 0x4, c1 := 1, s2 := 0x4, c2 := 1, rst := 0x0, werr := .bit 4, lock := .none,
    flds := [⟨BUD_CLR_CNT, .wo, .any⟩, ⟨BUD_CLR_PEAK, .wo, .any⟩] },
  { off := 0x18, s1 := 0x4, c1 := 1, s2 := 0x4, c2 := 1, rst := 0x0, werr := .none, lock := .none,
    flds := [⟨BUD_OVRSUM0_OVR, .ro, .any⟩] },
  { off := 0x1c, s1 := 0x4, c1 := 1, s2 := 0x4, c2 := 1, rst := 0x0, werr := .none, lock := .none,
    flds := [⟨BUD_OVRSUM1_OVR, .ro, .any⟩] },
  { off := 0x40, s1 := 0x4, c1 := 16, s2 := 0x4, c2 := 1, rst := 0x0, werr := .bit 2, lock := .none,
    flds := [⟨BUD_BIND_ACCT, .rw, .u 0 47⟩, ⟨BUD_BIND_EN, .rw, .any⟩] },
  { off := 0x1000, s1 := 0x20, c1 := 48, s2 := 0x4, c2 := 1, rst := 0x1000, werr := .bit 0, lock := .none,
    flds := [⟨BUD_ACFG_EN, .rw, .any⟩, ⟨BUD_ACFG_MODE, .rw, .any⟩,
      ⟨BUD_ACFG_PERS, .rw, .any⟩] },
  { off := 0x1004, s1 := 0x20, c1 := 48, s2 := 0x4, c2 := 5, rst := 0x0, werr := .bit 1, lock := .none,
    flds := [⟨BUD_LIM_LIMIT, .rw, .any⟩] },
  { off := 0x1018, s1 := 0x20, c1 := 48, s2 := 0x4, c2 := 1, rst := 0x0, werr := .none, lock := .none,
    flds := [⟨BUD_OVR_FRAMES, .ro, .any⟩, ⟨BUD_OVR_RUN, .ro, .any⟩,
      ⟨BUD_OVR_RES, .ro, .any⟩] } ]

/-- Registers of block BUD, part 2. -/
def rowsBUD1 : List Row :=
  [
  { off := 0x101c, s1 := 0x20, c1 := 48, s2 := 0x4, c2 := 1, rst := 0x0, werr := .none, lock := .none,
    flds := [⟨BUD_DROP_DROP, .ro, .any⟩] } ]

/-- Registers of block IRQ, part 1. -/
def rowsIRQ0 : List Row :=
  [
  { off := 0x0, s1 := 0x4, c1 := 512, s2 := 0x4, c2 := 1, rst := 0x0, werr := .bit 0, lock := .none,
    flds := [⟨IRQ_SCFG_PRIO, .rw, .any⟩, ⟨IRQ_SCFG_TGT, .rw, .any⟩] },
  { off := 0x800, s1 := 0x4, c1 := 32, s2 := 0x4, c2 := 1, rst := 0x0, werr := .none, lock := .none,
    flds := [⟨IRQ_PEND_PEND, .w1c, .any⟩] },
  { off := 0x880, s1 := 0x4, c1 := 32, s2 := 0x4, c2 := 1, rst := 0x0, werr := .none, lock := .none,
    flds := [⟨IRQ_MASK_MASK, .ro, .any⟩] },
  { off := 0x900, s1 := 0x4, c1 := 32, s2 := 0x4, c2 := 1, rst := 0x0, werr := .none, lock := .none,
    flds := [⟨IRQ_MSET_BITS, .wo, .any⟩] },
  { off := 0x980, s1 := 0x4, c1 := 32, s2 := 0x4, c2 := 1, rst := 0x0, werr := .none, lock := .none,
    flds := [⟨IRQ_MCLR_BITS, .wo, .any⟩] },
  { off := 0xa00, s1 := 0x4, c1 := 32, s2 := 0x4, c2 := 1, rst := 0x0, werr := .bit 1, lock := .none,
    flds := [⟨IRQ_HOLD_HOLD, .rw, .any⟩, ⟨IRQ_HOLD_ACT, .ro, .any⟩] },
  { off := 0xa80, s1 := 0x4, c1 := 32, s2 := 0x4, c2 := 1, rst := 0x0, werr := .none, lock := .none,
    flds := [⟨IRQ_INSV_INSV, .ro, .any⟩] },
  { off := 0xb00, s1 := 0x4, c1 := 32, s2 := 0x4, c2 := 1, rst := 0x0, werr := .none, lock := .none,
    flds := [⟨IRQ_CCLR_BITS, .wo, .any⟩] },
  { off := 0xc00, s1 := 0x4, c1 := 128, s2 := 0x4, c2 := 1, rst := 0x0, werr := .none, lock := .none,
    flds := [⟨IRQ_CNT_CNT0, .ro, .any⟩, ⟨IRQ_CNT_CNT1, .ro, .any⟩,
      ⟨IRQ_CNT_CNT2, .ro, .any⟩, ⟨IRQ_CNT_CNT3, .ro, .any⟩] },
  { off := 0xe00, s1 := 0x10, c1 := 4, s2 := 0x4, c2 := 1, rst := 0x0, werr := .bit 2, lock := .none,
    flds := [⟨IRQ_CLAIM_SRC, .rw, .any⟩] },
  { off := 0xe04, s1 := 0x10, c1 := 4, s2 := 0x4, c2 := 1, rst := 0x0, werr := .bit 3, lock := .none,
    flds := [⟨IRQ_THR_THR, .rw, .any⟩] },
  { off := 0xe08, s1 := 0x10, c1 := 4, s2 := 0x4, c2 := 1, rst := 0x0, werr := .none, lock := .none,
    flds := [⟨IRQ_RUN_RUNP, .ro, .any⟩, ⟨IRQ_RUN_DEPTH, .ro, .any⟩] } ]

/-- Registers of block IRQ, part 2. -/
def rowsIRQ1 : List Row :=
  [
  { off := 0xe40, s1 := 0x4, c1 := 8, s2 := 0x4, c2 := 1, rst := 0x400, werr := .bit 4, lock := .xcfg,
    flds := [⟨IRQ_XCFG_EN, .rw, .any⟩, ⟨IRQ_XCFG_POL, .rwc, .any⟩,
      ⟨IRQ_XCFG_FILT, .rwc, .any⟩] },
  { off := 0xe60, s1 := 0x4, c1 := 1, s2 := 0x4, c2 := 1, rst := 0x0, werr := .none, lock := .none,
    flds := [⟨IRQ_XSTAT_ASSERT, .ro, .any⟩, ⟨IRQ_XSTAT_SENT, .ro, .any⟩] },
  { off := 0xe70, s1 := 0x4, c1 := 1, s2 := 0x4, c2 := 1, rst := 0x0, werr := .none, lock := .none,
    flds := [⟨IRQ_WERR_ANY, .w1c, .any⟩] },
  { off := 0xe74, s1 := 0x4, c1 := 1, s2 := 0x4, c2 := 1, rst := 0x0, werr := .none, lock := .none,
    flds := [⟨IRQ_WERRA_OFFSET, .ro, .any⟩] },
  { off := 0xf000, s1 := 0x4, c1 := 1, s2 := 0x4, c2 := 1, rst := 0x0, werr := .bit 5, lock := .none,
    flds := [⟨IRQ_DOOR_SRC, .wo, .u 496 511⟩] } ]

/-- Registers of block TMR, part 1. -/
def rowsTMR0 : List Row :=
  [
  { off := 0x0, s1 := 0x4, c1 := 1, s2 := 0x4, c2 := 1, rst := 0x0, werr := .none, lock := .none,
    flds := [⟨TMR_EVT_CMP, .w1c, .any⟩, ⟨TMR_EVT_WRAP, .w1c, .any⟩] },
  { off := 0x4, s1 := 0x4, c1 := 1, s2 := 0x4, c2 := 1, rst := 0x0, werr := .none, lock := .none,
    flds := [⟨TMR_CEVT_CAP, .w1c, .any⟩] },
  { off := 0x8, s1 := 0x4, c1 := 1, s2 := 0x4, c2 := 1, rst := 0x0, werr := .none, lock := .none,
    flds := [⟨TMR_WERR_CHAN, .w1c, .any⟩, ⟨TMR_WERR_TSEL, .w1c, .any⟩] },
  { off := 0xc, s1 := 0x4, c1 := 1, s2 := 0x4, c2 := 1, rst := 0x0, werr := .none, lock := .none,
    flds := [⟨TMR_WERRA_OFFSET, .ro, .any⟩] },
  { off := 0x10, s1 := 0x4, c1 := 1, s2 := 0x4, c2 := 1, rst := 0x0, werr := .none, lock := .none,
    flds := [⟨TMR_START_CH, .wo, .any⟩] },
  { off := 0x14, s1 := 0x4, c1 := 1, s2 := 0x4, c2 := 1, rst := 0x0, werr := .none, lock := .none,
    flds := [⟨TMR_STOP_CH, .wo, .any⟩] },
  { off := 0x18, s1 := 0x4, c1 := 1, s2 := 0x4, c2 := 1, rst := 0x0, werr := .none, lock := .none,
    flds := [⟨TMR_STAT_RUN, .ro, .any⟩] },
  { off := 0x80, s1 := 0x4, c1 := 32, s2 := 0x4, c2 := 1, rst := 0x0, werr := .bit 16, lock := .none,
    flds := [⟨TMR_TSEL_SEL, .rw, .any⟩] },
  { off := 0x100, s1 := 0x20, c1 := 16, s2 := 0x4, c2 := 1, rst := 0x200000, werr := .inst 0, lock := .tmr,
    flds := [⟨TMR_CFG_MODE, .rwc, .u 0 2⟩, ⟨TMR_CFG_ONE, .rwc, .any⟩,
      ⟨TMR_CFG_LINK, .rwc, .any⟩, ⟨TMR_CFG_CDIR, .rw, .any⟩,
      ⟨TMR_CFG_PRE, .rwc, .any⟩, ⟨TMR_CFG_STRT, .rwc, .u 0 32⟩] },
  { off := 0x104, s1 := 0x20, c1 := 16, s2 := 0x4, c2 := 1, rst := 0x0, werr := .inst 0, lock := .none,
    flds := [⟨TMR_CNT_CNT, .rw, .any⟩] },
  { off := 0x108, s1 := 0x20, c1 := 16, s2 := 0x4, c2 := 1, rst := 0xffffffff, werr := .inst 0, lock := .none,
    flds := [⟨TMR_TOP_TOP, .rw, .u 1 4294967295⟩] },
  { off := 0x10c, s1 := 0x20, c1 := 16, s2 := 0x4, c2 := 1, rst := 0x0, werr := .inst 0, lock := .none,
    flds := [⟨TMR_CMP_CMP, .rw, .any⟩] } ]

/-- Registers of block TMR, part 2. -/
def rowsTMR1 : List Row :=
  [
  { off := 0x110, s1 := 0x20, c1 := 16, s2 := 0x4, c2 := 1, rst := 0x0, werr := .none, lock := .none,
    flds := [⟨TMR_CAP_CAP, .ro, .any⟩] },
  { off := 0x114, s1 := 0x20, c1 := 16, s2 := 0x4, c2 := 1, rst := 0x0, werr := .inst 0, lock := .none,
    flds := [⟨TMR_CCFG_CSRC, .rw, .u 0 48⟩, ⟨TMR_CCFG_CFILT, .rw, .any⟩] } ]

/-- Registers of block WHL, part 1. -/
def rowsWHL0 : List Row :=
  [
  { off := 0x0, s1 := 0x4, c1 := 1, s2 := 0x4, c2 := 1, rst := 0x0, werr := .bit 0, lock := .none,
    flds := [⟨WHL_CTRL_EN, .rw, .any⟩] },
  { off := 0x4, s1 := 0x4, c1 := 1, s2 := 0x4, c2 := 1, rst := 0x0, werr := .none, lock := .none,
    flds := [⟨WHL_STAT_LVL, .ro, .any⟩, ⟨WHL_STAT_SIG, .ro, .any⟩,
      ⟨WHL_STAT_DIR, .ro, .any⟩] },
  { off := 0x8, s1 := 0x4, c1 := 1, s2 := 0x4, c2 := 1, rst := 0x0, werr := .none, lock := .none,
    flds := [⟨WHL_EVT_ANY, .w1c, .any⟩, ⟨WHL_EVT_ETRUNC, .w1c, .any⟩] },
  { off := 0xc, s1 := 0x4, c1 := 1, s2 := 0x4, c2 := 1, rst := 0x0, werr := .none, lock := .none,
    flds := [⟨WHL_WERR_CTRL, .w1c, .any⟩, ⟨WHL_WERR_ECHO, .w1c, .any⟩,
      ⟨WHL_WERR_WHEEL, .w1c, .any⟩, ⟨WHL_WERR_TABLE, .w1c, .any⟩] },
  { off := 0x10, s1 := 0x4, c1 := 1, s2 := 0x4, c2 := 1, rst := 0x0, werr := .none, lock := .none,
    flds := [⟨WHL_CLR_CNT, .wo, .any⟩] },
  { off := 0x14, s1 := 0x4, c1 := 1, s2 := 0x4, c2 := 1, rst := 0x0, werr := .none, lock := .none,
    flds := [⟨WHL_SLOTL_SLOT, .ro, .any⟩] },
  { off := 0x18, s1 := 0x4, c1 := 1, s2 := 0x4, c2 := 1, rst := 0x0, werr := .none, lock := .none,
    flds := [⟨WHL_SLOTH_SLOT, .ro, .any⟩] },
  { off := 0x1c, s1 := 0x4, c1 := 1, s2 := 0x4, c2 := 1, rst := 0x0, werr := .none, lock := .none,
    flds := [⟨WHL_WERRA_OFFSET, .ro, .any⟩] },
  { off := 0x40, s1 := 0x20, c1 := 2, s2 := 0x4, c2 := 1, rst := 0x800000, werr := .inst 2, lock := .echo,
    flds := [⟨WHL_ECFG_EN, .rw, .any⟩, ⟨WHL_ECFG_MODE, .rwc, .u 0 2⟩,
      ⟨WHL_ECFG_SRC, .rwc, .u 0 5⟩, ⟨WHL_ECFG_PIN, .rwc, .any⟩,
      ⟨WHL_ECFG_INV, .rw, .any⟩, ⟨WHL_ECFG_SHARE, .rwc, .any⟩,
      ⟨WHL_ECFG_NOPIN, .rwc, .any⟩, ⟨WHL_ECFG_DUTY, .rw, .u 1 255⟩] },
  { off := 0x44, s1 := 0x20, c1 := 2, s2 := 0x4, c2 := 1, rst := 0xfa, werr := .inst 2, lock := .none,
    flds := [⟨WHL_EWID_WIDTH, .rw, .u 1 65535⟩] },
  { off := 0x48, s1 := 0x20, c1 := 2, s2 := 0x4, c2 := 1, rst := 0x0, werr := .inst 2, lock := .none,
    flds := [⟨WHL_EOFS_OFS, .rw, .any⟩] },
  { off := 0x4c, s1 := 0x20, c1 := 2, s2 := 0x4, c2 := 1, rst := 0x4c4b40, werr := .inst 2, lock := .none,
    flds := [⟨WHL_ESPD_PERIOD, .rw, .u 75000 600000000⟩] } ]

/-- Registers of block WHL, part 2. -/
def rowsWHL1 : List Row :=
  [
  { off := 0x50, s1 := 0x20, c1 := 2, s2 := 0x4, c2 := 1, rst := 0x0, werr := .inst 2, lock := .none,
    flds := [⟨WHL_ERAMP_RAMP, .rw, .any⟩] },
  { off := 0x54, s1 := 0x20, c1 := 2, s2 := 0x4, c2 := 1, rst := 0x0, werr := .none, lock := .none,
    flds := [⟨WHL_EANG_ANGLE, .ro, .any⟩] },
  { off := 0x58, s1 := 0x20, c1 := 2, s2 := 0x4, c2 := 1, rst := 0x4c4b40, werr := .none, lock := .none,
    flds := [⟨WHL_ESPDA_PERIOD, .ro, .any⟩] },
  { off := 0x100, s1 := 0x40, c1 := 6, s2 := 0x4, c2 := 1, rst := 0x80008, werr := .inst 4, lock := .wheel,
    flds := [⟨WHL_CFG_MODE, .rwc, .u 0 1⟩, ⟨WHL_CFG_EDGE, .rwc, .u 1 3⟩,
      ⟨WHL_CFG_ROLE, .rwc, .u 0 2⟩, ⟨WHL_CFG_HTH, .rwc, .u 0 2⟩,
      ⟨WHL_CFG_SRC, .rwc, .u 0 2⟩, ⟨WHL_CFG_DIREN, .rwc, .any⟩,
      ⟨WHL_CFG_FILT, .rw, .any⟩] },
  { off := 0x104, s1 := 0x40, c1 := 6, s2 := 0x4, c2 := 1, rst := 0x2, werr := .inst 4, lock := .wheel,
    flds := [⟨WHL_TEETH_COUNT, .rwc, .u 1 4096⟩, ⟨WHL_TEETH_PERCYC, .rwc, .any⟩] },
  { off := 0x108, s1 := 0x40, c1 := 6, s2 := 0x4, c2 := 1, rst := 0x1404, werr := .inst 4, lock := .wheel,
    flds := [⟨WHL_VR_FRAC, .rw, .u 1 12⟩, ⟨WHL_VR_FLOOR, .rw, .u 2 255⟩] },
  { off := 0x10c, s1 := 0x40, c1 := 6, s2 := 0x4, c2 := 1, rst := 0x2c09, werr := .inst 4, lock := .wheel,
    flds := [⟨WHL_WIN_LO, .rw, .u 2 19⟩, ⟨WHL_WIN_HI, .rw, .u 21 78⟩] },
  { off := 0x110, s1 := 0x40, c1 := 6, s2 := 0x4, c2 := 1, rst := 0x0, werr := .inst 4, lock := .wheel,
    flds := [⟨WHL_OFS_OFS, .rwc, .any⟩] },
  { off := 0x114, s1 := 0x40, c1 := 6, s2 := 0x4, c2 := 1, rst := 0x5dc, werr := .inst 4, lock := .wheel,
    flds := [⟨WHL_DIR_THR, .rwc, .u 1 65535⟩] },
  { off := 0x118, s1 := 0x40, c1 := 6, s2 := 0x4, c2 := 1, rst := 0x0, werr := .inst 4, lock := .wheel,
    flds := [⟨WHL_LOG_EN, .rw, .any⟩, ⟨WHL_LOG_QUE, .rwc, .any⟩] },
  { off := 0x120, s1 := 0x40, c1 := 6, s2 := 0x4, c2 := 1, rst := 0x0, werr := .none, lock := .wheel,
    flds := [⟨WHL_LAST_STAMP, .ro, .any⟩] },
  { off := 0x124, s1 := 0x40, c1 := 6, s2 := 0x4, c2 := 1, rst := 0x0, werr := .none, lock := .wheel,
    flds := [⟨WHL_PER_PERIOD, .ro, .any⟩] } ]

/-- Registers of block WHL, part 3. -/
def rowsWHL2 : List Row :=
  [
  { off := 0x128, s1 := 0x40, c1 := 6, s2 := 0x4, c2 := 1, rst := 0x0, werr := .none, lock := .wheel,
    flds := [⟨WHL_PRED_P, .ro, .any⟩] },
  { off := 0x12c, s1 := 0x40, c1 := 6, s2 := 0x4, c2 := 1, rst := 0x0, werr := .none, lock := .wheel,
    flds := [⟨WHL_CNT_EARLY, .ro, .any⟩, ⟨WHL_CNT_MISS, .ro, .any⟩,
      ⟨WHL_CNT_OVR, .ro, .any⟩, ⟨WHL_CNT_LOGDROP, .ro, .any⟩] },
  { off := 0x130, s1 := 0x40, c1 := 6, s2 := 0x4, c2 := 1, rst := 0x0, werr := .none, lock := .wheel,
    flds := [⟨WHL_PK_PPK, .ro, .any⟩, ⟨WHL_PK_NPK, .ro, .any⟩] },
  { off := 0x4000, s1 := 0x2000, c1 := 6, s2 := 0x4, c2 := 2048, rst := 0x0, werr := .inst 10, lock := .pat,
    flds := [⟨WHL_PAT_E0, .rw, .any⟩, ⟨WHL_PAT_E1, .rw, .any⟩] } ]

/-- Registers of block OBS, part 1. -/
def rowsOBS0 : List Row :=
  [
  { off := 0x0, s1 := 0x4, c1 := 1, s2 := 0x4, c2 := 1, rst := 0x100, werr := .bit 0, lock := .obs,
    flds := [⟨OBS_CFG_EN, .rw, .any⟩, ⟨OBS_CFG_CYCLE, .rwc, .any⟩,
      ⟨OBS_CFG_SRC, .rwc, .u 0 5⟩, ⟨OBS_CFG_NFIRE, .rwc, .u 1 24⟩] },
  { off := 0x4, s1 := 0x4, c1 := 1, s2 := 0x4, c2 := 1, rst := 0xa08, werr := .bit 1, lock := .none,
    flds := [⟨OBS_PCFG_SLIM, .rw, .u 1 32⟩, ⟨OBS_PCFG_SKIP, .rw, .any⟩] },
  { off := 0x8, s1 := 0x4, c1 := 1, s2 := 0x4, c2 := 1, rst := 0x0, werr := .none, lock := .none,
    flds := [⟨OBS_ANG_ANGLE, .ro, .any⟩] },
  { off := 0xc, s1 := 0x4, c1 := 1, s2 := 0x4, c2 := 1, rst := 0x0, werr := .none, lock := .none,
    flds := [⟨OBS_ANGT_SLOT, .ro, .any⟩] },
  { off := 0x10, s1 := 0x4, c1 := 1, s2 := 0x4, c2 := 1, rst := 0x0, werr := .none, lock := .none,
    flds := [⟨OBS_RATE_RATE, .ro, .any⟩] },
  { off := 0x14, s1 := 0x4, c1 := 1, s2 := 0x4, c2 := 1, rst := 0x0, werr := .none, lock := .none,
    flds := [⟨OBS_SPEED_SPEED, .ro, .any⟩] },
  { off := 0x18, s1 := 0x4, c1 := 1, s2 := 0x4, c2 := 1, rst := 0x0, werr := .none, lock := .none,
    flds := [⟨OBS_FLAGS_VALID, .ro, .any⟩, ⟨OBS_FLAGS_CEIL, .ro, .any⟩,
      ⟨OBS_FLAGS_COAST, .ro, .any⟩, ⟨OBS_FLAGS_PRED, .ro, .any⟩,
      ⟨OBS_FLAGS_FVAL, .ro, .any⟩, ⟨OBS_FLAGS_TVAL, .ro, .any⟩,
      ⟨OBS_FLAGS_SRCA, .ro, .any⟩] },
  { off := 0x1c, s1 := 0x4, c1 := 1, s2 := 0x4, c2 := 1, rst := 0x0, werr := .none, lock := .none,
    flds := [⟨OBS_EVT_JUMP, .w1c, .any⟩, ⟨OBS_EVT_PASTE, .w1c, .any⟩,
      ⟨OBS_EVT_SKIP, .w1c, .any⟩, ⟨OBS_EVT_CEIL, .w1c, .any⟩,
      ⟨OBS_EVT_LDONE, .w1c, .any⟩, ⟨OBS_EVT_LDISC, .w1c, .any⟩,
      ⟨OBS_EVT_FBAD, .w1c, .any⟩] },
  { off := 0x20, s1 := 0x4, c1 := 1, s2 := 0x4, c2 := 1, rst := 0x0, werr := .none, lock := .none,
    flds := [⟨OBS_WERR_REG, .w1c, .any⟩, ⟨OBS_WERR_TORS, .w1c, .any⟩,
      ⟨OBS_WERR_FACT, .w1c, .any⟩, ⟨OBS_WERR_HIGH, .w1c, .any⟩] },
  { off := 0x24, s1 := 0x4, c1 := 1, s2 := 0x4, c2 := 1, rst := 0x48d, werr := .bit 9, lock := .none,
    flds := [⟨OBS_JTHR_JTHR, .rw, .u 1 16777215⟩] },
  { off := 0x28, s1 := 0x4, c1 := 1, s2 := 0x4, c2 := 1, rst := 0x0, werr := .none, lock := .none,
    flds := [⟨OBS_JLAST_JUMP, .ro, .any⟩] },
  { off := 0x2c, s1 := 0x4, c1 := 1, s2 := 0x4, c2 := 1, rst := 0x0, werr := .none, lock := .none,
    flds := [⟨OBS_JMAX_JUMP, .ro, .any⟩] } ]

/-- Registers of block OBS, part 2. -/
def rowsOBS1 : List Row :=
  [
  { off := 0x30, s1 := 0x4, c1 := 1, s2 := 0x4, c2 := 1, rst := 0x1086000, werr := .bit 12, lock := .none,
    flds := [⟨OBS_LCTL_LEN, .rw, .any⟩, ⟨OBS_LCTL_TEN, .rw, .any⟩,
      ⟨OBS_LCTL_COAST, .rw, .any⟩, ⟨OBS_LCTL_CSRC, .rw, .any⟩,
      ⟨OBS_LCTL_LRATE, .rw, .u 2 10⟩, ⟨OBS_LCTL_TRATE, .rw, .u 2 10⟩,
      ⟨OBS_LCTL_LMIN, .rw, .u 4 255⟩] },
  { off := 0x34, s1 := 0x4, c1 := 1, s2 := 0x4, c2 := 1, rst := 0x8980064, werr := .bit 13, lock := .none,
    flds := [⟨OBS_LSPD_LO, .rw, .u 5 19999⟩, ⟨OBS_LSPD_HI, .rw, .u 6 20000⟩] },
  { off := 0x38, s1 := 0x4, c1 := 1, s2 := 0x4, c2 := 1, rst := 0x0, werr := .bit 14, lock := .none,
    flds := [⟨OBS_LFUEL_MASK, .rw, .any⟩] },
  { off := 0x3c, s1 := 0x4, c1 := 1, s2 := 0x4, c2 := 1, rst := 0x0, werr := .bit 15, lock := .obs,
    flds := [⟨OBS_TOFS_OFS, .rwc, .any⟩] },
  { off := 0x40, s1 := 0x4, c1 := 1, s2 := 0x4, c2 := 1, rst := 0x0, werr := .none, lock := .none,
    flds := [⟨OBS_LCNT_PASSES, .ro, .any⟩, ⟨OBS_LCNT_DISC, .ro, .any⟩] },
  { off := 0x44, s1 := 0x4, c1 := 1, s2 := 0x4, c2 := 1, rst := 0x0, werr := .none, lock := .none,
    flds := [⟨OBS_RESID_RESID, .ro, .any⟩] },
  { off := 0x48, s1 := 0x4, c1 := 1, s2 := 0x4, c2 := 1, rst := 0xc8, werr := .bit 18, lock := .none,
    flds := [⟨OBS_LRES_LRES, .rw, .u 10 10000⟩] },
  { off := 0x4c, s1 := 0x4, c1 := 1, s2 := 0x4, c2 := 1, rst := 0x0, werr := .bit 19, lock := .none,
    flds := [⟨OBS_CLR_FACT, .wo, .any⟩, ⟨OBS_CLR_TORS, .wo, .any⟩,
      ⟨OBS_CLR_JMAX, .wo, .any⟩] },
  { off := 0x50, s1 := 0x4, c1 := 1, s2 := 0x4, c2 := 1, rst := 0x0, werr := .none, lock := .none,
    flds := [⟨OBS_WERRA_OFFSET, .ro, .any⟩] },
  { off := 0x200, s1 := 0x4, c1 := 1, s2 := 0x4, c2 := 1, rst := 0x0, werr := .none, lock := .none,
    flds := [⟨OBS_STATE_SYNC, .ro, .any⟩, ⟨OBS_STATE_GRADE, .ro, .any⟩,
      ⟨OBS_STATE_PHASE, .ro, .any⟩, ⟨OBS_STATE_AGREE, .ro, .any⟩,
      ⟨OBS_STATE_SECPL, .ro, .any⟩, ⟨OBS_STATE_HOLDN, .ro, .any⟩,
      ⟨OBS_STATE_SGEN, .ro, .any⟩] },
  { off := 0x204, s1 := 0x4, c1 := 1, s2 := 0x4, c2 := 1, rst := 0xe94448, werr := .bit 28, lock := .obs,
    flds := [⟨OBS_SCFG_PLACE, .rwc, .any⟩, ⟨OBS_SCFG_CAMEN, .rwc, .any⟩,
      ⟨OBS_SCFG_CAM, .rwc, .u 0 5⟩, ⟨OBS_SCFG_SECEN, .rwc, .any⟩,
      ⟨OBS_SCFG_SEC, .rwc, .u 0 5⟩, ⟨OBS_SCFG_AUTO, .rw, .any⟩,
      ⟨OBS_SCFG_RELOCK, .rw, .any⟩, ⟨OBS_SCFG_NMIS, .rw, .u 1 15⟩,
      ⟨OBS_SCFG_RTOL, .rw, .u 1 65535⟩] },
  { off := 0x208, s1 := 0x4, c1 := 1, s2 := 0x4, c2 := 1, rst := 0xff020803, werr := .bit 29, lock := .none,
    flds := [⟨OBS_SCHK_GTOL, .rw, .u 2 7⟩, ⟨OBS_SCHK_EMAX, .rw, .u 1 255⟩,
      ⟨OBS_SCHK_NDIR, .rw, .u 1 15⟩, ⟨OBS_SCHK_PWMSAFE, .rw, .any⟩] } ]

/-- Registers of block OBS, part 3. -/
def rowsOBS2 : List Row :=
  [
  { off := 0x20c, s1 := 0x4, c1 := 1, s2 := 0x4, c2 := 1, rst := 0x114, werr := .bit 30, lock := .obs,
    flds := [⟨OBS_SCAM_TOL, .rw, .u 1 255⟩, ⟨OBS_SCAM_NCONF, .rw, .u 1 8⟩,
      ⟨OBS_SCAM_REFSLOT, .rwc, .any⟩, ⟨OBS_SCAM_REFREV, .rwc, .any⟩] },
  { off := 0x210, s1 := 0x4, c1 := 1, s2 := 0x4, c2 := 1, rst := 0x0, werr := .bit 31, lock := .none,
    flds := [⟨OBS_SCMD_RESEEK, .wo, .any⟩, ⟨OBS_SCMD_PHASE, .wo, .u 0 2⟩,
      ⟨OBS_SCMD_SWAP, .wo, .any⟩, ⟨OBS_SCMD_DROP, .wo, .any⟩] },
  { off := 0x214, s1 := 0x4, c1 := 1, s2 := 0x4, c2 := 1, rst := 0x0, werr := .none, lock := .none,
    flds := [⟨OBS_SEVT_ANY, .w1c, .any⟩] },
  { off := 0x218, s1 := 0x4, c1 := 1, s2 := 0x4, c2 := 1, rst := 0x0, werr := .none, lock := .none,
    flds := [⟨OBS_SCAUSE_CAUSE, .ro, .any⟩, ⟨OBS_SCAUSE_FROM, .ro, .any⟩,
      ⟨OBS_SCAUSE_WHEEL, .ro, .any⟩] },
  { off := 0x21c, s1 := 0x4, c1 := 1, s2 := 0x4, c2 := 1, rst := 0x0, werr := .none, lock := .none,
    flds := [⟨OBS_SLOSTA_ANGLE, .ro, .any⟩] },
  { off := 0x220, s1 := 0x4, c1 := 1, s2 := 0x4, c2 := 1, rst := 0x0, werr := .none, lock := .none,
    flds := [⟨OBS_SCNT_PASTE, .ro, .any⟩, ⟨OBS_SCNT_LOST, .ro, .any⟩,
      ⟨OBS_SCNT_CAMERR, .ro, .any⟩, ⟨OBS_SCNT_EARLYREV, .ro, .any⟩] },
  { off := 0x224, s1 := 0x4, c1 := 1, s2 := 0x4, c2 := 1, rst := 0x0, werr := .none, lock := .none,
    flds := [⟨OBS_SDIFF_E, .ro, .any⟩] },
  { off := 0x1000, s1 := 0x4, c1 := 384, s2 := 0x4, c2 := 1, rst := 0x0, werr := .bit 20, lock := .tors,
    flds := [⟨OBS_TORS_H0, .rw, .s (-8192) (8191)⟩, ⟨OBS_TORS_H1, .rw, .s (-8192) (8191)⟩] },
  { off := 0x4000, s1 := 0x2000, c1 := 6, s2 := 0x4, c2 := 2048, rst := 0x40004000, werr := .inst 21, lock := .fact,
    flds := [⟨OBS_FACT_F0, .rw, .u 8192 24575⟩, ⟨OBS_FACT_F1, .rw, .u 8192 24575⟩] } ]

/-- Registers of block CAL, part 1. -/
def rowsCAL0 : List Row :=
  [
  { off := 0x0, s1 := 0x4, c1 := 1, s2 := 0x4, c2 := 1, rst := 0x0, werr := .bit 0, lock := .none,
    flds := [⟨CAL_CTRL_EN, .rw, .any⟩] },
  { off := 0x4, s1 := 0x4, c1 := 1, s2 := 0x4, c2 := 1, rst := 0x20600000, werr := .bit 1, lock := .cal,
    flds := [⟨CAL_BASE_BASE, .rwc, .u 256 259⟩] },
  { off := 0x8, s1 := 0x4, c1 := 1, s2 := 0x4, c2 := 1, rst := 0x0, werr := .none, lock := .none,
    flds := [⟨CAL_USED_USED, .ro, .any⟩] },
  { off := 0xc, s1 := 0x4, c1 := 1, s2 := 0x4, c2 := 1, rst := 0x0, werr := .none, lock := .none,
    flds := [⟨CAL_BMAX_BMAX, .ro, .any⟩] },
  { off := 0x10, s1 := 0x4, c1 := 1, s2 := 0x4, c2 := 1, rst := 0x0, werr := .none, lock := .none,
    flds := [⟨CAL_EVT_ANY, .w1c, .any⟩] },
  { off := 0x14, s1 := 0x4, c1 := 1, s2 := 0x4, c2 := 1, rst := 0x0, werr := .none, lock := .none,
    flds := [⟨CAL_WERR_ANY, .w1c, .any⟩] },
  { off := 0x18, s1 := 0x4, c1 := 1, s2 := 0x4, c2 := 1, rst := 0x0, werr := .none, lock := .none,
    flds := [⟨CAL_WERRA_OFFSET, .ro, .any⟩] },
  { off := 0x1c, s1 := 0x4, c1 := 1, s2 := 0x4, c2 := 1, rst := 0x0, werr := .bit 2, lock := .cal,
    flds := [⟨CAL_RCFG_EN, .rw, .any⟩, ⟨CAL_RCFG_QUE, .rwc, .any⟩] },
  { off := 0x20, s1 := 0x4, c1 := 1, s2 := 0x4, c2 := 1, rst := 0x0, werr := .none, lock := .none,
    flds := [⟨CAL_CNT0_LATE, .ro, .any⟩, ⟨CAL_CNT0_DROP, .ro, .any⟩] },
  { off := 0x24, s1 := 0x4, c1 := 1, s2 := 0x4, c2 := 1, rst := 0x0, werr := .none, lock := .none,
    flds := [⟨CAL_CNT1_REFUSE, .ro, .any⟩, ⟨CAL_CNT1_RQDROP, .ro, .any⟩] },
  { off := 0x28, s1 := 0x4, c1 := 1, s2 := 0x4, c2 := 1, rst := 0x0, werr := .none, lock := .none,
    flds := [⟨CAL_RSTALL_STALL, .ro, .any⟩] },
  { off := 0x2c, s1 := 0x4, c1 := 1, s2 := 0x4, c2 := 1, rst := 0x0, werr := .bit 3, lock := .none,
    flds := [⟨CAL_CLR_CNT, .wo, .any⟩, ⟨CAL_CLR_BMAX, .wo, .any⟩] } ]

/-- Registers of block CAL, part 2. -/
def rowsCAL1 : List Row :=
  [
  { off := 0x100, s1 := 0x20, c1 := 4, s2 := 0x4, c2 := 1, rst := 0x0, werr := .none, lock := .none,
    flds := [⟨CAL_PPD0_WORD, .rw, .any⟩] },
  { off := 0x104, s1 := 0x20, c1 := 4, s2 := 0x4, c2 := 1, rst := 0x0, werr := .none, lock := .none,
    flds := [⟨CAL_PPD1_WORD, .rw, .any⟩] },
  { off := 0x108, s1 := 0x20, c1 := 4, s2 := 0x4, c2 := 1, rst := 0x0, werr := .none, lock := .none,
    flds := [⟨CAL_PPD2_WORD, .rw, .any⟩] },
  { off := 0x10c, s1 := 0x20, c1 := 4, s2 := 0x4, c2 := 1, rst := 0x0, werr := .none, lock := .none,
    flds := [⟨CAL_PPD3_WORD, .rw, .any⟩] },
  { off := 0x110, s1 := 0x20, c1 := 4, s2 := 0x4, c2 := 1, rst := 0x0, werr := .none, lock := .none,
    flds := [⟨CAL_PPRES_RESULT, .ro, .any⟩] },
  { off := 0x114, s1 := 0x20, c1 := 4, s2 := 0x4, c2 := 1, rst := 0x0, werr := .none, lock := .none,
    flds := [⟨CAL_PPCAN_HANDLE, .wo, .any⟩] },
  { off := 0x118, s1 := 0x20, c1 := 4, s2 := 0x4, c2 := 1, rst := 0x0, werr := .none, lock := .none,
    flds := [⟨CAL_PPCRES_STATUS, .ro, .any⟩] } ]

/-- Registers of block AEN, part 1. -/
def rowsAEN0 : List Row :=
  [
  { off := 0x0, s1 := 0x4, c1 := 1, s2 := 0x4, c2 := 1, rst := 0x0, werr := .bit 0, lock := .none,
    flds := [⟨AEN_CTRL_EN, .rw, .any⟩] },
  { off := 0x4, s1 := 0x4, c1 := 1, s2 := 0x4, c2 := 1, rst := 0x0, werr := .none, lock := .none,
    flds := [⟨AEN_STAT_ACT0, .ro, .any⟩, ⟨AEN_STAT_ACT1, .ro, .any⟩,
      ⟨AEN_STAT_FLT0, .ro, .any⟩, ⟨AEN_STAT_FLT1, .ro, .any⟩] },
  { off := 0x8, s1 := 0x4, c1 := 1, s2 := 0x4, c2 := 1, rst := 0x0, werr := .none, lock := .none,
    flds := [⟨AEN_EVT_ANY, .w1c, .any⟩] },
  { off := 0xc, s1 := 0x4, c1 := 1, s2 := 0x4, c2 := 1, rst := 0x0, werr := .none, lock := .none,
    flds := [⟨AEN_WERR_ANY, .w1c, .any⟩] },
  { off := 0x10, s1 := 0x4, c1 := 1, s2 := 0x4, c2 := 1, rst := 0x0, werr := .none, lock := .none,
    flds := [⟨AEN_WERRA_OFFSET, .ro, .any⟩] },
  { off := 0x14, s1 := 0x4, c1 := 1, s2 := 0x4, c2 := 1, rst := 0x0, werr := .none, lock := .none,
    flds := [⟨AEN_CWRA_ADDR, .ro, .any⟩] },
  { off := 0x18, s1 := 0x4, c1 := 1, s2 := 0x4, c2 := 1, rst := 0x0, werr := .none, lock := .none,
    flds := [⟨AEN_ECC_CORR, .ro, .any⟩, ⟨AEN_ECC_UNC, .ro, .any⟩] },
  { off := 0x1c, s1 := 0x4, c1 := 1, s2 := 0x4, c2 := 1, rst := 0x0, werr := .none, lock := .none,
    flds := [⟨AEN_CLR_ECC, .wo, .any⟩] },
  { off := 0x20, s1 := 0x8, c1 := 2, s2 := 0x4, c2 := 1, rst := 0x0, werr := .bit 1, lock := .none,
    flds := [⟨AEN_CWPL_PROT, .rw, .any⟩] },
  { off := 0x24, s1 := 0x8, c1 := 2, s2 := 0x4, c2 := 1, rst := 0x0, werr := .bit 1, lock := .none,
    flds := [⟨AEN_CWPH_PROT, .rw, .any⟩] },
  { off := 0x1000, s1 := 0x40, c1 := 64, s2 := 0x4, c2 := 1, rst := 0x0, werr := .bit 2, lock := .thr,
    flds := [⟨AEN_TCFG_PRIO, .rw, .any⟩, ⟨AEN_TCFG_ACCT, .rwc, .u 0 47⟩] },
  { off := 0x1004, s1 := 0x40, c1 := 64, s2 := 0x4, c2 := 1, rst := 0x0, werr := .bit 3, lock := .thr,
    flds := [⟨AEN_TPC_PC, .rwc, .u 0 262140⟩] } ]

/-- Registers of block AEN, part 2. -/
def rowsAEN1 : List Row :=
  [
  { off := 0x1008, s1 := 0x40, c1 := 64, s2 := 0x4, c2 := 1, rst := 0x0, werr := .bit 4, lock := .thr,
    flds := [⟨AEN_TNPC_NPC, .rw, .u 0 262140⟩] },
  { off := 0x100c, s1 := 0x40, c1 := 64, s2 := 0x4, c2 := 1, rst := 0x0, werr := .bit 5, lock := .thr,
    flds := [⟨AEN_TCMD_OP, .wo, .u 1 4⟩, ⟨AEN_TCMD_SIG, .wo, .any⟩] },
  { off := 0x1010, s1 := 0x40, c1 := 64, s2 := 0x4, c2 := 1, rst := 0x0, werr := .none, lock := .thr,
    flds := [⟨AEN_TSTAT_STATE, .ro, .any⟩, ⟨AEN_TSTAT_RTP, .ro, .any⟩,
      ⟨AEN_TSTAT_WKIND, .ro, .any⟩, ⟨AEN_TSTAT_PEND, .ro, .any⟩] },
  { off := 0x1014, s1 := 0x40, c1 := 64, s2 := 0x4, c2 := 1, rst := 0x0, werr := .bit 6, lock := .thr,
    flds := [⟨AEN_TQB_Q0, .rw, .any⟩, ⟨AEN_TQB_E0, .rw, .any⟩,
      ⟨AEN_TQB_Q1, .rw, .any⟩, ⟨AEN_TQB_E1, .rw, .any⟩,
      ⟨AEN_TQB_Q2, .rw, .any⟩, ⟨AEN_TQB_E2, .rw, .any⟩,
      ⟨AEN_TQB_Q3, .rw, .any⟩, ⟨AEN_TQB_E3, .rw, .any⟩] },
  { off := 0x1018, s1 := 0x40, c1 := 64, s2 := 0x4, c2 := 1, rst := 0x0, werr := .bit 7, lock := .thr,
    flds := [⟨AEN_TEVS_S0, .rw, .any⟩, ⟨AEN_TEVS_S1, .rw, .any⟩,
      ⟨AEN_TEVS_S2, .rw, .any⟩, ⟨AEN_TEVS_S3, .rw, .any⟩] },
  { off := 0x101c, s1 := 0x40, c1 := 64, s2 := 0x4, c2 := 1, rst := 0x3f003f00, werr := .bit 8, lock := .thr,
    flds := [⟨AEN_TWIN_CLO, .rwc, .any⟩, ⟨AEN_TWIN_CHI, .rwc, .any⟩,
      ⟨AEN_TWIN_DLO, .rwc, .any⟩, ⟨AEN_TWIN_DHI, .rwc, .any⟩] },
  { off := 0x1020, s1 := 0x40, c1 := 64, s2 := 0x4, c2 := 1, rst := 0x0, werr := .none, lock := .thr,
    flds := [⟨AEN_TFAD_ADDR, .ro, .any⟩] },
  { off := 0x1024, s1 := 0x40, c1 := 64, s2 := 0x4, c2 := 1, rst := 0x0, werr := .none, lock := .thr,
    flds := [⟨AEN_TFVAL_EVAL, .ro, .any⟩] },
  { off := 0x1028, s1 := 0x40, c1 := 64, s2 := 0x4, c2 := 1, rst := 0x0, werr := .none, lock := .thr,
    flds := [⟨AEN_TFC_CODE, .ro, .any⟩] },
  { off := 0x102c, s1 := 0x40, c1 := 64, s2 := 0x4, c2 := 1, rst := 0x0, werr := .none, lock := .thr,
    flds := [⟨AEN_TISS_SLOTS, .ro, .any⟩] },
  { off := 0x1030, s1 := 0x40, c1 := 64, s2 := 0x4, c2 := 1, rst := 0x0, werr := .none, lock := .thr,
    flds := [⟨AEN_TBST_FRAMES, .ro, .any⟩] },
  { off := 0x1034, s1 := 0x40, c1 := 64, s2 := 0x4, c2 := 1, rst := 0x0, werr := .none, lock := .thr,
    flds := [⟨AEN_TWAKE_TARGET, .ro, .any⟩] } ]

/-- Registers of block AEN, part 3. -/
def rowsAEN2 : List Row :=
  [
  { off := 0x2000, s1 := 0x40, c1 := 64, s2 := 0x4, c2 := 16, rst := 0x0, werr := .bit 9, lock := .none,
    flds := [⟨AEN_TG_G, .rw, .any⟩] },
  { off := 0x3000, s1 := 0x4, c1 := 1, s2 := 0x4, c2 := 1, rst := 0x0, werr := .none, lock := .none,
    flds := [⟨AEN_ELOCK_LOCK, .rw, .any⟩] },
  { off := 0x4000, s1 := 0x10, c1 := 512, s2 := 0x4, c2 := 1, rst := 0x0, werr := .none, lock := .none,
    flds := [⟨AEN_TRQ_REQ, .rw, .any⟩] },
  { off := 0x4004, s1 := 0x10, c1 := 512, s2 := 0x4, c2 := 1, rst := 0x0, werr := .none, lock := .none,
    flds := [⟨AEN_TRM_TRIM, .ro, .any⟩] },
  { off := 0x4008, s1 := 0x10, c1 := 512, s2 := 0x4, c2 := 1, rst := 0x0, werr := .none, lock := .none,
    flds := [⟨AEN_TRS_CLAMPED, .ro, .any⟩, ⟨AEN_TRS_ENVERR, .ro, .any⟩,
      ⟨AEN_TRS_SRC, .ro, .any⟩, ⟨AEN_TRS_TGT, .ro, .any⟩] },
  { off := 0x6000, s1 := 0x10, c1 := 512, s2 := 0x4, c2 := 1, rst := 0x0, werr := .none, lock := .none,
    flds := [⟨AEN_ELO_LO, .rw, .any⟩] },
  { off := 0x6004, s1 := 0x10, c1 := 512, s2 := 0x4, c2 := 1, rst := 0x0, werr := .none, lock := .none,
    flds := [⟨AEN_EHI_HI, .rw, .any⟩] },
  { off := 0x6008, s1 := 0x10, c1 := 512, s2 := 0x4, c2 := 1, rst := 0x0, werr := .none, lock := .none,
    flds := [⟨AEN_ESL_SLEW, .rw, .any⟩] } ]

/-- Registers of block OUT, part 1. -/
def rowsOUT0 : List Row :=
  [
  { off := 0x0, s1 := 0x4, c1 := 1, s2 := 0x4, c2 := 1, rst := 0x0, werr := .bit 0, lock := .none,
    flds := [⟨OUT_ENI_EN, .rw, .any⟩] },
  { off := 0x4, s1 := 0x4, c1 := 1, s2 := 0x4, c2 := 1, rst := 0x0, werr := .bit 1, lock := .none,
    flds := [⟨OUT_ENG_EN, .rw, .any⟩] },
  { off := 0x8, s1 := 0x4, c1 := 1, s2 := 0x4, c2 := 1, rst := 0x0, werr := .bit 2, lock := .none,
    flds := [⟨OUT_ENA_EN, .rw, .any⟩] },
  { off := 0xc, s1 := 0x4, c1 := 1, s2 := 0x4, c2 := 1, rst := 0x0, werr := .none, lock := .none,
    flds := [⟨OUT_ACTI_ACT, .ro, .any⟩] },
  { off := 0x10, s1 := 0x4, c1 := 1, s2 := 0x4, c2 := 1, rst := 0x0, werr := .none, lock := .none,
    flds := [⟨OUT_ACTG_ACT, .ro, .any⟩] },
  { off := 0x14, s1 := 0x4, c1 := 1, s2 := 0x4, c2 := 1, rst := 0x0, werr := .none, lock := .none,
    flds := [⟨OUT_SOFTG_SOFT, .ro, .any⟩] },
  { off := 0x18, s1 := 0x4, c1 := 1, s2 := 0x4, c2 := 1, rst := 0x0, werr := .none, lock := .none,
    flds := [⟨OUT_LVLA_LVL, .ro, .any⟩] },
  { off := 0x1c, s1 := 0x4, c1 := 1, s2 := 0x4, c2 := 1, rst := 0x0, werr := .none, lock := .none,
    flds := [⟨OUT_EVT_ANY, .w1c, .any⟩] },
  { off := 0x20, s1 := 0x4, c1 := 1, s2 := 0x4, c2 := 1, rst := 0x0, werr := .none, lock := .none,
    flds := [⟨OUT_WERR_ANY, .w1c, .any⟩] },
  { off := 0x24, s1 := 0x4, c1 := 1, s2 := 0x4, c2 := 1, rst := 0x0, werr := .none, lock := .none,
    flds := [⟨OUT_WERRA_OFFSET, .ro, .any⟩] },
  { off := 0x100, s1 := 0x4, c1 := 12, s2 := 0x4, c2 := 1, rst := 0x9c4, werr := .bit 3, lock := .none,
    flds := [⟨OUT_INJ_MINOFF, .rw, .u 1 65535⟩] },
  { off := 0x200, s1 := 0x4, c1 := 24, s2 := 0x4, c2 := 1, rst := 0x30d4, werr := .bit 4, lock := .ign,
    flds := [⟨OUT_IGN_MINOFF, .rw, .u 1 65535⟩, ⟨OUT_IGN_INV, .rwc, .any⟩] } ]

/-- Registers of block OUT, part 2. -/
def rowsOUT1 : List Row :=
  [
  { off := 0x400, s1 := 0x10, c1 := 16, s2 := 0x4, c2 := 1, rst := 0x10000, werr := .bit 5, lock := .aout,
    flds := [⟨OUT_AOUT_IDLE, .rwc, .any⟩, ⟨OUT_AOUT_MODE, .rwc, .any⟩,
      ⟨OUT_AOUT_MINOFF, .rw, .u 1 65535⟩] },
  { off := 0x404, s1 := 0x10, c1 := 16, s2 := 0x4, c2 := 1, rst := 0x0, werr := .bit 5, lock := .none,
    flds := [⟨OUT_ASET_SET, .rw, .any⟩] },
  { off := 0x408, s1 := 0x10, c1 := 16, s2 := 0x4, c2 := 1, rst := 0x800000, werr := .bit 5, lock := .none,
    flds := [⟨OUT_ACLR_CLR, .rw, .any⟩] } ]

/-- Registers of block INJ, part 1. -/
def rowsINJ0 : List Row :=
  [
  { off := 0x0, s1 := 0x4, c1 := 1, s2 := 0x4, c2 := 1, rst := 0x0, werr := .bit 0, lock := .none,
    flds := [⟨INJ_CTRL_EN, .rw, .any⟩, ⟨INJ_CTRL_GEN, .rw, .any⟩] },
  { off := 0x4, s1 := 0x4, c1 := 1, s2 := 0x4, c2 := 1, rst := 0x0, werr := .none, lock := .none,
    flds := [⟨INJ_APPLIED_EN, .ro, .any⟩, ⟨INJ_APPLIED_GEN, .ro, .any⟩] },
  { off := 0x8, s1 := 0x4, c1 := 1, s2 := 0x4, c2 := 1, rst := 0x0, werr := .none, lock := .none,
    flds := [⟨INJ_STAT_LS, .ro, .any⟩, ⟨INJ_STAT_HS, .ro, .any⟩,
      ⟨INJ_STAT_LATCH, .ro, .any⟩] },
  { off := 0xc, s1 := 0x4, c1 := 1, s2 := 0x4, c2 := 1, rst := 0x0, werr := .none, lock := .none,
    flds := [⟨INJ_EVT_ANY, .w1c, .any⟩] },
  { off := 0x10, s1 := 0x4, c1 := 1, s2 := 0x4, c2 := 1, rst := 0x0, werr := .none, lock := .none,
    flds := [⟨INJ_WERR_ANY, .w1c, .any⟩] },
  { off := 0x14, s1 := 0x4, c1 := 1, s2 := 0x4, c2 := 1, rst := 0x0, werr := .none, lock := .none,
    flds := [⟨INJ_WERRA_OFFSET, .ro, .any⟩] },
  { off := 0x18, s1 := 0x4, c1 := 1, s2 := 0x4, c2 := 1, rst := 0x1, werr := .bit 1, lock := .none,
    flds := [⟨INJ_ALRT_HOLDU, .rw, .any⟩, ⟨INJ_ALRT_REL, .wo, .any⟩,
      ⟨INJ_ALRT_LOW, .ro, .any⟩, ⟨INJ_ALRT_CAUSE, .ro, .any⟩] },
  { off := 0x1c, s1 := 0x4, c1 := 1, s2 := 0x4, c2 := 1, rst := 0x0, werr := .bit 2, lock := .none,
    flds := [⟨INJ_CLASP_CL, .rw, .any⟩] },
  { off := 0x20, s1 := 0x4, c1 := 1, s2 := 0x4, c2 := 1, rst := 0x70000, werr := .bit 3, lock := .injAll,
    flds := [⟨INJ_RPT_EN, .rw, .any⟩, ⟨INJ_RPT_QUE, .rwc, .any⟩,
      ⟨INJ_RPT_KINDS, .rw, .any⟩] },
  { off := 0x24, s1 := 0x4, c1 := 1, s2 := 0x4, c2 := 1, rst := 0x0, werr := .none, lock := .none,
    flds := [⟨INJ_FCLR_CH, .wo, .any⟩] },
  { off := 0x28, s1 := 0x4, c1 := 1, s2 := 0x4, c2 := 1, rst := 0x0, werr := .bit 4, lock := .none,
    flds := [⟨INJ_DIAG_GO, .wo, .any⟩, ⟨INJ_DIAG_BANKS, .wo, .any⟩,
      ⟨INJ_DIAG_BUSY, .ro, .any⟩] },
  { off := 0x40, s1 := 0x10, c1 := 2, s2 := 0x4, c2 := 1, rst := 0x1e0, werr := .bit 5, lock := .none,
    flds := [⟨INJ_BST_VSET, .rw, .u 240 720⟩, ⟨INJ_BST_EN, .rw, .any⟩] } ]

/-- Registers of block INJ, part 2. -/
def rowsINJ1 : List Row :=
  [
  { off := 0x44, s1 := 0x10, c1 := 2, s2 := 0x4, c2 := 1, rst := 0x444, werr := .bit 5, lock := .injBst,
    flds := [⟨INJ_BFB_K, .rwc, .u 200 2000⟩] },
  { off := 0x48, s1 := 0x10, c1 := 2, s2 := 0x4, c2 := 1, rst := 0x2a80190, werr := .bit 5, lock := .none,
    flds := [⟨INJ_BLIM_UV, .rw, .u 200 710⟩, ⟨INJ_BLIM_OV, .rw, .u 300 760⟩] },
  { off := 0x4c, s1 := 0x10, c1 := 2, s2 := 0x4, c2 := 1, rst := 0x0, werr := .none, lock := .none,
    flds := [⟨INJ_BV_VHV, .ro, .any⟩, ⟨INJ_BV_VFB, .ro, .any⟩] },
  { off := 0x80, s1 := 0x10, c1 := 4, s2 := 0x4, c2 := 1, rst := 0x1f40000, werr := .bit 6, lock := .injBank,
    flds := [⟨INJ_BANK_SUP, .rwc, .any⟩, ⟨INJ_BANK_SHMAX, .rw, .u 0 2000⟩] },
  { off := 0x84, s1 := 0x10, c1 := 4, s2 := 0x4, c2 := 1, rst := 0x0, werr := .none, lock := .none,
    flds := [⟨INJ_BOVL_SHIFT, .ro, .any⟩, ⟨INJ_BOVL_CANC, .ro, .any⟩] },
  { off := 0x88, s1 := 0x10, c1 := 4, s2 := 0x4, c2 := 1, rst := 0x0, werr := .none, lock := .none,
    flds := [⟨INJ_BSH_LAST, .ro, .any⟩] },
  { off := 0x8c, s1 := 0x10, c1 := 4, s2 := 0x4, c2 := 1, rst := 0x0, werr := .none, lock := .none,
    flds := [⟨INJ_DRES_CH0, .ro, .any⟩, ⟨INJ_DRES_CH1, .ro, .any⟩,
      ⟨INJ_DRES_CH2, .ro, .any⟩, ⟨INJ_DRES_SHORT, .ro, .any⟩] },
  { off := 0x100, s1 := 0x20, c1 := 12, s2 := 0x4, c2 := 1, rst := 0x115e3c14, werr := .bit 7, lock := .injCh,
    flds := [⟨INJ_CH_RSH, .rwc, .u 5 100⟩, ⟨INJ_CH_CLAMP, .rw, .u 45 68⟩,
      ⟨INJ_CH_DUTY, .rw, .u 50 500⟩, ⟨INJ_CH_ODET, .rw, .any⟩,
      ⟨INJ_CH_CDET, .rw, .any⟩] },
  { off := 0x104, s1 := 0x20, c1 := 12, s2 := 0x4, c2 := 1, rst := 0x1194, werr := .bit 7, lock := .injCh,
    flds := [⟨INJ_OC_IOC, .rw, .u 100 4500⟩] },
  { off := 0x108, s1 := 0x20, c1 := 12, s2 := 0x4, c2 := 1, rst := 0x3208, werr := .bit 7, lock := .injCh,
    flds := [⟨INJ_ADP_EN, .rw, .any⟩, ⟨INJ_ADP_ARATE, .rw, .u 1 8⟩,
      ⟨INJ_ADP_OUTL, .rw, .u 1 255⟩, ⟨INJ_ADP_TEN, .rw, .any⟩,
      ⟨INJ_ADP_TRI, .rw, .any⟩] },
  { off := 0x10c, s1 := 0x20, c1 := 12, s2 := 0x4, c2 := 1, rst := 0x0, werr := .none, lock := .injCh,
    flds := [⟨INJ_IM_CODE, .ro, .any⟩, ⟨INJ_IM_I, .ro, .any⟩] },
  { off := 0x110, s1 := 0x20, c1 := 12, s2 := 0x4, c2 := 1, rst := 0x0, werr := .bit 7, lock := .injCh,
    flds := [⟨INJ_OD_OD, .rw, .any⟩, ⟨INJ_OD_NVAL, .ro, .any⟩] } ]

/-- Registers of block INJ, part 3. -/
def rowsINJ2 : List Row :=
  [
  { off := 0x114, s1 := 0x20, c1 := 12, s2 := 0x4, c2 := 1, rst := 0x0, werr := .bit 7, lock := .injCh,
    flds := [⟨INJ_CD_CD, .rw, .any⟩, ⟨INJ_CD_NVAL, .ro, .any⟩] },
  { off := 0x118, s1 := 0x20, c1 := 12, s2 := 0x4, c2 := 1, rst := 0x0, werr := .none, lock := .injCh,
    flds := [⟨INJ_DUTY_SUM, .ro, .any⟩, ⟨INJ_DUTY_LIM, .ro, .any⟩] },
  { off := 0x11c, s1 := 0x20, c1 := 12, s2 := 0x4, c2 := 1, rst := 0x0, werr := .none, lock := .injCh,
    flds := [⟨INJ_FST_ANY, .w1c, .any⟩] },
  { off := 0x400, s1 := 0x20, c1 := 16, s2 := 0x4, c2 := 1, rst := 0x4e200000, werr := .bit 8, lock := .none,
    flds := [⟨INJ_PROF_IBST, .rw, .u 0 4000⟩, ⟨INJ_PROF_MODE, .rw, .any⟩,
      ⟨INJ_PROF_PHDEC, .rw, .any⟩, ⟨INJ_PROF_TBMAX, .rw, .u 100 65535⟩] },
  { off := 0x404, s1 := 0x20, c1 := 16, s2 := 0x4, c2 := 1, rst := 0x0, werr := .bit 8, lock := .none,
    flds := [⟨INJ_PK_IPK, .rw, .u 0 4000⟩, ⟨INJ_PK_TPK, .rw, .any⟩] },
  { off := 0x408, s1 := 0x20, c1 := 16, s2 := 0x4, c2 := 1, rst := 0x320000, werr := .bit 8, lock := .none,
    flds := [⟨INJ_HLD_IHLD, .rw, .u 0 4000⟩, ⟨INJ_HLD_HYST, .rw, .u 5 255⟩] },
  { off := 0x40c, s1 := 0x20, c1 := 16, s2 := 0x4, c2 := 1, rst := 0x64, werr := .bit 8, lock := .none,
    flds := [⟨INJ_DTH_DFREQ, .rw, .u 50 500⟩, ⟨INJ_DTH_DAMP, .rw, .u 0 1000⟩] },
  { off := 0x410, s1 := 0x20, c1 := 16, s2 := 0x4, c2 := 1, rst := 0x6480064, werr := .bit 8, lock := .none,
    flds := [⟨INJ_DET_OBLK, .rw, .any⟩, ⟨INJ_DET_OFRAC, .rw, .u 2 14⟩,
      ⟨INJ_DET_ICLS, .rw, .u 0 4000⟩] } ]

/-- Registers of block PWM, part 1. -/
def rowsPWM0 : List Row :=
  [
  { off := 0x0, s1 := 0x4, c1 := 1, s2 := 0x4, c2 := 1, rst := 0x0, werr := .bit 0, lock := .none,
    flds := [⟨PWM_CTRL_EN, .rw, .any⟩, ⟨PWM_CTRL_GEN, .rw, .any⟩] },
  { off := 0x4, s1 := 0x4, c1 := 1, s2 := 0x4, c2 := 1, rst := 0x0, werr := .none, lock := .none,
    flds := [⟨PWM_APPLIED_EN, .ro, .any⟩, ⟨PWM_APPLIED_GEN, .ro, .any⟩] },
  { off := 0x8, s1 := 0x4, c1 := 1, s2 := 0x4, c2 := 1, rst := 0x0, werr := .none, lock := .none,
    flds := [⟨PWM_EVT_ANY, .w1c, .any⟩] },
  { off := 0xc, s1 := 0x4, c1 := 1, s2 := 0x4, c2 := 1, rst := 0x0, werr := .none, lock := .none,
    flds := [⟨PWM_WERR_ANY, .w1c, .any⟩] },
  { off := 0x10, s1 := 0x4, c1 := 1, s2 := 0x4, c2 := 1, rst := 0x0, werr := .none, lock := .none,
    flds := [⟨PWM_WERRA_OFFSET, .ro, .any⟩] },
  { off := 0x14, s1 := 0x4, c1 := 1, s2 := 0x4, c2 := 1, rst := 0x0, werr := .bit 1, lock := .none,
    flds := [⟨PWM_SAFECMD_PAIR, .wo, .any⟩] },
  { off := 0x18, s1 := 0x4, c1 := 1, s2 := 0x4, c2 := 1, rst := 0x0, werr := .bit 1, lock := .none,
    flds := [⟨PWM_RESUME_PAIR, .wo, .any⟩] },
  { off := 0x1c, s1 := 0x4, c1 := 1, s2 := 0x4, c2 := 1, rst := 0x0, werr := .bit 1, lock := .none,
    flds := [⟨PWM_CMUT_PAIR, .wo, .any⟩] },
  { off := 0x80, s1 := 0x10, c1 := 2, s2 := 0x4, c2 := 1, rst := 0x3520028, werr := .bit 6, lock := .pwmBst,
    flds := [⟨PWM_BST_BLANK, .rw, .u 4 255⟩, ⟨PWM_BST_DMAX, .rw, .u 100 950⟩,
      ⟨PWM_BST_SRMODE, .rwc, .any⟩] },
  { off := 0x84, s1 := 0x10, c1 := 2, s2 := 0x4, c2 := 1, rst := 0x190, werr := .bit 6, lock := .none,
    flds := [⟨PWM_BSR_SRTON, .rw, .u 1 65535⟩] },
  { off := 0x88, s1 := 0x10, c1 := 2, s2 := 0x4, c2 := 1, rst := 0x0, werr := .none, lock := .none,
    flds := [⟨PWM_BCNT_SKIP, .ro, .any⟩, ⟨PWM_BCNT_MAXD, .ro, .any⟩] },
  { off := 0x100, s1 := 0x40, c1 := 10, s2 := 0x4, c2 := 1, rst := 0xa00, werr := .bit 2, lock := .pwm,
    flds := [⟨PWM_CFG_MODE, .rwc, .any⟩, ⟨PWM_CFG_OUTM, .rwc, .u 0 2⟩,
      ⟨PWM_CFG_SHORT, .rw, .any⟩, ⟨PWM_CFG_MINW, .rwc, .u 1 255⟩] } ]

/-- Registers of block PWM, part 2. -/
def rowsPWM1 : List Row :=
  [
  { off := 0x104, s1 := 0x40, c1 := 10, s2 := 0x4, c2 := 1, rst := 0x270f, werr := .bit 3, lock := .pwm,
    flds := [⟨PWM_PER_TOP, .rw, .u 2 65535⟩] },
  { off := 0x108, s1 := 0x40, c1 := 10, s2 := 0x4, c2 := 1, rst := 0x0, werr := .bit 3, lock := .pwm,
    flds := [⟨PWM_DUT_DUTY, .rw, .any⟩] },
  { off := 0x10c, s1 := 0x40, c1 := 10, s2 := 0x4, c2 := 1, rst := 0x0, werr := .bit 3, lock := .pwm,
    flds := [⟨PWM_CMIT_COMMIT, .wo, .any⟩] },
  { off := 0x110, s1 := 0x40, c1 := 10, s2 := 0x4, c2 := 1, rst := 0x270f, werr := .none, lock := .pwm,
    flds := [⟨PWM_ACT_TOP, .ro, .any⟩, ⟨PWM_ACT_DUTY, .ro, .any⟩] },
  { off := 0x114, s1 := 0x40, c1 := 10, s2 := 0x4, c2 := 1, rst := 0x20280004, werr := .bit 4, lock := .pwm,
    flds := [⟨PWM_DT_DTMIN, .rwc, .u 4 400⟩, ⟨PWM_DT_DTMAX, .rwc, .u 4 400⟩,
      ⟨PWM_DT_MARGIN, .rw, .any⟩] },
  { off := 0x118, s1 := 0x40, c1 := 10, s2 := 0x4, c2 := 1, rst := 0x2c04, werr := .bit 4, lock := .pwm,
    flds := [⟨PWM_SWT_FTH, .rw, .u 1 144⟩, ⟨PWM_SWT_RTH, .rw, .u 1 144⟩] },
  { off := 0x11c, s1 := 0x40, c1 := 10, s2 := 0x4, c2 := 1, rst := 0x0, werr := .bit 2, lock := .pwm,
    flds := [⟨PWM_SAFE_SDUTY, .rw, .u 0 1000⟩] },
  { off := 0x120, s1 := 0x40, c1 := 10, s2 := 0x4, c2 := 1, rst := 0x0, werr := .bit 5, lock := .pwm,
    flds := [⟨PWM_TRG_TPOS, .rw, .any⟩, ⟨PWM_TRG_TDIR, .rw, .any⟩,
      ⟨PWM_TRG_TPRE, .rw, .any⟩, ⟨PWM_TRG_IPRE, .rw, .any⟩,
      ⟨PWM_TRG_TEN, .rw, .any⟩] },
  { off := 0x124, s1 := 0x40, c1 := 10, s2 := 0x4, c2 := 1, rst := 0x200000, werr := .bit 2, lock := .pwm,
    flds := [⟨PWM_MSK_NEXT, .rw, .any⟩, ⟨PWM_MSK_APPL, .ro, .any⟩,
      ⟨PWM_MSK_CSRC, .rwc, .u 0 32⟩] },
  { off := 0x128, s1 := 0x40, c1 := 10, s2 := 0x4, c2 := 1, rst := 0x0, werr := .none, lock := .pwm,
    flds := [⟨PWM_MEAS_DHL, .ro, .any⟩, ⟨PWM_MEAS_DLH, .ro, .any⟩] },
  { off := 0x12c, s1 := 0x40, c1 := 10, s2 := 0x4, c2 := 1, rst := 0x0, werr := .none, lock := .pwm,
    flds := [⟨PWM_CNT_CNT, .ro, .any⟩, ⟨PWM_CNT_DOWN, .ro, .any⟩,
      ⟨PWM_CNT_SAFE, .ro, .any⟩, ⟨PWM_CNT_CPEND, .ro, .any⟩] },
  { off := 0x130, s1 := 0x40, c1 := 10, s2 := 0x4, c2 := 1, rst := 0x0, werr := .none, lock := .pwm,
    flds := [⟨PWM_ST_ANY, .w1c, .any⟩] } ]

/-- Registers of block PWM, part 3. -/
def rowsPWM2 : List Row :=
  [
  { off := 0x134, s1 := 0x40, c1 := 10, s2 := 0x4, c2 := 1, rst := 0x0, werr := .none, lock := .pwm,
    flds := [⟨PWM_SCNT_SHORT, .ro, .any⟩, ⟨PWM_SCNT_NODE, .ro, .any⟩] } ]

/-- Registers of block CMP, part 1. -/
def rowsCMP0 : List Row :=
  [
  { off := 0x0, s1 := 0x4, c1 := 1, s2 := 0x4, c2 := 1, rst := 0xff00, werr := .none, lock := .none,
    flds := [⟨CMP_STAT_LVL, .ro, .any⟩, ⟨CMP_STAT_FORCE, .ro, .any⟩,
      ⟨CMP_STAT_RAMP, .ro, .any⟩] },
  { off := 0x4, s1 := 0x4, c1 := 1, s2 := 0x4, c2 := 1, rst := 0x0, werr := .none, lock := .none,
    flds := [⟨CMP_EVT_ANY, .w1c, .any⟩] },
  { off := 0x8, s1 := 0x4, c1 := 1, s2 := 0x4, c2 := 1, rst := 0x0, werr := .bit 2, lock := .none,
    flds := [⟨CMP_WAKE_EN, .rw, .any⟩, ⟨CMP_WAKE_FALL, .rw, .any⟩] },
  { off := 0xc, s1 := 0x4, c1 := 1, s2 := 0x4, c2 := 1, rst := 0x0, werr := .none, lock := .none,
    flds := [⟨CMP_WERR_ANY, .w1c, .any⟩] },
  { off := 0x10, s1 := 0x4, c1 := 1, s2 := 0x4, c2 := 1, rst := 0x0, werr := .none, lock := .none,
    flds := [⟨CMP_WERRA_OFFSET, .ro, .any⟩] },
  { off := 0x100, s1 := 0x10, c1 := 8, s2 := 0x4, c2 := 1, rst := 0x200, werr := .bit 0, lock := .cmp,
    flds := [⟨CMP_CFG_EN, .rw, .any⟩, ⟨CMP_CFG_MODE, .rwc, .any⟩,
      ⟨CMP_CFG_BST, .rwc, .any⟩, ⟨CMP_CFG_EFILT, .rw, .any⟩] },
  { off := 0x104, s1 := 0x10, c1 := 8, s2 := 0x4, c2 := 1, rst := 0x0, werr := .bit 1, lock := .none,
    flds := [⟨CMP_THR_THR, .rw, .any⟩, ⟨CMP_THR_RAMP, .rw, .any⟩] },
  { off := 0x108, s1 := 0x10, c1 := 8, s2 := 0x4, c2 := 1, rst := 0x0, werr := .none, lock := .none,
    flds := [⟨CMP_CNT_RISE, .ro, .any⟩, ⟨CMP_CNT_FALL, .ro, .any⟩] } ]

/-- Registers of block FADC, part 1. -/
def rowsFADC0 : List Row :=
  [
  { off := 0x0, s1 := 0x4, c1 := 1, s2 := 0x4, c2 := 1, rst := 0x0, werr := .bit 0, lock := .none,
    flds := [⟨FADC_CTRL_EN, .rw, .any⟩] },
  { off := 0x4, s1 := 0x4, c1 := 1, s2 := 0x4, c2 := 1, rst := 0x0, werr := .none, lock := .none,
    flds := [⟨FADC_STAT_RRUN, .ro, .any⟩, ⟨FADC_STAT_JRUN, .ro, .any⟩,
      ⟨FADC_STAT_CAL, .ro, .any⟩, ⟨FADC_STAT_RPEND, .ro, .any⟩,
      ⟨FADC_STAT_JPEND, .ro, .any⟩] },
  { off := 0x8, s1 := 0x4, c1 := 1, s2 := 0x4, c2 := 1, rst := 0x0, werr := .none, lock := .none,
    flds := [⟨FADC_EVT_ANY, .w1c, .any⟩] },
  { off := 0xc, s1 := 0x4, c1 := 1, s2 := 0x4, c2 := 1, rst := 0x0, werr := .none, lock := .none,
    flds := [⟨FADC_WERR_ANY, .w1c, .any⟩] },
  { off := 0x10, s1 := 0x4, c1 := 1, s2 := 0x4, c2 := 1, rst := 0x0, werr := .none, lock := .none,
    flds := [⟨FADC_WERRA_OFFSET, .ro, .any⟩] },
  { off := 0x14, s1 := 0x4, c1 := 1, s2 := 0x4, c2 := 1, rst := 0x0, werr := .bit 1, lock := .none,
    flds := [⟨FADC_CMD_RSW, .wo, .any⟩, ⟨FADC_CMD_JSW, .wo, .any⟩,
      ⟨FADC_CMD_SCAL, .wo, .any⟩] },
  { off := 0x18, s1 := 0x4, c1 := 1, s2 := 0x4, c2 := 1, rst := 0x0, werr := .bit 2, lock := .none,
    flds := [⟨FADC_TDAC_CODE, .rw, .any⟩, ⟨FADC_TDAC_INPUT, .rw, .any⟩,
      ⟨FADC_TDAC_MODE, .rw, .u 0 2⟩] },
  { off := 0x100, s1 := 0x100, c1 := 4, s2 := 0x4, c2 := 1, rst := 0x200020, werr := .bit 3, lock := .none,
    flds := [⟨FADC_CFG_RTRIG, .rw, .u 0 32⟩, ⟨FADC_CFG_RLEN, .rw, .any⟩,
      ⟨FADC_CFG_JTRIG, .rw, .u 0 32⟩, ⟨FADC_CFG_JLEN, .rw, .any⟩,
      ⟨FADC_CFG_LLEN, .rw, .u 0 16⟩] },
  { off := 0x104, s1 := 0x100, c1 := 4, s2 := 0x4, c2 := 1, rst := 0x0, werr := .bit 4, lock := .none,
    flds := [⟨FADC_DLY_RDLY, .rw, .any⟩, ⟨FADC_DLY_JDLY, .rw, .any⟩] },
  { off := 0x108, s1 := 0x100, c1 := 4, s2 := 0x4, c2 := 1, rst := 0x0, werr := .bit 5, lock := .none,
    flds := [⟨FADC_OPT_QUE, .rw, .any⟩, ⟨FADC_OPT_QEN, .rw, .any⟩,
      ⟨FADC_OPT_CALG, .rw, .any⟩] },
  { off := 0x10c, s1 := 0x100, c1 := 4, s2 := 0x4, c2 := 1, rst := 0x0, werr := .none, lock := .none,
    flds := [⟨FADC_CNT_OVR, .ro, .any⟩, ⟨FADC_CNT_TOVR, .ro, .any⟩,
      ⟨FADC_CNT_DLY, .ro, .any⟩] },
  { off := 0x110, s1 := 0x100, c1 := 4, s2 := 0x4, c2 := 4, rst := 0x0, werr := .bit 6, lock := .none,
    flds := [⟨FADC_RSQ_E0, .rw, .any⟩, ⟨FADC_RSQ_E1, .rw, .any⟩,
      ⟨FADC_RSQ_E2, .rw, .any⟩, ⟨FADC_RSQ_E3, .rw, .any⟩] } ]

/-- Registers of block FADC, part 2. -/
def rowsFADC1 : List Row :=
  [
  { off := 0x120, s1 := 0x100, c1 := 4, s2 := 0x4, c2 := 1, rst := 0x0, werr := .bit 6, lock := .none,
    flds := [⟨FADC_JSQ_E0, .rw, .any⟩, ⟨FADC_JSQ_E1, .rw, .any⟩,
      ⟨FADC_JSQ_E2, .rw, .any⟩, ⟨FADC_JSQ_E3, .rw, .any⟩] },
  { off := 0x130, s1 := 0x100, c1 := 4, s2 := 0x4, c2 := 4, rst := 0x0, werr := .bit 6, lock := .none,
    flds := [⟨FADC_LSQ_E0, .rw, .any⟩, ⟨FADC_LSQ_E1, .rw, .any⟩,
      ⟨FADC_LSQ_E2, .rw, .any⟩, ⟨FADC_LSQ_E3, .rw, .any⟩] },
  { off := 0x140, s1 := 0x100, c1 := 4, s2 := 0x4, c2 := 16, rst := 0x0, werr := .none, lock := .none,
    flds := [⟨FADC_RDAT_RESULT, .ro, .any⟩] },
  { off := 0x180, s1 := 0x100, c1 := 4, s2 := 0x4, c2 := 4, rst := 0x0, werr := .none, lock := .none,
    flds := [⟨FADC_JDAT_RESULT, .ro, .any⟩] },
  { off := 0x190, s1 := 0x100, c1 := 4, s2 := 0x4, c2 := 4, rst := 0x80000000, werr := .bit 5, lock := .none,
    flds := [⟨FADC_CAL_OFS, .rw, .s (-4095) (4095)⟩, ⟨FADC_CAL_GC, .rw, .u 16384 49151⟩] },
  { off := 0x1000, s1 := 0x10, c1 := 48, s2 := 0x4, c2 := 1, rst := 0x400, werr := .bit 7, lock := .none,
    flds := [⟨FADC_CH_GAIN, .rw, .any⟩, ⟨FADC_CH_NWIN, .rw, .u 1 15⟩,
      ⟨FADC_CH_TOUT, .rw, .any⟩] },
  { off := 0x1004, s1 := 0x10, c1 := 48, s2 := 0x4, c2 := 1, rst := 0xffff0000, werr := .bit 7, lock := .none,
    flds := [⟨FADC_WIN_LO, .rw, .any⟩, ⟨FADC_WIN_HI, .rw, .any⟩] },
  { off := 0x1008, s1 := 0x10, c1 := 48, s2 := 0x4, c2 := 1, rst := 0x0, werr := .none, lock := .none,
    flds := [⟨FADC_LAST_RESULT, .ro, .any⟩] } ]

/-- Registers of block PADC, part 1. -/
def rowsPADC0 : List Row :=
  [
  { off := 0x0, s1 := 0x4, c1 := 1, s2 := 0x4, c2 := 1, rst := 0x0, werr := .bit 0, lock := .none,
    flds := [⟨PADC_CTRL_EN, .rw, .any⟩] },
  { off := 0x4, s1 := 0x4, c1 := 1, s2 := 0x4, c2 := 1, rst := 0x0, werr := .none, lock := .none,
    flds := [⟨PADC_STAT_CAL, .ro, .any⟩, ⟨PADC_STAT_LOCK, .ro, .any⟩,
      ⟨PADC_STAT_XRUN, .ro, .any⟩] },
  { off := 0x8, s1 := 0x4, c1 := 1, s2 := 0x4, c2 := 1, rst := 0x0, werr := .none, lock := .none,
    flds := [⟨PADC_EVT_ANY, .w1c, .any⟩] },
  { off := 0xc, s1 := 0x4, c1 := 1, s2 := 0x4, c2 := 1, rst := 0x0, werr := .none, lock := .none,
    flds := [⟨PADC_WERR_ANY, .w1c, .any⟩] },
  { off := 0x10, s1 := 0x4, c1 := 1, s2 := 0x4, c2 := 1, rst := 0x0, werr := .none, lock := .none,
    flds := [⟨PADC_WERRA_OFFSET, .ro, .any⟩] },
  { off := 0x14, s1 := 0x4, c1 := 1, s2 := 0x4, c2 := 1, rst := 0x0, werr := .bit 1, lock := .none,
    flds := [⟨PADC_CMD_SCAL, .wo, .any⟩] },
  { off := 0x18, s1 := 0x4, c1 := 1, s2 := 0x4, c2 := 1, rst := 0x0, werr := .none, lock := .none,
    flds := [⟨PADC_GRID_TM, .ro, .any⟩] },
  { off := 0x1c, s1 := 0x4, c1 := 1, s2 := 0x4, c2 := 1, rst := 0x100000, werr := .bit 2, lock := .none,
    flds := [⟨PADC_XCFG_EN, .rw, .any⟩, ⟨PADC_XCFG_SRC, .rw, .any⟩,
      ⟨PADC_XCFG_SEL, .rw, .u 0 47⟩, ⟨PADC_XCFG_XINT, .rw, .u 1 65535⟩] },
  { off := 0x20, s1 := 0x4, c1 := 1, s2 := 0x4, c2 := 1, rst := 0x7d000c8, werr := .bit 2, lock := .none,
    flds := [⟨PADC_XTOL_PTOL, .rw, .u 1 65535⟩, ⟨PADC_XTOL_FTOL, .rw, .u 1 65535⟩] },
  { off := 0x24, s1 := 0x4, c1 := 1, s2 := 0x4, c2 := 1, rst := 0x0, werr := .none, lock := .none,
    flds := [⟨PADC_XRES_DP, .ro, .any⟩, ⟨PADC_XRES_DF, .ro, .any⟩] },
  { off := 0x28, s1 := 0x4, c1 := 1, s2 := 0x4, c2 := 1, rst := 0x0, werr := .none, lock := .none,
    flds := [⟨PADC_XSTAT_NOFAST, .ro, .any⟩, ⟨PADC_XSTAT_FAIL, .ro, .any⟩] },
  { off := 0x100, s1 := 0x80, c1 := 2, s2 := 0x4, c2 := 1, rst := 0x10100, werr := .bit 3, lock := .none,
    flds := [⟨PADC_CFG_LOCK, .rw, .any⟩, ⟨PADC_CFG_FILT, .rw, .u 0 2⟩,
      ⟨PADC_CFG_MULT, .rw, .u 1 50⟩, ⟨PADC_CFG_LEN, .rw, .u 1 16⟩] } ]

/-- Registers of block PADC, part 2. -/
def rowsPADC1 : List Row :=
  [
  { off := 0x104, s1 := 0x80, c1 := 2, s2 := 0x4, c2 := 1, rst := 0x4e20, werr := .bit 3, lock := .none,
    flds := [⟨PADC_PER_PER, .rw, .u 1000 1000000⟩] },
  { off := 0x108, s1 := 0x80, c1 := 2, s2 := 0x4, c2 := 4, rst := 0x0, werr := .bit 4, lock := .none,
    flds := [⟨PADC_LST_CH0, .rw, .any⟩, ⟨PADC_LST_REP0, .rw, .any⟩,
      ⟨PADC_LST_CH1, .rw, .any⟩, ⟨PADC_LST_REP1, .rw, .any⟩,
      ⟨PADC_LST_CH2, .rw, .any⟩, ⟨PADC_LST_REP2, .rw, .any⟩,
      ⟨PADC_LST_CH3, .rw, .any⟩, ⟨PADC_LST_REP3, .rw, .any⟩] },
  { off := 0x118, s1 := 0x80, c1 := 2, s2 := 0x4, c2 := 1, rst := 0x0, werr := .bit 5, lock := .none,
    flds := [⟨PADC_OFS_OFS, .rw, .s (-65536) (65535)⟩] },
  { off := 0x11c, s1 := 0x80, c1 := 2, s2 := 0x4, c2 := 1, rst := 0x400000, werr := .bit 5, lock := .none,
    flds := [⟨PADC_GC_GC, .rw, .u 2097152 6291455⟩] },
  { off := 0x120, s1 := 0x80, c1 := 2, s2 := 0x4, c2 := 1, rst := 0x0, werr := .none, lock := .none,
    flds := [⟨PADC_RES_WORD, .ro, .any⟩] },
  { off := 0x124, s1 := 0x80, c1 := 2, s2 := 0x4, c2 := 1, rst := 0x0, werr := .bit 3, lock := .none,
    flds := [⟨PADC_OPT_QUE, .rw, .any⟩, ⟨PADC_OPT_QEN, .rw, .any⟩] },
  { off := 0x128, s1 := 0x80, c1 := 2, s2 := 0x4, c2 := 1, rst := 0x0, werr := .none, lock := .none,
    flds := [⟨PADC_CNT_OVR, .ro, .any⟩, ⟨PADC_CNT_INV, .ro, .any⟩] },
  { off := 0x400, s1 := 0x10, c1 := 16, s2 := 0x4, c2 := 1, rst := 0x200, werr := .bit 6, lock := .none,
    flds := [⟨PADC_CH_DIFF, .rw, .any⟩, ⟨PADC_CH_NWIN, .rw, .u 1 15⟩,
      ⟨PADC_CH_TOUT, .rw, .any⟩] },
  { off := 0x404, s1 := 0x10, c1 := 16, s2 := 0x4, c2 := 1, rst := 0x0, werr := .bit 6, lock := .none,
    flds := [⟨PADC_WLO_LO, .rw, .any⟩] },
  { off := 0x408, s1 := 0x10, c1 := 16, s2 := 0x4, c2 := 1, rst := 0xffffff, werr := .bit 6, lock := .none,
    flds := [⟨PADC_WHI_HI, .rw, .any⟩] },
  { off := 0x40c, s1 := 0x10, c1 := 16, s2 := 0x4, c2 := 1, rst := 0x0, werr := .none, lock := .none,
    flds := [⟨PADC_LAST_WORD, .ro, .any⟩] } ]

/-- Registers of block CMB, part 1. -/
def rowsCMB0 : List Row :=
  [
  { off := 0x0, s1 := 0x4, c1 := 1, s2 := 0x4, c2 := 1, rst := 0x0, werr := .bit 0, lock := .none,
    flds := [⟨CMB_CTRL_EN, .rw, .any⟩, ⟨CMB_CTRL_GEN, .rw, .any⟩] },
  { off := 0x4, s1 := 0x4, c1 := 1, s2 := 0x4, c2 := 1, rst := 0x0, werr := .none, lock := .none,
    flds := [⟨CMB_APPLIED_EN, .ro, .any⟩, ⟨CMB_APPLIED_GEN, .ro, .any⟩] },
  { off := 0x8, s1 := 0x4, c1 := 1, s2 := 0x4, c2 := 1, rst := 0x3140461, werr := .bit 1, lock := .none,
    flds := [⟨CMB_CFG_ENGCYL, .rw, .u 1 24⟩, ⟨CMB_CFG_MISFL, .rw, .u 1 7⟩,
      ⟨CMB_CFG_RRN, .rw, .u 1 15⟩, ⟨CMB_CFG_BADMAX, .rw, .any⟩,
      ⟨CMB_CFG_BADRUN, .rw, .any⟩] },
  { off := 0xc, s1 := 0x4, c1 := 1, s2 := 0x4, c2 := 1, rst := 0x0, werr := .none, lock := .none,
    flds := [⟨CMB_EVT_ANY, .w1c, .any⟩] },
  { off := 0x10, s1 := 0x4, c1 := 1, s2 := 0x4, c2 := 1, rst := 0x0, werr := .none, lock := .none,
    flds := [⟨CMB_WERR_ANY, .w1c, .any⟩] },
  { off := 0x14, s1 := 0x4, c1 := 1, s2 := 0x4, c2 := 1, rst := 0x0, werr := .none, lock := .none,
    flds := [⟨CMB_WERRA_OFFSET, .ro, .any⟩] },
  { off := 0x18, s1 := 0x4, c1 := 1, s2 := 0x4, c2 := 1, rst := 0x0, werr := .bit 1, lock := .cmbAll,
    flds := [⟨CMB_QCFG_EN, .rw, .any⟩, ⟨CMB_QCFG_QUE, .rwc, .any⟩] },
  { off := 0x1c, s1 := 0x4, c1 := 1, s2 := 0x4, c2 := 1, rst := 0x0, werr := .none, lock := .none,
    flds := [⟨CMB_STAT_COPEN, .ro, .any⟩, ⟨CMB_STAT_WOPEN, .ro, .any⟩,
      ⟨CMB_STAT_PEND, .ro, .any⟩] },
  { off := 0x20, s1 := 0x4, c1 := 1, s2 := 0x4, c2 := 1, rst := 0x0, werr := .none, lock := .none,
    flds := [⟨CMB_CNT_QDROP, .ro, .any⟩, ⟨CMB_CNT_LATE, .ro, .any⟩] },
  { off := 0x24, s1 := 0x4, c1 := 1, s2 := 0x4, c2 := 1, rst := 0x0, werr := .bit 1, lock := .none,
    flds := [⟨CMB_ACFG_INJEN, .rw, .any⟩, ⟨CMB_ACFG_COASTEN, .rw, .any⟩] },
  { off := 0x28, s1 := 0x4, c1 := 1, s2 := 0x4, c2 := 1, rst := 0x0, werr := .none, lock := .none,
    flds := [⟨CMB_ASTAT_INJOK, .ro, .any⟩, ⟨CMB_ASTAT_COAST, .ro, .any⟩] },
  { off := 0x2c, s1 := 0x4, c1 := 1, s2 := 0x4, c2 := 1, rst := 0xffc00000, werr := .bit 1, lock := .cmbAll,
    flds := [⟨CMB_WWS_S, .rwc, .s (-8388608) (8388606)⟩] } ]

/-- Registers of block CMB, part 2. -/
def rowsCMB1 : List Row :=
  [
  { off := 0x30, s1 := 0x4, c1 := 1, s2 := 0x4, c2 := 1, rst := 0x400000, werr := .bit 1, lock := .cmbAll,
    flds := [⟨CMB_WWE_E, .rwc, .any⟩] },
  { off := 0x34, s1 := 0x4, c1 := 1, s2 := 0x4, c2 := 1, rst := 0x3f800000, werr := .bit 1, lock := .cmbAll,
    flds := [⟨CMB_VD_VD, .rwc, .any⟩] },
  { off := 0x38, s1 := 0x4, c1 := 1, s2 := 0x4, c2 := 1, rst := 0x0, werr := .bit 1, lock := .cmbAll,
    flds := [⟨CMB_MISQ_MISQ, .rw, .any⟩] },
  { off := 0x3c, s1 := 0x4, c1 := 1, s2 := 0x4, c2 := 1, rst := 0x0, werr := .bit 1, lock := .cmbAll,
    flds := [⟨CMB_PARTQ_PARTQ, .rw, .any⟩] },
  { off := 0x40, s1 := 0x4, c1 := 1, s2 := 0x4, c2 := 1, rst := 0x0, werr := .bit 1, lock := .cmbAll,
    flds := [⟨CMB_KTHR_KTHR, .rw, .any⟩] },
  { off := 0x44, s1 := 0x4, c1 := 1, s2 := 0x4, c2 := 1, rst := 0x3f99999a, werr := .bit 1, lock := .cmbAll,
    flds := [⟨CMB_NMIN_N, .rw, .any⟩] },
  { off := 0x48, s1 := 0x4, c1 := 1, s2 := 0x4, c2 := 1, rst := 0x3fb9999a, werr := .bit 1, lock := .cmbAll,
    flds := [⟨CMB_NMAX_N, .rw, .any⟩] },
  { off := 0x4c, s1 := 0x4, c1 := 1, s2 := 0x4, c2 := 1, rst := 0x3fa8f5c3, werr := .bit 1, lock := .cmbAll,
    flds := [⟨CMB_NDEF_N, .rw, .any⟩] },
  { off := 0x80, s1 := 0x4, c1 := 10, s2 := 0x4, c2 := 1, rst := 0x0, werr := .bit 1, lock := .none,
    flds := [⟨CMB_KC_COEF, .rw, .any⟩] },
  { off := 0x100, s1 := 0x40, c1 := 12, s2 := 0x4, c2 := 1, rst := 0x4f00, werr := .bit 2, lock := .cmbStr,
    flds := [⟨CMB_CYL_CHAN, .rwc, .u 0 47⟩, ⟨CMB_CYL_INJ, .rwc, .any⟩,
      ⟨CMB_CYL_PEG, .rwc, .u 0 2⟩, ⟨CMB_CYL_NFIT, .rwc, .any⟩] },
  { off := 0x104, s1 := 0x40, c1 := 12, s2 := 0x4, c2 := 1, rst := 0x0, werr := .bit 2, lock := .cmbStr,
    flds := [⟨CMB_TDC_TDC, .rwc, .any⟩] },
  { off := 0x108, s1 := 0x40, c1 := 12, s2 := 0x4, c2 := 1, rst := 0x0, werr := .bit 2, lock := .cmbStr,
    flds := [⟨CMB_GOFS_GOFS, .rwc, .any⟩] } ]

/-- Registers of block CMB, part 3. -/
def rowsCMB2 : List Row :=
  [
  { off := 0x10c, s1 := 0x40, c1 := 12, s2 := 0x4, c2 := 1, rst := 0xffe00000, werr := .bit 2, lock := .cmbStr,
    flds := [⟨CMB_WS_WS, .rwc, .any⟩] },
  { off := 0x110, s1 := 0x40, c1 := 12, s2 := 0x4, c2 := 1, rst := 0x155555, werr := .bit 2, lock := .cmbStr,
    flds := [⟨CMB_WE_WE, .rwc, .any⟩] },
  { off := 0x114, s1 := 0x40, c1 := 12, s2 := 0x4, c2 := 1, rst := 0x0, werr := .bit 2, lock := .cmbStr,
    flds := [⟨CMB_PA_P, .rwc, .any⟩] },
  { off := 0x118, s1 := 0x40, c1 := 12, s2 := 0x4, c2 := 1, rst := 0x0, werr := .bit 2, lock := .cmbStr,
    flds := [⟨CMB_PB_P, .rwc, .any⟩] },
  { off := 0x11c, s1 := 0x40, c1 := 12, s2 := 0x4, c2 := 1, rst := 0x2d83, werr := .bit 2, lock := .cmbStr,
    flds := [⟨CMB_PW_PW, .rwc, .u 1 8388607⟩] },
  { off := 0x120, s1 := 0x40, c1 := 12, s2 := 0x4, c2 := 1, rst := 0x0, werr := .bit 2, lock := .cmbStr,
    flds := [⟨CMB_FA_F, .rwc, .any⟩] },
  { off := 0x124, s1 := 0x40, c1 := 12, s2 := 0x4, c2 := 1, rst := 0x0, werr := .bit 2, lock := .cmbStr,
    flds := [⟨CMB_FB_F, .rwc, .any⟩] },
  { off := 0x128, s1 := 0x40, c1 := 12, s2 := 0x4, c2 := 1, rst := 0x0, werr := .bit 2, lock := .cmbStr,
    flds := [⟨CMB_KA_K, .rwc, .any⟩] },
  { off := 0x12c, s1 := 0x40, c1 := 12, s2 := 0x4, c2 := 1, rst := 0x0, werr := .bit 2, lock := .cmbStr,
    flds := [⟨CMB_KB_K, .rwc, .any⟩] },
  { off := 0x130, s1 := 0x40, c1 := 12, s2 := 0x4, c2 := 1, rst := 0x3f800000, werr := .bit 2, lock := .cmbStr,
    flds := [⟨CMB_SG_SG, .rw, .any⟩] },
  { off := 0x134, s1 := 0x40, c1 := 12, s2 := 0x4, c2 := 1, rst := 0x0, werr := .bit 2, lock := .cmbStr,
    flds := [⟨CMB_SO_SO, .rw, .any⟩] },
  { off := 0x138, s1 := 0x40, c1 := 12, s2 := 0x4, c2 := 1, rst := 0x0, werr := .bit 2, lock := .cmbStr,
    flds := [⟨CMB_PREF_PREF, .rw, .any⟩] } ]

/-- Registers of block CMB, part 4. -/
def rowsCMB3 : List Row :=
  [
  { off := 0x13c, s1 := 0x40, c1 := 12, s2 := 0x4, c2 := 1, rst := 0x0, werr := .none, lock := .cmbStr,
    flds := [⟨CMB_SCNT_INVAL, .ro, .any⟩, ⟨CMB_SCNT_ABAND, .ro, .any⟩,
      ⟨CMB_SCNT_MISRUN, .ro, .any⟩, ⟨CMB_SCNT_CHERR, .ro, .any⟩] },
  { off := 0x800, s1 := 0x20, c1 := 32, s2 := 0x4, c2 := 1, rst := 0x0, werr := .bit 3, lock := .cmbRule,
    flds := [⟨CMB_RCFG_EN, .rw, .any⟩, ⟨CMB_RCFG_CYL, .rwc, .u 0 11⟩,
      ⟨CMB_RCFG_METRIC, .rwc, .u 0 9⟩, ⟨CMB_RCFG_MODE, .rwc, .u 0 2⟩,
      ⟨CMB_RCFG_MISOK, .rwc, .any⟩, ⟨CMB_RCFG_TRIM, .rwc, .any⟩] },
  { off := 0x804, s1 := 0x20, c1 := 32, s2 := 0x4, c2 := 1, rst := 0x0, werr := .bit 3, lock := .cmbRule,
    flds := [⟨CMB_RSET_VAL, .rwc, .any⟩] },
  { off := 0x808, s1 := 0x20, c1 := 32, s2 := 0x4, c2 := 1, rst := 0x0, werr := .bit 3, lock := .cmbRule,
    flds := [⟨CMB_RDB_VAL, .rwc, .any⟩] },
  { off := 0x80c, s1 := 0x20, c1 := 32, s2 := 0x4, c2 := 1, rst := 0x0, werr := .bit 3, lock := .cmbRule,
    flds := [⟨CMB_RKU_VAL, .rwc, .any⟩] },
  { off := 0x810, s1 := 0x20, c1 := 32, s2 := 0x4, c2 := 1, rst := 0x0, werr := .bit 3, lock := .cmbRule,
    flds := [⟨CMB_RKD_VAL, .rwc, .any⟩] },
  { off := 0x814, s1 := 0x20, c1 := 32, s2 := 0x4, c2 := 1, rst := 0x0, werr := .bit 3, lock := .cmbRule,
    flds := [⟨CMB_RLO_LO, .rwc, .any⟩] },
  { off := 0x818, s1 := 0x20, c1 := 32, s2 := 0x4, c2 := 1, rst := 0x0, werr := .bit 3, lock := .cmbRule,
    flds := [⟨CMB_RHI_HI, .rwc, .any⟩] },
  { off := 0x81c, s1 := 0x20, c1 := 32, s2 := 0x4, c2 := 1, rst := 0x0, werr := .bit 3, lock := .cmbRule,
    flds := [⟨CMB_RACC_ACC, .rw, .any⟩] },
  { off := 0xc00, s1 := 0x20, c1 := 4, s2 := 0x4, c2 := 1, rst := 0xa2000, werr := .bit 4, lock := .cmbDith,
    flds := [⟨CMB_DCFG_EN, .rw, .any⟩, ⟨CMB_DCFG_PROF, .rwc, .any⟩,
      ⟨CMB_DCFG_NCOV, .rwc, .u 8 255⟩, ⟨CMB_DCFG_STEP, .rwc, .u 1 1000⟩] },
  { off := 0xc04, s1 := 0x20, c1 := 4, s2 := 0x4, c2 := 1, rst := 0x0, werr := .bit 4, lock := .cmbDith,
    flds := [⟨CMB_DMASK_MASK, .rwc, .any⟩] },
  { off := 0xc08, s1 := 0x20, c1 := 4, s2 := 0x4, c2 := 1, rst := 0x0, werr := .bit 4, lock := .cmbDith,
    flds := [⟨CMB_DCLO_CLO, .rwc, .any⟩] } ]

/-- Registers of block CMB, part 5. -/
def rowsCMB4 : List Row :=
  [
  { off := 0xc0c, s1 := 0x20, c1 := 4, s2 := 0x4, c2 := 1, rst := 0x0, werr := .bit 4, lock := .cmbDith,
    flds := [⟨CMB_DCHI_CHI, .rwc, .any⟩] },
  { off := 0xc10, s1 := 0x20, c1 := 4, s2 := 0x4, c2 := 1, rst := 0x0, werr := .bit 4, lock := .cmbDith,
    flds := [⟨CMB_DLIM_DMIN, .rwc, .u 0 1000⟩, ⟨CMB_DLIM_DMAX, .rwc, .any⟩] },
  { off := 0xc14, s1 := 0x20, c1 := 4, s2 := 0x4, c2 := 1, rst := 0x0, werr := .bit 4, lock := .cmbDith,
    flds := [⟨CMB_DAMP_DAMP, .rw, .any⟩] },
  { off := 0xc18, s1 := 0x20, c1 := 4, s2 := 0x4, c2 := 1, rst := 0x0, werr := .none, lock := .cmbDith,
    flds := [⟨CMB_DCOV_COV, .ro, .any⟩] },
  { off := 0x1000, s1 := 0x40, c1 := 12, s2 := 0x4, c2 := 16, rst := 0x0, werr := .none, lock := .none,
    flds := [⟨CMB_REC_WORD, .ro, .any⟩] },
  { off := 0x1400, s1 := 0x40, c1 := 12, s2 := 0x4, c2 := 16, rst := 0x0, werr := .none, lock := .none,
    flds := [⟨CMB_WREC_WORD, .ro, .any⟩] },
  { off := 0x4000, s1 := 0x4, c1 := 4096, s2 := 0x4, c2 := 1, rst := 0x0, werr := .bit 5, lock := .none,
    flds := [⟨CMB_VOL_V, .rw, .any⟩] } ]

/-- Registers of block CHN, part 1. -/
def rowsCHN0 : List Row :=
  [
  { off := 0x0, s1 := 0x4, c1 := 1, s2 := 0x4, c2 := 1, rst := 0x0, werr := .bit 0, lock := .none,
    flds := [⟨CHN_CTRL_EN, .rw, .any⟩, ⟨CHN_CTRL_GEN, .rw, .any⟩] },
  { off := 0x4, s1 := 0x4, c1 := 1, s2 := 0x4, c2 := 1, rst := 0x0, werr := .none, lock := .none,
    flds := [⟨CHN_APPLIED_EN, .ro, .any⟩, ⟨CHN_APPLIED_GEN, .ro, .any⟩] },
  { off := 0x8, s1 := 0x4, c1 := 1, s2 := 0x4, c2 := 1, rst := 0x0, werr := .none, lock := .none,
    flds := [⟨CHN_EVT_ANY, .w1c, .any⟩] },
  { off := 0xc, s1 := 0x4, c1 := 1, s2 := 0x4, c2 := 1, rst := 0x0, werr := .none, lock := .none,
    flds := [⟨CHN_WERR_REG, .w1c, .any⟩] },
  { off := 0x10, s1 := 0x4, c1 := 1, s2 := 0x4, c2 := 1, rst := 0x0, werr := .none, lock := .none,
    flds := [⟨CHN_WERRA_OFFSET, .ro, .any⟩] },
  { off := 0x14, s1 := 0x4, c1 := 1, s2 := 0x4, c2 := 1, rst := 0x0, werr := .bit 5, lock := .chnAll,
    flds := [⟨CHN_CFG_AUTH, .rwc, .any⟩, ⟨CHN_CFG_UNIT, .rwc, .any⟩] },
  { off := 0x18, s1 := 0x4, c1 := 1, s2 := 0x4, c2 := 1, rst := 0x400401, werr := .bit 6, lock := .none,
    flds := [⟨CHN_ECFG_CAND, .rw, .any⟩, ⟨CHN_ECFG_LPRIO, .rw, .any⟩,
      ⟨CHN_ECFG_MINGR, .rw, .u 1 7⟩, ⟨CHN_ECFG_HYST, .rw, .u 1 255⟩] },
  { off := 0x1c, s1 := 0x4, c1 := 1, s2 := 0x4, c2 := 1, rst := 0x4e900, werr := .bit 7, lock := .none,
    flds := [⟨CHN_ACFG_MODE, .rw, .any⟩, ⟨CHN_ACFG_STEP, .rw, .u 1 233⟩,
      ⟨CHN_ACFG_NMIS, .rw, .u 1 15⟩] },
  { off := 0x20, s1 := 0x4, c1 := 1, s2 := 0x4, c2 := 1, rst := 0xb60b048d, werr := .bit 8, lock := .none,
    flds := [⟨CHN_ATOL_ATOL, .rw, .u 1 65535⟩, ⟨CHN_ATOL_CAPT, .rw, .u 1 65535⟩] },
  { off := 0x24, s1 := 0x4, c1 := 1, s2 := 0x4, c2 := 1, rst := 0x0, werr := .none, lock := .none,
    flds := [⟨CHN_ASTAT_LDR, .ro, .any⟩, ⟨CHN_ASTAT_LEADER, .ro, .any⟩,
      ⟨CHN_ASTAT_REF, .ro, .any⟩, ⟨CHN_ASTAT_FAR, .ro, .any⟩,
      ⟨CHN_ASTAT_AGREE, .ro, .any⟩, ⟨CHN_ASTAT_LGEN, .ro, .any⟩] },
  { off := 0x28, s1 := 0x4, c1 := 1, s2 := 0x4, c2 := 1, rst := 0x0, werr := .none, lock := .none,
    flds := [⟨CHN_ADIFF_E, .ro, .any⟩] },
  { off := 0x2c, s1 := 0x4, c1 := 1, s2 := 0x4, c2 := 1, rst := 0x0, werr := .bit 11, lock := .none,
    flds := [⟨CHN_ACORR_C, .rw, .any⟩] } ]

/-- Registers of block CHN, part 2. -/
def rowsCHN1 : List Row :=
  [
  { off := 0x30, s1 := 0x4, c1 := 1, s2 := 0x4, c2 := 1, rst := 0x0, werr := .bit 12, lock := .none,
    flds := [⟨CHN_CMD_CLRFAR, .wo, .any⟩] },
  { off := 0x34, s1 := 0x4, c1 := 1, s2 := 0x4, c2 := 1, rst := 0x0, werr := .none, lock := .none,
    flds := [⟨CHN_PSTAT_UP, .ro, .any⟩, ⟨CHN_PSTAT_AUTH, .ro, .any⟩,
      ⟨CHN_PSTAT_MEMBERS, .ro, .any⟩] },
  { off := 0x38, s1 := 0x4, c1 := 2, s2 := 0x4, c2 := 1, rst := 0x0, werr := .none, lock := .none,
    flds := [⟨CHN_LDLY_DLY, .ro, .any⟩] },
  { off := 0x40, s1 := 0x4, c1 := 1, s2 := 0x4, c2 := 1, rst := 0x0, werr := .none, lock := .none,
    flds := [⟨CHN_RDLY_DLY, .ro, .any⟩] },
  { off := 0x44, s1 := 0x4, c1 := 1, s2 := 0x4, c2 := 1, rst := 0x0, werr := .none, lock := .none,
    flds := [⟨CHN_CNT0_CRC, .ro, .any⟩, ⟨CHN_CNT0_TAG, .ro, .any⟩] },
  { off := 0x48, s1 := 0x4, c1 := 1, s2 := 0x4, c2 := 1, rst := 0x0, werr := .none, lock := .none,
    flds := [⟨CHN_CNT1_DDROP, .ro, .any⟩, ⟨CHN_CNT1_JOINREF, .ro, .any⟩] },
  { off := 0x100, s1 := 0x8, c1 := 16, s2 := 0x4, c2 := 1, rst := 0x0, werr := .bit 31, lock := .chnData,
    flds := [⟨CHN_DCFG_EN, .rw, .any⟩, ⟨CHN_DCFG_TXQ, .rwc, .any⟩,
      ⟨CHN_DCFG_ACCT, .rwc, .u 0 47⟩, ⟨CHN_DCFG_QUOTA, .rwc, .u 0 193⟩] },
  { off := 0x104, s1 := 0x8, c1 := 16, s2 := 0x4, c2 := 1, rst := 0x0, werr := .bit 31, lock := .chnData,
    flds := [⟨CHN_DDST_DST, .rwc, .any⟩, ⟨CHN_DDST_RQ, .rwc, .any⟩,
      ⟨CHN_DDST_ALL, .rwc, .any⟩] },
  { off := 0x200, s1 := 0x4, c1 := 1, s2 := 0x4, c2 := 1, rst := 0x0, werr := .none, lock := .none,
    flds := [⟨CHN_RXQ_MASK, .rw, .any⟩] } ]

/-- Registers of block ETH, part 1. -/
def rowsETH0 : List Row :=
  [
  { off := 0x0, s1 := 0x4, c1 := 1, s2 := 0x4, c2 := 1, rst := 0x0, werr := .bit 0, lock := .none,
    flds := [⟨ETH_CTRL_EN, .rw, .any⟩, ⟨ETH_CTRL_GEN, .rw, .any⟩] },
  { off := 0x4, s1 := 0x4, c1 := 1, s2 := 0x4, c2 := 1, rst := 0x0, werr := .none, lock := .none,
    flds := [⟨ETH_APPLIED_EN, .ro, .any⟩, ⟨ETH_APPLIED_GEN, .ro, .any⟩] },
  { off := 0x8, s1 := 0x4, c1 := 1, s2 := 0x4, c2 := 1, rst := 0x0, werr := .none, lock := .none,
    flds := [⟨ETH_EVT_ANY, .w1c, .any⟩] },
  { off := 0xc, s1 := 0x4, c1 := 1, s2 := 0x4, c2 := 1, rst := 0x0, werr := .none, lock := .none,
    flds := [⟨ETH_WERR_REG, .w1c, .any⟩] },
  { off := 0x10, s1 := 0x4, c1 := 1, s2 := 0x4, c2 := 1, rst := 0x0, werr := .none, lock := .none,
    flds := [⟨ETH_WERRA_OFFSET, .ro, .any⟩] },
  { off := 0x14, s1 := 0x4, c1 := 1, s2 := 0x4, c2 := 1, rst := 0x0, werr := .none, lock := .none,
    flds := [⟨ETH_STAT_LINK, .ro, .any⟩, ⟨ETH_STAT_SPEED, .ro, .any⟩] },
  { off := 0x18, s1 := 0x4, c1 := 1, s2 := 0x4, c2 := 1, rst := 0x0, werr := .bit 6, lock := .eth,
    flds := [⟨ETH_MACL_ADDR, .rwc, .any⟩] },
  { off := 0x1c, s1 := 0x4, c1 := 1, s2 := 0x4, c2 := 1, rst := 0x30000, werr := .bit 7, lock := .eth,
    flds := [⟨ETH_MACH_ADDR, .rwc, .any⟩, ⟨ETH_MACH_BCAST, .rw, .any⟩,
      ⟨ETH_MACH_UNTAG, .rw, .any⟩, ⟨ETH_MACH_PAUSE, .rw, .any⟩] },
  { off := 0x20, s1 := 0x4, c1 := 1, s2 := 0x4, c2 := 1, rst := 0x0, werr := .bit 8, lock := .eth,
    flds := [⟨ETH_QCFG_FBQ, .rwc, .any⟩, ⟨ETH_QCFG_RXQ, .rwc, .any⟩,
      ⟨ETH_QCFG_TXQ, .rwc, .any⟩, ⟨ETH_QCFG_TCQ, .rwc, .any⟩] },
  { off := 0x24, s1 := 0x4, c1 := 1, s2 := 0x4, c2 := 1, rst := 0x7d0, werr := .bit 9, lock := .none,
    flds := [⟨ETH_RXLIM_LIM, .rw, .u 1 65535⟩, ⟨ETH_RXLIM_TOUT, .rw, .any⟩] },
  { off := 0x28, s1 := 0x4, c1 := 1, s2 := 0x4, c2 := 1, rst := 0x0, werr := .none, lock := .none,
    flds := [⟨ETH_CNT_RXDROP, .ro, .any⟩, ⟨ETH_CNT_FCS, .ro, .any⟩] },
  { off := 0x100, s1 := 0x4, c1 := 1, s2 := 0x4, c2 := 1, rst := 0x0, werr := .bit 31, lock := .none,
    flds := [⟨ETH_PSECL_TIME, .rw, .any⟩] } ]

/-- Registers of block ETH, part 2. -/
def rowsETH1 : List Row :=
  [
  { off := 0x104, s1 := 0x4, c1 := 1, s2 := 0x4, c2 := 1, rst := 0x0, werr := .bit 31, lock := .none,
    flds := [⟨ETH_PSECH_TIME, .rw, .any⟩] },
  { off := 0x108, s1 := 0x4, c1 := 1, s2 := 0x4, c2 := 1, rst := 0x0, werr := .bit 31, lock := .none,
    flds := [⟨ETH_PNS_TIME, .rw, .u 0 999999999⟩] },
  { off := 0x10c, s1 := 0x4, c1 := 1, s2 := 0x4, c2 := 1, rst := 0x33333333, werr := .bit 31, lock := .none,
    flds := [⟨ETH_PADD_ADD, .rw, .any⟩] },
  { off := 0x110, s1 := 0x4, c1 := 1, s2 := 0x4, c2 := 1, rst := 0x0, werr := .bit 31, lock := .none,
    flds := [⟨ETH_PSTPS_OFS, .rw, .any⟩] },
  { off := 0x114, s1 := 0x4, c1 := 1, s2 := 0x4, c2 := 1, rst := 0x0, werr := .bit 31, lock := .none,
    flds := [⟨ETH_PSTPN_OFS, .rw, .s (-999999999) (999999999)⟩] },
  { off := 0x118, s1 := 0x4, c1 := 1, s2 := 0x4, c2 := 1, rst := 0x0, werr := .bit 31, lock := .none,
    flds := [⟨ETH_PCMD_STEP, .wo, .any⟩] },
  { off := 0x11c, s1 := 0x4, c1 := 1, s2 := 0x4, c2 := 1, rst := 0x0, werr := .bit 31, lock := .none,
    flds := [⟨ETH_PLAT_TXLAT, .rw, .any⟩, ⟨ETH_PLAT_RXLAT, .rw, .any⟩] },
  { off := 0x120, s1 := 0x4, c1 := 1, s2 := 0x4, c2 := 1, rst := 0x20, werr := .bit 31, lock := .none,
    flds := [⟨ETH_PCFG_CTRIG, .rw, .u 0 32⟩] },
  { off := 0x124, s1 := 0x4, c1 := 1, s2 := 0x4, c2 := 1, rst := 0x0, werr := .none, lock := .none,
    flds := [⟨ETH_PCAPL_TIME, .ro, .any⟩] },
  { off := 0x128, s1 := 0x4, c1 := 1, s2 := 0x4, c2 := 1, rst := 0x0, werr := .none, lock := .none,
    flds := [⟨ETH_PCAPH_TIME, .ro, .any⟩] },
  { off := 0x12c, s1 := 0x4, c1 := 1, s2 := 0x4, c2 := 1, rst := 0x0, werr := .none, lock := .none,
    flds := [⟨ETH_PCAPN_TIME, .ro, .any⟩] },
  { off := 0x200, s1 := 0x8, c1 := 16, s2 := 0x4, c2 := 1, rst := 0x0, werr := .bit 31, lock := .none,
    flds := [⟨ETH_MCL_ADDR, .rw, .any⟩] } ]

/-- Registers of block ETH, part 3. -/
def rowsETH2 : List Row :=
  [
  { off := 0x204, s1 := 0x8, c1 := 16, s2 := 0x4, c2 := 1, rst := 0x0, werr := .bit 31, lock := .none,
    flds := [⟨ETH_MCH_ADDR, .rw, .any⟩, ⟨ETH_MCH_EN, .rw, .any⟩] },
  { off := 0x280, s1 := 0x4, c1 := 8, s2 := 0x4, c2 := 1, rst := 0x0, werr := .bit 31, lock := .none,
    flds := [⟨ETH_VLAN_VID0, .rw, .any⟩, ⟨ETH_VLAN_EN0, .rw, .any⟩,
      ⟨ETH_VLAN_VID1, .rw, .any⟩, ⟨ETH_VLAN_EN1, .rw, .any⟩] } ]

/-- Registers of block CAN, part 1. -/
def rowsCAN0 : List Row :=
  [
  { off := 0x0, s1 := 0x4, c1 := 1, s2 := 0x4, c2 := 1, rst := 0x0, werr := .bit 0, lock := .none,
    flds := [⟨CAN_CTRL_EN, .rw, .any⟩, ⟨CAN_CTRL_GEN, .rw, .any⟩] },
  { off := 0x4, s1 := 0x4, c1 := 1, s2 := 0x4, c2 := 1, rst := 0x0, werr := .none, lock := .none,
    flds := [⟨CAN_APPLIED_EN, .ro, .any⟩, ⟨CAN_APPLIED_GEN, .ro, .any⟩] },
  { off := 0x8, s1 := 0x4, c1 := 1, s2 := 0x4, c2 := 1, rst := 0x0, werr := .none, lock := .none,
    flds := [⟨CAN_EVT_ANY, .w1c, .any⟩] },
  { off := 0xc, s1 := 0x4, c1 := 1, s2 := 0x4, c2 := 1, rst := 0x0, werr := .none, lock := .none,
    flds := [⟨CAN_WERR_REG, .w1c, .any⟩] },
  { off := 0x10, s1 := 0x4, c1 := 1, s2 := 0x4, c2 := 1, rst := 0x0, werr := .none, lock := .none,
    flds := [⟨CAN_WERRA_OFFSET, .ro, .any⟩] },
  { off := 0x14, s1 := 0x20, c1 := 2, s2 := 0x4, c2 := 1, rst := 0x10207e1, werr := .bit 5, lock := .can,
    flds := [⟨CAN_NBT_BRPM1, .rwc, .any⟩, ⟨CAN_NBT_TSEG1, .rwc, .u 2 255⟩,
      ⟨CAN_NBT_TSEG2, .rwc, .u 2 127⟩, ⟨CAN_NBT_SJW, .rwc, .u 1 127⟩] },
  { off := 0x18, s1 := 0x20, c1 := 2, s2 := 0x4, c2 := 1, rst := 0x20421f1, werr := .bit 6, lock := .can,
    flds := [⟨CAN_DBT_BRP, .rwc, .u 1 8⟩, ⟨CAN_DBT_TSEG1, .rwc, .u 1 31⟩,
      ⟨CAN_DBT_TSEG2, .rwc, .u 1 15⟩, ⟨CAN_DBT_SJW, .rwc, .u 1 15⟩,
      ⟨CAN_DBT_TDCO, .rwc, .u 0 127⟩] },
  { off := 0x1c, s1 := 0x20, c1 := 2, s2 := 0x4, c2 := 1, rst := 0x3e80000, werr := .bit 7, lock := .can,
    flds := [⟨CAN_CFG_FDEN, .rwc, .any⟩, ⟨CAN_CFG_LOM, .rwc, .any⟩,
      ⟨CAN_CFG_AUTOREC, .rwc, .any⟩, ⟨CAN_CFG_RES, .rwc, .any⟩,
      ⟨CAN_CFG_TXQ, .rwc, .any⟩, ⟨CAN_CFG_RXLIM, .rw, .u 1 65535⟩] },
  { off := 0x20, s1 := 0x20, c1 := 2, s2 := 0x4, c2 := 1, rst := 0x0, werr := .none, lock := .can,
    flds := [⟨CAN_STAT_STATE, .ro, .any⟩, ⟨CAN_STAT_TEC, .ro, .any⟩,
      ⟨CAN_STAT_REC, .ro, .any⟩] },
  { off := 0x24, s1 := 0x20, c1 := 2, s2 := 0x4, c2 := 1, rst := 0x0, werr := .bit 9, lock := .can,
    flds := [⟨CAN_CMD_REC, .wo, .any⟩] },
  { off := 0x28, s1 := 0x20, c1 := 2, s2 := 0x4, c2 := 1, rst := 0x0, werr := .none, lock := .can,
    flds := [⟨CAN_CNT_DROP, .ro, .any⟩, ⟨CAN_CNT_TXBAD, .ro, .any⟩] },
  { off := 0x400, s1 := 0x200, c1 := 2, s2 := 0x10, c2 := 32, rst := 0x0, werr := .bit 31, lock := .none,
    flds := [⟨CAN_FID_ID, .rw, .any⟩] } ]

/-- Registers of block CAN, part 2. -/
def rowsCAN1 : List Row :=
  [
  { off := 0x404, s1 := 0x200, c1 := 2, s2 := 0x10, c2 := 32, rst := 0x0, werr := .bit 31, lock := .none,
    flds := [⟨CAN_FMSK_MASK, .rw, .any⟩] },
  { off := 0x408, s1 := 0x200, c1 := 2, s2 := 0x10, c2 := 32, rst := 0x0, werr := .bit 31, lock := .none,
    flds := [⟨CAN_FCFG_EN, .rw, .any⟩, ⟨CAN_FCFG_IDE, .rw, .any⟩,
      ⟨CAN_FCFG_QUE, .rw, .any⟩, ⟨CAN_FCFG_TOUT, .rw, .any⟩] } ]

/-- Registers of block SPI, part 1. -/
def rowsSPI0 : List Row :=
  [
  { off := 0x0, s1 := 0x4, c1 := 1, s2 := 0x4, c2 := 1, rst := 0x0, werr := .bit 0, lock := .none,
    flds := [⟨SPI_CTRL_EN, .rw, .any⟩, ⟨SPI_CTRL_GEN, .rw, .any⟩] },
  { off := 0x4, s1 := 0x4, c1 := 1, s2 := 0x4, c2 := 1, rst := 0x0, werr := .none, lock := .none,
    flds := [⟨SPI_APPLIED_EN, .ro, .any⟩, ⟨SPI_APPLIED_GEN, .ro, .any⟩] },
  { off := 0x8, s1 := 0x4, c1 := 1, s2 := 0x4, c2 := 1, rst := 0x0, werr := .none, lock := .none,
    flds := [⟨SPI_EVT_ANY, .w1c, .any⟩] },
  { off := 0xc, s1 := 0x4, c1 := 1, s2 := 0x4, c2 := 1, rst := 0x0, werr := .none, lock := .none,
    flds := [⟨SPI_WERR_REG, .w1c, .any⟩] },
  { off := 0x10, s1 := 0x4, c1 := 1, s2 := 0x4, c2 := 1, rst := 0x0, werr := .none, lock := .none,
    flds := [⟨SPI_WERRA_OFFSET, .ro, .any⟩] },
  { off := 0x14, s1 := 0x4, c1 := 1, s2 := 0x4, c2 := 1, rst := 0x0, werr := .none, lock := .none,
    flds := [⟨SPI_STAT_STATUS, .ro, .any⟩] },
  { off := 0x18, s1 := 0x4, c1 := 1, s2 := 0x4, c2 := 1, rst := 0x0, werr := .none, lock := .none,
    flds := [⟨SPI_QEN_MASK, .rw, .any⟩] },
  { off := 0x1c, s1 := 0x4, c1 := 1, s2 := 0x4, c2 := 1, rst := 0x1, werr := .bit 7, lock := .none,
    flds := [⟨SPI_TOUT_TOUT, .rw, .u 1 255⟩] },
  { off := 0x20, s1 := 0x4, c1 := 1, s2 := 0x4, c2 := 1, rst := 0x0, werr := .none, lock := .none,
    flds := [⟨SPI_CNT_OK, .ro, .any⟩, ⟨SPI_CNT_REFUSED, .ro, .any⟩] },
  { off := 0x24, s1 := 0x4, c1 := 1, s2 := 0x4, c2 := 1, rst := 0x0, werr := .bit 9, lock := .spi,
    flds := [⟨SPI_CFG_MODE, .rwc, .any⟩] },
  { off := 0x100, s1 := 0x4, c1 := 4, s2 := 0x4, c2 := 1, rst := 0x0, werr := .bit 31, lock := .spi,
    flds := [⟨SPI_WIN_LOG2, .rwc, .u 0 13⟩, ⟨SPI_WIN_RD, .rwc, .any⟩,
      ⟨SPI_WIN_WR, .rwc, .any⟩, ⟨SPI_WIN_BASE, .rwc, .any⟩] } ]

/-- Registers of block LKT, part 1. -/
def rowsLKT0 : List Row :=
  [
  { off := 0x0, s1 := 0x4, c1 := 1, s2 := 0x4, c2 := 1, rst := 0xa01, werr := .bit 0, lock := .none,
    flds := [⟨LKT_CFG_PINU, .rw, .any⟩, ⟨LKT_CFG_PTIME, .rw, .u 1 100⟩] },
  { off := 0x4, s1 := 0x4, c1 := 1, s2 := 0x4, c2 := 1, rst := 0x1, werr := .none, lock := .none,
    flds := [⟨LKT_STAT_SCAN, .ro, .any⟩, ⟨LKT_STAT_CLOSED, .ro, .any⟩,
      ⟨LKT_STAT_CLRBUSY, .ro, .any⟩, ⟨LKT_STAT_SIGN, .ro, .any⟩,
      ⟨LKT_STAT_PFULL, .ro, .any⟩, ⟨LKT_STAT_VBUSY, .ro, .any⟩,
      ⟨LKT_STAT_QCNT, .ro, .any⟩] },
  { off := 0x8, s1 := 0x4, c1 := 1, s2 := 0x4, c2 := 1, rst := 0x0, werr := .none, lock := .none,
    flds := [⟨LKT_EVT_ANY, .w1c, .any⟩] },
  { off := 0xc, s1 := 0x4, c1 := 1, s2 := 0x4, c2 := 1, rst := 0x0, werr := .none, lock := .none,
    flds := [⟨LKT_WERR_ANY, .w1c, .any⟩] },
  { off := 0x10, s1 := 0x4, c1 := 1, s2 := 0x4, c2 := 1, rst := 0x0, werr := .none, lock := .none,
    flds := [⟨LKT_WERRA_OFFSET, .ro, .any⟩] },
  { off := 0x14, s1 := 0x4, c1 := 1, s2 := 0x4, c2 := 1, rst := 0x0, werr := .none, lock := .none,
    flds := [⟨LKT_HEADL_SEQ, .ro, .any⟩] },
  { off := 0x18, s1 := 0x4, c1 := 1, s2 := 0x4, c2 := 1, rst := 0x0, werr := .none, lock := .none,
    flds := [⟨LKT_HEADH_SEQ, .ro, .any⟩, ⟨LKT_HEADH_SLOT, .ro, .any⟩] },
  { off := 0x1c, s1 := 0x4, c1 := 1, s2 := 0x4, c2 := 1, rst := 0x0, werr := .none, lock := .none,
    flds := [⟨LKT_OLDL_SEQ, .ro, .any⟩] },
  { off := 0x20, s1 := 0x4, c1 := 1, s2 := 0x4, c2 := 1, rst := 0x0, werr := .none, lock := .none,
    flds := [⟨LKT_OLDH_SEQ, .ro, .any⟩, ⟨LKT_OLDH_SLOT, .ro, .any⟩] },
  { off := 0x24, s1 := 0x4, c1 := 1, s2 := 0x4, c2 := 1, rst := 0x0, werr := .none, lock := .none,
    flds := [⟨LKT_PHEAD_SLOT, .ro, .any⟩] },
  { off := 0x28, s1 := 0x4, c1 := 1, s2 := 0x4, c2 := 1, rst := 0x0, werr := .none, lock := .none,
    flds := [⟨LKT_CNT_DROP, .ro, .any⟩, ⟨LKT_CNT_TORN, .ro, .any⟩,
      ⟨LKT_CNT_PDROP, .ro, .any⟩] },
  { off := 0x2c, s1 := 0x4, c1 := 1, s2 := 0x4, c2 := 1, rst := 0x0, werr := .bit 1, lock := .none,
    flds := [⟨LKT_CMD_SEAL, .wo, .any⟩, ⟨LKT_CMD_PSEAL, .wo, .any⟩] } ]

/-- Registers of block LKT, part 2. -/
def rowsLKT1 : List Row :=
  [
  { off := 0x30, s1 := 0x4, c1 := 1, s2 := 0x4, c2 := 1, rst := 0x0, werr := .bit 2, lock := .none,
    flds := [⟨LKT_UCMD_PUT, .wo, .any⟩, ⟨LKT_UCMD_PIN, .wo, .any⟩] },
  { off := 0x34, s1 := 0x4, c1 := 1, s2 := 0x4, c2 := 1, rst := 0x0, werr := .none, lock := .none,
    flds := [⟨LKT_URES_RESULT, .ro, .any⟩] },
  { off := 0x40, s1 := 0x4, c1 := 8, s2 := 0x4, c2 := 1, rst := 0x0, werr := .none, lock := .none,
    flds := [⟨LKT_UPUT_DATA, .rw, .any⟩] },
  { off := 0x60, s1 := 0x4, c1 := 1, s2 := 0x4, c2 := 1, rst := 0x0, werr := .bit 3, lock := .none,
    flds := [⟨LKT_VCMD_SLOT, .wo, .any⟩, ⟨LKT_VCMD_AREA, .wo, .any⟩,
      ⟨LKT_VCMD_GO, .wo, .any⟩] },
  { off := 0x64, s1 := 0x4, c1 := 1, s2 := 0x4, c2 := 1, rst := 0x0, werr := .none, lock := .none,
    flds := [⟨LKT_VSTAT_RESULT, .ro, .any⟩, ⟨LKT_VSTAT_CHAIN, .ro, .any⟩] },
  { off := 0x80, s1 := 0x4, c1 := 24, s2 := 0x4, c2 := 1, rst := 0x0, werr := .none, lock := .none,
    flds := [⟨LKT_AREQ_WORD, .rw, .any⟩] },
  { off := 0xe0, s1 := 0x4, c1 := 1, s2 := 0x4, c2 := 1, rst := 0x0, werr := .bit 4, lock := .none,
    flds := [⟨LKT_ACMD_GO, .wo, .any⟩] },
  { off := 0xe4, s1 := 0x4, c1 := 1, s2 := 0x4, c2 := 1, rst := 0x0, werr := .none, lock := .none,
    flds := [⟨LKT_ARES_RESULT, .ro, .any⟩] },
  { off := 0x100, s1 := 0x4, c1 := 1, s2 := 0x4, c2 := 1, rst := 0x0, werr := .none, lock := .none,
    flds := [⟨LKT_TSECL_SEC, .ro, .any⟩] },
  { off := 0x104, s1 := 0x4, c1 := 1, s2 := 0x4, c2 := 1, rst := 0x0, werr := .none, lock := .none,
    flds := [⟨LKT_TSECH_SEC, .ro, .any⟩, ⟨LKT_TSECH_TSRC, .ro, .any⟩,
      ⟨LKT_TSECH_XTAL, .ro, .any⟩] },
  { off := 0x108, s1 := 0x4, c1 := 1, s2 := 0x4, c2 := 1, rst := 0x0, werr := .none, lock := .none,
    flds := [⟨LKT_TNS_NS, .ro, .any⟩] },
  { off := 0x10c, s1 := 0x4, c1 := 1, s2 := 0x4, c2 := 1, rst := 0x0, werr := .bit 5, lock := .none,
    flds := [⟨LKT_TADJ_ADJ, .rw, .s (-500000) (500000)⟩] } ]

/-- Registers of block LKT, part 3. -/
def rowsLKT2 : List Row :=
  [
  { off := 0x110, s1 := 0x4, c1 := 1, s2 := 0x4, c2 := 1, rst := 0x0, werr := .bit 5, lock := .none,
    flds := [⟨LKT_TSTEPS_OFS, .rw, .any⟩] },
  { off := 0x114, s1 := 0x4, c1 := 1, s2 := 0x4, c2 := 1, rst := 0x0, werr := .bit 5, lock := .none,
    flds := [⟨LKT_TSTEPN_OFS, .rw, .s (-999999999) (999999999)⟩] },
  { off := 0x118, s1 := 0x4, c1 := 1, s2 := 0x4, c2 := 1, rst := 0x0, werr := .bit 5, lock := .none,
    flds := [⟨LKT_TCMD_STEP, .wo, .any⟩] },
  { off := 0x11c, s1 := 0x4, c1 := 1, s2 := 0x4, c2 := 1, rst := 0xa, werr := .bit 5, lock := .none,
    flds := [⟨LKT_TCFG_HOLD, .rw, .u 1 255⟩] } ]

/-- Registers of block HMK, part 1. -/
def rowsHMK0 : List Row :=
  [
  { off := 0x0, s1 := 0x4, c1 := 1, s2 := 0x4, c2 := 1, rst := 0x0, werr := .none, lock := .none,
    flds := [⟨HMK_STAT_ENR, .ro, .any⟩, ⟨HMK_STAT_NENR, .ro, .any⟩,
      ⟨HMK_STAT_BUSY, .ro, .any⟩, ⟨HMK_STAT_RNGERR, .ro, .any⟩] },
  { off := 0x4, s1 := 0x4, c1 := 1, s2 := 0x4, c2 := 1, rst := 0x0, werr := .none, lock := .none,
    flds := [⟨HMK_EVT_ANY, .w1c, .any⟩] },
  { off := 0x8, s1 := 0x4, c1 := 1, s2 := 0x4, c2 := 1, rst := 0x0, werr := .none, lock := .none,
    flds := [⟨HMK_WERR_ANY, .w1c, .any⟩] },
  { off := 0xc, s1 := 0x4, c1 := 1, s2 := 0x4, c2 := 1, rst := 0x0, werr := .none, lock := .none,
    flds := [⟨HMK_WERRA_OFFSET, .ro, .any⟩] },
  { off := 0x10, s1 := 0x4, c1 := 1, s2 := 0x4, c2 := 1, rst := 0x0, werr := .none, lock := .none,
    flds := [⟨HMK_UNIT_UNIT, .ro, .any⟩] },
  { off := 0x14, s1 := 0x4, c1 := 1, s2 := 0x4, c2 := 1, rst := 0x0, werr := .none, lock := .none,
    flds := [⟨HMK_RBMIN_CODE, .ro, .any⟩, ⟨HMK_RBMIN_CAL, .ro, .any⟩] },
  { off := 0x18, s1 := 0x4, c1 := 1, s2 := 0x4, c2 := 1, rst := 0x0, werr := .bit 0, lock := .none,
    flds := [⟨HMK_RBCMD_VALUE, .wo, .any⟩, ⟨HMK_RBCMD_KIND, .wo, .any⟩] },
  { off := 0x1c, s1 := 0x4, c1 := 1, s2 := 0x4, c2 := 1, rst := 0x0, werr := .bit 1, lock := .none,
    flds := [⟨HMK_ECMD_GO, .wo, .any⟩] },
  { off := 0x20, s1 := 0x4, c1 := 1, s2 := 0x4, c2 := 1, rst := 0x0, werr := .none, lock := .none,
    flds := [⟨HMK_ERES_RESULT, .ro, .any⟩] },
  { off := 0x24, s1 := 0x4, c1 := 1, s2 := 0x4, c2 := 1, rst := 0x0, werr := .none, lock := .none,
    flds := [⟨HMK_DCLEN_LEN, .ro, .any⟩] },
  { off := 0x28, s1 := 0x4, c1 := 1, s2 := 0x4, c2 := 1, rst := 0x0, werr := .none, lock := .none,
    flds := [⟨HMK_OCLEN_LEN, .ro, .any⟩] },
  { off := 0x30, s1 := 0x4, c1 := 4, s2 := 0x4, c2 := 1, rst := 0x0, werr := .none, lock := .none,
    flds := [⟨HMK_CHAL_NONCE, .ro, .any⟩] } ]

/-- Registers of block HMK, part 2. -/
def rowsHMK1 : List Row :=
  [
  { off := 0x40, s1 := 0x4, c1 := 16, s2 := 0x4, c2 := 1, rst := 0x0, werr := .none, lock := .none,
    flds := [⟨HMK_PUB_KEY, .ro, .any⟩] },
  { off := 0x1000, s1 := 0x4, c1 := 256, s2 := 0x4, c2 := 1, rst := 0x0, werr := .none, lock := .none,
    flds := [⟨HMK_DCERT_WORD, .ro, .any⟩] },
  { off := 0x1400, s1 := 0x4, c1 := 256, s2 := 0x4, c2 := 1, rst := 0x0, werr := .none, lock := .none,
    flds := [⟨HMK_OCERT_WORD, .ro, .any⟩] },
  { off := 0x2000, s1 := 0x4, c1 := 512, s2 := 0x4, c2 := 1, rst := 0x0, werr := .bit 2, lock := .none,
    flds := [⟨HMK_EBUF_WORD, .rw, .any⟩] } ]

/-- Registers of block QUE, part 1. -/
def rowsQUE0 : List Row :=
  [
  { off := 0x0, s1 := 0x4, c1 := 1, s2 := 0x4, c2 := 1, rst := 0x0, werr := .none, lock := .none,
    flds := [⟨QUE_EVT_ANY, .w1c, .any⟩] },
  { off := 0x4, s1 := 0x4, c1 := 1, s2 := 0x4, c2 := 1, rst := 0x0, werr := .none, lock := .none,
    flds := [⟨QUE_WERR_ANY, .w1c, .any⟩] },
  { off := 0x8, s1 := 0x4, c1 := 1, s2 := 0x4, c2 := 1, rst := 0x0, werr := .none, lock := .none,
    flds := [⟨QUE_WERRA_OFFSET, .ro, .any⟩] },
  { off := 0xc, s1 := 0x4, c1 := 1, s2 := 0x4, c2 := 1, rst := 0x0, werr := .none, lock := .none,
    flds := [⟨QUE_SECC_CORR, .ro, .any⟩, ⟨QUE_SECC_UNC, .ro, .any⟩] },
  { off := 0x10, s1 := 0x4, c1 := 1, s2 := 0x4, c2 := 1, rst := 0x0, werr := .none, lock := .none,
    flds := [⟨QUE_MECC_CORR, .ro, .any⟩, ⟨QUE_MECC_UNC, .ro, .any⟩] },
  { off := 0x14, s1 := 0x4, c1 := 1, s2 := 0x4, c2 := 1, rst := 0x0, werr := .none, lock := .none,
    flds := [⟨QUE_SCRUB_SPASS, .ro, .any⟩, ⟨QUE_SCRUB_MPASS, .ro, .any⟩] },
  { off := 0x18, s1 := 0x4, c1 := 1, s2 := 0x4, c2 := 1, rst := 0x0, werr := .bit 0, lock := .none,
    flds := [⟨QUE_MCMD_OP, .wo, .any⟩] },
  { off := 0x1c, s1 := 0x4, c1 := 1, s2 := 0x4, c2 := 1, rst := 0x0, werr := .bit 0, lock := .none,
    flds := [⟨QUE_MSRC_ADDR, .rw, .any⟩] },
  { off := 0x20, s1 := 0x4, c1 := 1, s2 := 0x4, c2 := 1, rst := 0x0, werr := .bit 0, lock := .none,
    flds := [⟨QUE_MDST_ADDR, .rw, .any⟩] },
  { off := 0x24, s1 := 0x4, c1 := 1, s2 := 0x4, c2 := 1, rst := 0x0, werr := .none, lock := .none,
    flds := [⟨QUE_MSTAT_BUSY, .ro, .any⟩, ⟨QUE_MSTAT_RESULT, .ro, .any⟩] },
  { off := 0x28, s1 := 0x4, c1 := 1, s2 := 0x4, c2 := 1, rst := 0x0, werr := .bit 0, lock := .none,
    flds := [⟨QUE_MPROT_ANY, .rw, .any⟩] },
  { off := 0x2c, s1 := 0x4, c1 := 1, s2 := 0x4, c2 := 1, rst := 0x0, werr := .bit 5, lock := .none,
    flds := [⟨QUE_CLR_ECC, .wo, .any⟩] } ]

/-- Registers of block QUE, part 2. -/
def rowsQUE1 : List Row :=
  [
  { off := 0x100, s1 := 0x20, c1 := 32, s2 := 0x4, c2 := 1, rst := 0x0, werr := .bit 1, lock := .que,
    flds := [⟨QUE_QCFG_EN, .rw, .any⟩, ⟨QUE_QCFG_LOG2, .rwc, .u 0 16⟩] },
  { off := 0x104, s1 := 0x20, c1 := 32, s2 := 0x4, c2 := 1, rst := 0x20000000, werr := .bit 1, lock := .que,
    flds := [⟨QUE_QBASE_BASE, .rwc, .any⟩] },
  { off := 0x108, s1 := 0x20, c1 := 32, s2 := 0x4, c2 := 1, rst := 0x0, werr := .none, lock := .que,
    flds := [⟨QUE_QHEAD_INDEX, .ro, .any⟩] },
  { off := 0x10c, s1 := 0x20, c1 := 32, s2 := 0x4, c2 := 1, rst := 0x0, werr := .none, lock := .que,
    flds := [⟨QUE_QTAIL_INDEX, .ro, .any⟩] },
  { off := 0x110, s1 := 0x20, c1 := 32, s2 := 0x4, c2 := 1, rst := 0x0, werr := .none, lock := .que,
    flds := [⟨QUE_QCNT_COUNT, .ro, .any⟩] },
  { off := 0x114, s1 := 0x20, c1 := 32, s2 := 0x4, c2 := 1, rst := 0x0, werr := .bit 1, lock := .que,
    flds := [⟨QUE_QPOP_K, .wo, .u 0 65536⟩] },
  { off := 0x118, s1 := 0x20, c1 := 32, s2 := 0x4, c2 := 1, rst := 0x0, werr := .none, lock := .que,
    flds := [⟨QUE_QDROP_DROP, .ro, .any⟩] },
  { off := 0x800, s1 := 0x20, c1 := 4, s2 := 0x4, c2 := 1, rst := 0x0, werr := .bit 2, lock := .none,
    flds := [⟨QUE_PPQ_Q, .rw, .any⟩] },
  { off := 0x804, s1 := 0x20, c1 := 4, s2 := 0x4, c2 := 1, rst := 0x0, werr := .bit 2, lock := .none,
    flds := [⟨QUE_PPD0_WORD, .rw, .any⟩] },
  { off := 0x808, s1 := 0x20, c1 := 4, s2 := 0x4, c2 := 1, rst := 0x0, werr := .bit 2, lock := .none,
    flds := [⟨QUE_PPD1_WORD, .rw, .any⟩] },
  { off := 0x80c, s1 := 0x20, c1 := 4, s2 := 0x4, c2 := 1, rst := 0x0, werr := .bit 2, lock := .none,
    flds := [⟨QUE_PPD2_WORD, .rw, .any⟩] },
  { off := 0x810, s1 := 0x20, c1 := 4, s2 := 0x4, c2 := 1, rst := 0x0, werr := .bit 2, lock := .none,
    flds := [⟨QUE_PPD3_WORD, .rw, .any⟩] } ]

/-- Registers of block QUE, part 3. -/
def rowsQUE2 : List Row :=
  [
  { off := 0x814, s1 := 0x20, c1 := 4, s2 := 0x4, c2 := 1, rst := 0x0, werr := .none, lock := .none,
    flds := [⟨QUE_PPRES_RESULT, .ro, .any⟩] },
  { off := 0xa00, s1 := 0x20, c1 := 16, s2 := 0x4, c2 := 1, rst := 0x40, werr := .bit 3, lock := .dma,
    flds := [⟨QUE_DCFG_EN, .rw, .any⟩, ⟨QUE_DCFG_TRIG, .rwc, .u 0 32⟩,
      ⟨QUE_DCFG_MODE, .rwc, .any⟩, ⟨QUE_DCFG_ACCT, .rwc, .u 0 47⟩] },
  { off := 0xa04, s1 := 0x20, c1 := 16, s2 := 0x4, c2 := 1, rst := 0x20000000, werr := .bit 3, lock := .dma,
    flds := [⟨QUE_DDESC_ADDR, .rwc, .any⟩] },
  { off := 0xa08, s1 := 0x20, c1 := 16, s2 := 0x4, c2 := 1, rst := 0x0, werr := .bit 3, lock := .dma,
    flds := [⟨QUE_DCMD_OP, .wo, .any⟩] },
  { off := 0xa0c, s1 := 0x20, c1 := 16, s2 := 0x4, c2 := 1, rst := 0x0, werr := .none, lock := .dma,
    flds := [⟨QUE_DSTAT_STATE, .ro, .any⟩, ⟨QUE_DSTAT_TPEND, .ro, .any⟩,
      ⟨QUE_DSTAT_TOVR, .ro, .any⟩, ⟨QUE_DSTAT_CAUSE, .ro, .any⟩] },
  { off := 0xa10, s1 := 0x20, c1 := 16, s2 := 0x4, c2 := 1, rst := 0x0, werr := .none, lock := .dma,
    flds := [⟨QUE_DCUR_ADDR, .ro, .any⟩] },
  { off := 0xa14, s1 := 0x20, c1 := 16, s2 := 0x4, c2 := 1, rst := 0x0, werr := .none, lock := .dma,
    flds := [⟨QUE_DREM_LEN, .ro, .any⟩] },
  { off := 0x2000, s1 := 0x100, c1 := 4, s2 := 0x8, c2 := 16, rst := 0x30, werr := .bit 4, lock := .none,
    flds := [⟨QUE_RB_ANY, .rw, .any⟩, ⟨QUE_RB_BASE, .rw, .any⟩] },
  { off := 0x2004, s1 := 0x100, c1 := 4, s2 := 0x8, c2 := 16, rst := 0x0, werr := .bit 4, lock := .none,
    flds := [⟨QUE_RL_LIMIT, .rw, .any⟩] } ]

/-- Registers of block DBG, part 1. -/
def rowsDBG0 : List Row :=
  [
  { off := 0x0, s1 := 0x4, c1 := 1, s2 := 0x4, c2 := 1, rst := 0x0, werr := .bit 0, lock := .none,
    flds := [⟨DBG_CTRL_EN, .rw, .any⟩, ⟨DBG_CTRL_PSEL, .rw, .any⟩] },
  { off := 0x4, s1 := 0x4, c1 := 1, s2 := 0x4, c2 := 1, rst := 0x0, werr := .none, lock := .none,
    flds := [⟨DBG_STAT_BUSY, .ro, .any⟩, ⟨DBG_STAT_FILL, .ro, .any⟩] },
  { off := 0x8, s1 := 0x4, c1 := 1, s2 := 0x4, c2 := 1, rst := 0x0, werr := .none, lock := .none,
    flds := [⟨DBG_EVT_ANY, .w1c, .any⟩] },
  { off := 0xc, s1 := 0x4, c1 := 1, s2 := 0x4, c2 := 1, rst := 0x0, werr := .none, lock := .none,
    flds := [⟨DBG_WERR_ANY, .w1c, .any⟩] },
  { off := 0x10, s1 := 0x4, c1 := 1, s2 := 0x4, c2 := 1, rst := 0x0, werr := .none, lock := .none,
    flds := [⟨DBG_WERRA_OFFSET, .ro, .any⟩] },
  { off := 0x14, s1 := 0x4, c1 := 1, s2 := 0x4, c2 := 1, rst := 0x0, werr := .bit 1, lock := .none,
    flds := [⟨DBG_HALT_PAIR, .wo, .any⟩] },
  { off := 0x18, s1 := 0x4, c1 := 1, s2 := 0x4, c2 := 1, rst := 0x0, werr := .bit 2, lock := .none,
    flds := [⟨DBG_RES_PAIR, .wo, .any⟩] },
  { off := 0x1c, s1 := 0x4, c1 := 1, s2 := 0x4, c2 := 1, rst := 0x0, werr := .bit 3, lock := .none,
    flds := [⟨DBG_STEP_PAIR, .wo, .any⟩] },
  { off := 0x20, s1 := 0x4, c1 := 1, s2 := 0x4, c2 := 1, rst := 0x0, werr := .none, lock := .none,
    flds := [⟨DBG_PSTAT_HALTED, .ro, .any⟩, ⟨DBG_PSTAT_BYBRK, .ro, .any⟩] },
  { off := 0x24, s1 := 0x4, c1 := 1, s2 := 0x4, c2 := 1, rst := 0x0, werr := .bit 4, lock := .none,
    flds := [⟨DBG_BRK_PAIR, .rw, .any⟩, ⟨DBG_BRK_ENG, .rw, .any⟩] },
  { off := 0x28, s1 := 0x4, c1 := 1, s2 := 0x4, c2 := 1, rst := 0x0, werr := .bit 5, lock := .none,
    flds := [⟨DBG_TRES_THREAD, .wo, .any⟩] },
  { off := 0x2c, s1 := 0x4, c1 := 1, s2 := 0x4, c2 := 1, rst := 0x0, werr := .bit 6, lock := .none,
    flds := [⟨DBG_TCFG_PC, .rw, .any⟩, ⟨DBG_TCFG_THR, .rw, .any⟩,
      ⟨DBG_TCFG_SYNCST, .rw, .any⟩, ⟨DBG_TCFG_FLT, .rw, .any⟩,
      ⟨DBG_TCFG_USER, .rw, .any⟩] } ]

/-- Registers of block DBG, part 2. -/
def rowsDBG1 : List Row :=
  [
  { off := 0x30, s1 := 0x4, c1 := 1, s2 := 0x4, c2 := 1, rst := 0x0, werr := .none, lock := .none,
    flds := [⟨DBG_UTRC_DATA, .wo, .any⟩] },
  { off := 0x34, s1 := 0x4, c1 := 1, s2 := 0x4, c2 := 1, rst := 0x0, werr := .none, lock := .none,
    flds := [⟨DBG_CNT_LOSS, .ro, .any⟩, ⟨DBG_CNT_CMDERR, .ro, .any⟩] } ]

/-- The registers of register block `b`, numbered in the order of R39. -/
def blockRows (b : Nat) : List Row :=
  match b with
  | 0 => rowsSYS0 ++ rowsSYS1
  | 1 => rowsFLT0 ++ rowsFLT1
  | 2 => rowsBUD0 ++ rowsBUD1
  | 3 => rowsIRQ0 ++ rowsIRQ1
  | 4 => rowsTMR0 ++ rowsTMR1
  | 5 => rowsWHL0 ++ rowsWHL1 ++ rowsWHL2
  | 6 => rowsOBS0 ++ rowsOBS1 ++ rowsOBS2
  | 7 => rowsCAL0 ++ rowsCAL1
  | 8 => rowsAEN0 ++ rowsAEN1 ++ rowsAEN2
  | 9 => rowsOUT0 ++ rowsOUT1
  | 10 => rowsINJ0 ++ rowsINJ1 ++ rowsINJ2
  | 11 => rowsPWM0 ++ rowsPWM1 ++ rowsPWM2
  | 12 => rowsCMP0
  | 13 => rowsFADC0 ++ rowsFADC1
  | 14 => rowsPADC0 ++ rowsPADC1
  | 15 => rowsCMB0 ++ rowsCMB1 ++ rowsCMB2 ++ rowsCMB3 ++ rowsCMB4
  | 16 => rowsCHN0 ++ rowsCHN1
  | 17 => rowsETH0 ++ rowsETH1 ++ rowsETH2
  | 18 => rowsCAN0 ++ rowsCAN1
  | 19 => rowsSPI0
  | 20 => rowsLKT0 ++ rowsLKT1 ++ rowsLKT2
  | 21 => rowsHMK0 ++ rowsHMK1
  | 22 => rowsQUE0 ++ rowsQUE1 ++ rowsQUE2
  | 23 => rowsDBG0 ++ rowsDBG1
  | _ => []

end Sys2Proof.Machine
end

