-- ==== Sys2Proof/Machine/State.lean ====
section
/-! DEFINITION. The state of the machine: plain data, holding everything the spec gives the unit. -/

namespace Sys2Proof.Machine

/-- Why a step can stop with a fault. The spec reports every error of the unit as a message, an exception or a status, none of
which stops the unit, so no meaning of a command raises one; the constructor is there for an ill-formed command. -/
inductive Fault where
  /-- The command is none the outside world can send (see `Sys2Proof.Instr.wf`). Raised by no meaning. Safe: the model stops. -/
  | illFormed
  deriving DecidableEq, Repr

/-- Why a step can be refused. -/
inductive Refusal where
  /-- The command has no meaning in the model. Raised by the arms of `exec` that say so. Safe: the model stops. -/
  | notModelled (mnemonic : String)
  deriving DecidableEq, Repr

/-! ### Items in flight over the crossings of R22 -/

/-- What an item carries. -/
inductive Body where
  /-- A fault message of R550. -/
  | fault (msg : BitVec 64)
  /-- An interrupt message naming a source (R316); `count` and `pend` say what it does on arrival: a plain message both, the
  count-only message of R333 only counts, the resend of R333 only sets pending. -/
  | irq (src : Nat) (count pend : Bool)
  /-- The source of EXTINT pin `x` has been completed (R333). -/
  | extDone (x : Nat)
  /-- A pulse of a trigger line (R344). -/
  | trigger (line : Nat)
  /-- A hardware event of another island toward the threads' HW bits, by selector (R266). -/
  | hwEvent (sel : Nat)
  /-- An INJ start command: channel, profile, slot of the start edge, slot t_min (R189). -/
  | injStart (ch prof ts tmin : Nat)
  /-- An INJ end command: channel, slot of the end edge, with fast decay or not (R163, R189). -/
  | injEnd (ch tend : Nat) (fast : Bool)
  /-- A report of the drive island (R373, R374, R382): kind (0 to 4 as in R382, 5 a refused start), channel, slot of the start
  edge, valid, cause, delay and filtered value, slot of a drive-caused end, the queue of its entry, and a trim write (R381). -/
  | drv (kind ch slot : Nat) (valid : Bool) (cause delay filt tend : Nat) (queue : Option Nat) (trim : Option (Nat × Nat))
  /-- A SAMPLE dispatch: input, slot of the aperture, late or not, descriptor words 2 and 3 (R27, R437). -/
  | sample (input slot : Nat) (late : Bool) (w2 w3 : Word)
  /-- A SAMPLE dropped by the output unit (R441): input, angle of the descriptor, slot of the drop, words 2 and 3. -/
  | sampleMiss (input : Nat) (angle : Word) (slot : Nat) (w2 w3 : Word)
  /-- A sample entry for a combustion stream: cylinder stream, result word, angle word, slot word, USER (R438, R462). -/
  | cmbSample (cyl : Nat) (result angle slot user : Word)
  /-- A change of R163 reaches the valve PWM: the pairs that go to their safe duty (R404). -/
  | pwmSafe (pairs : Nat)
  /-- Boost converter `k` begins (or ends) a switching period: the ramp of its comparator starts or ends (R412). -/
  | ramp (k : Nat) (start : Bool)
  /-- The budget frame pulse (R29). -/
  | pulse
  /-- A meter's overrun report at the close of a frame (R505): the frame number, and for each account that overran the account,
  the resources (bit `r`) and whether it was ENFORCE at that meter. -/
  | budReport (frame : Nat) (entries : List (Nat × Nat × Bool))
  deriving DecidableEq, Repr, Inhabited

/-- An item launched on the crossing from one island to another (R22 to R26). -/
structure Item where
  src  : Island
  dst  : Island
  body : Body
  deriving DecidableEq, Repr, Inhabited

/-! ### Threads (08_angle_threads.md) -/

/-- What a thread holds beside its registers of AEN: its pc (reads of AEN_TPCn return it), and the event mask and destination
of the wait it is suspended on (R241, R258). -/
structure ThreadSt where
  pc       : Word := 0
  waitMask : Nat := 0
  waitRd   : BitVec 5 := 0
  /-- A frame in which the thread entered STALL is already counted in AEN_TBSTn. -/
  counted  : Bool := false
  deriving DecidableEq, Repr, Inhabited

/-! ### Budgets (15_budgets.md) -/

/-- One account at the meter of one resource: what is in force there (R504) and the frame's use of it. -/
structure Meter where
  en      : Bool := false
  enforce : Bool := false
  limit   : Nat := 0
  used    : Nat := 0
  overrun : Bool := false
  deriving DecidableEq, Repr, Inhabited

/-- The frame whose overrun reports the guard island is collecting (R505). -/
structure BudFrame where
  num     : Nat := 0
  reports : Nat := 0
  /-- The accounts that overran in it, with their resources. -/
  overs   : List (Nat × Nat) := []
  deriving DecidableEq, Repr, Inhabited

/-! ### The action calendar and the output units (06_action_calendar_and_outputs.md) -/

/-- Where an action stands: in the calendar or its stage, held back under R188, an active pulse, or a pulse whose early end
waits for t_min (R163, R198). -/
inductive Place where
  | waiting | held | active | ending
  deriving DecidableEq, Repr, Inhabited

/-- An action (R172): its entry, its descriptor words and what has become of it. Times are counted in slots on `State.now`. -/
structure Action where
  idx  : Nat := 0
  gen  : Nat := 0
  w0   : Word := 0
  w1   : Word := 0
  w2   : Word := 0
  w3   : Word := 0
  /-- POSTER of R204. -/
  poster : Nat := 0
  place  : Place := .waiting
  /-- Judged late (R183). -/
  late : Bool := false
  /-- DEFER (R188). -/
  defer : Bool := false
  /-- LATEEND (R186). -/
  lateEnd : Bool := false
  clipMin : Bool := false
  clipMax : Bool := false
  /-- Compared word in the start slot. -/
  startW : Word := 0
  /-- Slot of the start edge, t_min, t_max and t_a of R186. -/
  ts   : Nat := 0
  tmin : Nat := 0
  tmax : Nat := 0
  ta   : Option Nat := none
  /-- An ending pulse: the status it will retire with, and whether it ends without a command to the drive island (R33). -/
  endSt  : Nat := 0
  endLocal : Bool := false
  deriving DecidableEq, Repr, Inhabited

/-- An entry of the calendar: the generation of its last use and its final status (R177). -/
structure CalEnt where
  gen  : Nat := 0
  st   : Nat := 0
  used : Bool := false
  deriving DecidableEq, Repr, Inhabited

/-- An output channel: the end of its last pulse or soft shutdown (R188) and the start of a soft shutdown in progress (R191). -/
structure OutCh where
  lastEnd : Option Nat := none
  soft    : Option Nat := none
  /-- INV of the ignition channel at the start of the shutdown, which a system reset does not cut (R612). -/
  softInv : Bool := false
  deriving DecidableEq, Repr, Inhabited

/-- The CYC compares of an AOUT channel: the angle words up to which each compare counts as passed (R195), and the slot of a
return to idle that a jump has delayed (R196). -/
structure CycCh where
  setFrom : Word := 0
  clrFrom : Word := 0
  ret     : Option Nat := none
  deriving DecidableEq, Repr, Inhabited

/-! ### The wheel inputs and echo generators (03_wheel_inputs.md) -/

/-- States of a wheel input (R78). -/
inductive WhlState where
  | disabled | free | windowed | stalled
  deriving DecidableEq, Repr, Inhabited

/-- An edge on its way from the filter to its delivery: its stamp, the angle word in that slot, its level and its direction
tag (R68, R73). -/
structure Edge where
  stamp : Nat := 0
  angle : Word := 0
  level : Bool := false
  rev   : Bool := false
  deriving DecidableEq, Repr, Inhabited

/-- A wheel input, beside its registers. -/
structure Whl where
  st : WhlState := .disabled
  /-- Detected level, the slot and angle word of its last change, and a detected crossing of a single-edge VR input that the
  filter has not passed yet (R64, R67). -/
  det    : Bool := false
  detAt  : Nat := 0
  detAng : Word := 0
  vrEdge : Bool := false
  /-- Peaks of the last positive and negative half-wave in 10 mV (R63). -/
  peakP  : Nat := 0
  peakN  : Nat := 0
  /-- Stamp of the last accepted edge (R71). -/
  lastAcc : Option Nat := none
  /-- Reference time and prediction in 1/256 slot (R75, R108). -/
  ref  : Option Nat := none
  pred : Option Nat := none
  /-- Limits of the open window (R81). -/
  lo : Nat := 9
  hi : Nat := 44
  /-- Slot from which the timeout counts (R77). -/
  tmoFrom : Nat := 0
  /-- An accepted edge that waits for its delivery, and one that waits for its opposite edge (R73). -/
  await : Option Edge := none
  dirPend : Option Edge := none
  /-- Stamps delivered since the wheel was enabled. -/
  delivered : Nat := 0
  /-- Stamp of the last delivered tooth. -/
  lastTooth : Option Nat := none
  deriving DecidableEq, Repr, Inhabited

/-- An echo generator, beside its registers: the level it gives before INV, the end of its pulse, a delayed next pulse (R91) or
falling edge (R93), its synthetic angle with 24 fraction bits, and the angle words up to which rising and falling edges have
been placed. -/
structure Echo where
  level   : Bool := false
  fallAt  : Option Nat := none
  riseAt  : Option Nat := none
  syn     : BitVec 56 := 0
  upTo    : Word := 0
  /-- Disabled with a pulse in progress, which runs to its natural end (R95). -/
  closing : Bool := false
  /-- Remainder of the synthetic angle below 2^-24 tick, over the period in force. -/
  frac    : Nat := 0
  deriving DecidableEq, Repr, Inhabited

/-! ### The angle observer and synchronisation (04_angle_observer.md, 05_synchronisation.md) -/

/-- An interval of the predictor history (R107): its length in slots, a, w, and whether it begins or ends on a paste tooth. -/
structure Ivl where
  len  : Rat := 0
  a    : Rat := 1
  w    : Rat := 1
  pasted : Bool := false
  deriving DecidableEq, Repr, Inhabited

/-- A tooth interval of a learning pass: slot, pitches, length, and twice its midpoint in slots (R128). -/
structure PassIvl where
  slot : Nat := 0
  k    : Nat := 1
  len  : Nat := 0
  mid2 : Nat := 0
  deriving DecidableEq, Repr, Inhabited

/-- Factor learning of one wheel (R126 to R129). -/
structure Learn where
  /-- The pass in progress, newest interval first; none outside a pass. -/
  pass   : Option (List PassIvl) := none
  spoiled : Bool := false
  /-- The adjacent previous pass: twice its midpoint in slots and its mean pitch time. -/
  prev   : Option (Rat × Rat) := none
  passes : Nat := 0
  deriving DecidableEq, Repr, Inhabited

/-- An interval of a cycle of torsional learning: point of R131, pitches, length and a (R132). -/
structure TorsIvl where
  pt  : Nat := 0
  k   : Nat := 1
  len : Rat := 0
  a   : Rat := 1
  deriving DecidableEq, Repr, Inhabited

/-- The observer, beside its registers. -/
structure Obs where
  /-- The angle word with 24 fraction bits (R111). -/
  ang : BitVec 56 := 0
  /-- Angle words of the last tooth s, of s+ and of s++ (R106), before the correction of R529. -/
  th0 : Word := 0
  th1 : Word := 0
  th2 : Word := 0
  /-- Slot of the last tooth and its revolution. -/
  slot : Nat := 0
  rev  : Nat := 0
  /-- Time of the last tooth or paste tooth, and whether it was a paste tooth. -/
  tRef : Option Nat := none
  refPaste : Bool := false
  /-- Prediction in force and provisional prediction, in 1/256 slot. -/
  pred : Option Nat := none
  prov : Option Nat := none
  /-- History, newest first (at most two). -/
  hist : List Ivl := []
  /-- Slot of the last forward jump and the angle it ended on (R119). -/
  jump : Option (Nat × Word) := none
  /-- Ticks since the last injection start, fuel edge or entry into FULL (R127), held at 2 cycles. -/
  noFuel : Nat := 0
  /-- Cycle count at the last cycle boundary that was applied (R303). -/
  cycle : Nat := 0
  /-- Learning of the six wheels. -/
  learn : Vector Learn 6 := Vector.replicate 6 {}
  /-- Intervals of the cycle in progress, whether all of it has been seen, and whether it holds a paste tooth (R124, R132). -/
  tors : List TorsIvl := []
  torsWhole : Bool := false
  torsSpoiled : Bool := false
  /-- Mean pitch time of the cycle before, and the learning cycles since the table was written (R132). -/
  torsPrev : Option Rat := none
  torsCount : Nat := 0
  /-- Sum and count of the errors e of R527 since the previous tooth (R529). -/
  eSum : Int := 0
  eCount : Nat := 0
  deriving DecidableEq, Repr, Inhabited

/-- A gap search (R141, R142). -/
structure Search where
  last : Option Nat := none
  ivs  : List Nat := []
  /-- Teeth delivered in the search, and the number of the tooth that ended the last gap. -/
  k    : Nat := 0
  gapK : Option Nat := none
  /-- Recorded gaps, oldest first: length and teeth since the previous gap. -/
  recs : List (Nat × Option Nat) := []
  deriving DecidableEq, Repr, Inhabited

/-- Synchronisation, beside its registers. -/
structure Sync where
  search : Search := {}
  /-- A cam edge matching entry 0 has been delivered in SEEK (R144). -/
  camRef : Bool := false
  /-- Consecutive reverse-tagged teeth (R161) and the forward count (R162). -/
  revRun : Nat := 0
  fwd    : Nat := 0
  /-- R148: the test in which the last cam edges matched (true: the other revolution) and how many. -/
  camSide : Option Bool := none
  camRun  : Nat := 0
  /-- R154: phase errors, angle word from which CAMLOSS counts, CAMLOSS already set. -/
  phErr   : Nat := 0
  camW    : Word := 0
  camLost : Bool := false
  /-- The phase was resolved by command and not confirmed since (R168). -/
  byCmd : Bool := false
  /-- A placement has been made since power-on reset, and the cycle count of the last word in force (R150). -/
  once   : Bool := false
  lastCycle : Nat := 0
  /-- Wheel of the secondary sensor, its search, its slot when placed, and its teeth inside and outside RTOL in a row. -/
  sec     : Nat := 1
  secSearch : Search := {}
  secSlot : Option Nat := none
  secIn  : Nat := 0
  secOut : Nat := 0
  /-- Delivered cam edges and secondary teeth that wait for their step. -/
  cams : List Edge := []
  /-- Angle word in the stamp's slot, and the slot of the secondary's pattern. -/
  secs : List (Word × Nat) := []
  deriving DecidableEq, Repr, Inhabited

/-! ### Interrupts and timers (10_interrupts_and_timers.md) -/

/-- The interrupt controller, beside its registers: which target has claimed which source in service (R326), and the filtered
levels of the EXTINT pins (R333). -/
structure IrqSt where
  /-- Source and target. -/
  claims : List (Nat × Nat) := []
  level  : BitVec 8 := 0xFF
  deriving DecidableEq, Repr, Inhabited

/-- A timer channel, beside its registers: the TOP in force (R334), the direction of MODE 2, a match, a wrap and a linked step
that are due (R337, R341), and the count at which a comparator edge that is not yet filtered began (R340). -/
structure Tmr where
  top  : Word := 0xFFFFFFFF
  down : Bool := false
  matchDue : Bool := false
  wrapDue  : Bool := false
  linkDue  : Bool := false
  cand : Option Word := none
  deriving DecidableEq, Repr, Inhabited

/-! ### The injector drive (11_injector_drive.md) -/

/-- States of an injection channel (R376). -/
inductive InjSt where
  | off | waitb | boost | peak | trans | hold | prop | decay | close | latched
  deriving DecidableEq, Repr, Inhabited

/-- An injection channel, beside its registers. Times are slots on `State.now`. -/
structure InjCh where
  st : InjSt := .off
  /-- The copy of the profile's five registers (R359). -/
  prof : Word := 0
  pk   : Word := 0
  hld  : Word := 0
  dth  : Word := 0
  det  : Word := 0
  /-- Slot of the start edge (of the start command in WAITB), minimum-duration end, and shift (R368). -/
  ts   : Nat := 0
  tmin : Nat := 0
  shift : Nat := 0
  /-- Entry into PEAK or PROP, and into CLOSE. -/
  segAt   : Nat := 0
  closeAt : Nat := 0
  /-- REQ (R363) and shed (R364). -/
  req  : Bool := false
  shed : Bool := false
  /-- The last end: its slot, and whether it was a natural end. -/
  tEnd : Nat := 0
  natural : Bool := false
  /-- A start and an end command whose slots lie ahead: profile, slot, t_min; slot, natural or not. -/
  armed  : Option (Nat × Nat × Nat) := none
  endCmd : Option (Nat × Bool) := none
  /-- An end under R374 that waits for the minimum-duration end: its slot, its cause, and whether the channel is then LATCHED. -/
  forced : Option (Nat × Nat × Bool) := none
  /-- The last nine converter codes, newest first (R379). -/
  codes : List Nat := []
  /-- Reference slope of the search, its result found, and the sample time of a detection not reported yet. -/
  sref  : Option Int := none
  found : Bool := false
  openDue  : Option Nat := none
  closeDue : Option Nat := none
  /-- On-time (R378): slots of the 99 sub-windows before, newest first, of the current one, and the start of an on-time in
  progress. -/
  win  : List Nat := []
  acc  : Nat := 0
  onAt : Option Nat := none
  deriving DecidableEq, Repr, Inhabited

/-- The drive island as a whole: ALRT_N (R385), boost converters stopped by VHVOV (R383), the banks of an off-state test, and
the link loss the high-voltage die has declared (R32). -/
structure Drive where
  /-- The pulse is running; a fault of class U or a link loss pulled it; REL was written during it. -/
  alrtPulse : Bool := false
  alrtU     : Bool := false
  alrtLink  : Bool := false
  alrtRel   : Bool := false
  ovStop    : Vector Bool 2 := Vector.replicate 2 false
  diagBanks : Nat := 0
  lost      : Bool := false
  deriving DecidableEq, Repr, Inhabited

/-! ### Valve PWM and comparators (12_valve_pwm_and_comparators.md) -/

/-- A PWM pair, beside its registers: its two switches, its request and whether the window is dropped (R397, R401). -/
structure Pwm where
  h   : Bool := false
  l   : Bool := false
  req : Bool := false
  dropped : Bool := false
  /-- The switch that waits for its dead time (true: the high side) and t0 (R398), and its turn-on time once known. -/
  inc  : Option (Bool × Nat) := none
  onAt : Option Nat := none
  /-- Time of the last period boundary, and of the last on edge of each switch. -/
  bAt : Nat := 0
  hOn : Nat := 0
  lOn : Nat := 0
  /-- Shadows written since their last load (R394), and what the last boundary loaded alone: 0 nothing, 1 PER, 2 DUT (R395). -/
  perW : Bool := false
  dutW : Bool := false
  lastLoad : Nat := 0
  /-- Prescaler counts of R403. -/
  ipc : Nat := 0
  tpc : Nat := 0
  /-- The safe duty is in force, and a RESUME waits for the next boundary (R404, R405). -/
  safeOn : Bool := false
  resume : Bool := false
  deriving DecidableEq, Repr, Inhabited

/-! ### Converters (13_converters.md) -/

/-- A fast conversion on its way, or the marker of a missing sample (R423, R437, R441). -/
structure Conv where
  /-- 0 angle, 1 injected, 2 regular, 3 loop, 4 self-calibration. -/
  src   : Nat := 0
  input : Nat := 0
  gain  : Nat := 0
  /-- Aperture. -/
  apt   : Nat := 0
  dly   : Bool := false
  /-- Entry of its sequence. -/
  idx   : Nat := 0
  /-- Its converter has been disabled (R442). -/
  kill  : Bool := false
  miss  : Bool := false
  /-- Angle word in the aperture slot. -/
  ang   : Option Word := none
  w2    : Word := 0
  w3    : Word := 0
  deriving DecidableEq, Repr, Inhabited

/-- A run of a sequence: the entries copied at its start, the next entry, the earliest acquisition, the requested instant of the
next aperture (R431, R432, R434). -/
structure SeqRun where
  ents : List Nat := []
  idx  : Nat := 0
  at_  : Nat := 0
  req  : Nat := 0
  deriving DecidableEq, Repr, Inhabited

/-- A fast self-calibration (R451): the gains to come, the conversions begun and completed for the first of them, the sums of
its raw codes, and the pairs found. -/
structure FCal where
  gains : List Nat := []
  begun : Nat := 0
  done  : Nat := 0
  sum0  : Nat := 0
  sum1  : Nat := 0
  pairs : List (Nat × Int × Int) := []
  deriving DecidableEq, Repr, Inhabited

/-- A fast converter, beside its registers. -/
structure Fadc where
  /-- Conversions and markers, oldest first. -/
  conv : List Conv := []
  /-- Gains of the last two completed conversions, and how many completed ones will still carry RECOV. -/
  gains : List Nat := []
  recov : Nat := 0
  reg : SeqRun := {}
  inj : SeqRun := {}
  loop : List Nat := []
  loopIdx : Nat := 0
  cal : Option FCal := none
  lastApt : Option Nat := none
  deriving DecidableEq, Repr, Inhabited

/-- The watch over one input or channel (R455, R456): results outside the window in a row, WINF already set, and the time of
the last valid result. -/
structure Watch where
  out  : Nat := 0
  set  : Bool := false
  okAt : Nat := 0
  deriving DecidableEq, Repr, Inhabited

/-- What a precision converter integrates (R446, R452, R453). -/
inductive PAct where
  | idle | list | cal | waitX | cross
  deriving DecidableEq, Repr, Inhabited

/-- A precision converter, beside its registers. -/
structure Padc where
  act : PAct := .idle
  /-- List entry, periods integrated in it, and the last period results with their saturation, newest first. -/
  idx : Nat := 0
  k   : Nat := 0
  hist : List (Int × Bool) := []
  /-- Words that will still carry INV (R447). -/
  inv : Nat := 0
  /-- FILT, PER, LOCK, MULT and the mains lock in force (R447), and the period in converter clocks. -/
  cfg : Nat × Nat × Nat × Nat × Bool := (0, 0, 0, 0, false)
  per : Nat := 0
  /-- A calibration asked for; a cross-check asked for; disabled in progress; list scans since the last check. -/
  calReq : Bool := false
  xReq   : Bool := false
  closing : Bool := false
  scans  : Nat := 0
  /-- Word of a cross-check. -/
  xWord  : Option Int := none
  deriving DecidableEq, Repr, Inhabited

/-- The mains (R445), and the fast conversions a cross-check gathers: sum in volts and count (R453). -/
structure Mains where
  last : Option Nat := none
  /-- The last eight intervals in slots, newest first. -/
  ivs  : List Nat := []
  xSum : Rat := 0
  xCnt : Nat := 0
  deriving DecidableEq, Repr, Inhabited

/-! ### The combustion datapath (14_combustion_loop.md) -/

/-- A sample of a window: its result word, a of R464, its slot word. -/
structure CmbSmp where
  res  : Word := 0
  a    : Int := 0
  slot : Word := 0
  deriving DecidableEq, Repr, Inhabited

/-- A combustion instance: its stream, T and SGEN, the values read at its open (R463), its samples, newest first, and what
closed it. -/
structure CmbWin where
  cyl  : Nat := 0
  tdc  : Word := 0
  sgen : Nat := 0
  sg   : Word := 0
  so   : Word := 0
  kc   : List Word := []
  smps : List CmbSmp := []
  ovf  : Bool := false
  aband : Bool := false
  /-- PREF latched (R472) and the slot word at the close. -/
  pref : Word := 0
  slot : Word := 0
  deriving DecidableEq, Repr, Inhabited

/-- A work instance: the sum of R478 so far, pressure and volume of its last good sample and the volume of its first. -/
structure WorkWin where
  cyl  : Nat := 0
  tdc  : Word := 0
  sgen : Nat := 0
  sg   : Word := 0
  so   : Word := 0
  sum  : Word := 0
  last : Option (Word × Word) := none
  v0   : Word := 0
  n    : Nat := 0
  bad  : Nat := 0
  psat : Bool := false
  slot : Word := 0
  deriving DecidableEq, Repr, Inhabited

/-- A stream: its open instances, T of the last instance opened and of the last closed of each kind, its last two combustion
records since it was enabled, newest first (VALID, MISF, PART), the pegging offset of its last record without PEGERR, and a
misfire run already reported (R483). -/
structure CmbStr where
  comb : List CmbWin := []
  work : List WorkWin := []
  opC  : Option Word := none
  opW  : Option Word := none
  clC  : Option Word := none
  clW  : Option Word := none
  recs : List (Bool × Bool × Bool) := []
  delta : Option Word := none
  told : Bool := false
  deriving DecidableEq, Repr, Inhabited

/-- The combustion datapath, beside its registers: the streams, closed instances that wait, oldest first, and the IMEP values
that dither adapter `d` has collected of stream `c`, at `12 d + c`. -/
structure Cmb where
  strs  : Vector CmbStr 12 := Vector.replicate 12 {}
  queue : List CmbWin := []
  works : List WorkWin := []
  imeps : Vector (List Word) 48 := Vector.replicate 48 []
  deriving DecidableEq, Repr, Inhabited

/-! ### The Chain (16_chain_and_host_links.md) -/

/-- A received frame that waits for its tag: its bytes, the port's path delay in 0.32 ns (R527), the unit's own angle word and
the time at its arrival. -/
structure ChnFrame where
  bytes : List Byte := []
  delay : Nat := 0
  ang   : Option Word := none
  at_   : Nat := 0
  deriving DecidableEq, Repr, Inhabited

/-- The frames of one superframe of one source received on one port (R524), oldest first: its SFSEQ, and its age in superframes. -/
structure ChnBuf where
  sf     : Option Word := none
  frames : List ChnFrame := []
  age    : Nat := 0
  deriving DecidableEq, Repr, Inhabited

/-- Another member of the ring. -/
structure ChnMember where
  unit  : Nat := 0
  quota : Nat := 0
  /-- HOP of its STATUS frames on CH0 and CH1 (R516), and the superframes since one verified on its preferred port. -/
  hop0  : Option Nat := none
  hop1  : Option Nat := none
  miss  : Nat := 0
  buf0  : ChnBuf := {}
  buf1  : ChnBuf := {}
  /-- The last SFSEQ accepted, the superframes since, and what its STATUS said: grade, LPRIO, CAND. -/
  lastSf : Option Word := none
  age   : Nat := 0
  grade : Nat := 0
  lprio : Nat := 0
  cand  : Bool := false
  /-- Consecutive superframes with a strictly higher grade than the sitting leader (R532). -/
  better : Nat := 0
  deriving DecidableEq, Repr, Inhabited

/-- An item of an authentication on its way to the other end (R519, R521). -/
structure AuthItem where
  isKey : Bool := false
  item  : Nat := 0
  data  : List Byte := []
  age   : Nat := 0
  acked : Bool := false
  deriving DecidableEq, Repr, Inhabited

/-- A Chain port. -/
structure ChnPort where
  up   : Bool := false
  auth : Bool := false
  /-- End of the 1 s for which the link is treated as down (R520), and the time of the first HELLO. -/
  hold : Option Nat := none
  t0   : Option Nat := none
  /-- Own nonce and ephemeral key of this authentication. -/
  nonce : List Byte := []
  seed  : Nat := 0
  /-- What the other end has sent: HELLO (nonce, mode), certificates, OFFER (quota, unit, key), RKEY, MTAB. -/
  hello : Option (List Byte × Nat) := none
  dev   : Option (List Byte) := none
  own   : Option (List Byte) := none
  offer : Option (Nat × Nat × List Byte) := none
  rkey  : Option (List Byte) := none
  mtab  : Option (List Byte) := none
  /-- The pairwise key, and the other end's MAC checked. -/
  pair  : Option (List Byte) := none
  keyed : Bool := false
  tx    : List AuthItem := []
  /-- The item in assembly: KEY or AUTH, number, fragments in all, those received. -/
  rxKey  : Bool := false
  rxItem : Nat := 0
  rxN    : Nat := 0
  rx     : List (Nat × List Byte) := []
  /-- CRC failures in this superframe. -/
  crc  : Nat := 0
  /-- An outstanding delay request (RSEQ) and its age in superframes (R526). -/
  dreq : Option (Nat × Nat) := none
  rseq : Nat := 0
  /-- Frames handed to the transmitter in this superframe: forwarded ones, which go first, and originated ones. -/
  fwd  : List (List Byte) := []
  out  : List (List Byte) := []
  deriving DecidableEq, Repr, Inhabited

/-- The Chain, beside its registers. -/
structure Chn where
  ports : Vector ChnPort 2 := Vector.replicate 2 {}
  /-- SFSEQ, the superframe count of R525, frames originated in this superframe. -/
  sfseq : Word := 0
  count : Nat := 0
  mine  : List (List Byte) := []
  /-- Slots each data channel has originated in this superframe. -/
  used  : Vector Nat 16 := Vector.replicate 16 0
  /-- Ring key (none: the key drawn at reset), generator and count of its KID (none: this unit). -/
  key   : Option (List Byte) := none
  gen   : Option Nat := none
  cnt   : Nat := 0
  members : List ChnMember := []
  /-- MEMB frames still to send: unit, quota, added, superframes left (R523). -/
  memb  : List (Nat × Nat × Bool × Nat) := []
  alone : Nat := 0
  /-- Sitting leader, own HYST count (R532). -/
  sit    : Option Nat := none
  better : Nat := 0
  /-- The sender followed, superframes since its last verified ANGLE frame, the leadership generation, and ceasing to lead (R533). -/
  fol    : Option Nat := none
  folAge : Nat := 0
  stop   : Bool := false
  /-- Messages outside and within ATOL in a row (R530). -/
  bad    : Nat := 0
  good   : Nat := 0
  /-- RING (R531): a first message in SEEK, SGEN of the leader, o, the last reference with its rate and time. -/
  first  : Bool := false
  sgen   : Nat := 0
  off    : Int := 0
  lastRef : Option (Word × Word × Nat) := none
  deriving DecidableEq, Repr, Inhabited

/-! ### The host links (16_chain_and_host_links.md) -/

/-- A frame in transmission by the MAC: words 0 and 1 of its entry, its bytes, its stamp in 2^-32 ns. -/
structure EthTx where
  addr  : Word := 0
  w1    : Word := 0
  bytes : List Byte := []
  stamp : Nat := 0
  deriving DecidableEq, Repr, Inhabited

/-- The MAC, beside its registers: the clock in 2^-32 ns (R541), the millisecond of the receive count, the count, the time of the
last accepted frame, the frame in transmission. -/
structure Eth where
  clk   : Nat := 0
  ms    : Nat := 0
  count : Nat := 0
  okAt  : Nat := 0
  tx    : Option EthTx := none
  /-- End of a pause asked for by a PAUSE frame (R538). -/
  pause : Nat := 0
  deriving DecidableEq, Repr, Inhabited

/-- A CAN controller, beside its registers: the millisecond of the receive count, the count, when each filter last matched. -/
structure Can where
  ms    : Nat := 0
  count : Nat := 0
  okAt  : Vector Nat 32 := Vector.replicate 32 0
  /-- Recovery from bus-off has been asked for (R544). -/
  rec_  : Bool := false
  deriving DecidableEq, Repr, Inhabited

/-! ### Locket (18_locket_and_hallmark.md) -/

/-- A record before its SEQ: an entry of the input queue, or a record Locket makes itself (R571, R573, R580). -/
structure LktRec where
  typ   : Nat := 0
  /-- A pinned copy is due; EARLY; a record of the pinned area itself. -/
  pin   : Bool := false
  early : Bool := false
  area  : Bool := false
  /-- Time, UNIT with TSRC, SGEN, SYNC and angle at the event. -/
  tsec  : Nat := 0
  tns   : Nat := 0
  src   : Nat := 0
  sgen  : Nat := 0
  sync  : Nat := 0
  ang   : Word := 0
  payload : List Byte := []
  deriving DecidableEq, Repr, Inhabited

/-- One of the two areas of records: the ring or the pinned area (R575, R576, R584, R585): next slot, next SEQ, the open block
(records in it, hash so far), H of the block before. -/
structure LktArea where
  slot : Nat := 0
  seq  : Nat := 0
  blk  : Option (Nat × List Byte) := none
  prev : List Byte := List.replicate 32 0
  deriving DecidableEq, Repr, Inhabited

/-- Locket, beside its registers. -/
structure Lkt where
  /-- Entries on their way to the input queue, the queue, and records that Locket itself has to write, oldest first. -/
  coming : List LktRec := []
  queue  : List LktRec := []
  own    : List LktRec := []
  /-- Drops since the queue was last empty: their count, and time of the first (R580). -/
  drops  : Nat := 0
  dropAt : Nat × Nat := (0, 0)
  ring   : LktArea := {}
  pinned : LktArea := { seq := 2 ^ 47 }
  /-- The oldest valid ring record: slot and SEQ. -/
  oldest : Option (Nat × Nat) := none
  /-- The record whose second line is still to be written, with its bytes (R575). -/
  writing : Option (LktRec × List Byte) := none
  /-- Seals waiting for their signature: area (true: pinned), EARLY. -/
  signs  : List (Bool × Bool) := []
  /-- Frame in which the last record was started (R579), time of the last pinned copy (R585). -/
  frame  : Option Nat := none
  copyAt : Option Nat := none
  /-- A block verification in progress, and a clear: its scope, the slot of its LINK, its CLEAR record (R587, R590). -/
  verify : Option (Nat × Bool) := none
  clear  : Option (Nat × Nat × LktRec × List Byte) := none
  /-- Calendar time in units of 10^-9/64 ns (R599), and the time of the last step, set or slew. -/
  cal    : Nat := 0
  discAt : Nat := 0
  deriving DecidableEq, Repr, Inhabited

/-- The SPI target port, beside its registers: the data words that the last READ or QGET shifts out (R545). -/
structure Spi where
  out : List Word := []
  deriving DecidableEq, Repr, Inhabited

/-- What the boot ROM has booted (R306): code and calibration slot, their VERSION, ROLLBACK and the first 8 DIGEST bytes of the
code image, and the RECOVERY state of R311. -/
structure Boot where
  slot  : Nat := 0
  cslot : Nat := 0
  ver   : Nat := 0
  cver  : Nat := 0
  rb    : Nat := 0
  crb   : Nat := 0
  digest : List Byte := List.replicate 8 0
  recovery : Bool := false
  /-- The boot ROM has run since the last reset. -/
  done : Bool := false
  deriving DecidableEq, Repr, Inhabited

/-! ### Hallmark (18_locket_and_hallmark.md) -/

/-- An enrolment slot of the store (R593). -/
structure HmkSlot where
  unit  : Nat := 0
  rootk : List Byte := []
  imgk  : List Byte := []
  authk : List Byte := []
  cert  : List Byte := []
  deriving DecidableEq, Repr, Inhabited

/-- The answer to the last read that a command of the outside world made: its word, and whether it was a bus error. -/
structure Answer where
  data : Word := 0
  err  : Bool := false
  deriving DecidableEq, Repr, Inhabited

/-! ### Policy pairs, memory and DMA (09_policy_processors_and_memory.md) -/

/-- What a policy pair does, beside a debug halt (which DBG_PSTAT shows): the boot ROM or a restart has not yet entered its entry
point, it runs, or a comparator, a fetch or the frame area has halted it until a restart (R281, R283, R332). -/
inductive PairRun where
  | boot | run | held
  deriving DecidableEq, Repr, Inhabited

/-- A policy pair, beside its registers: its outstanding loads, oldest first, each with its destination (32 up: f registers) and
its data (R229), its retired instructions (R236). -/
structure Pair where
  run : PairRun := .boot
  /-- Suspended in WFI. -/
  wfi : Bool := false
  loads  : List (Nat × Word) := []
  instrs : Nat := 0
  /-- A write of DBG_STEP lets one instruction through; a write of DBG_RES lets the BRK that pc names through (R636). -/
  step   : Bool := false
  resume : Bool := false
  deriving DecidableEq, Repr, Inhabited

/-- A DMA channel, beside its registers: the words of the current descriptor and the bytes of it that have been moved (R298). -/
structure Dma where
  desc : List Word := []
  done : Nat := 0
  deriving DecidableEq, Repr, Inhabited

/-- An MRAM line write in progress (R292): the policy target that commanded it, its target line, its data, and the result that is
already certain (0: none). -/
structure LineWrite where
  by_ : Option Nat := none
  dst : Nat := 0
  data : List Byte := []
  result : Nat := 0
  deriving DecidableEq, Repr, Inhabited

/-- What the fabric holds beside its registers: the DMA channels, a line write in progress, and the time of the last budget frame
pulse (R29). -/
structure Fabric where
  dma  : Vector Dma 16 := Vector.replicate 16 {}
  line : Option LineWrite := none
  pulseAt : Nat := 0
  deriving DecidableEq, Repr, Inhabited

/-! ### Faults (17_faults.md) -/

/-- The fault collector, beside its registers: the shadows in force, each with its blocks and the pulses left (R558), an armed
injection with its target, address and time of expiry (R565), and per APPLIED register the request that differed from it at
the last frame pulse, with whether its message is sent (R567). -/
structure Flt where
  shadows : List (Nat × Nat) := []
  armed   : Option (Nat × Nat × Nat) := none
  apply   : List (Nat × Word × Bool) := []
  deriving DecidableEq, Repr, Inhabited

/-! ### Supplies, reset, clocks, sleep (19_power_reset_clocks.md) -/

/-- RUN, ENTRY and SLEEP of R622. -/
inductive Mode where
  | run | entry | sleep
  deriving DecidableEq, Repr, Inhabited

/-- The supervisor, beside its registers. -/
structure Sys where
  /-- Power-on reset, and a system reset, in progress (R614), the time of its issue, and what holds the unit in it (1: R613, 2:
  R619, 3: both). -/
  por  : Bool := true
  rst  : Bool := false
  rstAt : Nat := 0
  hold : Nat := 0
  /-- The time to which RST_N stays low after a reset's end. -/
  rstn : Option Nat := none
  /-- A system reset asked for, with its cause and detail (R557, R547). -/
  ask  : Option (Nat × Nat) := none
  mode : Mode := .run
  /-- Time of the entry into SLEEP (R624). -/
  slept : Nat := 0
  /-- RTC count, its progress to the next tick in 1/32 slot, and an alarm that is due (R620, R621). -/
  rtc  : BitVec 48 := 0
  rtcAcc : Nat := 0
  alarm : Bool := false
  /-- Core clocks since reset (R236). -/
  clocks : Nat := 0
  /-- Times of the last good frame of the die-to-die link at the high-voltage die and at the logic die (R31). -/
  goodHv  : Nat := 0
  goodLog : Nat := 0
  deriving DecidableEq, Repr, Inhabited

/-- Loupe, beside its registers: the trace buffer, oldest packet first, packets lost since the last LOSS (none while packets are
being taken), the packets the last step has sent over the lanes, and a framing error that waits for 16 idle bits (R631, R635). -/
structure Dbg where
  buf  : List (List Byte) := []
  lost : Option Nat := none
  sent : List (List Byte) := []
  bad  : Bool := false
  deriving DecidableEq, Repr, Inhabited

/-! ### The whole machine -/

/-- The state. -/
structure State where
  /-- The commands that are waiting, first in, first out. -/
  pending : List Instr
  /-- The registers, by key (see `Sys2Proof/Machine/Ops.lean`): sparse, unlisted keys hold their reset value. -/
  regs : List (Nat × Word)
  /-- Memory, by key: sparse, canonical. -/
  mem : List Host.Cell
  /-- Items in flight, oldest first (R23). -/
  inflight : List Item
  /-- The 48-bit slot counter of 2.5 ns slots (R70). -/
  slot : BitVec 48
  /-- The model's own clock: slots since reset, from which every internal time counts (log 10). -/
  now : Nat
  /-- The angle word one slot ago (R466). -/
  prevAng : Word
  /-- The die-to-die link is trained (R30, R34). -/
  d2dUp : Bool
  /-- Wheel inputs and echo generators. -/
  whl : Vector Whl 6
  echo : Vector Echo 2
  /-- Observer and synchronisation. -/
  obs : Obs
  sync : Sync
  /-- Actions in the calendar in order of acceptance, and actions released to a stage in order of release (R181). -/
  calq : List Action
  stage : List Action
  /-- Aborts of the policy ports on their way to the output unit, oldest first: port and handle (R198). -/
  aborts : List (Nat × Word)
  /-- The 131,072 entries (R175, R177): sparse. -/
  calEnt : List (Nat × CalEnt)
  /-- Last tick of the buckets walked in the pass in force (R180). -/
  walked : Option Word
  /-- Output channels: INJ at 0, IGN at 12, AOUT at 36. -/
  outCh : Vector OutCh 52
  cyc : Vector CycCh 16
  /-- The 64 angle threads (R254). -/
  threads : Vector ThreadSt 64
  /-- Value in force of each trim at the last cycle boundary, B of R303 (0 where unlisted). -/
  trimB : List (Nat × Word)
  /-- The meters: account `a`, resource `r` at `5 a + r` (R496, R504). -/
  meters : Vector Meter 240
  /-- The number of the frame in progress at each island's meters (R495). -/
  frameNo : Vector Nat 9
  /-- The frame whose reports the guard island is collecting (R505). -/
  budFrame : BudFrame
  /-- Interrupt controller and timers. -/
  irq : IrqSt
  tmr : Vector Tmr 16
  /-- The injector drive. -/
  inj : Vector InjCh 12
  drive : Drive
  /-- The PWM pairs, and the start of each comparator's ramp (R412). -/
  pwm : Vector Pwm 10
  rampAt : Vector Nat 8
  /-- The converters: fast, precision, the watches over their inputs, and the mains. -/
  fadc : Vector Fadc 4
  padc : Vector Padc 2
  faWatch : Vector Watch 48
  paWatch : Vector Watch 16
  mains : Mains
  /-- The combustion datapath. -/
  cmb : Cmb
  /-- The Chain, the MAC, the CAN controllers, the SPI port. -/
  chn : Chn
  eth : Eth
  can : Vector Can 2
  spi : Spi
  /-- Locket, and what has been booted. -/
  lkt : Lkt
  boot : Boot
  /-- Hallmark's enrolment slots, oldest first. -/
  enrol : List HmkSlot
  /-- Policy pairs, fabric, fault collector, supervisor, Loupe. -/
  pairs : Vector Pair 4
  fabric : Fabric
  flt : Flt
  sys : Sys
  dbg : Dbg
  /-- The answer to the last read of a command. -/
  answer : Answer
  /-- The model's own counter: how many free values have been used (no state of the spec). -/
  freeUses : Nat
  deriving DecidableEq, Repr

/-- The machine right after power-on reset: every register at its reset value, memory with nothing listed, nothing in flight. -/
def State.reset : State where
  pending := []
  regs := []
  mem := []
  inflight := []
  slot := 0
  now := 0
  prevAng := 0
  d2dUp := false
  whl := Vector.replicate 6 {}
  echo := Vector.replicate 2 {}
  obs := {}
  sync := {}
  calq := []
  stage := []
  aborts := []
  calEnt := []
  walked := none
  outCh := Vector.replicate 52 {}
  cyc := Vector.replicate 16 {}
  threads := Vector.replicate 64 {}
  trimB := []
  meters := Vector.replicate 240 {}
  frameNo := Vector.replicate 9 0
  budFrame := {}
  irq := {}
  tmr := Vector.replicate 16 {}
  inj := Vector.replicate 12 {}
  drive := {}
  pwm := Vector.replicate 10 {}
  rampAt := Vector.replicate 8 0
  fadc := Vector.replicate 4 {}
  padc := Vector.replicate 2 {}
  faWatch := Vector.replicate 48 {}
  paWatch := Vector.replicate 16 {}
  mains := {}
  cmb := {}
  chn := {}
  eth := {}
  can := Vector.replicate 2 {}
  spi := {}
  lkt := {}
  boot := {}
  enrol := []
  pairs := Vector.replicate 4 {}
  fabric := {}
  flt := {}
  sys := {}
  dbg := {}
  answer := {}
  freeUses := 0

end Sys2Proof.Machine
end

