-- ==== Sys2Proof/Machine/Ops.lean ====
section
/-! DEFINITION. The named operations every meaning uses: registers and their fields, memory, items in flight, event bits with
their interrupt messages, fault messages, and the write rule of R13.

Keys of registers: a register of the address map has its bus address (R37, R39) as key; a register without a bus address (the
general, floating-point and control registers of a policy pair) has a key from 2^32 on. Keys of memory bytes: the bus address;
from 2^32 on the bytes of the private local memories of the pairs (R284). -/

namespace Sys2Proof.Machine

/-! ### Keys of the pairs' own registers -/

/-- General register `r` of pair `t`. -/
abbrev gKey (t r : Nat) : Nat := 0x100000000 + 0x1000 * t + 4 * r

/-- Floating-point register `r` of pair `t`. -/
abbrev fKey (t r : Nat) : Nat := 0x100000080 + 0x1000 * t + 4 * r

/-- Control register `c` of pair `t` (R236). -/
abbrev csrKey (t c : Nat) : Nat := 0x100000100 + 0x1000 * t + 4 * c

/-- Program counter of pair `t`. -/
abbrev pcKey (t : Nat) : Nat := 0x100000F00 + 0x1000 * t

/-! ### Block numbers (R39, R551) -/

abbrev blkSYS : Nat := 0
abbrev blkFLT : Nat := 1
abbrev blkBUD : Nat := 2
abbrev blkIRQ : Nat := 3
abbrev blkTMR : Nat := 4
abbrev blkWHL : Nat := 5
abbrev blkOBS : Nat := 6
abbrev blkCAL : Nat := 7
abbrev blkAEN : Nat := 8
abbrev blkOUT : Nat := 9
abbrev blkINJ : Nat := 10
abbrev blkPWM : Nat := 11
abbrev blkCMP : Nat := 12
abbrev blkFADC : Nat := 13
abbrev blkPADC : Nat := 14
abbrev blkCMB : Nat := 15
abbrev blkCHN : Nat := 16
abbrev blkETH : Nat := 17
abbrev blkCAN : Nat := 18
abbrev blkSPI : Nat := 19
abbrev blkLKT : Nat := 20
abbrev blkHMK : Nat := 21
abbrev blkQUE : Nat := 22
abbrev blkDBG : Nat := 23
abbrev blkPAIR : Nat := 24
abbrev blkCROSS : Nat := 25
abbrev blkD2D : Nat := 26
abbrev blkFABRIC : Nat := 27

/-- The island a block lives in (R19, R39); policy pairs send from the policy island, crossings from their destination (the
caller names it), the die-to-die link from its logic-die end, the fabric bus from the fabric island. -/
def islandOf (blk : Nat) : Island :=
  match blk with
  | 3 | 24 => .policy
  | 4 => .timer
  | 5 | 6 | 7 | 8 | 9 | 26 => .angle
  | 10 | 11 => .drive
  | 12 | 13 | 14 => .converter
  | 15 => .combustion
  | 16 | 17 | 18 | 19 | 23 => .link
  | 22 | 27 => .fabric
  | _ => .guard

/-- The UNIT code of an island (R551). -/
def islandCode : Island → Nat
  | .angle => 0 | .policy => 1 | .fabric => 2 | .combustion => 3 | .converter => 4 | .link => 5 | .timer => 6 | .guard => 7
  | .drive => 8

/-- Block number of a bus address in the register blocks. -/
abbrev blkOf (a : Nat) : Nat := (a - 0x40000000) / 0x10000

/-! ### Reset values -/

/-- Reset value of a pair's own register: COREID holds the pair number, ISAVER 0x0001_0000, STATUS has PRIV = 1 (R236); the
rest, which the spec gives no reset value, 0 (log 2). -/
def coreReset (k : Nat) : Word :=
  let t := (k - 0x100000000) / 0x1000
  let o := (k - 0x100000000) % 0x1000
  if k < 0x100000000 then 0
  else if o = 0x100 then 2
  else if o = 0x100 + 4 * 11 then BitVec.ofNat 32 t
  else if o = 0x100 + 4 * 12 then 0x00010000
  else 0

/-- What a register holds at reset (R11: the Reset column; the log for those the spec leaves open). -/
def resetOf (k : Nat) : Word :=
  if k < 0x40000000 then 0
  else if k < 0x40180000 then
    if blkOf k = blkHMK ∧ HMK_CHAL 0 ≤ k ∧ k ≤ HMK_CHAL 3 then Config.hmkChal ((k - HMK_CHAL 0) / 4)
    else if k = INJ_BANK 2 ∨ k = INJ_BANK 3 then BitVec.ofNat 32 (1 + 500 * 65536)
    else if k = DBG_CTRL then 1
    else match rowFind (blockRows (blkOf k)) (k % 0x10000) with
      | some (r, _, _) => BitVec.ofNat 32 r.rst
      | none => 0
  else coreReset k

/-! ### Registers -/

/-- The value of a register. -/
def State.reg (s : State) (k : Nat) : Word := tabGet resetOf s.regs k

/-- The state with a register set. -/
def State.setReg (s : State) (k : Nat) (v : Word) : State := { s with regs := tabSet resetOf s.regs k v }

/-- The value of a register's field. -/
def State.fld (s : State) (k : Nat) (f : Fld) : Nat := f.get (s.reg k)

/-- The value of a register's field read as two's complement. -/
def State.fldI (s : State) (k : Nat) (f : Fld) : Int := f.getI (s.reg k)

/-- The state with a register's field set. -/
def State.setFld (s : State) (k : Nat) (f : Fld) (v : Nat) : State := s.setReg k (f.set (s.reg k) v)

/-- Bit `i` of a register. -/
def State.bit (s : State) (k i : Nat) : Bool := bitOf (s.reg k) i

/-- The state with bit `i` of a register set to `b`. -/
def State.setBit (s : State) (k i : Nat) (b : Bool) : State := s.setReg k (withBit (s.reg k) i b)

/-- A counting field of a register stepped up by `n`, saturating at the field's largest value. -/
def State.count (s : State) (k : Nat) (f : Fld) (n : Nat) : State := s.setFld k f (capAt (2 ^ f.w - 1) (s.fld k f + n))

/-! ### Memory -/

/-- What a byte that nothing has written reads as: the boot ROM's contents; 0 elsewhere (log 1). -/
def memDefault (a : Nat) : Byte := if a < 0x10000 then Config.romByte a else 0

/-- The byte at a key. -/
def State.rd8 (s : State) (a : Nat) : Byte := tabGet memDefault s.mem a

/-- The state with the byte at a key set. -/
def State.wr8 (s : State) (a : Nat) (b : Byte) : State := { s with mem := tabSet memDefault s.mem a b }

/-- The `n` bytes from a key on. -/
def State.rdBytes (s : State) (a : Nat) : Nat → List Byte
  | 0 => []
  | n + 1 => s.rd8 a :: s.rdBytes (a + 1) n

/-- The state with bytes written from a key on. -/
def State.wrBytes (s : State) (a : Nat) : List Byte → State
  | [] => s
  | b :: t => (s.wr8 a b).wrBytes (a + 1) t

/-- The little-endian word at a key (R6). -/
def State.rd32 (s : State) (a : Nat) : Word := BitVec.ofNat 32 (ofBytes (s.rdBytes a 4))

/-- The state with a little-endian word written (R6). -/
def State.wr32 (s : State) (a : Nat) (w : Word) : State := s.wrBytes a (toBytes 4 w.toNat)

/-- The words of `n` consecutive word addresses. -/
def State.rdWords (s : State) (a : Nat) : Nat → List Word
  | 0 => []
  | n + 1 => s.rd32 a :: s.rdWords (a + 4) n

/-- The memory is in its canonical form. -/
abbrev Memory.wf (m : List Host.Cell) : Bool := tabWf memDefault m

/-! ### Items in flight -/

/-- Launch an item on a crossing, behind every earlier item (R23). -/
def State.launch (s : State) (src dst : Island) (b : Body) : State :=
  { s with inflight := s.inflight ++ [⟨src, dst, b⟩] }

/-- The oldest item of a crossing. -/
def firstItem (src dst : Island) : List Item → Option Body
  | [] => none
  | i :: t => if i.src = src ∧ i.dst = dst then some i.body else firstItem src dst t

/-- The items without the oldest item of a crossing. -/
def dropFirstItem (src dst : Island) : List Item → List Item
  | [] => []
  | i :: t => if i.src = src ∧ i.dst = dst then t else i :: dropFirstItem src dst t

/-- The die-to-die link carries items: trained, and neither end has declared its loss (R31 to R34). -/
def State.linkOk (s : State) : Bool := s.d2dUp && !s.drive.lost

/-- The oldest item of a crossing, which arrives next (R23). Nothing crosses a lost die-to-die link: its items are held (R24,
R33). -/
def State.nextItem (s : State) (src dst : Island) : Option Body :=
  if (src == .drive || dst == .drive) && src != dst && !s.linkOk then none else firstItem src dst s.inflight

/-- A good frame has crossed the die-to-die link (R31). -/
def State.goodFrame (s : State) (toHv : Bool) : State :=
  { s with sys := if toHv then { s.sys with goodHv := s.now } else { s.sys with goodLog := s.now } }

/-- The state once the oldest item of a crossing has been acknowledged (R24); on the die-to-die link it came in a good frame. -/
def State.ackItem (s : State) (src dst : Island) : State :=
  let s1 : State := { s with inflight := dropFirstItem src dst s.inflight }
  if src = .angle ∧ dst = .drive then s1.goodFrame true
  else if src = .drive ∧ dst = .angle then s1.goodFrame false
  else s1

/-! ### Events and fault messages -/

/-- First interrupt source of an event register (R317). -/
def evtBase (k : Nat) : Nat :=
  if k = WHL_EVT then 16 else if k = OBS_EVT then 48 else if k = OBS_SEVT then 64 else if k = CAL_EVT then 80
  else if k = OUT_EVT then 88 else if k = AEN_EVT then 96 else if k = QUE_EVT then 104 else if k = TMR_EVT then 112
  else if k = INJ_EVT then 144 else if k = PWM_EVT then 176 else if k = CMP_EVT then 192 else if k = FADC_EVT then 208
  else if k = PADC_EVT then 224 else if k = CMB_EVT then 240 else if k = CHN_EVT then 272 else if k = ETH_EVT then 288
  else if k = CAN_EVT then 304 else if k = SPI_EVT then 320 else if k = LKT_EVT then 336 else if k = HMK_EVT then 352
  else if k = FLT_EVT then 368 else if k = BUD_EVT then 384 else if k = SYS_EVT then 400 else if k = DBG_EVT then 416
  else if k = TMR_CEVT then 432 else 0

/-- An event: its bit in the block's event register is set and one interrupt message leaves for the controller, whether or not
the bit was set already (R316, R317). -/
def State.raise (s : State) (evt bit : Nat) : State :=
  (s.setBit evt bit true).launch (islandOf (blkOf evt)) .policy (.irq (evtBase evt + bit) true true)

/-- The 64-bit fault message of R550. -/
def faultWord (blk unit kind cls inj detail : Nat) : BitVec 64 :=
  BitVec.ofNat 64 (blk % 64 * 2 ^ 58 + unit % 16 * 2 ^ 54 + kind % 256 * 2 ^ 46 + cls % 4 * 2 ^ 44 + inj % 2 * 2 ^ 43
    + detail % 2 ^ 32)

/-- Classes of R550. -/
abbrev clsC : Nat := 1
abbrev clsU : Nat := 2
abbrev clsF : Nat := 3

/-- A block sends a fault message to the collector (R550 to R553). -/
def State.sendFault (s : State) (blk unit kind cls detail : Nat) : State :=
  s.launch (islandOf blk) .guard (.fault (faultWord blk unit kind cls 0 detail))

/-- A fault message sent from a named island (crossings, R551). -/
def State.sendFaultFrom (s : State) (isl : Island) (blk unit kind cls detail : Nat) : State :=
  s.launch isl .guard (.fault (faultWord blk unit kind cls 0 detail))

/-! ### The write rule of R13 -/

/-- The offset of the write-error register of a block. -/
def werrKey (blk : Nat) : Nat :=
  match blk with
  | 0 => SYS_WERR | 1 => FLT_WERR | 2 => BUD_WERR | 3 => IRQ_WERR | 4 => TMR_WERR | 5 => WHL_WERR | 6 => OBS_WERR
  | 7 => CAL_WERR | 8 => AEN_WERR | 9 => OUT_WERR | 10 => INJ_WERR | 11 => PWM_WERR | 12 => CMP_WERR | 13 => FADC_WERR
  | 14 => PADC_WERR | 15 => CMB_WERR | 16 => CHN_WERR | 17 => ETH_WERR | 18 => CAN_WERR | 19 => SPI_WERR | 20 => LKT_WERR
  | 21 => HMK_WERR | 22 => QUE_WERR | _ => DBG_WERR

/-- The register of a block that holds the offset of its last refused write. -/
def werraKey (blk : Nat) : Nat :=
  match blk with
  | 0 => SYS_WERRA | 1 => FLT_WERRA | 2 => BUD_WERRA | 3 => IRQ_WERRA | 4 => TMR_WERRA | 5 => WHL_WERRA | 6 => OBS_WERRA
  | 7 => CAL_WERRA | 8 => AEN_WERRA | 9 => OUT_WERRA | 10 => INJ_WERRA | 11 => PWM_WERRA | 12 => CMP_WERRA | 13 => FADC_WERRA
  | 14 => PADC_WERRA | 15 => CMB_WERRA | 16 => CHN_WERRA | 17 => ETH_WERRA | 18 => CAN_WERRA | 19 => SPI_WERRA | 20 => LKT_WERRA
  | 21 => HMK_WERRA | 22 => QUE_WERRA | _ => DBG_WERRA

/-- The unit a WERR message names (R551): the instance the refused register belongs to, where the block's UNIT names such an
instance; 0 otherwise (log 8). -/
def werrUnit (blk off i : Nat) : Nat :=
  if blk = blkAEN then (if 0x1000 ≤ off ∧ off < 0x3000 then i / 32 else if off = 0x20 ∨ off = 0x24 ∨ off = 0x28 ∨ off = 0x2C then i else 0)
  else if blk = blkINJ then (if 0x40 ≤ off then i else 0)
  else if blk = blkFADC then (if 0x100 ≤ off ∧ off < 0x500 then i else 0)
  else if blk = blkPADC then (if 0x100 ≤ off ∧ off < 0x200 then i else 0)
  else if blk = blkCMB then (if 0x100 ≤ off ∧ off < 0x400 then i else 0)
  else if blk = blkCAN then (if 0x14 ≤ off then i else 0)
  else 0

/-- A register write is refused whole: the register's bit of WERR is set, WERRA holds its offset and a C-class WERR message is
sent (R13, R552). -/
def State.refuseWrite (s : State) (addr : Nat) : State :=
  match rowFind (blockRows (blkOf addr)) (addr % 0x10000) with
  | none => s
  | some (r, i, _) =>
    let s1 := match r.werr with
      | .none => s
      | .bit b => s.setBit (werrKey (blkOf addr)) b true
      | .inst b => s.setBit (werrKey (blkOf addr)) (b + i) true
    (s1.setFld (werraKey (blkOf addr)) ⟨0, 16⟩ (addr % 0x10000)).sendFault (blkOf addr)
      (werrUnit (blkOf addr) (addr % 0x10000) i) 0x01 clsC (addr % 0x10000)

/-- A register write under R13, as far as the register's own bits go: the new register word, or none where the write is
refused. `locked` says that the unit of the row's RWC fields is enabled, `legal` that the chapter's own conditions hold. -/
def State.tryWrite (s : State) (addr : Nat) (w : Word) (locked legal : Bool) : Option Word :=
  match rowFind (blockRows (blkOf addr)) (addr % 0x10000) with
  | none => some 0
  | some (r, _, _) =>
    if fieldsLegal r.flds w && (!locked || rwcSame r.flds (s.reg addr) w) && legal
    then some (mergeFields r.flds (s.reg addr) w) else none

/-- A register write under R13: refused whole, or the register takes its new word and the block then does what the write
means (`act`, given the state with the new word). A write to an offset that holds no register has no effect (R12; log 9). -/
def State.writeWith (s : State) (addr : Nat) (w : Word) (locked legal : Bool) (act : State → State) : State :=
  match rowFind (blockRows (blkOf addr)) (addr % 0x10000) with
  | none => s
  | some (r, _, _) =>
    if fieldsLegal r.flds w && (!locked || rwcSame r.flds (s.reg addr) w) && legal
    then act (s.setReg addr (mergeFields r.flds (s.reg addr) w)) else s.refuseWrite addr

/-! ### Free values -/

/-- The next free value, depending on `k` (log 7). -/
def State.freeVal (s : State) (k : Nat) : Nat := Config.freeValue s.freeUses k

/-- The state after a free value has been used. -/
def State.useFree (s : State) : State := { s with freeUses := s.freeUses + 1 }

/-! ### Answers -/

/-- The state with the answer to a read. -/
def State.respond (s : State) (w : Word) (err : Bool) : State := { s with answer := { data := w, err := err } }

/-! ### Slots -/

/-- The low word of the slot counter, in which stamps and slot numbers are given (R70). -/
def State.slotW (s : State) : Word := s.slot.setWidth 32

/-- The slot word of a time on the model's clock. -/
def State.slotAt (s : State) (t : Nat) : Word := s.slotW + BitVec.ofNat 32 t - BitVec.ofNat 32 s.now

/-- The time on the model's clock that a slot word names, the nearer way round; a time before reset counts as reset. -/
def State.timeOf (s : State) (w : Word) : Nat := ((s.now : Int) + wDiff w s.slotW).toNat

/-- A rational number rounded to the nearest whole number, an exact half up (R9). -/
def rround (q : Rat) : Int := (q + 1 / 2).floor

/-- The larger of two slot words (R10). -/
def wMax (a b : Word) : Word := if wReached a b then a else b

end Sys2Proof.Machine
end

