-- ==== Sys2Proof/Machine/Budget.lean ====
section
/-! DEFINITION. Time budgets (15_budgets.md): accounts, meters, what a request draws and what an exhausted account does,
the frame pulse at a meter, overrun reports and the registers of BUD. -/

namespace Sys2Proof.Machine

/-! ### Resources (R494) -/

abbrev resFABRIC : Nat := 0
abbrev resISSUE : Nat := 1
abbrev resMRAM : Nat := 2
abbrev resCHAIN : Nat := 3
abbrev resCONV : Nat := 4

/-- Capacity of a resource per frame (R494). -/
def budCapacity : Nat → Nat
  | 0 => 65536 | 1 => 8188 | 2 => 3 | 3 => 398 | _ => 204

/-- Reserve of a resource per frame (R494). -/
def budReserve : Nat → Nat
  | 0 => 4096 | 2 => 1 | _ => 0

/-- The island that holds the meter of a resource (R494). -/
def meterIsland : Nat → Island
  | 0 | 2 => .fabric | 1 => .angle | 3 => .link | _ => .converter

/-- The meter of an account for a resource. -/
def State.meter (s : State) (a r : Nat) : Meter := vat s.meters (5 * a + r)

/-- The state with a meter changed. -/
def State.updMeter (s : State) (a r : Nat) (f : Meter → Meter) : State := { s with meters := vupd s.meters (5 * a + r) f }

/-- The account a binding names, if it is enabled (R497, R498). -/
def State.binding (s : State) (x : Nat) : Option Nat :=
  if s.fld (BUD_BIND x) BUD_BIND_EN = 1 then some (s.fld (BUD_BIND x) BUD_BIND_ACCT) else none

/-- The account has `n` carats of the resource left, or stalls nothing (R496, R502). -/
def Meter.has (m : Meter) (n : Nat) : Bool := !m.en || !m.enforce || decide (m.used + n ≤ m.limit)

/-- The activity's account has `n` carats of the resource left (an unbound activity is never held back). -/
def State.budHas (s : State) (acct : Option Nat) (r n : Nat) : Bool :=
  match acct with
  | none => true
  | some a => (s.meter a r).has n

/-- `n` carats are drawn: the use counts, and use beyond the limit is an overrun (R496). -/
def Meter.draw (m : Meter) (n : Nat) : Meter :=
  if m.en then { m with used := m.used + n, overrun := m.overrun || decide (m.limit < m.used + n) } else m

/-- A request is served and charged (R496). An account with EN = 0 charges nothing. -/
def State.budDraw (s : State) (acct : Option Nat) (r n : Nat) : State :=
  match acct with
  | none => s
  | some a => s.updMeter a r fun m => m.draw n

/-- A request finds no carat left, which is an overrun (R496). -/
def State.budStarve (s : State) (acct : Option Nat) (r : Nat) : State :=
  match acct with
  | none => s
  | some a => s.updMeter a r fun m => if m.en then { m with overrun := true } else m

/-- An entry dropped on an exhausted account is counted in `BUD_DROPa` and sets DROP (R502, R509). -/
def State.budDrop (s : State) (acct : Option Nat) : State :=
  match acct with
  | none => s
  | some a => ((s.count (BUD_DROP a) BUD_DROP_DROP 1).raise BUD_EVT BUD_EVT_DROP)

/-! ### Legality of the BUD registers (R498, R499) -/

/-- Sum of the limits of resource `r` over the enabled ENFORCE accounts below `n`. -/
def State.enforceSum (s : State) (r : Nat) : Nat → Nat
  | 0 => 0
  | n + 1 => s.enforceSum r n +
      (if s.fld (BUD_ACFG n) BUD_ACFG_EN = 1 ∧ s.fld (BUD_ACFG n) BUD_ACFG_MODE = 1 then s.fld (BUD_LIM n r) BUD_LIM_LIMIT else 0)

/-- The sums of R499 hold for every resource. -/
def State.budSumsOk (s : State) : Bool :=
  (List.range 5).all fun r => decide (s.enforceSum r 48 ≤ budCapacity r - budReserve r)

/-- BUD_BIND6 and BUD_BIND7 name only WATCH accounts (R498). -/
def State.budBindsOk (s : State) : Bool :=
  [6, 7].all fun x => match s.binding x with
    | none => true
    | some a => s.fld (BUD_ACFG a) BUD_ACFG_MODE == 0

/-- A write to a BUD register keeps R498 and R499. -/
def budLegal (s : State) (addr : Nat) (w : Word) : Bool :=
  match s.tryWrite addr w false true with
  | none => true
  | some v =>
    let s' := s.setReg addr v
    let o := addr % 0x10000
    if 0x40 ≤ o ∧ o < 0x80 then s'.budBindsOk
    else if 0x1000 ≤ o then
      let r := (o % 0x20) / 4
      if r = 0 then s'.budSumsOk && s'.budBindsOk
      else if r ≤ 5 then s'.budSumsOk && decide (BUD_LIM_LIMIT.get v ≤ budCapacity (r - 1)) else true
    else true

/-- Clear the frame counts and drop counts of the accounts below `n` (R509). -/
def State.budClearCounts (s : State) : Nat → State
  | 0 => s
  | n + 1 => ((s.budClearCounts n).setFld (BUD_OVR n) BUD_OVR_FRAMES 0).setReg (BUD_DROP n) 0

/-- A write to a BUD register (R509). -/
def State.budWrite (s : State) (addr : Nat) (w : Word) : State :=
  s.writeWith addr w false (budLegal s addr w) fun t =>
    if addr = BUD_CLR then
      let t1 := if bitOf w 0 then t.budClearCounts 48 else t
      if bitOf w 1 then t1.setReg BUD_MONPEAK 0 else t1
    else if addr = BUD_MONSEL then t.setReg BUD_MONPEAK 0
    else t

/-! ### The frame pulse (R29, R503 to R505) -/

/-- The resources metered in an island (R494). -/
def islandRes (i : Island) : List Nat := (List.range 5).filter fun r => meterIsland r = i

/-- What an island's meters report of account `a` at the close of a frame: the resources that overran and whether the account
was ENFORCE there. -/
def State.overrunOf (s : State) (i : Island) (a : Nat) : Option (Nat × Nat × Bool) :=
  let rs := (islandRes i).filter fun r => (s.meter a r).overrun
  if rs.isEmpty then none
  else some (a, rs.foldl (fun m r => m + 2 ^ r) 0, rs.any fun r => (s.meter a r).enforce)

/-- The monitored account's peak use is kept at the close of a frame (R509). -/
def State.monitorPeak (s : State) (i : Island) : State :=
  let r := s.fld BUD_MONSEL BUD_MONSEL_RES
  let u := (s.meter (s.fld BUD_MONSEL BUD_MONSEL_ACCT) r).used
  if meterIsland r = i ∧ s.fld BUD_MONPEAK BUD_MONPEAK_PEAK < u then s.setFld BUD_MONPEAK BUD_MONPEAK_PEAK (capAt 131071 u) else s

/-- A meter after the refill: what the BUD registers ask for is in force and nothing is used (R503, R504). -/
def State.refilled (s : State) (a r : Nat) : Meter :=
  { en := s.fld (BUD_ACFG a) BUD_ACFG_EN = 1, enforce := s.fld (BUD_ACFG a) BUD_ACFG_MODE = 1,
    limit := s.fld (BUD_LIM a r) BUD_LIM_LIMIT, used := 0, overrun := false }

/-- Every account an island serves is refilled (R503). -/
def State.refillMeters (s : State) (i : Island) : State :=
  { s with meters := Vector.ofFn fun k => if meterIsland (k.val % 5) = i then s.refilled (k.val / 5) (k.val % 5) else s.meters[k] }

/-- An island's meters close the frame, report its overruns to the guard island and refill (R503, R505). -/
def State.closeFrame (s : State) (i : Island) : State :=
  let n := vat s.frameNo (islandCode i)
  let rep := (List.range 48).filterMap fun a => s.overrunOf i a
  let s1 := (s.monitorPeak i).launch i .guard (.budReport n rep)
  let s2 := s1.refillMeters i
  { s2 with frameNo := vset s2.frameNo (islandCode i) (n + 1) }

/-! ### Overrun reports in the guard island (R505, R506) -/

/-- One account's overrun is counted: once per frame number; the resources of further reports of the same frame are added. -/
def State.countOverrun (s : State) (a res : Nat) (enf : Bool) : State :=
  let again := s.budFrame.overs.any fun p => p.1 == a
  let s1 := s.raise BUD_EVT (if enf then BUD_EVT_OVR else BUD_EVT_WATCH)
  if again then s1.setFld (BUD_OVR a) BUD_OVR_RES (s1.fld (BUD_OVR a) BUD_OVR_RES ||| res)
  else
    let run := s1.fld (BUD_OVR a) BUD_OVR_RUN
    let s2 := ((s1.count (BUD_OVR a) BUD_OVR_FRAMES 1).count (BUD_OVR a) BUD_OVR_RUN 1).setFld (BUD_OVR a) BUD_OVR_RES res
    let s3 := s2.setBit (if a < 32 then BUD_OVRSUM0 else BUD_OVRSUM1) (a % 32) true
    let pers := s3.fld (BUD_ACFG a) BUD_ACFG_PERS
    let s4 := { s3 with budFrame := { s3.budFrame with overs := (a, res) :: s3.budFrame.overs } }
    if pers ≠ 0 ∧ run < pers ∧ s4.fld (BUD_OVR a) BUD_OVR_RUN = pers
    then (s4.raise BUD_EVT BUD_EVT_PERS).sendFault blkBUD 0 0x10 clsC a else s4

/-- The runs of the accounts below `n` that have no overrun in the closed frame return to 0 (R505). -/
def State.endRuns (s : State) : Nat → State
  | 0 => s
  | n + 1 =>
    let t := s.endRuns n
    if t.budFrame.overs.any fun p => p.1 == n then t else t.setFld (BUD_OVR n) BUD_OVR_RUN 0

/-- Start collecting frame `n`: the summary of the last closed frame begins anew (R505, R509). -/
def State.openBudFrame (s : State) (n : Nat) : State :=
  { (s.setReg BUD_OVRSUM0 0).setReg BUD_OVRSUM1 0 with budFrame := { num := n, reports := 0, overs := [] } }

/-- A meter's report reaches the guard island. Once the four meters (fabric, angle, link, converter) have reported a frame,
accounts with no overrun in it end their run. A report of a later frame than the one being collected closes that one. -/
def State.takeReport (s : State) (frame : Nat) (entries : List (Nat × Nat × Bool)) : State :=
  let s1 :=
    if s.budFrame.reports = 0 then s.openBudFrame frame
    else if s.budFrame.num < frame then (if s.budFrame.reports < 4 then s.endRuns 48 else s).openBudFrame frame
    else s
  let s2 : State := entries.foldl (fun t e => t.countOverrun e.1 e.2.1 e.2.2) s1
  let s3 : State := { s2 with budFrame := { s2.budFrame with reports := s2.budFrame.reports + 1 } }
  if s3.budFrame.reports = 4 then s3.endRuns 48 else s3

/-! ### Commands -/

/-- `BUDGET_OVERRUN_REPORT` (R505): the oldest item of the meter island's crossing into the guard island, if it is an overrun
report, updates the accounts' counts and events. -/
def execBudgetOverrunReport (src : Island) (s : State) : Host.Outcome State Fault Refusal :=
  match s.nextItem src .guard with
  | some (.budReport n es) => .next ((s.ackItem src .guard).takeReport n es)
  | _ => .next s

/-- `BUD_CLR_CNT` (R509): `BUD_CLR.CNT` = 1. -/
def execBudClrCnt (s : State) : Host.Outcome State Fault Refusal := .next (s.budWrite BUD_CLR 1)

/-- `BUD_CLR_PEAK` (R509): `BUD_CLR.PEAK` = 1. -/
def execBudClrPeak (s : State) : Host.Outcome State Fault Refusal := .next (s.budWrite BUD_CLR 2)

/-- `BUD_MONSEL_WRITE` (R509): a write to BUD_MONSEL selects the monitored account and restarts the peak. -/
def execBudMonselWrite (w : Word) (s : State) : Host.Outcome State Fault Refusal := .next (s.budWrite BUD_MONSEL w)

end Sys2Proof.Machine
end

