-- ==== Sys2Proof/Machine/Events.lean ====
section
/-! DEFINITION. The events that reach the angle threads (R239, R266 to R268) and the pulses of the trigger lines (R344). -/

namespace Sys2Proof.Machine

/-- Thread states (`AEN_TSTATn.STATE`, R279). -/
abbrev thIDLE : Nat := 0
abbrev thREADY : Nat := 1
abbrev thWAIT : Nat := 2
abbrev thSTALL : Nat := 3
abbrev thFAULTED : Nat := 4
abbrev thHALTED : Nat := 5

/-- Numbers of the pending bits (R239). -/
abbrev pdSYNC : Nat := 0
abbrev pdTOOTH : Nat := 1
abbrev pdRETIRE : Nat := 2
abbrev pdBUDGET : Nat := 3
abbrev pdQNE : Nat := 4
abbrev pdHW : Nat := 8
abbrev pdSIG : Nat := 12

/-- State of thread `n`. -/
def State.thState (s : State) (n : Nat) : Nat := s.fld (AEN_TSTAT n) AEN_TSTAT_STATE

/-- Set pending bit `k` of thread `n`, in every thread state (R268). -/
def State.setPend (s : State) (n k : Nat) : State := s.setBit (AEN_TSTAT n) (16 + k) true

/-- Set pending bit `k` of the threads below `n` that satisfy `p`. -/
def State.setPendWhere (s : State) (k : Nat) (p : Nat → Bool) : Nat → State
  | 0 => s
  | n + 1 => if p n then (s.setPendWhere k p n).setPend n k else s.setPendWhere k p n

/-- Set pending bit `k` of all 64 threads. -/
def State.setPendAll (s : State) (k : Nat) : State := s.setPendWhere k (fun _ => true) 64

/-- A hardware event sets the HW bits that select it (R266). -/
def State.hwEvent (s : State) (sel : Nat) : State :=
  (List.range 4).foldl (fun t i => t.setPendWhere (pdHW + i) (fun n => (s.reg (AEN_TEVS n)).toNat / 2 ^ (8 * i) % 256 == sel) 64) s

/-- Binding `i` of thread `n` names queue `q` and is enabled (R267). -/
def State.boundTo (s : State) (n i q : Nat) : Bool :=
  let w := s.reg (AEN_TQB n)
  bitOf w (8 * i + 7) && (w.toNat / 2 ^ (8 * i) % 32 == q)

/-- The QNE bits that follow queue `q` are set while it holds an entry (R267). -/
def State.syncQueue (s : State) (q : Nat) : State :=
  if s.fld (QUE_QCNT q) QUE_QCNT_COUNT = 0 then s
  else (List.range 4).foldl (fun t i => t.setPendWhere (pdQNE + i) (fun n => s.boundTo n i q) 64) s

/-- The QNE bits of thread `n` are set for its bound queues that hold an entry (R267). -/
def State.syncThread (s : State) (n : Nat) : State :=
  (List.range 4).foldl (fun t i =>
    let w := s.reg (AEN_TQB n)
    if bitOf w (8 * i + 7) && !(s.fld (QUE_QCNT (w.toNat / 2 ^ (8 * i) % 32)) QUE_QCNT_COUNT == 0) then t.setPend n (pdQNE + i) else t) s

/-- A pulse of trigger line `k` leaves its source's island for every island that holds a consumer of the trigger lines: the
thread pending bits, DMA, the converters, timer start and capture (R344, R345), the commutation sources of R402 and the
capture of the ETH clock (R541). -/
def State.pulseLine (s : State) (src : Island) (k : Nat) : State :=
  (((((s.launch src .angle (.trigger k)).launch src .fabric (.trigger k)).launch src .converter (.trigger k)).launch src .timer
    (.trigger k)).launch src .drive (.trigger k)).launch src .link (.trigger k)

/-- The event selected by `sel` of TMR_TSELk occurs: every line that selects it pulses (R344, R345). -/
def State.pulseSelected (s : State) (src : Island) (sel : Nat) : State :=
  (List.range 32).foldl (fun t k => if s.fld (TMR_TSEL k) TMR_TSEL_SEL = sel then t.pulseLine src k else t) s

end Sys2Proof.Machine
end

