-- ==== Sys2Proof/Machine/Queue.lean ====
section
/-! DEFINITION. The hardware queues of the fabric (R294 to R297), the policy put ports, and the registers of QUE that belong to
them. An entry is 16 bytes, kept in the SRAM ring. -/

namespace Sys2Proof.Machine

/-- Results of a put (R241, R296). -/
abbrev qPUT : Nat := 0
abbrev qFULL : Nat := 1
abbrev qREFUSED : Nat := 2

/-- Address of entry index `i` of queue `n` (R294). -/
def State.qAddr (s : State) (n i : Nat) : Nat := s.fld (QUE_QBASE n) QUE_QBASE_BASE * 16 + 16 * i

/-- Depth of queue `n` (R294). -/
def State.qDepth (s : State) (n : Nat) : Nat := 2 ^ s.fld (QUE_QCFG n) QUE_QCFG_LOG2

/-- Entries held. -/
def State.qCount (s : State) (n : Nat) : Nat := s.fld (QUE_QCNT n) QUE_QCNT_COUNT

/-- A refused put is counted and sets QFULL (R295). -/
def State.qRefuse (s : State) (n : Nat) : State :=
  (s.count (QUE_QDROP n) QUE_QDROP_DROP 1).raise QUE_EVT QUE_EVT_QFULL

/-- A put: all 16 bytes at the head, and only then the count (R295). -/
def State.qput (s : State) (n : Nat) (e : List Byte) : State × Nat :=
  if s.fld (QUE_QCFG n) QUE_QCFG_EN = 0 then (s.qRefuse n, qREFUSED)
  else if s.qDepth n ≤ s.qCount n then (s.qRefuse n, qFULL)
  else
    let h := s.fld (QUE_QHEAD n) QUE_QHEAD_INDEX
    let s1 := (s.wrBytes (s.qAddr n h) (e.take 16)).setFld (QUE_QHEAD n) QUE_QHEAD_INDEX ((h + 1) % s.qDepth n)
    ((s1.setFld (QUE_QCNT n) QUE_QCNT_COUNT (s.qCount n + 1)).syncQueue n, qPUT)

/-- A put of a hardware producer bound to an account: with no FABRIC carat left the entry is dropped and counted exactly as a
put refused by a full queue, and in `BUD_DROPa` (R502). -/
def State.qputFor (s : State) (acct : Option Nat) (n : Nat) (e : List Byte) : State × Nat :=
  if s.budHas acct resFABRIC 1 then (s.budDraw acct resFABRIC 1).qput n e
  else (((s.budStarve acct resFABRIC).qRefuse n).budDrop acct, qFULL)

/-- The oldest entry (R294). -/
def State.qOldest (s : State) (n : Nat) : List Byte := s.rdBytes (s.qAddr n (s.fld (QUE_QTAIL n) QUE_QTAIL_INDEX)) 16

/-- Remove the smaller of `k` and the count of entries (R296). -/
def State.qpop (s : State) (n k : Nat) : State :=
  let m := min k (s.qCount n)
  (s.setFld (QUE_QTAIL n) QUE_QTAIL_INDEX ((s.fld (QUE_QTAIL n) QUE_QTAIL_INDEX + m) % s.qDepth n)).setFld (QUE_QCNT n)
    QUE_QCNT_COUNT (s.qCount n - m)

/-- The ring lies in SRAM and its base is a multiple of its size (R294, R37). -/
def ringLegal (base log2 : Nat) : Bool :=
  decide (0x20000000 ≤ base ∧ base + 16 * 2 ^ log2 ≤ 0x20800000 ∧ base % (16 * 2 ^ log2) = 0)

/-- The scope of "disabled" for the RWC fields of a queue register (R313). -/
def State.queLocked (s : State) (n : Nat) : Bool := s.fld (QUE_QCFG n) QUE_QCFG_EN == 1

/-- A write to a register of queue `n` (R294, R296, R314). -/
def State.queueWrite (s : State) (addr : Nat) (w : Word) : State :=
  let o := addr % 0x10000
  let n := (o - 0x100) / 0x20
  let legal := if addr = QUE_QBASE n then ringLegal (w.toNat / 16 * 16) (s.fld (QUE_QCFG n) QUE_QCFG_LOG2)
    else if addr = QUE_QPOP n then decide (QUE_QPOP_K.get w ≤ 65536) else true
  s.writeWith addr w (s.queLocked n) legal fun t =>
    if addr = QUE_QBASE n then ((t.setReg (QUE_QHEAD n) 0).setReg (QUE_QTAIL n) 0).setReg (QUE_QCNT n) 0
    else if addr = QUE_QPOP n then t.qpop n (QUE_QPOP_K.get w)
    else t

/-- A write to a register of put port `t`: the write to D3 makes the put (R296). -/
def State.portWrite (s : State) (addr : Nat) (w : Word) : State :=
  let t := (addr % 0x10000 - 0x800) / 0x20
  s.writeWith addr w false true fun u =>
    if addr = QUE_PPD3 t then
      let r := u.qput (u.fld (QUE_PPQ t) QUE_PPQ_Q)
        (wordsToBytes [u.reg (QUE_PPD0 t), u.reg (QUE_PPD1 t), u.reg (QUE_PPD2 t), u.reg (QUE_PPD3 t)])
      r.1.setFld (QUE_PPRES t) QUE_PPRES_RESULT r.2
    else u

/-- `QUEUE_PUT_PORT` (R296): a write of QUE_PPtD3 puts an entry into the port's target queue. -/
def execQueuePutPort (t : Fin 4) (w : Word) (s : State) : Host.Outcome State Fault Refusal :=
  .next (s.portWrite (QUE_PPD3 t) w)

/-- `QUEUE_POP` (R296): a write of k to QUE_QPOPn removes the smaller of k and the count. -/
def execQueuePop (n : Fin 32) (w : Word) (s : State) : Host.Outcome State Fault Refusal :=
  .next (s.queueWrite (QUE_QPOP n) w)

/-- `QUEUE_BASE_WRITE` (R294): a write to QUE_QBASEn sets the base and resets head, tail and count. -/
def execQueueBaseWrite (n : Fin 32) (w : Word) (s : State) : Host.Outcome State Fault Refusal :=
  .next (s.queueWrite (QUE_QBASE n) w)

end Sys2Proof.Machine
end

