-- ==== Sys2Proof/Machine/Trim.lean ====
section
/-! DEFINITION. The 512 trim registers and their authority envelopes (R303 to R305, R315). -/

namespace Sys2Proof.Machine

/-- B of R303: the value in force of trim `i` at the last cycle boundary. -/
def State.trimBase (s : State) (i : Nat) : Word := tabGet (fun _ => 0) s.trimB i

/-- The state with B of trim `i` set. -/
def State.setTrimBase (s : State) (i : Nat) (w : Word) : State := { s with trimB := tabSet (fun _ => 0) s.trimB i w }

/-- The value in force for a request, an envelope, a slew limit and a base (R303, R305). -/
def trimValue (req lo hi slew b : Int) : Int :=
  if hi < lo then 0
  else
    let l := if slew ≠ 0 then max lo (b - slew) else lo
    let h := if slew ≠ 0 then min hi (b + slew) else hi
    if h < l then (if b < lo then lo else hi) else min (max req l) h

/-- The value in force of trim `i` as evaluated now (R303). -/
def State.trimEval (s : State) (i : Nat) : Int :=
  trimValue (s.reg (AEN_TRQ i)).toInt (s.reg (AEN_ELO i)).toInt (s.reg (AEN_EHI i)).toInt (s.fld (AEN_ESL i) AEN_ESL_SLEW)
    (s.trimBase i).toInt

/-- A value in force is shown with CLAMPED and ENVERR (R315). -/
def State.trimShow (s : State) (i : Nat) (v : Word) : State :=
  ((s.setReg (AEN_TRM i) v).setFld (AEN_TRS i) AEN_TRS_CLAMPED (b2n (v ≠ s.reg (AEN_TRQ i)))).setFld (AEN_TRS i) AEN_TRS_ENVERR
    (b2n (decide ((s.reg (AEN_EHI i)).toInt < (s.reg (AEN_ELO i)).toInt)))

/-- The value in force is evaluated anew (R303). -/
def State.trimUpdate (s : State) (i : Nat) : State := s.trimShow i (BitVec.ofInt 32 (s.trimEval i))

/-- A hardware rule writes a request (R304). -/
def State.trimWriteHw (s : State) (i : Nat) (v : Word) : State :=
  ((s.setReg (AEN_TRQ i) v).setFld (AEN_TRS i) AEN_TRS_SRC 1).trimUpdate i

/-- A bus master writes a request (R303, R315): TGT is kept for a policy target. -/
def State.trimWritePolicy (s : State) (m : Master) (i : Nat) (v : Word) : State :=
  let s1 := (s.setReg (AEN_TRQ i) v).setFld (AEN_TRS i) AEN_TRS_SRC 0
  (match m with
    | .pair t => s1.setFld (AEN_TRS i) AEN_TRS_TGT t
    | .thread _ | .dma _ | .loupe | .spi => s1).trimUpdate i

/-- Every trim's base and value in force at a cycle boundary, for the trims below `n` (R303). -/
def State.trimBoundary (s : State) : Nat → State
  | 0 => s
  | n + 1 => let t := s.trimBoundary n; (t.setTrimBase n (t.reg (AEN_TRM n))).trimUpdate n

/-- A write to an envelope word or to AEN_ELOCK: refused with a bus error and a C-class message that carries the address once
LOCK is 1; otherwise B and the value in force follow the new envelope (R305). -/
def State.envelopeWrite (s : State) (addr : Nat) (w : Word) : State × Bool :=
  if s.fld AEN_ELOCK AEN_ELOCK_LOCK = 1 then (s.sendFault blkAEN 0 0x07 clsC addr, false)
  else
    let i := (addr % 0x10000 - 0x6000) / 0x10
    (s.writeWith addr w false true fun t =>
      let v := BitVec.ofInt 32 (t.trimEval i)
      (t.setTrimBase i v).trimShow i v, true)

/-- `TRIM_REQUEST_WRITE` (R303): a write to AEN_TRQi re-evaluates the value in force within the envelope. -/
def execTrimRequestWrite (t : Fin 4) (i : Fin 512) (w : Word) (s : State) : Host.Outcome State Fault Refusal :=
  .next (s.trimWritePolicy (.pair t) i w)

/-- The address of an envelope word: LO, HI or SLEW of trim `i`. -/
def envelopeAddr (i : Nat) (word : Nat) : Nat := if word = 0 then AEN_ELO i else if word = 1 then AEN_EHI i else AEN_ESL i

/-- `ENVELOPE_WRITE` (R305): a write to a trim's LO (0), HI (1) or SLEW (2). -/
def execEnvelopeWrite (i : Fin 512) (word : Fin 3) (w : Word) (s : State) : Host.Outcome State Fault Refusal :=
  .next (s.envelopeWrite (envelopeAddr i word) w).1

/-- A write to AEN_ELOCK: writing 1 to LOCK locks the envelopes until reset, writing 0 has no effect (R305, R315). -/
def State.elockWrite (s : State) (w : Word) : State :=
  if bitOf w 0 then s.setFld AEN_ELOCK AEN_ELOCK_LOCK 1 else s

/-- `ELOCK` (R305): writing 1 to AEN_ELOCK.LOCK locks the envelopes until reset. -/
def execElockWrite (w : Word) (s : State) : Host.Outcome State Fault Refusal := .next (s.elockWrite w)

end Sys2Proof.Machine
end

