-- ==== Sys2Proof/Machine/Irq.lean ====
section
/-! DEFINITION. The interrupt controller and the EXTINT pin converter (R316 to R333). -/

namespace Sys2Proof.Machine

/-! ### Sources -/

/-- The sources R317 calls reserved, and source 0, which is never sent. -/
def reservedSource (n : Nat) : Bool :=
  n == 0 || (9 ≤ n && n ≤ 15) || (55 ≤ n && n ≤ 63) || (75 ≤ n && n ≤ 79) || (92 ≤ n && n ≤ 95) || n == 103
    || (424 ≤ n && n ≤ 431) || (448 ≤ n && n ≤ 495)

/-- The counter field of source `n` in its IRQ_CNT word. -/
def cntFld (n : Nat) : Fld := ⟨8 * (n % 4), 8⟩

/-- Source `n` is pending. -/
def State.isPend (s : State) (n : Nat) : Bool := s.bit (IRQ_PEND (n / 16)) (n % 16)

/-- Source `n` is in service. -/
def State.inService (s : State) (n : Nat) : Bool := s.bit (IRQ_INSV (n / 16)) (n % 16)

/-- A message for source `n` arrives (R320, R321); the resend of R333 does not count, the count-only message sets nothing
pending. -/
def State.takeIrq (s : State) (n : Nat) (count pend : Bool) : State :=
  let s1 := if count then s.count (IRQ_CNT (n / 4)) (cntFld n) 1 else s
  if pend then s1.setBit (IRQ_PEND (n / 16)) (n % 16) true else s1

/-- Priority of source `n`. -/
def State.irqPrio (s : State) (n : Nat) : Nat := s.fld (IRQ_SCFG n) IRQ_SCFG_PRIO

/-- Source `n` is deliverable to target `t` (R322). -/
def State.deliverable (s : State) (t n : Nat) : Bool :=
  s.isPend n && !s.inService n && s.fld (IRQ_SCFG n) IRQ_SCFG_TGT == t && s.bit (IRQ_MASK (n / 16)) (n % 16)
    && s.fld (IRQ_HOLD (n / 16)) IRQ_HOLD_ACT == 0 && decide (s.fld (IRQ_THR t) IRQ_THR_THR < s.irqPrio n)

/-- The deliverable source below `k` of highest priority, the lowest number among equals; 0 where there is none (R327). -/
def State.bestSource (s : State) (t : Nat) : Nat → Nat
  | 0 => 0
  | k + 1 =>
    let b := s.bestSource t k
    if s.deliverable t k && (b == 0 || decide (s.irqPrio b < s.irqPrio k)) then k else b

/-- The source a claim of target `t` takes, 0 for none. -/
def State.claimable (s : State) (t : Nat) : Nat := s.bestSource t 512

/-- The highest priority deliverable to target `t`, 0 where nothing is (PRIO = 0 is never delivered, R322). -/
def State.topPrio (s : State) (t : Nat) : Nat := if s.claimable t = 0 then 0 else s.irqPrio (s.claimable t)

/-- A read of IRQ_CLAIMt by master `m` (R327): the state, the word read and whether it is answered with a bus error. -/
def State.claimRead (s : State) (m : Master) (t : Nat) : State × Word × Bool :=
  let own := match m with
    | .pair p => p.val == t
    | .thread _ | .dma _ | .loupe | .spi => false
  if !own then (s.sendFault blkIRQ 0 0x07 clsC (IRQ_CLAIM t), 0, true)
  else
    let n := s.claimable t
    if n = 0 then (s, 0, false)
    else
      let s1 := (s.setBit (IRQ_PEND (n / 16)) (n % 16) false).setBit (IRQ_INSV (n / 16)) (n % 16) true
      let s2 := if s1.fld (IRQ_HOLD (n / 16)) IRQ_HOLD_HOLD = 0 then s1 else s1.setFld (IRQ_HOLD (n / 16)) IRQ_HOLD_ACT 1
      ({ s2 with irq := { s2.irq with claims := (n, t) :: s2.irq.claims.filter fun p => p.1 != n } }, BitVec.ofNat 32 n, false)

/-- Source `n` is completed by the target that claimed it (R320, R326); for an EXTINT pin the converter is told (R333). -/
def State.completeSource (s : State) (n : Nat) : State :=
  let s1 := s.setBit (IRQ_INSV (n / 16)) (n % 16) false
  let s2 := { s1 with irq := { s1.irq with claims := s1.irq.claims.filter fun p => p.1 != n } }
  if 1 ≤ n ∧ n ≤ 8 then s2.launch .policy .timer (.extDone (n - 1)) else s2

/-! ### The pin converter (R333) -/

/-- Pin `x` is asserted: its filtered level equals POL. -/
def State.extAsserted (s : State) (x : Nat) : Bool :=
  s.irq.level.getLsbD x == (s.fld (IRQ_XCFG x) IRQ_XCFG_POL == 1)

/-- IRQ_XSTAT.ASSERT follows the pin. -/
def State.showAssert (s : State) (x : Nat) : State := s.setBit IRQ_XSTAT x (s.extAsserted x)

/-- The converter sends pin `x`'s message and is SENT. -/
def State.extSend (s : State) (x : Nat) : State :=
  (s.setBit IRQ_XSTAT (8 + x) true).launch .timer .policy (.irq (1 + x) true true)

/-- EN of converter `x` has changed from `was` to its value now (R333). -/
def State.extEnable (s : State) (x : Nat) (was : Bool) : State :=
  let en := s.fld (IRQ_XCFG x) IRQ_XCFG_EN == 1
  if en && !was then (if s.extAsserted x then s.extSend x else s)
  else if !en && was then s.setBit IRQ_XSTAT (8 + x) false
  else s

/-- A completion of pin `x`'s source reaches the converter (R333). -/
def State.extDone (s : State) (x : Nat) : State :=
  if s.fld (IRQ_XCFG x) IRQ_XCFG_EN = 1 ∧ s.bit IRQ_XSTAT (8 + x) then
    (if s.extAsserted x then s.launch .timer .policy (.irq (1 + x) false true) else s.setBit IRQ_XSTAT (8 + x) false)
  else s

/-- The filtered level of pin `x` changes (R333). Its assertion also pulses the trigger lines that select it (R345). -/
def State.extLevel (s : State) (x : Nat) (lv : Bool) : State :=
  let was := s.extAsserted x
  let m : BitVec 8 := BitVec.ofNat 8 (2 ^ x)
  let l : BitVec 8 := if lv then s.irq.level ||| m else s.irq.level &&& ~~~m
  let s1 := { s with irq := { s.irq with level := l } }
  let s2 := s1.showAssert x
  if s2.extAsserted x && !was then
    let s3 := s2.pulseSelected .timer (0x21 + x)
    if s3.fld (IRQ_XCFG x) IRQ_XCFG_EN = 0 then s3
    else if s3.bit IRQ_XSTAT (8 + x) then s3.launch .timer .policy (.irq (1 + x) true false)
    else s3.extSend x
  else s2

/-! ### Register writes (R324, R328, R348) -/

/-- The chapter's own conditions for a write by master `m` to a register of IRQ. -/
def State.irqLegal (s : State) (m : Master) (addr : Nat) (w : Word) : Bool :=
  let o := addr % 0x10000
  if o < 0x800 then !reservedSource (o / 4) || IRQ_SCFG_PRIO.get w == 0
  else if 0xE00 ≤ o ∧ o < 0xE40 ∧ o % 0x10 = 0 then
    (match m with
      | .pair p => p.val == (o - 0xE00) / 0x10 && s.irq.claims.any fun c => c.1 == w.toNat % 512 && c.2 == p.val
      | .thread _ | .dma _ | .loupe | .spi => false)
  else true

/-- A write by master `m` to a register of IRQ. -/
def State.irqWrite (s : State) (m : Master) (addr : Nat) (w : Word) : State :=
  let o := addr % 0x10000
  let x := (o - 0xE40) / 4
  let was := s.fld (IRQ_XCFG x) IRQ_XCFG_EN == 1
  s.writeWith addr w (0xE40 ≤ o && o < 0xE60 && was) (s.irqLegal m addr w) fun t =>
    if 0x900 ≤ o ∧ o < 0x980 then
      let g := (o - 0x900) / 4
      t.setFld (IRQ_MASK g) IRQ_MASK_MASK (t.fld (IRQ_MASK g) IRQ_MASK_MASK ||| w.toNat % 65536)
    else if 0x980 ≤ o ∧ o < 0xA00 then
      let g := (o - 0x980) / 4
      t.setReg (IRQ_MASK g) (t.reg (IRQ_MASK g) &&& ~~~(w &&& 0xFFFF))
    else if 0xB00 ≤ o ∧ o < 0xB80 then
      let g := (o - 0xB00) / 4
      (List.range 16).foldl (fun u i => if bitOf w i then u.setFld (IRQ_CNT ((16 * g + i) / 4)) (cntFld (16 * g + i)) 0 else u) t
    else if 0xE00 ≤ o ∧ o < 0xE40 ∧ o % 0x10 = 0 then (t.setReg addr (s.reg addr)).completeSource (w.toNat % 512)
    else if 0xE40 ≤ o ∧ o < 0xE60 then (t.showAssert x).extEnable x was
    else if addr = IRQ_DOOR then t.takeIrq (w.toNat % 512) true true
    else t

/-! ### Commands -/

/-- `IRQ_MESSAGE` (R320): the oldest item of the crossing from `src` into the policy island, if it is an interrupt message,
counts its source and sets it pending. -/
def execIrqMessage (src : Island) (s : State) : Host.Outcome State Fault Refusal :=
  match s.nextItem src .policy with
  | some (.irq n c p) => .next ((s.ackItem src .policy).takeIrq n c p)
  | _ => .next s

/-- `IRQ_CLAIM` (R327): a read of IRQ_CLAIMt by master `m`. -/
def execIrqClaim (m : Master) (t : Fin 4) (s : State) : Host.Outcome State Fault Refusal :=
  let r := s.claimRead m t
  .next (r.1.respond r.2.1 r.2.2)

/-- `IRQ_COMPLETE` (R328): a write to IRQ_CLAIMt by master `m`. -/
def execIrqComplete (m : Master) (t : Fin 4) (w : Word) (s : State) : Host.Outcome State Fault Refusal :=
  .next (s.irqWrite m (IRQ_CLAIM t) w)

/-- `IRQ_PENDING_CLEAR` (R324): a write of 1 to bits of IRQ_PENDg clears them. -/
def execIrqPendingClear (g : Fin 32) (w : Word) (s : State) : Host.Outcome State Fault Refusal :=
  .next (s.irqWrite (.pair 0) (IRQ_PEND g) w)

/-- `IRQ_MASK_SET` (R324): a 1 written to IRQ_MSETg sets the mask bit. -/
def execIrqMaskSet (g : Fin 32) (w : Word) (s : State) : Host.Outcome State Fault Refusal :=
  .next (s.irqWrite (.pair 0) (IRQ_MSET g) w)

/-- `IRQ_MASK_CLEAR` (R324): a 1 written to IRQ_MCLRg clears the mask bit. -/
def execIrqMaskClear (g : Fin 32) (w : Word) (s : State) : Host.Outcome State Fault Refusal :=
  .next (s.irqWrite (.pair 0) (IRQ_MCLR g) w)

/-- `IRQ_COUNTER_CLEAR` (R321): a 1 written to IRQ_CCLRg clears the source's counter. -/
def execIrqCounterClear (g : Fin 32) (w : Word) (s : State) : Host.Outcome State Fault Refusal :=
  .next (s.irqWrite (.pair 0) (IRQ_CCLR g) w)

/-- `IRQ_DOORBELL` (R318): a write to IRQ_DOOR raises a software source. -/
def execIrqDoorbell (w : Word) (s : State) : Host.Outcome State Fault Refusal :=
  .next (s.irqWrite (.pair 0) IRQ_DOOR w)

/-- `HOLDOFF_END` (R323): the hold-off timer of group `g` expires. -/
def execHoldoffEnd (g : Fin 32) (s : State) : Host.Outcome State Fault Refusal :=
  .next (s.setFld (IRQ_HOLD g) IRQ_HOLD_ACT 0)

/-- `EXTINT_ENABLE` (R333): a write to IRQ_XCFGx that sets EN. -/
def execExtintEnable (x : Fin 8) (w : Word) (s : State) : Host.Outcome State Fault Refusal :=
  .next (s.irqWrite (.pair 0) (IRQ_XCFG x) w)

/-- `EXTINT_DISABLE` (R333): a write to IRQ_XCFGx that clears EN. -/
def execExtintDisable (x : Fin 8) (w : Word) (s : State) : Host.Outcome State Fault Refusal :=
  .next (s.irqWrite (.pair 0) (IRQ_XCFG x) w)

/-- `EXTINT_LEVEL_CHANGE` (R333): a new level of pin `x` that held FILT timer clocks is taken. A level equal to the one taken
before is no change. -/
def execExtintLevelChange (x : Fin 8) (level : Bool) (s : State) : Host.Outcome State Fault Refusal :=
  .next (if s.irq.level.getLsbD x == level then s else s.extLevel x level)

/-- `EXTINT_RESEND` (R333): the completion of an EXTINT source reaches the converter, which resends it without counting while
the pin is asserted and is QUIET otherwise. -/
def execExtintResend (s : State) : Host.Outcome State Fault Refusal :=
  match s.nextItem .policy .timer with
  | some (.extDone x) => .next ((s.ackItem .policy .timer).extDone x)
  | _ => .next s

end Sys2Proof.Machine
end

