-- ==== Sys2Proof/Machine/Timer.lean ====
section
/-! DEFINITION. The sixteen timers (R334 to R343, R349, R350). Prescalers are not counted: a command says that one expires. -/

namespace Sys2Proof.Machine

/-- What timer channel `n` holds beside its registers. -/
def State.tmrOf (s : State) (n : Nat) : Tmr := vat s.tmr n

/-- The state with timer channel `n` changed. -/
def State.updTmr (s : State) (n : Nat) (f : Tmr → Tmr) : State := { s with tmr := vupd s.tmr n f }

/-- Channel `n` is running. -/
def State.tmrRun (s : State) (n : Nat) : Bool := s.bit TMR_STAT n

/-- The counting mode of channel `n` (R334). -/
def State.tmrMode (s : State) (n : Nat) : Nat := s.fld (TMR_CFG n) TMR_CFG_MODE

/-- LINK of channel `n` (R341). -/
def State.tmrLink (s : State) (n : Nat) : Bool := s.fld (TMR_CFG n) TMR_CFG_LINK == 1

/-- Lap in steps (R334). -/
def lapOf (mode top : Nat) : Nat := if mode = 2 then 2 * top else top + 1

/-- Position of a count in the lap (R336), `down` saying the direction of MODE 2. -/
def positionOf (mode top cnt : Nat) (down : Bool) : Nat :=
  if mode = 0 then cnt else if mode = 1 then top - cnt else if down then (2 * top - cnt) % lapOf 2 top else cnt

/-- One step of a count (R334): the new count, the new direction and whether the step wraps. -/
def stepCount (mode top cnt : Nat) (down : Bool) : Nat × Bool × Bool :=
  if mode = 0 then (if cnt = top then (0, false, true) else ((cnt + 1) % 2 ^ 32, false, false))
  else if mode = 1 then (if cnt = 0 then (top, false, true) else (cnt - 1, false, false))
  else if down && cnt ≠ 0 then (cnt - 1, decide (cnt ≠ 1), decide (cnt = 1))
  else if top ≤ cnt then (cnt - 1, decide (cnt ≠ 1), decide (cnt = 1))
  else (cnt + 1, false, false)

/-- The position of the count in MODE 2 just after a wrap is 0 in either direction; a count at TOP is reached going up. -/
def State.tmrPos (s : State) (n : Nat) : Nat :=
  positionOf (s.tmrMode n) (s.tmrOf n).top.toNat (s.reg (TMR_CNT n)).toNat (s.tmrOf n).down

/-- The position a compare targets; none where the compare value lies above TOP (R336). -/
def State.tmrTarget (s : State) (n : Nat) : Option Nat :=
  let c := (s.reg (TMR_CMP n)).toNat
  let top := (s.tmrOf n).top.toNat
  if top < c then none else some (positionOf (s.tmrMode n) top c (s.fld (TMR_CFG n) TMR_CFG_CDIR == 1))

/-- Channel `n` steps (R334, R337): the count moves; a wrap takes the TOP written meanwhile into force, and falls due, as does
the step of a channel linked to this one (R341); a count at its compare position falls due as a match (R336). -/
def State.tmrStep (s : State) (n : Nat) : State :=
  let r := stepCount (s.tmrMode n) (s.tmrOf n).top.toNat (s.reg (TMR_CNT n)).toNat (s.tmrOf n).down
  let newTop := s.reg (TMR_TOP n)
  let cnt := if r.2.2 && s.tmrMode n == 1 then newTop.toNat else r.1
  let s1 := (s.setReg (TMR_CNT n) (BitVec.ofNat 32 cnt)).updTmr n fun t =>
    { t with down := r.2.1, wrapDue := t.wrapDue || r.2.2, top := if r.2.2 then newTop else t.top }
  let s2 := if s1.tmrTarget n = some (s1.tmrPos n) then s1.updTmr n fun t => { t with matchDue := true } else s1
  if r.2.2 && n < 15 && s2.tmrLink (n + 1) then s2.updTmr (n + 1) fun t => { t with linkDue := true } else s2

/-- Channel `n` starts (R339): nothing where it runs. MODE 2 starts upward. -/
def State.tmrStart (s : State) (n : Nat) : State :=
  if s.tmrRun n then s else (s.setBit TMR_STAT n true).updTmr n fun t => { t with down := false }

/-- Channel `n` stops: the TOP written meanwhile is in force from then on. -/
def State.tmrStop (s : State) (n : Nat) : State :=
  (s.setBit TMR_STAT n false).updTmr n fun t => { t with top := s.reg (TMR_TOP n) }

/-- A capture (R340). -/
def State.tmrCapture (s : State) (n : Nat) (v : Word) : State := (s.setReg (TMR_CAP n) v).raise TMR_CEVT n

/-- A comparator edge begins or ends the run of the channels that capture it: `src` is the CSRC that waits for this edge,
`other` the one that waits for the opposite edge (R340). -/
def State.tmrEdge (s : State) (src other : Nat) : State :=
  (List.range 16).foldl (fun t n =>
    let c := t.fld (TMR_CCFG n) TMR_CCFG_CSRC
    if c = src then t.updTmr n fun u => { u with cand := some (t.reg (TMR_CNT n)) }
    else if c = other then t.updTmr n fun u => { u with cand := none } else t) s

/-- The legal selectors of TMR_TSELk (R345). -/
def tselLegal (v : Nat) : Bool := v ≤ 0x28 || (0x30 ≤ v && v ≤ 0x39) || (0x40 ≤ v && v ≤ 0x4B)

/-- The conditions of R341 and R350 on the configuration word `c` of channel `n`. -/
def State.tmrCfgOk (s : State) (n : Nat) (c : Word) : Bool :=
  let mode := TMR_CFG_MODE.get c
  let link := TMR_CFG_LINK.get c == 1
  (mode == 2 || TMR_CFG_CDIR.get c == mode) &&
  (!link || (n % 2 == 1 && mode == 0 && TMR_CFG_PRE.get c == 0 && s.tmrMode (n - 1) == 0
    && s.reg (TMR_TOP (n - 1)) == 0xFFFFFFFF && (s.tmrOf (n - 1)).top == 0xFFFFFFFF)) &&
  (!(n < 15 && s.tmrLink (n + 1)) || mode == 0)

/-- The chapter's own conditions for a write to a register of TMR (R341, R350). -/
def State.tmrLegal (s : State) (addr : Nat) (w : Word) : Bool :=
  let o := addr % 0x10000
  let n := (o - 0x100) / 0x20
  if 0x80 ≤ o ∧ o < 0x100 then tselLegal (TMR_TSEL_SEL.get w)
  else if o < 0x100 then true
  else if addr = TMR_CFG n then s.tmrCfgOk n (s.tryWrite addr w false true |>.getD w)
  else if addr = TMR_CNT n then decide (w.toNat ≤ (s.tmrOf n).top.toNat)
  else if addr = TMR_TOP n then !(n < 15 && s.tmrLink (n + 1)) || w == 0xFFFFFFFF
  else true

/-- A write to a register of TMR. -/
def State.tmrWrite (s : State) (addr : Nat) (w : Word) : State :=
  let o := addr % 0x10000
  let n := (o - 0x100) / 0x20
  s.writeWith addr w (0x100 ≤ o && s.tmrRun n) (s.tmrLegal addr w) fun t =>
    if addr = TMR_START then (List.range 16).foldl (fun u i => if bitOf w i then u.tmrStart i else u) t
    else if addr = TMR_STOP then (List.range 16).foldl (fun u i => if bitOf w i then u.tmrStop i else u) t
    else if 0x100 ≤ o ∧ addr = TMR_TOP n ∧ ¬t.tmrRun n then t.updTmr n fun u => { u with top := w }
    else if 0x100 ≤ o ∧ addr = TMR_CCFG n then t.updTmr n fun u => { u with cand := none }
    else t

/-! ### Commands -/

/-- `TIMER_STEP` (R334): the prescaler of a running channel that is not linked expires. -/
def execTimerStep (n : Fin 16) (s : State) : Host.Outcome State Fault Refusal :=
  .next (if s.tmrRun n && !s.tmrLink n then s.tmrStep n else s)

/-- `TIMER_MATCH` (R336, R338): a match that is due sets its event and pulses what selects it. -/
def execTimerMatch (n : Fin 16) (s : State) : Host.Outcome State Fault Refusal :=
  if (s.tmrOf n).matchDue then
    let s1 := (s.updTmr n fun t => { t with matchDue := false }).raise TMR_EVT n
    .next ((s1.pulseSelected .timer (0x01 + n)).launch .timer .angle (.hwEvent (0x30 + n)))
  else .next s

/-- `TIMER_WRAP` (R334, R338): a wrap that is due sets its event, pulses what selects it and stops a channel with ONE. -/
def execTimerWrap (n : Fin 16) (s : State) : Host.Outcome State Fault Refusal :=
  if (s.tmrOf n).wrapDue then
    let s1 := ((s.updTmr n fun t => { t with wrapDue := false }).raise TMR_EVT (16 + n)).pulseSelected .timer (0x11 + n)
    .next (if s1.fld (TMR_CFG n) TMR_CFG_ONE = 1 then s1.tmrStop n else s1)
  else .next s

/-- `LINKED_STEP` (R341): one timer clock after the wrap of the lower channel the linked channel steps, while it runs. -/
def execLinkedStep (n : Fin 16) (s : State) : Host.Outcome State Fault Refusal :=
  if (s.tmrOf n).linkDue then
    let s1 := s.updTmr n fun t => { t with linkDue := false }
    .next (if s1.tmrRun n && s1.tmrLink n then s1.tmrStep n else s1)
  else .next s

/-- `TMR_START` (R339): a write to TMR_START. -/
def execTmrStart (w : Word) (s : State) : Host.Outcome State Fault Refusal := .next (s.tmrWrite TMR_START w)

/-- `TMR_STOP` (R339): a write to TMR_STOP. -/
def execTmrStop (w : Word) (s : State) : Host.Outcome State Fault Refusal := .next (s.tmrWrite TMR_STOP w)

/-- `TIMER_TRIGGER_START` (R339): a pulse of trigger line `line` reaches the timers and starts every stopped channel whose
STRT names it. -/
def execTimerTriggerStart (line : Fin 32) (s : State) : Host.Outcome State Fault Refusal :=
  .next ((List.range 16).foldl (fun t n => if t.fld (TMR_CFG n) TMR_CFG_STRT = line.val then t.tmrStart n else t) s)

/-- `TIMER_CAPTURE` (R340): the capture source of channel `n` captures: a trigger pulse the present count, a comparator edge
that has held CFILT timer clocks the count of the first clock of its run. -/
def execTimerCapture (n : Fin 16) (s : State) : Host.Outcome State Fault Refusal :=
  let c := s.fld (TMR_CCFG n) TMR_CCFG_CSRC
  if c = 0 then .next s
  else if c ≤ 32 then .next (s.tmrCapture n (s.reg (TMR_CNT n)))
  else match (s.tmrOf n).cand with
    | some v => .next ((s.updTmr n fun t => { t with cand := none }).tmrCapture n v)
    | none => .next s

/-- `TIMER_COUNT_LOAD` (R337): a write to TMR_CNTn. -/
def execTimerCountLoad (n : Fin 16) (w : Word) (s : State) : Host.Outcome State Fault Refusal :=
  .next (s.tmrWrite (TMR_CNT n) w)

/-- `TIMER_COMPARE_WRITE` (R336): a write to TMR_CMPn. -/
def execTimerCompareWrite (n : Fin 16) (w : Word) (s : State) : Host.Outcome State Fault Refusal :=
  .next (s.tmrWrite (TMR_CMP n) w)

end Sys2Proof.Machine
end

