-- ==== Sys2Proof/Machine/Cmp.lean ====
section
/-! DEFINITION. The comparators (R412 to R417, R421). The compared level itself is the outside world's. -/

namespace Sys2Proof.Machine

/-- Comparator `n` is enabled. -/
def State.cmpOn (s : State) (n : Nat) : Bool := s.fld (CMP_CFG n) CMP_CFG_EN == 1

/-- The output of comparator `n` is forced low (R415). -/
def State.cmpForced (s : State) (n : Nat) : Bool := s.bit CMP_STAT (8 + n)

/-- The threshold of comparator `n` in microvolts: THR, less the ramp while it runs (R412, R413). -/
def State.cmpThreshold (s : State) (n : Nat) : Nat :=
  let thr := s.fld (CMP_THR n) CMP_THR_THR * 1500
  if s.bit CMP_STAT (16 + n) then thr - s.fld (CMP_THR n) CMP_THR_RAMP * 2000 * (s.now - vat s.rampAt n) / 400 else thr

/-- A filtered edge of comparator `n` reaches its consumers (R340, R412, R414). -/
def State.cmpEdge (s : State) (n : Nat) (rising : Bool) : State :=
  let s1 := s.setBit CMP_STAT n rising
  if rising then
    let s2 := ((s1.raise CMP_EVT n).count (CMP_CNT n) CMP_CNT_RISE 1).setBit CMP_STAT (16 + n) false
    ((s2.pulseSelected .converter (0x40 + n)).launch .converter .angle (.hwEvent (0x40 + n))).tmrEdge (33 + n) (41 + n)
  else ((s1.raise CMP_EVT (8 + n)).count (CMP_CNT n) CMP_CNT_FALL 1).tmrEdge (41 + n) (33 + n)

/-- A message about the ramp of boost converter `k` reaches its comparator (R412). -/
def State.takeRamp (s : State) (k : Nat) (start : Bool) : State :=
  (List.range 8).foldl (fun t n =>
    if t.cmpOn n && t.fld (CMP_CFG n) CMP_CFG_MODE == 1 && t.fld (CMP_CFG n) CMP_CFG_BST == k
    then { t.setBit CMP_STAT (16 + n) start with rampAt := vset t.rampAt n t.now } else t) s

/-- The chapter's own conditions for a write to a register of CMP: one boost comparator for each converter (R421). -/
def State.cmpLegal (s : State) (addr : Nat) (w : Word) : Bool :=
  let o := addr % 0x10000
  let n := (o - 0x100) / 0x10
  if 0x100 ≤ o ∧ addr = CMP_CFG n ∧ CMP_CFG_MODE.get w = 1 then
    (List.range 8).all fun m => m == n || !(s.fld (CMP_CFG m) CMP_CFG_MODE == 1 && s.fld (CMP_CFG m) CMP_CFG_BST == CMP_CFG_BST.get w)
  else true

/-- A write to a register of CMP (R415). -/
def State.cmpWrite (s : State) (addr : Nat) (w : Word) : State :=
  let o := addr % 0x10000
  let n := (o - 0x100) / 0x10
  s.writeWith addr w (0x100 ≤ o && s.cmpOn n) (s.cmpLegal addr w) fun t =>
    if 0x100 ≤ o ∧ addr = CMP_CFG n then
      (if !s.cmpOn n && t.cmpOn n then (t.setBit CMP_STAT (8 + n) true).setReg (CMP_CNT n) 0
       else if s.cmpOn n && !t.cmpOn n then
         ((t.setBit CMP_STAT (8 + n) true).setBit CMP_STAT n false).setBit CMP_STAT (16 + n) false
       else t)
    else t

/-! ### Commands -/

/-- `RAMP_START` (R412): the oldest item of the crossing from the drive island, if it is a message about a ramp. -/
def execRampStart (s : State) : Host.Outcome State Fault Refusal :=
  match s.nextItem .drive .converter with
  | some (.ramp k b) => .next ((s.ackItem .drive .converter).takeRamp k b)
  | _ => .next s

/-- `CMP_FILTERED_EDGE` (R414): a level of comparator `n` that held EFILT converter clocks differs from the last one. A disabled or
forced comparator gives no edge. -/
def execCmpFilteredEdge (n : Fin 8) (rising : Bool) (s : State) : Host.Outcome State Fault Refusal :=
  .next (if s.cmpOn n && !s.cmpForced n && s.bit CMP_STAT n != rising then s.cmpEdge n rising else s)

/-- `CMP_ENABLE` (R415): a write to CMP_CFGn that sets EN. -/
def execCmpEnable (n : Fin 8) (w : Word) (s : State) : Host.Outcome State Fault Refusal := .next (s.cmpWrite (CMP_CFG n) w)

/-- `CMP_DISABLE` (R415): a write to CMP_CFGn that clears EN. -/
def execCmpDisable (n : Fin 8) (w : Word) (s : State) : Host.Outcome State Fault Refusal := .next (s.cmpWrite (CMP_CFG n) w)

/-- `CMP_FORCE_END` (R415): the forcing of an enabled comparator ends; a high level is a rising edge. -/
def execCmpForceEnd (n : Fin 8) (high : Bool) (s : State) : Host.Outcome State Fault Refusal :=
  if s.cmpOn n && s.cmpForced n then
    let s1 := s.setBit CMP_STAT (8 + n.val) false
    .next (if high then s1.cmpEdge n true else s1)
  else .next s

end Sys2Proof.Machine
end

