-- ==== Sys2Proof/Machine/Frame.lean ====
section
/-! DEFINITION. Checksums, and the frames of the Chain as bytes (R512 to R514, R519, R524 to R526, R535). -/

namespace Sys2Proof.Machine

/-! ### Checksums -/

/-- One bit of a CRC-16 with the polynomial 0x1021. -/
def crc16Bit (c : BitVec 16) : BitVec 16 := if c.getLsbD 15 then (c <<< 1) ^^^ 0x1021 else c <<< 1

/-- One byte, most significant bit first. -/
def crc16Byte (c : BitVec 16) (b : Byte) : BitVec 16 :=
  crc16Bit (crc16Bit (crc16Bit (crc16Bit (crc16Bit (crc16Bit (crc16Bit (crc16Bit (c ^^^ (b.setWidth 16 <<< 8)))))))))

/-- CRC-16 with the polynomial 0x1021 and initial value 0xFFFF (R512). -/
def crc16 (l : List Byte) : Nat := (l.foldl crc16Byte 0xFFFF).toNat

/-- One bit of the reflected CRC-32. -/
def crc32Bit (c : Word) : Word := if c.getLsbD 0 then (c >>> 1) ^^^ 0xEDB88320 else c >>> 1

/-- One byte of the CRC-32. -/
def crc32Byte (c : Word) (b : Byte) : Word :=
  crc32Bit (crc32Bit (crc32Bit (crc32Bit (crc32Bit (crc32Bit (crc32Bit (crc32Bit (c ^^^ b.setWidth 32))))))))

/-- CRC-32 of IEEE 802.3 (R309). -/
def crc32 (l : List Byte) : Nat := (~~~ l.foldl crc32Byte 0xFFFFFFFF).toNat

/-! ### Frames -/

abbrev fSTATUS : Nat := 0
abbrev fANGLE : Nat := 1
abbrev fDATA : Nat := 2
abbrev fDREQ : Nat := 3
abbrev fDRSP : Nat := 4
abbrev fAUTH : Nat := 5
abbrev fKEY : Nat := 6
abbrev fMEMB : Nat := 7

/-- Slots of a frame of a TYPE (R514). -/
def frameSlots (typ : Nat) : Nat := if typ = fANGLE ∨ typ = fDATA then 2 else if typ = fAUTH ∨ typ = fKEY then 4 else 1

/-- `n` bytes of a list from `i` on, short ones padded with zeros. -/
def slice (l : List Byte) (i n : Nat) : List Byte := (List.range n).map fun k => l.getD (i + k) 0

/-- The number held by `n` bytes from `i` on (R6). -/
def field (l : List Byte) (i n : Nat) : Nat := ofBytes (slice l i n)

/-- A frame: header, body padded with zeros, CRC (R512). -/
def mkFrame (typ hop src : Nat) (body : List Byte) : List Byte :=
  let n := 16 * frameSlots typ
  let l := toBytes 4 (typ + 2 ^ 4 * (frameSlots typ - 1) + 2 ^ 6 * hop + 2 ^ 12 * src) ++ slice body 0 (n - 6)
  l ++ toBytes 2 (crc16 l)

/-- Header fields of a frame. -/
def frameType (l : List Byte) : Nat := field l 0 4 % 16
def frameLen (l : List Byte) : Nat := field l 0 4 / 2 ^ 4 % 4
def frameHop (l : List Byte) : Nat := field l 0 4 / 2 ^ 6 % 64
def frameSrc (l : List Byte) : Nat := field l 0 4 / 2 ^ 12 % 2 ^ 18

/-- The body of a frame, between header and CRC. -/
def frameBody (l : List Byte) : List Byte := (l.drop 4).take (l.length - 6)

/-- Length, CRC, TYPE, LEN, the reserved bits of the header and HOP are as R513 asks. -/
def frameOk (l : List Byte) : Bool :=
  let t := frameType l
  decide (t ≤ 7) && (l.length == 16 * frameSlots t) && (frameLen l == frameSlots t - 1)
    && (field l (l.length - 2) 2 == crc16 (l.take (l.length - 2))) && (frameHop l != 63) && (field l 0 4 / 2 ^ 30 == 0)

/-- The frame with HOP one more, DLY of an ANGLE frame more by `d`, and its CRC anew (R515, R525). -/
def forwarded (l : List Byte) (d : Nat) : List Byte :=
  let b := frameBody l
  let b' := if frameType l = fANGLE then slice b 0 8 ++ toBytes 4 (field b 8 4 + d) ++ b.drop 12 else b
  mkFrame (frameType l) (frameHop l + 1) (frameSrc l) b'

/-- The frame as the tag covers it: HOP, DLY and CRC taken as 0 (R524). -/
def tagForm (l : List Byte) : List Byte :=
  let b := frameBody l
  let b' := if frameType l = fANGLE then slice b 0 8 ++ toBytes 4 0 ++ b.drop 12 else b
  toBytes 4 (frameType l + 2 ^ 4 * frameLen l + 2 ^ 12 * frameSrc l) ++ b' ++ [0, 0]

/-- The bytes the CMAC of R524 is taken over. -/
def tagInput (src : Nat) (sf : Word) (frames : List (List Byte)) : List Byte :=
  toBytes 4 src ++ toBytes 4 sf.toNat ++ frames.flatMap tagForm

/-- The fragments of an item, 54 bytes each (R519). -/
def fragments (typ src item : Nat) (data : List Byte) : List (List Byte) :=
  let n := max 1 ((data.length + 53) / 54)
  (List.range n).map fun i => mkFrame typ 0 src (toBytes 4 (item + 2 ^ 8 * i + 2 ^ 16 * n) ++ slice data (54 * i) 54)

end Sys2Proof.Machine
end

