-- ==== Sys2Proof/Machine/Eth.lean ====
section
/-! DEFINITION. Ethernet and IEEE 1588 (R538 to R541). A command stands at the first bit after the start-of-frame delimiter of the
frame it names. -/

namespace Sys2Proof.Machine

/-- The state with the MAC's own part changed. -/
def State.updEth (s : State) (f : Eth → Eth) : State := { s with eth := f s.eth }

/-- The MAC is enabled. -/
def State.ethOn (s : State) : Bool := s.bit ETH_APPLIED 0

/-! ### The clock (R541): counted in 2^-32 ns -/

/-- 2^-32 ns in one nanosecond, and in one turn of the 48-bit seconds. -/
abbrev nsUnit : Nat := 2 ^ 32
abbrev ethTurn : Nat := 2 ^ 48 * 1000000000 * 2 ^ 32

/-- Whole seconds and nanoseconds of a clock value. -/
def clkSec (c : Nat) : Nat := c / nsUnit / 1000000000
def clkNs (c : Nat) : Nat := c / nsUnit % 1000000000

/-- The value `d` away from a clock value, modulo its turn. -/
def clkAdd (c : Nat) (d : Int) : Nat := (((c : Int) + d) % (ethTurn : Int)).toNat

/-- One link clock: 3 ns + PADD × 2^-32 ns. -/
def State.ethTick (s : State) : State :=
  s.updEth fun e => { e with clk := clkAdd e.clk (3 * (nsUnit : Int) + ((s.reg ETH_PADD).toNat : Int)) }

/-- A slot passes: a link clock of 3.2 ns ends in 25 of 32 slots of 2.5 ns. -/
def State.runEth (s : State) : State := if s.now * 25 / 32 < (s.now + 1) * 25 / 32 then s.ethTick else s

/-- The signed step offset in 2^-32 ns. -/
def State.ethStep (s : State) : Int := ((s.reg ETH_PSTPS).toInt * 1000000000 + (s.reg ETH_PSTPN).toInt) * (nsUnit : Int)

/-- The clock is latched into the capture registers. -/
def State.ethCapture (s : State) : State :=
  let c := s.eth.clk
  (((s.setReg ETH_PCAPL (BitVec.ofNat 32 (clkSec c))).setReg ETH_PCAPH (BitVec.ofNat 32 (clkSec c / 2 ^ 32))).setReg ETH_PCAPN
    (BitVec.ofNat 32 (clkNs c))).raise ETH_EVT ETH_EVT_PCAP

/-- A pulse of trigger line `k` (R541). -/
def State.ethTrigger (s : State) (k : Nat) : State := if s.fld ETH_PCFG ETH_PCFG_CTRIG = k then s.ethCapture else s

/-! ### Entries (R540) -/

/-- An entry: address, word 1, and the stamp of a clock value. -/
def ethEntry (addr w1 : Word) (stamp : Option Nat) : List Byte :=
  wordsToBytes [addr, w1, match stamp with | some c => BitVec.ofNat 32 (clkNs c) | none => 0,
    match stamp with | some c => BitVec.ofNat 32 (clkSec c) | none => 0]

/-- A completion entry with its STATUS is put into TCQ. -/
def State.ethComplete (s : State) (addr w1 : Word) (status : Nat) (stamp : Option Nat) : State :=
  ((s.qputFor (s.binding 5) (s.fld ETH_QCFG ETH_QCFG_TCQ) (ethEntry addr ((⟨12, 2⟩ : Fld).set (w1 &&& 0xFFF) status) stamp)).1).raise ETH_EVT
    ETH_EVT_TXC

/-! ### Receiving (R538, R539) -/

/-- The unit address, and a multicast entry, as numbers of the 6 destination bytes (R6). -/
def State.ethAddr (s : State) : Nat := (s.reg ETH_MACL).toNat + 2 ^ 32 * s.fld ETH_MACH ETH_MACH_ADDR
def State.ethMulti (s : State) (m : Nat) : Nat := (s.reg (ETH_MCL m)).toNat + 2 ^ 32 * s.fld (ETH_MCH m) ETH_MCH_ADDR

/-- The destination is taken (R539). -/
def State.ethDest (s : State) (d : Nat) : Bool :=
  d == s.ethAddr || (d == 2 ^ 48 - 1 && s.fld ETH_MACH ETH_MACH_BCAST == 1)
    || (List.range 16).any fun m => s.fld (ETH_MCH m) ETH_MCH_EN == 1 && d == s.ethMulti m

/-- The frame carries a VLAN tag. -/
def ethTagged (l : List Byte) : Bool := slice l 12 2 == [0x81, 0x00]

/-- The VLAN is taken (R539). -/
def State.ethVlan (s : State) (l : List Byte) : Bool :=
  if ethTagged l then
    let vid := ((l.getD 14 0).toNat * 256 + (l.getD 15 0).toNat) % 4096
    (List.range 16).any fun v =>
      (s.fld (ETH_VLAN v) ETH_VLAN_EN0 == 1 && s.fld (ETH_VLAN v) ETH_VLAN_VID0 == vid)
        || (s.fld (ETH_VLAN v) ETH_VLAN_EN1 == 1 && s.fld (ETH_VLAN v) ETH_VLAN_VID1 == vid)
  else s.fld ETH_MACH ETH_MACH_UNTAG == 1

/-- A frame is dropped and counted under its event. -/
def State.ethDrop (s : State) (evt : Nat) : State :=
  (if evt = ETH_EVT_FCS then s.count ETH_CNT ETH_CNT_FCS 1 else s.count ETH_CNT ETH_CNT_RXDROP 1).raise ETH_EVT evt

/-- A millisecond in slots. -/
abbrev msSlots : Nat := 400000

/-- A PAUSE frame (destination 01-80-C2-00-00-01 or the unit's, type 0x8808, operation 1) and its quanta (R538). -/
def pauseQuanta (l : List Byte) : Option Nat :=
  if slice l 12 4 == [0x88, 0x08, 0x00, 0x01] then some ((l.getD 16 0).toNat * 256 + (l.getD 17 0).toNat) else none

/-- Slots of 512 bit times at the speed of the link, times ten. -/
def State.quantum10 (s : State) : Nat :=
  if s.fld ETH_STAT ETH_STAT_SPEED = 0 then 204800 else if s.fld ETH_STAT ETH_STAT_SPEED = 1 then 20480 else 2048

/-- A received PAUSE frame is honoured while PAUSE is 1 (R538). -/
def State.ethPause (s : State) (l : List Byte) : State :=
  match pauseQuanta l with
  | some q => if s.fld ETH_MACH ETH_MACH_PAUSE = 1 then s.updEth fun e => { e with pause := s.now + q * s.quantum10 / 10 } else s
  | none => s

/-- A frame is taken: into the oldest free buffer, with its entry into RXQ (R540). -/
def State.ethAccept (s : State) (l : List Byte) : State :=
  let fbq := s.fld ETH_QCFG ETH_QCFG_FBQ
  let addr := BitVec.ofNat 32 (field (s.qOldest fbq) 0 4)
  let stamp := clkAdd s.eth.clk (-((s.fld ETH_PLAT ETH_PLAT_RXLAT * nsUnit / 10 : Nat) : Int))
  let s1 := ((s.qpop fbq 1).wrBytes addr.toNat l).updEth fun e => { e with okAt := s.now }
  ((s1.qputFor (s.binding 5) (s.fld ETH_QCFG ETH_QCFG_RXQ)
    (ethEntry addr (BitVec.ofNat 32 (l.length + 2 ^ 11)) (some stamp))).1).raise ETH_EVT ETH_EVT_RXF

/-- A frame arrives, without its FCS; `good`: FCS and length are right (R539). -/
def State.ethArrive (s : State) (l : List Byte) (good : Bool) : State :=
  let ms := s.now / msSlots
  let n := if s.eth.ms = ms then s.eth.count + 1 else 1
  let s1 := s.updEth fun e => { e with ms := ms, count := n }
  if !good || l.length < 60 || 1518 < l.length then s1.ethDrop ETH_EVT_FCS
  else
    let s2 := s1.ethPause l
    if !s2.ethDest (field l 0 6) || !s2.ethVlan l then s2.ethDrop ETH_EVT_FILT
    else if s2.fld ETH_RXLIM ETH_RXLIM_LIM < n then s2.ethDrop ETH_EVT_RATE
    else if s2.qCount (s2.fld ETH_QCFG ETH_QCFG_FBQ) = 0 then s2.ethDrop ETH_EVT_NOBUF
    else
      let acct := s2.binding 5
      let n := (l.length + 15) / 16
      if s2.budHas acct resFABRIC (n + 1) then (s2.budDraw acct resFABRIC n).ethAccept l
      else ((s2.budStarve acct resFABRIC).budDrop acct).count ETH_CNT ETH_CNT_RXDROP 1

/-! ### Registers (R548, R549) -/

/-- The chapter's own conditions for a write to an ETH register. -/
def State.ethLegal (s : State) (addr : Nat) (w : Word) : Bool :=
  let o := addr % 0x10000
  if addr = ETH_MACL then !bitOf w 0
  else if addr = ETH_QCFG then
    let f := ETH_QCFG_FBQ.get w
    let r := ETH_QCFG_RXQ.get w
    let t := ETH_QCFG_TXQ.get w
    let c := ETH_QCFG_TCQ.get w
    decide (f ≠ r ∧ f ≠ t ∧ f ≠ c ∧ r ≠ t ∧ r ≠ c ∧ t ≠ c)
  else if addr = ETH_PSECL ∨ addr = ETH_PSECH then !s.ethOn
  else if addr = ETH_PNS then !s.ethOn && decide (ETH_PNS_TIME.get w < 1000000000)
  else if addr = ETH_PSTPN then decide (w.toInt.natAbs < 1000000000)
  else if 0x200 ≤ o ∧ o < 0x280 ∧ o % 8 = 0 then bitOf w 0
  else if 0x280 ≤ o ∧ o < 0x2C0 then
    let a := ETH_VLAN_VID0.get w
    let b := ETH_VLAN_VID1.get w
    decide (1 ≤ a ∧ a ≤ 4094 ∧ 1 ≤ b ∧ b ≤ 4094)
  else true

/-- The clock with its seconds and nanoseconds set. -/
def State.ethSet (s : State) (sec ns : Nat) : State := s.updEth fun e => { e with clk := (sec * 1000000000 + ns) * nsUnit }

/-- A write to an ETH register. -/
def State.ethWrite (s : State) (addr : Nat) (w : Word) : State :=
  s.writeWith addr w s.ethOn (s.ethLegal addr w) fun t =>
    let sec := clkSec t.eth.clk
    if addr = ETH_CTRL then
      ((if s.ethOn then t else t.updEth fun e => { e with okAt := t.now }).setFld ETH_APPLIED ETH_APPLIED_EN (ETH_CTRL_EN.get w)).setFld ETH_APPLIED ETH_APPLIED_GEN (ETH_CTRL_GEN.get w)
    else if addr = ETH_RXLIM then t.updEth fun e => { e with okAt := t.now }
    else if addr = ETH_PSECL then t.ethSet (sec / 2 ^ 32 * 2 ^ 32 + w.toNat) (clkNs t.eth.clk)
    else if addr = ETH_PSECH then t.ethSet (sec % 2 ^ 32 + 2 ^ 32 * ETH_PSECH_TIME.get w) (clkNs t.eth.clk)
    else if addr = ETH_PNS then t.ethSet sec (ETH_PNS_TIME.get w)
    else if addr = ETH_PCMD then (if bitOf w 0 then t.updEth fun e => { e with clk := clkAdd e.clk t.ethStep } else t)
    else t

/-- A read of a clock register (R541). -/
def State.ethClockRead (s : State) (addr : Nat) : Word :=
  let c := s.eth.clk
  if addr = ETH_PSECL then BitVec.ofNat 32 (clkSec c) else if addr = ETH_PSECH then BitVec.ofNat 32 (clkSec c / 2 ^ 32)
  else BitVec.ofNat 32 (clkNs c)

/-! ### Commands -/

/-- `ETH_RECEIVE` (R539): a frame arrives. -/
def execEthReceive (bytes : List Byte) (good : Bool) (s : State) : Host.Outcome State Fault Refusal :=
  .next (if s.ethOn then s.ethArrive bytes good else s)

/-- `ETH_TRANSMIT` (R538, R540): the MAC takes the next transmit entry: refused for its length or for want of a link, or sent. -/
def execEthTransmit (s : State) : Host.Outcome State Fault Refusal :=
  let q := s.fld ETH_QCFG ETH_QCFG_TXQ
  if !s.ethOn || s.eth.tx.isSome || s.qCount q = 0 || s.now < s.eth.pause then .next s
  else
    let e := s.qOldest q
    let addr := BitVec.ofNat 32 (field e 0 4)
    let w1 := BitVec.ofNat 32 (field e 4 4)
    let len := w1.toNat % 2 ^ 11
    let s1 := s.qpop q 1
    .next (if len < 60 ∨ 1518 < len then (s1.ethComplete addr w1 1 none).raise ETH_EVT ETH_EVT_TXBAD
      else if s1.fld ETH_STAT ETH_STAT_LINK = 0 then s1.ethComplete addr w1 2 none
      else
        let stamp := clkAdd s1.eth.clk ((s1.fld ETH_PLAT ETH_PLAT_TXLAT * nsUnit / 10 : Nat) : Int)
        let f : EthTx := { addr := addr, w1 := w1, bytes := s1.rdBytes addr.toNat len, stamp := stamp }
        (s1.budDraw (s1.binding 5) resFABRIC ((len + 15) / 16)).updEth fun x => { x with tx := some f })

/-- `ETH_TX_COMPLETE` (R540): the frame in transmission is sent; its completion entry is put. -/
def execEthTxComplete (s : State) : Host.Outcome State Fault Refusal :=
  match s.eth.tx with
  | none => .next s
  | some t => .next ((s.updEth fun e => { e with tx := none }).ethComplete t.addr t.w1 0 (if bitOf t.w1 11 then some t.stamp else none))

/-- `ETH_STEP` (R541): a write to ETH_PCMD. -/
def execEthStep (w : Word) (s : State) : Host.Outcome State Fault Refusal := .next (s.ethWrite ETH_PCMD w)

/-- `PCAP` (R541): a pulse of a trigger line reaches the MAC. -/
def execPcapLatch (line : Fin 32) (s : State) : Host.Outcome State Fault Refusal := .next (s.ethTrigger line)

/-- `AUTO_NEGOTIATION_WORD` (R538): the PHY's word sets link state and speed; LINK is set when the word changes them. -/
def execAutoNegotiationWord (link : Bool) (speed : Fin 3) (s : State) : Host.Outcome State Fault Refusal :=
  let w := BitVec.ofNat 32 (b2n link + 2 * speed.val)
  .next (if s.reg ETH_STAT = w then s else (s.setReg ETH_STAT w).raise ETH_EVT ETH_EVT_LINK)

/-- `ETH_STALE` (R539): no frame has been accepted for TOUT ms. -/
def execEthStale (s : State) : Host.Outcome State Fault Refusal :=
  let t := s.fld ETH_RXLIM ETH_RXLIM_TOUT
  .next (if s.ethOn && t != 0 && decide (s.eth.okAt + msSlots * t ≤ s.now)
    then ((s.updEth fun e => { e with okAt := s.now }).raise ETH_EVT ETH_EVT_STALE).sendFault blkETH 0 0x05 clsC 0 else s)

end Sys2Proof.Machine
end

