-- ==== Sys2Proof/Machine/Can.lean ====
section
/-! DEFINITION. The CAN FD controllers (R542 to R544). -/

namespace Sys2Proof.Machine

/-- The state with controller `k` changed. -/
def State.updCan (s : State) (k : Nat) (f : Can → Can) : State := { s with can := vupd s.can k f }

/-- Controller `k` is enabled and not bus-off. -/
def State.canOn (s : State) (k : Nat) : Bool := s.bit CAN_APPLIED k && s.fld (CAN_STAT k) CAN_STAT_STATE != 2

/-- Data bytes of a DLC (R542: ISO 11898-1). -/
def dlcBytes (fdf : Bool) (dlc : Nat) : Nat :=
  if dlc ≤ 8 then dlc
  else if !fdf then 8
  else if dlc = 9 then 12 else if dlc = 10 then 16 else if dlc = 11 then 20 else if dlc = 12 then 24 else if dlc = 13 then 32
  else if dlc = 14 then 48 else 64

/-- Entries of a frame with `n` data bytes: 8 bytes in the first, 16 in each further one (R543). -/
def canEntries (n : Nat) : Nat := if n ≤ 8 then 1 else 1 + (n - 8 + 15) / 16

/-- The entries of a received frame (R543). -/
def canRecord (w0 w1 : Word) (data : List Byte) : List (List Byte) :=
  let n := canEntries data.length
  (List.range n).map fun i => if i = 0 then wordsToBytes [w0, w1] ++ slice data 0 8 else slice data (8 + 16 * (i - 1)) 16

/-- The lowest enabled filter of controller `k` that matches (R544). -/
def State.canFilter (s : State) (k : Nat) (id : Nat) (ide : Bool) : Option Nat :=
  (List.range 32).find? fun j =>
    s.fld (CAN_FCFG k j) CAN_FCFG_EN == 1 && (s.fld (CAN_FCFG k j) CAN_FCFG_IDE == 1) == ide
      && ((BitVec.ofNat 32 id ^^^ s.reg (CAN_FID k j)) &&& s.reg (CAN_FMSK k j)) == 0

/-- A received frame is dropped and counted. -/
def State.canDrop (s : State) (k : Nat) : State := s.count (CAN_CNT k) CAN_CNT_DROP 1

/-- A frame reaches controller `k`. -/
def State.canArrive (s : State) (k id : Nat) (ide fdf brs rtr : Bool) (dlc : Nat) (data : List Byte) : State :=
  let ms := s.now / msSlots
  let x := vat s.can k
  let n := if x.ms = ms then x.count + 1 else 1
  let s1 := s.updCan k fun y => { y with ms := ms, count := n }
  if s1.fld (CAN_CFG k) CAN_CFG_RXLIM < n then (s1.canDrop k).raise CAN_EVT (CAN_EVT_RATE k)
  else match s1.canFilter k id ide with
    | none => s1
    | some j =>
      let s2 := s1.updCan k fun y => { y with okAt := vset y.okAt j s.now }
      let w0 := BitVec.ofNat 32 (id + 2 ^ 29 * b2n ide + 2 ^ 30 * b2n fdf + 2 ^ 31 * b2n brs)
      let w1 := BitVec.ofNat 32 (dlc + 2 ^ 4 * b2n rtr + 2 ^ 16 * j + 2 ^ 21 * (clkNs s.eth.clk / 2 ^ 10 % 2 ^ 11))
      let es := canRecord w0 w1 (slice data 0 (if rtr then 0 else dlcBytes fdf dlc))
      let q := s2.fld (CAN_FCFG k j) CAN_FCFG_QUE
      let acct := s2.binding 5
      let room := s2.fld (QUE_QCFG q) QUE_QCFG_EN == 1 && decide (s2.qCount q + es.length ≤ s2.qDepth q)
      if !room then s2.canDrop k
      else if !s2.budHas acct resFABRIC es.length then ((s2.budStarve acct resFABRIC).budDrop acct).canDrop k
      else (es.foldl (fun t e => (t.qput q e).1) (s2.budDraw acct resFABRIC es.length)).raise CAN_EVT (CAN_EVT_RXF k)

/-- A transmit entry that R544 discards: word 0 and word 1 of the entry. -/
def canBad (w0 w1 : Word) : Bool :=
  let ide := bitOf w0 29
  let fdf := bitOf w0 30
  (!ide && decide (0x7FF < w0.toNat % 2 ^ 29)) || (!fdf && decide (8 < w1.toNat % 16)) || (bitOf w0 31 && !fdf) || (bitOf w1 4 && fdf)

/-- The next frame of controller `k`'s transmit queue is sent or discarded, once all its entries are there (R543, R544). -/
def State.canSend (s : State) (k : Nat) : State :=
  let q := s.fld (CAN_CFG k) CAN_CFG_TXQ
  let e := s.qOldest q
  let w0 := BitVec.ofNat 32 (field e 0 4)
  let w1 := BitVec.ofNat 32 (field e 4 4)
  let n := canEntries (if bitOf w1 4 then 0 else dlcBytes (bitOf w0 30) (w1.toNat % 16))
  if s.qCount q = 0 ∨ s.qCount q < n then s
  else
    let s1 := s.qpop q n
    if canBad w0 w1
    then ((s1.count (CAN_CNT k) CAN_CNT_TXBAD 1).raise CAN_EVT (CAN_EVT_TXBAD k)).sendFault blkCAN k 0x11 clsC 0
    else s1.raise CAN_EVT (CAN_EVT_TXC k)

/-- The timeouts of the controllers that `old` shows disabled count from their enable (R544). -/
def State.canCountFrom (s : State) (old : Word) : State :=
  [0, 1].foldl (fun t k => if bitOf old k then t else t.updCan k fun y => { y with okAt := Vector.replicate 32 t.now }) s

/-- The chapter's own conditions for a write to a CAN register (R549). -/
def State.canLegal (s : State) (addr : Nat) (w : Word) : Bool :=
  if addr = CAN_NBT 0 ∨ addr = CAN_NBT 1 then decide (CAN_NBT_SJW.get w ≤ CAN_NBT_TSEG2.get w)
  else if addr = CAN_DBT 0 ∨ addr = CAN_DBT 1 then decide (CAN_DBT_SJW.get w ≤ CAN_DBT_TSEG2.get w)
  else if addr = CAN_CMD 0 then !bitOf w 0 || s.fld (CAN_STAT 0) CAN_STAT_STATE == 2
  else if addr = CAN_CMD 1 then !bitOf w 0 || s.fld (CAN_STAT 1) CAN_STAT_STATE == 2
  else true

/-- A write to a CAN register. -/
def State.canWrite (s : State) (addr : Nat) (w : Word) : State :=
  let k := (addr % 0x10000 - 0x14) / 0x20
  s.writeWith addr w (s.bit CAN_APPLIED k) (s.canLegal addr w) fun t =>
    let o := addr % 0x10000
    if addr = CAN_CTRL then
      ((t.canCountFrom (s.reg CAN_APPLIED)).setFld CAN_APPLIED CAN_APPLIED_EN (CAN_CTRL_EN.get w)).setFld CAN_APPLIED CAN_APPLIED_GEN (CAN_CTRL_GEN.get w)
    else if (addr = CAN_CMD 0 ∨ addr = CAN_CMD 1) ∧ bitOf w 0 then t.updCan k fun y => { y with rec_ := true }
    else if 0x400 ≤ o ∧ o < 0x800 ∧ o % 0x10 = 8 then
      t.updCan ((o - 0x400) / 0x200) fun y => { y with okAt := vset y.okAt (o % 0x200 / 0x10) t.now }
    else t

/-! ### Commands -/

/-- `CAN_RECEIVE` (R543, R544): a frame arrives at controller `k`. -/
def execCanReceive (k : Fin 2) (id : BitVec 29) (ide fdf brs rtr : Bool) (dlc : BitVec 4) (data : List Byte) (s : State) :
    Host.Outcome State Fault Refusal :=
  .next (if s.canOn k then s.canArrive k id.toNat ide fdf brs rtr dlc.toNat data else s)

/-- `CAN_TRANSMIT` (R543, R544): controller `k` takes its next transmit frame; none while it only monitors the bus. -/
def execCanTransmit (k : Fin 2) (s : State) : Host.Outcome State Fault Refusal :=
  .next (if s.canOn k && s.fld (CAN_CFG k) CAN_CFG_LOM == 0 then s.canSend k else s)

/-- `BUSOFF` (R544): controller `k` enters bus-off. -/
def execBusoff (k : Fin 2) (s : State) : Host.Outcome State Fault Refusal :=
  .next (if s.canOn k then ((s.setFld (CAN_STAT k) CAN_STAT_STATE 2).raise CAN_EVT (CAN_EVT_BOFF k)).sendFault blkCAN k 0x10 clsC 0
    else s)

/-- `CAN_AUTO_RECOVERY` (R544): the 128 occurrences of 11 recessive bits have passed; with AUTOREC, or after REC, the controller
recovers. -/
def execCanAutoRecovery (k : Fin 2) (s : State) : Host.Outcome State Fault Refusal :=
  .next (if s.fld (CAN_STAT k) CAN_STAT_STATE = 2 ∧ (s.fld (CAN_CFG k) CAN_CFG_AUTOREC = 1 ∨ (vat s.can k).rec_)
    then (s.setFld (CAN_STAT k) CAN_STAT_STATE 0).updCan k fun y => { y with rec_ := false } else s)

/-- `CAN_REC` (R544): a write to CAN_CMDk starts recovery. -/
def execCanRec (k : Fin 2) (w : Word) (s : State) : Host.Outcome State Fault Refusal := .next (s.canWrite (CAN_CMD k) w)

/-- `FILTER_STALE` (R544): filter `j` of controller `k` has matched no frame for TOUT ms. -/
def execFilterStale (k : Fin 2) (j : Fin 32) (s : State) : Host.Outcome State Fault Refusal :=
  let t := s.fld (CAN_FCFG k j) CAN_FCFG_TOUT
  .next (if s.bit CAN_APPLIED k && s.fld (CAN_FCFG k j) CAN_FCFG_EN == 1 && t != 0
      && decide ((vat (vat s.can k).okAt j) + msSlots * t ≤ s.now)
    then ((s.updCan k fun y => { y with okAt := vset y.okAt j s.now }).raise CAN_EVT (CAN_EVT_STALE k)).sendFault blkCAN k 0x05 clsC j
    else s)

end Sys2Proof.Machine
end

