-- ==== Sys2Proof/Machine/Learn.lean ====
section
/-! DEFINITION. The learned tables of the observer (R125 to R133): tooth factors, torsional terms, coasting, and when the
tables take a new value. -/

namespace Sys2Proof.Machine

/-- The state with the observer's own part changed. -/
def State.updObs (s : State) (f : Obs → Obs) : State := { s with obs := f s.obs }

/-- The state with the synchronisation's own part changed. -/
def State.updSync (s : State) (f : Sync → Sync) : State := { s with sync := f s.sync }

/-! ### Sync states (R138) -/

abbrev syncSTOP : Nat := 0
abbrev syncSEEK : Nat := 1
abbrev syncCRANK : Nat := 2
abbrev syncFULL : Nat := 3
abbrev syncHOLD : Nat := 4
abbrev syncLOST : Nat := 5
abbrev syncREVERSE : Nat := 6

/-- The sync state. -/
def State.syncSt (s : State) : Nat := s.fld OBS_STATE OBS_STATE_SYNC

/-- Actions fire (R139). -/
def State.fires (s : State) : Bool := s.syncSt == syncFULL || s.syncSt == syncHOLD

/-- The angle word is placed (R138). -/
def State.placed (s : State) : Bool := s.syncSt == syncCRANK || s.fires

/-- The angle word (R111). -/
def State.angW (s : State) : Word := s.obs.ang.extractLsb' 24 32

/-- A read of OBS_ANG: the angle word, 0 while it is not placed (R104, R136). -/
def State.obsAng (s : State) : Word := if s.placed then s.angW else 0

/-- The angle word projected `lead` slots ahead at the rate in force, truncated to a whole tick (R182). -/
def State.project (s : State) (lead : Nat) : Word :=
  (s.obs.ang + BitVec.ofNat 56 (lead * (s.reg OBS_RATE).toNat)).extractLsb' 24 32

/-- The cycle position of an angle word (R7). -/
def cyclePos (w : Word) : Nat := w.toNat % 2 ^ 24

/-- Source wheel in force. -/
def State.srcWheel (s : State) : Nat := s.fld OBS_FLAGS OBS_FLAGS_SRCA

/-- The cycle type is four-stroke (R103). -/
def State.fourStroke (s : State) : Bool := s.fld OBS_CFG OBS_CFG_CYCLE == 0

/-- Speed in force in 0.01 rpm (R136, OBS_SPEED). -/
def State.speed (s : State) : Nat :=
  roundDivN ((s.reg OBS_RATE).toNat * 2400000000000) (2 ^ 24 * (if s.fourStroke then 2 ^ 23 else 2 ^ 24)) % 2 ^ 32

/-! ### Tables of halfwords -/

/-- The halfword `i` of a table of words (two entries a word, the lower first). -/
def State.half (s : State) (key : Nat) (i : Nat) : Nat := (s.reg (key + 4 * (i / 2))).toNat / 2 ^ (16 * (i % 2)) % 65536

/-- The state with a halfword of a table set. -/
def State.setHalf (s : State) (key i v : Nat) : State := s.setFld (key + 4 * (i / 2)) ⟨16 * (i % 2), 16⟩ v

/-- g of slot `i` of wheel `n` (R125). -/
def State.factor (s : State) (n i : Nat) : Rat := (s.half (OBS_FACT n 0) i : Rat) / 16384

/-- h of a point of the torsional table (R131). -/
def State.torsional (s : State) (pt : Nat) : Rat := (signedOf 16 (s.half (OBS_TORS 0) pt) : Rat) / 32768

/-- The point of the torsional table that holds a cycle position (R131). -/
def State.torsPoint (s : State) (pos : Nat) : Nat :=
  let nf := s.fld OBS_CFG OBS_CFG_NFIRE
  let rel := (pos + 2 ^ 24 - s.fld OBS_TOFS OBS_TOFS_OFS) % 2 ^ 24
  let starts := (List.range nf).filter fun j => roundDivN (j * 2 ^ 24) nf ≤ rel
  let j := starts.length - 1
  32 * j + min 31 ((rel - roundDivN (j * 2 ^ 24) nf) * nf * 32 / 2 ^ 24)

/-! ### Coasting (R127) -/

/-- The speed lies within OBS_LSPD. -/
def State.learnSpeed (s : State) : Bool :=
  decide (100 * s.fld OBS_LSPD OBS_LSPD_LO ≤ s.speed ∧ s.speed ≤ 100 * s.fld OBS_LSPD OBS_LSPD_HI)

/-- The engine is coasting (R127). -/
def State.coasting (s : State) : Bool :=
  if s.fld OBS_LCTL OBS_LCTL_CSRC = 0
  then s.fires && decide (2 * 2 ^ 24 ≤ s.obs.noFuel) && s.learnSpeed && (s.fld OBS_LCTL OBS_LCTL_COAST == 0)
  else s.fld OBS_LCTL OBS_LCTL_COAST == 1 && s.learnSpeed

/-- Learning of wheel `n`. -/
def State.learnOf (s : State) (n : Nat) : Learn := vat s.obs.learn n

/-- The state with the learning of wheel `n` changed. -/
def State.updLearn (s : State) (n : Nat) (f : Learn → Learn) : State := s.updObs fun o => { o with learn := vupd o.learn n f }

/-- A pass or cycle is discarded: counted, and LDISC set (R128, R132). -/
def State.countDiscard (s : State) : State := (s.count OBS_LCNT OBS_LCNT_DISC 1).raise OBS_EVT OBS_EVT_LDISC_bit

/-- The pass in progress of wheel `n`, if there is one, is discarded (R127, R128). -/
def State.dropPass (s : State) (n : Nat) : State :=
  if (s.learnOf n).pass.isSome
  then (s.updLearn n fun l => { l with pass := none, spoiled := false, prev := none }).countDiscard else s

/-- The pass in progress of wheel `n` will be discarded at its end (R124, R128). -/
def State.spoilPass (s : State) (n : Nat) : State := s.updLearn n fun l => { l with spoiled := true }

/-- Coasting is evaluated: at its end every pass in progress is discarded at once (R127). -/
def State.coastCheck (s : State) : State :=
  let c := s.coasting
  let s1 : State := if (s.fld OBS_FLAGS OBS_FLAGS_COAST == 1) && !c then (List.range 6).foldl State.dropPass s else s
  s1.setFld OBS_FLAGS OBS_FLAGS_COAST (b2n c)

/-- In every slot COAST follows its conditions (R127). -/
def State.coastTick (s : State) : State :=
  if s.coasting == (s.fld OBS_FLAGS OBS_FLAGS_COAST == 1) then s else s.coastCheck

/-- An injection start is dispatched, or an edge is driven on a channel of OBS_LFUEL (R127). -/
def State.fuelled (s : State) : State := (s.updObs fun o => { o with noFuel := 0 }).coastCheck

/-! ### Tooth factors (R126 to R130) -/

/-- FVAL of wheel `n` (R129). -/
def State.fval (s : State) (n : Nat) : Bool := s.bit OBS_FLAGS (8 + n)

/-- Wheel `n` learns (R126). -/
def State.learns (s : State) (n : Nat) : Bool :=
  s.bit OBS_LCTL n && s.bit WHL_CTRL n && (s.fld (WHL_CFG n) WHL_CFG_ROLE == 0) && (s.syncSt == syncFULL) && s.coasting

/-- u_line of R128 at twice a time, through two passes given by twice their midpoint and their mean pitch time. -/
def uline (p0 p1 : Rat × Rat) (t2 : Rat) : Rat := p1.2 + (p1.2 - p0.2) * (t2 - p1.1) / (p1.1 - p0.1)

/-- The larger of two rational numbers. -/
def ratMax (a b : Rat) : Rat := if a < b then b else a

/-- The absolute value of a rational number. -/
def ratAbs (a : Rat) : Rat := if a < 0 then -a else a

/-- The updated and scaled factors of a pass with the measured ones (R128): slot, g, gm. -/
def State.newFactors (s : State) (n : Nat) (ivls : List PassIvl) (p0 p1 : Rat × Rat) : List (Nat × Rat × Rat) :=
  let lr : Rat := ((2 ^ s.fld OBS_LCTL OBS_LCTL_LRATE : Nat) : Rat)
  let gs := ivls.map fun i =>
    let gm : Rat := (i.len : Rat) / ((i.k : Rat) * uline p0 p1 i.mid2)
    (i, s.factor n i.slot + (gm - s.factor n i.slot) / lr, gm)
  let sum : Rat := gs.foldl (fun a g => a + g.2.1 * (g.1.k : Rat)) 0
  gs.map fun g => (g.1.slot, g.2.1 * (s.fld (WHL_TEETH n) WHL_TEETH_COUNT : Rat) / sum, g.2.2)

/-- The residual of a pass in ppm (R128). -/
def residual (gs : List (Nat × Rat × Rat)) : Rat := gs.foldl (fun m g => ratMax m (ratAbs (g.2.2 / g.2.1 - 1) * 1000000)) 0

/-- FVAL after a pass with a residual (R129). -/
def State.judgeFactors (s : State) (n : Nat) (r : Rat) : State :=
  let lres : Rat := (s.fld OBS_LRES OBS_LRES_LRES : Rat)
  let s1 := if n = s.srcWheel then s.setFld OBS_RESID OBS_RESID_RESID (capAt 65535 (rround r).toNat) else s
  if s.fval n && decide (4 * lres < r) then (s1.setBit OBS_FLAGS (8 + n) false).raise OBS_EVT OBS_EVT_FBAD_bit
  else if !s.fval n && decide (s.fld OBS_LCTL OBS_LCTL_LMIN ≤ (s.learnOf n).passes) && decide (r ≤ lres)
  then (s1.setBit OBS_FLAGS (8 + n) true).raise OBS_EVT OBS_EVT_LDONE_bit
  else s1

/-- A learning pass ends at slot 0 at time `tEnd` (R128). -/
def State.passEnd (s : State) (n tEnd : Nat) (ivls : List PassIvl) : State :=
  let sum := (ivls.map PassIvl.len).sum
  let p1 : Rat × Rat := ((2 * tEnd - sum : Nat), (sum : Rat) / (s.fld (WHL_TEETH n) WHL_TEETH_COUNT : Rat))
  let s1 := (s.updLearn n fun l => { l with passes := l.passes + 1, prev := some p1 })
  let s2 := if n = s.srcWheel then s1.count OBS_LCNT OBS_LCNT_PASSES 1 else s1
  match (s.learnOf n).prev with
  | none => s2
  | some p0 =>
    let gs := s.newFactors n ivls p0 p1
    let s3 : State := gs.foldl (fun t g => t.setHalf (OBS_FACT n 0) g.1 (clampI 8192 24575 (rround (g.2.1 * 16384))).toNat) s2
    s3.judgeFactors n (residual gs)

/-- An interval of wheel `n` from slot `slot` over `k` pitches to the tooth of slot `next` at time `tEnd` is learned (R126 to
R128). `touched`: it begins or ends on a paste tooth; `endPaste`: it ends on one. -/
def State.learnInterval (s : State) (n slot k len next tEnd : Nat) (touched endPaste : Bool) : State :=
  if !s.learns n then s.dropPass n
  else
    let l := s.learnOf n
    match l.pass with
    | none => if next = 0 then s.updLearn n fun l => { l with pass := some [], spoiled := endPaste } else s
    | some is =>
      let is' := ⟨slot, k, len, 2 * tEnd - len⟩ :: is
      let bad := l.spoiled || touched
      if next ≠ 0 then s.updLearn n fun l => { l with pass := some is', spoiled := bad }
      else
        let s1 := if bad then (s.updLearn n fun l => { l with prev := none }).countDiscard else s.passEnd n tEnd is'
        s1.updLearn n fun l => { l with pass := some [], spoiled := endPaste }

/-- The factor table of wheel `n` is written or cleared: FVAL returns to 0 and its passes count anew (R129). -/
def State.factTouched (s : State) (n : Nat) : State :=
  (s.setBit OBS_FLAGS (8 + n) false).updLearn n fun l => { l with passes := 0 }

/-- Every factor of wheel `n` is set to 16,384 (R136, `OBS_CLR.FACT`). -/
def State.clearFactors (s : State) (n : Nat) : State :=
  ((List.range 2048).foldl (fun t i => t.setReg (OBS_FACT n i) 0x40004000) s).factTouched n

/-! ### Torsional terms (R131 to R133) -/

/-- The mean deviation of the intervals of a cycle that fall in a point (R132). -/
def torsMean (is : List TorsIvl) (u : Rat) (pt : Nat) : Rat :=
  let xs := is.filter fun i => i.pt == pt
  (xs.foldl (fun a i => a + (i.len / (i.a * u) - 1)) 0) / (xs.length : Rat)

/-- A qualifying cycle updates the torsional table (R132). -/
def State.torsUpdate (s : State) (is : List TorsIvl) (u : Rat) : State :=
  let tr : Rat := ((2 ^ s.fld OBS_LCTL OBS_LCTL_TRATE : Nat) : Rat)
  let pts := (is.map TorsIvl.pt).eraseDups
  let s1 : State := pts.foldl (fun t pt =>
    let h := s.torsional pt
    t.setHalf (OBS_TORS 0) pt (patternOf 16 (clampI (-8192) 8191 (rround ((h + (torsMean is u pt - h) / tr) * 32768))))) s
  let s2 := s1.updObs fun o => { o with torsCount := o.torsCount + 1 }
  if s.fld OBS_LCTL OBS_LCTL_LMIN ≤ s2.obs.torsCount then s2.setFld OBS_FLAGS OBS_FLAGS_TVAL 1 else s2

/-- A cycle of tooth intervals ends (R132). -/
def State.torsCycleEnd (s : State) : State :=
  let is := s.obs.tors
  let total : Rat := is.foldl (fun a i => a + i.len) 0
  let mean : Rat := total / ((is.map TorsIvl.k).sum : Rat)
  let u : Rat := total / is.foldl (fun a i => a + i.a) 0
  let next := s.updObs fun o =>
    { o with tors := [], torsSpoiled := false, torsWhole := true, torsPrev := if o.torsWhole then some mean else none }
  match s.obs.torsPrev with
  | none => next
  | some m0 =>
    if s.obs.torsWhole && (s.fld OBS_LCTL OBS_LCTL_TEN == 1) && (s.syncSt == syncFULL) && s.fval s.srcWheel && !s.coasting
        && decide (ratAbs (mean - m0) * 1000 ≤ 5 * m0)
    then (if s.obs.torsSpoiled then next.countDiscard else next.torsUpdate is u) else next

/-- An interval of the source in force joins the cycle in which its ending tooth is delivered; `newCycle` says that this tooth
is the first of another cycle (R132). -/
def State.torsInterval (s : State) (newCycle : Bool) (i : TorsIvl) (touched : Bool) : State :=
  (if newCycle then s.torsCycleEnd else s).updObs fun o =>
    { o with tors := i :: o.tors, torsSpoiled := o.torsSpoiled || touched }

/-- The torsional table is written or cleared: TVAL returns to 0 (R132). -/
def State.torsTouched (s : State) : State :=
  (s.setFld OBS_FLAGS OBS_FLAGS_TVAL 0).updObs fun o => { o with torsCount := 0 }

/-- Every torsional entry is set to 0 (R136, `OBS_CLR.TORS`). -/
def State.clearTorsional (s : State) : State :=
  ((List.range 384).foldl (fun t i => t.setReg (OBS_TORS i) 0) s).torsTouched

/-- The angle word is no longer placed: passes in progress are discarded, the cycle in progress is forgotten. -/
def State.learnLost (s : State) : State :=
  ((List.range 6).foldl State.dropPass s).updObs fun o =>
    { o with tors := [], torsWhole := false, torsSpoiled := false, torsPrev := none, noFuel := 0 }

end Sys2Proof.Machine
end

