-- ==== Sys2Proof/Machine/Output.lean ====
section
/-! DEFINITION. The output units (06_action_calendar_and_outputs.md): descriptors, firing, ends of pulses, soft shutdown, CYC
compares, safe ends, retirement, and the registers of OUT. -/

namespace Sys2Proof.Machine

/-! ### Descriptor fields (R172) -/

abbrev kINJ : Nat := 0
abbrev kIGN : Nat := 1
abbrev kAPULSE : Nat := 2
abbrev kAEDGE : Nat := 3
abbrev kSAMPLE : Nat := 4
abbrev kMSG : Nat := 5
abbrev kTRIG : Nat := 6

def Action.kind (a : Action) : Nat := a.w1.toNat % 16
def Action.chan (a : Action) : Nat := a.w1.toNat / 2 ^ 4 % 64
def Action.scale (a : Action) : Nat := a.w1.toNat / 2 ^ 10 % 4
def Action.level (a : Action) : Bool := bitOf a.w1 12
def Action.rep (a : Action) : Bool := bitOf a.w1 13
def Action.limit (a : Action) : Nat := a.w1.toNat / 2 ^ 16 % 256
def Action.tag (a : Action) : Nat := a.w1.toNat / 2 ^ 24
def Action.span (a : Action) : Nat := a.w2.toNat % 2 ^ 24
def Action.prof (a : Action) : Nat := a.w2.toNat / 2 ^ 24 % 16
def Action.minDur (a : Action) : Nat := a.w3.toNat % 65536
def Action.maxDur (a : Action) : Nat := a.w3.toNat / 65536

/-- The action is a pulse. -/
def Action.isPulse (a : Action) : Bool := a.kind == kINJ || a.kind == kIGN || a.kind == kAPULSE

/-- Slots in one unit of SCALE: 10, 40, 160, 640 ns (R172). -/
def Action.unit (a : Action) : Nat := 4 ^ (a.scale + 1)

/-- E of R186. -/
def Action.endAngle (a : Action) : Word := a.w0 + BitVec.ofNat 32 a.span

/-- Slots by which a kind's compared word is projected ahead (R182). -/
def Action.lead (a : Action) : Nat := if a.kind = kINJ then 64 else if a.kind = kSAMPLE then 16 else 0

/-- Number of the output channel of an action: INJ from 0, IGN from 12, AOUT from 36. -/
def Action.channel (a : Action) : Option Nat :=
  if a.kind = kINJ then some a.chan else if a.kind = kIGN then some (12 + a.chan)
  else if a.kind = kAPULSE ∨ a.kind = kAEDGE then some (36 + a.chan) else none

/-- Output stage of an action (R181): the channel's, the converter's, or the one MSG and TRIG share. -/
def Action.stageNo (a : Action) : Nat :=
  match a.channel with
  | some c => c
  | none => if a.kind = kSAMPLE then 52 + a.chan / 12 else 56

/-- Actions a stage holds (R181). -/
def stageDepth (n : Nat) : Nat := if n < 52 then 8 else if n < 56 then 32 else 16

/-! ### Statuses (R203, R205) -/

abbrev stDONE : Nat := 1
abbrev stLATE : Nat := 2
abbrev stDROPPED : Nat := 3
abbrev stCANCELLED : Nat := 4
abbrev stABORTED : Nat := 5
abbrev stABORTLATE : Nat := 6
abbrev stSYNCLOST : Nat := 7
abbrev stWITHHELD : Nat := 8
abbrev stSUPPRESSED : Nat := 9
abbrev stSTALE : Nat := 10
abbrev stILLEGAL : Nat := 16
abbrev stFULL : Nat := 17
abbrev stDISABLED : Nat := 18
abbrev stMODE : Nat := 19

/-! ### Channels -/

/-- The output channel `c`. -/
def State.outOf (s : State) (c : Nat) : OutCh := vat s.outCh c

/-- The state with an output channel changed. -/
def State.updOut (s : State) (c : Nat) (f : OutCh → OutCh) : State := { s with outCh := vupd s.outCh c f }

/-- MINOFF of a channel in slots (R211: units of 40 ns). -/
def State.minOff (s : State) (c : Nat) : Nat :=
  16 * (if c < 12 then s.fld (OUT_INJ c) OUT_INJ_MINOFF else if c < 36 then s.fld (OUT_IGN (c - 12)) OUT_IGN_MINOFF
    else s.fld (OUT_AOUT (c - 36)) OUT_AOUT_MINOFF)

/-- An enabled echo generator owns the AOUT pin (R90). -/
def State.echoOwns (s : State) (n : Nat) : Bool :=
  [0, 1].any fun k => s.fld (WHL_ECFG k) WHL_ECFG_EN == 1 && s.fld (WHL_ECFG k) WHL_ECFG_NOPIN == 0
    && s.fld (WHL_ECFG k) WHL_ECFG_PIN == n

/-- AOUT `n` is enabled for the output unit (R90, R211). -/
def State.aoutOn (s : State) (n : Nat) : Bool := s.bit OUT_ENA n && !s.echoOwns n

/-- AOUT `n` is in CYC mode. -/
def State.aoutCyc (s : State) (n : Nat) : Bool := s.fld (OUT_AOUT n) OUT_AOUT_MODE == 1

/-- Idle level of AOUT `n` (R193). -/
def State.aoutIdle (s : State) (n : Nat) : Bool := s.fld (OUT_AOUT n) OUT_AOUT_IDLE == 1

/-- The level at an AOUT pin, driven; an edge on a channel of OBS_LFUEL counts as fuel admission (R127, R211). -/
def State.setPin (s : State) (n : Nat) (b : Bool) : State :=
  let s1 := s.setBit OUT_LVLA n b
  if s.bit OUT_LVLA n ≠ b ∧ s.bit OBS_LFUEL n then s1.fuelled else s1

/-- The pin of AOUT `n` at its idle level. -/
def State.pinIdle (s : State) (n : Nat) : State := s.setPin n (s.aoutIdle n)

/-- Level of pin IGNn: dwell, soft shutdown pattern of R191, or idle, inverted by INV (R190). -/
def State.ignPin (s : State) (n : Nat) : Bool :=
  let dwell :=
    match (s.outOf (12 + n)).soft with
    | some t => let e := s.now - t
                decide (e < 500 * 4000) && decide (e % 4000 < 8 * (499 - e / 4000))
    | none => s.bit OUT_ACTG n
  dwell != (if (s.outOf (12 + n)).soft.isSome then (s.outOf (12 + n)).softInv else s.fld (OUT_IGN n) OUT_IGN_INV == 1)

/-- The compared word of an action (R182). -/
def State.compared (s : State) (a : Action) : Word := s.project a.lead

/-- The target of an action is enabled (R176, R442). -/
def State.targetOn (s : State) (a : Action) : Bool :=
  if a.kind = kINJ then s.bit OUT_ENI a.chan else if a.kind = kIGN then s.bit OUT_ENG a.chan
  else if a.kind = kAPULSE ∨ a.kind = kAEDGE then s.aoutOn a.chan
  else if a.kind = kSAMPLE then s.bit FADC_CTRL (a.chan / 12) else true

/-! ### Retirement (R203 to R206) -/

/-- The retirement record of R204. -/
def retireRecord (a : Action) (st : Nat) (start : Word) (dur : Nat) : List Byte :=
  wordsToBytes
    [BitVec.ofNat 32 (a.idx + 2 ^ 17 * a.gen),
     BitVec.ofNat 32 (st + 2 ^ 8 * b2n a.clipMin + 2 ^ 9 * b2n a.clipMax + 2 ^ 10 * b2n a.lateEnd + 2 ^ 11 * b2n a.defer
       + 2 ^ 16 * a.tag + 2 ^ 24 * a.poster),
     start, BitVec.ofNat 32 (capAt 0xFFFFFFFF dur)]

/-- The record is put into the record queue: charged to the calendar's account, never held back on it (R204, R206, R502). -/
def State.putRecord (s : State) (a : Action) (st : Nat) (start : Word) (dur : Nat) : State :=
  if a.rep && s.fld CAL_RCFG CAL_RCFG_EN == 1 then
    let r := (s.budDraw (s.binding 0) resFABRIC 1).qput (s.fld CAL_RCFG CAL_RCFG_QUE) (retireRecord a st start dur)
    if r.2 = qPUT then r.1 else (r.1.count CAL_CNT1 CAL_CNT1_RQDROP 1).raise CAL_EVT CAL_EVT_RQDROP
  else s

/-- The count and event of a final status (R209). -/
def State.countStatus (s : State) (st : Nat) : State :=
  if st = stLATE then (s.count CAL_CNT0 CAL_CNT0_LATE 1).raise CAL_EVT CAL_EVT_LATE
  else if st = stDROPPED then (s.count CAL_CNT0 CAL_CNT0_DROP 1).raise CAL_EVT CAL_EVT_DROP
  else if st = stSUPPRESSED then (s.count CAL_CNT0 CAL_CNT0_DROP 1).raise CAL_EVT CAL_EVT_SUPPR
  else s

/-- An action retires: its entry keeps its final status and is freed, counts and events follow, the poster's RETIRE bit is set
for a status other than DONE, and its record is put (R177, R203, R204, R209, R239). -/
def State.retire (s : State) (a : Action) (st : Nat) (start : Word) (dur : Nat) : State :=
  let s1 : State := { s with
    calq := s.calq.filter fun b => b.idx != a.idx
    stage := s.stage.filter fun b => b.idx != a.idx
    calEnt := tabSet (fun _ => {}) s.calEnt a.idx { gen := a.gen, st := st, used := true } }
  let s2 := (s1.setFld CAL_USED ⟨0, 18⟩ (s1.fld CAL_USED ⟨0, 18⟩ - 1)).countStatus st
  let s3 := if a.defer then s2.raise CAL_EVT CAL_EVT_DEFER else s2
  let s4 := if a.poster < 64 ∧ st ≠ stDONE then s3.setPend a.poster pdRETIRE else s3
  s4.putRecord a st start dur

/-- Retire every pending action that satisfies `p`, with no edge (R200 to R202). -/
def State.retirePending (s : State) (p : Action → Bool) (st : Nat) : State :=
  (s.stage ++ s.calq).foldl (fun t a =>
    if p a && (a.place == .waiting || a.place == .held) then t.retire a st 0 0 else t) s

/-- A released action changed. -/
def State.updStage (s : State) (i : Nat) (f : Action → Action) : State :=
  { s with stage := s.stage.map fun a => if a.idx = i then f a else a }

/-- A released action. -/
def State.staged (s : State) (i : Nat) : Option Action := s.stage.find? fun a => a.idx == i

/-! ### Lateness (R183, R185) -/

/-- L in ticks of a word behind a target. -/
def lateness (w target : Word) : Nat := (wDiff w target).toNat

/-- A late action lies beyond its late limit (R185). -/
def beyond (limit l : Nat) : Bool := limit != 255 && decide (1024 * limit < l)

/-! ### Ends of pulses (R186, R187, R191) -/

/-- t_end as it stands: t_a not yet found counts as never. -/
def Action.tEnd (a : Action) : Nat :=
  match a.ta with
  | some t => min (max t a.tmin) a.tmax
  | none => a.tmax

/-- Soft shutdown of an ignition channel begins (R191). -/
def State.softStart (s : State) (n : Nat) : State :=
  (((s.updOut (12 + n) fun c =>
    { c with soft := some s.now, softInv := s.fld (OUT_IGN n) OUT_IGN_INV == 1 }).setBit OUT_ACTG n false).setBit OUT_SOFTG n true).raise OUT_EVT
    OUT_EVT_SOFT

/-- The end edge of a pulse on its channel: INJ by a command to the drive island, IGN and APULSE at the pin. -/
def State.endEdge (s : State) (a : Action) (te : Nat) (fast : Bool) : State :=
  if a.kind = kINJ then
    ((s.launch .angle .drive (.injEnd a.chan te fast)).setBit OUT_ACTI a.chan false).updOut a.chan fun c =>
      { c with lastEnd := some te }
  else if a.kind = kIGN then
    (s.setBit OUT_ACTG a.chan false).updOut (12 + a.chan) fun c => { c with lastEnd := some te }
  else (s.pinIdle a.chan).updOut (36 + a.chan) fun c => { c with lastEnd := some te }

/-- The natural end of an active pulse at t_end: the spark tested under R187, the clips flagged, the action retired. -/
def State.naturalEnd (s : State) (a : Action) : State :=
  let te := a.tEnd
  let cmin := te == a.tmin && (match a.ta with | some t => decide (t < a.tmin) | none => false)
  let cmax := te == a.tmax && (match a.ta with | some t => decide (a.tmax < t) | none => true)
  let a1 := { a with clipMin := cmin, clipMax := cmax }
  let s1 := if cmin || cmax then s.raise OUT_EVT OUT_EVT_CLIP else s
  let sparkLate := a.kind == kIGN && (a.lateEnd || cmin)
  if sparkLate && beyond a.limit (lateness s.angW a.endAngle) then
    (s1.softStart a.chan).retire a1 stSUPPRESSED a.startW (te - a.ts)
  else (s1.endEdge a te false).retire a1 (if sparkLate || a.late then stLATE else stDONE) a.startW (te - a.ts)

/-- The early end of an active pulse, as R163 ends its kind: INJ at the later of t_min and now, dispatched 64 slots ahead; IGN by
soft shutdown; APULSE at once. The action retires with `st`. -/
def State.endPulse (s : State) (a : Action) (st : Nat) (fast : Bool) : State :=
  if a.kind = kINJ then
    if a.tmin ≤ s.now + 64 then (s.endEdge a (s.now + 64) fast).retire a st a.startW (s.now + 64 - a.ts)
    else s.updStage a.idx fun b => { b with place := .ending, endSt := st }
  else if a.kind = kIGN then (s.softStart a.chan).retire a st a.startW (s.now - a.ts)
  else (s.endEdge a s.now fast).retire a st a.startW (s.now - a.ts)

/-- End every active pulse that satisfies `p` early. -/
def State.endActive (s : State) (p : Action → Bool) (st : Nat) (fast : Bool) : State :=
  s.stage.foldl (fun t a => if p a && a.place == .active then t.endPulse a st fast else t) s

/-! ### Starts (R182 to R189) -/

/-- The channel is occupied for a start whose edge would fall in slot `ts`: a pulse active, a soft shutdown, MINOFF not yet over,
or an earlier deferred start (R188). -/
def State.channelBusy (s : State) (a : Action) (ts : Nat) : Bool :=
  match a.channel with
  | none => false
  | some c =>
    (s.stage.any fun b => b.channel == some c && b.idx != a.idx && (b.place == .active || b.place == .ending))
    || (s.outOf c).soft.isSome
    || (match (s.outOf c).lastEnd with | some e => decide (ts < e + s.minOff c) | none => false)

/-- A deferred start of the channel stands before the action in release order (R188). -/
def State.heldBefore (s : State) (a : Action) : Bool :=
  (s.stage.takeWhile fun b => b.idx != a.idx).any fun b => b.channel == a.channel && b.place == .held

/-- A pulse starts: the start edge falls in this slot, for INJ 64 slots from now (R186, R189). -/
def State.startPulse (s : State) (a : Action) (late : Bool) : State :=
  let ts := s.now + a.lead
  let w := s.compared a
  let tmin := ts + a.minDur * a.unit
  let ta := if wReached w a.endAngle then some ts else none
  let s1 := s.updStage a.idx fun b =>
    { b with place := .active, late := late, startW := w, ts := ts, tmin := tmin, tmax := ts + a.maxDur * a.unit, ta := ta }
  if a.kind = kINJ then
    (((s1.launch .angle .drive (.injStart a.chan a.prof ts tmin)).setBit OUT_ACTI a.chan true)).fuelled
  else if a.kind = kIGN then s1.setBit OUT_ACTG a.chan true
  else s1.setPin a.chan (!s.aoutIdle a.chan)

/-- A late action beyond its limit is dropped: no edge; a SAMPLE's converter is told (R185, R441). -/
def State.dropAction (s : State) (a : Action) : State :=
  (if a.kind = kSAMPLE then s.launch .angle .converter (.sampleMiss a.chan a.w0 s.now a.w2 a.w3) else s).retire a stDROPPED 0 0

/-- A single event fires (R182, R193, R197). -/
def State.fireSingle (s : State) (a : Action) (late : Bool) : State :=
  let w := s.compared a
  let st := if late then stLATE else stDONE
  if a.kind = kAEDGE then (s.setPin a.chan (a.level != s.aoutIdle a.chan)).retire a st w 0
  else if a.kind = kSAMPLE then
    (s.launch .angle .converter (.sample a.chan (s.now + 16) late a.w2 a.w3)).retire a st w 0
  else if a.kind = kMSG then
    let r := s.qput a.chan (wordsToBytes [s.angW, a.w1, a.w2, a.w3])
    if r.2 = qPUT then r.1.retire a st w 0 else r.1.retire a stDROPPED 0 0
  else (s.pulseLine .angle a.chan).retire a st w 0

/-- A due action fires, waits under R188, or is dropped under R185. -/
def State.fireAction (s : State) (a : Action) : State :=
  let l := lateness (s.compared a) a.w0
  if a.isPulse && (s.channelBusy a (s.now + a.lead) || s.heldBefore a) then
    (s.updStage a.idx fun b => { b with place := .held }).raise OUT_EVT OUT_EVT_DEFER
  else if a.late && beyond a.limit l then s.dropAction a
  else if a.isPulse then s.startPulse a a.late else s.fireSingle a a.late

/-- The action is due: events fire, it waits in its stage, its compared word has reached ANGLE, and no due action of its
channel stands before it in release order (R139, R182, R184). -/
def State.isDue (s : State) (a : Action) : Bool :=
  s.fires && a.place == .waiting && (a.late || wReached (s.compared a) a.w0)
  && !((s.stage.takeWhile fun b => b.idx != a.idx).any fun b =>
      b.stageNo == a.stageNo && b.place == .waiting && (b.late || wReached (s.compared b) b.w0))

/-- A deferred start proceeds as late with DEFER flagged, its lateness measured now (R188; DEDUCED: the flag comes with the
proceeding, so that a start aborted while it waits retires without it). -/
def State.deferredStart (s : State) (a : Action) : State :=
  let t := s.updStage a.idx fun b => { b with defer := true }
  if beyond a.limit (lateness (s.compared a) a.w0) then t.dropAction { a with late := true, defer := true }
  else t.startPulse { a with defer := true } true

/-- In each slot the pulses whose compared word has reached E take their t_a (R186). -/
def State.noteEnds (s : State) : State :=
  { s with stage := s.stage.map fun a =>
      if a.place == .active && a.ta.isNone && wReached (s.compared a) a.endAngle then { a with ta := some (s.now + a.lead) } else a }

/-! ### Forward jumps (R116, R183, R186, R196) -/

/-- A word lies strictly between the words of a jump (R183). -/
def jumpPasses (old new target : Word) : Bool := !wReached old target && wLater new target

/-- What a forward jump from angle `old` does to a released action; the state holds the new angle (R183, R186). -/
def State.jumpAction (s : State) (old : BitVec 56) (a : Action) : Action :=
  let w0 := (old + BitVec.ofNat 56 (a.lead * (s.reg OBS_RATE).toNat)).extractLsb' 24 32
  let w1 := s.compared a
  if a.place == .waiting && jumpPasses w0 w1 a.w0 then { a with late := true }
  else if a.place == .active && a.ta.isNone && jumpPasses w0 w1 a.endAngle then { a with ta := some s.now, lateEnd := true }
  else if a.place == .active && a.ta.isNone && wReached w1 a.endAngle then { a with ta := some (s.now + a.lead) }
  else a

/-- The tick position `p` of a cycle lies after word `w0` and at or before word `w1`. -/
def stepsOnto (w0 w1 : Word) (p : Nat) : Bool :=
  let d := (p + 2 ^ 24 - cyclePos w0) % 2 ^ 24
  decide (1 ≤ (if d = 0 then 2 ^ 24 else d) ∧ (if d = 0 then 2 ^ 24 else d) ≤ (w1 - w0).toNat) && wReached w1 w0

/-- The CYC compares of a channel. -/
def State.cycOf (s : State) (n : Nat) : CycCh := vat s.cyc n

/-- The state with the CYC compares of a channel changed. -/
def State.updCyc (s : State) (n : Nat) (f : CycCh → CycCh) : State := { s with cyc := vupd s.cyc n f }

/-- CYC compares fire on channel `n` (R139, R194). -/
def State.cycOn (s : State) (n : Nat) : Bool :=
  s.fires && s.aoutOn n && s.aoutCyc n

/-- The angle has stepped onto or over OUT_ASETn since its compare last counted as passed (R194, R195). -/
def State.setDue (s : State) (n : Nat) : Bool :=
  s.cycOn n && stepsOnto (s.cycOf n).setFrom s.angW (s.fld (OUT_ASET n) OUT_ASET_SET)

/-- The same for OUT_ACLRn. -/
def State.clrDue (s : State) (n : Nat) : Bool :=
  s.cycOn n && stepsOnto (s.cycOf n).clrFrom s.angW (s.fld (OUT_ACLR n) OUT_ACLR_CLR)

/-- The pin of a CYC channel leaves idle (R194). -/
def State.cycSet (s : State) (n : Nat) : State := (s.updCyc n fun c => { c with setFrom := s.angW }).setPin n (!s.aoutIdle n)

/-- The pin of a CYC channel returns to idle (R194). -/
def State.cycClr (s : State) (n : Nat) : State := (s.updCyc n fun c => { c with clrFrom := s.angW }).pinIdle n

/-- The CYC compares that a jump passes fire in its slot; with both passed the return to idle follows 40 ns later (R196). -/
def State.cycJump (s : State) (n : Nat) : State :=
  if s.setDue n && s.clrDue n then
    (s.cycSet n).updCyc n fun c => { c with clrFrom := s.angW, ret := some (s.now + 16) }
  else if s.setDue n then s.cycSet n else if s.clrDue n then s.cycClr n else s

/-- The output side of a forward jump from angle `old`: late actions, late ends, CYC compares (R116, R183, R186, R196). -/
def State.outJump (s : State) (old : BitVec 56) : State :=
  (List.range 16).foldl State.cycJump { s with stage := s.stage.map (s.jumpAction old) }

/-! ### Safe ends and disabling (R163, R200 to R202) -/

/-- The safe end of the outputs at a state change of R163: pulses end, pins go idle, everything pending retires SYNCLOST, the
valve pairs of PWMSAFE go to their safe duty. -/
def State.safeEnd (s : State) : State :=
  let s1 := (s.endActive (fun _ => true) stSYNCLOST true).retirePending (fun _ => true) stSYNCLOST
  let s2 : State := (List.range 16).foldl (fun t n =>
    if t.aoutOn n then (t.pinIdle n).updCyc n fun c => { c with ret := none } else t) s1
  { s2.launch .angle .drive (.pwmSafe (s.fld OBS_SCHK OBS_SCHK_PWMSAFE)) with walked := none }

/-- A channel comes to be disabled: its pending actions retire CANCELLED and an active pulse ends as R163 ends its kind (R200). -/
def State.disableChannel (s : State) (c : Nat) : State :=
  let p : Action → Bool := fun a => a.channel == some c
  let s1 := (s.endActive p stCANCELLED true).retirePending p stCANCELLED
  if 36 ≤ c ∧ !s.echoOwns (c - 36) then (s1.pinIdle (c - 36)).updCyc (c - 36) fun y => { y with ret := none } else s1

/-- Clearing the bits of an enable register (R200): the channels from `base` whose bit was set and is set no longer. -/
def State.disableBits (s : State) (old : Word) (key base n : Nat) : State :=
  (List.range n).foldl (fun t i => if bitOf old i && !s.bit key i then t.disableChannel (base + i) else t) s

/-- The inputs of converter `f` come to be disabled (R442). -/
def State.disableSamples (s : State) (f : Nat) : State :=
  s.retirePending (fun a => a.kind == kSAMPLE && a.chan / 12 == f) stCANCELLED

/-- `CAL_CTRL.EN` is cleared (R201). -/
def State.disableCalendar (s : State) : State :=
  let s1 : State := (List.range 52).foldl State.disableChannel s
  s1.retirePending (fun _ => true) stCANCELLED

/-- Link loss at the logic die (R33): pending INJ actions retire, an active pulse whose end has not been dispatched ends with no
lead at the later of t_min and now. -/
def State.injLinkLoss (s : State) : State :=
  let p : Action → Bool := fun a => a.kind == kINJ
  let s1 : State := (s.setReg OUT_ENI 0).retirePending p stCANCELLED
  s1.stage.foldl (fun t a =>
    if p a && (a.place == .active || a.place == .ending) then
      let t1 := t.setBit OUT_ACTI a.chan false
      if a.tmin ≤ s.now then (t1.updOut a.chan fun c => { c with lastEnd := some s.now }).retire a stCANCELLED a.startW (s.now - a.ts)
      else t1.updStage a.idx fun b => { b with place := .ending, endSt := stCANCELLED, endLocal := true }
    else t) s1

/-- The drive island has refused a start: the action retires CANCELLED and no end is dispatched (R373). -/
def State.injRefused (s : State) (ch : Nat) : State :=
  match s.stage.find? fun a => a.kind == kINJ && a.chan == ch && (a.place == .active || a.place == .ending) with
  | none => s
  | some a => (s.setBit OUT_ACTI ch false).retire a stCANCELLED 0 0

/-! ### Aborts (R198, R199) -/

/-- The action that a handle names, if it is not retired. -/
def State.liveHandle (s : State) (h : Word) : Option Action :=
  (s.stage ++ s.calq).find? fun a => h.toNat == a.idx + 2 ^ 17 * a.gen

/-- An abort finds its action retired with final status `st`: a completed one gives ABORT_LATE with ALATE (R198). -/
def State.abortDone (s : State) (st : Nat) : State × Nat :=
  if st = stDONE ∨ st = stLATE then (s.raise OUT_EVT OUT_EVT_ALATE, stABORTLATE) else (s, st)

/-- An abort reaches the output unit: the state after it, and the result (R198). A natural end due in the same slot goes first
(R199). -/
def State.abortHandle (s : State) (h : Word) : State × Nat :=
  match s.liveHandle h with
  | some a =>
    if a.place == .waiting || a.place == .held then (s.retire a stCANCELLED 0 0, stCANCELLED)
    else if a.place == .ending then (s, a.endSt)
    else if a.tEnd ≤ s.now + a.lead then
      let t := s.naturalEnd a
      t.abortDone (tabGet (fun _ => ({} : CalEnt)) t.calEnt a.idx).st
    else (s.endPulse a stABORTED false, stABORTED)
  | none =>
    let e := tabGet (fun _ => ({} : CalEnt)) s.calEnt (h.toNat % 2 ^ 17)
    if e.used && e.gen == h.toNat / 2 ^ 17 then s.abortDone e.st else (s, stSTALE)

/-! ### Registers of OUT (R210, R211) -/

/-- The unit whose RWC fields a write to a channel register touches is enabled (R210). -/
def State.outLocked (s : State) (addr : Nat) : Bool :=
  let o := addr % 0x10000
  if 0x400 ≤ o then s.bit OUT_ENA ((o - 0x400) / 0x10) else if 0x200 ≤ o then s.bit OUT_ENG ((o - 0x200) / 4)
  else if 0x100 ≤ o then s.bit OUT_ENI ((o - 0x100) / 4) else false

/-- The conditions of R211: a bit of OUT_ENI is set only while the link is trained; SET and CLR differ. -/
def State.outLegal (s : State) (addr : Nat) (w : Word) : Bool :=
  let o := addr % 0x10000
  if addr = OUT_ENI then s.d2dUp || (w &&& ~~~(s.reg OUT_ENI)).toNat % 4096 == 0
  else if 0x400 ≤ o ∧ o < 0x500 then
    let n := (o - 0x400) / 0x10
    if addr = OUT_ASET n then OUT_ASET_SET.get w != s.fld (OUT_ACLR n) OUT_ACLR_CLR
    else if addr = OUT_ACLR n then OUT_ACLR_CLR.get w != s.fld (OUT_ASET n) OUT_ASET_SET else true
  else true

/-- A write to a register of OUT. -/
def State.outWrite (s : State) (addr : Nat) (w : Word) : State :=
  let o := addr % 0x10000
  s.writeWith addr w (s.outLocked addr) (s.outLegal addr w) fun t =>
    if addr = OUT_ENI then t.disableBits (s.reg OUT_ENI) OUT_ENI 0 12
    else if addr = OUT_ENG then t.disableBits (s.reg OUT_ENG) OUT_ENG 12 24
    else if addr = OUT_ENA then
      (List.range 16).foldl (fun u i =>
        if s.echoOwns i then u
        else if s.bit OUT_ENA i && !t.bit OUT_ENA i then u.disableChannel (36 + i)
        else if !s.bit OUT_ENA i && t.bit OUT_ENA i then u.updCyc i fun _ => { setFrom := s.angW, clrFrom := s.angW } else u) t
    else if 0x400 ≤ o ∧ o < 0x500 then
      let n := (o - 0x400) / 0x10
      if addr = OUT_AOUT n then (if t.bit OUT_ENA n || s.echoOwns n then t else t.pinIdle n)
      else if addr = OUT_ASET n then t.updCyc n fun c => { c with setFrom := s.angW }
      else if addr = OUT_ACLR n then t.updCyc n fun c => { c with clrFrom := s.angW }
      else t
    else t

/-! ### Commands -/

/-- `ACTION_FIRE` (R182): the released action of entry `i` has come due. -/
def execActionFire (i : Nat) (s : State) : Host.Outcome State Fault Refusal :=
  match s.staged i with
  | some a => .next (if s.isDue a then s.fireAction a else s)
  | none => .next s

/-- `INJ_END_DISPATCH` (R186): the end command of an active INJ pulse leaves once t_end lies at most 64 slots ahead; a pulse
that ends early leaves once t_min does, one that ends at the logic die at t_min itself (R33). -/
def execInjEndDispatch (i : Nat) (s : State) : Host.Outcome State Fault Refusal :=
  match s.staged i with
  | some a =>
    if a.kind ≠ kINJ then .next s
    else if a.place == .active then .next (if a.tEnd ≤ s.now + 64 then s.naturalEnd a else s)
    else if a.place == .ending then
      if a.endLocal then
        .next (if a.tmin ≤ s.now
          then (s.updOut a.chan fun c => { c with lastEnd := some a.tmin }).retire a a.endSt a.startW (a.tmin - a.ts) else s)
      else .next (if a.tmin ≤ s.now + 64 then (s.endEdge a a.tmin true).retire a a.endSt a.startW (a.tmin - a.ts) else s)
    else .next s
  | none => .next s

/-- `PULSE_END` (R186): an IGN or APULSE pulse ends at t_end, firing or suppressing the spark. -/
def execPulseEnd (i : Nat) (s : State) : Host.Outcome State Fault Refusal :=
  match s.staged i with
  | some a =>
    .next (if a.kind != kINJ && a.place == .active && decide (a.tEnd ≤ s.now) then s.naturalEnd a else s)
  | none => .next s

/-- `DEFERRED_START` (R188): a start held back proceeds once its channel is free and no deferred start stands before it. -/
def execDeferredStart (i : Nat) (s : State) : Host.Outcome State Fault Refusal :=
  match s.staged i with
  | some a =>
    .next (if a.place == .held && s.fires && !s.channelBusy a (s.now + a.lead) && !s.heldBefore a then s.deferredStart a else s)
  | none => .next s

/-- `SOFT_SHUTDOWN_END` (R191): an ignition soft shutdown has run its 500 periods of 10 us and the pin stays idle. -/
def execSoftShutdownEnd (n : Fin 24) (s : State) : Host.Outcome State Fault Refusal :=
  match (s.outOf (12 + n)).soft with
  | some t =>
    if t + 500 * 4000 ≤ s.now then
      .next ((s.updOut (12 + n) fun c => { c with soft := none, lastEnd := some (t + 500 * 4000) }).setBit OUT_SOFTG n false)
    else .next s
  | none => .next s

/-- `CYC_COMPARE` (R194): the cycle position has stepped onto or over OUT_ASETn (`clr` false) or OUT_ACLRn (`clr` true). -/
def execCycCompare (n : Fin 16) (clr : Bool) (s : State) : Host.Outcome State Fault Refusal :=
  .next (if clr then (if s.clrDue n then s.cycClr n else s) else (if s.setDue n then s.cycSet n else s))

/-- `CYC_RETURN_DELAYED` (R196): 40 ns after a jump that passed both compares the pin returns to idle. -/
def execCycReturnDelayed (n : Fin 16) (s : State) : Host.Outcome State Fault Refusal :=
  match (s.cycOf n).ret with
  | some t => .next (if t ≤ s.now then (s.updCyc n fun c => { c with ret := none }).pinIdle n else s)
  | none => .next s

/-- Address of the enable register of a group of channels: 0 OUT_ENI, 1 OUT_ENG, 2 OUT_ENA. -/
def enableAddr (grp : Nat) : Nat := if grp = 0 then OUT_ENI else if grp = 1 then OUT_ENG else OUT_ENA

/-- `CHANNEL_DISABLE` (R200): a write to OUT_ENI (0), OUT_ENG (1) or OUT_ENA (2); the channels whose bit it clears retire their
actions CANCELLED and end their pulses. -/
def execChannelDisable (grp : Fin 3) (w : Word) (s : State) : Host.Outcome State Fault Refusal :=
  .next (s.outWrite (enableAddr grp) w)

/-- `ABORT_ARRIVAL` (R198): the oldest abort of a policy port reaches the output unit. -/
def execAbortArrival (s : State) : Host.Outcome State Fault Refusal :=
  match s.aborts with
  | [] => .next s
  | (p, h) :: t =>
    let r := State.abortHandle { s with aborts := t } h
    .next (r.1.setReg (CAL_PPCRES p) (BitVec.ofNat 32 r.2))

end Sys2Proof.Machine
end

