-- ==== Sys2Proof/Machine/Calendar.lean ====
section
/-! DEFINITION. The action calendar (06_action_calendar_and_outputs.md): posts, the walk of the buckets, release to the output
stages, entry into FULL, and the registers of CAL. -/

namespace Sys2Proof.Machine

/-- Entries of the calendar (R176). -/
abbrev calEntries : Nat := 131072

/-! ### Posting (R173 to R177) -/

/-- CHAN lies in the range of its kind (R173). -/
def Action.chanOk (a : Action) : Bool :=
  match a.kind with
  | 0 => decide (a.chan ≤ 11)
  | 1 => decide (a.chan ≤ 23)
  | 2 | 3 => decide (a.chan ≤ 15)
  | 4 => decide (a.chan ≤ 47)
  | 5 | 6 => decide (a.chan ≤ 31)
  | _ => false

/-- The fields beyond word 1 are legal for the kind (R173, R437). -/
def Action.fieldsOk (a : Action) : Bool :=
  if a.isPulse then
    decide (1 ≤ a.span ∧ 1 ≤ a.maxDur ∧ a.minDur ≤ a.maxDur) && decide (a.w2.toNat / 2 ^ 28 = 0)
  else
    (a.scale == 0) &&
    (if a.kind = kSAMPLE then
        decide (a.w2.toNat / 4 % 64 = 0 ∧ a.w2.toNat / 2 ^ 13 % 8 = 0 ∧ a.w2.toNat / 2 ^ 16 % 16 ≤ 11 ∧ a.w2.toNat / 2 ^ 20 = 0)
      else if a.kind = kMSG then true
      else a.w2 == 0 && a.w3 == 0)

/-- The descriptor is legal (R173). -/
def Action.legal (a : Action) : Bool :=
  a.chanOk && decide (a.w1.toNat / 2 ^ 14 % 4 = 0) && a.fieldsOk

/-- Bucket of an angle word (R179). -/
def bucketOf (w : Word) : Nat := w.toNat / 4096 % 4096

/-- Entries that the bucket of an angle word holds (R179). -/
def State.bucketFill (s : State) (w : Word) : Nat := (s.calq.filter fun a => bucketOf a.w0 == bucketOf w).length

/-- Entries in use. -/
def State.calUsed (s : State) : Nat := s.calq.length + s.stage.length

/-- The refusal of a post, if it is refused (R176). -/
def State.refusal (s : State) (a : Action) : Option Nat :=
  if !a.legal then some stILLEGAL
  else if s.fld CAL_CTRL CAL_CTRL_EN = 0 ∨ !s.targetOn a then some stDISABLED
  else if (a.kind = kAPULSE ∨ a.kind = kAEDGE) ∧ s.aoutCyc a.chan then some stMODE
  else if calEntries ≤ s.calUsed ∨ 1024 ≤ s.bucketFill a.w0 then some stFULL
  else none

/-- The first entry index from `i` on, cyclically, that no live action has; at most `fuel` are tried. -/
def firstFree (used : List Nat) (i : Nat) : Nat → Nat
  | 0 => i % calEntries
  | fuel + 1 => if used.contains (i % calEntries) then firstFree used (i + 1) fuel else i % calEntries

/-- The result word of a refused post (R175). -/
def refusedWord (st : Nat) : Word := BitVec.ofNat 32 (2 ^ 31 + st)

/-- A post is refused: counted, with the event of its status (R175, R209). -/
def State.refusePost (s : State) (st : Nat) : State :=
  (s.count CAL_CNT1 CAL_CNT1_REFUSE 1).raise CAL_EVT (if st = stFULL then CAL_EVT_FULL else CAL_EVT_REFUSE)

/-- A post of descriptor words by a poster (POSTER of R204): the state after it and its result (R174 to R177). Which free entry
it takes is not stated (log 7). -/
def State.post (s : State) (w0 w1 w2 w3 : Word) (poster : Nat) : State × Word :=
  let a : Action := { w0 := w0, w1 := w1, w2 := w2, w3 := w3, poster := poster }
  match s.refusal a with
  | some st => (s.refusePost st, refusedWord st)
  | none =>
    let live := s.calq ++ s.stage
    let i := firstFree (live.map Action.idx) (s.freeVal 0) live.length
    let e := tabGet (fun _ => ({} : CalEnt)) s.calEnt i
    let g := if e.used then (e.gen + 1) % 128 else 0
    let s1 : State := { s.useFree with calq := s.calq ++ [{ a with idx := i, gen := g }] }
    let s2 := (s1.budDraw (s1.binding 0) resFABRIC 1).wrBytes (s1.fld CAL_BASE CAL_BASE_BASE * 2 ^ 21 + 16 * i)
      (wordsToBytes [w0, w1, w2, w3])
    let s3 := s2.setFld CAL_USED ⟨0, 18⟩ s2.calUsed
    let s4 := if s3.fld CAL_BMAX ⟨0, 11⟩ < s3.bucketFill w0 then s3.setFld CAL_BMAX ⟨0, 11⟩ (s3.bucketFill w0) else s3
    (s4, BitVec.ofNat 32 (i + 2 ^ 17 * g))

/-! ### Walk and release (R180, R181) -/

/-- Last tick of the bucket after the one the angle word stands in (R180). -/
def walkEnd (w : Word) : Word := (w &&& ~~~0xFFF#32) + 0x1FFF

/-- The entry has been walked and lies at or before the last tick walked (R180). -/
def State.dueForRelease (s : State) (a : Action) : Bool :=
  match s.walked with
  | some w => wReached w a.w0
  | none => false

/-- The earliest of some actions, the first accepted of equal ones (R181). -/
def earliest : List Action → Option Action
  | [] => none
  | a :: t =>
    match earliest t with
    | none => some a
    | some b => if wLater a.w0 b.w0 then some b else some a

/-- A release waits: counted, with its event (R181, R209). -/
def State.releaseWaits (s : State) : State := (s.count CAL_RSTALL ⟨0, 32⟩ 1).raise CAL_EVT CAL_EVT_RSTALL

/-- An action released by a walk after a jump of this slot onto its very angle is not late (R119). -/
def State.onJumpAngle (s : State) (a : Action) : Bool := s.obs.jump == some (s.now, a.w0) && s.compared a == a.w0

/-- One action is released to its stage (R181, R183). -/
def State.release (s : State) (a : Action) : State :=
  { s.budDraw (s.binding 0) resFABRIC 1 with
    calq := s.calq.filter fun b => b.idx != a.idx
    stage := s.stage ++ [{ a with late := wReached (s.compared a) a.w0 && !s.onJumpAngle a }] }

/-! ### Entry into FULL (R140, R180) -/

/-- The actions held before an entry into FULL whose angle lies at or before its first angle word retire WITHHELD; the placed
bucket and the next one are walked; CYC compares count from the first word on (R140, R180, R195). -/
def State.calendarFull (s : State) : State :=
  let w := s.angW
  let held := (s.calq ++ s.stage).filter fun a => wReached w a.w0 && a.place == .waiting
  let s1 : State := held.foldl (fun t a => t.retire a stWITHHELD 0 0) s
  let s2 := if held.isEmpty then s1 else s1.raise OBS_SEVT OBS_SEVT_WITHHELD
  { s2 with walked := some (walkEnd w), cyc := Vector.replicate 16 { setFrom := w, clrFrom := w } }

/-! ### Registers of CAL (R208, R209) -/

/-- A write to a register of CAL. -/
def State.calWrite (s : State) (addr : Nat) (w : Word) : State :=
  let o := addr % 0x10000
  let n := (o - 0x100) / 0x20
  s.writeWith addr w (s.fld CAL_CTRL CAL_CTRL_EN == 1) true fun t =>
    if addr = CAL_CTRL then
      (if s.fld CAL_CTRL CAL_CTRL_EN = 1 ∧ t.fld CAL_CTRL CAL_CTRL_EN = 0 then t.disableCalendar else t)
    else if addr = CAL_CLR then
      let t1 := if bitOf w 0 then ((t.setReg CAL_CNT0 0).setReg CAL_CNT1 0).setReg CAL_RSTALL 0 else t
      if bitOf w 1 then t1.setReg CAL_BMAX 0 else t1
    else if 0x100 ≤ o ∧ addr = CAL_PPD3 n then
      let r := t.post (t.reg (CAL_PPD0 n)) (t.reg (CAL_PPD1 n)) (t.reg (CAL_PPD2 n)) (t.reg (CAL_PPD3 n)) (64 + n)
      r.1.setReg (CAL_PPRES n) r.2
    else if 0x100 ≤ o ∧ addr = CAL_PPCAN n then { t with aborts := t.aborts ++ [(n, w)] }
    else t

/-! ### Commands -/

/-- `POLICY_POST` (R174): a write of CAL_PPnD3 posts the descriptor of port `t`. -/
def execPolicyPost (t : Fin 4) (w : Word) (s : State) : Host.Outcome State Fault Refusal := .next (s.calWrite (CAL_PPD3 t) w)

/-- `POLICY_ABORT` (R198): a write of a handle to CAL_PPnCAN sends an abort toward the output unit. -/
def execPolicyAbort (t : Fin 4) (h : Word) (s : State) : Host.Outcome State Fault Refusal := .next (s.calWrite (CAL_PPCAN t) h)

/-- `BUCKET_WALK` (R180): the angle word stands in a new bucket; the calendar walks the buckets up to the next one. -/
def execBucketWalk (s : State) : Host.Outcome State Fault Refusal :=
  match s.walked with
  | some w => .next (if s.fires && wLater (walkEnd s.angW) w then { s with walked := some (walkEnd s.angW) } else s)
  | none => .next s

/-- `ACTION_RELEASE` (R181): in one angle clock the calendar releases the earliest due action, or waits while its stage is full
or the calendar's account has no carat left. -/
def execActionRelease (s : State) : Host.Outcome State Fault Refusal :=
  match earliest (s.calq.filter s.dueForRelease) with
  | none => .next s
  | some a =>
    if stageDepth a.stageNo ≤ (s.stage.filter fun b => b.stageNo == a.stageNo && (b.place == .waiting || b.place == .held)).length
    then .next s.releaseWaits
    else if !s.budHas (s.binding 0) resFABRIC 1 then .next (s.budStarve (s.binding 0) resFABRIC).releaseWaits
    else .next (s.release a)

/-- `CALENDAR_DISABLE` (R201): a write to CAL_CTRL that clears EN ends every channel and retires every entry CANCELLED. -/
def execCalendarDisable (s : State) : Host.Outcome State Fault Refusal := .next (s.calWrite CAL_CTRL 0)

/-- `CAL_CLR_CNT` (R209): `CAL_CLR.CNT` = 1 clears CAL_CNT0, CAL_CNT1 and CAL_RSTALL. -/
def execCalClrCnt (s : State) : Host.Outcome State Fault Refusal := .next (s.calWrite CAL_CLR 1)

/-- `CAL_CLR_BMAX` (R209): `CAL_CLR.BMAX` = 1 clears CAL_BMAX. -/
def execCalClrBmax (s : State) : Host.Outcome State Fault Refusal := .next (s.calWrite CAL_CLR 2)

end Sys2Proof.Machine
end

