-- ==== Sys2Proof/Machine/Grant.lean ====
section
/-! DEFINITION. What the combustion records grant: the injector delay adaptation (R487) and the COAST field of the observer
(R488). -/

namespace Sys2Proof.Machine

/-- Combustion stream `c`, beside its registers. -/
def State.strOf (s : State) (c : Nat) : CmbStr := vat s.cmb.strs c

/-- The state with the combustion datapath's own part changed. -/
def State.updCmb (s : State) (f : Cmb → Cmb) : State := { s with cmb := f s.cmb }

/-- The state with stream `c` changed. -/
def State.updStr (s : State) (c : Nat) (f : CmbStr → CmbStr) : State := s.updCmb fun x => { x with strs := vupd x.strs c f }

/-- Stream `c` is enabled. -/
def State.strOn (s : State) (c : Nat) : Bool := s.bit CMB_APPLIED c

/-- The enabled streams. -/
def State.strsOn (s : State) : List Nat := (List.range 12).filter s.strOn

/-- INJOK of channel `n` (R487). -/
def State.injOk (s : State) (n : Nat) : Bool :=
  (s.fld CMB_ACFG CMB_ACFG_INJEN == 1) && (s.syncSt == syncFULL) &&
    (s.strsOn.all fun c => s.fld (CMB_CYL c) CMB_CYL_INJ != n ||
      match (s.strOf c).recs with
      | (valid, misf, part) :: _ => valid && !misf && !part
      | [] => false)

/-- A read of CMB_ASTAT (R487, R493). -/
def State.cmbAstat (s : State) : Word :=
  BitVec.ofNat 32 ((List.range 12).foldl (fun w n => w + b2n (s.injOk n) * 2 ^ n) 0 + 2 ^ 16 * s.fld CMB_ASTAT CMB_ASTAT_COAST)

/-- The datapath writes OBS_LCTL.COAST (R488); COAST is set when the value changes. -/
def State.setCoast (s : State) (b : Bool) : State :=
  let was := s.fld CMB_ASTAT CMB_ASTAT_COAST
  let s1 := ((s.setFld OBS_LCTL OBS_LCTL_COAST (b2n b)).setFld CMB_ASTAT CMB_ASTAT_COAST (b2n b)).coastCheck
  if was = b2n b then s1 else s1.raise CMB_EVT CMB_EVT_COAST

/-- The number of enabled streams is the engine's number of cylinders (R488). -/
def State.coastLegal (s : State) : Bool := s.strsOn.length == s.fld CMB_CFG CMB_CFG_ENGCYL

/-- Every enabled stream's last two combustion records are valid misfires (R488). -/
def State.coastWant (s : State) : Bool :=
  s.coastLegal && s.strsOn.all fun c => match (s.strOf c).recs with
    | (v1, m1, _) :: (v2, m2, _) :: _ => v1 && m1 && v2 && m2
    | _ => false

/-- COAST follows the records while COASTEN is 1 (R488). -/
def State.coastFollow (s : State) : State := if s.fld CMB_ACFG CMB_ACFG_COASTEN = 1 then s.setCoast s.coastWant else s

/-- COAST is written 0 where the number of enabled streams ceases to equal ENGCYL (R488). -/
def State.coastCount (s : State) : State :=
  if s.fld CMB_ACFG CMB_ACFG_COASTEN = 1 ∧ !s.coastLegal then s.setCoast false else s

end Sys2Proof.Machine
end

