-- ==== Sys2Proof/Machine/Aband.lean ====
section
/-! DEFINITION. What a loss or a new placement of the angle does to the combustion datapath (R469). -/

namespace Sys2Proof.Machine

/-- CMB_STAT follows the open and waiting instances (R493). -/
def State.cmbShow (s : State) : State :=
  let op (f : CmbStr → Bool) : Nat := (List.range 12).foldl (fun w c => w + b2n (f (s.strOf c)) * 2 ^ c) 0
  s.setReg CMB_STAT (BitVec.ofNat 32 (op (fun x => !x.comb.isEmpty) + 2 ^ 12 * op (fun x => !x.work.isEmpty)
    + 2 ^ 24 * capAt 15 s.cmb.queue.length))

/-- The open instances of stream `c` are abandoned: each combustion instance is queued for its record, a work instance yields
none; each is counted and sets ABAND, and COAST is written 0 (R469, R488). -/
def State.abandonStr (s : State) (c : Nat) : State :=
  let x := s.strOf c
  let k := x.comb.length + x.work.length
  if k = 0 then s
  else
    let ws := x.comb.map fun w => { w with aband := true, pref := s.reg (CMB_PREF c), slot := s.slotW }
    let s1 := (s.updCmb fun y => { y with queue := y.queue ++ ws }).updStr c fun y => { y with comb := [], work := [] }
    let s2 := ((s1.count (CMB_SCNT c) CMB_SCNT_ABAND k).raise CMB_EVT CMB_EVT_ABAND).cmbShow
    if s2.fld CMB_ACFG CMB_ACFG_COASTEN = 1 then s2.setCoast false else s2

/-- The open instances of every stream are abandoned (R469). -/
def State.abandonAll (s : State) : State := (List.range 12).foldl State.abandonStr s

end Sys2Proof.Machine
end

