-- ==== Sys2Proof/Machine/Observer.lean ====
section
/-! DEFINITION. The angle observer (04_angle_observer.md): tooth geometry, the period predictor, the running angle, tooth
arrival and paste teeth. What a tooth means for the sync state is in `Sync.lean`. -/

namespace Sys2Proof.Machine

/-! ### Tooth geometry (R83, R84, R106) -/

/-- Wheel input `n`. -/
def State.whlOf (s : State) (n : Nat) : Whl := vat s.whl n

/-- The state with a wheel input changed. -/
def State.updWhl (s : State) (n : Nat) (f : Whl → Whl) : State := { s with whl := vupd s.whl n f }

/-- Entry `i` of the pattern table of wheel `n` (R102). -/
def State.patEntry (s : State) (n i : Nat) : Nat := s.half (WHL_PAT n 0) i

/-- Slots of the pattern. -/
def State.teeth (s : State) (n : Nat) : Nat := s.fld (WHL_TEETH n) WHL_TEETH_COUNT

/-- A tooth stands at slot `i`. -/
def State.present (s : State) (n i : Nat) : Bool := s.patEntry n i % 2 == 1

/-- The pattern occurs twice a cycle (R84). -/
def State.twice (s : State) (n : Nat) : Bool := s.fourStroke && s.fld (WHL_TEETH n) WHL_TEETH_PERCYC == 0

/-- Cycle position of slot `i` in revolution `rev` (R84). -/
def State.slotPos (s : State) (n i rev : Nat) : Nat :=
  (s.fld (WHL_OFS n) WHL_OFS_OFS + roundDivN (i * (if s.twice n then 2 ^ 23 else 2 ^ 24)) (s.teeth n)
    + (if s.twice n then rev * 2 ^ 23 else 0)) % 2 ^ 24

/-- Pitches from slot `i` to the next present slot, at most `fuel`. -/
def State.pitches (s : State) (n i : Nat) : Nat → Nat
  | 0 => 1
  | fuel + 1 =>
    let k := s.teeth n - fuel
    if s.present n ((i + k) % s.teeth n) then k else s.pitches n i fuel

/-- A tooth of a placed wheel: its slot, its revolution, its angle word. -/
structure Tooth where
  slot : Nat := 0
  rev  : Nat := 0
  th   : Word := 0
  deriving DecidableEq, Repr, Inhabited

/-- The next present slot after a tooth, and the pitches to it (R106). -/
def State.nextTooth (s : State) (n : Nat) (t : Tooth) : Tooth × Nat :=
  let k := s.pitches n t.slot (s.teeth n)
  let i := (t.slot + k) % s.teeth n
  let rev := if s.twice n ∧ s.teeth n ≤ t.slot + k then (t.rev + 1) % 2 else t.rev
  (⟨i, rev, t.th + BitVec.ofNat 32 ((s.slotPos n i rev + 2 ^ 24 - s.slotPos n t.slot t.rev) % 2 ^ 24)⟩, k)

/-- The present slot before a slot, and its revolution. -/
def State.prevTooth (s : State) (n : Nat) (t : Tooth) : Tooth :=
  let c := s.teeth n
  let back := ((List.range c).map fun j => j + 1).find? fun j => s.present n ((t.slot + c - j) % c)
  let j := back.getD c
  let i := (t.slot + c - j) % c
  let rev := if s.twice n ∧ t.slot < j then (t.rev + 1) % 2 else t.rev
  ⟨i, rev, t.th - BitVec.ofNat 32 ((s.slotPos n t.slot t.rev + 2 ^ 24 - s.slotPos n i rev) % 2 ^ 24)⟩

/-- a of the interval that begins at slot `i` over `k` pitches (R107). -/
def State.spanFactor (s : State) (n i k : Nat) : Rat := s.factor n i * (k : Rat)

/-- w of the interval between two teeth, at its midpoint angle (R107). -/
def State.torsFactor (s : State) (t u : Tooth) : Rat :=
  1 + s.torsional (s.torsPoint (cyclePos (t.th + BitVec.ofNat 32 ((u.th - t.th).toNat / 2))))

/-! ### The period predictor (R107, R108) -/

/-- u of an interval (R107). -/
def Ivl.u (i : Ivl) : Rat := i.len / (i.a * i.w)

/-- The prediction in 1/256 slot from a history (newest first), the next interval's a and w, and SLIM (R108). -/
def predict (hist : List Ivl) (a w : Rat) (slim : Nat) : Option Nat :=
  match hist with
  | [] => none
  | i :: t =>
    let ux := match t with
      | [] => i.u
      | j :: _ => i.u + (i.u - j.u) * (i.a + a) / (j.a + i.a)
    let lo := i.u * (1 - (slim : Rat) / 64)
    let hi := i.u * (1 + (slim : Rat) / 64)
    let up := if ux < lo then lo else if hi < ux then hi else ux
    some (rround (a * w * up * 256)).toNat

/-- The last tooth of the source in force. -/
def State.lastTooth (s : State) : Tooth := ⟨s.obs.slot, s.obs.rev, s.obs.th0⟩

/-- An angle word of a tooth with the correction c of R529 added, in STEER. -/
def State.corrected (s : State) (w : Word) : Word := if s.fld CHN_ACFG CHN_ACFG_MODE = 2 then w + s.reg CHN_ACORR else w

/-- The rate from the angle to a word in `p256` 1/256 slots, at least 2^-24 tick per slot (R112). -/
def State.rateTo (s : State) (target : Word) (p256 : Nat) : Word :=
  let d := (BitVec.ofNat 56 (target.toNat * 2 ^ 24) - s.obs.ang).toNat
  let r := roundDivN ((if d < 2 ^ 55 then d else 0) * 256) p256
  BitVec.ofNat 32 (capAt (2 ^ 32 - 1) (if r = 0 then 1 else r))

/-- The observer's tooth is set to `t`, and s+ and s++ follow (R106). -/
def State.setTooth (s : State) (n : Nat) (t : Tooth) : State :=
  let u := (s.nextTooth n t).1
  let v := (s.nextTooth n u).1
  s.updObs fun o => { o with slot := t.slot, rev := t.rev, th0 := t.th, th1 := u.th, th2 := v.th, prov := none }

/-! ### The wheel's prediction (R76, R78, R105) -/

/-- A wheel takes a prediction: its window opens from the reference with the limits in force (R78, R81). -/
def State.takePrediction (s : State) (n p : Nat) : State :=
  (s.updWhl n fun h =>
    { h with
      st := if h.st = .free then .windowed else h.st
      pred := some p
      lo := s.fld (WHL_WIN n) WHL_WIN_LO
      hi := s.fld (WHL_WIN n) WHL_WIN_HI }).setReg (WHL_PRED n) (BitVec.ofNat 32 (roundDivN p 256))

/-- The observer withdraws its prediction from a wheel (R78, R105). -/
def State.dropPrediction (s : State) (n : Nat) : State :=
  (s.updWhl n fun h => { h with st := if h.st = .windowed then .free else h.st, pred := none }).setReg (WHL_PRED n) 0

/-- The observer withdraws its prediction: it begins anew with the next two teeth (R105). -/
def State.withdraw (s : State) : State :=
  (((s.dropPrediction s.srcWheel).updObs fun o =>
    { o with pred := none, prov := none, hist := [], tRef := none, refPaste := false })).setFld OBS_FLAGS OBS_FLAGS_PRED 0

/-- The prediction for the interval from the last tooth is formed and handed to the source wheel, if the history allows one
(R105, R108). -/
def State.issue (s : State) : State :=
  let n := s.srcWheel
  let t := s.lastTooth
  let (u, k) := s.nextTooth n t
  match predict s.obs.hist (s.spanFactor n t.slot k) (s.torsFactor t u) (s.fld OBS_PCFG OBS_PCFG_SLIM) with
  | none => s
  | some p => ((s.takePrediction n p).updObs fun o => { o with pred := some p }).setFld OBS_FLAGS OBS_FLAGS_PRED 1

/-- The rate after a tooth or paste tooth: toward s+ in the prediction; kept where there is none (R112). -/
def State.newRate (s : State) : State :=
  match s.obs.pred with
  | some p => s.setReg OBS_RATE (s.rateTo (s.corrected s.obs.th1) p)
  | none => s

/-! ### Running (R111, R113, R114) -/

/-- The word of the ceiling: one tick before the tooth after the outstanding one (R114). -/
def State.ceiling (s : State) : Word := s.corrected s.obs.th2 - 1

/-- The ticks an advance of the angle adds to the fuel-free angle of R127. -/
def State.addNoFuel (s : State) (old : Word) : State :=
  if s.fires then s.updObs fun o => { o with noFuel := capAt (2 * 2 ^ 24) (o.noFuel + (s.angW - old).toNat) } else s

/-- One slot of running: the rate is added; while the observer runs on teeth the ceiling holds the angle (R111, R114). -/
def State.runAngle (s : State) : State :=
  if s.placed then
    let a1 := s.obs.ang + BitVec.ofNat 56 (s.reg OBS_RATE).toNat
    let top : BitVec 56 := BitVec.ofNat 56 (s.ceiling.toNat * 2 ^ 24)
    let held := s.fld OBS_CFG OBS_CFG_EN == 1 && wLater (a1.extractLsb' 24 32) s.ceiling
    let a2 := if held then (if s.angW == s.ceiling then s.obs.ang else top) else a1
    (s.updObs fun o => { o with ang := a2 }).addNoFuel s.angW
  else s

/-! ### Jumps (R116, R118) -/

/-- The angle word jumps forward to a word (R116): the size is recorded, the outputs see it. -/
def State.jumpTo (s : State) (target : Word) : State :=
  let old := s.obs.ang
  let j := (target - s.angW).toNat
  let s1 := s.updObs fun o => { o with ang := BitVec.ofNat 56 (target.toNat * 2 ^ 24), jump := some (s.now, target) }
  let s2 := (s1.addNoFuel s.angW).setFld OBS_JLAST OBS_JLAST_JUMP (capAt 16777215 j)
  let s3 := if s2.fld OBS_JMAX OBS_JMAX_JUMP < j then s2.setFld OBS_JMAX OBS_JMAX_JUMP (capAt 16777215 j) else s2
  let s4 := if s3.fld OBS_JTHR OBS_JTHR_JTHR ≤ j then (s3.raise OBS_EVT OBS_EVT_JUMP_bit).hwEvent 0x08 else s3
  s4.outJump old

/-- A tooth at a word: a forward jump onto it if it lies ahead of the angle; the word never steps backward (R116, R117). -/
def State.toothAt (s : State) (target : Word) : State := if wLater target s.angW then s.jumpTo target else s

/-! ### Intervals, teeth and paste teeth (R107, R116 to R124) -/

/-- The interval from the last tooth to s+ ends after `len` slots at time `t`: it joins the history and the learning, and s+
becomes the last tooth. -/
def State.endInterval (s : State) (len : Rat) (t : Nat) (endPaste : Bool) : State :=
  let n := s.srcWheel
  let c := s.lastTooth
  let (u, k) := s.nextTooth n c
  let a := s.spanFactor n c.slot k
  let touched := endPaste || s.obs.refPaste
  let i : Ivl := { len := len, a := a, w := s.torsFactor c u, pasted := touched }
  let mid := cyclePos (c.th + BitVec.ofNat 32 ((u.th - c.th).toNat / 2))
  let s1 := s.updObs fun o => { o with hist := i :: o.hist.take 1 }
  let s2 := s1.learnInterval n c.slot k (rround len).toNat u.slot t touched endPaste
  let s3 := s2.torsInterval (decide (u.th.toNat / 2 ^ 24 ≠ c.th.toNat / 2 ^ 24)) { pt := s.torsPoint mid, k := k, len := len, a := a } touched
  s3.setTooth n u

/-- s+ is pasted at t_ref + P (R121, R122, R124): the history takes the prediction as the interval. -/
def State.pasteTooth (s : State) : State :=
  match s.obs.tRef, s.obs.pred with
  | some r, some p =>
    let t := r + roundDivN p 256
    let s1 := (s.endInterval ((p : Rat) / 256) t true).updObs fun o => { o with tRef := some t, refPaste := true }
    ((s1.raise OBS_EVT OBS_EVT_PASTE_bit).hwEvent 0x09).setPendAll pdTOOTH
  | _, _ => s

/-- The skip test of R122 for a stamp. -/
def State.skips (s : State) (stamp : Nat) : Bool :=
  let k := s.fld OBS_PCFG OBS_PCFG_SKIP
  match s.obs.tRef, s.obs.pred, s.obs.prov with
  | some r, some p, some q => k != 0 && decide (4096 * r + 16 * p + k * q ≤ 4096 * stamp)
  | _, _, _ => false

/-- Steering applies at a tooth (R529). -/
def State.steers (s : State) : Bool :=
  s.fld CHN_ACFG CHN_ACFG_MODE == 2 && s.fires && s.fld CHN_ASTAT CHN_ASTAT_REF == 1 && s.fld CHN_ASTAT CHN_ASTAT_FAR == 0
  && s.fld CHN_ASTAT CHN_ASTAT_LEADER == 0 && s.obs.eCount != 0

/-- The correction c moves by the mean error since the last tooth, held within STEP; it applies from the next tooth (R529). -/
def State.steer (s : State) : State :=
  let step : Int := s.fld CHN_ACFG CHN_ACFG_STEP
  let c := (s.reg CHN_ACORR).toInt - clampI (-step) step (roundDiv s.obs.eSum s.obs.eCount)
  let s1 := if s.steers then s.setReg CHN_ACORR (BitVec.ofInt 32 c) else s
  s1.updObs fun o => { o with eSum := 0, eCount := 0 }

/-- A delivered tooth of the source in force, taken as s+ (R112, R116, R117). -/
def State.takeTooth (s : State) (stamp : Nat) : State :=
  let s1 := match s.obs.tRef with
    | some r => s.endInterval ((stamp - r : Nat) : Rat) stamp false
    | none => s.setTooth s.srcWheel (s.nextTooth s.srcWheel s.lastTooth).1
  let s2 := s1.updObs fun o => { o with tRef := some stamp, refPaste := false }
  ((s2.toothAt (s2.corrected s2.obs.th0)).steer.issue.newRate).setFld OBS_FLAGS OBS_FLAGS_CEIL 0

/-- A window close (R122): the paste tooth of s+ becomes the wheel's reference and a new prediction goes out. -/
def State.windowPaste (s : State) : State :=
  let s1 := s.pasteTooth
  let s2 := s1.updWhl s.srcWheel fun h => { h with ref := s1.obs.tRef }
  (s2.issue.newRate).setFld OBS_FLAGS OBS_FLAGS_CEIL 0

/-! ### Placement (R104, R105, R148, R150, R159) -/

/-- The angle word is placed on a tooth stamped `stamp`; the first prediction goes out at once from the interval that ended on
it (R105). -/
def State.placeAt (s : State) (n : Nat) (t : Tooth) (stamp : Nat) : State :=
  let p := s.prevTooth n t
  let (_, k) := s.nextTooth n p
  let per := (s.reg (WHL_PER n)).toNat
  let hist : List Ivl :=
    if 2 ≤ (s.whlOf n).delivered ∧ per ≠ 0 then [{ len := per, a := s.spanFactor n p.slot k, w := s.torsFactor p t }] else []
  let s1 := (s.setTooth n t).updObs fun o =>
    { o with
      ang := BitVec.ofNat 56 ((s.corrected t.th).toNat * 2 ^ 24)
      tRef := some stamp
      refPaste := false
      pred := none
      prov := none
      hist := hist
      tors := []
      torsWhole := false
      torsSpoiled := false
      torsPrev := none
      cycle := (s.corrected t.th).toNat / 2 ^ 24 }
  ((s1.setFld OBS_FLAGS OBS_FLAGS_VALID 1).issue).newRate

/-- 2^23 is added to the angle word: the other revolution of the cycle (R148, R150). -/
def State.addHalfCycle (s : State) : State :=
  s.updObs fun o =>
    { o with ang := o.ang + BitVec.ofNat 56 (2 ^ 47), th0 := o.th0 + BitVec.ofNat 32 (2 ^ 23), th1 := o.th1 + BitVec.ofNat 32 (2 ^ 23),
             th2 := o.th2 + BitVec.ofNat 32 (2 ^ 23), rev := (o.rev + 1) % 2 }

/-- The angle word is no longer placed (R104, R138). -/
def State.unplace (s : State) : State :=
  (((s.setFld OBS_FLAGS OBS_FLAGS_VALID 0).setFld OBS_FLAGS OBS_FLAGS_CEIL 0).setReg OBS_RATE 0).learnLost

/-- The tooth of a wheel whose angle lies at or last before the angle word: s of a new source (R159). -/
def State.toothBehind (s : State) (n : Nat) : Tooth :=
  let pos := cyclePos s.angW
  let revs := if s.twice n then [0, 1] else [0]
  let all := revs.flatMap fun r => ((List.range (s.teeth n)).filter fun i => s.present n i).map fun i =>
    ((pos + 2 ^ 24 - s.slotPos n i r) % 2 ^ 24, i, r)
  let best := all.foldl (fun (b : Option (Nat × Nat × Nat)) x => match b with
    | none => some x
    | some y => if x.1 < y.1 then some x else b) none
  match best with
  | none => {}
  | some (d, i, r) => ⟨i, r, s.angW - BitVec.ofNat 32 d⟩

/-- The source in force changes without moving the angle word (R159). -/
def State.changeSource (s : State) (n : Nat) : State :=
  let s1 := s.withdraw.setFld OBS_FLAGS OBS_FLAGS_SRCA n
  s1.setTooth n (s1.toothBehind n)

/-! ### Registers of the observer (R135 to R137) -/

/-- Role of wheel `n`. -/
def State.role (s : State) (n : Nat) : Nat := s.fld (WHL_CFG n) WHL_CFG_ROLE

/-- Every bit of a mask names an ANGLE-role wheel. -/
def State.angleMask (s : State) (m : Nat) : Bool := (List.range 6).all fun n => m / 2 ^ n % 2 == 0 || s.role n == 0

/-- The conditions of R136 and R137 on a write to an observer register. -/
def State.obsLegal (s : State) (addr : Nat) (w : Word) : Bool :=
  let o := addr % 0x10000
  if addr = OBS_CFG then OBS_CFG_EN.get w == 0 || s.role (OBS_CFG_SRC.get w) == 0
  else if addr = OBS_PCFG then OBS_PCFG_SKIP.get w == 0 || decide (6 ≤ OBS_PCFG_SKIP.get w)
  else if addr = OBS_LCTL then s.angleMask (OBS_LCTL_LEN.get w)
  else if addr = OBS_LSPD then decide (OBS_LSPD_LO.get w < OBS_LSPD_HI.get w)
  else if addr = OBS_CLR then
    ((OBS_CLR_FACT.get w) &&& (s.fld OBS_LCTL OBS_LCTL_LEN) == 0) && (OBS_CLR_TORS.get w == 0 || s.fld OBS_LCTL OBS_LCTL_TEN == 0)
  else if 0x1000 ≤ o ∧ o < 0x1600 then s.fld OBS_LCTL OBS_LCTL_TEN == 0
  else if 0x4000 ≤ o then !s.bit OBS_LCTL ((o - 0x4000) / 0x2000)
  else true

/-! ### Commands -/

/-- `PROVISIONAL_PREDICTION` (R113): the angle has reached s+ before its tooth; the observer continues at a provisional rate,
formed as though s+ had arrived in this slot. -/
def execProvisionalPrediction (s : State) : Host.Outcome State Fault Refusal :=
  let n := s.srcWheel
  let c := s.lastTooth
  let (u, k) := s.nextTooth n c
  let (v, k2) := s.nextTooth n u
  match s.obs.tRef, s.obs.hist, s.obs.prov with
  | some r, _ :: _, none =>
    if s.placed && s.fld OBS_CFG OBS_CFG_EN == 1 && wReached s.angW (s.corrected u.th) then
      let i : Ivl := { len := ((s.now - r : Nat) : Rat), a := s.spanFactor n c.slot k, w := s.torsFactor c u }
      match predict (i :: s.obs.hist) (s.spanFactor n u.slot k2) (s.torsFactor u v) (s.fld OBS_PCFG OBS_PCFG_SLIM) with
      | some q =>
        let rate := roundDivN ((v.th - u.th).toNat * 2 ^ 24 * 256) q
        .next ((s.updObs fun o => { o with prov := some q }).setReg OBS_RATE
          (BitVec.ofNat 32 (capAt (2 ^ 32 - 1) (if rate = 0 then 1 else rate))))
      | none => .next s
    else .next s
  | _, _, _ => .next s

/-- `CEIL` (R114): the angle holds at the ceiling; the flag and the event are set on entry to the hold. -/
def execCeil (s : State) : Host.Outcome State Fault Refusal :=
  .next (if s.placed && s.fld OBS_CFG OBS_CFG_EN == 1 && s.angW == s.ceiling && s.fld OBS_FLAGS OBS_FLAGS_CEIL == 0
    then ((s.setFld OBS_FLAGS OBS_FLAGS_CEIL 1).raise OBS_EVT OBS_EVT_CEIL_bit).hwEvent 0x0A else s)

/-- `CYCLE_BOUNDARY` (R303): the cycle count has changed; every trim's base and value in force are evaluated anew, and the
coasting conditions with them (R127). -/
def execCycleBoundary (s : State) : Host.Outcome State Fault Refusal :=
  .next (if s.placed && decide (s.angW.toNat / 2 ^ 24 ≠ s.obs.cycle)
    then ((s.trimBoundary 512).updObs fun o => { o with cycle := s.angW.toNat / 2 ^ 24 }).coastCheck else s)

end Sys2Proof.Machine
end

