-- ==== Sys2Proof/Machine/Echo.lean ====
section
/-! DEFINITION. The echo generators (R90 to R96, R100). -/

namespace Sys2Proof.Machine

/-- Echo generator `k`. -/
def State.echoOf (s : State) (k : Nat) : Echo := vat s.echo k

/-- The state with an echo generator changed. -/
def State.updEcho (s : State) (k : Nat) (f : Echo → Echo) : State := { s with echo := vupd s.echo k f }

/-- Generator `k` is enabled, or runs its last pulse to the end (R95). -/
def State.echoOn (s : State) (k : Nat) : Bool := s.fld (WHL_ECFG k) WHL_ECFG_EN == 1 || (s.echoOf k).closing

/-- Generator `k` runs in a mode: 0 RAW, 1 FOLLOW, 2 SYNTH. -/
def State.echoIn (s : State) (k mode : Nat) : Bool := s.echoOn k && s.fld (WHL_ECFG k) WHL_ECFG_MODE == mode

/-- Generator `k` drives its pin. -/
def State.echoPinned (s : State) (k : Nat) : Bool :=
  s.echoOn k && s.fld (WHL_ECFG k) WHL_ECFG_NOPIN == 0

/-- A level change at the input of wheel `n`, with its slot and the angle word in it (R66 to R68). A change back before the
filter has passed discards it (R67). -/
def State.detect (s : State) (n : Nat) (b : Bool) : State :=
  s.updWhl n fun h => if h.det = b then h else { h with det := b, detAt := s.now, detAng := s.angW }

/-- The level of generator `k` changes: at its pin, and at the wheel inputs whose SRC names it (R66, R90). -/
def State.echoLevel (s : State) (k : Nat) (b : Bool) : State :=
  let s1 := s.updEcho k fun e => { e with level := b }
  let s2 := if s.echoPinned k
    then s1.setPin (s.fld (WHL_ECFG k) WHL_ECFG_PIN) (b != (s.fld (WHL_ECFG k) WHL_ECFG_INV == 1)) else s1
  let s3 : State := (List.range 6).foldl (fun t n => if t.fld (WHL_CFG n) WHL_CFG_SRC = k + 1 then t.detect n b else t) s2
  if b then s3 else s3.updEcho k fun e => { e with closing := false }

/-- A pulse of programmed width starts (R91, R92). -/
def State.echoPulse (s : State) (k : Nat) : State :=
  (s.echoLevel k true).updEcho k fun e =>
    { e with fallAt := some (s.now + 16 * s.fld (WHL_EWID k) WHL_EWID_WIDTH), riseAt := none }

/-- An edge of the source wheel of a RAW generator: a pulse starts; while one is high, it ends at once, the next starts 20 ns
later and ETRUNC is set (R91). -/
def State.echoRawEdge (s : State) (k : Nat) : State :=
  if (s.echoOf k).level then
    ((s.echoLevel k false).updEcho k fun e => { e with fallAt := none, riseAt := some (s.now + 8) }).raise WHL_EVT (30 + k)
  else s.echoPulse k

/-- Every RAW generator with source wheel `n` sees an edge of it (R91). -/
def State.echoRaw (s : State) (n : Nat) : State :=
  [0, 1].foldl (fun t k => if t.fld (WHL_ECFG k) WHL_ECFG_EN == 1 && t.fld (WHL_ECFG k) WHL_ECFG_MODE == 0 &&
    t.fld (WHL_ECFG k) WHL_ECFG_SRC == n then t.echoRawEdge k else t) s

/-- FOLLOW generators go low at once when the sync state leaves FULL and HOLD (R93, R163). -/
def State.echoFollowLow (s : State) : State :=
  [0, 1].foldl (fun t k => if t.echoIn k 1 then (t.echoLevel k false).updEcho k fun e => { e with fallAt := none, riseAt := none }
    else t) s

/-- FOLLOW edges count from the angle word in force on (R93). -/
def State.echoFollowFrom (s : State) : State :=
  [0, 1].foldl (fun t k => if t.echoIn k 1 then t.updEcho k fun e => { e with upTo := s.angW } else t) s

/-- The generator whose synthetic angle generator `k` runs on (R94). -/
def State.synthOf (s : State) (k : Nat) : Nat := if k = 1 ∧ s.fld (WHL_ECFG 1) WHL_ECFG_SHARE = 1 then 0 else k

/-- The angle word generator `k` places its pattern on, if it runs (R92 to R94). -/
def State.echoAngle (s : State) (k : Nat) : Option Word :=
  if s.echoIn k 1 then (if s.fires then some s.angW else none)
  else if s.echoIn k 2 then
    let j := s.synthOf k
    if s.echoIn j 2 then some ((s.echoOf j).syn.extractLsb' 24 32) else none
  else none

/-- A read of WHL_EANGk: the synthetic angle word in SYNTH, otherwise 0 (R94, R100). -/
def State.echoAngRead (s : State) (k : Nat) : Word := if s.echoIn k 2 then (s.echoAngle k).getD 0 else 0

/-- An edge of an echo pattern. -/
inductive EchoEdge where
  /-- A rising edge whose falling edge lies `fall` ticks later. -/
  | rise (fall : Nat)
  /-- The level of a PHASE entry. -/
  | level (b : Bool)
  /-- The start of a pulse of programmed width. -/
  | pulse
  /-- A falling edge. -/
  | fall
  deriving DecidableEq, Repr, Inhabited

/-- The edges of a cycle of generator `k`'s source pattern with their cycle positions (R92). -/
def State.echoEdges (s : State) (k : Nat) : List (Nat × EchoEdge) :=
  let n := s.fld (WHL_ECFG k) WHL_ECFG_SRC
  let ofs := s.fld (WHL_EOFS k) WHL_EOFS_OFS
  let c := s.teeth n
  if s.role n = 0 then
    let l := if s.twice n then 2 ^ 23 else 2 ^ 24
    let d := roundDivN (s.fld (WHL_ECFG k) WHL_ECFG_DUTY * l) (256 * c)
    (if s.twice n then [0, 1] else [0]).flatMap fun r =>
      ((List.range c).filter fun i => s.present n i).flatMap fun i =>
        let p := (s.slotPos n i r + ofs) % 2 ^ 24
        [(p, EchoEdge.rise d), ((p + d) % 2 ^ 24, EchoEdge.fall)]
  else if s.role n = 1 then
    (List.range c).map fun i =>
      let e := s.patEntry n i
      ((e % 4096 * 4096 + ofs) % 2 ^ 24,
        if s.fld (WHL_CFG n) WHL_CFG_EDGE = 3 then EchoEdge.level (e / 4096 % 2 == 1) else EchoEdge.pulse)
  else []

/-- An edge that can end a pulse. -/
def EchoEdge.ends : EchoEdge → Bool
  | .fall | .level false => true
  | .rise _ | .pulse | .level true => false

/-- The first edge of a cyclic pattern after angle word `w`: its distance in ticks and the edge. -/
def nextEdge (es : List (Nat × EchoEdge)) (w : Word) : Option (Nat × EchoEdge) :=
  es.foldl (fun best e =>
    let d0 := (e.1 + 2 ^ 24 - cyclePos w) % 2 ^ 24
    let d := if d0 = 0 then 2 ^ 24 else d0
    match best with
    | none => some (d, e.2)
    | some b => if d < b.1 then some (d, e.2) else best) none

/-- The first edge of generator `k` not placed yet takes place, if the angle has reached it (R92, R93). A falling edge that has
been passed with its rising edge follows 40 ns after it. -/
def State.echoStep (s : State) (k : Nat) : State :=
  match s.echoAngle k with
  | none => s
  | some w =>
    match nextEdge (s.echoEdges k) (s.echoOf k).upTo with
    | none => s
    | some (d, e) =>
      let at' := (s.echoOf k).upTo + BitVec.ofNat 32 d
      if !wReached w at' || ((s.echoOf k).closing && !e.ends) then s
      else
        let s1 := s.updEcho k fun x => { x with upTo := at' }
        match e with
        | .rise f =>
          let fallW := at' + BitVec.ofNat 32 f
          if wReached w fallW
          then (s1.echoLevel k true).updEcho k fun x => { x with upTo := fallW, fallAt := some (s.now + 16) }
          else s1.echoLevel k true
        | .level b => s1.echoLevel k b
        | .pulse => s1.echoPulse k
        | .fall => s1.echoLevel k false

/-- One slot of the synthetic angle of generator `k` (R94): one cycle in ESPDA x 40 ns. -/
def State.runSynth (s : State) (k : Nat) : State :=
  if s.echoIn k 2 && s.synthOf k == k then
    let p := s.fld (WHL_ESPDA k) WHL_ESPDA_PERIOD
    s.updEcho k fun e =>
      { e with syn := e.syn + BitVec.ofNat 56 ((2 ^ 44 + e.frac) / p), frac := (2 ^ 44 + e.frac) % p }
  else s

/-- The pin of a generator comes to be owned: the output unit treats the channel as disabled (R90, R200). -/
def State.ownPin (s : State) (k : Nat) : State :=
  if s.echoPinned k then
    let p := s.fld (WHL_ECFG k) WHL_ECFG_PIN
    (s.disableChannel (36 + p)).setPin p ((s.echoOf k).level != (s.fld (WHL_ECFG k) WHL_ECFG_INV == 1))
  else s

/-- Generator `k` comes to be enabled (R90, R94): its synthetic angle starts at 0, and that of ECHO1 with SHARE follows. -/
def State.echoEnable (s : State) (k : Nat) : State :=
  let s1 := s.updEcho k fun _ => { upTo := if s.echoIn k 1 then s.angW else BitVec.ofNat 32 (2 ^ 32 - 1) }
  let s2 := if k = 0 ∧ s.echoIn 0 2 ∧ s.synthOf 1 = 0
    then s1.updEcho 1 fun e => { e with upTo := BitVec.ofNat 32 (2 ^ 32 - 1) } else s1
  s2.ownPin k

/-- Generator `k` comes to be disabled: a pulse in progress runs to its natural end (R95); ECHO1 on its synthetic angle rests at
its idle level (R94). -/
def State.echoDisable (s : State) (k : Nat) : State :=
  let s1 := s.updEcho k fun e => { e with closing := e.level, riseAt := none }
  if k = 0 ∧ s.synthOf 1 = 0 ∧ s.echoIn 1 2 then (s1.echoLevel 1 false).updEcho 1 fun e => { e with fallAt := none } else s1

/-! ### Commands -/

/-- `ECHO_PULSE_END` (R91): a pulse of programmed width, or one that a falling edge passed by a jump ends, is over; a pulse that
an edge has truncated starts anew 20 ns later. -/
def execEchoPulseEnd (k : Fin 2) (s : State) : Host.Outcome State Fault Refusal :=
  let e := s.echoOf k
  match e.fallAt, e.riseAt with
  | some t, _ => .next (if t ≤ s.now then (s.echoLevel k false).updEcho k fun x => { x with fallAt := none } else s)
  | none, some t => .next (if t ≤ s.now then s.echoPulse k else s)
  | none, none => .next s

/-- `FOLLOW_EDGE` (R93): the next FOLLOW or SYNTH edge of generator `k` falls due. -/
def execFollowEdge (k : Fin 2) (s : State) : Host.Outcome State Fault Refusal := .next (s.echoStep k)

/-- The period in force after a step toward the target (R94). -/
def rampStep (cur target ramp : Nat) : Nat :=
  if ramp = 0 then target else if cur < target then min target (cur + ramp) else max target (cur - ramp)

/-- `ECHO_RAMP_STEP` (R94): every 10.24 us the SYNTH period in force moves toward ESPD by at most ERAMP. -/
def execEchoRampStep (k : Fin 2) (s : State) : Host.Outcome State Fault Refusal :=
  .next (if s.echoIn k 2 && s.synthOf k == k.val then
    s.setFld (WHL_ESPDA k) WHL_ESPDA_PERIOD
      (rampStep (s.fld (WHL_ESPDA k) WHL_ESPDA_PERIOD) (s.fld (WHL_ESPD k) WHL_ESPD_PERIOD) (s.fld (WHL_ERAMP k) WHL_ERAMP_RAMP))
  else s)

end Sys2Proof.Machine
end

