-- ==== Sys2Proof/Machine/Trace.lean ====
section
/-! DEFINITION. Loupe's packets and its trace buffer (R633 to R635). -/

namespace Sys2Proof.Machine

/-- The state with Loupe's own part changed. -/
def State.updDbg (s : State) (f : Dbg → Dbg) : State := { s with dbg := f s.dbg }

/-- Bytes in the trace buffer. -/
def Dbg.fill (d : Dbg) : Nat := (d.buf.map List.length).sum

/-- `DBG_STAT.FILL` follows the buffer, in 16-byte units (R640). -/
def State.showFill (s : State) : State := s.setFld DBG_STAT DBG_STAT_FILL (capAt 256 ((s.dbg.fill + 15) / 16))

/-- The header of a packet: TYPE and SRC (R633). -/
def packetHead (type src : Nat) : Byte := BitVec.ofNat 8 (16 * type + src % 16)

/-- Slot counter [15:0] (R634). -/
def State.stamp16 (s : State) : List Byte := toBytes 2 s.slot.toNat

/-- A SYNC packet (R633). -/
def State.syncPacket (s : State) : List Byte := [packetHead 1 15, 0xA5, 0x5A] ++ toBytes 6 s.slot.toNat

/-- An enabled source writes a packet into the buffer; a packet that finds no room is dropped, with every later one until the
buffer has drained to half full (R635). Trace runs only while Loupe is open (R630). -/
def State.tracePut (s : State) (on : Bool) (p : List Byte) : State :=
  if !on || s.fld DBG_CTRL DBG_CTRL_EN == 0 then s
  else match s.dbg.lost with
    | some n => s.updDbg fun d => { d with lost := some (n + 1) }
    | none =>
      if 4096 < s.dbg.fill + p.length then s.updDbg fun d => { d with lost := some 1 }
      else (s.updDbg fun d => { d with buf := d.buf ++ [p] }).showFill

/-- PC trace of pair `t`: a taken branch or jump, an entry, an ERET. -/
def State.tracePc (s : State) (t : Nat) (target : Word) : State :=
  s.tracePut (s.bit DBG_TCFG t) (packetHead 3 t :: toBytes 4 target.toNat ++ s.stamp16)

/-- THR trace of thread `n`: kind 0 wake, 1 post, 2 fault, 3 end. -/
def State.traceThr (s : State) (n kind : Nat) (pc : Nat) : State :=
  s.tracePut (s.bit DBG_TCFG (4 + n / 32))
    (packetHead 4 (n / 32) :: BitVec.ofNat 8 (n + 64 * kind) :: toBytes 3 (pc % 2 ^ 18) ++ s.stamp16)

/-- FLT trace: the message as decided. -/
def State.traceFlt (s : State) (m : BitVec 64) : State :=
  s.tracePut (s.fld DBG_TCFG DBG_TCFG_FLT == 1) (packetHead 6 0 :: toBytes 8 m.toNat ++ s.stamp16)

/-- USER trace: the word written to DBG_UTRC. -/
def State.traceUser (s : State) (w : Word) : State :=
  s.tracePut (s.fld DBG_TCFG DBG_TCFG_USER == 1) (packetHead 7 0 :: toBytes 4 w.toNat)

end Sys2Proof.Machine
end

