-- ==== Sys2Proof/Machine/Sync.lean ====
section
/-! DEFINITION. Synchronisation (05_synchronisation.md): the gap search, placement, cycle phase, bad teeth, the secondary sensor,
stall and reverse rotation, the state table of R165, and the OBS_SCMD commands. -/

namespace Sys2Proof.Machine

/-! ### Causes (R171) -/

abbrev caSTALL : Nat := 1
abbrev caBADTOOTH : Nat := 2
abbrev caGAP : Nat := 3
abbrev caNOISE : Nat := 4
abbrev caPHASE : Nat := 5
abbrev caREVERSE : Nat := 6
abbrev caSOFTWARE : Nat := 7
abbrev caDISABLED : Nat := 8

/-! ### The gap signature (R141 to R143) -/

/-- The gap that three intervals show, if they show one (R141). -/
def gapOf (d1 d2 d3 gtol : Nat) : Option Nat :=
  let k := roundDivN d2 d1
  if 2 ≤ k ∧ k ≤ 4 ∧ k * (16 - gtol) * d1 ≤ 16 * d2 ∧ 16 * d2 ≤ k * (16 + gtol) * d1
      ∧ k * (16 - gtol) * d3 ≤ 16 * d2 ∧ 16 * d2 ≤ k * (16 + gtol) * d3
  then some (k - 1) else none

/-- Present slots of a pattern from slot `i` on, before the next absent one, at most `fuel`. -/
def State.runLength (s : State) (n i : Nat) : Nat → Nat
  | 0 => 0
  | fuel + 1 => if s.present n (i % s.teeth n) then 1 + s.runLength n (i + 1) fuel else 0

/-- The gap signature: for each gap its length, the present slots to the next gap, and the first slot after it (R142). -/
def State.signature (s : State) (n : Nat) : List (Nat × Nat × Nat) :=
  let c := s.teeth n
  (List.range c).filterMap fun i =>
    let k := s.pitches n i c
    if s.present n i && decide (2 ≤ k) then some (k - 1, s.runLength n ((i + k) % c) c, (i + k) % c) else none

/-- A list turned by `r` places. -/
def turned {α : Type} (l : List α) (r : Nat) : List α := l.drop r ++ l.take r

/-- No rotation of the signature but the identity equals it, and there is a gap (R143). -/
def State.gapLegal (s : State) (n : Nat) : Bool :=
  let g := (s.signature n).map fun x => (x.1, x.2.1)
  !g.isEmpty && (List.range g.length).all fun r => r == 0 || turned g r != g

/-- PLACE is legal for the wheel (R143). -/
def State.placeLegal (s : State) (place n : Nat) : Bool := place == 1 || s.gapLegal n

/-- Records of gaps agree with a signature turned so that the first record is its first gap. -/
def recsAgree (sig : List (Nat × Nat × Nat)) : Nat → List (Nat × Option Nat) → Bool
  | _, [] => true
  | i, (m, c) :: t =>
    let g := sig.length
    (match sig[i % g]? with | some x => x.1 == m | none => false)
    && (match c, sig[(i + g - 1) % g]? with
        | some c, some y => y.2.1 == c
        | _, _ => true)
    && recsAgree sig (i + 1) t

/-- The rotations of a signature that agree with every record (R142). -/
def aligned (sig : List (Nat × Nat × Nat)) (recs : List (Nat × Option Nat)) : List Nat :=
  (List.range sig.length).filter fun r => recsAgree sig r recs

/-- A tooth stamped `t` enters a gap search of wheel `n`: the search after it, and the slot of this tooth once exactly one
rotation agrees (R141, R142). The gap is found at the tooth after the one that ends it. -/
def State.feed (s : State) (n : Nat) (sr : Search) (t : Nat) : Search × Option Nat :=
  let ivs := match sr.last with
    | some l => ((t - l) :: sr.ivs).take 3
    | none => sr.ivs
  let s1 : Search := { sr with last := some t, ivs := ivs, k := sr.k + 1 }
  match ivs with
  | [d3, d2, d1] =>
    match gapOf d1 d2 d3 (s.fld OBS_SCHK OBS_SCHK_GTOL) with
    | none => (s1, none)
    | some m =>
      let ended := sr.k
      let sig := s.signature n
      let recs := sr.recs ++ [(m, sr.gapK.map fun g => ended - g)]
      let recs' := if (aligned sig recs).isEmpty then [(m, none)] else recs
      let s2 := { s1 with gapK := some ended, recs := recs' }
      match aligned sig recs' with
      | [r] =>
        match sig[(r + recs'.length - 1) % sig.length]? with
        | some x => (s2, some ((s.nextTooth n ⟨x.2.2, 0, 0⟩).1.slot))
        | none => (s2, none)
      | _ => (s2, none)
  | _ => (s1, none)

/-! ### State changes (R138, R150, R155, R163, R165) -/

/-- Grade of the sync state (R168). A ring unit reports 0 (R531), which the Chain's own file adds. -/
def State.baseGrade (s : State) : Nat :=
  let st := s.syncSt
  if st = syncCRANK then 1 else if st = syncHOLD then 2
  else if st = syncFULL then
    if s.sync.byCmd then 3
    else 4 + 2 * s.fld OBS_STATE OBS_STATE_AGREE + b2n (s.fval s.srcWheel)
  else 0

/-- The secondary sensor searches anew (R156, R159). -/
def State.secReset (s : State) : State :=
  ((s.updSync fun y => { y with secSearch := {}, secSlot := none, secIn := 0, secOut := 0, secs := [] }).setFld OBS_STATE
    OBS_STATE_SECPL 0).setFld OBS_STATE OBS_STATE_AGREE 0

/-- The exit from FULL or HOLD is recorded and the safe end applied (R163, R171). -/
def State.leaveFull (s : State) (cause : Nat) : State :=
  ((((((s.setFld OBS_SCAUSE OBS_SCAUSE_CAUSE cause).setFld OBS_SCAUSE OBS_SCAUSE_FROM s.syncSt).setFld OBS_SCAUSE OBS_SCAUSE_WHEEL
    s.srcWheel).setReg OBS_SLOSTA s.angW).safeEnd).echoFollowLow).abandonAll

/-- The placement is withdrawn (R105, R138). -/
def State.leavePlaced (s : State) : State :=
  let s1 := s.updSync fun y => { y with lastCycle := if s.placed then s.angW.toNat / 2 ^ 24 else y.lastCycle, byCmd := false }
  (((((s1.unplace).withdraw).secReset).setFld OBS_STATE OBS_STATE_HOLDN 0).setFld OBS_STATE OBS_STATE_PHASE 0).setFld OBS_SCNT
    OBS_SCNT_EARLYREV 0

/-- What an entry into a state sets: events, counts, messages, and at an entry into FULL from SEEK or CRANK everything that
acts there (R139, R140, R150, R155, R303). -/
def State.enterSync (s : State) (old new : Nat) (cause : Nat) : State :=
  if new = syncFULL then
    let s1 := (s.raise OBS_SEVT OBS_SEVT_FULL).setFld OBS_STATE OBS_STATE_PHASE 1
    if old = syncSEEK ∨ old = syncCRANK then
      let s2 := s1.setFld OBS_STATE OBS_STATE_SGEN ((s1.fld OBS_STATE OBS_STATE_SGEN + 1) % 256)
      let s3 := s2.updSync fun y => { y with phErr := 0, camLost := false, camW := s.angW }
      let s4 := (s3.updObs fun o => { o with noFuel := 0, cycle := s.angW.toNat / 2 ^ 24 }).abandonAll
      ((s4.calendarFull).echoFollowFrom).trimBoundary 512
    else s1
  else if new = syncHOLD then s.raise OBS_SEVT OBS_SEVT_HOLD
  else if new = syncCRANK then s.updSync fun y => { y with camSide := none, camRun := 0 }
  else if new = syncLOST then
    ((s.count OBS_SCNT OBS_SCNT_LOST 1).raise OBS_SEVT OBS_SEVT_LOST).sendFault blkOBS 0 0x10 clsU cause
  else if new = syncREVERSE then
    let s1 := (s.raise OBS_SEVT OBS_SEVT_REVERSE).updSync fun y => { y with fwd := 0 }
    if old = syncFULL ∨ old = syncHOLD then s1.sendFault blkOBS 0 0x11 clsC 0 else s1
  else s

/-- The unit works in RING (R528). -/
def State.inRing (s : State) : Bool := s.fld CHN_ACFG CHN_ACFG_MODE == 3

/-- `OBS_STATE.GRADE` (R168, R531). -/
def State.grade (s : State) : Nat := if s.inRing then 0 else s.baseGrade

/-- SYNCST trace: the sync state, the grade, SGEN and the angle word after a change (R633). -/
def State.traceSync (s : State) : State :=
  s.tracePut (s.fld DBG_TCFG DBG_TCFG_SYNCST == 1)
    (packetHead 5 0 :: BitVec.ofNat 8 (s.fld OBS_STATE OBS_STATE_SYNC + 16 * s.grade)
      :: BitVec.ofNat 8 (s.fld OBS_STATE OBS_STATE_SGEN) :: toBytes 4 s.angW.toNat ++ s.stamp16)

/-- The sync state changes (R165); nothing happens where it is the state already. -/
def State.goSync (s : State) (new cause : Nat) : State :=
  let old := s.syncSt
  if new = old then s
  else
    let ends := (old = syncFULL ∨ old = syncHOLD) ∧ (new = syncSTOP ∨ new = syncLOST ∨ new = syncREVERSE)
    let s1 := if ends then s.leaveFull cause else s
    let s2 := if new = syncSTOP ∨ new = syncSEEK ∨ new = syncLOST ∨ new = syncREVERSE then s1.leavePlaced else s1
    let s3 := s2.setFld OBS_STATE OBS_STATE_SYNC new
    (((s3.enterSync old new cause).coastCheck).setPendAll pdSYNC).traceSync

/-- The gap search starts with the tooth stamped `t`, if there is one (R142, R165). -/
def State.seek (s : State) (n : Nat) (t : Option Nat) : State :=
  let s1 := (s.goSync syncSEEK 0).updSync fun y => { y with search := {}, camRef := false }
  match t with
  | some t => s1.updSync fun y => { y with search := (s1.feed n {} t).1 }
  | none => s1

/-- The wheel is placed at slot `i` of revolution `rev` by the tooth stamped `t` (R145, R146, R150). -/
def State.place (s : State) (n i rev t : Nat) : State :=
  let c := if s.sync.once then (s.sync.lastCycle + 1) % 256 else 0
  let s1 := s.updSync fun y => { y with once := true, camRef := false }
  let s2 := s1.placeAt n ⟨i, rev, BitVec.ofNat 32 (c * 2 ^ 24 + s1.slotPos n i rev)⟩ t
  let crank := s.fourStroke && s.fld (WHL_TEETH n) WHL_TEETH_PERCYC == 0 && s.fld OBS_SCFG OBS_SCFG_PLACE == 0
  s2.goSync (if crank then syncCRANK else syncFULL) 0

/-- The cycle phase is resolved in CRANK (R148, R149). -/
def State.resolvePhase (s : State) (add byCmd : Bool) : State :=
  ((if add then s.addHalfCycle else s).updSync fun y => { y with byCmd := byCmd }).goSync syncFULL 0

/-! ### Failures and bad teeth (R151 to R153, R158) -/

/-- R158 applies: the secondary takes over. -/
def State.canSwitch (s : State) : Bool :=
  s.fld OBS_SCFG OBS_SCFG_AUTO == 1 && s.fld OBS_SCFG OBS_SCFG_SECEN == 1 && s.fld OBS_STATE OBS_STATE_AGREE == 1
  && (match (s.whlOf s.sync.sec).lastTooth, (s.whlOf s.srcWheel).lastTooth with
      | some a, some b => decide (b < a)
      | some _, none => true
      | none, _ => false)

/-- The state enters HOLD, with the teeth still needed to leave it (R151, R171). -/
def State.hold (s : State) (teeth : Nat) : State := (s.goSync syncHOLD 0).setFld OBS_STATE OBS_STATE_HOLDN teeth

/-- The source in force changes to the secondary; the former source becomes the secondary (R159). -/
def State.switchSource (s : State) : State :=
  let old := s.srcWheel
  let s1 := ((s.changeSource s.sync.sec).updSync fun y => { y with sec := old, revRun := 0 }).secReset
  (s1.raise OBS_SEVT OBS_SEVT_SWITCH).hold 16

/-- A failure of a placed wheel: LOST with its cause, or from CRANK back to SEEK (R152, R153, R165). -/
def State.failPlaced (s : State) (cause : Nat) (t : Option Nat) : State :=
  if s.syncSt = syncCRANK then s.seek s.srcWheel t else s.goSync syncLOST cause

/-- A bad tooth (R151): HOLD from FULL, LOST from HOLD unless the secondary takes over, SEEK from CRANK. `skip`: the tooth of the
paste's own slot counts as the first of the 16. -/
def State.badTooth (s : State) (skip : Bool) (t : Option Nat) : State :=
  if s.syncSt = syncFULL then s.hold (if skip then 15 else 16)
  else if s.syncSt = syncHOLD then (if s.canSwitch then s.switchSource else s.goSync syncLOST caBADTOOTH)
  else s.seek s.srcWheel t

/-- q of R152 lies outside its tolerance: the tooth just taken ended an interval over a gap, and neither it nor the interval
before begins or ends on a paste tooth. -/
def State.gapFails (s : State) (k : Nat) : Bool :=
  match s.obs.hist with
  | [i, j] =>
    let g : Rat := (s.fld OBS_SCHK OBS_SCHK_GTOL : Rat) / 16
    decide (2 ≤ k) && !i.pasted && !j.pasted && (decide (i.u / j.u < 1 - g) || decide (1 + g < i.u / j.u))
  | _ => false

/-- A tooth of slot 0 begins a new revolution of EARLY edges (R153). -/
def State.newRevolution (s : State) : State :=
  if s.obs.slot = 0 then s.setFld OBS_SCNT OBS_SCNT_EARLYREV 0 else s

/-- A delivered tooth of a placed source (R116 to R122, R151, R152). Of several events the one first in the order of R166 is
applied. -/
def State.placedTooth (s : State) (n t : Nat) : State :=
  let skip := s.skips t
  let s1 := if skip then ((s.pasteTooth).raise OBS_EVT OBS_EVT_SKIP_bit).newRevolution else s
  let k := (s1.nextTooth n s1.lastTooth).2
  let s2 := (s1.takeTooth t).newRevolution
  let s3 := if skip then s2.count OBS_SCNT OBS_SCNT_PASTE 1 else s2
  let holdn := s3.fld OBS_STATE OBS_STATE_HOLDN
  let s4 := if s3.syncSt = syncHOLD ∧ !skip ∧ 0 < holdn then s3.setFld OBS_STATE OBS_STATE_HOLDN (holdn - 1) else s3
  if s1.obs.tRef.isSome && s4.gapFails k then s4.failPlaced caGAP (some t)
  else if skip then s4.badTooth true (some t)
  else if s4.syncSt = syncHOLD ∧ holdn = 1 then s4.goSync syncFULL 0
  else s4

/-- A tooth of the source in SEEK (R142, R144). -/
def State.seekTooth (s : State) (n t : Nat) : State :=
  if s.fld OBS_SCFG OBS_SCFG_PLACE = 1 then
    if s.sync.camRef then s.place n (s.fld OBS_SCAM OBS_SCAM_REFSLOT) (s.fld OBS_SCAM OBS_SCAM_REFREV) t else s
  else
    let r := s.feed n s.sync.search t
    let s1 := s.updSync fun y => { y with search := r.1 }
    match r.2 with
    | some i => s1.place n i 0 t
    | none => s1

/-- A delivered tooth of the source in force (R161, R162, R165). -/
def State.sourceTooth (s : State) (n t : Nat) (rev : Bool) : State :=
  let run := if rev then s.sync.revRun + 1 else 0
  let s1 := s.updSync fun y => { y with revRun := run }
  let st := s1.syncSt
  if st = syncREVERSE then
    if rev then s1.updSync fun y => { y with fwd := 0 }
    else
      let s2 := s1.updSync fun y => { y with fwd := y.fwd + 1 }
      if 2 * s2.teeth n ≤ s2.sync.fwd then s2.seek n (some t) else s2
  else if rev && decide (s1.fld OBS_SCHK OBS_SCHK_NDIR ≤ run) then s1.goSync syncREVERSE caREVERSE
  else if st = syncSTOP then
    if s1.placeLegal (s1.fld OBS_SCFG OBS_SCFG_PLACE) n then s1.seek n (some t) else s1.raise OBS_SEVT OBS_SEVT_CFG
  else if st = syncLOST then (if s1.fld OBS_SCFG OBS_SCFG_RELOCK = 1 then s1.seek n (some t) else s1)
  else if st = syncSEEK then s1.seekTooth n t
  else s1.placedTooth n t

/-- An EARLY edge on the source in force (R153). -/
def State.sourceEarly (s : State) : State :=
  if s.placed then
    let s1 := s.count OBS_SCNT OBS_SCNT_EARLYREV 1
    if s1.fld OBS_SCHK OBS_SCHK_EMAX < s1.fld OBS_SCNT OBS_SCNT_EARLYREV then s1.failPlaced caNOISE none else s1
  else s

/-- A window of the source in force closes with no edge (R122, R151). -/
def State.sourceMissing (s : State) : State :=
  (((s.windowPaste).newRevolution).count OBS_SCNT OBS_SCNT_PASTE 1).badTooth false none

/-- A stall of the source in force (R158, R160). -/
def State.sourceStall (s : State) : State :=
  let s1 := s.raise OBS_SEVT OBS_SEVT_STALL
  let st := s1.syncSt
  if st = syncREVERSE then (s1.updSync fun y => { y with fwd := 0 }).withdraw
  else if st = syncFULL ∨ st = syncHOLD then (if s1.canSwitch then s1.switchSource else s1.goSync syncSTOP caSTALL)
  else s1.goSync syncSTOP 0

/-! ### The cam wheel (R144, R147, R148, R154, R161) -/

/-- Some entry of the cam table lies within TOL of bucket `b` and has the level (R147). -/
def State.camHit (s : State) (cam b : Nat) (level : Bool) : Bool :=
  (List.range (s.teeth cam)).any fun i =>
    let e := s.patEntry cam i
    let d := (b + 4096 - e % 4096) % 4096
    decide (min d (4096 - d) ≤ s.fld OBS_SCAM OBS_SCAM_TOL) && (e / 4096 % 2 == b2n level)

/-- An unmatched or ambiguous cam edge. -/
def State.camError (s : State) : State := (s.count OBS_SCNT OBS_SCNT_CAMERR 1).raise OBS_SEVT OBS_SEVT_CAMERR

/-- A cam edge in CRANK (R148, R161). -/
def State.camCrank (s : State) (both : Bool) (m0 m1 r0 r1 : Bool) : State :=
  if m0 != m1 then
    let run := if s.sync.camSide = some m1 then s.sync.camRun + 1 else 1
    let s1 := s.updSync fun y => { y with camSide := some m1, camRun := run }
    if s1.fld OBS_SCAM OBS_SCAM_NCONF ≤ run then s1.resolvePhase m1 false else s1
  else
    let s1 := (s.camError).updSync fun y => { y with camSide := none, camRun := 0 }
    if both && !m0 && (r0 || r1) then s1.goSync syncREVERSE caREVERSE else s1

/-- A cam edge in FULL or HOLD (R154, R161). -/
def State.camPlaced (s : State) (both : Bool) (m0 m1 r0 : Bool) : State :=
  if m0 then s.updSync fun y => { y with phErr := 0, byCmd := false }
  else if both && r0 then s.goSync syncREVERSE caREVERSE
  else if m1 then
    let s1 := s.updSync fun y => { y with phErr := y.phErr + 1 }
    if s1.fld OBS_SCAM OBS_SCAM_NCONF ≤ s1.sync.phErr then s1.goSync syncLOST caPHASE else s1
  else s.camError

/-- A delivered cam edge with its level and the angle word of its stamp. -/
def State.camEdge (s : State) (e : Edge) : State :=
  let cam := s.fld OBS_SCFG OBS_SCFG_CAM
  if s.fld OBS_SCFG OBS_SCFG_CAMEN = 0 then s
  else if s.syncSt = syncSEEK then
    if s.fld OBS_SCFG OBS_SCFG_PLACE = 1 ∧ s.patEntry cam 0 / 4096 % 2 = b2n e.level
    then s.updSync fun y => { y with camRef := true } else s
  else if s.placed then
    let s1 := s.updSync fun y => { y with camW := e.angle, camLost := false }
    let b := bucketOf e.angle
    let c := (b + 2048) % 4096
    let both := s.fld (WHL_CFG cam) WHL_CFG_EDGE == 3
    let m0 := s.camHit cam b e.level
    let m1 := s.camHit cam c e.level
    let r0 := s.camHit cam b (!e.level)
    let r1 := s.camHit cam c (!e.level)
    if s.syncSt = syncCRANK then s1.camCrank both m0 m1 r0 r1 else s1.camPlaced both m0 m1 r0
  else s

/-! ### The secondary sensor (R156, R157) -/

/-- Agreement is lost (R157, R155). -/
def State.secLose (s : State) : State :=
  let s1 := s.updSync fun y => { y with secIn := 0 }
  if s1.fld OBS_STATE OBS_STATE_AGREE = 1
  then ((s1.setFld OBS_STATE OBS_STATE_AGREE 0).raise OBS_SEVT OBS_SEVT_DISAGREE).sendFault blkOBS 0 0x12 clsC s.sync.sec else s1

/-- A delivered tooth of the secondary sensor: its gap search, or its next slot and its learning (R126, R156). -/
def State.secDeliver (s : State) (n : Nat) (e : Edge) (prev : Option Nat) : State :=
  match s.sync.secSlot with
  | none =>
    let r := s.feed n s.sync.secSearch e.stamp
    let s1 := s.updSync fun y => { y with secSearch := r.1, secSlot := r.2 }
    match r.2 with
    | some i => (s1.setFld OBS_STATE OBS_STATE_SECPL 1).updSync fun y => { y with secs := y.secs ++ [(e.angle, i)] }
    | none => s1
  | some i =>
    let (u, k) := s.nextTooth n ⟨i, 0, 0⟩
    let s1 := match prev with
      | some p => s.learnInterval n i k (e.stamp - p) u.slot e.stamp false false
      | none => s
    s1.updSync fun y => { y with secSlot := some u.slot, secs := y.secs ++ [(e.angle, u.slot)] }

/-- e of R157: the signed difference between the angle word at the stamp and the nearest angle of the slot. -/
def State.secError (s : State) (n : Nat) (w : Word) (i : Nat) : Int :=
  let d := fun r => signedOf 24 ((cyclePos w + 2 ^ 24 - s.slotPos n i r) % 2 ^ 24)
  if s.twice n ∧ (d 1).natAbs < (d 0).natAbs then d 1 else d 0

/-- A placed secondary tooth is judged (R157). -/
def State.secJudge (s : State) (w : Word) (i : Nat) : State :=
  let e := s.secError s.sync.sec w i
  let s1 := s.setReg OBS_SDIFF (BitVec.ofInt 32 e)
  if e.natAbs ≤ s.fld OBS_SCFG OBS_SCFG_RTOL then
    let s2 := s1.updSync fun y => { y with secIn := capAt 16 (y.secIn + 1), secOut := 0 }
    if 16 ≤ s2.sync.secIn then s2.setFld OBS_STATE OBS_STATE_AGREE 1 else s2
  else
    let s2 := s1.updSync fun y => { y with secIn := 0, secOut := y.secOut + 1 }
    if s2.fld OBS_SCFG OBS_SCFG_NMIS ≤ s2.sync.secOut then s2.secLose else s2

/-! ### Registers of synchronisation (R170, R171) -/

/-- The conditions of R171 on a write to a synchronisation register. -/
def State.syncLegal (s : State) (addr : Nat) (w : Word) : Bool :=
  let src := s.fld OBS_CFG OBS_CFG_SRC
  if addr = OBS_SCFG then
    s.placeLegal (OBS_SCFG_PLACE.get w) src
    && (OBS_SCFG_CAMEN.get w == 0 || s.role (OBS_SCFG_CAM.get w) == 1)
    && (OBS_SCFG_SECEN.get w == 0 || (s.role (OBS_SCFG_SEC.get w) == 0 && OBS_SCFG_SEC.get w != src))
  else if addr = OBS_SCAM then
    OBS_SCAM_REFSLOT.get w == s.fld OBS_SCAM OBS_SCAM_REFSLOT || s.present src (OBS_SCAM_REFSLOT.get w)
  else if addr = OBS_SCMD then
    let st := s.syncSt
    (OBS_SCMD_RESEEK.get w == 0 || st == syncLOST)
    && (OBS_SCMD_PHASE.get w == 0 || (st == syncCRANK && OBS_SCMD_PHASE.get w != 3))
    && (OBS_SCMD_SWAP.get w == 0 || (st == syncFULL && s.fld OBS_STATE OBS_STATE_AGREE == 1))
    && (OBS_SCMD_DROP.get w == 0 || s.fires)
  else true

/-- A legal command of OBS_SCMD (R166, R171): of two in one write the later in the order is discarded and refused. -/
def State.syncCommand (s : State) (w : Word) : State :=
  if OBS_SCMD_DROP.get w = 1 then
    let s1 := s.goSync syncLOST caSOFTWARE
    if OBS_SCMD_SWAP.get w = 1 then s1.refuseWrite OBS_SCMD else s1
  else if OBS_SCMD_PHASE.get w = 1 then s.resolvePhase false true
  else if OBS_SCMD_PHASE.get w = 2 then s.resolvePhase true true
  else if OBS_SCMD_RESEEK.get w = 1 then s.seek s.srcWheel none
  else if OBS_SCMD_SWAP.get w = 1 then s.switchSource
  else s

/-- The observer comes to be enabled (R103, R138): the configured source and secondary are in force, the state is STOP. -/
def State.obsEnabled (s : State) : State :=
  (s.setFld OBS_FLAGS OBS_FLAGS_SRCA (s.fld OBS_CFG OBS_CFG_SRC)).updSync fun y =>
    { y with sec := s.fld OBS_SCFG OBS_SCFG_SEC, revRun := 0, fwd := 0, search := {}, camRef := false, cams := [], secs := [] }

/-- The observer comes to be disabled (R165): a safe end from FULL or HOLD, the prediction withdrawn, STOP. -/
def State.obsDisabled (s : State) : State := (s.goSync syncSTOP caDISABLED).withdraw

/-- A write to a register of the OBS block. -/
def State.obsWrite (s : State) (addr : Nat) (w : Word) : State :=
  let o := addr % 0x10000
  let en := s.fld OBS_CFG OBS_CFG_EN == 1
  s.writeWith addr w en (s.obsLegal addr w && s.syncLegal addr w) fun t =>
    if addr = OBS_CFG then
      (if !en && t.fld OBS_CFG OBS_CFG_EN == 1 then t.obsEnabled
       else if en && t.fld OBS_CFG OBS_CFG_EN == 0 then t.obsDisabled else t)
    else if addr = OBS_LCTL ∨ addr = OBS_LSPD then t.coastCheck
    else if addr = OBS_CLR then
      let t1 : State := (List.range 6).foldl (fun u n => if bitOf w n then u.clearFactors n else u) t
      let t2 := if bitOf w 8 then t1.clearTorsional else t1
      if bitOf w 9 then t2.setReg OBS_JMAX 0 else t2
    else if addr = OBS_SCMD then t.syncCommand w
    else if 0x1000 ≤ o ∧ o < 0x1600 then t.torsTouched
    else if 0x4000 ≤ o then t.factTouched ((o - 0x4000) / 0x2000)
    else t

/-! ### Commands -/

/-- `CAM_EDGE` (R147): the oldest delivered cam edge reaches synchronisation. -/
def execCamEdge (s : State) : Host.Outcome State Fault Refusal :=
  match s.sync.cams with
  | [] => .next s
  | e :: t => .next ((s.updSync fun y => { y with cams := t }).camEdge e)

/-- `CAMLOSS` (R154): two whole cycles of angle have passed since the last cam edge or the entry into FULL. -/
def execCamloss (s : State) : Host.Outcome State Fault Refusal :=
  .next (if s.fires && s.fld OBS_SCFG OBS_SCFG_CAMEN == 1 && !s.sync.camLost && wReached s.angW (s.sync.camW + BitVec.ofNat 32 (2 ^ 25))
    then (s.updSync fun y => { y with camLost := true }).raise OBS_SEVT OBS_SEVT_CAMLOSS else s)

/-- `SECONDARY_TOOTH` (R157): the oldest delivered tooth of the placed secondary sensor is judged. -/
def execSecondaryTooth (s : State) : Host.Outcome State Fault Refusal :=
  match s.sync.secs with
  | [] => .next s
  | e :: t => .next (State.secJudge (s.updSync fun y => { y with secs := t }) e.1 e.2)

/-- `OBS_ENABLE` (R138): a write to OBS_CFG that sets EN. -/
def execObsEnable (w : Word) (s : State) : Host.Outcome State Fault Refusal := .next (s.obsWrite OBS_CFG w)

/-- `OBS_DISABLE` (R165): a write to OBS_CFG that clears EN. -/
def execObsDisable (w : Word) (s : State) : Host.Outcome State Fault Refusal := .next (s.obsWrite OBS_CFG w)

/-- A read of OBS_ANG returns the angle word and latches the slot counter into OBS_ANGT (R136). -/
def State.obsAngRead (s : State) : State × Word := (s.setReg OBS_ANGT s.slotW, s.obsAng)

/-- `OBS_ANG_READ` (R136). -/
def execObsAngRead (s : State) : Host.Outcome State Fault Refusal := .next (s.obsAngRead.1.respond s.obsAngRead.2 false)

/-- `OBS_CLR_FACT` (R136): the named wheels' tooth factors are set to 16,384 and their FVAL cleared. -/
def execObsClrFact (wheels : BitVec 6) (s : State) : Host.Outcome State Fault Refusal :=
  .next (s.obsWrite OBS_CLR (wheels.setWidth 32))

/-- `OBS_CLR_TORS` (R136): every torsional entry is set to 0. -/
def execObsClrTors (s : State) : Host.Outcome State Fault Refusal := .next (s.obsWrite OBS_CLR 0x100)

/-- `OBS_CLR_JMAX` (R136): OBS_JMAX is cleared. -/
def execObsClrJmax (s : State) : Host.Outcome State Fault Refusal := .next (s.obsWrite OBS_CLR 0x200)

/-- `RESEEK` (R165): the gap search starts in LOST; the command is refused in any other state (R167). -/
def execReseek (s : State) : Host.Outcome State Fault Refusal := .next (s.obsWrite OBS_SCMD 1)

/-- `PHASE_KEEP` (R149): in CRANK the phase is resolved on the tentative revolution. -/
def execPhaseKeep (s : State) : Host.Outcome State Fault Refusal := .next (s.obsWrite OBS_SCMD 2)

/-- `PHASE_ADD` (R149): in CRANK 2^23 is added to the angle word and the state enters FULL. -/
def execPhaseAdd (s : State) : Host.Outcome State Fault Refusal := .next (s.obsWrite OBS_SCMD 4)

/-- `SWAP` (R158): in FULL with AGREE = 1 the source in force changes to the secondary. -/
def execSwapSource (s : State) : Host.Outcome State Fault Refusal := .next (s.obsWrite OBS_SCMD 8)

/-- `DROP` (R171): in FULL or HOLD the state enters LOST with cause SOFTWARE. -/
def execDropSync (s : State) : Host.Outcome State Fault Refusal := .next (s.obsWrite OBS_SCMD 16)

end Sys2Proof.Machine
end

