-- ==== Sys2Proof/Machine/Tai.lean ====
section
/-! DEFINITION. Calendar time (R599 to R602), and what other blocks ask of Hallmark. -/

namespace Sys2Proof.Machine

/-- The state with Locket's own part changed. -/
def State.updLkt (s : State) (f : Lkt → Lkt) : State := { s with lkt := f s.lkt }

/-- Units of 10^-9/64 ns in a nanosecond, and in one turn of the 48-bit seconds. -/
abbrev calUnit : Nat := 64 * 1000000000
abbrev calTurn : Nat := 2 ^ 48 * 1000000000 * calUnit

/-- Calendar time: whole seconds and nanoseconds. -/
def State.calSec (s : State) : Nat := s.lkt.cal / calUnit / 1000000000
def State.calNs (s : State) : Nat := s.lkt.cal / calUnit % 1000000000

/-- Calendar time moved by `d` units. -/
def State.calAdd (s : State) (d : Int) : State := s.updLkt fun l => { l with cal := (((l.cal : Int) + d) % (calTurn : Int)).toNat }

/-- LKT_TADJ, in ppb. -/
def State.tadj (s : State) : Int := (s.reg LKT_TADJ).toInt

/-- A timer clock: 20 ns × (1 + LKT_TADJ × 10^-9) (R599). -/
def State.calTick (s : State) : State := s.calAdd (20 * (calUnit : Int) + 20 * 64 * s.tadj)

/-- An RTC tick while the crystal has failed: 30,517.578125 ns × (1 + LKT_TADJ × 10^-9) (R599). -/
def State.calRtc (s : State) : State := s.calAdd (30517578125000 * 64 + 1953125 * s.tadj)

/-- TSRC (R600). -/
def State.tsrc (s : State) : Nat := s.fld LKT_TSECH LKT_TSECH_TSRC

/-! ### Hallmark (R593, R594) -/

/-- `n` random bytes. -/
def State.random (s : State) (n : Nat) : List Byte := (List.range n).map (Config.randomByte (s.freeUses + 1))

/-- The enrolment in force (R596). -/
def State.enrolled (s : State) : Option HmkSlot := s.enrol.getLast?

/-- A certificate or signature failed in Hallmark (R594). -/
def State.verifyFailed (s : State) : State := (s.raise HMK_EVT HMK_EVT_VERIFY).sendFault blkHMK 0 0x10 clsC 0

/-- Validity periods of certificates are checked (R594). -/
def State.checksDates (s : State) : Bool := s.tsrc == 1 || s.tsrc == 2

end Sys2Proof.Machine
end

