-- ==== Sys2Proof/Machine/Chain.lean ====
section
/-! DEFINITION. The Chain ring (R510 to R536): received and forwarded frames, tags, the angle across the ring, leadership, data
channels. -/

namespace Sys2Proof.Machine

/-! ### Parts of the state -/

/-- The state with the Chain's own part changed. -/
def State.updChn (s : State) (f : Chn → Chn) : State := { s with chn := f s.chn }

/-- Port `p`. -/
def State.port (s : State) (p : Nat) : ChnPort := vat s.chn.ports p

/-- The state with port `p` changed. -/
def State.updPort (s : State) (p : Nat) (f : ChnPort → ChnPort) : State := s.updChn fun c => { c with ports := vupd c.ports p f }

/-- Port `p` is up and authenticated. -/
def State.linkUp (s : State) (p : Nat) : Bool := (s.port p).up && (s.port p).auth

/-- The unit's own fleet unit number (R518). -/
def State.ownUnit (s : State) : Nat :=
  if s.fld CHN_CFG CHN_CFG_AUTH = 1 then s.fld CHN_CFG CHN_CFG_UNIT else s.fld HMK_UNIT HMK_UNIT_UNIT

/-- CHN_PSTAT follows the ports and the member table. -/
def State.chnShow (s : State) : State :=
  s.setReg CHN_PSTAT (BitVec.ofNat 32 (b2n (s.port 0).up + 2 * b2n (s.port 1).up + 4 * b2n (s.port 0).auth + 8 * b2n (s.port 1).auth
    + 2 ^ 8 * capAt 63 (s.chn.members.length + 1)))

/-- The ring key in force: the one drawn at reset until another is taken (R520). -/
def State.ringKey (s : State) : List Byte := s.chn.key.getD ((List.range 16).map (Config.randomByte 0))

/-- The generator of the key in force (R520). -/
def State.keyGen (s : State) : Nat := s.chn.gen.getD s.ownUnit

/-- The unit's quota (R517). -/
def State.ownQuota (s : State) : Nat :=
  (List.range 16).foldl (fun q d => q + if s.bit (CHN_DCFG d) 0 then s.fld (CHN_DCFG d) CHN_DCFG_QUOTA else 0) 0

/-- A member. -/
def State.member (s : State) (u : Nat) : Option ChnMember := s.chn.members.find? fun m => m.unit == u

/-- The state with a member changed. -/
def State.updMember (s : State) (u : Nat) (f : ChnMember → ChnMember) : State :=
  s.updChn fun c => { c with members := c.members.map fun m => if m.unit = u then f m else m }

/-- A member put into the table in ascending order. -/
def insertMember (m : ChnMember) : List ChnMember → List ChnMember
  | [] => [m]
  | x :: t => if m.unit < x.unit then m :: x :: t else x :: insertMember m t

/-! ### Sending (R515, R516, R525) -/

/-- A frame handed to port `p`'s transmitter behind the forwarded ones. -/
def State.sendOn (s : State) (p : Nat) (l : List Byte) : State := s.updPort p fun x => { x with out := x.out ++ [l] }

/-- A frame the unit originates on every authenticated port, covered by its tag (R516, R524). -/
def State.originate (s : State) (typ : Nat) (body : List Byte) : State :=
  let l := mkFrame typ 0 s.ownUnit body
  let s1 := s.updChn fun c => { c with mine := c.mine ++ [l] }
  [0, 1].foldl (fun t p => if t.linkUp p then t.sendOn p l else t) s1

/-- A frame received on port `p` goes on out of the other port (R515): the added delay is that of the link it came by plus its
residence `res`. -/
def State.forward (s : State) (p : Nat) (l : List Byte) (res : Nat) : State :=
  if s.linkUp (1 - p) && (frameSrc l != s.ownUnit) && (frameHop l != 62)
  then s.updPort (1 - p) fun x => { x with fwd := x.fwd ++ [forwarded l ((s.reg (CHN_LDLY p)).toNat + res)] } else s

/-! ### Receiving (R513, R516, R524) -/

/-- A received frame is discarded (R513). -/
def State.discard (s : State) (p : Nat) : State :=
  (((s.updPort p fun x => { x with crc := x.crc + 1 }).count CHN_CNT0 CHN_CNT0_CRC 1).raise CHN_EVT CHN_EVT_CRCERR)

/-- A tag failed, or did not arrive in time (R524). -/
def State.tagFail (s : State) (u : Nat) : State :=
  ((s.count CHN_CNT0 CHN_CNT0_TAG 1).raise CHN_EVT CHN_EVT_TAGFAIL).sendFault blkCHN 0 0x11 clsC u

/-- The preferred port for a member: the one with the lower HOP, CH1 on equal HOP (R516). -/
def ChnMember.pref (m : ChnMember) : Nat :=
  match m.hop0, m.hop1 with
  | some a, some b => if a < b then 0 else 1
  | some _, none => 0
  | none, _ => 1

/-- Frames of a member waiting on port `p`. -/
def ChnMember.buf (m : ChnMember) (p : Nat) : ChnBuf := if p = 0 then m.buf0 else m.buf1

/-- The member with the frames waiting on port `p` replaced. -/
def ChnMember.setBuf (m : ChnMember) (p : Nat) (b : ChnBuf) : ChnMember := if p = 0 then { m with buf0 := b } else { m with buf1 := b }

/-! ### The angle across the ring (R527 to R531) -/

/-- A product of a rate and a time in 1/1000 slot, in ticks, an exact half up. -/
def rateTicks (rate : Word) (t : Nat) : Int := roundDiv ((rate.toNat * t : Nat) : Int) (1000 * 2 ^ 24)

/-- R530 for an error. -/
def State.checkAngle (s : State) (e : Int) (ldr : Nat) : State :=
  let within := decide (e.natAbs ≤ s.fld CHN_ATOL CHN_ATOL_ATOL)
  let s1 := s.updChn fun c => { c with bad := if within then 0 else c.bad + 1, good := if within then c.good + 1 else 0 }
  let s2 :=
    if !within && s1.chn.bad == s1.fld CHN_ACFG CHN_ACFG_NMIS then
      ((s1.setFld CHN_ASTAT CHN_ASTAT_AGREE 0).raise CHN_EVT CHN_EVT_DISAGREE).sendFault blkCHN 0 0x12 clsC ldr
    else if within && s1.chn.good == 16 && s1.fld CHN_ASTAT CHN_ASTAT_AGREE == 0 then
      (s1.setFld CHN_ASTAT CHN_ASTAT_AGREE 1).raise CHN_EVT CHN_EVT_AGREE
    else s1
  if s.fld CHN_ATOL CHN_ATOL_CAPT < e.natAbs
  then ((s2.setFld CHN_ASTAT CHN_ASTAT_FAR 1).raise CHN_EVT CHN_EVT_FAR).sendFault blkCHN 0 0x13 clsU ldr else s2

/-- A ring message acts as a tooth at `ref` (R112, R116, R117, R531): the rate aims at the reference of the next superframe, 4,096
slots on. -/
def State.ringTooth (s : State) (ref rate : Word) : State :=
  let s1 := s.toothAt ref
  let ahead : Int := signedOf 56 (s1.obs.ang - BitVec.ofNat 56 (ref.toNat * 2 ^ 24)).toNat
  let r := max 1 (roundDiv ((rate.toNat : Int) * 4096 - ahead) 4096)
  s1.setReg OBS_RATE (BitVec.ofInt 32 r)

/-- The ring places the word at `ref` (R531). -/
def State.ringPlace (s : State) (ref rate : Word) : State :=
  let s1 := ((s.updObs fun o => { o with ang := BitVec.ofNat 56 (ref.toNat * 2 ^ 24) }).setReg OBS_RATE (if rate = 0 then 1 else rate)).setFld
    OBS_FLAGS OBS_FLAGS_VALID 1
  s1.goSync syncFULL 0

/-- The cause reported for an exit that the spec gives no code (log 7). -/
def State.ringCause (s : State) : Nat := s.freeVal 0x16001 % 16

/-- A verified message of the leader in RING (R531): its sync state and SGEN, the reference now and the rate. -/
def State.ringMessage (s : State) (sync sgen : Nat) (ref rate : Word) : State :=
  let st := s.syncSt
  let ok := sync == syncFULL || sync == syncHOLD
  if st = syncSTOP ∨ st = syncLOST then
    (if ok then (s.goSync syncSEEK 0).updChn fun c => { c with first := true, sgen := sgen } else s)
  else if st = syncSEEK then
    (if ok && s.chn.first then (s.ringPlace ref rate).updChn fun c => { c with first := false, sgen := sgen }
     else s.updChn fun c => { c with first := ok })
  else if st = syncFULL ∨ st = syncHOLD then
    (if !ok || sgen != s.chn.sgen then s.useFree.goSync syncLOST s.ringCause
     else (s.ringTooth ref rate).goSync sync 0)
  else s

/-- The references of a followed message (R527, R531): formed, reported, checked, steered with. -/
def State.useReference (s : State) (u : Nat) (f : ChnFrame) (change : Bool) : State :=
  let b := frameBody f.bytes
  let rate := BitVec.ofNat 32 (field b 4 4)
  let ref := BitVec.ofNat 32 (field b 0 4) + BitVec.ofInt 32 (rateTicks rate (128 * f.delay))
  let s1 := s.setReg CHN_RDLY (BitVec.ofNat 32 f.delay)
  let s2 := match f.ang with
    | some a =>
      let e := wDiff a ref
      let t := s1.setReg CHN_ADIFF (BitVec.ofInt 32 e)
      if s.inRing then t
      else
        let t1 := t.checkAngle e u
        if s.fld CHN_ACFG CHN_ACFG_MODE = 2 then t1.updObs fun o => { o with eSum := o.eSum + e, eCount := o.eCount + 1 } else t1
    | none => s1
  if !s.inRing then s2
  else
    let now := ref + BitVec.ofInt 32 (rateTicks rate (1000 * (s.now - f.at_)))
    let step : Int := (s.fld CHN_ACFG CHN_ACFG_STEP : Nat)
    let off := if change then 0 else s2.chn.off
    let s3 := s2.ringMessage (field b 12 1 % 8) (field b 14 1) (now + BitVec.ofInt 32 off) rate
    let o := match change, s.chn.lastRef with
      | true, some (r, q, t) => wDiff now (r + BitVec.ofInt 32 (rateTicks q (1000 * (s.now - t))))
      | true, none => 0
      | false, _ => off - clampI (-step) step off
    s3.updChn fun c => { c with off := o, lastRef := some (now, rate, s.now) }

/-- Rank of R532: by grade, by LPRIO, by the lower fleet unit number. -/
def outranks (a b : Nat × Nat × Nat) : Bool :=
  decide (b.1 < a.1) || (a.1 == b.1 && (decide (b.2.1 < a.2.1) || (a.2.1 == b.2.1 && decide (a.2.2 < b.2.2))))

/-- Grade, LPRIO and number of a unit. -/
def State.rankOf (s : State) (u : Nat) : Nat × Nat × Nat :=
  if u = s.ownUnit then (s.grade, s.fld CHN_ECFG CHN_ECFG_LPRIO, u)
  else match s.member u with
    | some m => (m.grade, m.lprio, u)
    | none => (0, 0, u)

/-- A verified ANGLE frame of member `u` (R527, R533): the frames with the latest LGEN are followed, among equal ones the
better-ranked sender. -/
def State.useAngle (s : State) (u : Nat) (f : ChnFrame) : State :=
  let g := field (frameBody f.bytes) 15 1
  let cur := s.fld CHN_ASTAT CHN_ASTAT_LGEN
  let d := (g + 256 - cur) % 256
  let later := decide (1 ≤ d ∧ d ≤ 127)
  let leads := s.fld CHN_ASTAT CHN_ASTAT_LEADER == 1
  let mine := if leads then some s.ownUnit else s.chn.fol
  let free := !leads && s.fld CHN_ASTAT CHN_ASTAT_REF == 0
  let take := free || later || (d == 0 && (match mine with
    | some v => v == u || outranks (s.rankOf u) (s.rankOf v)
    | none => true))
  if !take then s
  else
    let change := !free && s.chn.fol != some u
    let s1 := s.updChn fun c => { c with fol := some u, folAge := 0, stop := c.stop || leads }
    let s2 := ((s1.setFld CHN_ASTAT CHN_ASTAT_LDR u).setFld CHN_ASTAT CHN_ASTAT_REF 1).setFld CHN_ASTAT CHN_ASTAT_LGEN g
    if s2.fld CHN_ACFG CHN_ACFG_MODE = 0 then s2 else s2.useReference u f change

/-! ### Using verified frames (R523, R524, R535) -/

/-- An entry that the unit does not take (R535). -/
def State.dataDrop (s : State) : State := (s.count CHN_CNT1 CHN_CNT1_DDROP 1).raise CHN_EVT CHN_EVT_DDROP

/-- A verified DATA frame (R535). -/
def State.useData (s : State) (l : List Byte) : State :=
  let b := frameBody l
  let w := field b 0 4
  let rq := w / 2 ^ 18 % 32
  if w % 2 ^ 18 ≠ s.ownUnit ∧ w / 2 ^ 23 % 2 = 0 then s
  else if !s.bit CHN_RXQ rq then s.dataDrop
  else
    let r := s.qput rq (slice b 4 16)
    if r.2 = qPUT then r.1 else r.1.dataDrop

/-- A member is added to the table, or removed (R523). -/
def State.changeMember (s : State) (u quota : Nat) (add : Bool) : State :=
  if u = s.ownUnit then s
  else if add then
    (if (s.member u).isSome then s
     else (s.updChn fun c => { c with members := insertMember { unit := u, quota := quota } c.members }).chnShow)
  else (s.updChn fun c => { c with members := c.members.filter fun m => m.unit != u }).chnShow

/-- A verified frame of member `u` is used. -/
def State.useFrame (s : State) (u : Nat) (f : ChnFrame) : State :=
  let b := frameBody f.bytes
  let t := frameType f.bytes
  if t = fSTATUS then
    s.updMember u fun m => { m with
      age := 0
      miss := 0
      lastSf := some (BitVec.ofNat 32 (field b 2 4))
      grade := field b 0 1 / 16 % 8
      lprio := field b 1 1 % 16
      cand := field b 1 1 / 16 % 2 == 1 }
  else if t = fANGLE then s.useAngle u f
  else if t = fDATA then s.useData f.bytes
  else if t = fMEMB then s.changeMember (field b 0 4 % 2 ^ 18) (field b 0 4 / 2 ^ 18 % 256) (field b 0 4 / 2 ^ 26 % 2 == 1)
  else s

/-- A STATUS frame of member `m` on port `p` brings the tag of the superframe before: its frames are used or discarded (R524). -/
def State.takeTag (s : State) (p : Nat) (m : ChnMember) (sf : Word) (tag : List Byte) : State :=
  let buf := m.buf p
  if p ≠ m.pref ∨ buf.frames = [] then s
  else
    let n := buf.sf.getD (sf - 1)
    let good := sf == n + 1 && (Config.cmac s.ringKey (tagInput m.unit n (buf.frames.map ChnFrame.bytes))).take 4 == tag
    if !good then s.tagFail m.unit
    else if (match m.lastSf with | some l => wLater n l | none => true)
    then buf.frames.foldl (fun t f => t.useFrame m.unit f) s else s

/-- A frame of the ring arrives on port `p`: discarded under R513, or forwarded and kept for its tag. `res` is the residence of
the forwarded copy in 0.32 ns. -/
def State.ringFrame (s : State) (p : Nat) (typ : Nat) (l : List Byte) (res : Nat) : State :=
  if !s.linkUp p then s
  else if !frameOk l || (s.member (frameSrc l)).isNone && frameSrc l != s.ownUnit then s.discard p
  else if frameType l ≠ typ then s
  else
    let s1 := s.forward p l res
    match s1.member (frameSrc l) with
    | none => s1
    | some m =>
      let d := (if typ = fANGLE then field (frameBody l) 8 4 else 0) + (s.reg (CHN_LDLY p)).toNat
      let f : ChnFrame := { bytes := l, delay := d, ang := if s.placed then some s.angW else none, at_ := s.now }
      if typ = fSTATUS then
        let b := frameBody l
        let sf := BitVec.ofNat 32 (field b 2 4)
        let s2 := s1.updMember m.unit fun x => if p = 0 then { x with hop0 := some (frameHop l) } else { x with hop1 := some (frameHop l) }
        let s3 := match s2.member m.unit with | some x => s2.takeTag p x sf (slice b 6 4) | none => s2
        s3.updMember m.unit fun x => x.setBuf p { sf := some sf, frames := [f], age := 0 }
      else s1.updMember m.unit fun x => x.setBuf p { x.buf p with frames := (x.buf p).frames ++ [f] }

/-! ### Leadership (R532, R533) -/

/-- The STATUS of a member was verified in the last 4 superframes. -/
def ChnMember.recent (m : ChnMember) : Bool := m.lastSf.isSome && decide (m.age ≤ 4)

/-- The unit itself is a candidate. -/
def State.selfCand (s : State) : Bool :=
  s.fld CHN_ECFG CHN_ECFG_CAND == 1 && !s.inRing && decide (s.fld CHN_ECFG CHN_ECFG_MINGR ≤ s.grade)

/-- The candidates. -/
def State.candidates (s : State) : List Nat :=
  (if s.selfCand then [s.ownUnit] else []) ++
    (s.chn.members.filter fun m => m.recent && m.cand && decide (s.fld CHN_ECFG CHN_ECFG_MINGR ≤ m.grade)).map ChnMember.unit

/-- The best-ranked of a list of units. -/
def State.bestRanked (s : State) : List Nat → Option Nat
  | [] => none
  | u :: t => match s.bestRanked t with
    | none => some u
    | some v => some (if outranks (s.rankOf v) (s.rankOf u) then v else u)

/-- The HYST counts against the sitting leader of grade `g`. -/
def State.countBetter (s : State) (sit : Nat) (g : Nat) : State :=
  let cs := s.candidates
  let up (u n k : Nat) : Nat := if cs.contains u && u != sit && decide (g < k) then n + 1 else 0
  s.updChn fun c => { c with
    better := up s.ownUnit c.better s.grade
    members := c.members.map fun m => { m with better := up m.unit m.better m.grade } }

/-- The sitting leader is to be replaced (R532). -/
def State.mustReplace (s : State) (u : Nat) : Bool :=
  let h := s.fld CHN_ECFG CHN_ECFG_HYST
  let gone := u != s.ownUnit && (match s.member u with | some m => !m.recent | none => true)
  gone || decide ((s.rankOf u).1 < s.fld CHN_ECFG CHN_ECFG_MINGR) || decide (h ≤ s.chn.better)
    || s.chn.members.any fun m => decide (h ≤ m.better)

/-- The election at a superframe end. -/
def State.election (s : State) : State :=
  let s0 := if s.chn.stop then (s.setFld CHN_ASTAT CHN_ASTAT_LEADER 0).updChn fun c => { c with stop := false } else s
  let s1 := match s0.chn.sit with | some u => s0.countBetter u (s0.rankOf u).1 | none => s0
  let keep := match s1.chn.sit with | some u => !s1.mustReplace u | none => false
  if keep then s1
  else
    let new := s1.bestRanked s1.candidates
    let s2 := s1.updChn fun c => { c with sit := new, better := 0, members := c.members.map fun m => { m with better := 0 } }
    let s3 := if new = s1.chn.sit then s2 else s2.raise CHN_EVT CHN_EVT_LCHG
    if new = some s.ownUnit ∧ s3.fld CHN_ASTAT CHN_ASTAT_LEADER = 0 then
      ((s3.setFld CHN_ASTAT CHN_ASTAT_LEADER 1).setFld CHN_ASTAT CHN_ASTAT_LGEN (s3.fld CHN_ASTAT CHN_ASTAT_LGEN + 1)).raise CHN_EVT
        CHN_EVT_LEADER
    else s3

/-! ### Authentication (R518 to R522) -/

/-- The part of a port that belongs to one authentication, begun anew with a nonce and an ephemeral key. -/
def State.startAuth (s : State) (p : Nat) : State :=
  (s.updPort p fun x => { x with
    auth := false
    t0 := none
    nonce := s.random 16
    seed := s.freeVal 0x16002
    hello := none
    dev := none
    own := none
    offer := none
    rkey := none
    mtab := none
    pair := none
    keyed := false
    tx := []
    rx := []
    rxN := 0 }).useFree.chnShow

/-- Both ends treat the link as down for 1 s (R520): JOINREF is set and counted, and a message names the other end. -/
def State.linkRefused (s : State) (p : Nat) : State :=
  let u := match (s.port p).offer with | some o => o.2.1 | none => 0
  let s1 := s.startAuth p
  (((s1.updPort p fun x => { x with hold := some (s.now + 400000000) }).count CHN_CNT1 CHN_CNT1_JOINREF 1).raise CHN_EVT
    CHN_EVT_JOINREF).sendFault blkCHN 0 0x10 clsC u

/-- The fragments of an item leave on port `p`. -/
def State.sendItem (s : State) (p : Nat) (isKey : Bool) (item : Nat) (data : List Byte) : State :=
  s.updPort p fun x => { x with out := x.out ++ fragments (if isKey then fKEY else fAUTH) s.ownUnit item data }

/-- An item that is to be acknowledged is sent. -/
def State.offerItem (s : State) (p : Nat) (isKey : Bool) (item : Nat) (data : List Byte) : State :=
  (s.sendItem p isKey item data).updPort p fun x => { x with tx := x.tx ++ [{ isKey := isKey, item := item, data := data }] }

/-- ABORT with a reason (R519). -/
def State.abortAuth (s : State) (p reason : Nat) : State :=
  (s.sendItem p false 6 (toBytes 1 reason)).linkRefused p

/-- A certificate as an item: its length, then its bytes. -/
def certItem (c : List Byte) : List Byte := toBytes 2 c.length ++ c

/-- A certificate out of an item. -/
def itemCert (d : List Byte) : List Byte := (d.drop 2).take (field d 0 2)

/-- HELLO of the other end (R519): a different mode aborts; else the certificates and the OFFER are sent. -/
def State.takeHello (s : State) (p : Nat) (d : List Byte) : State :=
  let mode := field d 16 1
  if mode ≠ s.fld CHN_CFG CHN_CFG_AUTH then s.abortAuth p 4
  else if (s.port p).hello.isSome then s
  else
    let nonce := slice d 0 16
    let s1 := s.updPort p fun x => { x with hello := some (nonce, mode) }
    let s2 := s1.offerItem p false 2 (certItem Config.devCert)
    let s3 := if mode = 0 then s2.offerItem p false 3 (certItem (match s.enrolled with | some e => e.cert | none => [])) else s2
    let head := toBytes 1 s.ownQuota ++ toBytes 3 s.ownUnit ++ toBytes 4 0 ++ Config.ecdhPub (s.port p).seed
    s3.offerItem p false 4 (head ++ Config.ecdsaSign Config.devPrivate (head ++ nonce))

/-- The member table as the item MTAB holds it (R521). -/
def State.tableItem (s : State) : List Byte :=
  let own : ChnMember := { unit := s.ownUnit, quota := s.ownQuota }
  toBytes 1 (s.chn.members.length + 1) ++ (insertMember own s.chn.members).flatMap fun m =>
    toBytes 4 (m.unit + 2 ^ 18 * (m.quota % 256))

/-- The KEY items of this end (R521). -/
def State.sendKey (s : State) (p : Nat) (pair : List Byte) : State :=
  let kid := toBytes 4 (s.keyGen + 2 ^ 18 * s.chn.cnt)
  let same := match (s.port p).rkey with | some r => slice r 0 4 == kid | none => false
  let rkey := if same then kid else kid ++ Config.keyWrap pair s.ringKey
  let mt := s.tableItem
  ((s.offerItem p true 1 rkey).offerItem p true 2 mt).offerItem p true 3 (Config.cmac pair (rkey ++ mt))

/-- The certificates of the other end verify (R518); an owner certificate is one for its device key, carrying its unit number. -/
def State.certsOk (s : State) (p : Nat) (unit : Nat) : Bool :=
  let x := s.port p
  let vp := s.checksDates
  let sec := s.calSec
  match x.dev with
  | none => false
  | some d =>
    Config.certOk Config.caKey d vp sec &&
      (s.fld CHN_CFG CHN_CFG_AUTH == 1 || match x.own, s.enrolled with
        | some o, some e => Config.certOk e.rootk o vp sec && Config.certKey o == Config.certKey d && Config.certUnit o == unit
        | _, _ => false)

/-- OFFER of the other end: checked, the pairwise key derived, and the KEY items sent (R518 to R521). -/
def State.takeOffer (s : State) (p : Nat) (d : List Byte) : State :=
  let x := s.port p
  let unit := field d 1 3 % 2 ^ 18
  let pub := slice d 8 64
  match x.hello, x.dev with
  | some (nonce, _), some dev =>
    if !s.certsOk p unit then s.verifyFailed.abortAuth p 1
    else if !Config.ecdsaOk (Config.certKey dev) (slice d 0 72 ++ x.nonce) (slice d 72 64) then s.verifyFailed.abortAuth p 2
    else
      let salt := if s.ownUnit < unit then x.nonce ++ nonce else nonce ++ x.nonce
      let pair := Config.hkdf (Config.ecdhShared x.seed pub) salt
      (s.updPort p fun y => { y with offer := some (field d 0 1, unit, pub), pair := some pair }).sendKey p pair
  | _, _ => s.abortAuth p 1

/-- The other end may be admitted (R520). -/
def State.admits (s : State) (unit quota : Nat) : Bool :=
  (s.member unit).isNone && unit != s.ownUnit && decide (s.chn.members.length + 1 < 64)
    && decide (s.chn.members.foldl (fun n m => n + 1 + m.quota) (1 + s.ownQuota + 1 + quota) ≤ 194)

/-- MEMB frames are to go out in the next 4 superframes (R523). -/
def State.announce (s : State) (u quota : Nat) (add : Bool) : State :=
  s.updChn fun c => { c with memb := c.memb ++ [(u, quota, add, 4)] }

/-- The members named by an MTAB item, but for this unit. -/
def tableMembers (own : Nat) (d : List Byte) : List ChnMember :=
  ((List.range (field d 0 1)).map fun i =>
    ({ unit := field d (1 + 4 * i) 4 % 2 ^ 18, quota := field d (1 + 4 * i) 4 / 2 ^ 18 % 256 } : ChnMember)).filter fun m => m.unit != own

/-- MAC of the other end: the KEY items are taken (R521, R522). -/
def State.takeMac (s : State) (p : Nat) (d : List Byte) : State :=
  let x := s.port p
  match x.pair, x.rkey, x.mtab, x.offer with
  | some pair, some rk, some mt, some (quota, unit, _) =>
    if Config.cmac pair (rk ++ mt) ≠ slice d 0 16 then s.abortAuth p 2
    else
      let gen := field rk 0 4 % 2 ^ 18
      let cnt := field rk 0 4 / 2 ^ 18 % 256
      let done (t : State) : State := t.updPort p fun y => { y with keyed := true }
      if gen = s.keyGen ∧ cnt = s.chn.cnt then done s
      else if s.keyGen < gen ∨ (gen = s.keyGen ∧ cnt < s.chn.cnt) then
        (if s.admits unit quota then done ((s.changeMember unit quota true).announce unit quota true) else s.abortAuth p 3)
      else
        match Config.keyUnwrap pair (rk.drop 4) with
        | none => s.abortAuth p 2
        | some k =>
          done (State.chnShow (s.updChn fun c => { c with
            key := some k
            gen := some gen
            cnt := cnt
            members := (tableMembers s.ownUnit mt).foldl (fun l m => insertMember m l) [] }))
  | _, _, _, _ => s.abortAuth p 2

/-- A whole item of the other end. -/
def State.takeItem (s : State) (p : Nat) (isKey : Bool) (item : Nat) (d : List Byte) : State :=
  if isKey then
    if item = 1 then s.updPort p fun x => { x with rkey := some (if d.length < 28 then slice d 0 4 else
      (if slice d 4 24 = List.replicate 24 0 then slice d 0 4 else slice d 0 28)) }
    else if item = 2 then s.updPort p fun x => { x with mtab := some (slice d 0 (1 + 4 * field d 0 1)) }
    else s.takeMac p d
  else if item = 1 then s.takeHello p d
  else if item = 2 then s.updPort p fun x => { x with dev := some (itemCert d) }
  else if item = 3 then s.updPort p fun x => { x with own := some (itemCert d) }
  else s.takeOffer p d

/-- The items of AUTH and KEY frames (R519, R521). -/
def itemKnown (isKey : Bool) (item : Nat) : Bool :=
  if isKey then [1, 2, 3, 5].contains item else decide (1 ≤ item ∧ item ≤ 6)

/-- An AUTH or KEY frame arrives on port `p`. -/
def State.authFrame (s : State) (p : Nat) (isKey : Bool) (l : List Byte) : State :=
  let x := s.port p
  if !x.up || x.hold.isSome then s
  else if !frameOk l then s.discard p
  else if frameType l ≠ (if isKey then fKEY else fAUTH) then s
  else
    let b := frameBody l
    let item := field b 0 1 % 16
    let frag := field b 1 1
    let n := field b 2 1
    let data := slice b 4 54
    if !itemKnown isKey item || field b 0 1 / 16 != 0 || field b 3 1 != 0 || n = 0 || 19 < n || n ≤ frag then s.discard p
    else if item = 5 then
      s.updPort p fun y => { y with tx := y.tx.map fun t =>
        if t.isKey == isKey && t.item == field data 0 1 then { t with acked := true } else t }
    else if !isKey && item == 6 then s.linkRefused p
    else if x.auth then s
    else
      let old := if x.rxKey == isKey && x.rxItem == item && x.rxN == n then x.rx else []
      let rx := (frag, data) :: old.filter fun q => q.1 != frag
      let s1 := s.updPort p fun y => { y with rxKey := isKey, rxItem := item, rxN := n, rx := rx }
      if rx.length < n then s1
      else
        let whole := (List.range n).flatMap fun i => match rx.find? fun q => q.1 == i with | some q => q.2 | none => []
        let s2 := (s1.updPort p fun y => { y with rx := [], rxN := 0 }).sendItem p isKey 5 (toBytes 1 item)
        s2.takeItem p isKey item whole

/-! ### The superframe (R511, R516, R524, R531) -/

/-- The time-driven part of R531 at a superframe end. -/
def State.ringMissing (s : State) : State :=
  if !s.inRing then s
  else if s.syncSt = syncSEEK then (if 2 ≤ s.chn.folAge then s.updChn fun c => { c with first := false } else s)
  else if s.fires then
    (if 5 ≤ s.chn.folAge then s.useFree.goSync syncSTOP s.ringCause
     else if 2 ≤ s.chn.folAge then s.goSync syncHOLD 0 else s)
  else s

/-- Every count of superframes steps on. -/
def State.ageChain (s : State) : State :=
  let agedBuf (b : ChnBuf) : ChnBuf := { b with age := b.age + 1 }
  let s1 := s.updChn fun c => { c with
    count := c.count + 1
    folAge := c.folAge + 1
    alone := if (vat c.ports 0).auth || (vat c.ports 1).auth then 0 else c.alone + 1
    members := c.members.map fun m =>
      let swap := decide (4 ≤ m.miss)
      let m1 := { m with age := m.age + 1, miss := if swap then 0 else m.miss + 1, buf0 := agedBuf m.buf0, buf1 := agedBuf m.buf1 }
      if swap then (if m.pref = 0 then { m1 with hop0 := none } else { m1 with hop1 := none }) else m1
    ports := Vector.map (fun x => { x with
      crc := 0
      fwd := []
      out := []
      dreq := x.dreq.map fun d => (d.1, d.2 + 1)
      tx := x.tx.map fun t => { t with age := t.age + 1 } }) c.ports }
  if 5 ≤ s1.chn.folAge then s1.setFld CHN_ASTAT CHN_ASTAT_REF 0 else s1

/-- A link whose KEY items are all acknowledged counts as authenticated (R521). -/
def State.joinLinks (s : State) : State :=
  [0, 1].foldl (fun t p =>
    let x := t.port p
    if x.up && !x.auth && x.keyed && x.tx.all (fun i => !i.isKey || i.acked)
    then ((t.updPort p fun y => { y with auth := true, t0 := none, tx := [] }).chnShow).raise CHN_EVT CHN_EVT_JOIN else t) s

/-- A delay request leaves on port `p` (R525, R526). -/
def State.sendDreq (s : State) (p : Nat) : State :=
  let x := s.port p
  (s.sendOn p (mkFrame fDREQ 0 s.ownUnit (toBytes 4 x.rseq))).updPort p fun y =>
    { y with dreq := some (x.rseq % 2 ^ 32, 0), rseq := (x.rseq + 1) % 2 ^ 32 }

/-- HELLO leaves on every port that still waits for the other end's (R519). -/
def State.sendHello (s : State) (p : Nat) : State :=
  let x := s.port p
  if x.up && !x.auth && x.hold.isNone && x.hello.isNone
  then (s.sendItem p false 1 (x.nonce ++ toBytes 1 (s.fld CHN_CFG CHN_CFG_AUTH))).updPort p fun y =>
    { y with t0 := some (y.t0.getD s.now) }
  else s

/-- Body of the STATUS frame (R524). -/
def State.statusBody (s : State) (sf : Word) (tag : List Byte) : List Byte :=
  toBytes 1 (s.syncSt + 16 * s.grade) ++ toBytes 1 (s.fld CHN_ECFG CHN_ECFG_LPRIO + 16 * s.fld CHN_ECFG CHN_ECFG_CAND)
    ++ toBytes 4 sf.toNat ++ tag

/-- Body of the ANGLE frame (R525). -/
def State.angleBody (s : State) : List Byte :=
  wordsToBytes [s.obsAng, s.reg OBS_RATE, 0] ++ toBytes 1 s.syncSt ++ toBytes 1 s.grade
    ++ toBytes 1 (s.fld OBS_STATE OBS_STATE_SGEN) ++ toBytes 1 (s.fld CHN_ASTAT CHN_ASTAT_LGEN)

/-- The MEMB frames that are due (R523). -/
def State.sendMemb (s : State) : State :=
  let s1 : State := s.chn.memb.foldl (fun t m =>
    t.originate fMEMB (toBytes 4 (m.1 + 2 ^ 18 * (m.2.1 % 256) + 2 ^ 26 * b2n m.2.2.1))) s
  s1.updChn fun c => { c with memb := (c.memb.map fun m => (m.1, m.2.1, m.2.2.1, m.2.2.2 - 1)).filter fun m => m.2.2.2 != 0 }

/-- A superframe begins: the one before is closed, the election held, and the unit's own frames of this one go out. -/
def State.superframe (s : State) : State :=
  let s1 := (s.ageChain.ringMissing.joinLinks).election
  let tag := (Config.cmac s1.ringKey (tagInput s1.ownUnit s1.chn.sfseq s1.chn.mine)).take 4
  let sf := s1.chn.sfseq + 1
  let s2 := s1.updChn fun c => { c with sfseq := sf, mine := [], used := Vector.replicate 16 0 }
  let s3 := (s2.originate fSTATUS (s2.statusBody sf tag)).sendMemb
  let s4 := if s3.fld CHN_ASTAT CHN_ASTAT_LEADER = 1 then s3.originate fANGLE s3.angleBody else s3
  let s5 := (s4.sendHello 0).sendHello 1
  if s5.chn.count % 1024 = 0 then [0, 1].foldl (fun t p => if t.linkUp p then t.sendDreq p else t) s5 else s5

/-! ### Registers (R530, R531, R548, R549) -/

/-- Port `p` is enabled. -/
def State.portOn (s : State) (p : Nat) : Bool := s.bit CHN_APPLIED p

/-- The chapter's own conditions for a write to a CHN register. -/
def State.chnLegal (s : State) (addr : Nat) (w : Word) : Bool :=
  if addr = CHN_ACFG then CHN_ACFG_MODE.get w != 3 || s.fld OBS_CFG OBS_CFG_EN == 0
  else if addr = CHN_ATOL then decide (1 ≤ CHN_ATOL_ATOL.get w ∧ CHN_ATOL_ATOL.get w < CHN_ATOL_CAPT.get w)
  else if addr = CHN_ACORR then s.fld CHN_ACFG CHN_ACFG_MODE != 2
  else true

/-- What "disabled" means for the RWC fields of a CHN register. -/
def State.chnLocked (s : State) (o : Nat) : Bool :=
  if 0x100 ≤ o ∧ o < 0x180 then s.bit (CHN_DCFG ((o - 0x100) / 8)) 0 else s.fld CHN_APPLIED CHN_APPLIED_EN != 0

/-- The requested port enables come into force: a disabled port is down and holds nothing. -/
def State.chnApply (s : State) : State :=
  let w := s.reg CHN_CTRL
  let s1 : State := [0, 1].foldl (fun t p => if bitOf w p then t else t.updPort p fun _ => {}) s
  ((s1.setFld CHN_APPLIED CHN_APPLIED_EN (CHN_CTRL_EN.get w)).setFld CHN_APPLIED CHN_APPLIED_GEN (CHN_CTRL_GEN.get w)).chnShow

/-- A write to a CHN register. Leaving RING ends it as a disabled observer does. -/
def State.chnWrite (s : State) (addr : Nat) (w : Word) : State :=
  s.writeWith addr w (s.chnLocked (addr % 0x10000)) (s.chnLegal addr w) fun t =>
    if addr = CHN_CTRL then t.chnApply
    else if addr = CHN_CMD then (if bitOf w 0 then t.setFld CHN_ASTAT CHN_ASTAT_FAR 0 else t)
    else if addr = CHN_ACFG ∧ s.inRing ∧ !t.inRing then t.obsDisabled
    else t

/-! ### Commands -/

/-- `SUPERFRAME_START` (R511). -/
def execSuperframeStart (s : State) : Host.Outcome State Fault Refusal := .next s.superframe

/-- `STATUS_FRAME` (R524): a STATUS frame arrives on port `p`; the tag it carries verifies or discards the frames of the superframe
before. -/
def execStatusFrame (p : Fin 2) (bytes : List Byte) (res : Nat) (s : State) : Host.Outcome State Fault Refusal :=
  .next (s.ringFrame p fSTATUS bytes res)

/-- `ANGLE_FRAME` (R525, R527): an ANGLE frame arrives on port `p`; it is used once its tag has verified. -/
def execAngleFrame (p : Fin 2) (bytes : List Byte) (res : Nat) (s : State) : Host.Outcome State Fault Refusal :=
  .next (s.ringFrame p fANGLE bytes res)

/-- `DATA_FRAME` (R535): a DATA frame arrives on port `p`; it is used once its tag has verified. -/
def execDataFrame (p : Fin 2) (bytes : List Byte) (res : Nat) (s : State) : Host.Outcome State Fault Refusal :=
  .next (s.ringFrame p fDATA bytes res)

/-- `MEMB_FRAME` (R523): a MEMB frame arrives on port `p`; it is used once its tag has verified. -/
def execMembFrame (p : Fin 2) (bytes : List Byte) (res : Nat) (s : State) : Host.Outcome State Fault Refusal :=
  .next (s.ringFrame p fMEMB bytes res)

/-- `TAG_TIMEOUT` (R524): the frames of a member on port `p` whose tag has not arrived within 2 superframes are discarded. -/
def execTagTimeout (unit : BitVec 18) (p : Fin 2) (s : State) : Host.Outcome State Fault Refusal :=
  match s.member unit.toNat with
  | none => .next s
  | some m =>
    let b := m.buf p
    .next (if 2 ≤ b.age ∧ b.frames ≠ []
      then (s.updMember unit.toNat fun x => x.setBuf p {}).tagFail unit.toNat else s)

/-- `DATA_CHANNEL_SEND` (R535, R536): data channel `d` takes an entry from its queue and sends it, within quota and budget. -/
def execDataChannelSend (d : Fin 16) (s : State) : Host.Outcome State Fault Refusal :=
  let ports := ([0, 1].filter s.linkUp).length
  let q := s.fld (CHN_DCFG d) CHN_DCFG_TXQ
  let acct := some (s.fld (CHN_DCFG d) CHN_DCFG_ACCT)
  if !s.bit (CHN_DCFG d) 0 || ports = 0 || s.qCount q = 0 || s.fld (CHN_DCFG d) CHN_DCFG_QUOTA < vat s.chn.used d + 2 then .next s
  else if !s.budHas acct resCHAIN (2 * ports) then .next (s.budStarve acct resCHAIN)
  else
    let w := s.reg (CHN_DDST d)
    let s1 := (s.budDraw acct resCHAIN (2 * ports)).qpop q 1
    let s2 := s1.updChn fun c => { c with used := vupd c.used d fun n => n + 2 }
    .next (s2.originate fDATA (toBytes 4 (w.toNat % 2 ^ 24) ++ s.qOldest q))

/-- `DREQ_FRAME` (R526): a delay request arrives on port `p` and is answered; `turn` is t3 - t2 in 0.32 ns. -/
def execDreqFrame (p : Fin 2) (bytes : List Byte) (turn : Word) (s : State) : Host.Outcome State Fault Refusal :=
  .next (if !s.linkUp p then s
    else if !frameOk bytes then s.discard p
    else if frameType bytes ≠ fDREQ then s
    else s.sendOn p (mkFrame fDRSP 0 s.ownUnit (slice (frameBody bytes) 0 4 ++ toBytes 4 turn.toNat)))

/-- `DRSP_FRAME` (R525): the answer to the outstanding delay request arrives on port `p`; `elapsed` is t4 - t1 in 0.32 ns. -/
def execDrspFrame (p : Fin 2) (bytes : List Byte) (elapsed : Word) (s : State) : Host.Outcome State Fault Refusal :=
  let b := frameBody bytes
  .next (if !s.linkUp p then s
    else if !frameOk bytes then s.discard p
    else if frameType bytes ≠ fDRSP then s
    else match (s.port p).dreq with
      | some (r, _) =>
        if field b 0 4 = r
        then (s.updPort p fun x => { x with dreq := none }).setReg (CHN_LDLY p) (BitVec.ofNat 32 ((elapsed.toNat - field b 4 4) / 2))
        else s
      | none => s)

/-- `DREQ_TIMEOUT` (R526): no matching answer within 8 superframes; a new request is sent. -/
def execDreqTimeout (p : Fin 2) (s : State) : Host.Outcome State Fault Refusal :=
  match (s.port p).dreq with
  | some (_, n) => .next (if 8 ≤ n then s.sendDreq p else s)
  | none => .next s

/-- `AUTH_FRAME` (R519): an AUTH frame arrives on port `p`. -/
def execAuthFrame (p : Fin 2) (bytes : List Byte) (s : State) : Host.Outcome State Fault Refusal :=
  .next (s.authFrame p false bytes)

/-- `KEY_FRAME` (R521): a KEY frame arrives on port `p`. -/
def execKeyFrame (p : Fin 2) (bytes : List Byte) (s : State) : Host.Outcome State Fault Refusal :=
  .next (s.authFrame p true bytes)

/-- `AUTH_ITEM_RESEND` (R519): an item not acknowledged within 64 superframes is sent again whole. -/
def execAuthItemResend (p : Fin 2) (s : State) : Host.Outcome State Fault Refusal :=
  match (s.port p).tx.find? fun t => !t.acked && decide (64 ≤ t.age) with
  | some i => .next ((s.sendItem p i.isKey i.item i.data).updPort p fun x => { x with tx := x.tx.map fun t =>
      if t.isKey == i.isKey && t.item == i.item then { t with age := 0 } else t })
  | none => .next s

/-- `AUTH_TIMEOUT` (R519): the exchange has not completed within 100 ms of the first HELLO. -/
def execAuthTimeout (p : Fin 2) (s : State) : Host.Outcome State Fault Refusal :=
  match (s.port p).t0 with
  | some t => .next (if t + 40000000 ≤ s.now ∧ !(s.port p).auth then s.abortAuth p 5 else s)
  | none => .next s

/-- `LINK_HOLDOFF_END` (R520): the 1 s link-down after a refused join ends. -/
def execLinkHoldoffEnd (p : Fin 2) (s : State) : Host.Outcome State Fault Refusal :=
  match (s.port p).hold with
  | some t => .next (if t ≤ s.now then (s.updPort p fun x => { x with hold := none }).startAuth p else s)
  | none => .next s

/-- `RING_OF_ONE` (R520): with no member neighbour for 32 superframes the unit is a ring of one and keeps its key. -/
def execRingOfOne (s : State) : Host.Outcome State Fault Refusal :=
  .next (if 32 ≤ s.chn.alone then (s.updChn fun c => { c with members := [], memb := [] }).chnShow else s)

/-- `MEMBER_TIMEOUT` (R522): a member whose STATUS frames stay unverified for 32 superframes is removed. -/
def execMemberTimeout (unit : BitVec 18) (s : State) : Host.Outcome State Fault Refusal :=
  match s.member unit.toNat with
  | some m => .next (if 32 < m.age then (s.changeMember m.unit 0 false).announce m.unit m.quota false else s)
  | none => .next s

/-- `PORT_DOWN` (R534): port `p` has lost the sync ordered sets, or counted too many code errors or CRC failures. -/
def execPortDown (p : Fin 2) (s : State) : Host.Outcome State Fault Refusal :=
  if !(s.port p).up then .next s
  else
    let s1 := (((s.updPort p fun _ => {}).chnShow).raise CHN_EVT (CHN_EVT_DOWN0 + p)).sendFault blkCHN 0 0x14 clsC 0
    .next (if (s1.port (1 - p)).up then s1 else (s1.raise CHN_EVT CHN_EVT_ISOL).sendFault blkCHN 0 0x15 clsU 0)

/-- `PORT_RETRAIN` (R518, R534): the receiver of port `p` has locked to the comma; authentication begins. -/
def execPortRetrain (p : Fin 2) (s : State) : Host.Outcome State Fault Refusal :=
  .next (if s.portOn p && !(s.port p).up
    then ((s.updPort p fun x => { x with up := true }).startAuth p).raise CHN_EVT (CHN_EVT_UP0 + p) else s)

/-- `CHN_CTRL_WRITE` (R548): a write to CHN_CTRL. -/
def execChnCtrlWrite (w : Word) (s : State) : Host.Outcome State Fault Refusal := .next (s.chnWrite CHN_CTRL w)

/-- `CLRFAR` (R530): a write to CHN_CMD. -/
def execClrfar (w : Word) (s : State) : Host.Outcome State Fault Refusal := .next (s.chnWrite CHN_CMD w)

end Sys2Proof.Machine
end

