-- ==== Sys2Proof/Machine/Float.lean ====
section
/-! DEFINITION. IEEE 754 binary32 arithmetic with the decisions of R237: exact integers, rounded once. A result comes with the
exception flags of R236 it raises. -/

namespace Sys2Proof.Machine

/-! ### Flags, rounding modes, classes -/

/-- Flags of FCSR.FLAGS (R236), lowest bit first. -/
abbrev fxIV : Nat := 1
abbrev fxDZ : Nat := 2
abbrev fxOF : Nat := 4
abbrev fxUF : Nat := 8
abbrev fxIX : Nat := 16

/-- A binary32 value: NaN, infinity, or `m * 2 ^ e` with a sign. -/
inductive FNum where
  | nan
  | inf (neg : Bool)
  | fin (neg : Bool) (m : Nat) (e : Int)
  deriving DecidableEq, Repr

/-- The value a word holds. -/
def fUnpack (w : Word) : FNum :=
  let neg := bitOf w 31
  let x : Nat := w.toNat / 2 ^ 23 % 256
  let f : Nat := w.toNat % 2 ^ 23
  if x = 255 then (if f = 0 then .inf neg else .nan)
  else if x = 0 then .fin neg f (-149)
  else .fin neg (2 ^ 23 + f) ((x : Int) - 150)

/-- The default NaN. -/
abbrev fNaN : Word := 0x7FFFFFFF

/-- The word is a NaN, a signalling one, a finite number. -/
def fIsNaN (w : Word) : Bool := fUnpack w == .nan
def fIsSNaN (w : Word) : Bool := fIsNaN w && !bitOf w 22
def fFinite (w : Word) : Bool := w.toNat / 2 ^ 23 % 256 != 255

/-- The first NaN operand with its quiet bit set, and IV for a signalling NaN among the operands (R237). -/
def fNaNOf (ops : List Word) : Option (Word × Nat) :=
  match ops.find? fIsNaN with
  | some w => some (w ||| 0x00400000, if ops.any fIsSNaN then fxIV else 0)
  | none => none

/-- A zero or an infinity with a sign. -/
def fZero (neg : Bool) : Word := if neg then 0x80000000 else 0
def fInf (neg : Bool) : Word := if neg then 0xFF800000 else 0x7F800000

/-! ### Rounding -/

/-- The bits of a number. -/
def bitLen (n : Nat) : Nat := if n = 0 then 0 else Nat.log2 n + 1

/-- Rounding adds one unit to a magnitude: `rem` of `2 ^ sh` units below it, and something more where `sticky` (R236: RM 0 to
nearest with ties to even, 1 toward +infinity, 2 toward -infinity, 3 toward zero). -/
def fRoundUp (rm : Nat) (neg : Bool) (mant rem sh : Nat) (sticky : Bool) : Bool :=
  let half := 2 ^ sh / 2
  if rm = 0 then decide (half < rem) || (decide (rem = half ∧ 0 < sh) && (sticky || mant % 2 == 1))
  else if rm = 1 then !neg && (decide (0 < rem) || sticky)
  else if rm = 2 then neg && (decide (0 < rem) || sticky)
  else false

/-- An exact magnitude `m * 2 ^ e`, or (where `sticky`) a little more, rounded to binary32. Tininess is detected before rounding.
A sticky magnitude has at least 26 bits. -/
def fRoundMag (rm : Nat) (neg : Bool) (m : Nat) (e : Int) (sticky : Bool) : Word × Nat :=
  if m = 0 then (fZero neg, 0)
  else
    let top : Int := e + bitLen m
    let q : Int := max (top - 24) (-149)
    let sh := (q - e).toNat
    let m1 := if q ≤ e then m * 2 ^ (e - q).toNat else m / 2 ^ sh
    let rem := if q ≤ e then 0 else m % 2 ^ sh
    let inexact := decide (0 < rem) || sticky
    let m2 := m1 + b2n (fRoundUp rm neg m1 rem sh sticky)
    let q2 : Int := if m2 = 2 ^ 24 then q + 1 else q
    let m3 := if m2 = 2 ^ 24 then 2 ^ 23 else m2
    if 104 < q2 then
      let toInf := rm == 0 || (rm == 1 && !neg) || (rm == 2 && neg)
      (if toInf then fInf neg else fInf neg - 1, fxOF + fxIX)
    else
      let tiny := decide (top - 1 < -126)
      (BitVec.ofNat 32 (b2n neg * 2 ^ 31 + (q2 + 149).toNat * 2 ^ 23 + m3), if inexact then (if tiny then fxUF + fxIX else fxIX) else 0)

/-- An exact signed number `i * 2 ^ e` rounded; a zero takes the sign `zneg`. -/
def fRoundInt (rm : Nat) (i : Int) (e : Int) (zneg : Bool) : Word × Nat :=
  if i = 0 then (fZero zneg, 0) else fRoundMag rm (decide (i < 0)) i.natAbs e false

/-- Signed magnitude. -/
def signedMag (neg : Bool) (m : Nat) : Int := if neg then -(m : Int) else m

/-! ### Arithmetic -/

/-- The sum of two finite values. -/
def fAddFin (rm : Nat) (na : Bool) (ma : Nat) (ea : Int) (nb : Bool) (mb : Nat) (eb : Int) : Word × Nat :=
  let e := min ea eb
  let i := signedMag na (ma * 2 ^ (ea - e).toNat) + signedMag nb (mb * 2 ^ (eb - e).toNat)
  fRoundInt rm i e (if ma = 0 ∧ mb = 0 ∧ na = nb then na else rm == 2)

/-- Addition. -/
def fAddX (rm : Nat) (a b : Word) : Word × Nat :=
  match fNaNOf [a, b], fUnpack a, fUnpack b with
  | some r, _, _ => r
  | none, .inf na, .inf nb => if na = nb then (fInf na, 0) else (fNaN, fxIV)
  | none, .inf na, _ => (fInf na, 0)
  | none, _, .inf nb => (fInf nb, 0)
  | none, .fin na ma ea, .fin nb mb eb => fAddFin rm na ma ea nb mb eb
  | none, .nan, _ => (fNaN, 0)
  | none, _, .nan => (fNaN, 0)

/-- The word with its sign changed. -/
def fNeg (w : Word) : Word := w ^^^ 0x80000000

/-- The word without its sign. -/
def fAbs (w : Word) : Word := w &&& 0x7FFFFFFF

/-- Subtraction: a NaN operand keeps its sign. -/
def fSubX (rm : Nat) (a b : Word) : Word × Nat :=
  match fNaNOf [a, b] with
  | some r => r
  | none => fAddX rm a (fNeg b)

/-- Multiplication. -/
def fMulX (rm : Nat) (a b : Word) : Word × Nat :=
  match fNaNOf [a, b], fUnpack a, fUnpack b with
  | some r, _, _ => r
  | none, .inf na, .inf nb => (fInf (na != nb), 0)
  | none, .inf na, .fin nb mb _ => if mb = 0 then (fNaN, fxIV) else (fInf (na != nb), 0)
  | none, .fin na ma _, .inf nb => if ma = 0 then (fNaN, fxIV) else (fInf (na != nb), 0)
  | none, .fin na ma ea, .fin nb mb eb => fRoundMag rm (na != nb) (ma * mb) (ea + eb) false
  | none, .nan, _ => (fNaN, 0)
  | none, _, .nan => (fNaN, 0)

/-- Division. -/
def fDivX (rm : Nat) (a b : Word) : Word × Nat :=
  match fNaNOf [a, b], fUnpack a, fUnpack b with
  | some r, _, _ => r
  | none, .inf _, .inf _ => (fNaN, fxIV)
  | none, .inf na, .fin nb _ _ => (fInf (na != nb), 0)
  | none, .fin na _ _, .inf nb => (fZero (na != nb), 0)
  | none, .fin na ma ea, .fin nb mb eb =>
    if mb = 0 then (if ma = 0 then (fNaN, fxIV) else (fInf (na != nb), fxDZ))
    else fRoundMag rm (na != nb) (ma * 2 ^ 60 / mb) (ea - eb - 60) (ma * 2 ^ 60 % mb != 0)
  | none, .nan, _ => (fNaN, 0)
  | none, _, .nan => (fNaN, 0)

/-- Whole square root below `2 ^ k` added to `r`. -/
def isqrtFrom (n : Nat) : Nat → Nat → Nat
  | 0, r => r
  | k + 1, r => isqrtFrom n k (if (r + 2 ^ k) * (r + 2 ^ k) ≤ n then r + 2 ^ k else r)

/-- Whole square root of a number below `2 ^ 96`. -/
def isqrt (n : Nat) : Nat := isqrtFrom n 48 0

/-- Square root (R238). -/
def fSqrtX (rm : Nat) (a : Word) : Word × Nat :=
  match fNaNOf [a], fUnpack a with
  | some r, _ => r
  | none, .inf neg => if neg then (fNaN, fxIV) else (fInf false, 0)
  | none, .fin neg m e =>
    if m = 0 then (a, 0)
    else if neg then (fNaN, fxIV)
    else
      let m1 := (if e % 2 = 0 then m else 2 * m) * 2 ^ 60
      let e1 := (if e % 2 = 0 then e else e - 1) - 60
      let r := isqrt m1
      fRoundMag rm false r (e1 / 2) (r * r != m1)
  | none, .nan => (fNaN, 0)

/-- `c + a * b` rounded once (R238: FMAC), `c - a * b` where `sub`. NaN operands are taken in the order a, b, c (R237: rs1, rs2,
rd); whether an infinity times zero with a quiet NaN addend is invalid is left open by IEEE 754 and by the spec. -/
def fMacX (rm : Nat) (sub : Bool) (c a b : Word) : Word × Nat :=
  let inv := match fUnpack a, fUnpack b with
    | .inf _, .fin _ m _ => m == 0
    | .fin _ m _, .inf _ => m == 0
    | _, _ => false
  match fNaNOf [a, b, c], fUnpack a, fUnpack b, fUnpack c with
  | some r, _, _, _ => if inv && Config.macNaNInvalid then (r.1, fxIV) else r
  | none, .fin na ma ea, .fin nb mb eb, .fin nc mc ec =>
    let np := (na != nb) != sub
    fAddFin rm nc mc ec np (ma * mb) (ea + eb)
  | none, .fin _ _ _, .fin _ _ _, .inf nc => (fInf nc, 0)
  | none, ua, ub, uc =>
    if inv then (fNaN, fxIV)
    else
      let sg : FNum → Bool := fun x => match x with | .inf n => n | .fin n _ _ => n | .nan => false
      let np := (sg ua != sg ub) != sub
      match uc with
      | .inf nc => if nc = np then (fInf np, 0) else (fNaN, fxIV)
      | .fin _ _ _ | .nan => (fInf np, 0)

/-- `a * 2 ^ n` (R238: FSCL, the IEEE 754 scaleB operation). -/
def fScaleX (rm : Nat) (a : Word) (n : Int) : Word × Nat :=
  match fNaNOf [a], fUnpack a with
  | some r, _ => r
  | none, .fin neg m e => fRoundMag rm neg m (e + clampI (-1000) 1000 n) false
  | none, .inf neg => (fInf neg, 0)
  | none, .nan => (fNaN, 0)

/-! ### Conversions -/

/-- A finite value rounded to a whole number, with whether that lost something. -/
def fToWhole (rm : Nat) (neg : Bool) (m : Nat) (e : Int) : Int × Bool :=
  if 0 ≤ e then (signedMag neg (m * 2 ^ e.toNat), false)
  else
    let sh := (-e).toNat
    let m1 := m / 2 ^ sh
    let rem := m % 2 ^ sh
    (signedMag neg (m1 + b2n (fRoundUp rm neg m1 rem sh false)), decide (0 < rem))

/-- To a whole number between two limits: beyond them the limit, a NaN 0, each with IV (R238: FTOI, FTOIU). -/
def fToIntX (rm : Nat) (lo hi : Int) (a : Word) : Word × Nat :=
  match fUnpack a with
  | .nan => (0, fxIV)
  | .inf neg => (BitVec.ofInt 32 (if neg then lo else hi), fxIV)
  | .fin neg m e =>
    let r := fToWhole rm neg m e
    if r.1 < lo then (BitVec.ofInt 32 lo, fxIV)
    else if hi < r.1 then (BitVec.ofInt 32 hi, fxIV)
    else (BitVec.ofInt 32 r.1, if r.2 then fxIX else 0)

/-- A whole number rounded (R238: FITOF, FUTOF). -/
def fOfIntX (rm : Nat) (i : Int) : Word × Nat := fRoundInt rm i 0 false

/-! ### Comparison -/

/-- The order of the numbers, -0 and +0 at one place. -/
def fOrd (w : Word) : Int := signedMag (bitOf w 31) (w.toNat % 2 ^ 31)

/-- `a < b`, `a ≤ b`, `a = b`: false where one is a NaN. -/
def fLt (a b : Word) : Bool := !fIsNaN a && !fIsNaN b && decide (fOrd a < fOrd b)
def fLe (a b : Word) : Bool := !fIsNaN a && !fIsNaN b && decide (fOrd a ≤ fOrd b)
def fEq (a b : Word) : Bool := !fIsNaN a && !fIsNaN b && decide (fOrd a = fOrd b)

/-- Minimum or maximum of two numbers: -0 lies below +0. -/
def fPick (wantMax : Bool) (a b : Word) : Word :=
  let below := decide (fOrd a < fOrd b) || (decide (fOrd a = fOrd b) && bitOf a 31)
  if below != wantMax then a else b

/-- The IEEE 754 minimum and maximum (R238: FMIN, FMAX). -/
def fMinMaxX (wantMax : Bool) (a b : Word) : Word × Nat :=
  match fNaNOf [a, b] with
  | some r => r
  | none => (fPick wantMax a b, 0)

/-- The IEEE 754 minimumNumber and maximumNumber (R238: FMINN, FMAXN): a NaN operand is passed over beside a number. -/
def fMinMaxNumX (wantMax : Bool) (a b : Word) : Word × Nat :=
  let fl := if fIsSNaN a || fIsSNaN b then fxIV else 0
  if fIsNaN a && fIsNaN b then (fMinMaxX wantMax a b)
  else if fIsNaN a then (b, fl)
  else if fIsNaN b then (a, fl)
  else (fPick wantMax a b, 0)

/-! ### The arithmetic of the combustion datapath: to nearest even, flags ignored (14_combustion_loop.md) -/

def fAdd (a b : Word) : Word := (fAddX 0 a b).1
def fSub (a b : Word) : Word := (fSubX 0 a b).1
def fMul (a b : Word) : Word := (fMulX 0 a b).1
def fDiv (a b : Word) : Word := (fDivX 0 a b).1
def fSqrt (a : Word) : Word := (fSqrtX 0 a).1
def fOfInt (i : Int) : Word := (fOfIntX 0 i).1

/-- The sum of a list, from the first on. -/
def fSum (l : List Word) : Word := l.foldl fAdd 0

/-- The mean of a list. -/
def fMean (l : List Word) : Word := fDiv (fSum l) (fOfInt l.length)

/-- The nearest whole number, an exact half up (R9); none for a NaN, a bound for an infinity. -/
def fRound (lo hi : Int) (w : Word) : Option Int :=
  match fUnpack w with
  | .nan => none
  | .inf neg => some (if neg then lo else hi)
  | .fin neg m e =>
    if 0 ≤ e then some (signedMag neg (m * 2 ^ e.toNat))
    else some ((2 * signedMag neg m + 2 ^ (-e).toNat) / (2 * 2 ^ (-e).toNat))

end Sys2Proof.Machine
end

