-- ==== Sys2Proof/Machine/CmbMath.lean ====
section
/-! DEFINITION. The equations of a combustion instance (R463 to R479) and its 64-byte record (R481). -/

namespace Sys2Proof.Machine

/-! ### Pressure and volume -/

/-- The sample's result word makes it bad: INV, OVR, RECOV, MISS or TST (R471). -/
def badResult (w : Word) : Bool := w &&& 0x4F000000 != 0

/-- Measured pressure of a result word (R463). -/
def measured (sg so res : Word) : Word := fAdd (fMul sg (fOfInt (res.toNat % 65536))) so

/-- V(a) of R465. -/
def State.volAt (s : State) (a : Int) : Word :=
  let u := patternOf 24 a
  let v0 := s.reg (CMB_VOL (u / 4096))
  fAdd v0 (fDiv (fMul (fSub (s.reg (CMB_VOL ((u / 4096 + 1) % 4096))) v0) (fOfInt (u % 4096 : Nat))) 0x45800000)

/-- A sample as the equations see it: angle, slot word, pressure, volume, good. -/
structure CmbPt where
  a    : Int := 0
  slot : Word := 0
  p    : Word := 0
  v    : Word := 0
  good : Bool := true
  deriving DecidableEq, Repr, Inhabited

/-- Linear interpolation in angle (R471). -/
def lerp (a0 : Int) (p0 : Word) (a1 : Int) (p1 : Word) (a : Int) : Word :=
  fAdd p0 (fDiv (fMul (fSub p1 p0) (fOfInt (a - a0))) (fOfInt (a1 - a0)))

/-- Bad samples take the interpolated pressure, at an edge that of the nearest good sample; where no sample is good, the free
value `fw` (R471). -/
def fillBad (fw : Word) : Option CmbPt → List CmbPt → List CmbPt
  | _, [] => []
  | prev, x :: t =>
    if x.good then x :: fillBad fw (some x) t
    else
      let p := match prev, t.find? (fun y => y.good) with
        | some l, some r => lerp l.a l.p r.a r.p x.a
        | some l, none => l.p
        | none, some r => r.p
        | none, none => fw
      { x with p := p } :: fillBad fw prev t

/-- The samples of an instance, oldest first, bad ones replaced. -/
def State.cmbPts (s : State) (w : CmbWin) (fw : Word) : List CmbPt :=
  fillBad fw none (w.smps.reverse.map fun x =>
    { a := x.a, slot := x.slot, p := measured w.sg w.so x.res, v := s.volAt x.a, good := !badResult x.res })

/-- The longest run of bad samples. -/
def badRun : Nat → List CmbPt → Nat
  | run, [] => run
  | run, x :: t => if x.good then max run (badRun 0 t) else badRun (run + 1) t

/-- The samples with `lo ≤ a - GOFS < hi` (R464). -/
def within (gofs lo hi : Int) (l : List CmbPt) : List CmbPt := l.filter fun x => decide (lo ≤ x.a - gofs ∧ x.a - gofs < hi)

/-! ### Pegging (R472) and the polytropic index (R473) -/

/-- A signed register of stream `c`. -/
def State.sreg (s : State) (k : Nat) : Int := (s.reg k).toInt

/-- The grid offset of stream `c`. -/
def State.gofs (s : State) (c : Nat) : Int := ((s.reg (CMB_GOFS c)).toNat % 2 ^ 24 : Nat)

/-- Δ of R472, none for a stretch without a good sample. -/
def State.pegDelta (s : State) (c : Nat) (pref : Word) (pts : List CmbPt) : Option Word :=
  let g := s.gofs c
  let pa := s.sreg (CMB_PA c)
  let pb := s.sreg (CMB_PB c)
  let pw : Int := (s.fld (CMB_PW c) CMB_PW_PW : Nat)
  let anyGood (l : List CmbPt) : Bool := l.any fun x => x.good
  if s.fld (CMB_CYL c) CMB_CYL_PEG = 0 then some pref
  else if s.fld (CMB_CYL c) CMB_CYL_PEG = 1 then
    let l := within g pa pb pts
    if anyGood l then some (fSub pref (fMean (l.map CmbPt.p))) else none
  else
    let l1 := within g pa (pa + pw) pts
    let l2 := within g (pb - pw) pb pts
    if anyGood l1 && anyGood l2 then
      let r1 := Config.powF (fMean (l1.map CmbPt.v)) (s.reg CMB_NDEF)
      let r2 := Config.powF (fMean (l2.map CmbPt.v)) (s.reg CMB_NDEF)
      some (fDiv (fSub (fMul (fMean (l2.map CmbPt.p)) r2) (fMul (fMean (l1.map CmbPt.p)) r1)) (fSub r1 r2))
    else none

/-- n of R473, and NFIX. -/
def State.fitN (s : State) (c : Nat) (pts : List CmbPt) : Word × Bool :=
  if s.fld (CMB_CYL c) CMB_CYL_NFIT = 0 then (s.reg CMB_NDEF, false)
  else
    let l := (within (s.gofs c) (s.sreg (CMB_FA c)) (s.sreg (CMB_FB c)) pts).filter fun x => x.good && fLt 0 x.p
    let xs := l.map fun x => Config.lnF x.v
    let ys := l.map fun x => Config.lnF x.p
    let mx := fMean xs
    let my := fMean ys
    let num := fSum ((xs.zip ys).map fun q => fMul (fSub q.1 mx) (fSub q.2 my))
    let den := fSum (xs.map fun x => fMul (fSub x mx) (fSub x mx))
    let n := fNeg (fDiv num den)
    if 8 ≤ l.length ∧ fLe (s.reg CMB_NMIN) n ∧ fLe n (s.reg CMB_NMAX) then (n, false) else (s.reg CMB_NDEF, true)

/-! ### Heat release (R474), pressure (R475), knock (R476) -/

/-- Cumulative net heat release, from `q` on. -/
def heat (n : Word) : Word → List CmbPt → List Word
  | _, [] => []
  | q, [_] => [q]
  | q, x :: y :: t =>
    let n1 := fSub n 0x3F800000
    let e1 := fMul (fMul (fDiv n n1) (fDiv (fAdd y.p x.p) 0x40000000)) (fSub y.v x.v)
    let e2 := fMul (fMul (fDiv 0x3F800000 n1) (fDiv (fAdd y.v x.v) 0x40000000)) (fSub y.p x.p)
    q :: heat n (fAdd q (fMul 0x3DCCCCCD (fAdd e1 e2))) (y :: t)

/-- The largest of a list, with the first index that has it; none for an empty list. -/
def fMaxIdx : Nat → Option (Word × Nat) → List Word → Option (Word × Nat)
  | _, b, [] => b
  | i, none, x :: t => fMaxIdx (i + 1) (some (x, i)) t
  | i, some b, x :: t => fMaxIdx (i + 1) (if fLt b.1 x then some (x, i) else some b) t

/-- The smallest of a list, with the first index that has it. -/
def fMinIdx : Nat → Option (Word × Nat) → List Word → Option (Word × Nat)
  | _, b, [] => b
  | i, none, x :: t => fMinIdx (i + 1) (some (x, i)) t
  | i, some b, x :: t => fMinIdx (i + 1) (if fLt x b.1 then some (x, i) else some b) t

/-- The angle at which Q first reaches `target` beyond index `imin`, interpolated (R474); none where it does not. -/
def burnAngle (pts : List CmbPt) (qs : List Word) (imin : Nat) (target : Word) : Option Word :=
  match (List.range qs.length).find? fun i => decide (imin < i) && fLe target (qs.getD i 0) with
  | none => none
  | some i =>
    let x0 := pts.getD (i - 1) {}
    let x1 := pts.getD i {}
    let q0 := qs.getD (i - 1) 0
    let f := fDiv (fSub target q0) (fSub (qs.getD i 0) q0)
    match fRound (-(2 ^ 31)) (2 ^ 31) (fMul f (fOfInt (x1.a - x0.a))) with
    | none => none
    | some d => some (BitVec.ofInt 32 (x0.a + d))

/-- Rise rates of R475: for each pair that counts, the rate and the angle of its later sample. -/
def riseRates (n : Nat) (cycle : Word) (pts : List CmbPt) : List (Word × Int) :=
  (pts.zip (pts.drop n)).filterMap fun q =>
    let da := q.2.a - q.1.a
    if da < 1024 * (n : Int) then none
    else some (fDiv (fMul (fSub q.2.p q.1.p) 0x4B800000) (fMul cycle (fOfInt da)), q.2.a)

/-- One step of a biquad on `x` with the state x[-1], x[-2], y[-1], y[-2] (R476). -/
def biquad (k : List Word) (st : Word × Word × Word × Word) (x : Word) : Word × (Word × Word × Word × Word) :=
  let (x1, x2, y1, y2) := st
  let y := fSub (fSub (fAdd (fAdd (fMul (k.getD 0 0) x) (fMul (k.getD 1 0) x1)) (fMul (k.getD 2 0) x2)) (fMul (k.getD 3 0) y1))
    (fMul (k.getD 4 0) y2)
  (y, (x, x1, y, y1))

/-- The output of a biquad over a window, from zero state. -/
def biquads (k : List Word) : (Word × Word × Word × Word) → List Word → List Word
  | _, [] => []
  | st, x :: t => let r := biquad k st x; r.1 :: biquads k r.2 t

/-- Knock energy (R476). The slot difference of the window's first sample, which has no sample before it, is the free value
`d0`. -/
def knockEnergy (gofs ka kb : Int) (d0 : Word) (pts : List CmbPt) (ys : List Word) : Word :=
  fSum (((pts.zip ys).zip (d0 :: (pts.zip (pts.drop 1)).map fun q => q.2.slot - q.1.slot)).filterMap fun q =>
    let x := q.1.1
    if ka ≤ x.a - gofs ∧ x.a - gofs < kb
    then some (fMul (fMul (fMul q.1.2 q.1.2) (fOfInt q.2.toNat)) 0x3627C5AC) else none)

/-! ### Records -/

/-- A record, before its layout. -/
structure CmbOut where
  valid : Bool := false
  misf  : Bool := false
  part  : Bool := false
  knock : Bool := false
  nfix  : Bool := false
  psat  : Bool := false
  aband : Bool := false
  pegerr : Bool := false
  ovfl  : Bool := false
  nbad  : Nat := 0
  nsamp : Nat := 0
  /-- Words 3 to 13 of R481. -/
  delta : Word := 0
  n     : Word := 0
  qnet  : Word := 0
  mfb10 : Word := 0
  mfb50 : Word := 0
  mfb90 : Word := 0
  pmax  : Word := 0
  apmax : Word := 0
  rrmax : Word := 0
  arrmax : Word := 0
  ke    : Word := 0
  deriving DecidableEq, Repr, Inhabited

/-- The words of a record (R481). -/
def CmbOut.words (o : CmbOut) (cyl kind sgen : Nat) (tdc slot : Word) : List Word :=
  [tdc,
   BitVec.ofNat 32 (cyl + 2 ^ 4 * kind + 2 ^ 5 * b2n o.valid + 2 ^ 6 * b2n o.misf + 2 ^ 7 * b2n o.part + 2 ^ 8 * b2n o.knock
     + 2 ^ 9 * b2n o.nfix + 2 ^ 10 * b2n o.psat + 2 ^ 11 * b2n o.aband + 2 ^ 12 * b2n o.pegerr + 2 ^ 13 * b2n o.ovfl
     + 2 ^ 16 * capAt 255 o.nbad + 2 ^ 24 * sgen),
   BitVec.ofNat 32 o.nsamp, o.delta, o.n, o.qnet, o.mfb10, o.mfb50, o.mfb90, o.pmax, o.apmax, o.rrmax, o.arrmax, o.ke, slot, 0]

/-- A free word of the record in processing. -/
def State.freeWord (s : State) (k : Nat) : Word := BitVec.ofNat 32 (s.freeVal k)

/-- Processing of a combustion instance (R471 to R479). -/
def State.combustion (s : State) (w : CmbWin) : CmbOut :=
  let c := w.cyl
  let raw := s.cmbPts w (s.freeWord 0x14001)
  let nbad := (raw.filter fun x => !x.good).length
  let psat := w.smps.any fun x => bitOf x.res 25
  let peg := s.pegDelta c w.pref raw
  let ok := match peg with | some d => fLe 0xC0A00000 d && fLe d 0x40A00000 | none => false
  let delta := if ok then peg.getD 0 else 0
  let pts := raw.map fun x => { x with p := fAdd x.p delta }
  let nf := s.fitN c pts
  let qs := heat nf.1 0 pts
  let qmin := fMinIdx 0 none qs
  let imin := match qmin with | some q => q.2 | none => 0
  let qmax := fMaxIdx 0 none (qs.drop imin)
  let qnet := match qmin, qmax with | some l, some h => fSub h.1 l.1 | _, _ => s.freeWord 0x14002
  let misf := fLt qnet (s.reg CMB_MISQ)
  let mfb (x : Word) (k : Nat) : Word :=
    if misf then 0x80000000
    else match qmin with
      | some q => (burnAngle pts qs imin (fAdd q.1 (fMul x qnet))).getD (s.freeWord k)
      | none => s.freeWord k
  let pm := fMaxIdx 0 none (pts.map CmbPt.p)
  let rates := riseRates (s.fld CMB_CFG CMB_CFG_RRN) (if s.fld OBS_CFG OBS_CFG_CYCLE = 0 then 0x44340000 else 0x43B40000) pts
  let rr := fMaxIdx 0 none (rates.map Prod.fst)
  let ys := biquads (w.kc.drop 5) (0, 0, 0, 0) (biquads w.kc (0, 0, 0, 0) (pts.map CmbPt.p))
  let ke := knockEnergy (s.gofs c) (s.sreg (CMB_KA c)) (s.sreg (CMB_KB c)) (s.freeWord 0x14008) pts ys
  let bad := w.aband || w.ovf || !ok || psat || decide (s.fld CMB_CFG CMB_CFG_BADMAX < nbad)
    || decide (s.fld CMB_CFG CMB_CFG_BADRUN < badRun 0 raw) || decide (raw.length < nbad + 16)
  { valid := !bad, misf := misf, part := fLe (s.reg CMB_MISQ) qnet && fLt qnet (s.reg CMB_PARTQ),
    knock := fLt (s.reg CMB_KTHR) ke, nfix := nf.2, psat := psat, aband := w.aband, pegerr := !ok, ovfl := w.ovf,
    nbad := nbad, nsamp := w.smps.length, delta := delta, n := nf.1, qnet := qnet,
    mfb10 := mfb 0x3DCCCCCD 0x14003, mfb50 := mfb 0x3F000000 0x14004, mfb90 := mfb 0x3F666666 0x14005,
    pmax := match pm with | some q => q.1 | none => s.freeWord 0x14006,
    apmax := match pm with | some q => BitVec.ofInt 32 (pts.getD q.2 {}).a | none => s.freeWord 0x14007,
    rrmax := match rr with | some q => q.1 | none => 0,
    arrmax := match rr with | some q => BitVec.ofInt 32 (rates.getD q.2 (0, 0)).2 | none => 0,
    ke := ke }

/-- The record of a work instance (R478, R479): Δ of the stream's last combustion record without PEGERR. -/
def State.workOut (s : State) (w : WorkWin) : CmbOut :=
  let d := (s.strOf w.cyl).delta
  let imep := match w.last with
    | some q => fDiv (fAdd w.sum (fMul (d.getD 0) (fSub q.2 w.v0))) (s.reg CMB_VD)
    | none => s.freeWord 0x14009
  { valid := !(w.psat || decide (s.fld CMB_CFG CMB_CFG_BADMAX < w.bad)), psat := w.psat, pegerr := d.isNone, nbad := w.bad
    nsamp := w.n, delta := imep }

/-- The metric of a record as binary32 (R484). -/
def CmbOut.metric (o : CmbOut) (sel : Nat) : Word :=
  if sel = 0 then o.qnet else if sel = 1 then fOfInt o.mfb10.toInt else if sel = 2 then fOfInt o.mfb50.toInt
  else if sel = 3 then fOfInt o.mfb90.toInt else if sel = 4 then o.pmax else if sel = 5 then fOfInt o.apmax.toInt
  else if sel = 6 then o.rrmax else if sel = 7 then o.ke else if sel = 8 then o.n else o.delta

end Sys2Proof.Machine
end

