-- ==== Sys2Proof/Machine/Cmb.lean ====
section
/-! DEFINITION. The combustion loop (14_combustion_loop.md): windows, samples, records, trim rules, dither adapters, registers. -/

namespace Sys2Proof.Machine

/-! ### Windows (R464, R466) -/

/-- Start and end of the combustion window of stream `c`, or of the work window. -/
def State.winLo (s : State) (c : Nat) (work : Bool) : Int := if work then s.sreg CMB_WWS else s.sreg (CMB_WS c)
def State.winHi (s : State) (c : Nat) (work : Bool) : Int := if work then s.sreg CMB_WWE else s.sreg (CMB_WE c)

/-- T of the instance whose start word T + GOFS + S the angle word has reached last, and that start word. -/
def State.winT (s : State) (c : Nat) (work : Bool) : Word × Word :=
  let off := BitVec.ofInt 32 (s.gofs c + s.winLo c work)
  let p := (BitVec.ofNat 32 (s.fld (CMB_TDC c) CMB_TDC_TDC) + off).toNat % 2 ^ 24
  let w0 := s.angW - BitVec.ofNat 32 ((s.angW.toNat + 2 ^ 24 - p) % 2 ^ 24)
  (w0 - off, w0)

/-- The angle word has reached `w` in this slot. -/
def State.reachedNow (s : State) (w : Word) : Bool := decide ((s.angW - w).toNat < (s.angW - s.prevAng).toNat)

/-- An instance opens: SG, SO and the knock coefficients are read (R463). -/
def State.openWin (s : State) (c : Nat) (work : Bool) (tdc : Word) : State :=
  let sg := s.reg (CMB_SG c)
  let so := s.reg (CMB_SO c)
  let g := s.fld OBS_STATE OBS_STATE_SGEN
  let s1 := if work
    then s.updStr c fun x => { x with opW := some tdc, work := x.work ++ [{ cyl := c, tdc := tdc, sgen := g, sg := sg, so := so }] }
    else s.updStr c fun x => { x with
      opC := some tdc
      comb := x.comb ++ [{ cyl := c, tdc := tdc, sgen := g, sg := sg, so := so, kc := (List.range 10).map fun k => s.reg (CMB_KC k) }] }
  s1.cmbShow

/-- The angle word has reached the end of an instance of T. -/
def State.winEnded (s : State) (c : Nat) (work : Bool) (tdc : Word) : Bool :=
  wReached s.angW (tdc + BitVec.ofInt 32 (s.gofs c + s.winHi c work))

/-- The oldest open instance of a kind closes, if its end has been reached. PREF is latched (R472). -/
def State.closeWin (s : State) (c : Nat) (work : Bool) : State :=
  let x := s.strOf c
  if work then
    match x.work with
    | w :: t =>
      if s.winEnded c true w.tdc then
        ((s.updStr c fun y => { y with work := t, clW := some w.tdc }).updCmb fun y =>
          { y with works := y.works ++ [{ w with slot := s.slotW }] }).cmbShow
      else s
    | [] => s
  else
    match x.comb with
    | w :: t =>
      if s.winEnded c false w.tdc then
        ((s.updStr c fun y => { y with comb := t, clC := some w.tdc }).updCmb fun y =>
          { y with queue := y.queue ++ [{ w with slot := s.slotW, pref := s.reg (CMB_PREF c) }] }).cmbShow
      else s
    | [] => s

/-! ### Samples (R462, R468, R470, R478) -/

/-- A sample at angle word `w` lies in an instance of T (R464, R466). -/
def State.inWin (s : State) (c : Nat) (work : Bool) (tdc w : Word) : Bool :=
  let d := wDiff w tdc - s.gofs c
  decide (s.winLo c work ≤ d ∧ d < s.winHi c work)

/-- A sample joins a combustion instance, which buffers at most 2,048 (R470). -/
def CmbWin.add (w : CmbWin) (x : CmbSmp) : CmbWin :=
  if w.smps.length < 2048 then { w with smps := x :: w.smps } else { w with ovf := true }

/-- A sample joins a work instance: the trapezoid from the last good sample is added; a bad sample is skipped (R471, R478). -/
def State.addWork (s : State) (w : WorkWin) (res angle : Word) : WorkWin :=
  let w1 := { w with n := w.n + 1, psat := w.psat || bitOf res 25 }
  if badResult res then { w1 with bad := w.bad + 1 }
  else
    let p := measured w.sg w.so res
    let v := s.volAt (wDiff angle w.tdc)
    match w.last with
    | none => { w1 with last := some (p, v), v0 := v }
    | some q => { w1 with last := some (p, v), sum := fAdd w.sum (fMul (fDiv (fAdd p q.1) 0x40000000) (fSub v q.2)) }

/-- A sample entry reaches the datapath. -/
def State.cmbTake (s : State) (c : Nat) (res angle slot : Word) : State :=
  if c ≥ 12 ∨ !s.strOn c then s
  else if res.toNat / 2 ^ 16 % 64 ≠ s.fld (CMB_CYL c) CMB_CYL_CHAN then
    ((s.count (CMB_SCNT c) CMB_SCNT_CHERR 1).raise CMB_EVT CMB_EVT_CHERR).sendFault blkCMB c 0x10 clsC (res.toNat / 2 ^ 16 % 64)
  else
    let x := s.strOf c
    let inC (w : CmbWin) : Bool := s.inWin c false w.tdc angle
    let inW (w : WorkWin) : Bool := s.inWin c true w.tdc angle
    let lateC := !(x.comb.any inC) && (match x.clC with | some t => s.inWin c false t angle | none => false)
    let lateW := !(x.work.any inW) && (match x.clW with | some t => s.inWin c true t angle | none => false)
    let s1 := s.updStr c fun y => { y with
      comb := y.comb.map fun w => if inC w then w.add { res := res, a := wDiff angle w.tdc, slot := slot } else w
      work := y.work.map fun w => if inW w then s.addWork w res angle else w }
    if lateC || lateW then (s1.count CMB_CNT CMB_CNT_LATE 1).raise CMB_EVT CMB_EVT_LATE else s1

/-! ### Trim rules (R484 to R486) -/

/-- A rule writes its accumulator to its trim; RULEL where it lies at a limit. -/
def State.ruleWrite (s : State) (r : Nat) (acc : Int) : State :=
  let s1 := (s.setReg (CMB_RACC r) (BitVec.ofInt 32 acc)).trimWriteHw (s.fld (CMB_RCFG r) CMB_RCFG_TRIM) (BitVec.ofInt 32 acc)
  if acc = s.sreg (CMB_RLO r) ∨ acc = s.sreg (CMB_RHI r) then s1.raise CMB_EVT CMB_EVT_RULEL else s1

/-- The nearest whole number of a product or a step; a free value where there is none. -/
def State.ruleRound (s : State) (w : Word) : Int := (fRound (-(2 ^ 160)) (2 ^ 160) w).getD (s.freeVal 0x1400A : Nat)

/-- Rule `r` is evaluated on the metric `m` (R485). -/
def State.ruleEval (s : State) (r : Nat) (m : Word) : State :=
  let set := s.reg (CMB_RSET r)
  let db := s.reg (CMB_RDB r)
  let ku := s.reg (CMB_RKU r)
  let kd := s.reg (CMB_RKD r)
  let acc := s.sreg (CMB_RACC r)
  let cl (i : Int) : Int := clampI (s.sreg (CMB_RLO r)) (s.sreg (CMB_RHI r)) i
  let e := fSub set m
  let mode := s.fld (CMB_RCFG r) CMB_RCFG_MODE
  let v := if mode = 0 then
      (if fLe (fAbs e) db then cl acc else cl (acc + s.ruleRound (fMul (if fLt 0 e then ku else kd) e)))
    else if mode = 1 then
      (if fLt set m then cl (acc + s.ruleRound ku) else if fLt m (fSub set db) then cl (acc - s.ruleRound kd) else acc)
    else cl (s.ruleRound (fMul ku e))
  s.ruleWrite r v

/-- The rules act on a record, in ascending number (R484, R485). -/
def State.runRules (s : State) (cyl : Nat) (work : Bool) (o : CmbOut) : State :=
  (List.range 32).foldl (fun t r =>
    let cfg := t.reg (CMB_RCFG r)
    let sel := CMB_RCFG_METRIC.get cfg
    if bitOf cfg 0 && (CMB_RCFG_CYL.get cfg == cyl) && ((sel == 9) == work) && o.valid && (!o.misf || bitOf cfg 11)
    then t.ruleEval r (o.metric sel) else t) s

/-! ### Records (R480 to R483) -/

/-- A record is copied to the stream's record area and put into the record queue (R482). -/
def State.putCmbRecord (s : State) (key : Nat) (ws : List Word) : State :=
  let s1 : State := (List.range 16).foldl (fun t i => t.setReg (key + 4 * i) (ws.getD i 0)) s
  if s1.fld CMB_QCFG CMB_QCFG_EN = 0 then s1
  else
    let q := s1.fld CMB_QCFG CMB_QCFG_QUE
    let acct := s1.binding 2
    let room := s1.fld (QUE_QCFG q) QUE_QCFG_EN == 1 && decide (s1.qCount q + 4 ≤ s1.qDepth q)
    let paid := s1.budHas acct resFABRIC 4
    if room && paid then
      (List.range 4).foldl (fun t i => (t.qput q (wordsToBytes ((ws.drop (4 * i)).take 4))).1) (s1.budDraw acct resFABRIC 4)
    else
      let s2 := if paid then s1 else ((s1.budStarve acct resFABRIC).budDrop acct)
      ((s2.count CMB_CNT CMB_CNT_QDROP 1).raise CMB_EVT CMB_EVT_QDROP).sendFault blkCMB 0 0x11 clsC 0

/-- An event where a condition holds. -/
def State.raiseIf (s : State) (b : Bool) (evt bit : Nat) : State := if b then s.raise evt bit else s

/-- The run of misfires of stream `c` after a valid record (R483). -/
def State.misfireRun (s : State) (c : Nat) (misf : Bool) : State :=
  if !misf then (s.setFld (CMB_SCNT c) CMB_SCNT_MISRUN 0).updStr c fun x => { x with told := false }
  else
    let s1 := s.count (CMB_SCNT c) CMB_SCNT_MISRUN 1
    if s1.fld CMB_CFG CMB_CFG_MISFL ≤ s1.fld (CMB_SCNT c) CMB_SCNT_MISRUN ∧ !(s1.strOf c).told then
      ((s1.updStr c fun x => { x with told := true }).raise CMB_EVT CMB_EVT_MISFL).sendFault blkCMB c 0x12 clsU 0
    else s1

/-- The oldest closed combustion instance is processed (R480). -/
def State.processComb (s : State) : State :=
  match s.cmb.queue with
  | [] => s
  | w :: t =>
    let o := s.combustion w
    let c := w.cyl
    let s1 := ((s.useFree.updCmb fun y => { y with queue := t }).updStr c fun x => { x with
      recs := ((o.valid, o.misf, o.part) :: x.recs).take 2
      delta := if o.pegerr then x.delta else some o.delta }).cmbShow
    let s2 := s1.putCmbRecord (CMB_REC c 0) (o.words c 0 w.sgen w.tdc w.slot)
    let s3 := (((((((s2.raise CMB_EVT CMB_EVT_RECORD).raiseIf (!o.valid) CMB_EVT CMB_EVT_INVAL).raiseIf o.misf CMB_EVT
      CMB_EVT_MISF).raiseIf o.part CMB_EVT CMB_EVT_PART).raiseIf o.knock CMB_EVT CMB_EVT_KNOCK).raiseIf o.pegerr CMB_EVT
      CMB_EVT_PEGERR).raiseIf o.nfix CMB_EVT CMB_EVT_NFIX)
    let s4 := if o.valid then s3.misfireRun c o.misf else s3.count (CMB_SCNT c) CMB_SCNT_INVAL 1
    (s4.runRules c false o).coastFollow

/-! ### Dither adapters (R489) -/

/-- The adapter writes its DAMP to its profile. -/
def State.dithWrite (s : State) (d : Nat) : State :=
  let p := s.fld (CMB_DCFG d) CMB_DCFG_PROF
  s.setFld (INJ_DTH p) INJ_DTH_DAMP (s.fld (CMB_DAMP d) CMB_DAMP_DAMP)

/-- The IMEP values adapter `d` holds of stream `c`. -/
def State.imepsOf (s : State) (d c : Nat) : List Word := vat s.cmb.imeps (12 * d + c)

/-- The collection of adapter `d` begins anew. -/
def State.dithRestart (s : State) (d : Nat) : State :=
  s.updCmb fun x => { x with imeps := (List.range 12).foldl (fun v c => vset v (12 * d + c) []) x.imeps }

/-- Standard deviation over mean. -/
def covOf (l : List Word) : Word :=
  let m := fMean l
  fDiv (fSqrt (fMean (l.map fun x => fMul (fSub x m) (fSub x m)))) m

/-- The streams of adapter `d`. -/
def State.dithStrs (s : State) (d : Nat) : List Nat := (List.range 12).filter fun c => s.bit (CMB_DMASK d) c

/-- Adapter `d` evaluates COV and writes DAMP. -/
def State.dithEval (s : State) (d : Nat) : State :=
  let cov := match fMaxIdx 0 none ((s.dithStrs d).map fun c => covOf (s.imepsOf d c)) with | some q => q.1 | none => 0
  let a := s.fld (CMB_DAMP d) CMB_DAMP_DAMP
  let st := s.fld (CMB_DCFG d) CMB_DCFG_STEP
  let v := if fLt (s.reg (CMB_DCHI d)) cov then min (a + st) (s.fld (CMB_DLIM d) CMB_DLIM_DMAX)
    else if fLt cov (s.reg (CMB_DCLO d)) then max (a - st) (s.fld (CMB_DLIM d) CMB_DLIM_DMIN) else a
  ((((s.setReg (CMB_DCOV d) cov).setFld (CMB_DAMP d) CMB_DAMP_DAMP v).dithWrite d).raise CMB_EVT CMB_EVT_DITH).dithRestart d

/-- Adapter `d` takes a valid work record of stream `c`: a stream that holds NCOV of them takes no more. -/
def State.dithTake (s : State) (c : Nat) (imep : Word) (d : Nat) : State :=
  let n := s.fld (CMB_DCFG d) CMB_DCFG_NCOV
  if s.fld (CMB_DCFG d) CMB_DCFG_EN = 0 ∨ !s.bit (CMB_DMASK d) c ∨ n ≤ (s.imepsOf d c).length then s
  else
    let s1 := s.updCmb fun x => { x with imeps := vupd x.imeps (12 * d + c) fun l => l ++ [imep] }
    if (s1.dithStrs d).all fun k => decide (n ≤ (s1.imepsOf d k).length) then s1.dithEval d else s1

/-- The oldest closed work instance yields its record (R478, R480). -/
def State.processWork (s : State) : State :=
  match s.cmb.works with
  | [] => s
  | w :: t =>
    let o := s.workOut w
    let s1 := s.useFree.updCmb fun y => { y with works := t }
    let s2 := s1.putCmbRecord (CMB_WREC w.cyl 0) (o.words w.cyl 1 w.sgen w.tdc w.slot)
    let s3 := ((s2.raise CMB_EVT CMB_EVT_WORK).raiseIf (!o.valid) CMB_EVT CMB_EVT_INVAL).raiseIf o.pegerr CMB_EVT CMB_EVT_PEGERR
    let s4 := if o.valid then s3 else s3.count (CMB_SCNT w.cyl) CMB_SCNT_INVAL 1
    let s5 := s4.runRules w.cyl true o
    if o.valid then (List.range 4).foldl (fun u d => u.dithTake w.cyl o.delta d) s5 else s5

/-! ### Registers (R467, R486, R488, R490, R493) -/

/-- R467 for stream `c`. -/
def State.strLegal (s : State) (c : Nat) : Bool :=
  let ws := s.sreg (CMB_WS c)
  let we := s.sreg (CMB_WE c)
  let inside (a b : Int) : Bool := decide (ws ≤ a ∧ a < b ∧ b ≤ we)
  let pa := s.sreg (CMB_PA c)
  let pb := s.sreg (CMB_PB c)
  let pw : Int := (s.fld (CMB_PW c) CMB_PW_PW : Nat)
  let peg := s.fld (CMB_CYL c) CMB_CYL_PEG
  let pegOk := peg == 0 || (inside pa pb && (peg == 1 || (inside pa (pa + pw) && inside (pb - pw) pb)))
  pegOk && inside (s.sreg (CMB_FA c)) (s.sreg (CMB_FB c)) && inside (s.sreg (CMB_KA c)) (s.sreg (CMB_KB c))

/-- A finite value above 0. -/
def fPositive (w : Word) : Bool := fFinite w && fLt 0 w

/-- The volume table and VD hold finite values above 0 (R467). -/
def State.volLegal (s : State) : Bool :=
  fPositive (s.reg CMB_VD) && (List.range 4096).all fun k => fPositive (s.reg (CMB_VOL k))

/-- What "disabled" means for the RWC fields of a CMB register (R492). -/
def State.cmbLocked (s : State) (o : Nat) : Bool :=
  if o < 0x100 then s.fld CMB_APPLIED CMB_APPLIED_EN != 0
  else if o < 0x800 then s.strOn ((o - 0x100) / 0x40)
  else if o < 0xC00 then s.bit (CMB_RCFG ((o - 0x800) / 0x20)) 0
  else if o < 0x1000 then s.bit (CMB_DCFG ((o - 0xC00) / 0x20)) 0
  else false

/-- Legality of a stream register (R493). -/
def State.cmbStrLegal (s : State) (o : Nat) (w : Word) : Bool :=
  let c := (o - 0x100) / 0x40
  let r := (o - 0x100) % 0x40
  if r = 0 then decide (CMB_CYL_INJ.get w ≤ 11) || CMB_CYL_INJ.get w == 15
  else if r = 0x10 then decide (s.sreg (CMB_WS c) < w.toInt ∧ w.toInt < s.sreg (CMB_WS c) + 8388608)
  else if r = 0x30 then fFinite w && !fEq w 0
  else if r = 0x34 ∨ r = 0x38 then fFinite w
  else true

/-- Legality of a rule register (R486, R493). -/
def State.cmbRuleLegal (s : State) (o : Nat) (w : Word) : Bool :=
  let n := (o - 0x800) / 0x20
  let r := (o - 0x800) % 0x20
  if r = 0 then
    !bitOf w 0 || (List.range 32).all fun k => k == n || !s.bit (CMB_RCFG k) 0
      || s.fld (CMB_RCFG k) CMB_RCFG_TRIM != CMB_RCFG_TRIM.get w
  else if r = 0x04 ∨ r = 0x0C then fFinite w
  else if r = 0x08 ∨ r = 0x10 then fFinite w && fLe 0 w
  else if r = 0x18 then decide (s.sreg (CMB_RLO n) ≤ w.toInt)
  else if r = 0x1C then !s.bit (CMB_RCFG n) 0 && decide (s.sreg (CMB_RLO n) ≤ w.toInt ∧ w.toInt ≤ s.sreg (CMB_RHI n))
  else true

/-- Legality of an adapter register (R493). -/
def State.cmbDithLegal (s : State) (o : Nat) (w : Word) : Bool :=
  let n := (o - 0xC00) / 0x20
  let r := (o - 0xC00) % 0x20
  if r = 0x04 then CMB_DMASK_MASK.get w != 0
  else if r = 0x08 then fLe 0 w && fLt w (s.reg (CMB_DCHI n))
  else if r = 0x0C then fLt (s.reg (CMB_DCLO n)) w
  else if r = 0x10 then decide (CMB_DLIM_DMIN.get w ≤ CMB_DLIM_DMAX.get w ∧ CMB_DLIM_DMAX.get w ≤ 1000)
  else if r = 0x14 then !s.bit (CMB_DCFG n) 0 && decide (s.fld (CMB_DLIM n) CMB_DLIM_DMIN ≤ w.toNat % 1024
    ∧ w.toNat % 1024 ≤ s.fld (CMB_DLIM n) CMB_DLIM_DMAX)
  else true

/-- Legality of a global register (R465, R467, R488, R493). -/
def State.cmbGlobalLegal (s : State) (addr : Nat) (w : Word) : Bool :=
  if addr = CMB_CTRL then
    (List.range 12).all (fun c => !bitOf w c || s.strLegal c) && (CMB_CTRL_EN.get w == 0 || s.volLegal)
  else if addr = CMB_ACFG then !bitOf w 1 || s.coastLegal
  else if addr = CMB_WWE then decide (s.sreg CMB_WWS < w.toInt ∧ w.toInt ≤ s.sreg CMB_WWS + 2 ^ 24)
  else if addr = CMB_VD then fPositive w
  else if addr = CMB_MISQ ∨ addr = CMB_KTHR then fLe 0 w
  else if addr = CMB_PARTQ then fLe (s.reg CMB_MISQ) w
  else if addr = CMB_NMIN then fLt 0x3F800000 w && fLt w (s.reg CMB_NMAX)
  else if addr = CMB_NMAX then fLt (s.reg CMB_NMIN) w && fLt w 0x40000000
  else if addr = CMB_NDEF then fLe (s.reg CMB_NMIN) w && fLe w (s.reg CMB_NMAX)
  else if CMB_KC 0 ≤ addr ∧ addr ≤ CMB_KC 9 then fFinite w
  else true

/-- The chapter's own conditions for a write to a CMB register. -/
def State.cmbLegal (s : State) (addr : Nat) (w : Word) : Bool :=
  let o := addr % 0x10000
  if o < 0x100 then s.cmbGlobalLegal addr w
  else if o < 0x800 then s.cmbStrLegal o w
  else if o < 0xC00 then s.cmbRuleLegal o w
  else if o < 0x1000 then s.cmbDithLegal o w
  else if 0x4000 ≤ o then (s.fld CMB_APPLIED CMB_APPLIED_EN == 0) && fPositive w
  else true

/-- The requested enables come into force: cleared streams are abandoned (R469), set ones start without records (R487, R490). -/
def State.cmbApply (s : State) : State :=
  let w := s.reg CMB_CTRL
  let s1 : State := (List.range 12).foldl (fun t c =>
    if t.strOn c && !bitOf w c then t.abandonStr c
    else if !t.strOn c && bitOf w c then t.updStr c fun x => { x with recs := [], opC := none, opW := none, clC := none, clW := none }
    else t) s
  ((s1.setFld CMB_APPLIED CMB_APPLIED_EN (CMB_CTRL_EN.get w)).setFld CMB_APPLIED CMB_APPLIED_GEN (CMB_CTRL_GEN.get w)).coastCount

/-- A write to a CMB register. -/
def State.cmbWrite (s : State) (addr : Nat) (w : Word) : State :=
  let o := addr % 0x10000
  let was := s.bit addr 0
  s.writeWith addr w (s.cmbLocked o) (s.cmbLegal addr w) fun t =>
    if addr = CMB_CTRL then t.cmbApply
    else if addr = CMB_CFG then t.coastCount
    else if 0x800 ≤ o ∧ o < 0xC00 ∧ (o - 0x800) % 0x20 = 0 ∧ bitOf w 0 ∧ !was then
      t.ruleWrite ((o - 0x800) / 0x20) (t.sreg (CMB_RACC ((o - 0x800) / 0x20)))
    else if 0xC00 ≤ o ∧ o < 0x1000 ∧ (o - 0xC00) % 0x20 = 0 ∧ bitOf w 0 ∧ !was then
      (t.dithRestart ((o - 0xC00) / 0x20)).dithWrite ((o - 0xC00) / 0x20)
    else t

/-! ### Commands -/

/-- `CMB_CTRL_WRITE` (R490): a write to CMB_CTRL enables streams that pass R467 and abandons cleared ones. -/
def execCmbCtrlWrite (w : Word) (s : State) : Host.Outcome State Fault Refusal := .next (s.cmbWrite CMB_CTRL w)

/-- `CMB_SAMPLE` (R462): the oldest item of the crossing from the converter into the combustion island, if it is a sample entry,
joins the open windows of its stream or is discarded. -/
def execCmbSample (s : State) : Host.Outcome State Fault Refusal :=
  match s.nextItem .converter .combustion with
  | some (.cmbSample c res angle slot _) => .next ((s.ackItem .converter .combustion).cmbTake c res angle slot)
  | _ => .next s

/-- `CMB_WINDOW_OPEN` (R466): in the slot in which the angle word reaches the start of a window of an enabled stream, in FULL or
HOLD, an instance opens. -/
def execCmbWindowOpen (c : Fin 12) (work : Bool) (s : State) : Host.Outcome State Fault Refusal :=
  let t := s.winT c work
  let x := s.strOf c
  let again := if work then x.opW == some t.1 else x.opC == some t.1
  .next (if s.strOn c && s.fires && s.reachedNow t.2 && !again then s.openWin c work t.1 else s)

/-- `CMB_WINDOW_CLOSE` (R466): an instance whose end the angle word has reached closes. -/
def execCmbWindowClose (c : Fin 12) (work : Bool) (s : State) : Host.Outcome State Fault Refusal :=
  .next (s.closeWin c work)

/-- `CMB_RECORD` (R480): the oldest closed combustion instance is processed. -/
def execCmbRecord (s : State) : Host.Outcome State Fault Refusal := .next s.processComb

/-- `CMB_WORK_RECORD` (R478): the oldest closed work instance yields its record. -/
def execCmbWorkRecord (s : State) : Host.Outcome State Fault Refusal := .next s.processWork

/-- `CMB_RULE_ENABLE` (R486): a write to CMB_RCFGr that sets EN. -/
def execCmbRuleEnable (r : Fin 32) (w : Word) (s : State) : Host.Outcome State Fault Refusal := .next (s.cmbWrite (CMB_RCFG r) w)

/-- `CMB_DITHER_ENABLE` (R489): a write to CMB_DCFGd that sets EN. -/
def execCmbDitherEnable (d : Fin 4) (w : Word) (s : State) : Host.Outcome State Fault Refusal := .next (s.cmbWrite (CMB_DCFG d) w)

end Sys2Proof.Machine
end

