-- ==== Sys2Proof/Machine/Memory.lean ====
section
/-! DEFINITION. The memories of the address map (R37, R284), their error codes (R257, R283, R288, R291) and the test injections
into them (R565, R566). A memory of the model holds the words as they were written; what an access finds wrong with the stored
code is an operand of the command that makes the access. -/

namespace Sys2Proof.Machine

/-- The memories with an error code: SRAM, MRAM, code and data SRAM of an engine, instruction and data memory of a pair. -/
inductive Mem where
  | sram | mram
  | code (e : Nat) | data (e : Nat)
  | imem (t : Nat) | dmem (t : Nat)
  deriving DecidableEq, Repr

/-- What lies at an address of R37. -/
inductive Region where
  | rom
  | mem (m : Mem)
  | regs
  | none
  deriving DecidableEq, Repr

/-- The region of an address of R37. -/
def regionOf (a : Nat) : Region :=
  if a < 0x10000 then .rom
  else if 0x10000000 ≤ a ∧ a < 0x10600000 then .mem .mram
  else if 0x20000000 ≤ a ∧ a < 0x20800000 then .mem .sram
  else if 0x30000000 ≤ a ∧ a < 0x30040000 then .mem (.code 0)
  else if 0x30040000 ≤ a ∧ a < 0x30050000 then .mem (.data 0)
  else if 0x30100000 ≤ a ∧ a < 0x30140000 then .mem (.code 1)
  else if 0x30140000 ≤ a ∧ a < 0x30150000 then .mem (.data 1)
  else if 0x40000000 ≤ a ∧ a < 0x40180000 then .regs
  else .none

/-- The access column of R37 allows a write. -/
def Region.writable : Region → Bool
  | .mem .sram | .mem (.code _) | .mem (.data _) | .regs => true
  | .rom | .mem .mram | .mem (.imem _) | .mem (.dmem _) | .none => false

/-- R37 marks the address for execution. -/
def executable (a : Nat) : Bool := a < 0x10000 || (0x10000000 ≤ a && a < 0x103C0000) || (0x20000000 ≤ a && a < 0x20800000)

/-- The private window of R284. -/
def inWindow (a : Nat) : Bool := 0xF0000000 ≤ a && a < 0xF0020000

/-- The memory of pair `t` at an address of its private window. -/
def windowMem (t a : Nat) : Mem := if a < 0xF0010000 then .imem t else .dmem t

/-- The key of a byte of pair `t`'s private window. -/
def windowKey (t a : Nat) : Nat := 0x100000000 + 0x100000 * t + a % 0x100000

/-- Bytes of a word with its own code (R283, R288, R290, R257). -/
def Mem.width : Mem → Nat
  | .sram | .mram => 8
  | .code _ | .data _ | .imem _ | .dmem _ => 4

/-- The TARGET of FLT_INJ that names a memory (R570). -/
def Mem.target : Mem → Nat
  | .sram => 1 | .mram => 2
  | .code e => 3 + 2 * e | .data e => 4 + 2 * e
  | .imem t => 7 + t | .dmem t => 11 + t

/-- BLOCK and UNIT of the memory's messages (R551, R552). -/
def Mem.source : Mem → Nat × Nat
  | .sram => (blkQUE, 0) | .mram => (blkQUE, 1)
  | .code e | .data e => (blkAEN, e)
  | .imem t | .dmem t => (blkPAIR, t)

/-- A message of a memory: kind 3 ECCC, 4 ECCU; with INJ (R550, R552). -/
def State.eccMessage (s : State) (m : Mem) (kind cls inj addr : Nat) : State :=
  s.launch (islandOf m.source.1) .guard (.fault (faultWord m.source.1 m.source.2 kind cls inj addr))

/-- A single-bit error is corrected: counted where the memory counts, and a C-class message is sent (R257, R283, R288, R291). -/
def State.eccCorrected (s : State) (m : Mem) (addr : Nat) : State :=
  let s1 := match m with
    | .sram => (s.count QUE_SECC QUE_SECC_CORR 1).raise QUE_EVT QUE_EVT_ECCC
    | .mram => (s.count QUE_MECC QUE_MECC_CORR 1).raise QUE_EVT QUE_EVT_ECCC
    | .code _ | .data _ => (s.count AEN_ECC AEN_ECC_CORR 1).raise AEN_EVT AEN_EVT_ECCC
    | .imem _ | .dmem _ => s
  s1.eccMessage m 0x03 clsC 0 addr

/-- An uncorrectable word is found: SRAM and MRAM count it and send a U-class message (R288, R291), an angle memory counts it
(R257); `test` says that a real error was found under a test injection, which is reported whatever the memory (R566). -/
def State.eccUncorrectable (s : State) (m : Mem) (addr : Nat) (test : Bool) : State :=
  match m with
  | .sram => ((s.count QUE_SECC QUE_SECC_UNC 1).raise QUE_EVT QUE_EVT_ECCU).eccMessage m 0x04 clsU 0 addr
  | .mram => ((s.count QUE_MECC QUE_MECC_UNC 1).raise QUE_EVT QUE_EVT_ECCU).eccMessage m 0x04 clsU 0 addr
  | .code _ | .data _ =>
    let s1 := (s.count AEN_ECC AEN_ECC_UNC 1).raise AEN_EVT AEN_EVT_ECCU
    if test then s1.eccMessage m 0x04 clsU 0 addr else s1
  | .imem _ | .dmem _ => if test then s.eccMessage m 0x04 clsU 0 addr else s

/-- The syndrome of an access without injection. -/
def eccSyndrome : Ecc → Byte
  | .clean => 0
  | .corrected y => y
  | .uncorrectable y => y

/-- An armed injection lies on a word that an access to `len` bytes from `addr` of a memory touches (R565). -/
def State.injected (s : State) (m : Mem) (addr len : Nat) : Bool :=
  match s.flt.armed with
  | none => false
  | some (tg, a, _) => tg == m.target && decide (a < addr + len ∧ addr < a + m.width)

/-- The injection is over: it is disarmed, and FLT_INJS shows what was found (R565, R566). -/
def State.endInjection (s : State) (syn : Nat) (result : Nat) : State :=
  let s1 : State := { s with flt := { s.flt with armed := none } }
  (((s1.setFld FLT_INJ FLT_INJ_ARM 0).setFld FLT_STAT FLT_STAT_INJARM 0).setFld FLT_INJS FLT_INJS_SYN syn).setFld FLT_INJS
    FLT_INJS_RESULT result

/-- The address of the coded word a message names: that of the armed injection where it lies on the access, else of the word
that holds the access's first byte (R288, R565; DEDUCED, log 21). -/
def State.eccAddr (s : State) (m : Mem) (addr len : Nat) : Nat :=
  match s.flt.armed with
  | none => addr - addr % m.width
  | some (_, a, _) => if s.injected m addr len then a else addr - addr % m.width

/-- A read access to `len` bytes from `addr` of a memory: the detector's report, and whether the data is unusable. An injection on the word makes the syndrome the expected one, unless a real error falls in the same access
(R565, R566). -/
def State.eccRead (s : State) (m : Mem) (addr len : Nat) (o : Ecc) : State × Bool :=
  if s.injected m addr len then
    let expect : Byte := if m.width = 8 then 0xFF else 0x7F
    let seen := expect ^^^ eccSyndrome o
    if seen = expect then ((s.endInjection seen.toNat 1).eccMessage m 0x04 clsU 1 (s.eccAddr m addr len), false)
    else ((s.endInjection seen.toNat 2).eccUncorrectable m (s.eccAddr m addr len) true, true)
  else match o with
    | .clean => (s, false)
    | .corrected _ => (s.eccCorrected m (s.eccAddr m addr len), false)
    | .uncorrectable _ => (s.eccUncorrectable m (s.eccAddr m addr len) false, true)

/-- A store to `len` bytes of a memory: one narrower than the coded word reads it first (R288); the stored bytes are written
whatever that read finds, and an uncorrectable word is reported (DEDUCED: DATAERR is raised by loads, R228). -/
def State.eccStore (s : State) (m : Mem) (addr len : Nat) (o : Ecc) : State :=
  if len < m.width then (s.eccRead m addr len o).1 else s

/-! ### Scrubbers (R289, R291) -/

/-- `SRAM_SCRUB_READ` (R289): the scrubber reads the 64-bit word at `word`; the last one ends a pass. -/
def execSramScrubRead (word : BitVec 20) (ecc : Ecc) (s : State) : Host.Outcome State Fault Refusal :=
  let s1 := (s.eccRead .sram (0x20000000 + 8 * word.toNat) 8 ecc).1
  .next (if word.toNat = 2 ^ 20 - 1 then s1.setFld QUE_SCRUB QUE_SCRUB_SPASS (s1.fld QUE_SCRUB QUE_SCRUB_SPASS + 1) else s1)

/-- The charge of a corrected word's rewrite: one MRAM write slot of the scrub's account (R291, R500). -/
def State.scrubRewrite (s : State) (bad : Bool) (o : Ecc) : State :=
  match o with
  | .corrected _ => if bad then s else s.budDraw (s.binding 7) resMRAM 1
  | .clean | .uncorrectable _ => s

/-- `MRAM_SCRUB_READ` (R291): the background scrub reads the 64-bit word at `word` of the 6 MiB and rewrites it only when it has
corrected it; the last one ends a pass. -/
def execMramScrubRead (word : BitVec 20) (ecc : Ecc) (s : State) : Host.Outcome State Fault Refusal :=
  if 786432 ≤ word.toNat then .next s
  else
    let r := s.eccRead .mram (0x10000000 + 8 * word.toNat) 8 ecc
    let s1 := r.1.scrubRewrite r.2 ecc
    .next (if word.toNat = 786431 then s1.setFld QUE_SCRUB QUE_SCRUB_MPASS (s1.fld QUE_SCRUB QUE_SCRUB_MPASS + 1) else s1)

end Sys2Proof.Machine
end

