-- ==== Sys2Proof/Machine/Dma.lean ====
section
/-! DEFINITION. The fabric: line writes into MRAM (R292), DMA channels as far as their commands and triggers go (R298 to R301),
and the registers of QUE that belong to no queue or region (R313, R314). -/

namespace Sys2Proof.Machine

/-- The state with the fabric's own part changed. -/
def State.updFabric (s : State) (f : Fabric → Fabric) : State := { s with fabric := f s.fabric }

/-! ### Line writes (R290, R292) -/

/-- The QUE_MPROT bit of the area of a line (R290): none outside the region. -/
def mprotBit (a : Nat) : Option Nat :=
  if a < 0x10000000 ∨ 0x103C0000 ≤ a then none
  else if a < 0x101C0000 then some QUE_MPROT_A
  else if a < 0x10380000 then some QUE_MPROT_B
  else if a < 0x1039FC00 then some QUE_MPROT_C0
  else if a < 0x103A0000 then some QUE_MPROT_BC
  else if a < 0x103BFC00 then some QUE_MPROT_C1
  else some QUE_MPROT_BC

/-- The outcome of a line write that is certain before it runs: 1 PROT, 2 RANGE, 4 SRCERR, 0 none (R292, R314). -/
def State.lineResult (s : State) (dst : Nat) (srcBad : Bool) : Nat :=
  match mprotBit dst with
  | none => 2
  | some b => if s.bit QUE_MPROT b then 1 else if srcBad then 4 else 0

/-- A line write begins: the controller copies the source line (R292). -/
def State.lineStart (s : State) (by_ : Option Nat) (ecc : Ecc) : State :=
  let src := s.fld QUE_MSRC QUE_MSRC_ADDR * 32
  let dst := s.fld QUE_MDST QUE_MDST_ADDR * 32
  let r := s.eccRead .sram src 32 ecc
  (r.1.setFld QUE_MSTAT QUE_MSTAT_BUSY 1).updFabric fun f =>
    { f with line := some { by_ := by_, dst := dst, data := r.1.rdBytes src 32, result := r.1.lineResult dst r.2 } }

/-- The account of the policy target that commanded a line write (R497). -/
def State.pairAcct (s : State) (by_ : Option Nat) : Option Nat :=
  match by_ with
  | some t => s.binding (8 + t)
  | none => none

/-- The line's bytes after a write that did not verify: the spec does not say what the line then holds (log 7). -/
def State.brokenLine (s : State) : List Byte := (List.range 32).map fun i => BitVec.ofNat 8 (s.freeVal (0x29200 + i))

/-- The line write ends with a result (R292, R314). -/
def State.lineEnd (s : State) (l : LineWrite) (ok : Bool) : State :=
  let res := if l.result ≠ 0 then l.result else if ok then 0 else 3
  let s1 := if l.result ≠ 0 then s else if ok then s.wrBytes l.dst l.data else (s.wrBytes l.dst s.brokenLine).useFree
  let s2 := (s1.setFld QUE_MSTAT QUE_MSTAT_BUSY 0).setFld QUE_MSTAT QUE_MSTAT_RESULT res
  (s2.updFabric fun f => { f with line := none }).raise QUE_EVT (if res = 0 then QUE_EVT_MDONE else QUE_EVT_MERR)

/-! ### DMA (R298 to R302) -/

/-- DMA channel states (`QUE_DSTATc.STATE`). -/
abbrev dmIDLE : Nat := 0
abbrev dmWAIT : Nat := 1
abbrev dmRUN : Nat := 2
abbrev dmERR : Nat := 3

/-- The state with a channel's own part changed. -/
def State.updDma (s : State) (c : Nat) (f : Dma → Dma) : State := s.updFabric fun x => { x with dma := vupd x.dma c f }

/-- A channel's own part. -/
def State.dmaOf (s : State) (c : Nat) : Dma := vat s.fabric.dma c

/-- State of channel `c`. -/
def State.dmaState (s : State) (c : Nat) : Nat := s.fld (QUE_DSTAT c) QUE_DSTAT_STATE

/-- The account of channel `c` (R302). -/
def State.dmaAcct (s : State) (c : Nat) : Option Nat := some (s.fld (QUE_DCFG c) QUE_DCFG_ACCT)

/-- Descriptor fields (R298). -/
def dmaSrc (d : List Word) : Nat := (d.getD 0 0).toNat
def dmaDst (d : List Word) : Nat := (d.getD 1 0).toNat
def dmaLen (d : List Word) : Nat := (d.getD 2 0).toNat % 2 ^ 24
def dmaSize (d : List Word) : Nat := match (d.getD 2 0).toNat / 2 ^ 24 % 4 with | 0 => 1 | 1 => 2 | 2 => 4 | _ => 16
def dmaNext (d : List Word) : Nat := (d.getD 3 0).toNat / 16 * 16

/-- Bit `i` of a descriptor's third word. -/
def dmaBit (d : List Word) (i : Nat) : Bool := bitOf (d.getD 2 0) i

/-- An address lies in a register block. -/
def inRegs (a : Nat) : Bool := regionOf a == .regs

/-- A descriptor is legal (R299); a LEN of 0 lies outside its range (R298). -/
def dmaLegal (d : List Word) : Bool :=
  let z := dmaSize d
  dmaSrc d % z == 0 && dmaDst d % z == 0 && dmaLen d % z == 0 && dmaLen d != 0 && !dmaBit d 30 && !dmaBit d 31
  && ((!inRegs (dmaSrc d) && !inRegs (dmaDst d)) || z == 4)

/-- Channel `c` stops in ERR (R299): 1 illegal descriptor, 2 bus error, 3 uncorrectable word. -/
def State.dmaError (s : State) (c cause : Nat) : State :=
  (((s.setFld (QUE_DSTAT c) QUE_DSTAT_STATE dmERR).setFld (QUE_DSTAT c) QUE_DSTAT_CAUSE cause).raise QUE_EVT QUE_EVT_DERR).sendFault
    blkQUE c 0x10 clsU cause

/-- Channel `c` reads the descriptor at `a` (R298, R299): outside SRAM it is a bus error. -/
def State.dmaFetch (s : State) (c a : Nat) (ecc : Ecc) : State × Bool :=
  let s1 := s.setReg (QUE_DCUR c) (BitVec.ofNat 32 a)
  if a < 0x20000000 ∨ 0x20800000 ≤ a then (s1.dmaError c 2, false)
  else
    let r := (s1.budDraw (s1.dmaAcct c) resFABRIC 1).eccRead .sram a 16 ecc
    if r.2 then (r.1.dmaError c 3, false)
    else
      let d := r.1.rdWords a 4
      let s2 := (r.1.updDma c fun x => { x with desc := d, done := 0 }).setReg (QUE_DREM c) (BitVec.ofNat 32 (dmaLen d))
      if dmaLegal d then (s2, true) else (s2.dmaError c 1, false)

/-- The descriptor at `a` begins to run. -/
def State.dmaRun (s : State) (c a : Nat) (ecc : Ecc) : State :=
  let r := s.dmaFetch c a ecc
  if r.2 then r.1.setFld (QUE_DSTAT c) QUE_DSTAT_STATE dmRUN else r.1

/-- START: the channel waits at its first descriptor, which is checked (R301, R314). -/
def State.dmaStart (s : State) (c : Nat) (ecc : Ecc) : State :=
  let s1 := (s.setFld (QUE_DSTAT c) QUE_DSTAT_TPEND 0).setFld (QUE_DSTAT c) QUE_DSTAT_CAUSE 0
  let r := s1.dmaFetch c (s1.fld (QUE_DDESC c) QUE_DDESC_ADDR * 16) ecc
  if r.2 then r.1.setFld (QUE_DSTAT c) QUE_DSTAT_STATE dmWAIT else r.1

/-- STOP, or clearing EN: the channel is IDLE (R301). -/
def State.dmaStop (s : State) (c : Nat) : State :=
  (s.setFld (QUE_DSTAT c) QUE_DSTAT_STATE dmIDLE).setFld (QUE_DSTAT c) QUE_DSTAT_TPEND 0

/-- A trigger of channel `c`: it starts the waiting channel, is held while the channel runs, or is counted and dropped (R300). -/
def State.dmaTrigger (s : State) (c : Nat) (ecc : Ecc) : State :=
  if s.dmaState c = dmWAIT then s.dmaRun c (s.reg (QUE_DCUR c)).toNat ecc
  else if s.dmaState c = dmRUN then
    if s.fld (QUE_DSTAT c) QUE_DSTAT_TPEND = 0 then s.setFld (QUE_DSTAT c) QUE_DSTAT_TPEND 1
    else (s.count (QUE_DSTAT c) QUE_DSTAT_TOVR 1).raise QUE_EVT QUE_EVT_TOVR
  else s

/-- A pulse of trigger line `k` reaches the fabric (R300). -/
def State.dmaLine (s : State) (k : Nat) : State :=
  (List.range 16).foldl (fun t c => if t.fld (QUE_DCFG c) QUE_DCFG_TRIG = k then t.dmaTrigger c .clean else t) s

/-- The channel waits at descriptor `a`; a trigger held in TPEND starts it at once. -/
def State.dmaWait (s : State) (c a : Nat) : State :=
  let s1 := (s.setFld (QUE_DSTAT c) QUE_DSTAT_STATE dmWAIT).setReg (QUE_DCUR c) (BitVec.ofNat 32 a)
  if s1.fld (QUE_DSTAT c) QUE_DSTAT_TPEND = 1 then (s1.setFld (QUE_DSTAT c) QUE_DSTAT_TPEND 0).dmaRun c a .clean else s1

/-- The current descriptor is complete: DDONE where it asks for it, then the next descriptor of a chain, or WAIT at the next or,
after the last one, at the first (R298, R300; DEDUCED for the first). -/
def State.dmaComplete (s : State) (c : Nat) : State :=
  let d := (s.dmaOf c).desc
  let s1 := if dmaBit d 28 then s.raise QUE_EVT QUE_EVT_DDONE else s
  if dmaBit d 29 then s1.dmaWait c (s1.fld (QUE_DDESC c) QUE_DDESC_ADDR * 16)
  else if s1.fld (QUE_DCFG c) QUE_DCFG_MODE = 1 then s1.dmaRun c (dmaNext d) .clean
  else s1.dmaWait c (dmaNext d)

/-! ### Register writes (R313, R314) -/

/-- Channel of a QUE offset. -/
def dmaOfOff (o : Nat) : Nat := (o - 0xA00) / 0x20

/-- The chapter's own conditions for a write to a register of QUE that belongs to no queue. -/
def State.queLegal (s : State) (addr : Nat) (w : Word) : Bool :=
  let o := addr % 0x10000
  if addr = QUE_MCMD then w.toNat % 4 == 1 && s.fld QUE_MSTAT QUE_MSTAT_BUSY == 0
  else if addr = QUE_MSRC then regionOf (w.toNat / 32 * 32) == .mem .sram
  else if addr = QUE_MPROT then (s.reg QUE_MPROT &&& ~~~w).toNat % 32 == 0
  else if 0xA00 ≤ o ∧ o < 0xC00 then
    let c := dmaOfOff o
    if o % 0x20 = 0x04 then regionOf (w.toNat / 16 * 16) == .mem .sram
    else if o % 0x20 = 0x08 then
      let op := w.toNat % 4
      (op == 1 && s.dmaState c == dmIDLE && s.fld (QUE_DCFG c) QUE_DCFG_EN == 1)
      || ((op == 2 || op == 3) && s.dmaState c != dmIDLE)
    else true
  else true

/-- A write to a register of QUE that belongs to no queue, port or region; `by_` is the policy target that writes, `ecc` what the
code of the words read for a command shows. -/
def State.queWrite (s : State) (by_ : Option Nat) (addr : Nat) (w : Word) (ecc : Ecc) : State :=
  let o := addr % 0x10000
  let c := dmaOfOff o
  let locked := 0xA00 ≤ o && o < 0xC00 && s.fld (QUE_DCFG c) QUE_DCFG_EN == 1
  s.writeWith addr w locked (s.queLegal addr w) fun t =>
    if addr = QUE_MCMD then t.lineStart by_ ecc
    else if addr = QUE_CLR then (if bitOf w 0 then (t.setReg QUE_SECC 0).setReg QUE_MECC 0 else t)
    else if 0xA00 ≤ o ∧ o < 0xC00 then
      if o % 0x20 = 0x00 then (if locked && !bitOf w 0 then t.dmaStop c else t)
      else if o % 0x20 = 0x08 then
        let op := w.toNat % 4
        if op = 1 then t.dmaStart c ecc else if op = 2 then t.dmaStop c else t.dmaTrigger c ecc
      else t
    else t

/-! ### Commands -/

/-- `MRAM_LINE_WRITE` (R292): policy target `t` writes OP = 1 to QUE_MCMD. -/
def execMramLineWrite (t : Fin 4) (ecc : Ecc) (s : State) : Host.Outcome State Fault Refusal :=
  .next (s.queWrite (some t.val) QUE_MCMD 1 ecc)

/-- `MRAM_LINE_WRITE_DONE` (R292): the line write in progress completes its verify. It is charged to the account of the target
that commanded it, and waits while an ENFORCE account has no carat left (R502). -/
def execMramLineWriteDone (ok : Bool) (s : State) : Host.Outcome State Fault Refusal :=
  match s.fabric.line with
  | none => .next s
  | some l =>
    if s.budHas (s.pairAcct l.by_) resMRAM 1 then .next ((s.budDraw (s.pairAcct l.by_) resMRAM 1).lineEnd l ok)
    else .next (s.budStarve (s.pairAcct l.by_) resMRAM)

/-- `QUE_CLR_ECC` (R314): `QUE_CLR.ECC` = 1. -/
def execQueClrEcc (s : State) : Host.Outcome State Fault Refusal := .next (s.queWrite none QUE_CLR 1 .clean)

/-- `DMA_START` (R314): QUE_DCMDc START. -/
def execDmaStart (c : Fin 16) (ecc : Ecc) (s : State) : Host.Outcome State Fault Refusal :=
  .next (s.queWrite none (QUE_DCMD c) 1 ecc)

/-- `DMA_STOP` (R301): QUE_DCMDc STOP. -/
def execDmaStop (c : Fin 16) (s : State) : Host.Outcome State Fault Refusal := .next (s.queWrite none (QUE_DCMD c) 2 .clean)

/-- `DMA_SOFT` (R300): QUE_DCMDc SOFT. -/
def execDmaSoft (c : Fin 16) (ecc : Ecc) (s : State) : Host.Outcome State Fault Refusal :=
  .next (s.queWrite none (QUE_DCMD c) 3 ecc)

/-- `DMA_TRIGGER` (R300): a pulse of the trigger line that channel `c` selects reaches it. -/
def execDmaTrigger (c : Fin 16) (ecc : Ecc) (s : State) : Host.Outcome State Fault Refusal :=
  .next (if s.fld (QUE_DCFG c) QUE_DCFG_TRIG < 32 then s.dmaTrigger c ecc else s)

end Sys2Proof.Machine
end

