-- ==== Sys2Proof/Machine/Fadc.lean ====
section
/-! DEFINITION. The fast converters (R422 to R442, R450, R451, R455, R456, R458, R459). The raw code of a conversion comes with the
command that completes it. -/

namespace Sys2Proof.Machine

/-! ### Converters -/

/-- What fast converter `f` holds beside its registers. -/
def State.fadcOf (s : State) (f : Nat) : Fadc := vat s.fadc f

/-- The state with fast converter `f` changed. -/
def State.updFadc (s : State) (f : Nat) (g : Fadc → Fadc) : State := { s with fadc := vupd s.fadc f g }

/-- Converter `f` is enabled. -/
def State.fadcOn (s : State) (f : Nat) : Bool := s.bit FADC_CTRL f

/-- tACQ in slots, the aperture spacing and the end of bit cycling after an aperture (R423). -/
abbrev acqSlots : Nat := 20
abbrev aptSpacing : Nat := 80
abbrev cycSlots : Nat := 60

/-- The entries of a sequence or of the loop table, `n` of them from the registers at `key`. -/
def State.seqEntries (s : State) (key n : Nat) : List Nat :=
  (List.range n).map fun i => (s.reg (key + 4 * (i / 4))).toNat / 2 ^ (8 * (i % 4)) % 64

/-- An aperture falls more than 6.25 ns after its requested instant (R431). -/
def isDelayed (apt req : Nat) : Bool := decide (req + 3 ≤ apt)

/-! ### Sequences (R432 to R434) -/

/-- Slots of a sequence delay of `d` times 6.25 ns. -/
def delaySlots (d : Nat) : Nat := (5 * d + 1) / 2

/-- A run of the regular sequence starts. -/
def State.regStart (s : State) (f : Nat) : State :=
  let t := s.now + delaySlots (s.fld (FADC_DLY f) FADC_DLY_RDLY)
  (s.setBit FADC_STAT f true).updFadc f fun c => { c with
    reg := { ents := s.seqEntries (FADC_RSQ f 0) (s.fld (FADC_CFG f) FADC_CFG_RLEN + 1), idx := 0, at_ := t, req := t + acqSlots } }

/-- A run of the injected sequence starts. -/
def State.jinjStart (s : State) (f : Nat) : State :=
  let t := s.now + delaySlots (s.fld (FADC_DLY f) FADC_DLY_JDLY)
  (s.setBit FADC_STAT (4 + f) true).updFadc f fun c => { c with
    inj := { ents := s.seqEntries (FADC_JSQ f) (s.fld (FADC_CFG f) FADC_CFG_JLEN + 1), idx := 0, at_ := t, req := t + acqSlots } }

/-- A trigger is dropped (R434). -/
def State.trigDropped (s : State) (f : Nat) : State :=
  (s.count (FADC_CNT f) FADC_CNT_TOVR 1).raise FADC_EVT FADC_EVT_TOVR

/-- A trigger of the regular sequence (R434). -/
def State.regTrigger (s : State) (f : Nat) : State :=
  if !s.fadcOn f then s
  else if !s.bit FADC_STAT f then s.regStart f
  else if s.bit FADC_STAT (12 + f) then s.trigDropped f else s.setBit FADC_STAT (12 + f) true

/-- A trigger of the injected sequence (R434). -/
def State.jinjTrigger (s : State) (f : Nat) : State :=
  if !s.fadcOn f then s
  else if !s.bit FADC_STAT (4 + f) then s.jinjStart f
  else if s.bit FADC_STAT (16 + f) then s.trigDropped f else s.setBit FADC_STAT (16 + f) true

/-- The regular sequence completes (R432, R434). -/
def State.regDone (s : State) (f : Nat) : State :=
  let s1 := ((s.setBit FADC_STAT f false).raise FADC_EVT f).pulseSelected .converter (0x48 + f)
  if s1.bit FADC_STAT (12 + f) then (s1.setBit FADC_STAT (12 + f) false).regStart f else s1

/-- The injected sequence completes (R433, R434). -/
def State.jinjDone (s : State) (f : Nat) : State :=
  let s1 := (s.setBit FADC_STAT (4 + f) false).raise FADC_EVT (4 + f)
  if s1.bit FADC_STAT (16 + f) then (s1.setBit FADC_STAT (16 + f) false).jinjStart f else s1

/-! ### Beginning a conversion (R426 to R431, R435) -/

/-- A conversion begins: its aperture is `apt`, requested at `req`. -/
def State.beginConv (s : State) (f : Nat) (c : Conv) (req : Option Nat) : State :=
  let d := match req with | some r => isDelayed c.apt r | none => false
  let s1 := if d then (s.count (FADC_CNT f) FADC_CNT_DLY 1).raise FADC_EVT FADC_EVT_DLY else s
  s1.updFadc f fun x => { x with conv := x.conv ++ [{ c with dly := d }], lastApt := some c.apt }

/-- The conversions of converter `f` that still acquire or cycle bits. -/
def State.busyConv (s : State) (f : Nat) : List Conv := (s.fadcOf f).conv.filter fun c => !c.miss && decide (s.now < c.apt + cycSlots)

/-- An abandoned conversion is converted again, repeated or skipped (R429). -/
def Fadc.abandon (x : Fadc) (c : Conv) : Fadc :=
  let y := { x with conv := x.conv.filter fun d => d != c }
  if c.src = 1 then { y with inj := { y.inj with idx := c.idx } }
  else if c.src = 2 then { y with reg := { y.reg with idx := c.idx } }
  else if c.src = 4 then { y with cal := y.cal.map fun k => { k with begun := k.begun - 1 } }
  else y

/-- A SAMPLE dispatch arrives (R429, R430): a conversion of another source is abandoned. -/
def State.takeSample (s : State) (input slot : Nat) (w2 w3 : Word) : State :=
  let f := input / 12
  let other := (s.busyConv f).filter fun c => c.src != 0
  let s1 : State := other.foldl (fun t c => t.updFadc f fun x => x.abandon c) s
  let t0 := if other.isEmpty then max slot s.now else max slot (s.now + acqSlots)
  let angles := (s1.fadcOf f).conv.filter fun c => !c.miss
  let apt := match angles.getLast? with
    | some c => max t0 (c.apt + aptSpacing)
    | none => t0
  s1.beginConv f { src := 0, input := input, gain := s.fld (FADC_CH input) FADC_CH_GAIN, apt := apt, kill := !s.fadcOn f
                   w2 := w2, w3 := w3 } (some slot)

/-- A conversion of another source leaves room for the earliest released SAMPLE (R427): an aperture at tACQ from now lies at least
250 ns before its predicted slot. -/
def State.reserved (s : State) (f : Nat) : Bool :=
  s.stage.any fun a => a.kind == kSAMPLE && a.chan / 12 == f && wReached (s.project 119) a.w0

/-- CONV is charged to the account of the converter's sequences and loop (R497). -/
def State.convAcct (s : State) (f : Nat) : Option Nat := s.binding (12 + f)

/-- The next entry of a sequence begins: the run after it. -/
def SeqRun.step (r : SeqRun) (apt : Nat) : SeqRun := { r with idx := r.idx + 1, req := apt + aptSpacing }

/-- The next conversion of a sequence, the loop or a calibration begins, if one is waiting (R426): injected, regular,
self-calibration, loop. A starved account holds a sequence or the loop back (R502). -/
def State.nextConv (s : State) (f : Nat) : State :=
  let x := s.fadcOf f
  let apt := max (s.now + acqSlots) (match x.lastApt with | some t => t + aptSpacing | none => 0)
  let has := s.budHas (s.convAcct f) resCONV 1
  let mk : Nat → Nat → Nat → Conv := fun src input idx =>
    { src := src, input := input, gain := s.fld (FADC_CH input) FADC_CH_GAIN, apt := apt, idx := idx }
  let starved := s.budStarve (s.convAcct f) resCONV
  let jWait := s.bit FADC_STAT (4 + f) && decide (x.inj.idx < x.inj.ents.length) && decide (x.inj.at_ ≤ s.now)
  let rWait := s.bit FADC_STAT f && decide (x.reg.idx < x.reg.ents.length) && decide (x.reg.at_ ≤ s.now)
  if jWait && has then
    ((s.budDraw (s.convAcct f) resCONV 1).beginConv f (mk 1 (x.inj.ents.getD x.inj.idx 0) x.inj.idx) (some x.inj.req)).updFadc f
      fun y => { y with inj := y.inj.step apt }
  else if rWait && has then
    ((s.budDraw (s.convAcct f) resCONV 1).beginConv f (mk 2 (x.reg.ents.getD x.reg.idx 0) x.reg.idx) (some x.reg.req)).updFadc f
      fun y => { y with reg := y.reg.step apt }
  else
    let s0 := if jWait || rWait then starved else s
    let calNext := match x.cal with | some k => decide (k.begun < 128) && !k.gains.isEmpty | none => false
    match x.cal, calNext with
    | some k, true =>
      (s0.beginConv f { src := 4, input := 0, gain := k.gains.headD 0, apt := apt, idx := k.begun } none).updFadc f fun y =>
        { y with cal := some { k with begun := k.begun + 1 } }
    | _, _ =>
      let ents := if x.loopIdx = 0 then s.seqEntries (FADC_LSQ f 0) (s.fld (FADC_CFG f) FADC_CFG_LLEN) else x.loop
      if ents.isEmpty then s0.updFadc f fun y => { y with loop := ents }
      else if !has then starved
      else
        ((s.budDraw (s.convAcct f) resCONV 1).beginConv f (mk 3 (ents.getD x.loopIdx 0) x.loopIdx) none).updFadc f fun y =>
          { y with loop := ents, loopIdx := if x.loopIdx + 1 < ents.length then x.loopIdx + 1 else 0 }

/-! ### Results (R424, R425, R436, R438 to R441, R455) -/

/-- CODE of R424. -/
def State.fastCode (s : State) (f gain raw : Nat) : Nat :=
  let w := s.reg (FADC_CAL f gain)
  let v : Int := ((raw : Int) - FADC_CAL_OFS.getI w) * FADC_CAL_GC.get w / 32768
  (clampI 0 65535 v).toNat

/-- A watched result outside (`out`) or inside its window: the watch after it, and whether WINF is set now (R455). -/
def Watch.window (w : Watch) (out : Bool) (nwin : Nat) : Watch × Bool :=
  if out then
    (if nwin ≤ w.out + 1 ∧ !w.set then ({ w with out := w.out + 1, set := true }, true) else ({ w with out := w.out + 1 }, false))
  else ({ w with out := 0, set := false }, false)

/-- A valid result of input `n` (R455, R456). -/
def State.faWatched (s : State) (n : Nat) (out : Bool) : State :=
  let r := (vat s.faWatch n).window out (s.fld (FADC_CH n) FADC_CH_NWIN)
  let s1 := { s with faWatch := vset s.faWatch n { r.1 with okAt := s.now } }
  if r.2 then (s1.raise FADC_EVT FADC_EVT_WINF).sendFault blkFADC (n / 12) 0x06 clsC n else s1

/-- The test DAC is connected to an input: 0 to 47 FA, 48 to 63 PA (R450). -/
def State.dacOn (s : State) (n : Nat) : Bool :=
  s.fld FADC_TDAC FADC_TDAC_MODE != 0 && s.fld FADC_TDAC FADC_TDAC_INPUT == n

/-- The result word of R439. -/
def resultWord (code chan src : Nat) (inv ovr recov miss dly win tst : Bool) : Word :=
  BitVec.ofNat 32 (code + 2 ^ 16 * chan + 2 ^ 22 * src + 2 ^ 24 * b2n inv + 2 ^ 25 * b2n ovr + 2 ^ 26 * b2n recov
    + 2 ^ 27 * b2n miss + 2 ^ 28 * b2n dly + 2 ^ 29 * b2n win + 2 ^ 30 * b2n tst)

/-- A sample entry goes into a queue; one that is not taken sets QDROP. -/
def State.samplePut (s : State) (q : Nat) (e : List Byte) : State :=
  let r := s.qputFor (s.binding 3) q e
  if r.2 = qPUT then r.1 else r.1.raise FADC_EVT FADC_EVT_QDROP

/-- A sample entry reaches the destinations of its descriptor (R437, R438). -/
def State.deliverSample (s : State) (c : Conv) (res angle slot : Word) : State :=
  let cyl := c.w2.toNat / 2 ^ 16 % 16
  let s1 := if bitOf c.w2 0 then s.launch .converter .combustion (.cmbSample cyl res angle slot c.w3) else s
  if bitOf c.w2 1 then s1.samplePut (c.w2.toNat / 2 ^ 8 % 32) (wordsToBytes [res, angle, slot, c.w3]) else s1

/-- Missing-sample markers at the front reach their destinations (R441); at most `n` of them. -/
def State.deliverMissing (s : State) (f : Nat) : Nat → State
  | 0 => s
  | n + 1 =>
    match (s.fadcOf f).conv with
    | c :: t =>
      if c.miss then
        let s1 := s.updFadc f fun x => { x with conv := t }
        State.deliverMissing (s1.deliverSample c (resultWord 0 c.input 0 true false false true false false false)
          (c.ang.getD 0) (s.slotAt c.apt)) f n
      else s
    | [] => s

/-- A finished calibration of a converter (R451). -/
def State.fcalFinish (s : State) (f : Nat) (pairs : List (Nat × Int × Int)) : State :=
  let ok := pairs.all fun p => decide (-4095 ≤ p.2.1 ∧ p.2.1 ≤ 4095 ∧ 16384 ≤ p.2.2 ∧ p.2.2 ≤ 49151)
  let s1 := (s.setBit FADC_STAT (8 + f) false).updFadc f fun x => { x with cal := none }
  if ok then
    State.raise (pairs.foldl (fun t p => (t.setFld (FADC_CAL f p.1) FADC_CAL_OFS (patternOf 16 p.2.1)).setFld (FADC_CAL f p.1)
      FADC_CAL_GC p.2.2.toNat) s1) FADC_EVT FADC_EVT_CALDONE
  else (s1.raise FADC_EVT FADC_EVT_CALERR).sendFault blkFADC f 0x10 clsC 0

/-- A calibration conversion completes with a raw code (R451): the internal zero 64 times, then the reference 64 times. A
reference equal to the zero gives no gain, which counts as one out of range. -/
def State.fcalStep (s : State) (f raw : Nat) : State :=
  match (s.fadcOf f).cal with
  | none => s
  | some k =>
    let k1 := { k with
      done := k.done + 1
      sum0 := if k.done < 64 then k.sum0 + raw else k.sum0
      sum1 := if k.done < 64 then k.sum1 else k.sum1 + raw }
    if k1.done < 128 then s.updFadc f fun x => { x with cal := some k1 }
    else
      let d : Int := (k1.sum1 : Int) - k1.sum0
      let gc : Int := if d = 0 then 0 else rround (((49152 * 32768 * 64 : Int) : Rat) / (d : Rat))
      let ps := k1.pairs ++ [(k1.gains.headD 0, roundDiv k1.sum0 64, gc)]
      if k1.gains.tail.isEmpty then s.fcalFinish f ps
      else s.updFadc f fun x => { x with cal := some { gains := k1.gains.tail, pairs := ps } }

/-- A conversion of converter `f` completes with a raw code; `outside`: its input lies outside the range (R440). -/
def State.convDone (s : State) (f : Nat) (c : Conv) (raw : Nat) (outside : Bool) : State :=
  let x := s.fadcOf f
  let n := c.input
  let inv := c.kill || x.gains.any fun g => g != c.gain
  let ovr := outside && (raw == 0 || raw == 65535)
  let code := if c.kill then 0 else s.fastCode f c.gain raw
  let lo := s.fld (FADC_WIN n) FADC_WIN_LO
  let hi := s.fld (FADC_WIN n) FADC_WIN_HI
  let out := decide (code < lo) || decide (hi < code)
  let res := resultWord code n (min c.src 3) inv ovr (0 < x.recov) false c.dly (out && !inv) (s.dacOn n)
  let s1 := s.updFadc f fun y => { y with
    gains := (c.gain :: y.gains).take 2, recov := if ovr then 2 else y.recov - 1 }
  let s2 := if ovr then (s1.count (FADC_CNT f) FADC_CNT_OVR 1).raise FADC_EVT FADC_EVT_OVR else s1
  if c.src = 4 then s2.fcalStep f raw
  else
    let s3 := s2.setReg (FADC_LAST n) res
    let s4 := if inv then s3 else s3.faWatched n out
    let xOn := s.fld PADC_STAT PADC_STAT_XRUN == 1 && s.fld PADC_XCFG PADC_XCFG_SRC == 2 && s.fld PADC_XCFG PADC_XCFG_SEL == n
    let volts : Rat := (code : Rat) * (16 / 10) / ((2 ^ c.gain * 65536 : Nat) : Rat)
    let s5 := if xOn then { s4 with mains := { s4.mains with xSum := s4.mains.xSum + volts, xCnt := s4.mains.xCnt + 1 } } else s4
    let angle := c.ang.getD s.obsAng
    let slot := s.slotAt c.apt
    let seqQ := fun (t : State) => if t.fld (FADC_OPT f) FADC_OPT_QEN = 1
      then t.samplePut (t.fld (FADC_OPT f) FADC_OPT_QUE) (wordsToBytes [res, angle, slot, 0]) else t
    if c.src = 0 then s5.deliverSample c res angle slot
    else if c.src = 1 then
      let s6 := seqQ (s5.setReg (FADC_JDAT f c.idx) res)
      if s6.bit FADC_STAT (4 + f) && c.idx + 1 == (s6.fadcOf f).inj.ents.length then s6.jinjDone f else s6
    else if c.src = 2 then
      let s6 := seqQ (s5.setReg (FADC_RDAT f c.idx) res)
      if s6.bit FADC_STAT f && c.idx + 1 == (s6.fadcOf f).reg.ents.length then s6.regDone f else s6
    else s5

/-- The angle word in the slot of an aperture is kept for its entry (R438). -/
def State.runFadc (s : State) : State :=
  { s with fadc := (List.range 4).foldl (fun v f => vupd v f fun x => { x with
      conv := x.conv.map fun c => if c.ang.isNone && decide (c.apt ≤ s.now) then { c with ang := some s.obsAng } else c }) s.fadc }

/-! ### Enables and registers (R442, R459) -/

/-- A converter comes to be disabled (R442). -/
def State.fadcDisable (s : State) (f : Nat) : State :=
  let s1 := s.disableSamples f
  let s2 : State := [f, 4 + f, 8 + f, 12 + f, 16 + f].foldl (fun t b => t.setBit FADC_STAT b false) s1
  s2.updFadc f fun x => { x with
    conv := x.conv.map fun c => { c with kill := true }, reg := {}, inj := {}, cal := none, loopIdx := 0 }

/-- A converter comes to be enabled: its loop begins at entry 0 and its inputs' timeouts start (R442, R456). -/
def State.fadcEnable (s : State) (f : Nat) : State :=
  let s1 := s.updFadc f fun x => { x with loopIdx := 0, reg := {}, inj := {} }
  { s1 with faWatch := (List.range 12).foldl (fun v i => vupd v (12 * f + i) fun w => { w with okAt := s.now }) s1.faWatch }

/-- Self-calibration of converter `f` begins for the gains of CALG (R451). -/
def State.fcalStart (s : State) (f : Nat) : State :=
  (s.setBit FADC_STAT (8 + f) true).updFadc f fun x => { x with
    cal := some { gains := (List.range 4).filter fun g => (s.fld (FADC_OPT f) FADC_OPT_CALG).testBit g } }

/-- The chapter's own conditions for a write to a register of FADC (R459). -/
def State.fadcLegal (s : State) (addr : Nat) (w : Word) : Bool :=
  let o := addr % 0x10000
  let f := (o - 0x100) / 0x100
  let r := o % 0x100
  if addr = FADC_CMD then
    (List.range 4).all fun i => (!bitOf w i || s.fadcOn i) && (!bitOf w (4 + i) || s.fadcOn i) &&
      (!bitOf w (8 + i) || (s.fadcOn i && s.fld (FADC_OPT i) FADC_OPT_CALG != 0 && !s.bit FADC_STAT (8 + i)))
  else if 0x1000 ≤ o then (if o % 0x10 = 4 then decide (FADC_WIN_LO.get w ≤ FADC_WIN_HI.get w) else true)
  else if 0x100 ≤ o ∧ 0x10 ≤ r ∧ r < 0x40 then
    [0, 8, 16, 24].all fun b => let e := w.toNat / 2 ^ b % 64; decide (12 * f ≤ e ∧ e < 12 * f + 12)
  else true

/-- A write to a register of FADC. -/
def State.fadcWrite (s : State) (addr : Nat) (w : Word) : State :=
  s.writeWith addr w false (s.fadcLegal addr w) fun t =>
    if addr = FADC_CTRL then
      (List.range 4).foldl (fun u f =>
        if s.fadcOn f && !t.fadcOn f then u.fadcDisable f else if !s.fadcOn f && t.fadcOn f then u.fadcEnable f else u) t
    else if addr = FADC_CMD then
      (List.range 4).foldl (fun u f =>
        let u1 := if bitOf w f then u.regTrigger f else u
        let u2 := if bitOf w (4 + f) then u1.jinjTrigger f else u1
        if bitOf w (8 + f) then u2.fcalStart f else u2) t
    else t

/-- A pulse of trigger line `k` reaches the fast converters (R432, R433). -/
def State.fadcLine (s : State) (k : Nat) : State :=
  (List.range 4).foldl (fun t f =>
    let t1 := if t.fld (FADC_CFG f) FADC_CFG_RTRIG = k then t.regTrigger f else t
    if t1.fld (FADC_CFG f) FADC_CFG_JTRIG = k then t1.jinjTrigger f else t1) s

/-- A missing-sample marker takes its position (R441). -/
def State.takeMissing (s : State) (input : Nat) (angle : Word) (slot : Nat) (w2 w3 : Word) : State :=
  let f := input / 12
  State.deliverMissing (s.updFadc f fun x => { x with
    conv := x.conv ++ [{ input := input, apt := slot, miss := true, ang := some angle, w2 := w2, w3 := w3 }] }) f 1

/-! ### Commands -/

/-- `FADC_SAMPLE_DISPATCH` (R429): the oldest item of the crossing from the angle island, if it is a SAMPLE dispatch or a
missing-sample marker. -/
def execFadcSampleDispatch (s : State) : Host.Outcome State Fault Refusal :=
  match s.nextItem .angle .converter with
  | some (.sample i slot _ w2 w3) => .next ((s.ackItem .angle .converter).takeSample i slot w2 w3)
  | some (.sampleMiss i a slot w2 w3) => .next ((s.ackItem .angle .converter).takeMissing i a slot w2 w3)
  | _ => .next s

/-- `FADC_NEXT_CONVERSION` (R426): an enabled converter that can begin an acquisition begins the next conversion, unless it is
reserved for a SAMPLE. -/
def execFadcNextConversion (f : Fin 4) (s : State) : Host.Outcome State Fault Refusal :=
  .next (if s.fadcOn f && (s.busyConv f).isEmpty && !s.reserved f then s.nextConv f else s)

/-- `FADC_CONVERSION_DONE` (R423): the oldest conversion of the converter completes, 200 ns after its aperture. -/
def execFadcConversionDone (f : Fin 4) (raw : BitVec 16) (outside : Bool) (s : State) : Host.Outcome State Fault Refusal :=
  match (s.fadcOf f).conv with
  | c :: t =>
    if !c.miss && decide (c.apt + aptSpacing ≤ s.now) then
      .next (State.deliverMissing ((s.updFadc f fun x => { x with conv := t }).convDone f c raw.toNat outside) f t.length)
    else .next s
  | [] => .next s

/-- `FADC_REGULAR_TRIGGER` (R432): a pulse of trigger line `line` reaches the regular sequences. -/
def execFadcRegularTrigger (line : Fin 32) (s : State) : Host.Outcome State Fault Refusal :=
  .next ((List.range 4).foldl (fun t f => if t.fld (FADC_CFG f) FADC_CFG_RTRIG = line.val then t.regTrigger f else t) s)

/-- `FADC_INJECTED_TRIGGER` (R433): a pulse of trigger line `line` reaches the injected sequences. -/
def execFadcInjectedTrigger (line : Fin 32) (s : State) : Host.Outcome State Fault Refusal :=
  .next ((List.range 4).foldl (fun t f => if t.fld (FADC_CFG f) FADC_CFG_JTRIG = line.val then t.jinjTrigger f else t) s)

/-- `FADC_RSW` (R432): a write to FADC_CMD with RSW bits. -/
def execFadcRsw (conv : BitVec 4) (s : State) : Host.Outcome State Fault Refusal :=
  .next (s.fadcWrite FADC_CMD (conv.setWidth 32))

/-- `FADC_JSW` (R433): a write to FADC_CMD with JSW bits. -/
def execFadcJsw (conv : BitVec 4) (s : State) : Host.Outcome State Fault Refusal :=
  .next (s.fadcWrite FADC_CMD (conv.setWidth 32 <<< 4))

/-- `FADC_SCAL` (R451): a write to FADC_CMD with SCAL bits. -/
def execFadcScal (conv : BitVec 4) (s : State) : Host.Outcome State Fault Refusal :=
  .next (s.fadcWrite FADC_CMD (conv.setWidth 32 <<< 8))

/-- `FADC_DISABLE` (R442): a write to FADC_CTRL. -/
def execFadcDisable (w : Word) (s : State) : Host.Outcome State Fault Refusal := .next (s.fadcWrite FADC_CTRL w)

end Sys2Proof.Machine
end

