-- ==== Sys2Proof/Machine/Locket.lean ====
section
/-! DEFINITION. The Locket recorder (R571 to R592, R599 to R605): records, blocks and seals, the input queue, the commit at supply
warning, start-up, the pinned area, verification, authorised requests, calendar time. -/

namespace Sys2Proof.Machine

/-! ### Record types (R573) -/

abbrev rtFAULT : Nat := 0x01
abbrev rtBOOT : Nat := 0x02
abbrev rtREVERT : Nat := 0x03
abbrev rtUSER : Nat := 0x04
abbrev rtSUPWARN : Nat := 0x05
abbrev rtLOST : Nat := 0x06
abbrev rtTORN : Nat := 0x07
abbrev rtLINK : Nat := 0x08
abbrev rtSEALR : Nat := 0x09
abbrev rtSEALS : Nat := 0x0A
abbrev rtCLEAR : Nat := 0x0B
abbrev rtCLRDONE : Nat := 0x0C
abbrev rtENROL : Nat := 0x0D
abbrev rtTIME : Nat := 0x0E
abbrev rtROLLBK : Nat := 0x0F
abbrev rtDEBUG : Nat := 0x10

/-! ### Records as bytes (R571, R572) -/

/-- Keys of the slots of the ring and of the pinned area (R575, R584), and their number. -/
def lktBase (area : Bool) : Nat := if area then 0x105C0000 else 0x103C0000
def lktSlots (area : Bool) : Nat := if area then 4096 else 32768
def lktKey (area : Bool) (slot : Nat) : Nat := lktBase area + 64 * slot

/-- A record of a type with a payload, stamped with the calendar time, the angle and the sync state now (R571). -/
def State.lktStamp (s : State) (typ : Nat) (pin : Bool) (payload : List Byte) : LktRec :=
  { typ := typ, pin := pin, tsec := s.calSec, tns := s.calNs,
    src := s.fld HMK_UNIT HMK_UNIT_UNIT + 2 ^ 18 * s.tsrc,
    sgen := s.fld OBS_STATE OBS_STATE_SGEN, sync := s.syncSt, ang := s.obsAng, payload := payload }

/-- The record's bytes 18 to 20. -/
def LktRec.unitBytes (r : LktRec) : List Byte := toBytes 3 r.src

/-- The 64 bytes of a record with its SEQ and FLAGS. -/
def LktRec.bytes (r : LktRec) (seq flags : Nat) : List Byte :=
  let l := toBytes 6 seq ++ toBytes 1 r.typ ++ toBytes 1 flags ++ toBytes 6 r.tsec ++ toBytes 4 r.tns ++ r.unitBytes
    ++ toBytes 1 r.sgen ++ toBytes 1 r.sync ++ toBytes 1 0 ++ toBytes 4 r.ang.toNat ++ slice r.payload 0 32
  l ++ toBytes 4 (crc32 l)

/-- The record in a slot. -/
def State.slotBytes (s : State) (area : Bool) (slot : Nat) : List Byte := s.rdBytes (lktKey area slot) 64

/-- A slot holds a valid record (R572). -/
def recValid (l : List Byte) : Bool :=
  let t := field l 6 1
  decide (1 ≤ t ∧ t ≤ 0x10) && (field l 60 4 == crc32 (l.take 60))

def recSeq (l : List Byte) : Nat := field l 0 6
def recType (l : List Byte) : Nat := field l 6 1

/-- The chain hash of a block's records before its SEALR (R577). -/
def chainHash : List (List Byte) → List Byte
  | [] => List.replicate 32 0
  | l :: t => t.foldl (fun h r => Config.sha256 (h ++ r)) (Config.sha256 l)

/-! ### Status registers (R605) -/

/-- The registers that show what Locket holds. -/
def State.lktShow (s : State) : State :=
  let l := s.lkt
  let s1 := ((s.setFld LKT_STAT LKT_STAT_QCNT l.queue.length).setFld LKT_STAT LKT_STAT_SIGN (b2n (!l.signs.isEmpty))).setFld LKT_PHEAD
    LKT_PHEAD_SLOT l.pinned.slot
  let s2 := if l.oldest.isNone then ((s1.setReg LKT_HEADL 0).setReg LKT_HEADH 0)
    else
      let q := l.ring.seq - 1
      let i := (l.ring.slot + 32767) % 32768
      (s1.setReg LKT_HEADL (BitVec.ofNat 32 q)).setReg LKT_HEADH (BitVec.ofNat 32 (q / 2 ^ 32 + 2 ^ 16 * i))
  match l.oldest with
  | none => (s2.setReg LKT_OLDL 0).setReg LKT_OLDH 0
  | some (i, q) => (s2.setReg LKT_OLDL (BitVec.ofNat 32 q)).setReg LKT_OLDH (BitVec.ofNat 32 (q / 2 ^ 32 + 2 ^ 16 * i))

/-! ### Writing a record (R574 to R577, R584, R585) -/

/-- An area of Locket, and the state with it changed. -/
def State.lktArea (s : State) (area : Bool) : LktArea := if area then s.lkt.pinned else s.lkt.ring
def State.updArea (s : State) (area : Bool) (f : LktArea → LktArea) : State :=
  s.updLkt fun l => if area then { l with pinned := f l.pinned } else { l with ring := f l.ring }

/-- The open block of an area after a record of a type has been written to it: a LINK opens one, a SEALS closes it and its hash is
kept for the next LINK, SEALR is not part of the hash. -/
def LktArea.hashed (a : LktArea) (typ : Nat) (bytes : List Byte) : LktArea :=
  if typ = rtLINK then { a with blk := some (1, Config.sha256 bytes) }
  else if typ = rtSEALR then a
  else if typ = rtSEALS then { a with blk := none, prev := match a.blk with | some b => b.2 | none => a.prev }
  else match a.blk with
    | some (n, h) => { a with blk := some (n + 1, Config.sha256 (h ++ bytes)) }
    | none => a

/-- A record of 64 bytes goes into the next slot of an area, with or without the next SEQ of that area. -/
def State.putSlot (s : State) (area : Bool) (typ : Nat) (bytes : List Byte) (counts : Bool) : State :=
  let a := s.lktArea area
  (s.wrBytes (lktKey area a.slot) bytes).updArea area fun x =>
    { x.hashed typ bytes with slot := if area then x.slot + 1 else (x.slot + 1) % 32768, seq := if counts then x.seq + 1 else x.seq }

/-- Slots a pinned copy needs: a LINK where no block is open, itself, and a seal pair (R584). -/
def State.copyFits (s : State) : Bool :=
  decide (s.lkt.pinned.slot + (if s.lkt.pinned.blk.isNone then 1 else 0) + 3 ≤ 4096)

/-- FLAGS of a record about to be written (R571, R584). -/
def State.recFlags (s : State) (r : LktRec) : Nat :=
  (if r.pin then (if s.copyFits then 1 else 2) else 0) + 4 * b2n r.early

/-- A LINK of an area, carrying H of the block before (R573, R576). -/
def State.linkRec (s : State) (area : Bool) : LktRec := { s.lktStamp rtLINK false (s.lktArea area).prev with area := area }

/-- A record of an area written whole, under that area's next SEQ. -/
def State.putRec (s : State) (r : LktRec) : State :=
  s.putSlot r.area r.typ (r.bytes (s.lktArea r.area).seq (s.recFlags r)) true

/-- A seal is asked for, unless one of that area is waiting or its records are still to be written. -/
def State.askSeal (s : State) (area early : Bool) : State :=
  if (s.lktArea area).blk.isNone || s.lkt.signs.any (fun q => q.1 == area) || s.lkt.own.any (fun r => r.area == area && r.typ == rtSEALS)
  then s else (s.updLkt fun l => { l with signs := l.signs ++ [(area, early)] }).lktShow

/-- A block of an area that holds its LINK and 61 others asks for its seal (R576). -/
def State.fullBlock (s : State) (area : Bool) : State :=
  match (s.lktArea area).blk with
  | some (n, _) => if 62 ≤ n then s.askSeal area false else s
  | none => s

/-- The pinned copy of a ring record (R584). -/
def State.putCopy (s : State) (r : LktRec) (bytes : List Byte) : State :=
  let s1 := if s.lkt.pinned.blk.isNone then s.putRec (s.linkRec true) else s
  ((s1.putSlot true r.typ bytes false).updLkt fun l => { l with copyAt := some s.now }).fullBlock true

/-- The ring record just written is the newest one; the oldest gives way when its slot is taken (R586). -/
def State.noteRing (s : State) (slot seq : Nat) : State :=
  s.updLkt fun l => { l with oldest := match l.oldest with
    | none => some (slot, seq)
    | some (i, q) => if i = slot then
        (let n := s.slotBytes false ((slot + 1) % 32768)
         if recValid n then some ((slot + 1) % 32768, recSeq n) else some (slot, seq))
      else some (i, q) }

/-- What follows a ring record whose second line has verified: its pinned copy or the loss of it, its block, and what a LOST or a
SEALS record means. -/
def State.afterRing (s : State) (r : LktRec) (bytes : List Byte) : State :=
  let flags := field bytes 7 1
  let s1 := if flags % 2 = 1 then s.putCopy r bytes
    else if flags / 2 % 2 = 1 then ((s.count LKT_CNT LKT_CNT_PDROP 1).setFld LKT_STAT LKT_STAT_PFULL 1).raise LKT_EVT LKT_EVT_PFULL
    else s
  let s2 := if r.typ = rtLOST then (s1.raise LKT_EVT LKT_EVT_LOST).sendFault blkLKT 0 0x10 clsC (field r.payload 0 2)
    else if r.typ = rtSEALS then s1.raise LKT_EVT LKT_EVT_SEALED else s1
  s2.fullBlock false

/-- A ring record written at once: both lines, and what follows. -/
def State.putRing (s : State) (r : LktRec) : State :=
  let slot := s.lkt.ring.slot
  let seq := s.lkt.ring.seq
  let b := r.bytes seq (s.recFlags r)
  (((s.putSlot false r.typ b true).noteRing slot seq).afterRing r b).lktShow

/-- A record of either area written at once. -/
def State.putAny (s : State) (r : LktRec) : State :=
  if r.area then
    let s1 := s.putRec r
    (if r.typ = rtSEALS then s1.raise LKT_EVT LKT_EVT_SEALED else s1).lktShow
  else s.putRing r

/-! ### Seals (R577, R578) -/

/-- The seal pair of an area's open block, and the LINK that follows it. -/
def State.sealRecs (s : State) (area early : Bool) : List LktRec :=
  match (s.lktArea area).blk with
  | none => []
  | some (_, h) =>
    let st (typ : Nat) (p : List Byte) : LktRec := { s.lktStamp typ false p with area := area, early := early }
    let r0 := st rtSEALR []
    let sig := Config.ecdsaSign Config.devPrivate (h ++ toBytes 6 (s.lktArea area).seq ++ r0.unitBytes)
    [{ r0 with payload := slice sig 0 32 }, st rtSEALS (slice sig 32 32), { st rtLINK h with early := false }]

/-- The seal pair of an area's open block written at once, without the LINK after it (start-up and clear). -/
def State.sealNow (s : State) (area : Bool) : State :=
  match s.sealRecs area true with
  | a :: b :: _ => (s.putAny a).putAny b
  | _ => s

/-! ### The input queue (R580) -/

/-- Entries are refused: Locket is closed. -/
def State.lktClosed (s : State) : Bool := s.fld LKT_STAT LKT_STAT_CLOSED == 1

/-- An entry is dropped and counted; the first drop's time is kept. -/
def State.lktDrop (s : State) : State :=
  let s1 := s.count LKT_CNT LKT_CNT_DROP 1
  if s.lktClosed then s1
  else s1.updLkt fun l => { l with drops := l.drops + 1, dropAt := if l.drops = 0 then (s.calSec, s.calNs) else l.dropAt }

/-- An entry reaches the input queue. -/
def State.lktQueue (s : State) (r : LktRec) : State :=
  if s.lktClosed || decide (256 ≤ s.lkt.queue.length) then s.lktDrop
  else (s.updLkt fun l => { l with queue := l.queue ++ [r] }).lktShow

/-- A block of the guard island hands an entry to Locket. -/
def State.lktSend (s : State) (r : LktRec) : State := s.updLkt fun l => { l with coming := l.coming ++ [r] }

/-- The LOST record that is due once the queue has become empty (R580). -/
def State.lostRec (s : State) : LktRec :=
  s.lktStamp rtLOST false (toBytes 4 s.lkt.drops ++ toBytes 6 s.lkt.dropAt.1 ++ toBytes 4 s.lkt.dropAt.2)

/-- The oldest queued entry leaves the queue; a queue that has become empty after drops makes a LOST record due. -/
def State.popQueue (s : State) : State :=
  let s1 := (s.updLkt fun l => { l with queue := l.queue.drop 1 }).lktShow
  if s1.lkt.queue.isEmpty ∧ s1.lkt.drops ≠ 0
  then s1.updLkt fun l => { l with own := l.own ++ [s1.lostRec], drops := 0 } else s1

/-- The first line of a ring record is written (R575); the record is charged under R579. -/
def State.startRec (s : State) (r : LktRec) : State :=
  let s1 := s.budDraw (s.binding 6) resMRAM 2
  if r.area then s1.putAny r
  else
    let b := r.bytes s1.lkt.ring.seq (s1.recFlags r)
    (s1.wrBytes (lktKey false s1.lkt.ring.slot) (b.take 32)).updLkt fun l => { l with writing := some (r, b) }

/-- The record in progress is completed. -/
def State.finishRec (s : State) : State :=
  match s.lkt.writing with
  | none => s
  | some (r, b) =>
    let slot := s.lkt.ring.slot
    let seq := s.lkt.ring.seq
    ((((s.updLkt fun l => { l with writing := none }).putSlot false r.typ b true).noteRing slot seq).afterRing r b).lktShow

/-- Locket may start a record: it is open, not scanning, signing, clearing or writing, and has started none in this frame. -/
def State.lktReady (s : State) : Bool :=
  let l := s.lkt
  s.fld LKT_STAT LKT_STAT_SCAN == 0 && !s.lktClosed && l.signs.isEmpty && l.clear.isNone && l.writing.isNone
    && l.frame != some (vat s.frameNo (islandCode .guard))

/-- The open ring block holds more than its LINK. -/
def State.blockStarted (s : State) : Bool := match s.lkt.ring.blk with | some (n, _) => decide (1 < n) | none => false

/-- Locket starts its next record: its own first, then the oldest entry; an open block is closed early before an ENROL record
(R576). -/
def State.lktNext (s : State) : State :=
  if !s.lktReady then s
  else
    let go (t : State) (r : LktRec) : State :=
      (t.updLkt fun l => { l with frame := some (vat t.frameNo (islandCode .guard)) }).startRec r
    match s.lkt.own, s.lkt.queue with
    | r :: t, _ => go (s.updLkt fun l => { l with own := t }) r
    | [], r :: _ => if r.typ = rtENROL ∧ s.blockStarted then s.askSeal false true else go s.popQueue r
    | [], [] => s

/-! ### Commit at supply warning (R581, R582, R592) -/

/-- Up to `n` queued entries are written at once. -/
def State.flushQueue (s : State) : Nat → State
  | 0 => s
  | n + 1 =>
    match s.lkt.queue with
    | [] => s
    | r :: t => ((s.updLkt fun l => { l with queue := t }).putRing r).flushQueue n

/-- The commit for a warning of rail `rail`. -/
def State.lktCommit (s : State) (rail : Nat) : State :=
  let s1 := (s.setFld LKT_STAT LKT_STAT_CLOSED 1).updLkt fun l => { l with signs := [], own := [] }
  let s2 := s1.finishRec.flushQueue 28
  let left := s2.lkt.queue.length
  ((s2.putRing (s2.lktStamp rtSUPWARN false (toBytes 2 rail ++ toBytes 2 left))).updLkt fun l => { l with signs := [] }).lktShow

/-! ### Start-up (R583) -/

/-- The valid slots of an area with their SEQ, by ascending slot. -/
def State.scanArea (s : State) (area : Bool) : List (Nat × Nat) :=
  (List.range (lktSlots area)).filterMap fun i =>
    if s.rd8 (lktKey area i + 6) = 0 then none
    else
      let b := s.slotBytes area i
      if recValid b then some (i, recSeq b) else none

/-- The slot and SEQ of the highest SEQ among those that satisfy `p`. -/
def highest (l : List (Nat × Nat)) : Option (Nat × Nat) :=
  l.foldl (fun b x => match b with | none => some x | some y => if y.2 < x.2 then some x else some y) none

/-- The slot and SEQ of the lowest SEQ. -/
def lowest (l : List (Nat × Nat)) : Option (Nat × Nat) :=
  l.foldl (fun b x => match b with | none => some x | some y => if x.2 < y.2 then some x else some y) none

/-- The slots from the newest LINK at or before `slot` to `slot`, at most `n` of them, oldest first. -/
def State.blockSlots (s : State) (area : Bool) (slot : Nat) : Nat → List Nat
  | 0 => []
  | n + 1 =>
    if recType (s.slotBytes area slot) = rtLINK then [slot]
    else s.blockSlots area ((slot + lktSlots area - 1) % lktSlots area) n ++ [slot]

/-- The block that ends at `slot`: open with its hash, or closed with its H. -/
def State.areaAt (s : State) (area : Bool) (slot : Nat) (a : LktArea) : LktArea :=
  let rs := (s.blockSlots area slot 64).map fun i => s.slotBytes area i
  if recType (s.slotBytes area slot) = rtSEALS
  then { a with blk := none, prev := chainHash (rs.take (rs.length - 2)) }
  else { a with blk := some (rs.length, chainHash rs) }

/-- Every byte of a slot is 0. -/
def slotErased (l : List Byte) : Bool := l.all fun b => b == 0

/-- Step 2 of R583: the slot after the head was being written. -/
def tornSlot (l : List Byte) (head : Nat) : Bool := !slotErased l && !(recValid l && decide (recSeq l < head))

/-- The newest CLEAR record among the valid ring slots, with its slot, where no CLRDONE follows it (R592). -/
def State.openClear (s : State) (rs : List (Nat × Nat)) : Option (Nat × List Byte) :=
  let of (typ : Nat) : Option (Nat × Nat) := highest (rs.filter fun x => recType (s.slotBytes false x.1) == typ)
  match of rtCLEAR, of rtCLRDONE with
  | some c, some d => if d.2 < c.2 then some (c.1, s.slotBytes false c.1) else none
  | some c, none => some (c.1, s.slotBytes false c.1)
  | none, _ => none

/-- Slots of an area erased where `p` says so. -/
def State.eraseSlots (s : State) (area : Bool) (p : Nat → Bool) : State :=
  { s with mem := s.mem.filter fun c =>
      !(decide (lktBase area ≤ c.1 ∧ c.1 < lktBase area + 64 * lktSlots area) && p ((c.1 - lktBase area) / 64)) }

/-- A slot lies in the run of the ring from slot `a` to slot `b`. -/
def inRun (a b i : Nat) : Bool :=
  decide ((i + 32768 - a % 32768) % 32768 ≤ (b + 32768 - a % 32768) % 32768)

/-- Steps 3 to 5 of R590 for a CLEAR record of the bytes `b` in the run of slots `from_` to `to_`: the erases, the pinned copy of
the CLEAR record, and CLRDONE. -/
def State.doClear (s : State) (b : List Byte) (from_ to_ : Nat) : State :=
  let scope := field b 28 1
  let s1 := if scope % 2 = 1 then
      let t := s.eraseSlots false fun i => !inRun from_ to_ i
      t.updLkt fun l => { l with oldest := some (from_, recSeq (s.slotBytes false from_)) }
    else s
  let s2 := if scope / 2 % 2 = 1 then
      ((s1.eraseSlots true fun _ => true).updArea true fun a => { a with slot := 0, blk := none }).setFld LKT_STAT LKT_STAT_PFULL 0
    else s1
  let has := (s2.scanArea true).any fun x => s2.slotBytes true x.1 == b
  let s3 := if has then s2 else s2.putCopy { typ := rtCLEAR } b
  ((s3.putRing (s3.lktStamp rtCLRDONE false (toBytes 1 scope))).raise LKT_EVT LKT_EVT_CLRDONE).setFld LKT_STAT LKT_STAT_CLRBUSY 0

/-- What the scan finds of the ring and of the pinned area. An empty ring begins with a SEQ the spec leaves open. -/
def State.lktFind (s : State) : State :=
  let rs := s.scanArea false
  let ps := s.scanArea true
  let s1 := match highest (rs.filter fun x => decide (x.2 < 2 ^ 47)) with
    | none => s.useFree.updArea false fun a => { a with seq := s.freeVal 0x18001 % 2 ^ 40 }
    | some h => s.updLkt fun l => { l with
        ring := s.areaAt false h.1 { l.ring with slot := (h.1 + 1) % 32768, seq := h.2 + 1 }
        oldest := lowest rs }
  match ps.getLast? with
  | none => s1
  | some p =>
    let q := match highest (ps.filter fun x => decide (2 ^ 47 ≤ x.2)) with | some x => x.2 + 1 | none => 2 ^ 47
    s1.updLkt fun l => { l with pinned := s.areaAt true p.1 { l.pinned with slot := p.1 + 1, seq := q } }

/-- The time of the head record becomes the calendar time, 0 on an empty ring (R600). -/
def State.restoreTime (s : State) (head : Option (List Byte)) : State :=
  (s.updLkt fun l => { l with cal := match head with
    | some b => (field b 8 6 * 1000000000 + field b 14 4) * calUnit
    | none => 0 }).setFld LKT_TSECH LKT_TSECH_TSRC 0

/-- The start-up steps of R583. -/
def State.lktScan (s : State) : State :=
  let rs := s.scanArea false
  let head := highest (rs.filter fun x => decide (x.2 < 2 ^ 47))
  let s1 := s.lktFind
  let s2 := match s1.openClear rs, head with
    | some (c, b), some h => s1.doClear b ((c + 32767) % 32768) h.1
    | _, _ => s1
  let next := s2.lkt.ring.slot
  let s3 := match head with
    | some h =>
      if tornSlot (s2.slotBytes false next) h.2
      then (((s2.putRing (s2.lktStamp rtTORN false (toBytes 2 next))).count LKT_CNT LKT_CNT_TORN 1).raise LKT_EVT LKT_EVT_TORN).sendFault
        blkLKT 0 0x11 clsC next
      else s2
    | none => s2
  let s4 := s3.sealNow false
  let s5 := s4.putAny (s4.linkRec false)
  let s6 := s5.sealNow true
  let s7 := s6.restoreTime (head.map fun h => s.slotBytes false h.1)
  ((s7.updLkt fun l => { l with signs := [], own := [] }).setFld LKT_STAT LKT_STAT_SCAN 0).lktShow

/-! ### Verification (R587) -/

/-- The records of the block that begins at `slot`, up to and with the SEALS that ends it, at most `n`. -/
def State.blockFrom (s : State) (area : Bool) (slot : Nat) : Nat → List (List Byte)
  | 0 => []
  | n + 1 =>
    let b := s.slotBytes area slot
    if recType b = rtSEALS then [b] else b :: s.blockFrom area ((slot + 1) % lktSlots area) n

/-- Consecutive records step by one. A pinned copy keeps its ring SEQ, so in the pinned area only the area's own records do. -/
def seqSteps : List Nat → Bool
  | a :: b :: t => b == a + 1 && seqSteps (b :: t)
  | _ => true

/-- RESULT and CHAIN of R587 for the block whose LINK stands at `slot`. -/
def State.verifyAt (s : State) (area : Bool) (slot : Nat) : Nat × Bool :=
  let link := s.slotBytes area slot
  if !(recValid link) || recType link != rtLINK then (3, false)
  else
    let l := s.blockFrom area slot 64
    let n := l.length
    let seals := n ≥ 3 && recType (l.getD (n - 1) []) == rtSEALS && recType (l.getD (n - 2) []) == rtSEALR
    let seqs := (l.map recSeq).filter fun q => !area || decide (2 ^ 47 ≤ q)
    let h := chainHash (l.take (n - 2))
    let r := l.getD (n - 2) []
    let ok := seals && l.all recValid && seqSteps seqs
      && Config.ecdsaOk Config.devPublic (h ++ slice r 0 6 ++ slice r 18 3) (slice r 28 32 ++ slice (l.getD (n - 1) []) 28 32)
    let before := (slot + lktSlots area - 1) % lktSlots area
    let p := (s.areaAt area before {}).prev
    let chain := recValid (s.slotBytes area before) && recType (s.slotBytes area before) == rtSEALS && slice link 28 32 == p
    (if ok then 1 else 2, chain)

/-! ### Calendar time (R600 to R602) -/

/-- Step offset in nanoseconds. -/
def State.tstep (s : State) : Int := (s.reg LKT_TSTEPS).toInt * 1000000000 + (s.reg LKT_TSTEPN).toInt

/-- A TIME entry for a change from a time of the calendar to the one now (R573, R602). -/
def State.timeEntry (s : State) (cause : Nat) (old : Nat) : State :=
  let sec := old / calUnit / 1000000000
  let ns := old / calUnit % 1000000000
  let diff : Int := ((s.lkt.cal : Int) - old) / (calUnit : Int)
  s.lktSend (s.lktStamp rtTIME (decide (1000000000 < diff.natAbs))
    (toBytes 4 cause ++ toBytes 6 sec ++ toBytes 4 ns ++ toBytes 6 s.calSec ++ toBytes 4 s.calNs))

/-- Calendar time is stepped (R601). -/
def State.timeStep (s : State) : State :=
  let old := s.lkt.cal
  let s1 := (s.calAdd (s.tstep * (calUnit : Int))).setFld LKT_TSECH LKT_TSECH_TSRC 2
  (s1.updLkt fun l => { l with discAt := s.now }).timeEntry 2 old

/-! ### Authorised requests (R588 to R591) -/

/-- A new challenge is drawn (R589). -/
def State.newChallenge (s : State) : State :=
  let b := s.random 16
  ((List.range 4).foldl (fun t i => t.setReg (HMK_CHAL i) (BitVec.ofNat 32 (field b (4 * i) 4))) s).useFree

/-- The challenge in force as bytes. -/
def State.challenge (s : State) : List Byte := wordsToBytes ((List.range 4).map fun i => s.reg (HMK_CHAL i))

/-- The request as bytes. -/
def State.areqBytes (s : State) : List Byte := wordsToBytes ((List.range 24).map fun i => s.reg (LKT_AREQ i))

/-- A refused request (R589). -/
def State.refuseRequest (s : State) (result : Nat) : State :=
  (((s.setFld LKT_ARES LKT_ARES_RESULT result).raise LKT_EVT LKT_EVT_AREF)).verifyFailed

/-- A verified CLEAR begins (R590, steps 1 and 2). -/
def State.beginClear (s : State) (scope : Nat) (nonce : List Byte) : State :=
  let s1 := s.finishRec.sealNow false
  let slot := s1.lkt.ring.slot
  let last := s1.lkt.ring.seq - 1
  let first := match s1.lkt.oldest with | some o => o.2 | none => last
  let s2 := s1.putAny (s1.linkRec false)
  let r := s2.lktStamp rtCLEAR false (toBytes 1 scope ++ toBytes 3 0 ++ toBytes 6 first ++ toBytes 6 last ++ nonce)
  let b := r.bytes s2.lkt.ring.seq 1
  let at_ := s2.lkt.ring.slot
  let s3 := ((s2.putSlot false rtCLEAR b true).noteRing at_ (recSeq b)).updLkt fun l => { l with clear := some (scope, slot, r, b) }
  (s3.setFld LKT_STAT LKT_STAT_CLRBUSY 1).lktShow

/-- GO of LKT_ACMD (R588 to R591). -/
def State.authorised (s : State) : State :=
  let b := s.areqBytes
  let op := field b 0 1 % 16
  let scope := field b 0 1 / 16 % 4
  let t := s.newChallenge
  if s.fld HMK_STAT HMK_STAT_RNGERR = 1 then s.refuseRequest 5
  else if (op ≠ 1 ∧ op ≠ 2) ∨ field b 0 4 / 64 ≠ 0 ∨ (op = 1 ∧ scope = 0) ∨ field b 30 2 ≠ 0 ∨ 1000000000 ≤ field b 26 4 then
    t.refuseRequest 2
  else if slice b 4 16 ≠ s.challenge then t.refuseRequest 3
  else
    let key := match s.enrolled with | some e => e.authk | none => Config.serviceKey
    if !Config.ecdsaOk key (slice b 0 32 ++ Config.sha256 Config.devPublic) (slice b 32 64) then t.refuseRequest 4
    else
      let t1 := (t.setFld LKT_ARES LKT_ARES_RESULT 1).raise LKT_EVT LKT_EVT_AOK
      if op = 1 then t1.beginClear scope (slice b 4 16)
      else
        let old := t1.lkt.cal
        let t2 := (t1.updLkt fun l => { l with cal := (field b 20 6 * 1000000000 + field b 26 4) * calUnit, discAt := s.now }).setFld
          LKT_TSECH LKT_TSECH_TSRC 1
        (t2.raise LKT_EVT LKT_EVT_TSET).timeEntry 1 old

/-! ### Registers (R605) -/

/-- The chapter's own conditions for a write to an LKT register. -/
def State.lktLegal (s : State) (addr : Nat) (w : Word) : Bool :=
  if addr = LKT_UCMD then !bitOf w 1 || bitOf w 0
  else if addr = LKT_VCMD then
    (!bitOf w 15 || decide (LKT_VCMD_SLOT.get w < 4096)) && (!bitOf w 31 || s.fld LKT_STAT LKT_STAT_VBUSY == 0)
  else if addr = LKT_ACMD then !bitOf w 0 || s.fld LKT_STAT LKT_STAT_CLRBUSY == 0
  else if addr = LKT_TSTEPN then decide (w.toInt.natAbs < 1000000000)
  else if addr = LKT_TCMD then !bitOf w 0 || decide (s.tstep.natAbs ≤ 1000000000) || s.tsrc == 0
  else true

/-- A USER entry (R573, R580). -/
def State.userPut (s : State) (pin : Bool) : State :=
  let full := decide (256 ≤ s.lkt.queue.length)
  let res := if s.lktClosed then 2 else if full then 1 else 0
  (s.lktQueue (s.lktStamp rtUSER pin (wordsToBytes ((List.range 8).map fun i => s.reg (LKT_UPUT i))))).setFld LKT_URES LKT_URES_RESULT res

/-- A write to an LKT register. -/
def State.lktWrite (s : State) (addr : Nat) (w : Word) : State :=
  s.writeWith addr w false (s.lktLegal addr w) fun t =>
    if addr = LKT_CMD then
      let t1 := if bitOf w 0 then t.askSeal false true else t
      if bitOf w 1 then t1.askSeal true true else t1
    else if addr = LKT_UCMD then (if bitOf w 0 then t.userPut (bitOf w 1) else t)
    else if addr = LKT_VCMD then
      (if bitOf w 31 then (t.updLkt fun l => { l with verify := some (LKT_VCMD_SLOT.get w, bitOf w 15) }).setFld LKT_STAT LKT_STAT_VBUSY 1
       else t)
    else if addr = LKT_ACMD then (if bitOf w 0 then t.authorised else t)
    else if addr = LKT_TADJ then (t.updLkt fun l => { l with discAt := t.now }).setFld LKT_TSECH LKT_TSECH_TSRC 2
    else if addr = LKT_TCMD then (if bitOf w 0 then t.timeStep else t)
    else t

/-- A read of LKT_TSECL latches LKT_TSECH and LKT_TNS (R605). -/
def State.tseclRead (s : State) : State × Word :=
  ((s.setFld LKT_TSECH LKT_TSECH_SEC (s.calSec / 2 ^ 32)).setFld LKT_TNS LKT_TNS_NS s.calNs, BitVec.ofNat 32 s.calSec)

/-! ### Commands -/

/-- `LOCKET_ENTRY` (R580): the oldest entry on its way reaches the input queue. Its time, angle and sync fields are taken here; a
FAULT record keeps those of its decision (R571). -/
def execLocketEntry (s : State) : Host.Outcome State Fault Refusal :=
  match s.lkt.coming with
  | [] => .next s
  | r :: t => .next ((s.updLkt fun l => { l with coming := t }).lktQueue
      (if r.typ = rtFAULT then r else { s.lktStamp r.typ r.pin r.payload with early := r.early }))

/-- `LOCKET_RECORD_WRITE` (R575, R579): Locket starts its next record. -/
def execLocketRecordWrite (s : State) : Host.Outcome State Fault Refusal := .next s.lktNext

/-- `LOCKET_RECORD_DONE` (R575, R584): the second line of the record in progress verifies; its pinned copy and its block follow. -/
def execLocketRecordDone (s : State) : Host.Outcome State Fault Refusal := .next s.finishRec

/-- `SEAL_SIGNED` (R578): the signature of the oldest waiting seal is made; the seal pair and the next LINK are Locket's next
records. -/
def execSealSigned (s : State) : Host.Outcome State Fault Refusal :=
  match s.lkt.signs with
  | [] => .next s
  | q :: t => .next ((s.updLkt fun l => { l with signs := t, own := s.sealRecs q.1 q.2 ++ l.own }).lktShow)

/-- `SEAL` (R576): a write to LKT_CMD that closes the open ring block early. -/
def execSealRing (w : Word) (s : State) : Host.Outcome State Fault Refusal := .next (s.lktWrite LKT_CMD w)

/-- `PSEAL` (R585): a write to LKT_CMD that closes the open pinned block early. -/
def execPseal (w : Word) (s : State) : Host.Outcome State Fault Refusal := .next (s.lktWrite LKT_CMD w)

/-- `PINNED_SEAL_TIMEOUT` (R585): PTIME × 100 ms have passed since the last copy into the open pinned block. -/
def execPinnedSealTimeout (s : State) : Host.Outcome State Fault Refusal :=
  match s.lkt.copyAt with
  | some t => .next (if t + 40000000 * s.fld LKT_CFG LKT_CFG_PTIME ≤ s.now
      then (s.updLkt fun l => { l with copyAt := none }).askSeal true true else s)
  | none => .next s

/-- `LOCKET_SCAN_DONE` (R583): the start-up scan ends. -/
def execLocketScanDone (s : State) : Host.Outcome State Fault Refusal :=
  .next (if s.fld LKT_STAT LKT_STAT_SCAN = 1 then s.lktScan else s)

/-- `USER_PUT` (R580): a write to LKT_UCMD. -/
def execUserPut (w : Word) (s : State) : Host.Outcome State Fault Refusal := .next (s.lktWrite LKT_UCMD w)

/-- `VERIFY_BLOCK` (R587): a write to LKT_VCMD. -/
def execVerifyBlock (w : Word) (s : State) : Host.Outcome State Fault Refusal := .next (s.lktWrite LKT_VCMD w)

/-- `VDONE` (R587): the verification completes and its result is reported. -/
def execVdone (s : State) : Host.Outcome State Fault Refusal :=
  match s.lkt.verify with
  | none => .next s
  | some (slot, area) =>
    let r := s.verifyAt area slot
    .next ((((((s.updLkt fun l => { l with verify := none }).setFld LKT_VSTAT LKT_VSTAT_RESULT r.1).setFld LKT_VSTAT LKT_VSTAT_CHAIN
      (b2n r.2)).setFld LKT_STAT LKT_STAT_VBUSY 0)).raise LKT_EVT LKT_EVT_VDONE)

/-- `AUTHORISED_REQUEST` (R589): a write to LKT_ACMD. -/
def execAuthorisedRequest (w : Word) (s : State) : Host.Outcome State Fault Refusal := .next (s.lktWrite LKT_ACMD w)

/-- `CLRDONE` (R590): the erases of the clear in progress end, the pinned copy of its record and the CLRDONE record are written. -/
def execClrdone (s : State) : Host.Outcome State Fault Refusal :=
  match s.lkt.clear with
  | none => .next s
  | some (_, slot, _, b) => .next (((s.updLkt fun l => { l with clear := none }).doClear b slot ((slot + 1) % 32768)).lktShow)

/-- `TIME_STEP` (R601): a write to LKT_TCMD. -/
def execTimeStep (w : Word) (s : State) : Host.Outcome State Fault Refusal := .next (s.lktWrite LKT_TCMD w)

/-- `TIME_ADJUST` (R601): a write to LKT_TADJ. -/
def execTimeAdjust (w : Word) (s : State) : Host.Outcome State Fault Refusal := .next (s.lktWrite LKT_TADJ w)

/-- `TLOSS` (R600): HOLD seconds have passed without a step or slew. -/
def execTloss (s : State) : Host.Outcome State Fault Refusal :=
  .next (if (s.tsrc == 1 || s.tsrc == 2) && decide (s.lkt.discAt + 400000000 * s.fld LKT_TCFG LKT_TCFG_HOLD ≤ s.now)
    then (s.setFld LKT_TSECH LKT_TSECH_TSRC 3).raise LKT_EVT LKT_EVT_TLOSS else s)

/-- `LKT_TSECL_READ` (R605): a read of LKT_TSECL. -/
def execLktTseclRead (s : State) : Host.Outcome State Fault Refusal := .next (s.tseclRead.1.respond s.tseclRead.2 false)

end Sys2Proof.Machine
end

