-- ==== Sys2Proof/Machine/Hallmark.lean ====
section
/-! DEFINITION. Hallmark (R593 to R598, R606): enrolment, rollback minimums, the entropy source, its registers. -/

namespace Sys2Proof.Machine

/-- The enrolment buffer as bytes. -/
def State.ebuf (s : State) : List Byte := wordsToBytes ((List.range 512).map fun i => s.reg (HMK_EBUF i))

/-- The result of the checks of R595 and R596 on a package: 1 where it is accepted. -/
def State.enrolResult (s : State) (b : List Byte) : Nat :=
  let len := field b 8 4
  let cert := slice b 288 len
  let rootk := slice b 32 64
  let transferOk := match s.enrolled with
    | none => slotErased (slice b 224 64)
    | some e => Config.ecdsaOk e.authk (slice b 0 224) (slice b 224 64)
  if field b 0 4 ≠ 0x4E454C49 ∨ len < 1 ∨ 1024 < len ∨ field b 28 4 ≠ 0 then 2
  else if slice b 12 16 ≠ s.challenge then 3
  else if !(Config.certOk rootk cert s.checksDates s.calSec && Config.certKey cert == Config.devPublic) then 4
  else if !Config.ecdsaOk rootk (slice b 0 (288 + len)) (slice b (288 + len) 64) then 5
  else if !transferOk then 6
  else if 262143 < field b 4 4 ∨ Config.certUnit cert ≠ field b 4 4 then 7
  else if 4 ≤ s.enrol.length then 8
  else 1

/-- Payload of an ENROL record (R573). -/
def enrolPayload (unit slot : Nat) (cert : List Byte) : List Byte :=
  toBytes 3 unit ++ toBytes 1 slot ++ (Config.sha256 cert).take 28

/-- The next slot of the store is written (R596). -/
def State.acceptEnrol (s : State) (b : List Byte) : State :=
  let unit := field b 4 4
  let cert := slice b 288 (field b 8 4)
  let n := s.enrol.length
  let e : HmkSlot := { unit := unit, rootk := slice b 32 64, imgk := slice b 96 64, authk := slice b 160 64, cert := cert }
  let s1 : State := { s with enrol := s.enrol ++ [e] }
  let s2 := ((s1.setFld HMK_UNIT HMK_UNIT_UNIT unit).setFld HMK_STAT HMK_STAT_ENR 1).setFld HMK_STAT HMK_STAT_NENR (n + 1)
  ((s2.setFld HMK_OCLEN HMK_OCLEN_LEN cert.length).raise HMK_EVT HMK_EVT_ENROK).lktSend
    (s2.lktStamp rtENROL true (enrolPayload unit n cert))

/-- GO of HMK_ECMD (R589, R596). While the entropy source has failed, no challenge can be drawn and the enrolment is refused. -/
def State.enrolGo (s : State) : State :=
  let b := s.ebuf
  if s.fld HMK_STAT HMK_STAT_RNGERR = 1 then s.raise HMK_EVT HMK_EVT_ENRREF
  else
    let r := s.enrolResult b
    let s1 := s.newChallenge.setFld HMK_ERES HMK_ERES_RESULT r
    if r = 1 then s1.acceptEnrol b
    else
      let s2 := s1.raise HMK_EVT HMK_EVT_ENRREF
      if r = 4 ∨ r = 5 ∨ r = 6 then s2.verifyFailed else s2

/-- The rollback minimum of a kind (false: code, true: calibration), and the ROLLBACK of the image of that kind in force. -/
def State.rbMin (s : State) (cal : Bool) : Nat := if cal then s.fld HMK_RBMIN HMK_RBMIN_CAL else s.fld HMK_RBMIN HMK_RBMIN_CODE
def State.rbImage (s : State) (cal : Bool) : Nat := if cal then s.boot.crb else s.boot.rb

/-- A rollback minimum is raised (R598). -/
def State.raiseRollback (s : State) (cal : Bool) (v : Nat) : State :=
  let old := s.rbMin cal
  ((s.setFld HMK_RBMIN (if cal then HMK_RBMIN_CAL else HMK_RBMIN_CODE) v).raise HMK_EVT HMK_EVT_RBRAISE).lktSend
    (s.lktStamp rtROLLBK true (toBytes 1 (b2n cal) ++ toBytes 1 old ++ toBytes 1 v))

/-- The chapter's own conditions for a write to an HMK register (R598, R606). -/
def State.hmkLegal (s : State) (addr : Nat) (w : Word) : Bool :=
  let busy := s.fld HMK_STAT HMK_STAT_BUSY == 1
  if addr = HMK_RBCMD then
    let v := HMK_RBCMD_VALUE.get w
    !busy && decide (s.rbMin (bitOf w 8) < v ∧ v ≤ s.rbImage (bitOf w 8))
  else if addr = HMK_ECMD then !bitOf w 0 || (!busy && decide (s.enrol.length < 4))
  else true

/-- A write to an HMK register. -/
def State.hmkWrite (s : State) (addr : Nat) (w : Word) : State :=
  s.writeWith addr w false (s.hmkLegal addr w) fun t =>
    if addr = HMK_RBCMD then t.raiseRollback (bitOf w 8) (HMK_RBCMD_VALUE.get w)
    else if addr = HMK_ECMD then (if bitOf w 0 then t.enrolGo else t)
    else t

/-- A read of an HMK register that shows the store (R606): certificates and the device public key, big-endian words. -/
def State.hmkStore (s : State) (o : Nat) : Option Word :=
  let cert := match s.enrolled with | some e => e.cert | none => []
  if 0x40 ≤ o ∧ o < 0x80 then some (BitVec.ofNat 32 (ofBytes (slice Config.devPublic (o - 0x40) 4).reverse))
  else if 0x1000 ≤ o ∧ o < 0x1400 then some (BitVec.ofNat 32 (field Config.devCert (o - 0x1000) 4))
  else if 0x1400 ≤ o ∧ o < 0x1800 then some (BitVec.ofNat 32 (field cert (o - 0x1400) 4))
  else if o = 0x24 then some (BitVec.ofNat 32 (Config.devCert.length % 2 ^ 11))
  else none

/-! ### Commands -/

/-- `ENROLMENT` (R596): a write to HMK_ECMD. -/
def execEnrolment (w : Word) (s : State) : Host.Outcome State Fault Refusal := .next (s.hmkWrite HMK_ECMD w)

/-- `ROLLBACK_RAISE` (R598): a write to HMK_RBCMD. -/
def execRollbackRaise (w : Word) (s : State) : Host.Outcome State Fault Refusal := .next (s.hmkWrite HMK_RBCMD w)

/-- `RNGERR` (R594): a health test of the entropy source fails. -/
def execRngerr (s : State) : Host.Outcome State Fault Refusal :=
  .next ((s.setFld HMK_STAT HMK_STAT_RNGERR 1).raise HMK_EVT HMK_EVT_RNGERR)

end Sys2Proof.Machine
end

