-- ==== Sys2Proof/Machine/Padc.lean ====
section
/-! DEFINITION. The precision converters, the mains lock and the cross-check (R443 to R449, R452 to R456, R460, R461). The raw
result of an integration period comes with the command that ends it. -/

namespace Sys2Proof.Machine

/-! ### Converters -/

/-- What precision converter `c` holds beside its registers. -/
def State.padcOf (s : State) (c : Nat) : Padc := vat s.padc c

/-- The state with precision converter `c` changed. -/
def State.updPadc (s : State) (c : Nat) (g : Padc → Padc) : State := { s with padc := vupd s.padc c g }

/-- Converter `c` is enabled. -/
def State.padcOn (s : State) (c : Nat) : Bool := s.bit PADC_CTRL c

/-- Channel and repetitions of list entry `i` of converter `c` (R446). -/
def State.listEntry (s : State) (c i : Nat) : Nat × Nat :=
  let v := (s.reg (PADC_LST c (i / 4))).toNat / 2 ^ (8 * (i % 4))
  (v % 16, v / 16 % 8 + 1)

/-- Channel `k` is differential. -/
def State.padcDiff (s : State) (k : Nat) : Bool := s.fld (PADC_CH k) PADC_CH_DIFF == 1

/-- The mains is locked (R445). -/
def State.mainsLocked (s : State) : Bool := s.fld PADC_STAT PADC_STAT_LOCK == 1

/-- The settings of converter `c` that R447 watches: FILT, PER, LOCK, MULT, and whether the mains lock counts. -/
def State.padcCfg (s : State) (c : Nat) : Nat × Nat × Nat × Nat × Bool :=
  (s.fld (PADC_CFG c) PADC_CFG_FILT, s.fld (PADC_PER c) PADC_PER_PER, s.fld (PADC_CFG c) PADC_CFG_LOCK,
   s.fld (PADC_CFG c) PADC_CFG_MULT, s.fld (PADC_CFG c) PADC_CFG_LOCK == 1 && s.mainsLocked)

/-- The integration period of converter `c` in converter clocks (R444). -/
def State.padcPeriod (s : State) (c : Nat) : Nat :=
  if s.fld (PADC_CFG c) PADC_CFG_LOCK = 1 ∧ s.mainsLocked
  then s.fld (PADC_CFG c) PADC_CFG_MULT * s.fld PADC_GRID PADC_GRID_TM
  else s.fld (PADC_PER c) PADC_PER_PER * 160

/-! ### Words (R443, R446 to R449, R455) -/

/-- CODE of a mean raw result (R443), rounded to the nearest. -/
def State.padcCode (s : State) (c : Nat) (diff : Bool) (mean : Rat) : Int :=
  let v := rround ((mean - (s.fldI (PADC_OFS c) PADC_OFS_OFS : Rat)) * (s.fld (PADC_GC c) PADC_GC_GC : Rat) / ((2 ^ 22 : Nat) : Rat))
  if diff then clampI (-(2 ^ 23)) (2 ^ 23 - 1) v else clampI 0 (2 ^ 24 - 1) v

/-- Mean of the period results of a list. -/
def meanOf (l : List (Int × Bool)) : Rat := if l.isEmpty then 0 else ((l.foldl (fun a x => a + x.1) 0 : Int) : Rat) / (l.length : Rat)

/-- A valid word of channel `k` (R455, R456). -/
def State.paWatched (s : State) (c k : Nat) (out : Bool) : State :=
  let r := (vat s.paWatch k).window out (s.fld (PADC_CH k) PADC_CH_NWIN)
  let s1 := { s with paWatch := vset s.paWatch k { r.1 with okAt := s.now } }
  if r.2 then (s1.raise PADC_EVT PADC_EVT_WINF).sendFault blkPADC c 0x06 clsC k else s1

/-- `v` lies outside the window of channel `k`, in the format of its CODE. -/
def State.paOutside (s : State) (k : Nat) (v : Int) : Bool :=
  if s.padcDiff k then decide (v < s.fldI (PADC_WLO k) PADC_WLO_LO) || decide (s.fldI (PADC_WHI k) PADC_WHI_HI < v)
  else decide (v < s.fld (PADC_WLO k) PADC_WLO_LO) || decide ((s.fld (PADC_WHI k) PADC_WHI_HI : Int) < v)

/-- A word is delivered (R449). -/
def State.padcDeliver (s : State) (c k : Nat) (code : Int) (inv ovr : Bool) : State :=
  let out := s.paOutside k code
  let w := BitVec.ofNat 32 (patternOf 24 code + 2 ^ 24 * k + 2 ^ 28 * b2n inv + 2 ^ 29 * b2n ovr + 2 ^ 30 * b2n (out && !inv)
    + 2 ^ 31 * b2n (s.dacOn (48 + k)))
  let s1 := ((s.setReg (PADC_RES c) w).setReg (PADC_LAST k) w).raise PADC_EVT c
  let s2 := if ovr then (s1.count (PADC_CNT c) PADC_CNT_OVR 1).raise PADC_EVT PADC_EVT_OVR else s1
  let s3 := if inv then s2.count (PADC_CNT c) PADC_CNT_INV 1 else s2.paWatched c k out
  if s3.fld (PADC_OPT c) PADC_OPT_QEN = 1 then
    let r := s3.qputFor (s3.binding 3) (s3.fld (PADC_OPT c) PADC_OPT_QUE)
      (wordsToBytes [w, s3.slotW, BitVec.ofNat 32 (s3.padcOf c).per, 0])
    if r.2 = qPUT then r.1 else r.1.raise PADC_EVT PADC_EVT_QDROP
  else s3

/-! ### Boundaries (R444, R447, R452, R453) -/

/-- What a boundary takes into force: the period, and three INV words after a change (R444, R447). -/
def State.padcForce (s : State) (c : Nat) : State :=
  let cfg := s.padcCfg c
  s.updPadc c fun p => { p with
    inv := if p.cfg != cfg then 3 else p.inv, cfg := cfg, per := s.padcPeriod c
    hist := if p.cfg.1 != cfg.1 then [] else p.hist }

/-- Both converters wait: the cross-check begins (R453). -/
def State.crossBegin (s : State) : State :=
  if (s.padcOf 0).act == .waitX && (s.padcOf 1).act == .waitX then
    let s1 : State := [0, 1].foldl (fun t c => t.updPadc c fun p => { p with
      act := .cross, k := 0, hist := [], xReq := false, xWord := none }) (s.setFld PADC_STAT PADC_STAT_XRUN 1)
    { s1 with mains := { s1.mains with xSum := 0, xCnt := 0 } }
  else s

/-- The activity that begins at a boundary of converter `c`: a cross-check asked for, a calibration asked for, or its list. -/
def State.padcNext (s : State) (c : Nat) : State :=
  let p := s.padcOf c
  if p.xReq then (s.updPadc c fun q => { q with act := .waitX, k := 0, hist := [] }).crossBegin
  else if p.calReq then s.updPadc c fun q => { q with act := .cal, k := 0, hist := [], calReq := false }
  else s.updPadc c fun q => { q with act := .list }

/-- A list scan of PADC0 completes: after XINT of them a cross-check is asked for (R453). -/
def State.scanDone (s : State) (c : Nat) : State :=
  if c ≠ 0 then s
  else
    let n := (s.padcOf 0).scans + 1
    if s.fld PADC_XCFG PADC_XCFG_EN = 1 ∧ s.fld PADC_XCFG PADC_XCFG_XINT ≤ n then
      (s.updPadc 0 fun p => { p with scans := 0, xReq := true }).updPadc 1 fun p => { p with xReq := true }
    else s.updPadc 0 fun p => { p with scans := n }

/-- A period of the list ends with result `r` (R446). -/
def State.listPeriod (s : State) (c : Nat) (raw : BitVec 24) (sat : Bool) : State :=
  let p := s.padcOf c
  let e := s.listEntry c p.idx
  let diff := s.padcDiff e.1
  let r : Int := if diff then raw.toInt else raw.toNat
  let filt := p.cfg.1
  let hist := ((r, sat) :: p.hist).take (filt + 1)
  let k := p.k + 1
  let s1 := s.updPadc c fun q => { q with hist := hist, k := k }
  let s2 := if filt < k then
      (s1.padcDeliver c e.1 (s1.padcCode c diff (meanOf hist)) (decide (0 < p.inv)) (hist.any fun x => x.2)).updPadc c
        fun q => { q with inv := q.inv - 1 }
    else s1
  if filt + e.2 ≤ k then
    let last := s.fld (PADC_CFG c) PADC_CFG_LEN ≤ p.idx + 1
    let s3 := s2.updPadc c fun q => { q with idx := if last then 0 else p.idx + 1, k := 0, hist := [] }
    if last then (s3.raise PADC_EVT (2 + c)).scanDone c else s3
  else s2

/-- Six calibration periods have been integrated: three of the internal zero, three of the reference (R452, R451). -/
def State.pcalFinish (s : State) (c : Nat) (l : List Int) : State :=
  let m1 : Rat := ((l.take 3).foldl (· + ·) 0 : Int) / 3
  let m0 : Rat := ((l.drop 3).foldl (· + ·) 0 : Int) / 3
  let ofs := rround m0
  let gc : Int := if m1 = m0 then 0 else rround (((12582912 * 4194304 : Int) : Rat) / (m1 - m0))
  let s1 := (s.setBit PADC_STAT c false).updPadc c fun p => { p with act := .list, k := 0, hist := [] }
  if -65536 ≤ ofs ∧ ofs ≤ 65535 ∧ 2097152 ≤ gc ∧ gc ≤ 6291455 then
    ((s1.setFld (PADC_OFS c) PADC_OFS_OFS (patternOf 24 ofs)).setFld (PADC_GC c) PADC_GC_GC gc.toNat).raise PADC_EVT PADC_EVT_CALDONE
  else (s1.raise PADC_EVT PADC_EVT_CALERR).sendFault blkPADC c 0x10 clsC 0

/-- A period of a calibration ends. -/
def State.calPeriod (s : State) (c : Nat) (raw : BitVec 24) : State :=
  let p := s.padcOf c
  let hist := ((raw.toNat : Int), false) :: p.hist
  if 6 ≤ hist.length then s.pcalFinish c (hist.map fun x => x.1) else s.updPadc c fun q => { q with hist := hist }

/-- The cross-check fails: counted and reported with its difference (R453). -/
def State.crossFail (s : State) (detail : Nat) : State :=
  ((s.count PADC_XSTAT PADC_XSTAT_FAIL 1).raise PADC_EVT PADC_EVT_XCHK).sendFault blkPADC 0 0x11 clsC detail

/-- Both words of a cross-check are known (R453). With no fast conversion the reported difference is a free value (log 7). -/
def State.crossFinish (s : State) (w0 w1 : Int) : State :=
  let s1 : State := [0, 1].foldl (fun t c => t.updPadc c fun p => { p with act := .list, k := 0, hist := [], xWord := none })
    (s.setFld PADC_STAT PADC_STAT_XRUN 0)
  let dp := capAt 65535 (rround (ratAbs ((w0 - w1 : Int) : Rat) * 1000000 / ((2 ^ 24 : Nat) : Rat))).toNat
  let s2 := s1.setFld PADC_XRES PADC_XRES_DP dp
  let s3 := if s2.fld PADC_XTOL PADC_XTOL_PTOL < dp then s2.crossFail dp else s2
  if s3.fld PADC_XCFG PADC_XCFG_SRC ≠ 2 then s3
  else if s3.mains.xCnt = 0 then
    (State.crossFail (s3.setFld PADC_XSTAT PADC_XSTAT_NOFAST 1).useFree (65536 + s3.freeVal 0x453 % 65536))
  else
    let v0 : Rat := (w0 : Rat) * (125 / 100) / ((2 ^ 24 : Nat) : Rat)
    let df := capAt 65535 (rround (ratAbs (s3.mains.xSum / (s3.mains.xCnt : Rat) - v0) / (125 / 100) * 1000000)).toNat
    let s4 := (s3.setFld PADC_XSTAT PADC_XSTAT_NOFAST 0).setFld PADC_XRES PADC_XRES_DF df
    if s4.fld PADC_XTOL PADC_XTOL_FTOL < df then s4.crossFail (65536 + df) else s4

/-- A period of a cross-check ends (R453). -/
def State.crossPeriod (s : State) (c : Nat) (raw : BitVec 24) : State :=
  let p := s.padcOf c
  let hist := ((raw.toNat : Int), false) :: p.hist
  if p.xWord.isSome then s
  else if hist.length < p.cfg.1 + 1 then s.updPadc c fun q => { q with hist := hist }
  else
    let s1 := s.updPadc c fun q => { q with hist := hist, xWord := some (s.padcCode c false (meanOf hist)) }
    match (s1.padcOf 0).xWord, (s1.padcOf 1).xWord with
    | some w0, some w1 => s1.crossFinish w0 w1
    | _, _ => s1

/-- An integration period of converter `c` ends with a raw result; `sat`: its modulator saturated in it. -/
def State.padcPeriodEnd (s : State) (c : Nat) (raw : BitVec 24) (sat : Bool) : State :=
  let p := s.padcOf c
  if p.closing then
    let s1 := if p.act == .list then s.padcDeliver c (s.listEntry c p.idx).1 0 true sat else s
    s1.updPadc c fun q => { q with act := .idle, closing := false, idx := 0, k := 0, hist := [] }
  else
    match p.act with
    | .idle | .waitX => s
    | .list => ((s.listPeriod c raw sat).padcForce c).padcNext c
    | .cal =>
      let s1 := (s.calPeriod c raw).padcForce c
      if (s1.padcOf c).act == .list then s1.padcNext c else s1
    | .cross => s.crossPeriod c raw

/-! ### Enables and registers (R449, R454, R461) -/

/-- Converter `c` comes to be enabled: its list begins at entry 0. -/
def State.padcEnable (s : State) (c : Nat) : State :=
  let s1 := s.updPadc c fun _ => { act := .list, cfg := s.padcCfg c, per := s.padcPeriod c }
  { s1 with paWatch := (List.range 16).foldl (fun v k => vupd v k fun w => { w with okAt := s.now }) s1.paWatch }

/-- Converter `c` comes to be disabled: the period in progress completes; a calibration or cross-check ends. -/
def State.padcDisable (s : State) (c : Nat) : State :=
  let s1 := (s.setBit PADC_STAT c false).updPadc c fun p => { p with closing := true, calReq := false, xReq := false }
  if (s.padcOf c).act == .waitX then s1.updPadc c fun _ => {} else s1

/-- Both converters hold equal LOCK, PER, MULT and FILT (R454). -/
def State.padcEqual (s : State) : Bool :=
  s.fld (PADC_CFG 0) ⟨0, 16⟩ == s.fld (PADC_CFG 1) ⟨0, 16⟩ && s.fld (PADC_PER 0) PADC_PER_PER == s.fld (PADC_PER 1) PADC_PER_PER

/-- The chapter's own conditions for a write to a register of PADC (R454, R461). -/
def State.padcLegal (s : State) (addr : Nat) (w : Word) : Bool :=
  let o := addr % 0x10000
  let t := match s.tryWrite addr w false true with | some v => s.setReg addr v | none => s
  let xOk := s.fld PADC_XCFG PADC_XCFG_EN == 0 || (t.padcOn 0 && t.padcOn 1 && t.padcEqual)
  let k := (o - 0x400) / 0x10
  let c := (o - 0x100) / 0x80
  if addr = PADC_CTRL then xOk
  else if addr = PADC_CMD then (List.range 2).all fun i => !bitOf w i || (s.padcOn i && !s.bit PADC_STAT i)
  else if addr = PADC_XCFG then
    PADC_XCFG_EN.get w == 0 || (s.padcOn 0 && s.padcOn 1 && s.padcEqual && PADC_XCFG_SRC.get w != 0
      && (PADC_XCFG_SRC.get w == 3 || decide (PADC_XCFG_SEL.get w < if PADC_XCFG_SRC.get w = 1 then 16 else 48)))
  else if 0x400 ≤ o then
    (if addr = PADC_CH k then PADC_CH_DIFF.get w == 0 || k % 2 == 0
     else if addr = PADC_WLO k then
       (if s.padcDiff k then decide (PADC_WLO_LO.getI w ≤ s.fldI (PADC_WHI k) PADC_WHI_HI)
        else decide (PADC_WLO_LO.get w ≤ s.fld (PADC_WHI k) PADC_WHI_HI))
     else true)
  else if addr = PADC_CFG c ∨ addr = PADC_PER c then xOk
  else if 0x100 ≤ o ∧ PADC_LST c 0 ≤ addr ∧ addr ≤ PADC_LST c 3 then
    [0, 8, 16, 24].all fun b =>
      let ch := w.toNat / 2 ^ b % 16
      ch % 2 == 0 || !s.padcDiff (ch - 1)
  else true

/-- A write to a register of PADC. -/
def State.padcWrite (s : State) (addr : Nat) (w : Word) : State :=
  s.writeWith addr w false (s.padcLegal addr w) fun t =>
    if addr = PADC_CTRL then
      (List.range 2).foldl (fun u c =>
        if s.padcOn c && !t.padcOn c then u.padcDisable c else if !s.padcOn c && t.padcOn c then u.padcEnable c else u) t
    else if addr = PADC_CMD then
      (List.range 2).foldl (fun u c =>
        if bitOf w c then (u.setBit PADC_STAT c true).updPadc c fun p => { p with calReq := true } else u) t
    else t

/-! ### The mains (R445) -/

/-- Eight intervals lock the mains: each in range (only such are kept) and each within 1 % of their mean. -/
def steadyMains (ivs : List Nat) : Bool :=
  let sum := ivs.foldl (· + ·) 0
  ivs.length == 8 && ivs.all fun i => decide (99 * sum ≤ 800 * i) && decide (800 * i ≤ 101 * sum)

/-- The mains lock is lost. -/
def State.gridLost (s : State) : State :=
  ({ (s.setFld PADC_STAT PADC_STAT_LOCK 0).setReg PADC_GRID 0 with mains := { s.mains with ivs := [] } }.raise PADC_EVT
    PADC_EVT_GRIDLOSS).sendFault blkPADC 0 0x12 clsC 0

/-- T_m of eight intervals in slots, in converter clocks of 2.5 slots. -/
def mainsPeriod (ivs : List Nat) : Nat := roundDivN (ivs.foldl (· + ·) 0 * 2) 40

/-- An accepted edge ends an interval of `d` slots (R445). -/
def State.gridInterval (s : State) (d : Nat) : State :=
  let inRange := decide (5716000 ≤ d ∧ d ≤ 10000000)
  let sum := s.mains.ivs.foldl (· + ·) 0
  if s.mainsLocked then
    let near := decide (98 * sum ≤ 800 * d) && decide (800 * d ≤ 102 * sum)
    if !inRange || !near then s.gridLost
    else
      let ivs := (d :: s.mains.ivs).take 8
      { s.setReg PADC_GRID (BitVec.ofNat 32 (mainsPeriod ivs)) with mains := { s.mains with ivs := ivs } }
  else if !inRange then { s with mains := { s.mains with ivs := [] } }
  else
    let ivs := (d :: s.mains.ivs).take 8
    let s1 := { s with mains := { s.mains with ivs := ivs } }
    if steadyMains ivs then
      ((s1.setFld PADC_STAT PADC_STAT_LOCK 1).setReg PADC_GRID (BitVec.ofNat 32 (mainsPeriod ivs))).raise PADC_EVT PADC_EVT_GRIDLOCK
    else s1

/-! ### Commands -/

/-- `PADC_PERIOD_END` (R446): an integration period of converter `c` ends with a raw result. -/
def execPadcPeriodEnd (c : Fin 2) (raw : BitVec 24) (sat : Bool) (s : State) : Host.Outcome State Fault Refusal :=
  .next (s.padcPeriodEnd c raw sat)

/-- `PADC_SCAL` (R452): a write to PADC_CMD. -/
def execPadcScal (conv : BitVec 2) (s : State) : Host.Outcome State Fault Refusal :=
  .next (s.padcWrite PADC_CMD (conv.setWidth 32))

/-- `PADC_DISABLE` (R449): a write to PADC_CTRL. -/
def execPadcDisable (w : Word) (s : State) : Host.Outcome State Fault Refusal := .next (s.padcWrite PADC_CTRL w)

/-- `GRIDZ_EDGE` (R445): a rising edge of GRIDZ; one less than 10 ms after the last accepted edge is ignored. -/
def execGridzEdge (s : State) : Host.Outcome State Fault Refusal :=
  match s.mains.last with
  | none => .next { s with mains := { s.mains with last := some s.now } }
  | some t =>
    if s.now < t + 4000000 then .next s
    else .next (State.gridInterval { s with mains := { s.mains with last := some s.now } } (s.now - t))

/-- `GRIDLOSS` (R445): no edge has arrived for 25 ms. -/
def execGridloss (s : State) : Host.Outcome State Fault Refusal :=
  match s.mains.last with
  | some t => .next (if s.mainsLocked && decide (t + 10000000 ≤ s.now) then s.gridLost else s)
  | none => .next s

/-- `STALE` (R456): a fast input (`fast`) or precision channel `n` has had no valid result for TOUT. -/
def execStaleInput (fast : Bool) (n : Fin 48) (s : State) : Host.Outcome State Fault Refusal :=
  if fast then
    let t := s.fld (FADC_CH n) FADC_CH_TOUT
    if s.fadcOn (n.val / 12) && t != 0 && decide ((vat s.faWatch n).okAt + 4000 * t ≤ s.now) then
      .next (State.sendFault (State.raise { s with faWatch := vupd s.faWatch n fun w => { w with okAt := s.now } }
        FADC_EVT FADC_EVT_STALE) blkFADC (n.val / 12) 0x05 clsC n)
    else .next s
  else
    let t := s.fld (PADC_CH n) PADC_CH_TOUT
    if n.val < 16 && (s.padcOn 0 || s.padcOn 1) && t != 0 && decide ((vat s.paWatch n).okAt + 4000000 * t ≤ s.now) then
      .next (State.sendFault (State.raise { s with paWatch := vupd s.paWatch n fun w => { w with okAt := s.now } }
        PADC_EVT PADC_EVT_STALE) blkPADC (if s.padcOn 0 then 0 else 1) 0x05 clsC n)
    else .next s

end Sys2Proof.Machine
end

