-- ==== Sys2Proof/Machine/Inj.lean ====
section
/-! DEFINITION. The injector and solenoid drive (R351 to R390). A sample of a current converter, the expiry of a time and a
sensed condition come as commands; the drive island does the rest. -/

namespace Sys2Proof.Machine

/-! ### Channels -/

/-- What injection channel `n` holds beside its registers. -/
def State.injOf (s : State) (n : Nat) : InjCh := vat s.inj n

/-- The state with injection channel `n` changed. -/
def State.updInj (s : State) (n : Nat) (f : InjCh → InjCh) : State := { s with inj := vupd s.inj n f }

/-- Channels `n` and `n + 1` form a clasp addressed as `n` (R366). -/
def State.clasped (s : State) (n : Nat) : Bool := n % 3 == 0 && s.bit INJ_CLASP (n / 3)

/-- Channel `n` is the second channel of a clasp (R367). -/
def State.claspSecond (s : State) (n : Nat) : Bool := n % 3 == 1 && s.bit INJ_CLASP (n / 3)

/-- The channel that a sensed channel is addressed as. -/
def State.claspHead (s : State) (n : Nat) : Nat := if s.claspSecond n then n - 1 else n

/-- Channel `n` is powered (R363). -/
def State.powered (s : State) (n : Nat) : Bool :=
  match (s.injOf n).st with
  | .boost | .peak | .hold | .prop => true
  | .off | .waitb | .trans | .decay | .close | .latched => false

/-- A pulse of channel `n` is in progress. -/
def State.pulsing (s : State) (n : Nat) : Bool :=
  match (s.injOf n).st with
  | .boost | .peak | .trans | .hold | .prop => true
  | .off | .waitb | .decay | .close | .latched => false

/-- Low sides of channel `n`, and of its clasp partner, set (R366). -/
def State.setGates (s : State) (n : Nat) (on : Bool) : State :=
  let s1 := s.setBit INJ_STAT n on
  if s.clasped n then s1.setBit INJ_STAT (n + 1) on else s1

/-- Low side of channel `n` set in a pulse: its on-time is counted (R378). -/
def State.setLs (s : State) (n : Nat) (on : Bool) : State :=
  (s.setGates n on).updInj n fun c =>
    match on, c.onAt with
    | true, none => { c with onAt := some s.now }
    | false, some t => { c with onAt := none, acc := c.acc + (s.now - t) }
    | _, _ => c

/-- Some channel of bank `b` other than `x` demands the high side: in BOOST or with REQ set (R363). -/
def State.bankDemand (s : State) (b : Nat) (x : Option Nat) : Bool :=
  [3 * b, 3 * b + 1, 3 * b + 2].any fun k => some k != x && ((s.injOf k).st == .boost || (s.injOf k).req)

/-- The high side of bank `b` is on. -/
def State.hsOn (s : State) (b : Nat) : Bool := s.bit INJ_STAT (12 + b)

/-- The high side of bank `b` follows its demand; when it goes off every shed channel returns its low side (R363, R364). -/
def State.hsUpdate (s : State) (b : Nat) : State :=
  let on := s.bankDemand b none
  let s1 := s.setBit INJ_STAT (12 + b) on
  if s.hsOn b && !on then
    [3 * b, 3 * b + 1, 3 * b + 2].foldl (fun t k =>
      if (t.injOf k).shed then (t.setLs k true).updInj k fun c => { c with shed := false } else t) s1
  else s1

/-- A channel of the bank of `n` other than `n` is in BOOST (R368). -/
def State.otherBoost (s : State) (n : Nat) : Bool :=
  [n / 3 * 3, n / 3 * 3 + 1, n / 3 * 3 + 2].any fun k => k != n && (s.injOf k).st == .boost

/-! ### Currents (R357) -/

/-- Converter code of a current in 10 mA, for channel `n`'s shunt. -/
def State.codeOf (s : State) (n i : Nat) : Nat := roundDivN (i * 1024 * s.fld (INJ_CH n) INJ_CH_RSH) 100000

/-- Current in 10 mA of a converter code. -/
def State.currentOf (s : State) (n code : Nat) : Nat :=
  capAt 65535 (roundDivN (code * 100000) (1024 * s.fld (INJ_CH n) INJ_CH_RSH))

/-- Twice the current of channel `n` in codes: a clasp uses half the sum of its two currents (R366). -/
def State.twiceCode (s : State) (n : Nat) : Nat :=
  if s.clasped n then s.fld (INJ_IM n) INJ_IM_CODE + s.fld (INJ_IM (n + 1)) INJ_IM_CODE else 2 * s.fld (INJ_IM n) INJ_IM_CODE

/-- The current of channel `n` is at or below `i` (in 10 mA). -/
def State.iAtMost (s : State) (n i : Nat) : Bool := decide (s.twiceCode n ≤ 2 * s.codeOf n i)

/-- The current of channel `n` is at or above `i` (in 10 mA). -/
def State.iAtLeast (s : State) (n i : Nat) : Bool := decide (2 * s.codeOf n i ≤ s.twiceCode n)

/-- IZ: 200 mA. -/
abbrev injIZ : Nat := 20

/-- The unit triangle wave of R361 at `x` periods. -/
def triWave (x : Rat) : Rat :=
  let f := x - x.floor
  if f ≤ 1 / 4 then 4 * f else if f ≤ 3 / 4 then 2 - 4 * f else 4 * f - 4

/-- The current target I_t in codes in PEAK, HOLD and PROP (R361, R363). -/
def State.injTarget (s : State) (n : Nat) : Int :=
  let c := s.injOf n
  match c.st with
  | .peak => s.codeOf n (INJ_PK_IPK.get c.pk)
  | .prop =>
    let x : Rat := (INJ_DTH_DFREQ.get c.dth * (s.now - c.segAt) : Nat) / 400000000
    let i : Rat := (INJ_HLD_IHLD.get c.hld : Nat) + (INJ_DTH_DAMP.get c.dth : Nat) * triWave x
    rround (i * ((1024 * s.fld (INJ_CH n) INJ_CH_RSH : Nat) : Rat) / 100000)
  | .off | .waitb | .boost | .trans | .hold | .decay | .close | .latched => s.codeOf n (INJ_HLD_IHLD.get c.hld)

/-! ### ALRT_N and faults (R383, R385) -/

/-- ALRT_N is pulled low, its pulse started or restarted. -/
def State.alrt (s : State) (cause : Nat) (isU isLink : Bool) : State :=
  let s1 := { s with drive := { s.drive with
    alrtPulse := true, alrtRel := false, alrtU := s.drive.alrtU || isU, alrtLink := s.drive.alrtLink || isLink } }
  ((s1.setFld INJ_ALRT INJ_ALRT_LOW 1).setFld INJ_ALRT INJ_ALRT_CAUSE cause).raise INJ_EVT INJ_EVT_ALRT

/-- ALRT_N is released. -/
def State.alrtOff (s : State) : State :=
  { s with drive := { s.drive with alrtPulse := false, alrtU := false, alrtLink := false, alrtRel := false } }.setFld INJ_ALRT
    INJ_ALRT_LOW 0

/-- A fault of R383: event, message of kind 0x10 + bit, and ALRT_N. -/
def State.injFault (s : State) (bit unit cls : Nat) : State :=
  ((s.raise INJ_EVT bit).sendFault blkINJ unit (0x10 + bit) cls 0).alrt bit (cls == clsU) false

/-- A fault of a channel, which also sets a bit of INJ_FSTn. -/
def State.injChFault (s : State) (n bit cls fst : Nat) : State := (s.injFault bit n cls).setBit (INJ_FST n) fst true

/-! ### Reports (R382) -/

/-- The queue of a report kind, where it is selected. -/
def State.reportQueue (s : State) (kind : Nat) : Option Nat :=
  if s.fld INJ_RPT INJ_RPT_EN = 1 ∧ (s.fld INJ_RPT INJ_RPT_KINDS).testBit (min kind 2)
  then some (s.fld INJ_RPT INJ_RPT_QUE) else none

/-- A report leaves for the angle island. -/
def State.report (s : State) (kind n : Nat) (valid : Bool) (cause delay filt tend : Nat) (trim : Option (Nat × Nat)) : State :=
  let c := s.injOf n
  s.launch .drive .angle (.drv kind n (s.slotAt (c.ts + c.shift)).toNat valid cause delay filt tend
    (if kind ≤ 4 then s.reportQueue kind else none) trim)

/-- Number of an INJ_EVT cause for a disable, which has no bit there: a free value (log 7). -/
def State.disableCause (s : State) : State × Nat := (s.useFree, s.freeVal 0x382 % 256)

/-! ### Detection (R379 to R381) -/

/-- A filtered delay takes a valid value (R381): the new register word and whether the value was rejected as an outlier. -/
def adaptWord (w : Word) (t arate outl : Nat) : Word × Bool :=
  let od := INJ_OD_OD.get w
  let nval := INJ_OD_NVAL.get w
  if nval = 0 then (INJ_OD_NVAL.set (INJ_OD_OD.set w (capAt 65535 t)) 1, false)
  else if 16 ≤ nval ∧ 100 * outl < (if t < od then od - t else t - od) then (w, true)
  else
    let d := roundDiv ((t : Int) - od) (2 ^ arate)
    (INJ_OD_NVAL.set (INJ_OD_OD.set w (capAt 65535 ((od : Int) + d).toNat)) (capAt 65535 (nval + 1)), false)

/-- Adaptation of the register `key` (INJ_ODn or INJ_CDn) by a valid delay `t` of channel `n` (R381, R487). -/
def State.adapt (s : State) (n key t : Nat) : State × Bool :=
  if s.fld (INJ_ADP n) INJ_ADP_EN = 1 ∧ s.injOk n then
    let r := adaptWord (s.reg key) t (s.fld (INJ_ADP n) INJ_ADP_ARATE) (s.fld (INJ_ADP n) INJ_ADP_OUTL)
    if r.2 then ((s.raise INJ_EVT INJ_EVT_ODOUT).setBit (INJ_FST n) INJ_FST_ODOUT true, false) else (s.setReg key r.1, true)
  else (s, false)

/-- The trim write that follows an update of OD (R381). -/
def State.adaptTrim (s : State) (n : Nat) (updated : Bool) : Option (Nat × Nat) :=
  if updated && s.fld (INJ_ADP n) INJ_ADP_TEN == 1
  then some (s.fld (INJ_ADP n) INJ_ADP_TRI, s.fld (INJ_OD n) INJ_OD_OD) else none

/-- An opening search ends with nothing found (R379). -/
def State.openInvalid (s : State) (n : Nat) : State :=
  let c := s.injOf n
  if c.st == .boost && s.fld (INJ_CH n) INJ_CH_ODET == 1 && !c.found
  then (s.setBit (INJ_FST n) INJ_FST_ODINV true).report 0 n false 0 0 (s.fld (INJ_OD n) INJ_OD_OD) 0 none else s

/-- A closing search ends with nothing found (R380). -/
def State.closeInvalid (s : State) (n : Nat) : State :=
  let c := s.injOf n
  if c.st == .close && !c.found
  then (s.setBit (INJ_FST n) INJ_FST_CLSINV true).report 1 n false 0 0 (s.fld (INJ_CD n) INJ_CD_CD) 0 none else s

/-- A sample in a search: the slope over eight samples against its reference (R379, R380). -/
def State.search (s : State) (n : Nat) : State :=
  let c := s.injOf n
  match c.codes with
  | [a, _, _, _, _, _, _, _, z] =>
    if c.st == .boost && s.fld (INJ_CH n) INJ_CH_ODET == 1 && decide (c.ts + c.shift + 40 * INJ_DET_OBLK.get c.det ≤ s.now) then
      let d : Int := (a : Int) - z
      let r := c.sref.getD d
      if !c.found && decide (16 * d ≤ INJ_DET_OFRAC.get c.det * r)
      then s.updInj n fun x => { x with sref := some r, found := true, openDue := some s.now }
      else s.updInj n fun x => { x with sref := some r }
    else if c.st == .close && decide (c.closeAt + 320 ≤ s.now) then
      let d : Int := (z : Int) - a
      let r := c.sref.getD d
      if !c.found && decide (4 * d ≤ r)
      then s.updInj n fun x => { x with sref := some r, found := true, closeDue := some s.now }
      else s.updInj n fun x => { x with sref := some r }
    else s
  | _ => s

/-! ### Ends (R372, R374, R376) -/

/-- The low side goes off and the channel is in DECAY, or LATCHED. -/
def State.pulseOff (s : State) (n slot : Nat) (natural latch : Bool) : State :=
  let s1 := ((s.openInvalid n).setLs n false).updInj n fun c => { c with
    st := if latch then .latched else .decay, req := false, shed := false, tEnd := slot, natural := natural
    endCmd := none, forced := none, sref := none, found := false }
  (if latch then s1.setBit INJ_STAT (16 + n) true else s1).hsUpdate (n / 3)

/-- The drive island itself ends a pulse in progress, at the later of its minimum-duration end and now; the end is reported
(R374). -/
def State.forceEnd (s : State) (n cause : Nat) (latch : Bool) : State :=
  let c := s.injOf n
  if c.tmin ≤ s.now then (s.report 4 n false cause 0 0 s.now none).pulseOff n s.now false latch
  else s.updInj n fun x => { x with forced := some (c.tmin, cause, latch || (match x.forced with | some f => f.2.2 | none => false)) }

/-- A start that waits ends without an edge: reported as `kind` (R369, R374). -/
def State.dropWait (s : State) (n kind cause : Nat) (st : InjSt) : State :=
  let s1 := (s.report kind n false cause 0 0 s.now none).updInj n fun c => { c with st := st, endCmd := none, armed := none }
  if st == .latched then s1.setBit INJ_STAT (16 + n) true else s1

/-- A channel comes to be LATCHED by a fault of its bank (R376). -/
def State.latchChannel (s : State) (n cause : Nat) : State :=
  match (s.injOf n).st with
  | .latched => s
  | .waitb => s.dropWait n 4 cause .latched
  | .boost | .peak | .trans | .hold | .prop => s.forceEnd n cause true
  | .off | .decay | .close =>
    (((s.closeInvalid n).setGates n false).updInj n fun c => { c with st := .latched, armed := none, endCmd := none }).setBit
      INJ_STAT (16 + n) true

/-- Every channel of a bank is LATCHED by a fault. -/
def State.latchBank (s : State) (b cause : Nat) : State :=
  [3 * b, 3 * b + 1, 3 * b + 2].foldl (fun t k => t.latchChannel k cause) s

/-- A channel comes to be disabled (R386). -/
def State.injDisable (s : State) (n : Nat) : State :=
  let f := s.disableCause
  match (s.injOf n).st with
  | .waitb => f.1.dropWait n 4 f.2 .off
  | .boost | .peak | .trans | .hold | .prop => f.1.forceEnd n f.2 false
  | .off | .decay | .close | .latched => s.updInj n fun c => { c with armed := none }

/-! ### Starts (R359, R360, R362, R368, R373, R376) -/

/-- The profile is consistent for channel `n` (R362). -/
def State.profileOk (s : State) (n p : Nat) : Bool :=
  let ioc := s.fld (INJ_OC n) INJ_OC_IOC
  let ibst := s.fld (INJ_PROF p) INJ_PROF_IBST
  let ipk := s.fld (INJ_PK p) INJ_PK_IPK
  let ihld := s.fld (INJ_HLD p) INJ_HLD_IHLD
  let hyst := s.fld (INJ_HLD p) INJ_HLD_HYST
  let damp := s.fld (INJ_DTH p) INJ_DTH_DAMP
  if s.fld (INJ_PROF p) INJ_PROF_MODE = 0
  then decide (1 ≤ ipk ∧ ihld ≤ ipk ∧ (ibst = 0 ∨ ipk ≤ ibst) ∧ (0 < ihld → hyst < ihld) ∧ ipk + hyst ≤ ioc)
  else decide (damp + hyst ≤ ihld ∧ ihld + damp + hyst ≤ ioc ∧ (ibst = 0 ∨ ihld ≤ ibst))

/-- On-time of channel `n` in the window, in slots (R378). -/
def State.dutySum (s : State) (n : Nat) : Nat :=
  let c := s.injOf n
  c.win.foldl (· + ·) 0 + c.acc + (match c.onAt with | some t => s.now - t | none => 0)

/-- Duty limit of channel `n` in slots: DUTY times 0.1 % of 100 ms. -/
def State.dutyLimit (s : State) (n : Nat) : Nat := s.fld (INJ_CH n) INJ_CH_DUTY * 40000

/-- Channel `n` is LATCHED, or its clasp partner is. -/
def State.injLatched (s : State) (n : Nat) : Bool :=
  (s.injOf n).st == .latched || (s.clasped n && (s.injOf (n + 1)).st == .latched)

/-- A start is refused for a reason other than its profile (R373). -/
def State.startBarred (s : State) (n : Nat) : Bool :=
  !s.bit INJ_APPLIED n || s.injLatched n || s.fld (INJ_DUTY n) INJ_DUTY_LIM == 1 || decide (s.dutyLimit n ≤ s.dutySum n)
    || s.claspSecond n

/-- The start edge falls in slot `ts`: the segment of the copied profile begins (R360). -/
def State.beginPulse (s : State) (n ts : Nat) : State :=
  let c := s.injOf n
  let boost := INJ_PROF_IBST.get c.prof != 0
  let next : InjSt := if boost then .boost else if INJ_PROF_MODE.get c.prof = 0 then .peak else .prop
  let s1 := (s.updInj n fun x => { x with
    st := next, ts := ts - x.shift, segAt := ts, req := false, shed := false, forced := none, sref := none, found := false
    openDue := none }).setLs n true
  s1.hsUpdate (n / 3)

/-- A start command takes effect (R373, R375, R376). -/
def State.injStart (s : State) (n p ts tmin : Nat) : State :=
  let t := max ts s.now
  let s0 := s.updInj n fun c => { c with endCmd := none }
  if s.startBarred n then (s0.raise INJ_EVT INJ_EVT_REFUSED).report 5 n false 0 0 0 t none
  else if !s.profileOk n p then
    ((s0.injChFault n INJ_EVT_PROFERR clsC INJ_FST_PROFERR).raise INJ_EVT INJ_EVT_REFUSED).report 5 n false 0 0 0 t none
  else
    match (s.injOf n).st with
    | .off | .decay | .close =>
      let s1 := s.closeInvalid n
      let s2 := if (s.injOf n).st == .close then s1.setGates n false else s1
      let s3 := s2.updInj n fun c => { c with
        prof := s.reg (INJ_PROF p), pk := s.reg (INJ_PK p), hld := s.reg (INJ_HLD p), dth := s.reg (INJ_DTH p)
        det := s.reg (INJ_DET p), ts := t, tmin := tmin, shift := 0 }
      if s.fld (INJ_PROF p) INJ_PROF_IBST ≠ 0 && s.otherBoost n then s3.updInj n fun c => { c with st := .waitb }
      else s3.beginPulse n t
    | .waitb | .boost | .peak | .trans | .hold | .prop | .latched => s

/-- An end command takes effect in its slot (R372). -/
def State.injEnd (s : State) (n te : Nat) (natural : Bool) : State :=
  if s.pulsing n then s.pulseOff n te natural false else s

/-- A start command reaches the drive island: it takes effect in its slot, or at once where that has passed (R375). -/
def State.takeStart (s : State) (n p ts tmin : Nat) : State :=
  if ts ≤ s.now then s.injStart n p ts tmin else s.updInj n fun c => { c with armed := some (p, ts, tmin) }

/-- An end command reaches the drive island: its slot moves with the shift of a shifted start (R368); a start still waiting keeps
it. -/
def State.takeEnd (s : State) (n te : Nat) (natural : Bool) : State :=
  let t := te + (s.injOf n).shift
  if !(s.pulsing n || (s.injOf n).st == .waitb || (s.injOf n).armed.isSome) then s
  else if (s.injOf n).st == .waitb || s.now < t then s.updInj n fun c => { c with endCmd := some (te, natural) }
  else s.injEnd n t natural

/-- What comes due on channel `n` in this slot, in the order of R377: an end under R374, an end slot, a start. -/
def State.injDue (s : State) (n : Nat) : State :=
  let s1 := match (s.injOf n).forced with
    | some (t, cause, latch) =>
      if t ≤ s.now && s.pulsing n then (s.report 4 n false cause 0 0 t none).pulseOff n t false latch else s
    | none => s
  let s2 := match (s1.injOf n).endCmd with
    | some (te, natural) =>
      if s1.pulsing n && te + (s1.injOf n).shift ≤ s1.now then s1.injEnd n (te + (s1.injOf n).shift) natural else s1
    | none => s1
  match (s2.injOf n).armed with
  | some (p, ts, tmin) =>
    if ts ≤ s2.now then (s2.updInj n fun c => { c with armed := none }).injStart n p ts tmin else s2
  | none => s2

/-- What comes due on the drive in this slot (R370). -/
def State.runInj (s : State) : State := (List.range 12).foldl State.injDue s

/-! ### Regulation (R363, R364) -/

/-- The band decisions of a powered channel after a sample. -/
def State.regulate (s : State) (n : Nat) : State :=
  let c := s.injOf n
  match c.st with
  | .peak | .hold | .prop =>
    let i : Int := s.twiceCode n
    let it := 2 * s.injTarget n
    let h : Int := 2 * s.codeOf n (INJ_HLD_HYST.get c.hld)
    let req := if i < it - h then true else if it + h ≤ i then false else c.req
    let s1 := s.updInj n fun x => { x with req := req }
    let s2 :=
      if !c.shed && decide (it + h ≤ i) && s1.bankDemand (n / 3) (some n)
      then (s1.setLs n false).updInj n fun x => { x with shed := true }
      else if c.shed && decide (i ≤ it) then (s1.setLs n true).updInj n fun x => { x with shed := false } else s1
    s2.hsUpdate (n / 3)
  | .off | .waitb | .boost | .trans | .decay | .close | .latched => s

/-- A sample of channel `n`'s current converter (R357). -/
def State.injSample (s : State) (n code : Nat) : State :=
  let w := INJ_IM_I.set (INJ_IM_CODE.set 0 code) (s.currentOf n code)
  let s1 := (s.setReg (INJ_IM n) w).updInj n fun c => { c with codes := (code :: c.codes).take 9 }
  (s1.search (s1.claspHead n)).regulate (s1.claspHead n)

/-- BOOST ends: the search ends, and the channel goes to PEAK or PROP. -/
def State.boostOver (s : State) (n : Nat) : State :=
  ((s.openInvalid n).updInj n fun c => { c with
    st := if INJ_PROF_MODE.get c.prof = 0 then .peak else .prop, segAt := s.now, req := false }).hsUpdate (n / 3)

/-! ### Registers of INJ (R388 to R390) -/

/-- Every channel of the list is disabled in INJ_APPLIED. -/
def State.allOff (s : State) (l : List Nat) : Bool := l.all fun n => !s.bit INJ_APPLIED n

/-- The channels an RWC field of the register affects are not all disabled (R388). -/
def State.injLocked (s : State) (addr : Nat) : Bool :=
  let o := addr % 0x10000
  if o < 0x40 then !s.allOff (List.range 12)
  else if o < 0x80 then
    !s.allOff ((List.range 12).filter fun n => s.fld (INJ_BANK (n / 3)) INJ_BANK_SUP == (o - 0x40) / 0x10)
  else if o < 0x100 then let b := (o - 0x80) / 0x10; !s.allOff [3 * b, 3 * b + 1, 3 * b + 2]
  else if o < 0x400 then s.bit INJ_APPLIED ((o - 0x100) / 0x20) else false

/-- A changed bit of INJ_CLASP is allowed (R367). -/
def State.claspLegal (s : State) (w : Word) : Bool :=
  (List.range 4).all fun b => bitOf w b == s.bit INJ_CLASP b ||
    (s.allOff [3 * b, 3 * b + 1] && s.fld (INJ_CH (3 * b)) INJ_CH_RSH == s.fld (INJ_CH (3 * b + 1)) INJ_CH_RSH)

/-- The chapter's own conditions for a write to a register of INJ (R367, R384, R389, R390). -/
def State.injLegal (s : State) (addr : Nat) (w : Word) : Bool :=
  let o := addr % 0x10000
  let k := (o - 0x40) / 0x10
  let n := (o - 0x100) / 0x20
  if addr = INJ_CLASP then s.claspLegal w
  else if addr = INJ_DIAG then
    (List.range 4).all fun b => !bitOf w (4 + b) || s.allOff [3 * b, 3 * b + 1, 3 * b + 2]
  else if 0x40 ≤ o ∧ o < 0x80 then
    (if addr = INJ_BST k then decide (INJ_BST_VSET.get w * s.fld (INJ_BFB k) INJ_BFB_K ≤ 753664)
     else if addr = INJ_BFB k then decide (s.fld (INJ_BST k) INJ_BST_VSET * INJ_BFB_K.get w ≤ 753664)
     else if addr = INJ_BLIM k then
       decide (INJ_BLIM_UV.get w < s.fld (INJ_BST k) INJ_BST_VSET ∧ s.fld (INJ_BST k) INJ_BST_VSET < INJ_BLIM_OV.get w)
     else true)
  else if 0x100 ≤ o ∧ o < 0x400 ∧ (addr = INJ_OD n ∨ addr = INJ_CD n) then s.fld (INJ_ADP n) INJ_ADP_EN == 0
  else true

/-- A LATCHED channel at IZ or below returns to OFF (R376). -/
def State.clearLatch (s : State) (n : Nat) : State :=
  if (s.injOf n).st == .latched && s.iAtMost n injIZ
  then (s.updInj n fun c => { c with st := .off }).setBit INJ_STAT (16 + n) false else s

/-- A write to a register of INJ. INJ_CTRL reaches the drive island, where it comes into force, while the link carries it. -/
def State.injWrite (s : State) (addr : Nat) (w : Word) : State :=
  s.writeWith addr w (s.injLocked addr) (s.injLegal addr w) fun t =>
    if addr = INJ_CTRL then
      if t.linkOk then
        let t1 := (t.setFld INJ_APPLIED INJ_APPLIED_EN (INJ_CTRL_EN.get w)).setFld INJ_APPLIED INJ_APPLIED_GEN (INJ_CTRL_GEN.get w)
        (List.range 12).foldl (fun u n => if s.bit INJ_APPLIED n && !u.bit INJ_APPLIED n then u.injDisable n else u) t1
      else t
    else if addr = INJ_ALRT then
      (if bitOf w 1 then (if t.drive.alrtPulse then { t with drive := { t.drive with alrtRel := true } } else t.alrtOff) else t)
    else if addr = INJ_FCLR then (List.range 12).foldl (fun u n => if bitOf w n then u.clearLatch n else u) t
    else if addr = INJ_DIAG then
      (if bitOf w 0 then { t.setFld INJ_DIAG INJ_DIAG_BUSY 1 with drive := { t.drive with
        diagBanks := t.drive.diagBanks ||| INJ_DIAG_BANKS.get w } } else t)
    else t

/-- What the high-voltage die does to the injectors at link loss (R32): pulses end at the later of their minimum-duration end and
now, with no report; starts that wait stay off. -/
def State.injLost (s : State) : State :=
  let s1 : State := (List.range 12).foldl (fun t n =>
    if t.pulsing n then
      (if (t.injOf n).tmin ≤ t.now then t.pulseOff n t.now false false
       else t.updInj n fun c => { c with endCmd := some (c.tmin - c.shift, false) })
    else if (t.injOf n).st == .waitb then t.updInj n fun c => { c with st := .off, armed := none, endCmd := none }
    else t.updInj n fun c => { c with armed := none }) s
  { s1 with drive := { s1.drive with lost := true } }.alrt 31 false true

/-! ### Reports at the angle island (R373, R374, R382) -/

/-- The 16-byte entry of R382. -/
def reportEntry (kind ch slot : Nat) (valid : Bool) (cause delay filt : Nat) : List Byte :=
  wordsToBytes [BitVec.ofNat 32 slot,
    BitVec.ofNat 32 (ch + 16 * kind + 256 * b2n valid + 65536 * (if kind = 4 then cause else 0)),
    BitVec.ofNat 32 delay, BitVec.ofNat 32 filt]

/-- A drive-caused end retires the action ABORTED where its end has not been dispatched (R374). -/
def State.driveEnded (s : State) (ch tend : Nat) : State :=
  match s.stage.find? fun a => a.kind == kINJ && a.chan == ch && (a.place == .active || a.place == .ending) with
  | none => s
  | some a => ((s.setBit OUT_ACTI ch false).updOut ch fun c => { c with lastEnd := some tend }).retire a stABORTED a.startW
      (tend - a.ts)

/-- A report of the drive island reaches the angle island. -/
def State.takeReportOf (s : State) (kind ch slot : Nat) (valid : Bool) (cause delay filt tend : Nat) (queue : Option Nat)
    (trim : Option (Nat × Nat)) : State :=
  let s1 := if kind = 4 then s.driveEnded ch tend else if kind = 3 ∨ kind = 5 then s.injRefused ch else s
  let s2 := match trim with
    | some (i, v) => s1.trimWriteHw i (BitVec.ofNat 32 v)
    | none => s1
  match queue with
  | some q => (s2.qputFor (s2.binding 4) q (reportEntry kind ch slot valid cause delay filt)).1
  | none => s2

/-! ### Commands -/

/-- `INJ_CTRL_WRITE` (R386): a write to INJ_CTRL. -/
def execInjCtrlWrite (w : Word) (s : State) : Host.Outcome State Fault Refusal := .next (s.injWrite INJ_CTRL w)

/-- `INJ_START_COMMAND` (R376): the oldest item of the crossing from the angle island, if it is a start command. -/
def execInjStartCommand (s : State) : Host.Outcome State Fault Refusal :=
  match s.nextItem .angle .drive with
  | some (.injStart ch p ts tmin) => .next ((s.ackItem .angle .drive).takeStart ch p ts tmin)
  | _ => .next s

/-- `INJ_END_COMMAND` (R372): the oldest item of the crossing from the angle island, if it is an end command. -/
def execInjEndCommand (s : State) : Host.Outcome State Fault Refusal :=
  match s.nextItem .angle .drive with
  | some (.injEnd ch te fast) => .next ((s.ackItem .angle .drive).takeEnd ch te (!fast))
  | _ => .next s

/-- `INJ_REGULATION` (R363): a sample of channel `n`'s current converter. -/
def execInjRegulation (n : Fin 12) (code : BitVec 10) (s : State) : Host.Outcome State Fault Refusal :=
  .next (s.injSample n code.toNat)

/-- `INJ_BOOST_DONE` (R376): a BOOST channel whose current has reached IBST goes to PEAK or PROP. -/
def execInjBoostDone (n : Fin 12) (s : State) : Host.Outcome State Fault Refusal :=
  let c := s.injOf n
  .next (if c.st == .boost && s.iAtLeast n (INJ_PROF_IBST.get c.prof) then s.boostOver n else s)

/-- `INJ_SHIFTED_START` (R368): a start waiting in WAITB starts once no other channel of its bank is in BOOST, its end moved by
the shift. -/
def execInjShiftedStart (n : Fin 12) (s : State) : Host.Outcome State Fault Refusal :=
  let c := s.injOf n
  if c.st == .waitb && !s.otherBoost n then
    let sh := s.now - c.ts
    let b := n.val / 3
    let s1 := (s.updInj n fun x => { x with shift := sh, tmin := x.tmin + sh }).beginPulse n s.now
    let s2 := ((s1.count (INJ_BOVL b) INJ_BOVL_SHIFT 1).setFld (INJ_BSH b) INJ_BSH_LAST (capAt 65535 (sh / 4))).injFault
      INJ_EVT_BSHIFT n clsC
    .next (s2.report 2 n false 0 (sh / 4) 0 0 none)
  else .next s

/-- `BCANCEL` (R369): a start that has waited SHMAX is cancelled without an edge. -/
def execBcancel (n : Fin 12) (s : State) : Host.Outcome State Fault Refusal :=
  let c := s.injOf n
  let b := n.val / 3
  if c.st == .waitb && decide (c.ts + 40 * s.fld (INJ_BANK b) INJ_BANK_SHMAX ≤ s.now) then
    .next (((s.count (INJ_BOVL b) INJ_BOVL_CANC 1).injFault INJ_EVT_BCANCEL n clsU).dropWait n 3 0 .off)
  else .next s

/-- `TBMAX_EXPIRY` (R376): TBMAX elapses in BOOST. -/
def execTbmaxExpiry (n : Fin 12) (s : State) : Host.Outcome State Fault Refusal :=
  let c := s.injOf n
  if c.st == .boost && decide (c.ts + c.shift + 4 * INJ_PROF_TBMAX.get c.prof ≤ s.now) then
    if decide (2 * s.codeOf n (INJ_PROF_IBST.get c.prof) ≤ 10 * s.twiceCode n)
    then .next ((s.injChFault n INJ_EVT_BSTTO clsC INJ_FST_BSTTO).boostOver n)
    else .next (((s.injChFault n INJ_EVT_OPENON clsC INJ_FST_OPENON).boostOver n).forceEnd n INJ_EVT_OPENON false)
  else .next s

/-- `TPK_END` (R376): TPK elapses in PEAK; the channel goes to TRANS with its low side off, or to HOLD. -/
def execTpkEnd (n : Fin 12) (s : State) : Host.Outcome State Fault Refusal :=
  let c := s.injOf n
  if c.st == .peak && decide (c.segAt + 40 * INJ_PK_TPK.get c.pk ≤ s.now) then
    if INJ_PROF_PHDEC.get c.prof = 1 then
      .next (((s.setLs n false).updInj n fun x => { x with st := .trans, req := false, shed := false }).hsUpdate (n.val / 3))
    else .next (s.updInj n fun x => { x with st := .hold })
  else .next s

/-- `INJ_TRANS_END` (R376): the current of a TRANS channel has fallen to IHLD. -/
def execInjTransEnd (n : Fin 12) (s : State) : Host.Outcome State Fault Refusal :=
  let c := s.injOf n
  .next (if c.st == .trans && s.iAtMost n (INJ_HLD_IHLD.get c.hld)
    then (s.setLs n true).updInj n fun x => { x with st := .hold } else s)

/-- `INJ_DECAY_END` (R376): the current of a DECAY channel has fallen to ICLS, to enter CLOSE, or to IZ, to enter OFF. -/
def execInjDecayEnd (n : Fin 12) (s : State) : Host.Outcome State Fault Refusal :=
  let c := s.injOf n
  if c.st != .decay then .next s
  else if c.natural && s.fld (INJ_CH n) INJ_CH_CDET == 1 && !s.hsOn (n.val / 3) && s.iAtMost n (INJ_DET_ICLS.get c.det) then
    .next ((s.setGates n true).updInj n fun x => { x with st := .close, closeAt := s.now, sref := none, found := false })
  else .next (if s.iAtMost n injIZ then s.updInj n fun x => { x with st := .off } else s)

/-- `INJ_CLOSE_END` (R376): CLOSE ends: the high side has been turned on, closing is found, the current is at IZ, or 4 ms have
passed since the end. -/
def execInjCloseEnd (n : Fin 12) (s : State) : Host.Outcome State Fault Refusal :=
  let c := s.injOf n
  if c.st != .close then .next s
  else if s.hsOn (n.val / 3) then .next (((s.closeInvalid n).setGates n false).updInj n fun x => { x with st := .decay, natural := false })
  else if c.found || s.iAtMost n injIZ || decide (c.tEnd + 1600000 ≤ s.now) then
    .next (((s.closeInvalid n).setGates n false).updInj n fun x => { x with st := .off })
  else .next s

/-- `OC` (R358, R376): the overcurrent comparator of channel `n` turns its low side off at once and latches it; of a clasp it
ends both channels. -/
def execOvercurrent (n : Fin 12) (s : State) : Host.Outcome State Fault Refusal :=
  if (s.injOf n).st == .latched then .next s
  else
    let h := s.claspHead n
    let s1 := (s.injChFault n INJ_EVT_OC clsU INJ_FST_OC).closeInvalid h
    let s2 := if s1.pulsing h then (s1.report 4 h false INJ_EVT_OC 0 0 s1.now none).pulseOff h s1.now false false
      else if (s1.injOf h).st == .waitb then (s1.dropWait h 4 INJ_EVT_OC .off).setGates h false
      else s1.setGates h false
    let s3 := if (s2.injOf h).st == .close then s2.updInj h fun x => { x with st := .decay, natural := false } else s2
    .next ((s3.updInj n fun x => { x with st := .latched, armed := none }).setBit INJ_STAT (16 + n.val) true)

/-- `DUTY` (R378): the on-time sum has reached the duty limit. -/
def execDutyLimit (n : Fin 12) (s : State) : Host.Outcome State Fault Refusal :=
  if s.fld (INJ_DUTY n) INJ_DUTY_LIM = 0 ∧ s.dutyLimit n ≤ s.dutySum n then
    let s1 := (s.injChFault n INJ_EVT_DUTY clsU INJ_FST_DUTY).setFld (INJ_DUTY n) INJ_DUTY_LIM 1
    .next (if s1.pulsing n then s1.forceEnd n INJ_EVT_DUTY false else s1)
  else .next s

/-- `DUTY_SUB_WINDOW` (R378): a 1 ms sub-window of channel `n` closes and the oldest drops out. -/
def execDutySubWindow (n : Fin 12) (s : State) : Host.Outcome State Fault Refusal :=
  let s1 := s.updInj n fun c => { c with
    win := ((c.acc + (match c.onAt with | some t => s.now - t | none => 0)) :: c.win).take 99, acc := 0
    onAt := c.onAt.map fun _ => s.now }
  .next (if s1.dutySum n + 400000 < s1.dutyLimit n then s1.setFld (INJ_DUTY n) INJ_DUTY_LIM 0 else s1)

/-- `OPEN` (R379): an opening found in BOOST is reported and adapts the filtered delay. -/
def execOpenDetected (n : Fin 12) (s : State) : Host.Outcome State Fault Refusal :=
  let c := s.injOf n
  match c.openDue with
  | some t =>
    let d := roundDivN (t - 160 - (c.ts + c.shift)) 4
    let r := State.adapt ((s.updInj n fun x => { x with openDue := none }).raise INJ_EVT INJ_EVT_OPEN) n (INJ_OD n) d
    .next (r.1.report 0 n true 0 d (r.1.fld (INJ_OD n) INJ_OD_OD) 0 (r.1.adaptTrim n r.2))
  | none => .next s

/-- `CLOSE` (R380): a closing found in CLOSE is reported and adapts the filtered delay. -/
def execCloseDetected (n : Fin 12) (s : State) : Host.Outcome State Fault Refusal :=
  let c := s.injOf n
  match c.closeDue with
  | some t =>
    let d := roundDivN (t - 160 - c.tEnd) 4
    let r := State.adapt ((s.updInj n fun x => { x with closeDue := none }).raise INJ_EVT INJ_EVT_CLOSE) n (INJ_CD n) d
    .next (r.1.report 1 n true 0 d (r.1.fld (INJ_CD n) INJ_CD_CD) 0 none)
  | none => .next s

/-- `DRIVE_REPORT` (R382): the oldest item of the crossing from the drive island, if it is a report, reaches the angle island. -/
def execDriveReport (s : State) : Host.Outcome State Fault Refusal :=
  match s.nextItem .drive .angle with
  | some (.drv k c sl v ca d f te q tr) => .next ((s.ackItem .drive .angle).takeReportOf k c sl v ca d f te q tr)
  | _ => .next s

/-- `HSOPEN` (R383): the high side of bank `b` is commanded on and its node has stayed low for 2 us. -/
def execHsopen (b : Fin 4) (s : State) : Host.Outcome State Fault Refusal :=
  .next (if s.hsOn b then (s.injFault INJ_EVT_HSOPEN b clsU).latchBank b INJ_EVT_HSOPEN else s)

/-- `HSSHORT` (R383): the high side of bank `b` is commanded off, no channel of it is powered, and its node has stayed high for
2 us. -/
def execHsshort (b : Fin 4) (s : State) : Host.Outcome State Fault Refusal :=
  let any := [3 * b.val, 3 * b.val + 1, 3 * b.val + 2].any fun n => s.powered n
  .next (if !s.hsOn b && !any then (s.injFault INJ_EVT_HSSHORT b clsU).latchBank b INJ_EVT_HSSHORT else s)

/-- `VHVUV` (R383): VHVk, measured as `v` in 0.1 V, lies below UV. -/
def execVhvuv (k : Fin 2) (v : BitVec 10) (s : State) : Host.Outcome State Fault Refusal :=
  let s1 := s.setFld (INJ_BV k) INJ_BV_VHV v.toNat
  .next (if v.toNat < s.fld (INJ_BLIM k) INJ_BLIM_UV then s1.injFault INJ_EVT_VHVUV k clsC else s1)

/-- `VHVOV` (R383): VHVk, measured as `v` in 0.1 V, lies above OV; switching of converter `k` stops. -/
def execVhvov (k : Fin 2) (v : BitVec 10) (s : State) : Host.Outcome State Fault Refusal :=
  let s1 := s.setFld (INJ_BV k) INJ_BV_VHV v.toNat
  .next (if s.fld (INJ_BLIM k) INJ_BLIM_OV < v.toNat
    then { s1 with drive := { s1.drive with ovStop := vset s1.drive.ovStop k true } }.injFault INJ_EVT_VHVOV k clsU else s1)

/-- `VHVOV_RELEASE` (R383): VHVk, measured as `v` in 0.1 V, lies below OV − 1.0 V; switching of converter `k` resumes. -/
def execVhvovRelease (k : Fin 2) (v : BitVec 10) (s : State) : Host.Outcome State Fault Refusal :=
  let s1 := s.setFld (INJ_BV k) INJ_BV_VHV v.toNat
  .next (if v.toNat + 10 < s.fld (INJ_BLIM k) INJ_BLIM_OV
    then { s1 with drive := { s1.drive with ovStop := vset s1.drive.ovStop k false } } else s1)

/-- `BSTFB` (R354): VHVk measured and derived from the feedback, in 0.1 V, have differed by more than 5 % of VSET for 1 ms. -/
def execBstfb (k : Fin 2) (v f : BitVec 10) (s : State) : Host.Outcome State Fault Refusal :=
  let s1 := (s.setFld (INJ_BV k) INJ_BV_VHV v.toNat).setFld (INJ_BV k) INJ_BV_VFB f.toNat
  let d := if v.toNat < f.toNat then f.toNat - v.toNat else v.toNat - f.toNat
  .next (if s.fld (INJ_BST k) INJ_BST_VSET < 20 * d then s1.injFault INJ_EVT_BSTFB k clsC else s1)

/-- `INJ_DIAG_GO` (R384): a write to INJ_DIAG. -/
def execInjDiagGo (w : Word) (s : State) : Host.Outcome State Fault Refusal := .next (s.injWrite INJ_DIAG w)

/-- The off-state test of bank `b` ends: a short, or for each channel open, pass or a result between (R384). -/
def State.diagBank (s : State) (b : Nat) (short : BitVec 4) (opn between : BitVec 12) : State :=
  let s1 := s.setReg (INJ_DRES b) 0
  if short.getLsbD b then
    ((s1.setFld (INJ_DRES b) INJ_DRES_SHORT 1).injFault INJ_EVT_SHORTGND b clsU).latchBank b INJ_EVT_SHORTGND
  else (List.range 3).foldl (fun t i =>
    let n := 3 * b + i
    if opn.getLsbD n then (t.setFld (INJ_DRES b) ⟨2 * i, 2⟩ 2).injFault INJ_EVT_OPENOFF n clsC
    else t.setFld (INJ_DRES b) ⟨2 * i, 2⟩ (if between.getLsbD n then 3 else 1)) s1

/-- `DIAGDONE` (R384): the off-state test ends: which banks are short to ground, which channels are open, and which gave a result
between. -/
def execDiagdone (short : BitVec 4) (opn between : BitVec 12) (s : State) : Host.Outcome State Fault Refusal :=
  if s.fld INJ_DIAG INJ_DIAG_BUSY = 1 then
    let s1 : State := (List.range 4).foldl (fun t b =>
      if s.drive.diagBanks.testBit b then t.diagBank b short opn between else t) s
    .next ({ s1.setFld INJ_DIAG INJ_DIAG_BUSY 0 with drive := { s1.drive with diagBanks := 0 } }.raise INJ_EVT INJ_EVT_DIAGDONE)
  else .next s

/-- `INJ_FCLR` (R376): a write to INJ_FCLR. -/
def execInjFclr (w : Word) (s : State) : Host.Outcome State Fault Refusal := .next (s.injWrite INJ_FCLR w)

/-- `ALRT_PULSE_END` (R385): the pulse ends; the pin stays low after a U-class fault with HOLDU = 1 or a link loss, unless REL was
written during the pulse. -/
def execAlrtPulseEnd (s : State) : Host.Outcome State Fault Refusal :=
  if s.drive.alrtPulse then
    let hold := s.drive.alrtLink || (s.drive.alrtU && s.fld INJ_ALRT INJ_ALRT_HOLDU == 1)
    .next (if s.drive.alrtRel || !hold then s.alrtOff else { s with drive := { s.drive with alrtPulse := false } })
  else .next s

/-- `ALRT_REL` (R385): a write to INJ_ALRT. -/
def execAlrtRel (w : Word) (s : State) : Host.Outcome State Fault Refusal := .next (s.injWrite INJ_ALRT w)

end Sys2Proof.Machine
end

