-- ==== Sys2Proof/Machine/Pwm.lean ====
section
/-! DEFINITION. The valve PWM generator (R391 to R412, R419, R420). A boundary, a window transition, a node crossing and the expiry
of a time come as commands. -/

namespace Sys2Proof.Machine

/-! ### Pairs -/

/-- What PWM pair `n` holds beside its registers. -/
def State.pwmOf (s : State) (n : Nat) : Pwm := vat s.pwm n

/-- The state with PWM pair `n` changed. -/
def State.updPwm (s : State) (n : Nat) (f : Pwm → Pwm) : State := { s with pwm := vupd s.pwm n f }

/-- Pair `n` is enabled in PWM_APPLIED. -/
def State.pwmOn (s : State) (n : Nat) : Bool := s.bit PWM_APPLIED n

/-- CENTRE counting (R392). -/
def State.pwmCentre (s : State) (n : Nat) : Bool := s.fld (PWM_CFG n) PWM_CFG_MODE == 1

/-- TOP and DUTY in force. -/
def State.pwmTop (s : State) (n : Nat) : Nat := s.fld (PWM_ACT n) PWM_ACT_TOP

/-- DUTY in force. -/
def State.pwmDuty (s : State) (n : Nat) : Nat := s.fld (PWM_ACT n) PWM_ACT_DUTY

/-- Period in drive clocks for a TOP (R392). -/
def pwmPeriod (centre : Bool) (top : Nat) : Nat := if centre then 2 * top else top + 1

/-- Active window in drive clocks (R393). -/
def pwmWindow (centre : Bool) (top duty : Nat) : Nat := if centre then 2 * min duty top else min duty (top + 1)

/-- Limit below which a window is short (R400). -/
def State.shortLimit (s : State) (n : Nat) : Nat :=
  s.fld (PWM_CFG n) PWM_CFG_MINW + (if s.fld (PWM_CFG n) PWM_CFG_OUTM = 0 then s.fld (PWM_DT n) PWM_DT_DTMAX else 0)

/-- A period of `top` is long enough for pair `n` (R400). -/
def State.periodOk (s : State) (n top : Nat) : Bool := decide (2 * s.shortLimit n ≤ pwmPeriod (s.pwmCentre n) top)

/-- The mask that counts: none in the safe state (R404). -/
def State.pwmMask (s : State) (n : Nat) : Nat := if (s.pwmOf n).safeOn then 0 else s.fld (PWM_MSK n) PWM_MSK_APPL

/-- Count and direction as read (R392): drive clocks since the last boundary. -/
def State.pwmCount (s : State) (n : Nat) : Nat × Bool :=
  if !s.pwmOn n then (0, false)
  else
    let c := (s.now - (s.pwmOf n).bAt) / 2
    let top := s.pwmTop n
    if s.pwmCentre n then (if c ≤ top then (top - c, true) else (min (c - top) top, false)) else (min c top, false)

/-! ### Switches (R397, R398, R411, R412) -/

/-- A switch of pair `n` turns on; PWM_L of a boost pair starts the ramp (R412). -/
def State.pwmTurnOn (s : State) (n : Nat) (high : Bool) : State :=
  let s1 := s.updPwm n fun p => if high then { p with h := true, hOn := s.now, inc := none, onAt := none }
    else { p with l := true, lOn := s.now, inc := none, onAt := none }
  if 8 ≤ n ∧ !high then s1.launch .drive .converter (.ramp (n - 8) true) else s1

/-- PWM_L of pair `n` turns off; for a boost pair the ramp ends (R412). -/
def State.pwmLowOff (s : State) (n : Nat) : State :=
  let s1 := s.updPwm n fun p => { p with l := false }
  if 8 ≤ n ∧ (s.pwmOf n).l then s1.launch .drive .converter (.ramp (n - 8) false) else s1

/-- Both switches turn off at once (R402, R406). -/
def State.pwmBothOff (s : State) (n : Nat) : State :=
  (s.pwmLowOff n).updPwm n fun p => { p with h := false, inc := none, onAt := none }

/-- The switches that should be on: high, low (R397, R402). -/
def State.pwmWant (s : State) (n : Nat) : Bool × Bool :=
  let p := s.pwmOf n
  let m := s.pwmMask n
  let outm := s.fld (PWM_CFG n) PWM_CFG_OUTM
  if m = 1 then (false, false) else if m = 2 then (false, true) else if m = 3 then (true, false)
  else if outm = 0 then (p.req && !p.dropped, !p.req && !p.dropped)
  else if outm = 1 then (p.req && !p.dropped, false)
  else (false, p.req && !p.dropped)

/-- The switches follow: what should be off goes off at once, what should be on comes on after the dead time of R398, or at once in
HONLY and LONLY (R397). -/
def State.pwmFollow (s : State) (n : Nat) : State :=
  let w := s.pwmWant n
  let s1 := s.updPwm n fun p => if !w.1 then { p with h := false } else p
  let s2 := if !w.2 then s1.pwmLowOff n else s1
  let p := s2.pwmOf n
  let dead := s.fld (PWM_CFG n) PWM_CFG_OUTM == 0 || s.pwmMask n != 0
  if (w.1 && !p.h) || (w.2 && !p.l) then
    let high := w.1
    if !dead then s2.pwmTurnOn n high
    else match p.inc with
      | some (d, _) => if d == high then s2 else s2.updPwm n fun q => { q with inc := some (high, s.now), onAt := none }
      | none => s2.updPwm n fun q => { q with inc := some (high, s.now), onAt := none }
  else s2.updPwm n fun q => { q with inc := none, onAt := none }

/-- The MEAS field of a transition: DLH for one to the high side, DHL for one to the low side (R398). -/
def measFld (high : Bool) : Fld := if high then PWM_MEAS_DLH else PWM_MEAS_DHL

/-- A switch whose dead time is known comes on in its slot. -/
def State.pwmDue (s : State) (n : Nat) : State :=
  match (s.pwmOf n).onAt, (s.pwmOf n).inc with
  | some t, some (high, _) => if t ≤ s.now then s.pwmTurnOn n high else s
  | _, _ => s

/-- What comes due on the pairs in this slot. -/
def State.runPwm (s : State) : State := (List.range 10).foldl State.pwmDue s

/-! ### Windows (R393, R400, R401) -/

/-- A pair flag with its event. -/
def State.pwmFlag (s : State) (n flag evt : Nat) : State := (s.setBit (PWM_ST n) flag true).raise PWM_EVT evt

/-- The request of pair `n` becomes `active`: the window that begins is judged short under R400 and R401, and the switches
follow. -/
def State.pwmRequest (s : State) (n : Nat) (active : Bool) : State :=
  if (s.pwmOf n).req == active then s
  else
    let c := s.pwmCentre n
    let w := pwmWindow c (s.pwmTop n) (s.pwmDuty n)
    let len := if active then w else pwmPeriod c (s.pwmTop n) - w
    let driven := active || s.fld (PWM_CFG n) PWM_CFG_OUTM == 0
    let short := driven && s.pwmMask n == 0 && decide (0 < len ∧ len < s.shortLimit n)
    let drop := short && s.fld (PWM_CFG n) PWM_CFG_SHORT == 0
    let s1 := if short then
        (s.pwmFlag n (if drop then PWM_ST_DROP else PWM_ST_STRETCH) PWM_EVT_SHORTP).count (PWM_SCNT n) PWM_SCNT_SHORT 1
      else s
    (s1.updPwm n fun p => { p with req := active, dropped := drop }).pwmFollow n

/-! ### Boundaries (R392 to R395, R403 to R405, R408, R409) -/

/-- The safe duty in counts (R404). -/
def State.safeDuty (s : State) (n top : Nat) : Nat :=
  roundDivN (s.fld (PWM_SAFE n) PWM_SAFE_SDUTY * (if s.pwmCentre n then top else top + 1)) 1000

/-- The shadows load at a boundary (R394, R395). -/
def State.loadShadows (s : State) (n : Nat) : State :=
  let p := s.pwmOf n
  let cp := s.fld (PWM_CNT n) PWM_CNT_CPEND == 1
  let per := cp || p.perW
  let dut := cp || p.dutW
  let s1 := if per then s.setFld (PWM_ACT n) PWM_ACT_TOP (s.fld (PWM_PER n) PWM_PER_TOP) else s
  let s2 := if dut then s1.setFld (PWM_ACT n) PWM_ACT_DUTY (s.fld (PWM_DUT n) PWM_DUT_DUTY) else s1
  let alone := if cp then 0 else if p.perW && !p.dutW then 1 else if p.dutW && !p.perW then 2 else 0
  let mism := (alone == 1 && p.lastLoad == 2) || (alone == 2 && p.lastLoad == 1)
  let s3 := if mism then s2.pwmFlag n PWM_ST_MISM PWM_EVT_MISM else s2
  (s3.setFld (PWM_CNT n) PWM_CNT_CPEND 0).updPwm n fun q => { q with perW := false, dutW := false, lastLoad := alone }

/-- What is in force from this boundary on: the shadows, or the safe duty (R404, R405). -/
def State.boundaryLoads (s : State) (n : Nat) : State :=
  let p := s.pwmOf n
  if s.fld (PWM_CNT n) PWM_CNT_SAFE = 1 ∧ !p.resume then
    (s.setFld (PWM_ACT n) PWM_ACT_DUTY (s.safeDuty n (s.pwmTop n))).updPwm n fun q => { q with safeOn := true, lastLoad := 0 }
  else if p.resume then
    ((((s.setFld (PWM_CNT n) PWM_CNT_SAFE 0).setFld (PWM_ACT n) PWM_ACT_TOP (s.fld (PWM_PER n) PWM_PER_TOP)).setFld (PWM_ACT n)
      PWM_ACT_DUTY (s.fld (PWM_DUT n) PWM_DUT_DUTY)).setFld (PWM_CNT n) PWM_CNT_CPEND 0).updPwm n fun q => { q with
        safeOn := false, resume := false, perW := false, dutW := false, lastLoad := 0 }
  else s.loadShadows n

/-- Every (IPRE + 1)th boundary sets the PRD event (R403). -/
def State.periodEvent (s : State) (n : Nat) : State :=
  if s.fld (PWM_TRG n) PWM_TRG_IPRE ≤ (s.pwmOf n).ipc then (s.updPwm n fun p => { p with ipc := 0 }).raise PWM_EVT n
  else s.updPwm n fun p => { p with ipc := p.ipc + 1 }

/-- Exactly one enabled comparator serves boost converter `k` (R408). -/
def State.boostCmp (s : State) (k : Nat) : Nat :=
  ((List.range 8).filter fun c => s.fld (CMP_CFG c) CMP_CFG_EN == 1 && s.fld (CMP_CFG c) CMP_CFG_MODE == 1
    && s.fld (CMP_CFG c) CMP_CFG_BST == k).length

/-- Boost converter `k` may switch (R408; R32 stops it at link loss). -/
def State.boostMay (s : State) (k : Nat) : Bool :=
  s.pwmOn (8 + k) && s.fld (INJ_BST k) INJ_BST_EN == 1 && !vat s.drive.ovStop k && s.boostCmp k == 1 && !s.drive.lost

/-- A boundary of boost pair `8 + k`: the rectifier turns off; a switching period begins, or is skipped (R409, R411). -/
def State.boostBoundary (s : State) (k : Nat) (below : Bool) : State :=
  let n := 8 + k
  let wasH := (s.pwmOf n).h
  let s1 := (s.pwmLowOff n).updPwm n fun p => { p with h := false, inc := none, onAt := none }
  if s.pwmMask n ≠ 0 then s1.pwmFollow n
  else if s.boostMay k && below then
    (if wasH then s1.updPwm n fun p => { p with inc := some (false, s.now) } else s1.pwmTurnOn n false)
  else
    let s2 := s1.count (PWM_BCNT k) PWM_BCNT_SKIP 1
    if s.boostCmp k = 0 then s2.pwmFlag n PWM_ST_BNOCMP PWM_EVT_BOOST else s2

/-- A period boundary of pair `n`; `below` says that BST_FBk measures below its target (pairs 8 and 9). -/
def State.pwmBoundary (s : State) (n : Nat) (below : Bool) : State :=
  let s1 := (((s.boundaryLoads n).updPwm n fun p => { p with bAt := s.now, dropped := false }).periodEvent n)
  if 8 ≤ n then s1.boostBoundary (n - 8) below
  else s1.pwmRequest n (if s1.pwmCentre n then decide (s1.pwmTop n ≤ s1.pwmDuty n) else decide (0 < s1.pwmDuty n))

/-- A pair's enable comes into force: its counts restart, and this clock is a boundary (R392, R403). -/
def State.pwmEnable (s : State) (n : Nat) : State :=
  let s1 := ((s.setReg (PWM_SCNT n) 0).updPwm n fun p => { p with
    ipc := 0, tpc := 0, req := false, dropped := false, inc := none, onAt := none, lastLoad := 0, safeOn := false
    resume := false }).pwmBoundary n false
  if 8 ≤ n then s1 else s1.pwmFollow n

/-- A pair's enable leaves force (R405, R406): its switches go off, it leaves the safe state and its pending writes are
discarded, the shadows holding the values in force again. -/
def State.pwmDisable (s : State) (n : Nat) : State :=
  let p := s.pwmOf n
  let s1 := s.pwmBothOff n
  let s2 := if p.perW then s1.setFld (PWM_PER n) PWM_PER_TOP (s.pwmTop n) else s1
  let s3 := if p.dutW && !p.safeOn then s2.setFld (PWM_DUT n) PWM_DUT_DUTY (s.pwmDuty n) else s2
  let s4 := (s3.setFld (PWM_CNT n) PWM_CNT_CPEND 0).setFld (PWM_CNT n) PWM_CNT_SAFE 0
  s4.updPwm n fun q => { q with req := false, dropped := false, perW := false, dutW := false, safeOn := false, resume := false }

/-- A pair enters the safe state (R404); a disabled pair does not. -/
def State.pwmSafe (s : State) (n : Nat) : State :=
  if s.pwmOn n then
    ((s.setFld (PWM_CNT n) PWM_CNT_SAFE 1).updPwm n fun p => { p with resume := false }).raise PWM_EVT PWM_EVT_SAFE
  else s

/-- Pairs 0 to 7 named in a mask enter the safe state (R163, R404, R557). -/
def State.pwmSafeMask (s : State) (m : Nat) : State :=
  (List.range 8).foldl (fun t n => if m.testBit n then t.pwmSafe n else t) s

/-- Link loss at the high-voltage die (R32): pairs 0 to 7 go to their safe duty, pairs 8 and 9 turn off. -/
def State.pwmLost (s : State) : State := ((s.pwmSafeMask 255).pwmBothOff 8).pwmBothOff 9

/-- A commutation event of pair `n` (R402). -/
def State.commutate (s : State) (n : Nat) : State :=
  let s1 := s.setFld (PWM_MSK n) PWM_MSK_APPL (s.fld (PWM_MSK n) PWM_MSK_NEXT)
  if !s.pwmOn n then s1 else if 8 ≤ n ∧ s1.pwmMask n = 0 then s1.pwmBothOff n else s1.pwmFollow n

/-- A pulse of trigger line `k` reaches the pairs (R402). -/
def State.commutateLine (s : State) (k : Nat) : State :=
  (List.range 10).foldl (fun t n => if t.fld (PWM_MSK n) PWM_MSK_CSRC = k then t.commutate n else t) s

/-! ### Registers of PWM (R419, R420) -/

/-- The pair a register belongs to is enabled in PWM_APPLIED (R419). -/
def State.pwmLocked (s : State) (addr : Nat) : Bool :=
  let o := addr % 0x10000
  if 0x100 ≤ o then s.pwmOn ((o - 0x100) / 0x40) else if 0x80 ≤ o then s.pwmOn (8 + (o - 0x80) / 0x10) else false

/-- The chapter's own conditions for a write to a register of PWM. -/
def State.pwmLegal (s : State) (addr : Nat) (w : Word) : Bool :=
  let o := addr % 0x10000
  let n := (o - 0x100) / 0x40
  let outm := s.fld (PWM_CFG n) PWM_CFG_OUTM
  if addr = PWM_CTRL then (List.range 10).all fun i => !bitOf w i || s.periodOk i (s.fld (PWM_PER i) PWM_PER_TOP)
  else if addr = PWM_SAFECMD then (List.range 8).all fun i => !bitOf w i || s.pwmOn i
  else if addr = PWM_RESUME then (List.range 8).all fun i => !bitOf w i || s.fld (PWM_CNT i) PWM_CNT_SAFE == 1
  else if o < 0x100 then true
  else if addr = PWM_CFG n then n < 8 || (PWM_CFG_MODE.get w == 0 && PWM_CFG_OUTM.get w == 0)
  else if addr = PWM_PER n then s.periodOk n (PWM_PER_TOP.get w)
  else if addr = PWM_DT n then decide (PWM_DT_DTMIN.get w ≤ PWM_DT_DTMAX.get w)
  else if addr = PWM_SWT n then decide (PWM_SWT_FTH.get w < PWM_SWT_RTH.get w)
  else if addr = PWM_TRG n then s.pwmCentre n || PWM_TRG_TDIR.get w == 0
  else if addr = PWM_MSK n then !(PWM_MSK_NEXT.get w == 2 && outm == 1) && !(PWM_MSK_NEXT.get w == 3 && outm == 2)
  else true

/-- The enables of a request come into force at the drive island (R392, R406, R407). -/
def State.pwmApply (s : State) (w : Word) : State :=
  let s1 := (s.setFld PWM_APPLIED PWM_APPLIED_EN (PWM_CTRL_EN.get w)).setFld PWM_APPLIED PWM_APPLIED_GEN (PWM_CTRL_GEN.get w)
  (List.range 10).foldl (fun t n =>
    if s.pwmOn n && !t.pwmOn n then t.pwmDisable n else if !s.pwmOn n && t.pwmOn n then t.pwmEnable n else t) s1

/-- A write to a register of PWM. -/
def State.pwmWrite (s : State) (addr : Nat) (w : Word) : State :=
  let o := addr % 0x10000
  let n := (o - 0x100) / 0x40
  s.writeWith addr w (s.pwmLocked addr) (s.pwmLegal addr w) fun t =>
    if addr = PWM_CTRL then (if t.linkOk then t.pwmApply w else t)
    else if addr = PWM_SAFECMD then t.pwmSafeMask (w.toNat % 256)
    else if addr = PWM_RESUME then
      (List.range 8).foldl (fun u i => if bitOf w i then u.updPwm i fun p => { p with resume := true } else u) t
    else if addr = PWM_CMUT then (List.range 10).foldl (fun u i => if bitOf w i then u.commutate i else u) t
    else if o < 0x100 then t
    else if addr = PWM_PER n then t.updPwm n fun p => { p with perW := true }
    else if addr = PWM_DUT n then t.updPwm n fun p => { p with dutW := true }
    else if addr = PWM_CMIT n then (if bitOf w 0 then t.setFld (PWM_CNT n) PWM_CNT_CPEND 1 else t)
    else t

/-! ### Commands -/

/-- `PWM_CTRL_WRITE` (R407): a write to PWM_CTRL. -/
def execPwmCtrlWrite (w : Word) (s : State) : Host.Outcome State Fault Refusal := .next (s.pwmWrite PWM_CTRL w)

/-- `PWM_BOUNDARY` (R392): the counter of an enabled pair reaches a period boundary. -/
def execPwmBoundary (n : Fin 10) (below : Bool) (s : State) : Host.Outcome State Fault Refusal :=
  .next (if s.pwmOn n then s.pwmBoundary n below else s)

/-- `PWM_TRANSITION` (R398): the request of an enabled pair 0 to 7 begins or ends its active window. -/
def execPwmTransition (n : Fin 10) (active : Bool) (s : State) : Host.Outcome State Fault Refusal :=
  .next (if s.pwmOn n && n.val < 8 then s.pwmRequest n active else s)

/-- `SW_NODE_CROSSING` (R398): the crossing a transition waits for is detected; the incoming switch turns on after its dead
time. -/
def execSwNodeCrossing (n : Fin 10) (s : State) : Host.Outcome State Fault Refusal :=
  let p := s.pwmOf n
  match p.inc, p.onAt with
  | some (high, t0), none =>
    let d := (s.now - t0) / 2
    let dt := max (s.fld (PWM_DT n) PWM_DT_DTMIN) (min (d + s.fld (PWM_DT n) PWM_DT_MARGIN) (s.fld (PWM_DT n) PWM_DT_DTMAX))
    .next (State.pwmDue ((s.setFld (PWM_MEAS n) (measFld high) (capAt 65534 d)).updPwm n fun q => { q with
      onAt := some (t0 + 2 * dt) }) n)
  | _, _ => .next s

/-- `NODE` (R399): DTMAX passes with no crossing; the incoming switch turns on. -/
def execNodeTimeout (n : Fin 10) (s : State) : Host.Outcome State Fault Refusal :=
  let p := s.pwmOf n
  match p.inc, p.onAt with
  | some (high, t0), none =>
    if t0 + 2 * s.fld (PWM_DT n) PWM_DT_DTMAX ≤ s.now then
      .next ((((s.pwmTurnOn n high).pwmFlag n PWM_ST_NODE PWM_EVT_NODE).count (PWM_SCNT n) PWM_SCNT_NODE 1).setFld (PWM_MEAS n)
        (measFld high) 65535)
    else .next s
  | _, _ => .next s

/-- `PWM_COMMIT` (R394): a write to PWM_CMITn. -/
def execPwmCommit (n : Fin 10) (w : Word) (s : State) : Host.Outcome State Fault Refusal := .next (s.pwmWrite (PWM_CMIT n) w)

/-- `COMMUTATION` (R402): a pulse of trigger line `line` reaches the drive island. -/
def execCommutation (line : Fin 32) (s : State) : Host.Outcome State Fault Refusal := .next (s.commutateLine line)

/-- `PWM_CMUT` (R402): a write to PWM_CMUT. -/
def execPwmCmut (w : Word) (s : State) : Host.Outcome State Fault Refusal := .next (s.pwmWrite PWM_CMUT w)

/-- `PWM_SAFECMD` (R404): a write to PWM_SAFECMD. -/
def execPwmSafecmd (w : Word) (s : State) : Host.Outcome State Fault Refusal := .next (s.pwmWrite PWM_SAFECMD w)

/-- `PWM_RESUME` (R405): a write to PWM_RESUME. -/
def execPwmResume (w : Word) (s : State) : Host.Outcome State Fault Refusal := .next (s.pwmWrite PWM_RESUME w)

/-- PWM_L of boost pair `8 + k` turns off; the rectifier follows with SRMODE = 1 (R410, R411). -/
def State.boostOff (s : State) (k : Nat) : State :=
  let s1 := s.pwmLowOff (8 + k)
  if s.fld (PWM_BST k) PWM_BST_SRMODE = 1 then s1.updPwm (8 + k) fun p => { p with inc := some (true, s.now), onAt := none } else s1

/-- `BOOST_TRIP` (R410): after blanking the comparator level is high and PWM_L turns off; the ramp returns to 0 (R412). -/
def execBoostTrip (k : Fin 2) (s : State) : Host.Outcome State Fault Refusal :=
  let p := s.pwmOf (8 + k)
  if p.l && decide (p.lOn + 2 * s.fld (PWM_BST k) PWM_BST_BLANK ≤ s.now) then
    let s1 : State := (List.range 8).foldl (fun t c =>
      if t.fld (CMP_CFG c) CMP_CFG_MODE = 1 ∧ t.fld (CMP_CFG c) CMP_CFG_BST = k.val then t.setBit CMP_STAT (16 + c) false else t) s
    .next (s1.boostOff k)
  else .next s

/-- `BMAXD` (R410): the on-time reaches DMAX of the period and PWM_L turns off. -/
def execBmaxd (k : Fin 2) (s : State) : Host.Outcome State Fault Refusal :=
  let p := s.pwmOf (8 + k)
  let t := pwmPeriod false (s.pwmTop (8 + k))
  if p.l && decide (2 * s.fld (PWM_BST k) PWM_BST_DMAX * t ≤ 1000 * (s.now - p.lOn)) then
    .next (((s.boostOff k).pwmFlag (8 + k) PWM_ST_BMAXD PWM_EVT_BOOST).count (PWM_BCNT k) PWM_BCNT_MAXD 1)
  else .next s

/-- `SR_OFF` (R411): the rectifier has been on for SRTON. -/
def execSrOff (k : Fin 2) (s : State) : Host.Outcome State Fault Refusal :=
  let p := s.pwmOf (8 + k)
  .next (if p.h && decide (p.hOn + 2 * s.fld (PWM_BSR k) PWM_BSR_SRTON ≤ s.now)
    then s.updPwm (8 + k) fun q => { q with h := false } else s)

/-- `TRIGGER_POINT` (R403): the counter of an enabled pair steps onto TPOS in direction TDIR; every (TPRE + 1)th such step pulses
the pair's trigger output. -/
def execTriggerPoint (n : Fin 10) (s : State) : Host.Outcome State Fault Refusal :=
  if s.pwmOn n && s.fld (PWM_TRG n) PWM_TRG_TEN == 1 && decide (s.fld (PWM_TRG n) PWM_TRG_TPOS ≤ s.pwmTop n) then
    (if s.fld (PWM_TRG n) PWM_TRG_TPRE ≤ (s.pwmOf n).tpc
     then .next ((s.updPwm n fun p => { p with tpc := 0 }).pulseSelected .drive (0x30 + n))
     else .next (s.updPwm n fun p => { p with tpc := p.tpc + 1 }))
  else .next s

end Sys2Proof.Machine
end

