-- ==== Sys2Proof/Machine/Threads.lean ====
section
/-! DEFINITION. The angle threads: their states, waits, commands and issue budgets (R254 to R275), and the registers of AEN
(R277 to R279, R315). -/

namespace Sys2Proof.Machine

/-- What thread `n` holds beside its registers. -/
def State.thr (s : State) (n : Nat) : ThreadSt := vat s.threads n

/-- The state with a thread's own part changed. -/
def State.updThr (s : State) (n : Nat) (f : ThreadSt → ThreadSt) : State := { s with threads := vupd s.threads n f }

/-- Engine `e` is enabled (R278). -/
def State.engineOn (s : State) (e : Nat) : Bool := s.bit AEN_CTRL e

/-- Threads of engine `e` whose state satisfies `p`. -/
def State.thCount (s : State) (e : Nat) (p : Nat → Bool) : Nat :=
  ((List.range 32).filter fun i => p (s.thState (32 * e + i))).length

/-- AEN_STAT follows the thread states (R278). -/
def State.aenShow (s : State) : State :=
  (((s.setFld AEN_STAT AEN_STAT_ACT0 (s.thCount 0 fun x => x != thIDLE)).setFld AEN_STAT AEN_STAT_ACT1
    (s.thCount 1 fun x => x != thIDLE)).setFld AEN_STAT AEN_STAT_FLT0 (s.thCount 0 fun x => x == thFAULTED)).setFld AEN_STAT
    AEN_STAT_FLT1 (s.thCount 1 fun x => x == thFAULTED)

/-- Thread `n` changes its state; outside WAIT it has no wait. -/
def State.setTh (s : State) (n st : Nat) : State :=
  let s1 := s.setFld (AEN_TSTAT n) AEN_TSTAT_STATE st
  (if st = thWAIT then s1 else s1.setFld (AEN_TSTAT n) AEN_TSTAT_WKIND 0).aenShow

/-- Register `r` of thread `n` (R214): g0 reads 0. -/
def State.tg (s : State) (n r : Nat) : Word := if r = 0 then 0 else s.reg (AEN_TG n r)

/-- The state with register `r` of thread `n` written; a write to g0 is discarded (R213). -/
def State.setTg (s : State) (n r : Nat) (v : Word) : State := if r = 0 then s else s.setReg (AEN_TG n r) v

/-- The pending bits of thread `n` (R239). -/
def State.pend (s : State) (n : Nat) : Nat := s.fld (AEN_TSTAT n) AEN_TSTAT_PEND

/-- The account of thread `n` (R271). -/
def State.thAcct (s : State) (n : Nat) : Option Nat := some (s.fld (AEN_TCFG n) AEN_TCFG_ACCT)

/-- The program counter of thread `n`. -/
def State.thPc (s : State) (n : Nat) : Nat := (s.thr n).pc.toNat

/-- The state with the program counter of thread `n` set. -/
def State.setThPc (s : State) (n : Nat) (pc : Word) : State := s.updThr n fun t => { t with pc := pc }

/-! ### Stalls (R272, R273) -/

/-- Thread `n` enters STALL: the engine's BSTALL event is set, and the frame counts once for the thread (R272, R273). -/
def State.stall (s : State) (n : Nat) : State :=
  let s1 := (s.setTh n thSTALL).raise AEN_EVT (AEN_EVT_BSTALL0 + n / 32)
  if (s1.thr n).counted then s1
  else (s1.count (AEN_TBST n) AEN_TBST_FRAMES 1).updThr n fun t => { t with counted := true }

/-- The frame pulse at the engines' meter: every STALL thread becomes READY with BUDGET pending, and the frame pulse is a
hardware event (R258, R266, R273). -/
def State.releaseStalled (s : State) : State :=
  ((List.range 64).foldl (fun t n =>
    let u := t.updThr n fun x => { x with counted := false }
    if u.thState n = thSTALL then (u.setPend n pdBUDGET).setTh n thREADY else u) s).hwEvent 0x48

/-! ### Waits (R241 to R243, R265) -/

/-- Kinds of waits (`AEN_TSTATn.WKIND`). -/
abbrev wkANG : Nat := 1
abbrev wkTIM : Nat := 2
abbrev wkEVT : Nat := 3

/-- The condition of a wait of thread `n` holds: of kind `kind`, with target `target` and event mask `mask` (R241, R242). -/
def State.waitHolds (s : State) (n kind : Nat) (target : Word) (mask : Nat) : Bool :=
  (s.pend n &&& mask != 0)
  || (kind == wkANG && s.fires && wReached s.angW target)
  || (kind == wkTIM && wReached s.slotW target)

/-- The word a wait of thread `n` returns: the angle word, the slot counter, or the pending bits it waited for (R241). -/
def State.waitWord (s : State) (n kind mask : Nat) : Word :=
  if kind = wkANG then s.obsAng else if kind = wkTIM then s.slotW else BitVec.ofNat 32 (s.pend n &&& mask)

/-- A wait of thread `n` completes: rd is written, and a WAIT.EVT clears the pending bits that rd now holds, so that a write to g0
clears nothing (R241); QNE bits whose queue still holds an entry are set again (R267). -/
def State.waitDone (s : State) (n kind mask : Nat) (rd : BitVec 5) : State :=
  let s1 := s.setTg n rd.toNat (s.waitWord n kind mask)
  if kind = wkEVT then
    (s1.setFld (AEN_TSTAT n) AEN_TSTAT_PEND (s1.pend n &&& (65535 - (s1.tg n rd.toNat).toNat % 65536))).syncThread n
  else s1

/-- `WAIT_WAKE` (R265): the wait condition of thread `n` holds: rd is written and the thread is READY, or STALL where its account
is exhausted. -/
def execWaitWake (n : Fin 64) (s : State) : Host.Outcome State Fault Refusal :=
  let k := s.fld (AEN_TSTAT n) AEN_TSTAT_WKIND
  let t := s.thr n
  if s.thState n = thWAIT && s.waitHolds n k (s.reg (AEN_TWAKE n)) t.waitMask then
    let s1 := (s.waitDone n k t.waitMask t.waitRd).traceThr n 0 (s.thPc n)
    .next (if s1.budHas (s1.thAcct n) resISSUE 1 then s1.setTh n thREADY else s1.stall n)
  else .next s

/-! ### Commands (R258 to R262, R275) -/

/-- START: pending bits cleared, pc from AEN_TPCn, the counts since the last START begin anew (R258, R268, R279). -/
def State.thStart (s : State) (n : Nat) : State :=
  let s1 := (s.setReg (AEN_TSTAT n) 0).setThPc n (s.reg (AEN_TPC n))
  (((s1.setReg (AEN_TISS n) 0).setReg (AEN_TBST n) 0).setTh n thREADY).syncThread n

/-- KILL or the engine's disable: the thread ends; RTP is cleared (R258, R260). -/
def State.thEnd (s : State) (n : Nat) : State :=
  if s.thState n = thIDLE then s else ((s.setFld (AEN_TSTAT n) AEN_TSTAT_RTP 0).setTh n thIDLE).traceThr n 3 (s.thPc n)

/-- RETARGET: a waiting thread moves at once, any other at its next wait (R275). -/
def State.thRetarget (s : State) (n : Nat) : State :=
  if s.thState n = thWAIT then
    ((s.setThPc n (s.reg (AEN_TNPC n))).setFld (AEN_TSTAT n) AEN_TSTAT_RTP 0).setTh n thREADY
  else s.setFld (AEN_TSTAT n) AEN_TSTAT_RTP 1

/-- SIGNAL: the SIG bits named are set (R268). -/
def State.thSignal (s : State) (n sig : Nat) : State :=
  (List.range 4).foldl (fun t k => if sig / 2 ^ k % 2 = 1 then t.setPend n (pdSIG + k) else t) s

/-- A command is legal in the thread's state (R262, R279). -/
def State.cmdLegal (s : State) (n op sig : Nat) : Bool :=
  let st := s.thState n
  (if op = 1 then st == thIDLE && s.engineOn (n / 32)
   else if op = 3 then st == thREADY || st == thWAIT || st == thSTALL
   else true) && (if op = 4 then sig != 0 else sig == 0)

/-- A thread command is carried out. -/
def State.thCommand (s : State) (n op sig : Nat) : State :=
  if op = 1 then s.thStart n else if op = 2 then s.thEnd n else if op = 3 then s.thRetarget n else s.thSignal n sig

/-- Engine `e` is disabled: every thread of it ends (R258, R278). -/
def State.engineOff (s : State) (e : Nat) : State := (List.range 32).foldl (fun t i => t.thEnd (32 * e + i)) s

/-! ### Register writes (R277 to R279, R315) -/

/-- A selector of R266. -/
def tevsOk (v : Nat) : Bool := v ≤ 0x06 || (0x08 ≤ v && v ≤ 0x0A) || (0x10 ≤ v && v ≤ 0x48)

/-- The thread of an AEN offset. -/
def thrOf (o : Nat) : Nat := if o < 0x2000 then (o - 0x1000) / 0x40 else (o - 0x2000) / 0x40

/-- The RWC fields of a thread register are locked outside IDLE and FAULTED (R277). -/
def State.aenLocked (s : State) (addr : Nat) : Bool :=
  let o := addr % 0x10000
  let st := s.thState (thrOf o)
  0x1000 ≤ o && o < 0x2000 && st != thIDLE && st != thFAULTED

/-- The chapter's own conditions for a write to a register of AEN. -/
def State.aenLegal (s : State) (addr : Nat) (w : Word) : Bool :=
  let o := addr % 0x10000
  let n := thrOf o
  let st := s.thState n
  if 0x1000 ≤ o ∧ o < 0x2000 then
    if o % 0x40 = 0x04 ∨ o % 0x40 = 0x08 then w.toNat % 2 ^ 18 % 4 == 0
    else if o % 0x40 = 0x0C then s.cmdLegal n (AEN_TCMD_OP.get w) (AEN_TCMD_SIG.get w)
    else if o % 0x40 = 0x18 then
      tevsOk (AEN_TEVS_S0.get w) && tevsOk (AEN_TEVS_S1.get w) && tevsOk (AEN_TEVS_S2.get w) && tevsOk (AEN_TEVS_S3.get w)
    else if o % 0x40 = 0x1C then
      decide (AEN_TWIN_CLO.get w ≤ AEN_TWIN_CHI.get w) && decide (AEN_TWIN_DLO.get w ≤ AEN_TWIN_DHI.get w)
    else true
  else if 0x2000 ≤ o ∧ o < 0x3000 then o % 0x40 = 0 || st == thIDLE || st == thFAULTED || st == thHALTED
  else true

/-- A write to a register of AEN other than trims and envelopes. -/
def State.aenWrite (s : State) (addr : Nat) (w : Word) : State :=
  let o := addr % 0x10000
  let n := thrOf o
  let old := s.reg AEN_CTRL
  s.writeWith addr w (s.aenLocked addr) (s.aenLegal addr w) fun t =>
    if addr = AEN_CTRL then
      let t1 := if bitOf old 0 && !bitOf w 0 then t.engineOff 0 else t
      if bitOf old 1 && !bitOf w 1 then t1.engineOff 1 else t1
    else if addr = AEN_CLR then (if bitOf w 0 then t.setReg AEN_ECC 0 else t)
    else if 0x1000 ≤ o ∧ o < 0x2000 then
      if o % 0x40 = 0x04 then (if t.aenLocked addr then t else t.setThPc n (t.reg (AEN_TPC n)))
      else if o % 0x40 = 0x0C then t.thCommand n (AEN_TCMD_OP.get w) (AEN_TCMD_SIG.get w)
      else if o % 0x40 = 0x14 then t.syncThread n
      else t
    else if 0x2000 ≤ o ∧ o < 0x3000 ∧ o % 0x40 = 0 then t.setReg addr 0
    else t

/-- The code page of a window address is protected (R255). -/
def State.codeProtected (s : State) (e off : Nat) : Bool :=
  let p := off / 4096
  if p < 32 then s.bit (AEN_CWPL e) p else s.bit (AEN_CWPH e) (p - 32)

/-- A write into a code window: bytes go into an unprotected page; a protected page refuses with a bus error (R255, R274). -/
def State.codeWrite (s : State) (e off : Nat) (bytes : List Byte) : State × Bool :=
  let a := 0x30000000 + 0x100000 * e + off
  if s.codeProtected e off then
    (((s.setReg AEN_CWRA (BitVec.ofNat 32 a)).raise AEN_EVT AEN_EVT_CWREF).sendFault blkAEN e 0x07 clsC a, false)
  else (s.wrBytes a bytes, true)

/-! ### Commands of the table -/

/-- `START` (R258): the START command of thread `n`. -/
def execThreadStart (n : Fin 64) (s : State) : Host.Outcome State Fault Refusal := .next (s.aenWrite (AEN_TCMD n) 1)

/-- `KILL` (R258): the KILL command of thread `n`. -/
def execThreadKill (n : Fin 64) (s : State) : Host.Outcome State Fault Refusal := .next (s.aenWrite (AEN_TCMD n) 2)

/-- `RETARGET` (R275): the RETARGET command of thread `n`. -/
def execThreadRetarget (n : Fin 64) (s : State) : Host.Outcome State Fault Refusal := .next (s.aenWrite (AEN_TCMD n) 3)

/-- `SIGNAL` (R268): the SIGNAL command of thread `n` with its SIG bits. -/
def execThreadSignal (n : Fin 64) (sig : BitVec 4) (s : State) : Host.Outcome State Fault Refusal :=
  .next (s.aenWrite (AEN_TCMD n) (BitVec.ofNat 32 (4 + 16 * sig.toNat)))

/-- `ENGINE_DISABLE` (R258): a write to AEN_CTRL that clears an engine's bit. -/
def execEngineDisable (w : Word) (s : State) : Host.Outcome State Fault Refusal := .next (s.aenWrite AEN_CTRL w)

/-- `CODE_WINDOW_WRITE` (R255): a policy write of a word at code address `4 * word` of engine `e`. -/
def execCodeWindowWrite (e : Fin 2) (word : BitVec 16) (w : Word) (s : State) : Host.Outcome State Fault Refusal :=
  .next (s.codeWrite e (4 * word.toNat) (toBytes 4 w.toNat)).1

/-- `AEN_CLR_ECC` (R278): `AEN_CLR.ECC` = 1. -/
def execAenClrEcc (s : State) : Host.Outcome State Fault Refusal := .next (s.aenWrite AEN_CLR 1)

end Sys2Proof.Machine
end

