-- ==== Sys2Proof/Machine/Collect.lean ====
section
/-! DEFINITION. The fault collector: decisions, reactions, shadows, FLT_N, test injections (R550 to R570), and the registers of the
SPI target port, whose enable a reaction can clear (R548, R549). -/

namespace Sys2Proof.Machine

/-! ### The SPI port's registers (R548, R549) -/

/-- The chapter's own conditions for a write to a register of SPI: a window's base is aligned to its size. -/
def spiLegal (addr : Nat) (w : Word) : Bool :=
  let o := addr % 0x10000
  if 0x100 ≤ o ∧ o < 0x110 then w.toNat / 1024 * 1024 % 2 ^ (10 + SPI_WIN_LOG2.get w) == 0 else true

/-- A write to a register of SPI; APPLIED follows CTRL at once (R548). -/
def State.spiWrite (s : State) (addr : Nat) (w : Word) : State :=
  s.writeWith addr w (s.bit SPI_APPLIED 0) (spiLegal addr w) fun t =>
    if addr = SPI_CTRL then t.setReg SPI_APPLIED (t.reg SPI_CTRL) else t

/-! ### The message (R550) -/

def msgBlk (m : BitVec 64) : Nat := m.toNat / 2 ^ 58
def msgUnit (m : BitVec 64) : Nat := m.toNat / 2 ^ 54 % 16
def msgKind (m : BitVec 64) : Nat := m.toNat / 2 ^ 46 % 256
def msgClass (m : BitVec 64) : Nat := m.toNat / 2 ^ 44 % 4
def msgInj (m : BitVec 64) : Bool := m.getLsbD 43

/-- The message with its class as decided and its SEC bit. -/
def msgAs (m : BitVec 64) (cls : Nat) (sec : Bool) : BitVec 64 :=
  (m &&& ~~~(BitVec.ofNat 64 (2 ^ 44 * 3 + 2 ^ 42))) ||| BitVec.ofNat 64 (cls % 4 * 2 ^ 44 + b2n sec * 2 ^ 42)

/-- The SUPWARN message of SYS, whose reaction is the fixed sequence of R610 (R557). -/
def msgSupwarn (m : BitVec 64) : Bool := msgBlk m == blkSYS && msgKind m == 0x10

/-! ### FLT_N (R563) -/

/-- FLT_STAT.LOW shows FLT_N: low until armed, then while a U or F is pending. -/
def State.fltShow (s : State) : State :=
  s.setFld FLT_STAT FLT_STAT_LOW
    (b2n (s.fld FLT_CTRL FLT_CTRL_ARM == 0 || s.reg FLT_UPEND != 0 || s.reg FLT_FLAT != 0))

/-! ### Reactions (R555 to R557) -/

/-- Entry `x` matches a message (R555). -/
def State.fltMatch (s : State) (x : Nat) (m : BitVec 64) : Bool :=
  let k := FLT_RM x
  s.fld k FLT_RM_EN == 1
  && (s.fld k FLT_RM_BANY == 1 || s.fld k FLT_RM_BLOCK == msgBlk m)
  && (s.fld k FLT_RM_UANY == 1 || s.fld k FLT_RM_UNIT == msgUnit m)
  && (s.fld k FLT_RM_KANY == 1 || s.fld k FLT_RM_KIND == msgKind m)

/-- A reaction: SAFE, ACTION, LOG, SHADOW, dependent blocks, promotion. -/
structure Reaction where
  safe   : Nat
  action : Nat
  log    : Bool
  shadow : Nat
  dep    : Nat
  promo  : Nat
  deriving DecidableEq, Repr

/-- The deciding reaction of a message: the enabled entry of lowest number that matches, or its class's default (R555). -/
def State.reactionFor (s : State) (m : BitVec 64) : Reaction :=
  match (List.range 64).find? fun x => s.fltMatch x m with
  | some x =>
    { safe := s.fld (FLT_RA x) FLT_RA_SAFE, action := s.fld (FLT_RA x) FLT_RA_ACTION, log := s.fld (FLT_RA x) FLT_RA_LOG == 1,
      shadow := s.fld (FLT_RA x) FLT_RA_SHADOW, dep := s.fld (FLT_RD x) FLT_RD_DEP, promo := s.fld (FLT_RA x) FLT_RA_PROMO }
  | none =>
    { safe := if msgClass m = clsF then 3 else 0, action := 0,
      log := msgClass m != clsC || s.fld FLT_CTRL FLT_CTRL_LOGC == 1, shadow := 0, dep := 0, promo := 0 }

/-- The class after PROMO (R556). -/
def raisedClass (cls promo : Nat) : Nat := if promo = 1 then max cls clsU else if promo = 2 then max cls clsF else cls

/-- SAFE 1 to 3 (R557): the enables are cleared as writes would clear them; the safe state of the PWM pairs crosses the die-to-die
link, which carries nothing while it is lost (R33). -/
def State.applySafe (s : State) (level : Nat) : State :=
  let s1 : State := if 1 ≤ level then
      let t := s.outWrite OUT_ENI 0
      if t.linkOk then t.pwmSafeMask 255 else t
    else s
  let s2 : State := if 2 ≤ level then (s1.outWrite OUT_ENG 0).outWrite OUT_ENA 0 else s1
  if 3 ≤ level then (s2.calWrite CAL_CTRL (withBit (s2.reg CAL_CTRL) 0 false)).aenWrite AEN_CTRL 0 else s2

/-- A pair restart begins (R282): its debug halt is released, its loads, frames and running priority are gone. -/
def State.restartPair (s : State) (t : Nat) : State :=
  let s1 : State := { s with pairs := vset s.pairs t { run := .boot, instrs := (vat s.pairs t).instrs } }
  ((s1.setBit DBG_PSTAT t false).setBit DBG_PSTAT (4 + t) false).setReg (IRQ_RUN t) 0

/-- BLKRST: the enable of the instance that the message names is cleared as a write of 0 would (R557). -/
def State.blockReset (s : State) (blk unit kind : Nat) : State :=
  if blk = blkAEN then s.aenWrite AEN_CTRL (withBit (s.reg AEN_CTRL) unit false)
  else if blk = blkFADC then s.fadcWrite FADC_CTRL (withBit (s.reg FADC_CTRL) unit false)
  else if blk = blkPADC then s.padcWrite PADC_CTRL (withBit (s.reg PADC_CTRL) unit false)
  else if blk = blkCMB then s.cmbWrite CMB_CTRL (withBit (s.reg CMB_CTRL) unit false)
  else if blk = blkCHN then s.chnWrite CHN_CTRL (withBit (s.reg CHN_CTRL) unit false)
  else if blk = blkCAN then s.canWrite CAN_CTRL (withBit (s.reg CAN_CTRL) unit false)
  else if blk = blkETH then s.ethWrite ETH_CTRL (withBit (s.reg ETH_CTRL) 0 false)
  else if blk = blkSPI then s.spiWrite SPI_CTRL (withBit (s.reg SPI_CTRL) 0 false)
  else if blk = blkQUE ∧ kind = 0x10 ∧ s.dmaState unit ≠ dmIDLE then s.dmaStop unit
  else s

/-- A system reset is asked for, with its cause and detail; `SYSTEM_RESET` issues it. -/
def State.askReset (s : State) (cause detail : Nat) : State := { s with sys := { s.sys with ask := some (cause, detail) } }

/-- ACTION (R557). -/
def State.applyAction (s : State) (action : Nat) (m : BitVec 64) : State :=
  if action = 1 then s.blockReset (msgBlk m) (msgUnit m) (msgKind m)
  else if action = 2 then (if msgBlk m = blkPAIR then s.restartPair (msgUnit m % 4) else s)
  else if action = 3 then s.askReset 4 0
  else s

/-! ### Logging (R564, R573) -/

/-- The FAULT record of a message. -/
def State.faultRec (s : State) (m : BitVec 64) (r : Reaction) (pin : Bool) : LktRec :=
  s.lktStamp rtFAULT pin (toBytes 8 m.toNat ++ toBytes 1 r.safe ++ toBytes 1 r.action ++ toBytes 2 r.shadow)

/-- A log copy is put into Locket's input queue; with ACTION SYSRST Locket completes its record and writes the copy next (R557). -/
def State.logCopy (s : State) (c : LktRec) (now : Bool) : State :=
  if now && !s.lktClosed then (s.finishRec).putRing c else s.lktQueue c

/-! ### The decision (R553, R554, R558, R566) -/

/-- The last message decided is kept (R564). -/
def State.keepLast (s : State) (m : BitVec 64) : State :=
  (s.setReg FLT_LASTL (m.setWidth 32)).setReg FLT_LASTH (BitVec.ofNat 32 (m.toNat / 2 ^ 32))

/-- The first U or F message decided while none was pending is kept (R564). -/
def State.keepFirst (s : State) (m : BitVec 64) : State :=
  (s.setReg FLT_FIRSTL (m.setWidth 32)).setReg FLT_FIRSTH (BitVec.ofNat 32 (m.toNat / 2 ^ 32))

/-- Counts and class effects of a message of the class decided (R560 to R562). -/
def State.classEffect (s : State) (cls blk : Nat) : State :=
  if cls = clsF then ((s.setBit FLT_FLAT blk true).count FLT_CNT1 FLT_CNT1_F 1).raise FLT_EVT FLT_EVT_F
  else if cls = clsU then ((s.setBit FLT_UPEND blk true).count FLT_CNT0 FLT_CNT0_U 1).raise FLT_EVT FLT_EVT_U
  else (s.count FLT_CNT0 FLT_CNT0_C 1).raise FLT_EVT FLT_EVT_C

/-- FLT_SHAD follows the shadows (R559). -/
def State.shadShow (s : State) : State :=
  s.setReg FLT_SHAD (BitVec.ofNat 32 (s.flt.shadows.foldl (fun m x => m ||| x.1) 0))

/-- A shadow starts over the message's block and the entry's dependent blocks (R558). -/
def State.startShadow (s : State) (blk dep n : Nat) : State :=
  if n = 0 then s
  else ({ s with flt := { s.flt with shadows := s.flt.shadows ++ [(2 ^ blk ||| dep, n)] } } : State).shadShow

/-- A message that is not secondary (R554). -/
def State.decidePrimary (s : State) (m : BitVec 64) : State :=
  let r0 := s.reactionFor m
  let cls := raisedClass (msgClass m) r0.promo
  let sup := msgSupwarn m
  let r : Reaction := { r0 with safe := if sup then 0 else if cls = clsF then 3 else r0.safe, action := if sup then 0 else r0.action }
  let md := msgAs m cls false
  let first := decide (clsU ≤ cls) && s.reg FLT_UPEND == 0 && s.reg FLT_FLAT == 0
  let s1 := (if first then s.keepFirst md else s).classEffect cls (msgBlk m)
  let s2 := s1.fltShow
  let pin := cls == clsF || (first && s2.fld LKT_CFG LKT_CFG_PINU == 1)
  let s3 := if r.log && !sup then s2.logCopy (s2.faultRec md r pin) (r.action == 3) else s2
  let s4 := (s3.applySafe r.safe).applyAction r.action m
  let s5 := if r.safe ≠ 0 ∨ r.action ≠ 0 then s4.raise FLT_EVT FLT_EVT_REACT else s4
  ((s5.startShadow (msgBlk m) r.dep r.shadow).keepLast md).traceFlt md

/-- A secondary message is counted and logged, and does nothing else (R558). -/
def State.decideSecondary (s : State) (m : BitVec 64) : State :=
  let md := msgAs m (msgClass m) true
  let s1 := (s.count FLT_CNT1 FLT_CNT1_SEC 1).raise FLT_EVT FLT_EVT_SEC
  ((s1.logCopy (s1.faultRec md ⟨0, 0, true, 0, 0, 0⟩ false) false).keepLast md).traceFlt md

/-- A recognised test injection is logged and counted, and does nothing else (R566). -/
def State.decideInjection (s : State) (m : BitVec 64) : State :=
  let md := msgAs m (msgClass m) false
  let s1 := (s.count FLT_CNT1 FLT_CNT1_INJ 1).raise FLT_EVT FLT_EVT_INJOK
  ((s1.logCopy (s1.faultRec md ⟨0, 0, true, 0, 0, 0⟩ false) false).keepLast md).traceFlt md

/-- The collector decides a message completely (R553). -/
def State.decideMsg (s : State) (m : BitVec 64) : State :=
  if s.bit FLT_SHAD (msgBlk m) then s.decideSecondary m
  else if msgInj m then s.decideInjection m
  else s.decidePrimary m

/-- `FAULT_DECISION` (R554): the oldest item of the crossing from `src` into the guard island, if it is a fault message, is
decided. -/
def execFaultDecision (src : Island) (s : State) : Host.Outcome State Fault Refusal :=
  match s.nextItem src .guard with
  | some (.fault m) => .next ((s.ackItem src .guard).decideMsg m)
  | _ => .next s

/-- A budget frame pulse reaches the guard island: every shadow has one pulse less to run (R558). -/
def State.shadowPulse (s : State) : State :=
  { s with flt := { s.flt with shadows := s.flt.shadows.map fun x => (x.1, x.2 - 1) } }

/-- `SHADOW_END` (R558): shadows whose last pulse has come end. -/
def execShadowEnd (s : State) : Host.Outcome State Fault Refusal :=
  .next (({ s with flt := { s.flt with shadows := s.flt.shadows.filter fun x => x.2 != 0 } } : State).shadShow)

/-! ### Registers of FLT (R565, R569, R570) -/

/-- A word lies inside a TARGET of FLT_INJ, aligned as R570 asks. -/
def injInside (tg a : Nat) : Bool :=
  if tg = 1 then 0x20000000 ≤ a && a < 0x20800000 && a % 8 == 0
  else if tg = 2 then 0x10000000 ≤ a && a < 0x10600000 && a % 8 == 0
  else if tg = 3 then 0x30000000 ≤ a && a < 0x30040000 && a % 4 == 0
  else if tg = 4 then 0x30040000 ≤ a && a < 0x30050000 && a % 4 == 0
  else if tg = 5 then 0x30100000 ≤ a && a < 0x30140000 && a % 4 == 0
  else if tg = 6 then 0x30140000 ≤ a && a < 0x30150000 && a % 4 == 0
  else if 7 ≤ tg ∧ tg ≤ 10 then 0xF0000000 ≤ a && a < 0xF0010000 && a % 4 == 0
  else if 11 ≤ tg ∧ tg ≤ 14 then 0xF0010000 ≤ a && a < 0xF0020000 && a % 4 == 0
  else false

/-- The blocks BLKRST is legal for (R557); QUE for kind DMAERR alone. -/
def blkrstOk (blk kind : Nat) (kany : Bool) : Bool :=
  blk == blkAEN || blk == blkFADC || blk == blkPADC || blk == blkCMB || blk == blkCHN || blk == blkCAN || blk == blkETH
    || blk == blkSPI || (blk == blkQUE && kind == 0x10 && !kany)

/-- An ACTION is legal beside the word of its match register (R570). -/
def actionFits (rm : Word) (action : Nat) : Bool :=
  let exact := FLT_RM_BANY.get rm == 0
  if action = 1 then exact && blkrstOk (FLT_RM_BLOCK.get rm) (FLT_RM_KIND.get rm) (FLT_RM_KANY.get rm == 1)
  else if action = 2 then exact && FLT_RM_BLOCK.get rm == blkPAIR
  else true

/-- The ACTION of entry `x` is legal beside its match register (R570). -/
def State.actionOk (s : State) (x action : Nat) : Bool := actionFits (s.reg (FLT_RM x)) action

/-- The chapter's own conditions for a write to a register of FLT. -/
def State.fltLegal (s : State) (addr : Nat) (w : Word) : Bool :=
  let o := addr % 0x10000
  if addr = FLT_INJ then
    FLT_INJ_ARM.get w == 0 || (s.flt.armed.isNone && FLT_INJ_TARGET.get w != 0
      && injInside (FLT_INJ_TARGET.get w) (s.reg FLT_INJA).toNat)
  else if 0x100 ≤ o then
    s.fld FLT_CTRL FLT_CTRL_LOCK == 0
      && (if o % 0x10 = 0x04 then s.actionOk ((o - 0x100) / 0x10) (FLT_RA_ACTION.get w) else true)
  else true

/-- A write of FLT_INJ arms an injection, or disarms an armed one (R565). -/
def State.injArm (s : State) : State :=
  if s.fld FLT_INJ FLT_INJ_ARM = 1 then
    let s1 : State := { s with flt := { s.flt with
      armed := some (s.fld FLT_INJ FLT_INJ_TARGET, (s.reg FLT_INJA).toNat, s.now + s.fld FLT_INJ FLT_INJ_TOUT * 400000) } }
    s1.setFld FLT_STAT FLT_STAT_INJARM 1
  else ({ s with flt := { s.flt with armed := none } } : State).setFld FLT_STAT FLT_STAT_INJARM 0

/-- A write to a register of FLT: ARM and LOCK of FLT_CTRL are only ever set (R563, R569). -/
def State.fltWrite (s : State) (addr : Nat) (w : Word) : State :=
  let w1 := if addr = FLT_CTRL then w ||| (s.reg FLT_CTRL &&& 5) else w
  s.writeWith addr w1 false (s.fltLegal addr w) fun t =>
    if addr = FLT_CTRL ∨ addr = FLT_UPEND then t.fltShow
    else if addr = FLT_CLR then
      (if bitOf w 0 then ((t.setReg FLT_CNT0 0).setFld FLT_CNT1 FLT_CNT1_SEC 0).setFld FLT_CNT1 FLT_CNT1_INJ 0 else t)
    else if addr = FLT_INJ then t.injArm
    else t

/-- `FLT_UPEND_CLEAR` (R561): a W1C write to FLT_UPEND. -/
def execFltUpendClear (w : Word) (s : State) : Host.Outcome State Fault Refusal := .next (s.fltWrite FLT_UPEND w)

/-- `FLT_ARM` (R563): ARM = 1 is written to FLT_CTRL, LOGC as the word says. -/
def execFltArm (logc : Bool) (s : State) : Host.Outcome State Fault Refusal :=
  .next (s.fltWrite FLT_CTRL (BitVec.ofNat 32 (1 + 2 * b2n logc)))

/-- `FLT_LOCK` (R569): LOCK = 1 is written to FLT_CTRL, LOGC as the word says. -/
def execFltLock (logc : Bool) (s : State) : Host.Outcome State Fault Refusal :=
  .next (s.fltWrite FLT_CTRL (BitVec.ofNat 32 (4 + 2 * b2n logc)))

/-- `FLT_CLR_CNT` (R570): `FLT_CLR.CNT` = 1. -/
def execFltClrCnt (s : State) : Host.Outcome State Fault Refusal := .next (s.fltWrite FLT_CLR 1)

/-- `FLT_INJ_ARM` (R565): a write of FLT_INJ with ARM = 1. -/
def execFltInjArm (target : BitVec 4) (tout : BitVec 16) (s : State) : Host.Outcome State Fault Refusal :=
  .next (s.fltWrite FLT_INJ (BitVec.ofNat 32 (target.toNat + 2 ^ 8 + tout.toNat * 2 ^ 16)))

/-- `FLT_INJ_DISARM` (R565): a write of FLT_INJ with ARM = 0. -/
def execFltInjDisarm (target : BitVec 4) (tout : BitVec 16) (s : State) : Host.Outcome State Fault Refusal :=
  .next (s.fltWrite FLT_INJ (BitVec.ofNat 32 (target.toNat + tout.toNat * 2 ^ 16)))

/-- `INJTO` (R565): an armed injection whose timeout has passed ends with TIMEOUT. -/
def execInjto (s : State) : Host.Outcome State Fault Refusal :=
  match s.flt.armed with
  | none => .next s
  | some (_, _, t) =>
    .next (if t ≤ s.now then (s.endInjection (s.fld FLT_INJS FLT_INJS_SYN) 3).raise FLT_EVT FLT_EVT_INJTO else s)

/-- `LOCKSTEP` (R281): the comparator of pair `t` halts both cores; the pair stays halted until a reaction restarts it. -/
def execLockstep (t : Fin 4) (s : State) : Host.Outcome State Fault Refusal :=
  let s1 : State := { s with pairs := vupd s.pairs t.val fun p => { p with run := .held } }
  .next (if (vat s.pairs t.val).run = .held then s
    else s1.sendFault blkPAIR t.val 0x10 clsU (s1.reg (pcKey t.val)).toNat)

end Sys2Proof.Machine
end

