-- ==== Sys2Proof/Machine/Sys.lean ====
section
/-! DEFINITION. Supplies, resets, clocks, the real-time clock and sleep (R49 to R60, R607 to R629), and the loss and retraining of
the die-to-die link (R30 to R34). -/

namespace Sys2Proof.Machine

/-- The state with the supervisor's own part changed. -/
def State.updSys (s : State) (f : Sys → Sys) : State := { s with sys := f s.sys }

/-! ### What resets keep (R614) -/

/-- The key of a memory byte lies in the MRAM. -/
def inMram (k : Nat) : Bool := 0x10000000 ≤ k && k < 0x10600000

/-- Registers that show the Hallmark store (R593). -/
def hallmarkReg (k : Nat) : Bool := k == HMK_STAT || k == HMK_UNIT || k == HMK_RBMIN || k == HMK_DCLEN || k == HMK_OCLEN

/-- Registers a system reset keeps: the latched faults of R562, SYS_THR, SYS_CFG, SYS_RCAUSE and the alarm, the states of the
rails and clocks, the registers of the high-voltage die (R611), the Hallmark store. -/
def keptReg (k : Nat) : Bool :=
  hallmarkReg k || k == FLT_FLAT || k == FLT_FIRSTL || k == FLT_FIRSTH || k == FLT_CNT1 || k == SYS_THR || k == SYS_CFG
    || k == SYS_RCAUSE || k == SYS_ALML || k == SYS_ALMH || k == SYS_STAT || k == SYS_CLK || k == OUT_SOFTG
    || (0x400A0000 ≤ k && k < 0x400C0000)

/-- Only the F count of FLT_CNT1 and the enrolment of HMK_STAT outlive a reset. -/
def State.keepParts (s : State) : State :=
  ((((s.setFld FLT_CNT1 FLT_CNT1_SEC 0).setFld FLT_CNT1 FLT_CNT1_INJ 0).setFld HMK_STAT HMK_STAT_BUSY 0).setFld HMK_STAT
    HMK_STAT_RNGERR 0).setFld SYS_STAT SYS_STAT_SEQ 0

/-- Power-on reset: MRAM and the Hallmark store outlive it; the commands that wait are outside the unit. -/
def State.powerOn (s : State) (cause detail : Nat) : State :=
  let s1 : State := { State.reset with
    pending := s.pending
    mem := s.mem.filter fun c => inMram c.1
    regs := s.regs.filter fun r => hallmarkReg r.1
    enrol := s.enrol
    freeUses := s.freeUses }
  s1.keepParts.setReg SYS_RCAUSE (BitVec.ofNat 32 (cause + 16 * detail))

/-- A soft shutdown in progress (R612). -/
def OutCh.kept (c : OutCh) : OutCh := if c.soft.isSome then c else {}

/-- What a system reset leaves of the supervisor. -/
def Sys.afterReset (y : Sys) (now : Nat) : Sys :=
  { y with
    rst := true
    rstAt := now
    hold := 0
    rstn := none
    ask := none
    mode := .run
    alarm := false
    clocks := 0 }

/-- The logic die is reset; the high-voltage die, soft shutdowns, MRAM and the kept registers are not, and the angle end of the
die-to-die link stops sending (R611, R612, R614). -/
def State.resetLogic (s : State) : State :=
  { State.reset with
    pending := s.pending
    mem := s.mem.filter fun c => inMram c.1
    regs := s.regs.filter fun r => keptReg r.1
    now := s.now
    outCh := s.outCh.map OutCh.kept
    inj := s.inj
    drive := s.drive
    pwm := s.pwm
    enrol := s.enrol
    fabric := { pulseAt := s.now }
    sys := s.sys.afterReset s.now
    freeUses := s.freeUses }

/-- The DEBUG entry for Loupe's enable (R573, R630): cause 0 a reset, 1 a write by target `t`. -/
def State.debugEntry (s : State) (en : Bool) (cause t : Nat) : State :=
  s.lktSend (s.lktStamp rtDEBUG true (toBytes 1 (b2n en) ++ toBytes 1 cause ++ toBytes 1 t))

/-- What every reset sets: Loupe's enable, by Hallmark's enrolment (R630), and a new challenge (R589). -/
def State.resetEntry (s : State) : State :=
  let en := s.fld HMK_STAT HMK_STAT_ENR == 0
  ((s.setFld DBG_CTRL DBG_CTRL_EN (b2n en)).debugEntry en 0 0).newChallenge

/-- A system reset is issued with its cause; while one is already running, the request is recorded in COUNT alone (R616), and
during power-on reset not at all. -/
def State.systemReset (s : State) (cause detail : Nat) : State :=
  if s.sys.por then s
  else
    let s1 := s.count SYS_RCAUSE SYS_RCAUSE_COUNT 1
    if s.sys.rst then s1
    else (((s1.setFld SYS_RCAUSE SYS_RCAUSE_CAUSE cause).setFld SYS_RCAUSE SYS_RCAUSE_DETAIL detail).resetLogic.keepParts).resetEntry

/-- A reset ends; RST_N stays low for tRSTO, 100 to 110 µs (R614, R627). -/
def State.endReset (s : State) : State :=
  (s.updSys fun y => { y with
    por := false
    rst := false
    hold := 0
    rstn := some (s.now + 40000 + s.freeVal 0x61400 % 4001) }).useFree

/-- RST_N is driven low (R614). -/
def State.rstnLow (s : State) : Bool := s.sys.por || s.sys.rst || s.sys.rstn.isSome

/-! ### Clocks and the RTC (R617 to R621) -/

/-- The 25 MHz crystal is valid. -/
def State.crystalOk (s : State) : Bool := s.bit SYS_CLK SYS_CLK_XOK

/-- Every clock of R617 is valid or locked. -/
def State.clocksOk (s : State) : Bool := s.reg SYS_CLK &&& 15 == 15

/-- The armed alarm value. -/
def State.alarmAt (s : State) : Nat := (s.reg SYS_ALML).toNat + 2 ^ 32 * s.fld SYS_ALMH SYS_ALMH_ALM

/-- A tick of the RTC: a count that steps onto the armed value makes the alarm due (R621); calendar time advances by it while the
crystal is not valid (R599). -/
def State.rtcTick (s : State) : State :=
  let c := s.sys.rtc + 1
  let due := s.fld SYS_ALMH SYS_ALMH_ARMED == 1 && c.toNat == s.alarmAt
  let s1 := s.updSys fun y => { y with rtc := c, alarm := y.alarm || due }
  if s.crystalOk then s1 else s1.calRtc

/-- A slot of the RTC: a tick lasts 1/32,768 s, or 488 RC clocks of 62.5 ns (R620), in 1/32 slot. -/
def State.runRtc (s : State) : State :=
  let tick := if s.bit SYS_CLK SYS_CLK_RTCRC then 390400 else 390625
  let a := s.sys.rtcAcc + 32
  if tick ≤ a then (s.updSys fun y => { y with rtcAcc := a - tick }).rtcTick else s.updSys fun y => { y with rtcAcc := a }

/-- A read of SYS_RTCL latches SYS_RTCH (R629). -/
def State.rtclRead (s : State) : State × Word :=
  (s.setFld SYS_RTCH SYS_RTCH_CNT (s.sys.rtc.toNat / 2 ^ 32), s.sys.rtc.setWidth 32)

/-! ### Sleep (R622 to R625) -/

/-- A write of 1 to SYS_SLEEP.GO is legal (R622). -/
def State.sleepLegal (s : State) : Bool :=
  s.syncSt == syncSTOP && s.reg OUT_ENI == 0 && s.reg OUT_ENG == 0 && s.reg OUT_ENA == 0
    && s.fld PWM_APPLIED PWM_APPLIED_EN == 0 && s.fld (INJ_BST 0) INJ_BST_EN == 0 && s.fld (INJ_BST 1) INJ_BST_EN == 0
    && s.outCh.toList.all fun c => c.soft.isNone

/-- GO in RUN begins the entry; a source that is enabled and active aborts it (R622, R625). -/
def State.goSleep (s : State) (active : Word) : State :=
  if s.sys.mode ≠ .run then s
  else if active &&& s.reg SYS_WAKE ≠ 0 then s.raise SYS_EVT SYS_EVT_SLPABT
  else s.updSys fun y => { y with mode := .entry }

/-- The entry is abandoned: the pairs resume (R622). -/
def State.abortEntry (s : State) : State := (s.updSys fun y => { y with mode := .run }).raise SYS_EVT SYS_EVT_SLPABT

/-- Locket has written every queued entry (R622). -/
def State.sleepDrained (s : State) : Bool :=
  s.lkt.coming.isEmpty && s.lkt.queue.isEmpty && s.lkt.own.isEmpty && s.lkt.writing.isNone

/-- Every wait for a time completes after a sleep (R624). -/
def State.wakeTim (s : State) (n : Nat) : State :=
  if s.thState n = thWAIT ∧ s.fld (AEN_TSTAT n) AEN_TSTAT_WKIND = wkTIM then
    let t := s.thr n
    let s1 := (s.waitDone n wkTIM t.waitMask t.waitRd).traceThr n 0 (s.thPc n)
    if s1.budHas (s1.thAcct n) resISSUE 1 then s1.setTh n thREADY else s1.stall n
  else s

/-- The unit runs again after a sleep: the slot counter counts 8 slots for every timer clock slept (R624), the Chain ports
authenticate afresh, SGMII renegotiates, the PLLs have locked (R623). -/
def State.restart (s : State) : State :=
  let s1 : State := { s with slot := s.slot + BitVec.ofNat 48 ((s.now - s.sys.slept) / 8 * 8) }
  let s2 : State := (((s1.updSys fun y => { y with mode := .run }).setBit SYS_CLK SYS_CLK_MLOCK true).setBit SYS_CLK SYS_CLK_LLOCK
    true).setReg ETH_STAT 0
  let s3 := ((s2.updPort 0 fun _ => {}).updPort 1 fun _ => {}).chnShow
  (List.range 64).foldl State.wakeTim s3

/-! ### The sequences (R610 to R613, R619) -/

/-- SYS_STAT.WARN shows a rail below its warning threshold. -/
def State.showWarn (s : State) (rail : Nat) : State := s.setBit SYS_STAT (8 + rail) true

/-- Step 1 of R610. -/
def State.warnMessage (s : State) (rail : Nat) : State := s.decideMsg (faultWord blkSYS 0 0x10 clsU 0 rail)

/-- Step 3 of R610: SAFE 3, and the boost converters' enables are cleared over the die-to-die link while it carries items. -/
def State.warnSafe (s : State) : State :=
  let s1 := s.applySafe 3
  if s1.linkOk then (s1.setFld (INJ_BST 0) INJ_BST_EN 0).setFld (INJ_BST 1) INJ_BST_EN 0 else s1

/-- The sequence of R610 from its crossing to the reset, which then holds the unit under R613. -/
def State.warnSequence (s : State) (rail : Nat) : State :=
  ((((s.warnMessage rail).lktCommit rail).warnSafe).systemReset 3 rail).updSys fun y => { y with hold := 1 }

/-- The clock states after the failure of clock `code` of R618: without the crystal nothing stays locked. -/
def State.clockFailed (s : State) (code : Nat) : State :=
  if code = 0 then (s.setReg SYS_CLK (s.reg SYS_CLK &&& 0xFFFFFFF0)).setFld LKT_TSECH LKT_TSECH_XTAL 0
  else s.setBit SYS_CLK code false

/-- The clock failure sequence (R619): the message, which always applies SAFE 3, the commit, and a reset that holds until R617 is
met again. -/
def State.clockSequence (s : State) (code : Nat) : State :=
  let s1 := ((s.decideMsg (faultWord blkSYS 0 0x11 clsF 0 code)).applySafe 3).lktCommit code
  ((s1.systemReset 7 code).clockFailed code).updSys fun y => { y with hold := 2 }

/-! ### Registers of SYS (R628, R629) -/

/-- The chapter's own conditions for a write to a register of SYS. -/
def State.sysLegal (s : State) (addr : Nat) (w : Word) : Bool :=
  if addr = SYS_THR then s.fld SYS_CFG SYS_CFG_LOCK == 0 && decide (SYS_THR_RST.get w + 10 ≤ SYS_THR_WARN.get w)
  else if addr = SYS_RST then (if SYS_RST_GO.get w = 1 then SYS_RST_KEY.get w == 0x5A else SYS_RST_KEY.get w == 0)
  else if addr = SYS_SLEEP then SYS_SLEEP_GO.get w == 0 || s.sleepLegal
  else if addr = SYS_ALMH then
    let v := (s.reg SYS_ALML).toNat + 2 ^ 32 * SYS_ALMH_ALM.get w
    v == 0 || decide (s.sys.rtc.toNat < v)
  else true

/-- A write to a register of SYS, with the wake sources that are active. LOCK is only ever set (R629). -/
def State.sysWrite (s : State) (active : Word) (addr : Nat) (w : Word) : State :=
  let w1 := if addr = SYS_CFG then w ||| s.reg SYS_CFG else w
  s.writeWith addr w1 false (s.sysLegal addr w) fun t =>
    if addr = SYS_RST then (if bitOf w 0 then t.systemReset 5 0 else t)
    else if addr = SYS_SLEEP then (if bitOf w 0 then t.goSleep active else t)
    else if addr = SYS_ALMH then t.setFld SYS_ALMH SYS_ALMH_ARMED (b2n (t.alarmAt != 0))
    else t

/-! ### Commands -/

/-- `VSYS_HV_HOLD` (R50): VSYS reaches 5.0 V: the high-voltage die is in its reset state, and the die-to-die link is down. -/
def execVsysHvHold (s : State) : Host.Outcome State Fault Refusal :=
  .next { s with
    regs := s.regs.filter fun r => !(0x400A0000 ≤ r.1 && r.1 < 0x400C0000)
    inj := State.reset.inj
    drive := State.reset.drive
    pwm := State.reset.pwm
    d2dUp := false }

/-- `PORST_ASSERT` (R614): PORST_N is low. -/
def execPorstAssert (s : State) : Host.Outcome State Fault Refusal := .next (s.powerOn 2 0)

/-- `RAIL_RESET_CROSSING` (R609): a rail has crossed its reset threshold. -/
def execRailResetCrossing (rail : Fin 5) (s : State) : Host.Outcome State Fault Refusal := .next (s.powerOn 1 rail)

/-- `POR_RELEASE` (R59): every rail is good and PORST_N is high. -/
def execPorRelease (warn : BitVec 5) (s : State) : Host.Outcome State Fault Refusal :=
  if s.sys.por then
    let s1 := (s.setFld SYS_STAT SYS_STAT_GOOD 31).setFld SYS_STAT SYS_STAT_WARN warn.toNat
    let s2 := s1.setBit SYS_CLK SYS_CLK_RTCOK (!s.bit SYS_CLK SYS_CLK_RTCRC)
    .next s2.endReset.resetEntry
  else .next s

/-- `SUPPLY_WARNING` (R610, R622): a rail has crossed its warning threshold. During a reset it is shown in WARN alone; it ends an
entry into sleep, or a sleep, first. -/
def execSupplyWarning (rail : Fin 5) (s : State) : Host.Outcome State Fault Refusal :=
  let s1 := s.showWarn rail
  if s.sys.por || s.sys.rst then .next s1
  else
    let s2 := match s.sys.mode with
      | .run => s1
      | .entry => s1.abortEntry
      | .sleep => s1.restart
    .next (s2.warnSequence rail)

/-- `SYSTEM_RESET` (R614): the system reset that a reaction or a host link has asked for is issued. -/
def execSystemReset (s : State) : Host.Outcome State Fault Refusal :=
  match s.sys.ask with
  | some (c, d) => .next ((s.updSys fun y => { y with ask := none }).systemReset c d)
  | none => .next s

/-- `SYSTEM_RESET_END` (R614): tSRS, at least 10 µs, has passed, and nothing holds the unit in reset. -/
def execSystemResetEnd (s : State) : Host.Outcome State Fault Refusal :=
  .next (if s.sys.rst && decide (s.sys.rstAt + 4000 ≤ s.now) && (s.sys.hold == 0 || (s.sys.hold == 2 && s.clocksOk))
    then s.endReset else s)

/-- `RESET_HOLD_END` (R613): every rail has been above its warning threshold for 10 ms. -/
def execResetHoldEnd (s : State) : Host.Outcome State Fault Refusal :=
  .next (if s.sys.rst && s.sys.hold == 1 then (s.setFld SYS_STAT SYS_STAT_WARN 0).endReset
    else if s.sys.rst && s.sys.hold == 3 then (s.setFld SYS_STAT SYS_STAT_WARN 0).updSys fun y => { y with hold := 2 }
    else s)

/-- `RSTN_INPUT` (R614): RST_N has been held low from outside; it is ignored while the unit drives it. -/
def execRstnInput (s : State) : Host.Outcome State Fault Refusal := .next (if s.rstnLow then s else s.systemReset 6 0)

/-- `SYS_RST` (R614): a write to SYS_RST. -/
def execSysRst (w : Word) (s : State) : Host.Outcome State Fault Refusal := .next (s.sysWrite 0 SYS_RST w)

/-- `CRYSTAL_VALID` (R617): the crystal has given 1,024 good cycles. -/
def execCrystalValid (s : State) : Host.Outcome State Fault Refusal :=
  .next ((s.setBit SYS_CLK SYS_CLK_XOK true).setFld LKT_TSECH LKT_TSECH_XTAL 1)

/-- `PLL_LOCK` (R617): the main PLL, the link PLL or the timer doubler locks, with the crystal valid. -/
def execPllLock (pll : Fin 3) (s : State) : Host.Outcome State Fault Refusal :=
  .next (if s.crystalOk then s.setBit SYS_CLK (1 + pll) true else s)

/-- `CLKFAIL` (R618, R619): a watched clock has failed. The monitors of the main and link PLLs are off in sleep. During a system
reset the failure is decided and holds the unit in reset. -/
def execClkfail (code : Fin 4) (s : State) : Host.Outcome State Fault Refusal :=
  if s.sys.por || (s.sys.mode == .sleep && (code.val == 1 || code.val == 2)) then .next s
  else if s.sys.rst then
    let s1 := (s.decideMsg (faultWord blkSYS 0 0x11 clsF 0 code)).clockFailed code
    .next ((s1.systemReset 7 code).updSys fun y => { y with hold := if y.hold = 1 ∨ y.hold = 3 then 3 else 2 })
  else .next (s.clockSequence code)

/-- `RTCF` (R620): no edge of the 32.768 kHz crystal for 4 ticks. -/
def execRtcf (s : State) : Host.Outcome State Fault Refusal :=
  .next (((s.setBit SYS_CLK SYS_CLK_RTCRC true).setBit SYS_CLK SYS_CLK_RTCOK false).raise SYS_EVT SYS_EVT_RTCF)

/-- `ALARM_ARM` (R621): a write to SYS_ALMH. -/
def execAlarmArm (w : Word) (s : State) : Host.Outcome State Fault Refusal := .next (s.sysWrite 0 SYS_ALMH w)

/-- `ALARM` (R621): the count has stepped onto the armed value. -/
def execAlarmMatch (s : State) : Host.Outcome State Fault Refusal :=
  .next (if s.sys.alarm then (s.updSys fun y => { y with alarm := false }).raise SYS_EVT SYS_EVT_ALARM else s)

/-- `SLEEP_GO` (R622): a write of 1 to `SYS_SLEEP.GO`, with the sources that are active then. -/
def execSleepGo (active : Word) (s : State) : Host.Outcome State Fault Refusal := .next (s.sysWrite active SYS_SLEEP 1)

/-- `SLEEP_ENTER` (R622): the entry has drained: the PLLs stop and the die-to-die link with them. -/
def execSleepEnter (s : State) : Host.Outcome State Fault Refusal :=
  if s.sys.mode == .entry && s.sleepDrained then
    let s1 : State := { (s.setBit SYS_CLK SYS_CLK_MLOCK false).setBit SYS_CLK SYS_CLK_LLOCK false with d2dUp := false }
    .next (s1.updSys fun y => { y with mode := .sleep, slept := s.now })
  else .next s

/-- `WAKE` (R622, R625): the sources of `src` (in the layout of SYS_WAKE) are active; an enabled one ends the sleep, or an entry
into it. -/
def execWakeUp (src : Word) (s : State) : Host.Outcome State Fault Refusal :=
  let on := src &&& s.reg SYS_WAKE
  if on = 0 then .next s
  else .next (match s.sys.mode with
    | .run => s
    | .entry => s.abortEntry
    | .sleep => (s.restart.setReg SYS_WSRC on).raise SYS_EVT SYS_EVT_WAKE)

/-! ### The die-to-die link (R30 to R34) -/

/-- tLOSS, 2.56 µs, has passed since the last good frame at an end. -/
def State.frameLoss (s : State) (good : Nat) : Bool := s.sys.mode != .sleep && decide (good + 1024 ≤ s.now)

/-- `KEEPALIVE` (R30, R31): an idle direction sends a keep-alive frame; one that fails its CRC counts as not received. -/
def execKeepalive (toHv good : Bool) (s : State) : Host.Outcome State Fault Refusal :=
  .next (if s.d2dUp && good then s.goodFrame toHv else s)

/-- `LINK_LOSS_HV` (R31, R32): the high-voltage die has received no good frame for tLOSS. -/
def execLinkLossHv (s : State) : Host.Outcome State Fault Refusal :=
  .next (if !s.drive.lost && s.frameLoss s.sys.goodHv then s.injLost.pwmLost else s)

/-- `REFERENCE_LOSS` (R31, R32): the forwarded reference is lost or the drive PLL unlocked; not in sleep (R623). -/
def execReferenceLoss (s : State) : Host.Outcome State Fault Refusal :=
  .next (if !s.drive.lost && s.sys.mode != .sleep then s.injLost.pwmLost else s)

/-- `LINKLOSS` (R31, R33): the logic die has received no good frame for tLOSS. -/
def execLinkloss (s : State) : Host.Outcome State Fault Refusal :=
  if s.d2dUp && s.frameLoss s.sys.goodLog then
    let s1 : State := { s.injLinkLoss with d2dUp := false }
    .next (s1.sendFault blkD2D 0 0x10 clsU 0)
  else .next s

/-- `LINK_RETRAIN` (R34): both ends are healthy, and the link trains: every injection channel and PWM pair is disabled. -/
def execLinkRetrain (s : State) : Host.Outcome State Fault Refusal :=
  if s.sys.por || s.sys.rst || s.sys.mode == .sleep || s.linkOk then .next s
  else
    let s1 : State := { s with d2dUp := true, drive := { s.drive with lost := false } }
    let s2 := ((s1.setFld INJ_CTRL INJ_CTRL_EN 0).setFld INJ_APPLIED INJ_APPLIED_EN 0).setFld PWM_CTRL PWM_CTRL_EN 0
    let s3 : State := (List.range 12).foldl (fun t n => if s.bit INJ_APPLIED n then t.injDisable n else t) s2
    let s4 : State := (List.range 10).foldl (fun t n => if s.pwmOn n then t.pwmDisable n else t) s3
    .next (((s4.setFld PWM_APPLIED PWM_APPLIED_EN 0).goodFrame true).goodFrame false)

end Sys2Proof.Machine
end

