-- ==== Sys2Proof/Machine/Pair.lean ====
section
/-! DEFINITION. The policy pairs: registers, levels, outstanding loads, protection regions, the entry and exit sequences (R213, R229,
R233 to R236, R249, R280 to R286, R329 to R332). -/

namespace Sys2Proof.Machine

/-- The state with a pair's own part changed. -/
def State.updPair (s : State) (t : Nat) (f : Pair → Pair) : State := { s with pairs := vupd s.pairs t f }

/-- What pair `t` holds beside its registers. -/
def State.pair (s : State) (t : Nat) : Pair := vat s.pairs t

/-! ### Registers (R213, R215, R236) -/

/-- General register `r` of pair `t`: g0 reads 0. -/
def State.pg (s : State) (t r : Nat) : Word := if r = 0 then 0 else s.reg (gKey t r)

/-- The state with a general register written; a write to g0 is discarded. -/
def State.setPg (s : State) (t r : Nat) (v : Word) : State := if r = 0 then s else s.setReg (gKey t r) v

/-- The program counter of pair `t`. -/
def State.ppc (s : State) (t : Nat) : Word := s.reg (pcKey t)

/-- The state with the program counter set. -/
def State.setPpc (s : State) (t : Nat) (v : Word) : State := s.setReg (pcKey t) v

/-- Places of the control registers (`csrKey`). -/
abbrev csSTATUS : Nat := 0
abbrev csEPC : Nat := 1
abbrev csECAUSE : Nat := 2
abbrev csEVAL : Nat := 3
abbrev csVBASE : Nat := 4
abbrev csSCRATCH : Nat := 5
abbrev csFCSR : Nat := 6
abbrev csCYCLEL : Nat := 7
abbrev csCYCLEH : Nat := 8
abbrev csINSTRL : Nat := 9
abbrev csINSTRH : Nat := 10
abbrev csCOREID : Nat := 11
abbrev csISAVER : Nat := 12

/-- A control register of pair `t`. -/
def State.csr (s : State) (t c : Nat) : Word := s.reg (csrKey t c)

/-- The state with a control register set. -/
def State.setCsr (s : State) (t c : Nat) (v : Word) : State := s.setReg (csrKey t c) v

/-- Pair `t` runs at level S (R233, R236). -/
def State.atS (s : State) (t : Nat) : Bool := bitOf (s.csr t csSTATUS) 1

/-- STATUS.IE. -/
def State.pairIE (s : State) (t : Nat) : Bool := bitOf (s.csr t csSTATUS) 0

/-- DBG_PSTAT shows pair `t` halted (R636). -/
def State.pairHalted (s : State) (t : Nat) : Bool := s.bit DBG_PSTAT t

/-- The unit runs: no reset is in progress and it does not sleep. -/
def State.unitRuns (s : State) : Bool := !s.sys.por && !s.sys.rst && s.sys.mode == .run

/-- Pair `t` takes instructions and interrupts: it runs, is not suspended in WFI, and is not halted. -/
def State.pairActive (s : State) (t : Nat) : Bool :=
  s.unitRuns && (s.pair t).run == .run && !(s.pair t).wfi && (!s.pairHalted t || (s.pair t).step)

/-! ### Outstanding loads (R229) -/

/-- A load's data reaches its destination: a general register, or from 32 on a floating-point register. -/
def State.putLoad (s : State) (t : Nat) (d : Nat × Word) : State :=
  if d.1 < 32 then s.setPg t d.1 d.2 else s.setReg (fKey t (d.1 - 32)) d.2

/-- The loads of pair `t` that satisfy `p` complete, oldest first. -/
def State.settleWhere (s : State) (t : Nat) (p : Nat → Bool) : State :=
  (((s.pair t).loads.filter fun d => p d.1).foldl (fun u d => u.putLoad t d) s).updPair t fun x => { x with
    loads := x.loads.filter fun d => !p d.1 }

/-- Every outstanding load completes. -/
def State.settleAll (s : State) (t : Nat) : State := s.settleWhere t fun _ => true

/-- The loads into the named registers complete, so that an instruction finds them ready. -/
def State.settle (s : State) (t : Nat) (rs : List Nat) : State := s.settleWhere t fun d => rs.contains d

/-- The oldest outstanding load completes. -/
def State.finishLoad (s : State) (t : Nat) : State :=
  match (s.pair t).loads with
  | [] => s
  | d :: _ => (s.putLoad t d).updPair t fun x => { x with loads := x.loads.drop 1 }

/-- A load joins the outstanding ones; a fifth waits for the oldest. -/
def State.addLoad (s : State) (t d : Nat) (v : Word) : State :=
  let s1 := if 4 ≤ (s.pair t).loads.length then s.finishLoad t else s
  s1.updPair t fun x => { x with loads := x.loads ++ [(d, v)] }

/-! ### Protection regions (R285, R286) -/

/-- What an access is for a protection region. -/
inductive Use where
  | load | store | fetch
  deriving DecidableEq, Repr

/-- Region `r` of target `t` covers an address. -/
def State.covers (s : State) (t r a : Nat) : Bool :=
  s.bit (QUE_RB t r) QUE_RB_EN && decide (s.fld (QUE_RB t r) QUE_RB_BASE * 256 ≤ a ∧ a ≤ s.fld (QUE_RL t r) QUE_RL_LIMIT * 256 + 255)

/-- The deciding region of an address: the covering one of highest number. -/
def State.decidingRegion (s : State) (t a : Nat) : Option Nat := (List.range 16).reverse.find? fun r => s.covers t r a

/-- The protection regions of target `t` allow an access (R286). An aligned access lies in one 256-byte page, so its first byte
decides for all. -/
def State.protOk (s : State) (t a : Nat) (u : Use) : Bool :=
  match s.decidingRegion t a with
  | none => s.atS t
  | some r =>
    let b := s.bit (QUE_RB t r)
    if s.atS t then
      match u with | .load => true | .store => b QUE_RB_SW | .fetch => b QUE_RB_SX
    else
      match u with | .load => b QUE_RB_UR | .store => b QUE_RB_UW | .fetch => b QUE_RB_UX

/-- Pair `t` may fetch from an address (R232, R286). -/
def State.mayFetch (s : State) (t a : Nat) : Bool :=
  (executable a || (0xF0000000 ≤ a && a < 0xF0010000)) && s.protOk t a .fetch

/-! ### Entry and exit sequences (R249, R329 to R332) -/

/-- The key of frame slot `d` of pair `t`'s frame area (R332). -/
def frameKey (t d : Nat) : Nat := windowKey t (0xF001F800 + 32 * d)

/-- Frames in use. -/
def State.frames (s : State) (t : Nat) : Nat := s.fld (IRQ_RUN t) IRQ_RUN_DEPTH

/-- RUNP. -/
def State.runp (s : State) (t : Nat) : Nat := s.fld (IRQ_RUN t) IRQ_RUN_RUNP

/-- The frame area is full, or empty at an ERET: the pair halts until a restart (R332). -/
def State.frameHalt (s : State) (t : Nat) : State :=
  (s.updPair t fun x => { x with run := .held }).sendFault blkPAIR t 0x12 clsU (s.frames t)

/-- The eight words of a frame: the registers before the entry (R329). -/
def State.frameWords (s : State) (t : Nat) : List Word :=
  [s.csr t csEPC, s.csr t csSTATUS, s.csr t csECAUSE, s.csr t csEVAL, BitVec.ofNat 32 (s.runp t), s.pg t 1, s.pg t 2, s.pg t 3]

/-- The start of a handler: ECAUSE, EVAL, level S with IE = 0, and pc at an offset from VBASE × 256. -/
def State.toHandler (s : State) (t cause : Nat) (eval : Word) (off : Word) : State :=
  let pc := (s.csr t csVBASE &&& 0xFFFFFF00) + off
  ((((s.setCsr t csECAUSE (BitVec.ofNat 32 cause)).setCsr t csEVAL eval).setCsr t csSTATUS 2).setPpc t pc).tracePc t pc

/-- The entry sequence (R249, R329): a frame is stacked, EPC names an instruction, the handler begins. An interrupt sets RUNP to the
highest priority deliverable. -/
def State.pairEnter (s : State) (t : Nat) (epc : Word) (cause : Nat) (eval : Word) (irq : Bool) : State :=
  if 64 ≤ s.frames t then s.frameHalt t
  else
    let s1 := s.settle t [1, 2, 3]
    let s2 := s1.wrBytes (frameKey t (s1.frames t)) (wordsToBytes (s1.frameWords t))
    let s3 := (s2.setFld (IRQ_RUN t) IRQ_RUN_DEPTH (s2.frames t + 1)).setCsr t csEPC epc
    let s4 := if irq then s3.setFld (IRQ_RUN t) IRQ_RUN_RUNP (s3.topPrio t) else s3
    s4.toHandler t cause eval (if irq then 0x40 else 0)

/-- An exception of pair `t` at the instruction pc names (R247, R249). -/
def State.pairTrap (s : State) (t cause : Nat) (eval : Word) : State := s.pairEnter t (s.ppc t) cause eval false

/-- Word `i` of the top frame. -/
def State.topFrame (s : State) (t i : Nat) : Word := s.rd32 (frameKey t (s.frames t - 1) + 4 * i)

/-- The exit sequence (R330, R331): the top frame is restored, or, where a source above its RUNP is deliverable and its IE is 1, the
next handler is entered without stacking again. -/
def State.pairExit (s : State) (t : Nat) : State :=
  if s.frames t = 0 then s.frameHalt t
  else if bitOf (s.topFrame t 1) 0 && decide ((s.topFrame t 4).toNat % 16 < s.topPrio t) then
    (s.setFld (IRQ_RUN t) IRQ_RUN_RUNP (s.topPrio t)).toHandler t 0 0 0x40
  else
    let s0 := s.settle t [1, 2, 3]
    let pc := s0.csr t csEPC
    let w := s0.topFrame t
    let s1 := (((s0.setCsr t csEPC (w 0)).setCsr t csSTATUS (w 1 &&& 3)).setCsr t csECAUSE (w 2)).setCsr t csEVAL (w 3)
    let s2 := ((s1.setPg t 1 (w 5)).setPg t 2 (w 6)).setPg t 3 (w 7)
    let s3 := (s2.setFld (IRQ_RUN t) IRQ_RUN_RUNP ((w 4).toNat % 16)).setFld (IRQ_RUN t) IRQ_RUN_DEPTH (s0.frames t - 1)
    (s3.setPpc t pc).tracePc t pc

/-! ### Commands -/

/-- `LOAD_COMPLETE` (R229): the oldest outstanding load of pair `t` returns its data. -/
def execLoadComplete (t : Fin 4) (s : State) : Host.Outcome State Fault Refusal := .next (s.finishLoad t)

/-- `WFI_WAKE` (R234): an interrupt is pending above the threshold of a pair suspended in WFI. -/
def execWfiWake (t : Fin 4) (s : State) : Host.Outcome State Fault Refusal :=
  .next (if s.claimable t = 0 then s else s.updPair t fun x => { x with wfi := false })

/-- `INTERRUPT_ENTRY` (R329): a source is deliverable above RUNP, with IE = 1; the pair takes it between two instructions. -/
def execInterruptEntry (t : Fin 4) (s : State) : Host.Outcome State Fault Refusal :=
  .next (if s.pairActive t && !s.pairHalted t && s.pairIE t && decide (s.runp t < s.topPrio t)
    then s.pairEnter t (s.ppc t) 0 0 true else s)

end Sys2Proof.Machine
end

