-- ==== Sys2Proof/Machine/Dbg.lean ====
section
/-! DEFINITION. The registers of DBG: Loupe's enable, halts, steps and resumes (R630, R636, R637, R639, R640). -/

namespace Sys2Proof.Machine

/-- Loupe is open (R630). -/
def State.loupeOpen (s : State) : Bool := s.fld DBG_CTRL DBG_CTRL_EN == 1

/-! ### Pairs (R636) -/

/-- Pair `t` enters HALTED, at a BRK or not. -/
def State.haltPair (s : State) (t : Nat) (byBrk : Bool) : State :=
  ((s.setBit DBG_PSTAT t true).setBit DBG_PSTAT (4 + t) byBrk).raise DBG_EVT (DBG_EVT_HALT0 + t)

/-- A BRK issued by pair `t` halts it: its bit is set, Loupe is open, and neither a step nor a resume lets it through. -/
def State.brkHaltsPair (s : State) (t : Nat) : Bool :=
  s.loupeOpen && s.bit DBG_BRK t && !(s.pair t).step && !(s.pair t).resume

/-- A halted pair runs again; a BRK at its pc executes this once. -/
def State.resumePair (s : State) (t : Nat) : State :=
  if s.pairHalted t then
    ((s.setBit DBG_PSTAT t false).setBit DBG_PSTAT (4 + t) false).updPair t fun x => { x with step := false, resume := true }
  else s

/-- A halted pair may execute one instruction. -/
def State.stepPair (s : State) (t : Nat) : State :=
  if s.pairHalted t then s.updPair t fun x => { x with step := true } else s

/-- The pairs named in a mask. -/
def State.eachPair (s : State) (w : Word) (f : State → Nat → State) : State :=
  (List.range 4).foldl (fun u t => if bitOf w t then f u t else u) s

/-! ### Threads (R637) -/

/-- A BRK issued by thread `n` halts it. -/
def State.brkHaltsThread (s : State) (n : Nat) : Bool := s.loupeOpen && s.bit DBG_BRK (4 + n / 32)

/-- A HALTED thread resumes at the instruction after the BRK. -/
def State.resumeThread (s : State) (n : Nat) : State :=
  if s.thState n = thHALTED then (s.setThPc n ((s.thr n).pc + 4)).setTh n thREADY else s

/-- Every debug halt is released (R630). -/
def State.releaseHalts (s : State) : State :=
  (List.range 64).foldl State.resumeThread (s.eachPair 15 State.resumePair)

/-! ### Registers (R640) -/

/-- The chapter's own conditions for a write to a register of DBG; `by_` is the policy target that writes at level S. -/
def State.dbgLegal (s : State) (by_ : Option Nat) (addr : Nat) (w : Word) : Bool :=
  let halted := fun t => s.pairHalted t
  if addr = DBG_CTRL then by_.isSome || DBG_CTRL_EN.get w == s.fld DBG_CTRL DBG_CTRL_EN
  else if addr = DBG_HALT then (List.range 4).all fun t => !bitOf w t || !halted t
  else if addr = DBG_RES ∨ addr = DBG_STEP then (List.range 4).all fun t => !bitOf w t || halted t
  else if addr = DBG_TRES then s.thState (w.toNat % 64) == thHALTED
  else true

/-- A write that changes EN puts a DEBUG entry into Locket's queue; clearing it releases every halt (R630). -/
def State.enableChanged (s : State) (old : Nat) (t : Nat) : State :=
  let en := s.fld DBG_CTRL DBG_CTRL_EN
  if en = old then s
  else
    let s1 := s.debugEntry (en == 1) 1 t
    if en = 0 then s1.releaseHalts else s1

/-- A write to a register of DBG. A halt needs Loupe open (R630). -/
def State.dbgWrite (s : State) (by_ : Option Nat) (addr : Nat) (w : Word) : State :=
  let old := s.fld DBG_CTRL DBG_CTRL_EN
  s.writeWith addr w false (s.dbgLegal by_ addr w) fun t =>
    if addr = DBG_CTRL then t.enableChanged old (by_.getD 0)
    else if addr = DBG_HALT then
      (if t.loupeOpen then t.eachPair w (fun u p => (u.settleAll p).haltPair p false) else t)
    else if addr = DBG_RES then t.eachPair w State.resumePair
    else if addr = DBG_STEP then t.eachPair w State.stepPair
    else if addr = DBG_TRES then t.resumeThread (w.toNat % 64)
    else if addr = DBG_UTRC then t.traceUser w
    else t

/-- The policy target a master writes for at level S. -/
def State.targetAtS (s : State) (m : Master) : Option Nat :=
  match m with
  | .pair t => if s.atS t then some t else none
  | .thread _ | .dma _ | .loupe | .spi => none

/-! ### Commands -/

/-- `DBG_ENABLE_WRITE` (R630): master `m` writes DBG_CTRL. -/
def execDbgEnableWrite (m : Master) (w : Word) (s : State) : Host.Outcome State Fault Refusal :=
  .next (s.dbgWrite (s.targetAtS m) DBG_CTRL w)

/-- `DBG_HALT` (R636): a write to DBG_HALT. -/
def execDbgHalt (w : Word) (s : State) : Host.Outcome State Fault Refusal := .next (s.dbgWrite none DBG_HALT w)

/-- `DBG_RES` (R636): a write to DBG_RES. -/
def execDbgRes (w : Word) (s : State) : Host.Outcome State Fault Refusal := .next (s.dbgWrite none DBG_RES w)

/-- `DBG_STEP` (R636): a write to DBG_STEP. -/
def execDbgStep (w : Word) (s : State) : Host.Outcome State Fault Refusal := .next (s.dbgWrite none DBG_STEP w)

/-- `DBG_TRES` (R637): a write to DBG_TRES. -/
def execDbgTres (w : Word) (s : State) : Host.Outcome State Fault Refusal := .next (s.dbgWrite none DBG_TRES w)

/-- `DBG_UTRC` (R633): a write to DBG_UTRC. -/
def execDbgUtrc (w : Word) (s : State) : Host.Outcome State Fault Refusal := .next (s.dbgWrite none DBG_UTRC w)

end Sys2Proof.Machine
end

