-- ==== Sys2Proof/Machine/Wheel.lean ====
section
/-! DEFINITION. The wheel inputs (03_wheel_inputs.md): front ends, filter, edges, windows, timeouts, the tooth log, and the
registers of WHL. -/

namespace Sys2Proof.Machine

/-- 500 ms in slots (R77). -/
abbrev halfSecond : Nat := 200000000

/-- The 48-bit slot counter value of a time (R70). -/
def State.slot48At (s : State) (t : Nat) : BitVec 48 := s.slot + BitVec.ofNat 48 t - BitVec.ofNat 48 s.now

/-- The state of a wheel input changes; SIG of WHL_STAT follows (R99). -/
def State.setWhlState (s : State) (n : Nat) (f : Whl → Whl) : State :=
  let s1 := s.updWhl n f
  let h := s1.whlOf n
  s1.setBit WHL_STAT (8 + n) ((h.st == .free || h.st == .windowed) && decide (0 < h.delivered))

/-! ### The tooth log (R88, R89) -/

/-- r x 4,096 of a stamp against a reference and a prediction, saturating; 0xFFFF with no prediction (R89). -/
def logRatio (period : Nat) (pred : Option Nat) : Nat :=
  match pred with
  | some p => capAt 0xFFFF (period * 256 * 4096 / p)
  | none => 0xFFFF

/-- The slot index expected next of a placed wheel; 0xFFFF otherwise (R89). -/
def State.expectedSlot (s : State) (n : Nat) : Nat :=
  if n = s.srcWheel ∧ s.placed ∧ s.fld OBS_CFG OBS_CFG_EN = 1 then (s.nextTooth n s.lastTooth).1.slot
  else if n = s.sync.sec ∧ s.fires ∧ s.fld OBS_SCFG OBS_SCFG_SECEN = 1 then
    match s.sync.secSlot with
    | some i => (s.nextTooth n ⟨i, 0, 0⟩).1.slot
    | none => 0xFFFF
  else 0xFFFF

/-- The slot index of the tooth just taken of a placed wheel; 0xFFFF otherwise (R89). -/
def State.takenSlot (s : State) (n : Nat) : Nat :=
  if n = s.srcWheel ∧ s.placed ∧ s.fld OBS_CFG OBS_CFG_EN = 1 then s.obs.slot
  else if n = s.sync.sec ∧ s.fires ∧ s.fld OBS_SCFG OBS_SCFG_SECEN = 1 then s.sync.secSlot.getD 0xFFFF
  else 0xFFFF

/-- One entry goes to the tooth log, or is dropped and counted (R88, R89). With no reference the spec states no PERIOD: a free
value (log 7). -/
def State.logTooth (s : State) (n kind t : Nat) (rev : Bool) (ref pred : Option Nat) (slotIx : Nat) : State :=
  if s.fld (WHL_LOG n) WHL_LOG_EN = 1 then
    let period := match ref with
      | some r => capAt 0xFFFFFFFF (t - r)
      | none => s.freeVal t % 2 ^ 32
    let st := (s.slot48At t).toNat
    let e := wordsToBytes
      [BitVec.ofNat 32 st, BitVec.ofNat 32 (st / 2 ^ 32 + 2 ^ 16 * n + 2 ^ 19 * kind + 2 ^ 22 * b2n rev), BitVec.ofNat 32 period,
       BitVec.ofNat 32 (logRatio period pred + 2 ^ 16 * slotIx)]
    let r := (if ref.isNone then s.useFree else s).qputFor (s.binding 1) (s.fld (WHL_LOG n) WHL_LOG_QUE) e
    if r.2 = qPUT then r.1 else r.1.count (WHL_CNT n) WHL_CNT_LOGDROP 1
  else s

/-! ### Windows (R75, R77, R78) -/

/-- The wheel's window check applies: ANGLE or SPEED role (R74). -/
def State.windowed (s : State) (n : Nat) : Bool := s.role n != 1

/-- r x 20 x P of a time is below, or above, a limit: `period x 256 x 20` against `limit x P` (R75). -/
def ratioBelow (period p lim : Nat) : Bool := decide (period * 256 * 20 < lim * p)

/-- The ratio lies above the limit. -/
def ratioAbove (period p lim : Nat) : Bool := decide (lim * p < period * 256 * 20)

/-- The source in force of an enabled observer. -/
def State.isSource (s : State) (n : Nat) : Bool := n == s.srcWheel && s.fld OBS_CFG OBS_CFG_EN == 1

/-- The secondary sensor in use (R156). -/
def State.isSecondary (s : State) (n : Nat) : Bool :=
  n == s.sync.sec && !s.isSource n && s.fld OBS_SCFG OBS_SCFG_SECEN == 1 && s.fires

/-- An EARLY edge (R78): counted, logged, never a tooth; a learning pass that contains it is lost (R128). -/
def State.earlyEdge (s : State) (n : Nat) (e : Edge) : State :=
  let h := s.whlOf n
  let s1 := (((s.count (WHL_CNT n) WHL_CNT_EARLY 1).raise WHL_EVT (WHL_EVT_EARLY n)).logTooth n 1 e.stamp false h.ref h.pred
    (s.expectedSlot n)).spoilPass n
  if s.isSource n then s1.sourceEarly else s1

/-- An edge that has passed the filter and R71 is classed by the state table of R78: EARLY, or a stamp that waits for its
delivery; with DIREN it waits for the opposite edge first (R73). An edge beyond a window that has not been closed yet has no row
in the table. -/
def State.classEdge (s : State) (n : Nat) (e : Edge) : State :=
  let h := s.whlOf n
  let keep := if s.fld (WHL_CFG n) WHL_CFG_DIREN = 1 then s.updWhl n fun h => { h with dirPend := some e }
    else s.updWhl n fun h => { h with await := some e }
  if h.st = .windowed ∧ s.windowed n then
    match h.ref, h.pred with
    | some r, some p =>
      if ratioBelow (e.stamp - r) p h.lo then s.earlyEdge n e
      else if ratioAbove (e.stamp - r) p h.hi then s
      else keep
    | _, _ => keep
  else keep

/-- An edge of the selected direction that has passed the filter: R71, RAW echoes, then the state table. -/
def State.selectedEdge (s : State) (n : Nat) (e : Edge) : State :=
  let h := s.whlOf n
  if h.st = .disabled then s
  else if (match h.lastAcc with | some a => decide (e.stamp - a < 256) | none => false) then
    ((s.count (WHL_CNT n) WHL_CNT_OVR 1).raise WHL_EVT (WHL_EVT_OVR n)).spoilPass n
  else ((s.updWhl n fun h => { h with lastAcc := some e.stamp }).echoRaw n).classEdge n e

/-- The edge direction is selected by `WHL_CFGn.EDGE`: 1 rising, 2 falling, 3 both. -/
def edgeSelected (sel : Nat) (level : Bool) : Bool := if level then sel == 1 || sel == 3 else sel == 2 || sel == 3

/-- A change of level, or an armed crossing of a single-edge VR input, has held for FILT angle clocks (R67). -/
def State.filterPasses (s : State) (n : Nat) : Bool :=
  let h := s.whlOf n
  (h.det != s.bit WHL_STAT n || h.vrEdge) && decide (h.detAt + s.fld (WHL_CFG n) WHL_CFG_FILT ≤ s.now)

/-! ### Delivery (R78) -/

/-- The wheel's own part of a delivery: reference, period, timeout, next state (R78). The second accepted edge of a SPEED wheel
gives its prediction (R74). -/
def State.wheelTakes (s : State) (n : Nat) (e : Edge) : State :=
  let h := s.whlOf n
  let period := match h.ref with | some r => e.stamp - r | none => 0
  let speedP := s.role n == 2 && h.ref.isSome && h.st != .stalled
  let s1 := s.setWhlState n fun h =>
    { h with
      st := if speedP then .windowed else if h.st = .stalled then .free else h.st
      ref := some e.stamp
      pred := if speedP then some (256 * period) else if h.st = .stalled then none else h.pred
      lo := if speedP then s.fld (WHL_WIN n) WHL_WIN_LO else h.lo
      hi := if speedP then s.fld (WHL_WIN n) WHL_WIN_HI else h.hi
      tmoFrom := e.stamp
      delivered := h.delivered + 1
      lastTooth := some e.stamp
      await := none
      dirPend := none }
  let s2 := if speedP then s1.setReg (WHL_PRED n) (BitVec.ofNat 32 (capAt 0xFFFFFFFF period)) else s1
  let s3 := if h.ref.isSome then s2.setReg (WHL_PER n) (BitVec.ofNat 32 (capAt 0xFFFFFFFF period)) else s2
  (s3.setReg (WHL_LAST n) (s.slotAt e.stamp)).setBit WHL_STAT (16 + n) e.rev

/-- A stamp is delivered as a tooth: to the log, the threads, and by the wheel's part in it to the observer and synchronisation
(R78, R88, R239, R266). -/
def State.deliver (s : State) (n : Nat) (e : Edge) : State :=
  let h := s.whlOf n
  let s1 := (s.wheelTakes n e).hwEvent (1 + n)
  let s2 :=
    if s.isSource n then (s1.setPendAll pdTOOTH).sourceTooth n e.stamp e.rev
    else if s.isSecondary n then s1.secDeliver n e h.lastTooth
    else if s.role n = 1 ∧ n = s.fld OBS_SCFG OBS_SCFG_CAM ∧ s.fld OBS_CFG OBS_CFG_EN = 1
    then s1.updSync fun y => { y with cams := y.cams ++ [e] }
    else s1
  s2.logTooth n 0 e.stamp e.rev h.ref h.pred (s2.takenSlot n)

/-! ### Enabling and disabling (R63, R78) -/

/-- Wheel `n` comes to be enabled. -/
def State.enableWheel (s : State) (n : Nat) : State :=
  let h := s.whlOf n
  ((s.setWhlState n fun _ =>
    { st := .free, det := h.det, detAt := h.detAt, detAng := h.detAng, tmoFrom := s.now }).setReg (WHL_PK n) 0).setReg (WHL_PRED n) 0

/-- Wheel `n` comes to be disabled: prediction, reference and timeout are discarded, without an event; the source in force takes
synchronisation to STOP (R78, R165). -/
def State.disableWheel (s : State) (n : Nat) : State :=
  let h := s.whlOf n
  let s0 := s.dropPass n
  let s1 := if s.isSource n then (s0.goSync syncSTOP caDISABLED).withdraw else if s.isSecondary n then s0.secReset else s0
  (s1.setWhlState n fun _ => { det := h.det, detAt := h.detAt, detAng := h.detAng }).setReg (WHL_PRED n) 0

/-- The slots of each gap of an ANGLE-role pattern: at most 3 gaps of 1 to 3 slots (R83). -/
def State.gapsLegal (s : State) (n : Nat) : Bool :=
  let c := s.teeth n
  let ks := (List.range c).filterMap fun i => if s.present n i then some (s.pitches n i c) else none
  decide ((ks.filter fun k => decide (2 ≤ k)).length ≤ 3) && ks.all fun k => decide (k ≤ 4)

/-- The pattern table is legal for the wheel's role and EDGE (R83, R85). -/
def State.tableLegal (s : State) (n : Nat) : Bool :=
  let c := s.teeth n
  let es := (List.range c).map fun i => s.patEntry n i
  let edge := s.fld (WHL_CFG n) WHL_CFG_EDGE
  match s.role n with
  | 0 =>
    let here := (List.range c).filter fun i => s.present n i
    decide (2 ≤ c ∧ c ≤ 4096 ∧ 2 ≤ here.length) && s.present n 0 && s.gapsLegal n && (here.length == c || !s.present n (c - 1))
  | 1 =>
    decide (1 ≤ c ∧ c ≤ 4096)
    && (List.range (c - 1)).all (fun i => decide (es.getD i 0 % 4096 < es.getD (i + 1) 0 % 4096))
    && (if edge = 1 then es.all fun e => e / 4096 % 2 == 1
        else if edge = 2 then es.all fun e => e / 4096 % 2 == 0
        else (List.range (c - 1)).all (fun i => es.getD i 0 / 4096 % 2 != es.getD (i + 1) 0 / 4096 % 2)
          && es.getD (c - 1) 0 / 4096 % 2 != es.getD 0 0 / 4096 % 2)
  | _ => decide (2 ≤ c)

/-! ### Registers of WHL (R98 to R102) -/

/-- The unit whose RWC fields a write touches is enabled (R98). -/
def State.whlLocked (s : State) (addr : Nat) : Bool :=
  let o := addr % 0x10000
  if 0x40 ≤ o ∧ o < 0x80 then s.fld (WHL_ECFG ((o - 0x40) / 0x20)) WHL_ECFG_EN == 1
  else if 0x100 ≤ o ∧ o < 0x280 then s.bit WHL_CTRL ((o - 0x100) / 0x40)
  else false

/-- An enabled echo generator uses the pattern table in FOLLOW or SYNTH mode (R87). -/
def State.tableInUse (s : State) (n : Nat) : Bool :=
  [0, 1].any fun k => s.fld (WHL_ECFG k) WHL_ECFG_EN == 1 && s.fld (WHL_ECFG k) WHL_ECFG_MODE != 0
    && s.fld (WHL_ECFG k) WHL_ECFG_SRC == n

/-- A table entry is legal for the wheel's role (R102). -/
def entryLegal (role e : Nat) : Bool := if role = 0 then decide (e < 2) else if role = 1 then decide (e < 8192) else true

/-- The conditions of R100 on a write to WHL_ECFGk, the source table given. -/
def State.ecfgLegal (s : State) (k : Nat) (w : Word) : Bool :=
  let en := WHL_ECFG_EN.get w == 1
  let mode := WHL_ECFG_MODE.get w
  let src := WHL_ECFG_SRC.get w
  let other := 1 - k
  (!en || mode == 0 || (decide (src ≤ 5) && s.role src != 2 && s.tableLegal src))
  && (WHL_ECFG_NOPIN.get w == 1 || !(s.fld (WHL_ECFG other) WHL_ECFG_EN == 1 && s.fld (WHL_ECFG other) WHL_ECFG_NOPIN == 0)
      || WHL_ECFG_PIN.get w != s.fld (WHL_ECFG other) WHL_ECFG_PIN)
  && (WHL_ECFG_SHARE.get w == 0 || (k == 1 && mode == 2))
  && !(en && mode == 0 && s.fld (WHL_CFG src) WHL_CFG_SRC == k + 1)

/-- The conditions of R86, R87, R96 and R100 to R102. -/
def State.whlLegal (s : State) (addr : Nat) (w : Word) : Bool :=
  let o := addr % 0x10000
  let k := (o - 0x40) / 0x20
  let n := (o - 0x100) / 0x40
  if addr = WHL_CTRL then (List.range 6).all fun n => !bitOf w n || s.tableLegal n
  else if 0x40 ≤ o ∧ o < 0x80 ∧ addr = WHL_ECFG k then s.ecfgLegal k w
  else if 0x100 ≤ o ∧ o < 0x280 then
    if addr = WHL_CFG n then
      let src := WHL_CFG_SRC.get w
      (WHL_CFG_ROLE.get w != 0 || decide (WHL_CFG_EDGE.get w ≤ 2)) && (WHL_CFG_DIREN.get w == 0 || WHL_CFG_MODE.get w == 1)
      && (src == 0 || !(s.fld (WHL_ECFG (src - 1)) WHL_ECFG_EN == 1 && s.fld (WHL_ECFG (src - 1)) WHL_ECFG_MODE == 0
            && s.fld (WHL_ECFG (src - 1)) WHL_ECFG_SRC == n))
    else if addr = WHL_TEETH n then s.role n == 1 || decide (2 ≤ WHL_TEETH_COUNT.get w)
    else true
  else if 0x4000 ≤ o then
    let n := (o - 0x4000) / 0x2000
    !s.bit WHL_CTRL n && !s.tableInUse n && entryLegal (s.role n) (w.toNat % 65536) && entryLegal (s.role n) (w.toNat / 65536)
  else true

/-- A write to a register of WHL. -/
def State.whlWrite (s : State) (addr : Nat) (w : Word) : State :=
  let o := addr % 0x10000
  let k := (o - 0x40) / 0x20
  s.writeWith addr w (s.whlLocked addr) (s.whlLegal addr w) fun t =>
    if addr = WHL_CTRL then
      (List.range 6).foldl (fun u n =>
        if !s.bit WHL_CTRL n && t.bit WHL_CTRL n then u.enableWheel n
        else if s.bit WHL_CTRL n && !t.bit WHL_CTRL n then u.disableWheel n else u) t
    else if addr = WHL_CLR then (List.range 6).foldl (fun u n => if bitOf w n then u.setReg (WHL_CNT n) 0 else u) t
    else if 0x40 ≤ o ∧ o < 0x80 ∧ addr = WHL_ECFG k then
      let was := s.fld (WHL_ECFG k) WHL_ECFG_EN
      let is := t.fld (WHL_ECFG k) WHL_ECFG_EN
      if was = 0 ∧ is = 1 then t.echoEnable k else if was = 1 ∧ is = 0 then t.echoDisable k
      else if t.echoPinned k then t.echoLevel k (t.echoOf k).level else t
    else t

/-! ### Commands -/

/-- `VR_HALF_WAVE` (R63): a half-wave of a polarity ends with a peak in 10 mV. The peak is remembered for the next threshold; an
armed half-wave gives its zero crossing, which EDGE selects (R62, R64). -/
def execVrHalfWave (n : Fin 6) (positive : Bool) (peak : Nat) (s : State) : Host.Outcome State Fault Refusal :=
  if s.fld (WHL_CFG n) WHL_CFG_MODE ≠ 0 ∨ s.fld (WHL_CFG n) WHL_CFG_SRC ≠ 0 then .next s
  else
    let h := s.whlOf n
    let prev := if positive then h.peakP else h.peakN
    let floor := s.fld (WHL_VR n) WHL_VR_FLOOR
    let edge := s.fld (WHL_CFG n) WHL_CFG_EDGE
    let arms := decide (floor ≤ peak) && decide (s.fld (WHL_VR n) WHL_VR_FRAC * prev ≤ 16 * peak)
      && (if positive then edge == 2 || edge == 3 else edge == 1 || edge == 3)
    let s1 := (s.updWhl n fun h => if positive then { h with peakP := peak } else { h with peakN := peak }).setFld (WHL_PK n)
      (if positive then WHL_PK_PPK else WHL_PK_NPK) (capAt 511 peak)
    if !arms then .next s1
    else
      let s2 := if peak < 2 * floor then s1.raise WHL_EVT (WHL_EVT_AMP n) else s1
      if edge = 3 then .next (s2.detect n (!positive))
      else .next (s2.updWhl n fun h => { h with det := !positive, detAt := s.now, detAng := s.angW, vrEdge := true })

/-- `HALL_THRESHOLD_CROSSING` (R65): a Hall-mode input crosses its upper (`up`) or lower threshold. -/
def execHallThresholdCrossing (n : Fin 6) (up : Bool) (s : State) : Host.Outcome State Fault Refusal :=
  .next (if s.fld (WHL_CFG n) WHL_CFG_MODE = 1 ∧ s.fld (WHL_CFG n) WHL_CFG_SRC = 0 then s.detect n up else s)

/-- `EDGE_FILTER_PASS` (R67): the detected level of wheel `n` has held for FILT clocks and becomes the filtered level; an edge of
the selected direction is checked against R71 and classed. -/
def execEdgeFilterPass (n : Fin 6) (s : State) : Host.Outcome State Fault Refusal :=
  let h := s.whlOf n
  let sel := edgeSelected (s.fld (WHL_CFG n) WHL_CFG_EDGE) h.det
  if !s.filterPasses n || (!sel && h.dirPend.isSome) then .next s
  else
    let s1 := (s.setBit WHL_STAT n h.det).updWhl n fun h => { h with vrEdge := false }
    .next (if sel then s1.selectedEdge n { stamp := h.detAt, angle := h.detAng, level := h.det } else s1)

/-- `DIRECTION_PULSE_END` (R73): the opposite edge ends the measured pulse; its width tags the tooth and the stamp is delivered. -/
def execDirectionPulseEnd (n : Fin 6) (s : State) : Host.Outcome State Fault Refusal :=
  let h := s.whlOf n
  match h.dirPend with
  | none => .next s
  | some e =>
    if !s.filterPasses n || edgeSelected (s.fld (WHL_CFG n) WHL_CFG_EDGE) h.det then .next s
    else
      let rev := decide (16 * s.fld (WHL_DIR n) WHL_DIR_THR ≤ h.detAt - e.stamp)
      .next (((s.setBit WHL_STAT n h.det).updWhl n fun h => { h with dirPend := none }).deliver n { e with rev := rev })

/-- `TOOTH_DELIVERY` (R78): the accepted stamp of wheel `n` is delivered. -/
def execToothDelivery (n : Fin 6) (s : State) : Host.Outcome State Fault Refusal :=
  match (s.whlOf n).await with
  | some e => .next (s.deliver n e)
  | none => .next s

/-- `WINDOW_CLOSE` (R78): the window of wheel `n` closes with no edge. -/
def execWindowClose (n : Fin 6) (s : State) : Host.Outcome State Fault Refusal :=
  let h := s.whlOf n
  match h.ref, h.pred with
  | some r, some p =>
    if h.st = .windowed ∧ h.await = none ∧ h.dirPend = none ∧ h.hi * p ≤ (s.now - r) * 256 * 20 then
      let s1 := ((s.count (WHL_CNT n) WHL_CNT_MISS 1).raise WHL_EVT (WHL_EVT_MISS n)).logTooth n 2 s.now false h.ref h.pred
        (s.expectedSlot n)
      .next (if s.role n = 2 then s1.updWhl n fun h => { h with ref := some (r + roundDivN p 256) }
        else if s.isSource n then s1.sourceMissing else s1)
    else .next s
  | _, _ => .next s

/-- `WHEEL_TIMEOUT` (R77): the smaller of 4 x P and 500 ms has passed since the last accepted tooth. -/
def execWheelTimeout (n : Fin 6) (s : State) : Host.Outcome State Fault Refusal :=
  let h := s.whlOf n
  let due := decide (h.tmoFrom + halfSecond ≤ s.now)
    || (match h.pred with | some p => decide (p ≤ 64 * (s.now - h.tmoFrom)) | none => false)
  if s.windowed n && (h.st == .free || h.st == .windowed) && h.await.isNone && h.dirPend.isNone && due then
    let s1 := (s.raise WHL_EVT (WHL_EVT_STALL n)).logTooth n 3 s.now false h.ref h.pred (s.expectedSlot n)
    let s2 := (s1.setWhlState n fun h => { h with st := .stalled, pred := none }).setReg (WHL_PRED n) 0
    .next (if s.isSource n then s2.sourceStall else if s.isSecondary n then s2.secLose.secReset else s2)
  else .next s

/-- `WHEEL_ENABLE` (R78): a write to WHL_CTRL that sets EN bits. -/
def execWheelEnable (w : Word) (s : State) : Host.Outcome State Fault Refusal := .next (s.whlWrite WHL_CTRL w)

/-- `WHEEL_DISABLE` (R78): a write to WHL_CTRL that clears EN bits. -/
def execWheelDisable (w : Word) (s : State) : Host.Outcome State Fault Refusal := .next (s.whlWrite WHL_CTRL w)

/-- `WHL_CLR_CNT` (R99): the counters of the named wheels are cleared. -/
def execWhlClrCnt (wheels : BitVec 6) (s : State) : Host.Outcome State Fault Refusal :=
  .next (s.whlWrite WHL_CLR (wheels.setWidth 32))

/-- A read of WHL_SLOTL returns the slot counter's low word and latches bits [47:32] into WHL_SLOTH (R99). -/
def State.slotlRead (s : State) : State × Word :=
  (s.setReg WHL_SLOTH (BitVec.ofNat 32 (s.slot.toNat / 2 ^ 32)), s.slotW)

/-- `WHL_SLOTL_READ` (R99). -/
def execWhlSlotlRead (s : State) : Host.Outcome State Fault Refusal :=
  .next (s.slotlRead.1.respond s.slotlRead.2 false)

/-- `ECHO_ENABLE` (R90): a write to WHL_ECFGk that sets EN. -/
def execEchoEnable (k : Fin 2) (w : Word) (s : State) : Host.Outcome State Fault Refusal := .next (s.whlWrite (WHL_ECFG k) w)

/-- `ECHO_DISABLE` (R95): a write to WHL_ECFGk that clears EN. -/
def execEchoDisable (k : Fin 2) (w : Word) (s : State) : Host.Outcome State Fault Refusal := .next (s.whlWrite (WHL_ECFG k) w)

end Sys2Proof.Machine
end

