-- ==== Sys2Proof/Machine/Bus.lean ====
section
/-! DEFINITION. The fabric: reads and writes of the bus masters over the address map (R37 to R41, R227, R287), and the rows that are
plain accesses of it. -/

namespace Sys2Proof.Machine

/-- How the bus answers an access: done, refused with a bus error, or with data that an uncorrectable word made unusable. -/
inductive BusRes where
  | ok | refused | bad
  deriving DecidableEq, Repr

/-- An access refused under R38: the fabric sends a C-class message with the address. -/
def State.busError (s : State) (a : Nat) : State := s.sendFault blkFABRIC 0 0x07 clsC a

/-! ### Register reads -/

/-- Reads of OBS registers: OBS_ANG latches OBS_ANGT; OBS_STATE shows the grade. -/
def State.readObs (s : State) (a : Nat) : State × Word :=
  if a = OBS_ANG then s.obsAngRead
  else if a = OBS_SPEED then (s, BitVec.ofNat 32 s.speed)
  else if a = OBS_STATE then (s, OBS_STATE_GRADE.set (s.reg OBS_STATE) s.grade)
  else (s, s.reg a)

/-- Reads of WHL registers: WHL_SLOTL latches WHL_SLOTH; WHL_EANGk is the synthetic angle. -/
def State.readWhl (s : State) (a : Nat) : State × Word :=
  if a = WHL_SLOTL then s.slotlRead
  else if a = WHL_EANG 0 then (s, s.echoAngRead 0)
  else if a = WHL_EANG 1 then (s, s.echoAngRead 1)
  else (s, s.reg a)

/-- Reads of AEN registers: AEN_TPCn is the thread's present pc. -/
def State.readAen (s : State) (a : Nat) : Word :=
  let o := a % 0x10000
  if 0x1000 ≤ o ∧ o < 0x2000 ∧ o % 0x40 = 0x04 then (s.thr ((o - 0x1000) / 0x40)).pc else s.reg a

/-- Reads of INJ registers: INJ_DUTYn.SUM is the on-time in the window in 100 µs. -/
def State.readInj (s : State) (a : Nat) : Word :=
  let o := a % 0x10000
  let n := (o - 0x100) / 0x20
  if 0x100 ≤ o ∧ o < 0x280 ∧ a = INJ_DUTY n then INJ_DUTY_SUM.set (s.reg a) (s.dutySum n / 40000) else s.reg a

/-- Reads of PWM registers: PWM_CNTn holds count and direction. -/
def State.readPwm (s : State) (a : Nat) : Word :=
  let o := a % 0x10000
  let n := (o - 0x100) / 0x40
  if 0x100 ≤ o ∧ a = PWM_CNT n then
    PWM_CNT_DOWN.set (PWM_CNT_CNT.set (s.reg a) (s.pwmCount n).1) (b2n (s.pwmCount n).2)
  else s.reg a

/-- Reads of ETH registers: the clock (R541). -/
def State.readEth (s : State) (a : Nat) : Word :=
  if a = ETH_PSECL ∨ a = ETH_PSECH ∨ a = ETH_PNS then s.ethClockRead a else s.reg a

/-- Reads of HMK registers: the store (R606). -/
def State.readHmk (s : State) (a : Nat) : Word := (s.hmkStore (a % 0x10000)).getD (s.reg a)

/-- A read of a register by master `m`: the state after it, the word, and whether it is answered with a bus error. Registers of
no field, reserved offsets and write-only fields read 0 (R12; log 9). -/
def State.readRegister (s : State) (m : Master) (a : Nat) : State × Word × Bool :=
  let plain : Word → State × Word × Bool := fun w => (s, w, false)
  let eff : State × Word → State × Word × Bool := fun r => (r.1, r.2, false)
  match blkOf a with
  | 0 => if a = SYS_RTCL then eff s.rtclRead else plain (s.reg a)
  | 3 =>
    let t := (a - IRQ_CLAIM 0) / 0x10
    if IRQ_CLAIM 0 ≤ a ∧ t < 4 ∧ a = IRQ_CLAIM t then s.claimRead m t else plain (s.reg a)
  | 5 => eff (s.readWhl a)
  | 6 => eff (s.readObs a)
  | 8 => plain (s.readAen a)
  | 10 => plain (s.readInj a)
  | 11 => plain (s.readPwm a)
  | 15 => plain (if a = CMB_ASTAT then s.cmbAstat else s.reg a)
  | 17 => plain (s.readEth a)
  | 20 => if a = LKT_TSECL then eff s.tseclRead else plain (s.reg a)
  | 21 => plain (s.readHmk a)
  | _ => plain (s.reg a)

/-! ### Register writes -/

/-- A write to a register of AEN: trim requests, envelopes and their lock apart. -/
def State.writeAen (s : State) (m : Master) (a : Nat) (w : Word) : State × Bool :=
  let o := a % 0x10000
  if a = AEN_ELOCK then (s.elockWrite w, true)
  else if 0x4000 ≤ o ∧ o < 0x6000 then (if o % 0x10 = 0 then (s.trimWritePolicy m ((o - 0x4000) / 0x10) w, true) else (s, true))
  else if 0x6000 ≤ o ∧ o < 0x8000 then (if o % 0x10 < 0x0C then s.envelopeWrite a w else (s, true))
  else (s.aenWrite a w, true)

/-- A write to a region register: only by its own target at level S; any other is refused with a bus error and a message (R287). -/
def State.writeRegion (s : State) (m : Master) (a : Nat) (w : Word) : State × Bool :=
  if s.targetAtS m = some ((a % 0x10000 - 0x2000) / 0x100) then (s.writeWith a w false true fun t => t, true)
  else (s.sendFault blkQUE 0 0x07 clsC a, false)

/-- A write to a register of QUE. -/
def State.writeQue (s : State) (m : Master) (a : Nat) (w : Word) (ecc : Ecc) : State × Bool :=
  let o := a % 0x10000
  let by_ : Option Nat := match m with
    | .pair t => some t
    | .thread _ | .dma _ | .loupe | .spi => none
  if 0x2000 ≤ o ∧ o < 0x2400 then s.writeRegion m a w
  else if 0x100 ≤ o ∧ o < 0x500 then (s.queueWrite a w, true)
  else if 0x800 ≤ o ∧ o < 0x880 then (s.portWrite a w, true)
  else (s.queWrite by_ a w ecc, true)

/-- A write of a register by master `m`: the state after it and whether the bus took it. A write refused under R13 is no bus
error. `ecc` is what the code of a word read for the command shows. -/
def State.writeRegister (s : State) (m : Master) (a : Nat) (w : Word) (ecc : Ecc) : State × Bool :=
  match blkOf a with
  | 0 => (s.sysWrite 0 a w, true)
  | 1 => (s.fltWrite a w, true)
  | 2 => (s.budWrite a w, true)
  | 3 => (s.irqWrite m a w, true)
  | 4 => (s.tmrWrite a w, true)
  | 5 => (s.whlWrite a w, true)
  | 6 => (s.obsWrite a w, true)
  | 7 => (s.calWrite a w, true)
  | 8 => s.writeAen m a w
  | 9 => (s.outWrite a w, true)
  | 10 => (s.injWrite a w, true)
  | 11 => (s.pwmWrite a w, true)
  | 12 => (s.cmpWrite a w, true)
  | 13 => (s.fadcWrite a w, true)
  | 14 => (s.padcWrite a w, true)
  | 15 => (s.cmbWrite a w, true)
  | 16 => (s.chnWrite a w, true)
  | 17 => (s.ethWrite a w, true)
  | 18 => (s.canWrite a w, true)
  | 19 => (s.spiWrite a w, true)
  | 20 => (s.lktWrite a w, true)
  | 21 => (s.hmkWrite a w, true)
  | 22 => s.writeQue m a w ecc
  | _ => (s.dbgWrite (s.targetAtS m) a w, true)

/-! ### Accesses -/

/-- A read of `n` bytes at an address of R37, naturally aligned, by master `m`; `ecc` is what the code of the word shows. A register
block takes word accesses alone (R227). The data is the value of the bytes, little-endian. -/
def State.busRead (s : State) (m : Master) (a n : Nat) (ecc : Ecc) : State × Nat × BusRes :=
  match regionOf a with
  | .rom => (s, ofBytes (s.rdBytes a n), .ok)
  | .mem x =>
    let r := s.eccRead x a n ecc
    if r.2 then (r.1, 0, .bad) else (r.1, ofBytes (s.rdBytes a n), .ok)
  | .regs =>
    if n = 4 then
      let r := s.readRegister m a
      (r.1, if r.2.2 then 0 else r.2.1.toNat, if r.2.2 then .refused else .ok)
    else (s.busError a, 0, .refused)
  | .none => (s.busError a, 0, .refused)

/-- The calendar owns the SRAM bytes: they lie in its descriptor area while it is enabled (R178, R179). -/
def State.calOwns (s : State) (a n : Nat) : Bool :=
  let base := s.fld CAL_BASE CAL_BASE_BASE * 2 ^ 21
  s.fld CAL_CTRL CAL_CTRL_EN == 1 && decide (base < a + n ∧ a < base + 2 ^ 21)

/-- A write of bytes at an address of R37, naturally aligned, by master `m`. -/
def State.busWrite (s : State) (m : Master) (a : Nat) (bytes : List Byte) (ecc : Ecc) : State × BusRes :=
  let n := bytes.length
  match regionOf a with
  | .mem .sram =>
    if s.calOwns a n then (s.busError a, .refused) else ((s.eccStore .sram a n ecc).wrBytes a bytes, .ok)
  | .mem (.data e) => ((s.eccStore (.data e) a n ecc).wrBytes a bytes, .ok)
  | .mem (.code e) =>
    if s.codeProtected e (a % 0x100000) then ((s.codeWrite e (a % 0x100000) bytes).1, .refused)
    else (((s.eccStore (.code e) a n ecc).codeWrite e (a % 0x100000) bytes).1, .ok)
  | .regs =>
    if n = 4 then
      let r := s.writeRegister m a (BitVec.ofNat 32 (ofBytes bytes)) ecc
      (r.1, if r.2 then .ok else .refused)
    else (s.busError a, .refused)
  | .rom | .mem .mram | .mem (.imem _) | .mem (.dmem _) | .none => (s.busError a, .refused)

/-- `REGISTER_WRITE` (R40): master `m` writes the word at `addr` in a register block; the word's address has bits [1:0] = 0. -/
def execRegisterWrite (m : Master) (addr : BitVec 30) (w : Word) (s : State) : Host.Outcome State Fault Refusal :=
  let a := 4 * addr.toNat
  .next (if regionOf a = .regs then (s.busWrite m a (toBytes 4 w.toNat) .clean).1 else s.busError a)

/-! ### DMA (R298 to R302) -/

/-- FABRIC carats of an access: SRAM alone is metered (R494). -/
def sramBeats (a : Nat) : Nat := if regionOf a = .mem .sram then 1 else 0

/-- Addresses of the element a channel is at. -/
def State.dmaAt (s : State) (c : Nat) : Nat × Nat :=
  let x := s.dmaOf c
  (dmaSrc x.desc + (if dmaBit x.desc 26 then x.done else 0), dmaDst x.desc + (if dmaBit x.desc 27 then x.done else 0))

/-- The element is counted as moved. -/
def State.dmaMoved (s : State) (c : Nat) : State :=
  let z := dmaSize (s.dmaOf c).desc
  let s1 := s.updDma c fun x => { x with done := x.done + z }
  let s2 := s1.setReg (QUE_DREM c) (BitVec.ofNat 32 (dmaLen (s1.dmaOf c).desc - (s1.dmaOf c).done))
  if dmaLen (s1.dmaOf c).desc ≤ (s1.dmaOf c).done then s2.dmaComplete c else s2

/-- `DMA_ELEMENT_DONE` (R298, R299): channel `c` in RUN moves one element. Its SRAM beats are charged to the channel's account; with
none left the element waits (R502). -/
def execDmaElementDone (c : Fin 16) (src dst : Ecc) (s : State) : Host.Outcome State Fault Refusal :=
  if s.dmaState c ≠ dmRUN then .next s
  else
    let at_ := s.dmaAt c
    let z := dmaSize (s.dmaOf c).desc
    let need := sramBeats at_.1 + sramBeats at_.2
    if !s.budHas (s.dmaAcct c) resFABRIC need then .next (s.budStarve (s.dmaAcct c) resFABRIC)
    else
      let s1 := s.budDraw (s.dmaAcct c) resFABRIC need
      let r := s1.busRead (.dma c) at_.1 z src
      match r.2.2 with
      | .refused => .next (r.1.dmaError c 2)
      | .bad => .next (r.1.dmaError c 3)
      | .ok =>
        let q := r.1.busWrite (.dma c) at_.2 (toBytes z r.2.1) dst
        match q.2 with
        | .ok => .next (q.1.dmaMoved c)
        | .refused | .bad => .next (q.1.dmaError c 2)

end Sys2Proof.Machine
end

