-- ==== Sys2Proof/Machine/Deliver.lean ====
section
/-! DEFINITION. The crossings between islands: what an item does where it arrives, the budget frame pulse, and crossings that fail
(R22 to R29, R503, R567). -/

namespace Sys2Proof.Machine

/-! ### Generations not in force (R567) -/

/-- A block with an APPLIED register: CTRL, APPLIED, its GEN field, its event register, the bits of APPLY in it. -/
structure ApplyReg where
  ctrl : Nat
  applied : Nat
  evt  : Nat
  bits : List Nat
  deriving DecidableEq, Repr

/-- The blocks with an APPLIED register that a frame pulse reaches in an island. -/
def applyRegs (i : Island) : List ApplyReg :=
  match i with
  | .drive => [⟨INJ_CTRL, INJ_APPLIED, INJ_EVT, [INJ_EVT_APPLY]⟩, ⟨PWM_CTRL, PWM_APPLIED, PWM_EVT, [PWM_EVT_APPLY]⟩]
  | .combustion => [⟨CMB_CTRL, CMB_APPLIED, CMB_EVT, [CMB_EVT_APPLY]⟩]
  | .link => [⟨CHN_CTRL, CHN_APPLIED, CHN_EVT, [CHN_EVT_APPLY]⟩, ⟨ETH_CTRL, ETH_APPLIED, ETH_EVT, [ETH_EVT_APPLY]⟩,
      ⟨CAN_CTRL, CAN_APPLIED, CAN_EVT, [CAN_EVT_APPLY 0, CAN_EVT_APPLY 1]⟩, ⟨SPI_CTRL, SPI_APPLIED, SPI_EVT, [SPI_EVT_APPLY]⟩]
  | .angle | .policy | .fabric | .converter | .timer | .guard => []

/-- The generation of a CTRL or APPLIED word: bits [23:16] in every block. -/
def genOf (w : Word) : Nat := w.toNat / 65536 % 256

/-- The state with the note about a CTRL register changed. -/
def State.noteApply (s : State) (k : Nat) (v : Option (Word × Bool)) : State :=
  let rest := s.flt.apply.filter fun x => x.1 != k
  { s with flt := { s.flt with apply := match v with
    | some (w, sent) => (k, w, sent) :: rest
    | none => rest } }

/-- One APPLY message with its event; the drive island pulses ALRT_N for its own (R385). -/
def State.applyMessage (s : State) (r : ApplyReg) : State :=
  let s1 : State := r.bits.foldl (fun t b => t.raise r.evt b) s
  let s2 := s1.sendFault (blkOf r.ctrl) 0 0x02 clsC (genOf (s.reg r.ctrl) + 256 * genOf (s.reg r.applied))
  if r.ctrl = INJ_CTRL then s2.alrt INJ_EVT_APPLY false false else if r.ctrl = PWM_CTRL then s2.alrt 30 false false else s2

/-- A frame pulse compares the generation requested with the one in force; a difference seen at two pulses with the same request is
reported once (R567). -/
def State.applyCheck (s : State) (r : ApplyReg) : State :=
  let w := s.reg r.ctrl
  if genOf w = genOf (s.reg r.applied) then s.noteApply r.ctrl none
  else match s.flt.apply.find? fun x => x.1 == r.ctrl with
    | some (_, v, sent) =>
      if v ≠ w then s.noteApply r.ctrl (some (w, false))
      else if sent then s else (s.noteApply r.ctrl (some (w, true))).applyMessage r
    | none => s.noteApply r.ctrl (some (w, false))

/-! ### The frame pulse (R29, R503) -/

/-- The frame pulse reaches an island: its meters close the frame, stalled threads are released, shadows have one pulse less, and
generations are compared. -/
def State.pulseAt (s : State) (i : Island) : State :=
  match i with
  | .fabric => s.closeFrame .fabric
  | .angle => (s.closeFrame .angle).releaseStalled
  | .converter => s.closeFrame .converter
  | .link => (applyRegs .link).foldl State.applyCheck (s.closeFrame .link)
  | .guard =>
    let t := s.shadowPulse
    { t with frameNo := vupd t.frameNo (islandCode .guard) (· + 1) }
  | .combustion => (applyRegs .combustion).foldl State.applyCheck s
  | .drive => (applyRegs .drive).foldl State.applyCheck s
  | .policy | .timer => s

/-- `BUDGET_FRAME_PULSE` (R29): 4,096 fabric clocks have passed since the last pulse; nothing crosses a lost die-to-die link. -/
def execBudgetFramePulse (s : State) : Host.Outcome State Fault Refusal :=
  if s.sys.mode != .sleep && decide (s.fabric.pulseAt + 4096 ≤ s.now) then
    let s1 := s.updFabric fun x => { x with pulseAt := s.now }
    let dest : List Island := [.fabric, .angle, .link, .converter, .guard, .combustion] ++ if s.linkOk then [.drive] else []
    .next (dest.foldl (fun t i => t.launch .fabric i .pulse) s1)
  else .next s

/-- `FRAME_PULSE_AT_METER` (R503): the oldest item from the fabric into an island, if it is the frame pulse. -/
def execFramePulseAtMeter (i : Island) (s : State) : Host.Outcome State Fault Refusal :=
  match s.nextItem .fabric i with
  | some .pulse => .next ((s.ackItem .fabric i).pulseAt i)
  | _ => .next s

/-! ### Delivery (R23 to R26) -/

/-- A pulse of trigger line `k` reaches the consumers of an island (R344, R402, R541). -/
def State.lineAt (s : State) (i : Island) (k : Nat) : State :=
  match i with
  | .angle => s.hwEvent (0x10 + k)
  | .fabric => s.dmaLine k
  | .converter => s.fadcLine k
  | .timer =>
    (List.range 16).foldl (fun t n =>
      let t1 := if t.fld (TMR_CFG n) TMR_CFG_STRT = k then t.tmrStart n else t
      if t1.fld (TMR_CCFG n) TMR_CCFG_CSRC = k + 1 then t1.tmrCapture n (t1.reg (TMR_CNT n)) else t1) s
  | .drive => s.commutateLine k
  | .link => s.ethTrigger k
  | .policy | .combustion | .guard => s

/-- An item arrives in an island. -/
def State.arrive (s : State) (i : Island) (b : Body) : State :=
  match b with
  | .fault m => s.decideMsg m
  | .irq n c p => s.takeIrq n c p
  | .extDone x => s.extDone x
  | .trigger k => s.lineAt i k
  | .hwEvent sel => s.hwEvent sel
  | .injStart ch p ts tmin => s.takeStart ch p ts tmin
  | .injEnd ch te fast => s.takeEnd ch te (!fast)
  | .drv k c sl v ca d f te q tr => s.takeReportOf k c sl v ca d f te q tr
  | .sample n slot _ w2 w3 => s.takeSample n slot w2 w3
  | .sampleMiss n a slot w2 w3 => s.takeMissing n a slot w2 w3
  | .cmbSample c res angle slot _ => s.cmbTake c res angle slot
  | .pwmSafe m => s.pwmSafeMask m
  | .ramp k b => s.takeRamp k b
  | .pulse => s.pulseAt i
  | .budReport n es => s.takeReport n es

/-- `CROSSING_DELIVERY` (R23, R26): the oldest item of a crossing arrives. An illegal dual-rail code has it discarded unacknowledged
and reported; the source still holds it. -/
def execCrossingDelivery (src dst : Island) (good : Bool) (s : State) : Host.Outcome State Fault Refusal :=
  match s.nextItem src dst with
  | none => .next s
  | some b =>
    .next (if good then (s.ackItem src dst).arrive dst b
      else s.sendFaultFrom dst blkCROSS (islandCode dst) 0x09 clsU (islandCode src))

/-- `STUCK` (R25): a handshake is not complete 1.024 µs after launch; the source keeps the item. -/
def execStuck (src dst : Island) (s : State) : Host.Outcome State Fault Refusal :=
  .next (if (firstItem src dst s.inflight).isSome
    then s.sendFaultFrom dst blkCROSS (islandCode dst) 0x08 clsU (islandCode src) else s)

end Sys2Proof.Machine
end

