-- ==== Sys2Proof/Machine/Boot.lean ====
section
/-! DEFINITION. The boot ROM: control records, images, the choice of slots, loading, RECOVERY and pair restarts (R282, R306 to R311). -/

namespace Sys2Proof.Machine

/-! ### Slots and control records (R290, R309, R310) -/

/-- Base and size of a slot: code A and B, calibration C0 and C1. -/
def slotBase (cal : Bool) (i : Nat) : Nat :=
  if cal then (if i = 0 then 0x10380000 else 0x103A0000) else (if i = 0 then 0x10000000 else 0x101C0000)
def slotSize (cal : Bool) : Nat := if cal then 127 * 1024 else 1792 * 1024

/-- The QUE_MPROT bit of a slot (R290). -/
def slotProt (cal : Bool) (i : Nat) : Nat :=
  if cal then (if i = 0 then QUE_MPROT_C0 else QUE_MPROT_C1) else (if i = 0 then QUE_MPROT_A else QUE_MPROT_B)

/-- The boot control pages. -/
def ctlPage (i : Nat) : Nat := if i = 0 then 0x1039FC00 else 0x103BFC00

/-- A boot control record (R309). -/
structure CtlRec where
  seq : Nat := 0
  active  : Nat := 0
  try_    : Nat := 0
  tried   : Bool := false
  cactive : Nat := 0
  ctry    : Nat := 0
  ctried  : Bool := false
  deriving DecidableEq, Repr

/-- The record that 32 bytes hold, where their CRC is right. -/
def ctlOf (l : List Byte) : Option CtlRec :=
  let f := field l 4 2
  if field l 28 4 == crc32 (l.take 28) then
    some { seq := field l 0 4, active := f % 2, try_ := f / 2 % 4, tried := f.testBit 3, cactive := f / 16 % 2, ctry := f / 32 % 4,
           ctried := f.testBit 7 }
  else none

/-- The bytes of a record. -/
def CtlRec.bytes (c : CtlRec) : List Byte :=
  let f := c.active + 2 * c.try_ + 8 * b2n c.tried + 16 * c.cactive + 32 * c.ctry + 128 * b2n c.ctried
  let l := toBytes 4 c.seq ++ toBytes 1 f ++ List.replicate 23 0
  l ++ toBytes 4 (crc32 l)

/-- The record on page `i`. -/
def State.ctlAt (s : State) (i : Nat) : Option CtlRec := ctlOf (s.rdBytes (ctlPage i) 32)

/-- The valid record with the higher SEQ; with neither valid ACTIVE = A, CACTIVE = C0, no TRY (R306). -/
def State.ctlRec (s : State) : CtlRec :=
  match s.ctlAt 0, s.ctlAt 1 with
  | some a, some b => if a.seq < b.seq then b else a
  | some a, none => a
  | none, some b => b
  | none, none => {}

/-- The page whose copy is written over: the one with the lower SEQ, or without a valid record (R310). -/
def State.ctlOld (s : State) : Nat :=
  match s.ctlAt 0, s.ctlAt 1 with
  | some a, some b => if a.seq < b.seq then 0 else 1
  | some _, none => 1
  | none, _ => 0

/-- A record is written with SEQ + 1. -/
def State.ctlWrite (s : State) (c : CtlRec) : State :=
  s.wrBytes (ctlPage s.ctlOld) (CtlRec.bytes { c with seq := (s.ctlRec.seq + 1) % 2 ^ 32 })

/-- The slot to boot under R310, after the record it writes, and whether it reverts. -/
def State.chooseSlot (s : State) (cal : Bool) : State × Nat × Bool :=
  let c := s.ctlRec
  let tr := if cal then c.ctry else c.try_
  let done := if cal then c.ctried else c.tried
  let act := if cal then c.cactive else c.active
  if tr = 1 ∨ tr = 2 then
    if done then
      (s.ctlWrite (if cal then { c with ctry := 0 } else { c with try_ := 0 }), act, true)
    else (s.ctlWrite (if cal then { c with ctried := true } else { c with tried := true }), tr - 1, false)
  else (s, act, false)

/-! ### Images (R307, R308) -/

/-- A section entry. -/
structure Sect where
  dest : Nat
  off  : Nat
  len  : Nat
  kind : Nat
  unit : Nat
  deriving DecidableEq, Repr

/-- The section entries of an image whose header stands at key `b`. -/
def State.sections (s : State) (b : Nat) : List Sect :=
  (List.range (ofBytes (s.rdBytes (b + 0x14) 4))).map fun i =>
    let e := s.rdBytes (b + 256 + 16 * i) 16
    { dest := field e 0 4, off := field e 4 4, len := field e 8 4, kind := field e 12 1, unit := field e 13 1 % 16 }

/-- The destination that holds a section: its first address and its size, where KIND has one. -/
def Sect.room (x : Sect) : Option (Nat × Nat) :=
  if x.kind = 0 then (if x.unit < 4 then some (0xF0000000, 0x10000) else none)
  else if x.kind = 1 then (if x.unit < 4 then some (0xF0010000, 0x10000) else none)
  else if x.kind = 2 then some (0x20000000, 0x800000)
  else if x.kind = 3 then (if x.unit < 2 then some (0x30000000 + 0x100000 * x.unit, 0x40000) else none)
  else if x.kind = 4 then (if x.unit < 2 then some (0x30040000 + 0x100000 * x.unit, 0x10000) else none)
  else none

/-- The key of a section's destination. -/
def Sect.key (x : Sect) : Nat := if x.kind = 0 ∨ x.kind = 1 then windowKey x.unit x.dest else x.dest

/-- The 16-byte entries of a section, as words. -/
def State.listOf (s : State) (b : Nat) (x : Sect) : List (List Word) :=
  (List.range (x.len / 16)).map fun i => s.rdWords (b + 256 + x.off + 16 * i) 4

/-- Register values are legal for the register at an address (R315, R570). -/
def regLegal (a : Nat) (w : Word) : Bool :=
  match rowFind (blockRows (blkOf a)) (a % 0x10000) with
  | some (r, _, _) => fieldsLegal r.flds w
  | none => false

/-- An entry of a trim envelope section, or of a fault reaction section, is legal. -/
def imageEntryLegal (kind : Nat) (l : List Word) : Bool :=
  let i := (l.getD 0 0).toNat
  let w := fun k => l.getD k 0
  if kind = 5 then decide (i < 512) && regLegal (AEN_ELO 0) (w 1) && regLegal (AEN_EHI 0) (w 2) && regLegal (AEN_ESL 0) (w 3)
  else decide (i < 64) && regLegal (FLT_RM 0) (w 1) && regLegal (FLT_RA 0) (w 2) && regLegal (FLT_RD 0) (w 3)
    && actionFits (w 1) (FLT_RA_ACTION.get (w 2))

/-- A section is legal in an image at key `b` with a payload of `plen` bytes. -/
def State.sectOk (s : State) (b plen : Nat) (cal : Bool) (x : Sect) : Bool :=
  let fits := decide (x.off + x.len ≤ plen)
  if x.kind ≤ 4 then
    match x.room with
    | some (a, n) => fits && decide (a ≤ x.dest ∧ x.dest + x.len ≤ a + n)
    | none => false
  else if x.kind = 5 ∨ x.kind = 7 then
    fits && cal && x.dest == 0 && x.unit == 0 && x.len % 16 == 0 && (s.listOf b x).all (imageEntryLegal x.kind)
  else x.kind == 6 && fits && decide (x.unit < 4)

/-- Every byte of a range is 0. -/
def State.zeros (s : State) (a n : Nat) : Bool := (s.rdBytes a n).all fun c => c == 0

/-- The payload's length. -/
def State.imgLen (s : State) (b : Nat) : Nat := ofBytes (s.rdBytes (b + 0x10) 4)

/-- DIGEST matches the payload. -/
def State.digestOk (s : State) (b : Nat) : Bool := s.rdBytes (b + 0x20) 32 == Config.sha256 (s.rdBytes (b + 256) (s.imgLen b))

/-- The key that signs images: the owner's once one is enrolled, otherwise the manufacturer's (R308). -/
def State.imgKey (s : State) : List Byte :=
  match s.enrolled with
  | some e => e.imgk
  | none => Config.imageKey

/-- The image at key `b`, which may take `size` bytes, passes verification (R308). -/
def State.imageOk (s : State) (b size : Nat) (cal : Bool) : Bool :=
  let w := fun o => ofBytes (s.rdBytes (b + o) 4)
  let n := w 0x14
  w 0 == 0x4C454C49 && w 4 == (if cal then 2 else 1)
    && s.zeros (b + 0x18) 8 && s.zeros (b + 0x44) 60 && s.zeros (b + 0xC0) 64
    && w 0x40 == b2n s.enrolled.isSome && decide (s.rbMin cal ≤ w 0x0C)
    && decide (1 ≤ n ∧ n ≤ 64 ∧ 16 * n ≤ s.imgLen b ∧ 256 + s.imgLen b ≤ size)
    && Config.ecdsaOk s.imgKey (s.rdBytes b 128) (s.rdBytes (b + 0x80) 64)
    && s.digestOk b && (s.sections b).all (s.sectOk b (s.imgLen b) cal)

/-- The image in a slot passes verification. -/
def State.slotOk (s : State) (cal : Bool) (i : Nat) : Bool := s.imageOk (slotBase cal i) (slotSize cal) cal

/-- The slot that is booted: the one chosen, or else the other one (R306). -/
def State.slotOf (s : State) (cal : Bool) (i : Nat) : Option Nat :=
  if s.slotOk cal i then some i else if s.slotOk cal (1 - i) then some (1 - i) else none

/-! ### Loading (R306) -/

/-- An entry of a KIND 5 or KIND 7 section goes to its registers. -/
def State.loadEntry (s : State) (kind : Nat) (l : List Word) : State :=
  let i := (l.getD 0 0).toNat
  let w := fun k => l.getD k 0
  if kind = 5 then
    (((s.envelopeWrite (AEN_ELO i) (w 1)).1.envelopeWrite (AEN_EHI i) (w 2)).1.envelopeWrite (AEN_ESL i) (w 3)).1
  else ((s.fltWrite (FLT_RM i) (w 1)).fltWrite (FLT_RA i) (w 2)).fltWrite (FLT_RD i) (w 3)

/-- A section is loaded. -/
def State.loadSect (s : State) (b : Nat) (x : Sect) : State :=
  if x.kind ≤ 4 then s.wrBytes x.key (s.rdBytes (b + 256 + x.off) x.len)
  else if x.kind = 6 then s.setPpc x.unit (BitVec.ofNat 32 x.dest)
  else (s.listOf b x).foldl (fun t l => t.loadEntry x.kind l) s

/-- The sections of an image that satisfy `p` are loaded in order. -/
def State.loadImage (s : State) (b : Nat) (p : Sect → Bool) : State :=
  ((s.sections b).filter p).foldl (fun t x => t.loadSect b x) s

/-- Pair `t` enters its entry point at level S with IE = 0. -/
def State.releasePair (s : State) (t : Nat) : State :=
  (s.setCsr t csSTATUS 2).updPair t fun x => { x with run := .run }

/-- The payload of a BOOT or REVERT record (R573). -/
def State.bootPayload (s : State) : List Byte :=
  let b := s.boot
  toBytes 1 (s.fld SYS_RCAUSE SYS_RCAUSE_CAUSE) ++ toBytes 1 b.slot ++ toBytes 1 b.cslot ++ [0] ++ toBytes 4 b.ver
    ++ toBytes 4 b.cver ++ b.digest

/-- What has been booted. -/
def State.noteBoot (s : State) (i c : Nat) : State :=
  let a := slotBase false i
  let k := slotBase true c
  { s with boot := { s.boot with
    slot := i
    cslot := c
    ver := ofBytes (s.rdBytes (a + 8) 4)
    cver := ofBytes (s.rdBytes (k + 8) 4)
    rb := ofBytes (s.rdBytes (a + 0x0C) 4)
    crb := ofBytes (s.rdBytes (k + 0x0C) 4)
    digest := s.rdBytes (a + 0x20) 8 } }

/-- RECOVERY (R311): neither slot of a kind passes. -/
def State.enterRecovery (s : State) (detail : Nat) : State :=
  (({ s with boot := { s.boot with recovery := true } } : State).setBit SPI_STAT 16 true).sendFault blkPAIR 0 0x13 clsU detail

/-- Steps 5 and 6 of R306 for the two verified slots. -/
def State.bootSlots (s : State) (i c : Nat) (reverts : Nat) : State :=
  let s1 := ((s.noteBoot i c).loadImage (slotBase false i) fun _ => true).loadImage (slotBase true c) fun _ => true
  let s2 := (s1.setFld AEN_ELOCK AEN_ELOCK_LOCK 1).setFld FLT_CTRL FLT_CTRL_LOCK 1
  let s3 := (s2.setBit QUE_MPROT (slotProt false i) true).setBit QUE_MPROT (slotProt true c) true
  let s4 : State := (List.range reverts).foldl (fun t _ => t.lktSend (t.lktStamp rtREVERT true t.bootPayload)) s3
  let s5 := s4.lktSend (s4.lktStamp rtBOOT false s4.bootPayload)
  (List.range 4).foldl State.releasePair s5

/-- The boot ROM (R306). -/
def State.runBoot (s : State) : State :=
  let s0 : State := { s with mem := s.mem.filter fun x => !(0x20000000 ≤ x.1 && x.1 < 0x20800000), boot := { s.boot with done := true } }
  let r := s0.chooseSlot false
  match r.1.slotOf false r.2.1 with
  | none => r.1.enterRecovery 1
  | some i =>
    let q := r.1.chooseSlot true
    match q.1.slotOf true q.2.1 with
    | none => q.1.enterRecovery 2
    | some c => q.1.bootSlots i c (b2n r.2.2 + b2n q.2.2)

/-- `BOOT` (R306, R311): after a reset has ended, P0 runs the boot ROM. -/
def execBootRom (s : State) : Host.Outcome State Fault Refusal :=
  .next (if s.unitRuns && !s.boot.done then s.runBoot else s)

/-- `PAIR_RESTART_DONE` (R282): the ROM has checked the digest of the image in force, reloads the target's sections and enters its
entry point; an image whose digest fails leaves the pair in the ROM. -/
def execPairRestartDone (t : Fin 4) (s : State) : Host.Outcome State Fault Refusal :=
  let b := slotBase false s.boot.slot
  if s.unitRuns && s.boot.done && !s.boot.recovery && (s.pair t).run == .boot && s.digestOk b then
    .next ((s.loadImage b fun x => x.unit == t.val && (x.kind == 0 || x.kind == 1 || x.kind == 6)).releasePair t)
  else .next s

end Sys2Proof.Machine
end

