-- ==== Sys2Proof/Machine/Gental.lean ====
section
/-! DEFINITION. How a Gental instruction is issued: its word (R216), whether it may run where it runs (R214, R215, R217), its fetch,
the budget it draws, and what an exception does on a pair and on a thread (R232, R247 to R251, R256, R257, R271, R272, R283). A
command of this family says that the agent issues that instruction at its pc; the memory's code word is not consulted. -/

namespace Sys2Proof.Machine

/-! ### Words (R216, R218) -/

/-- An R-format word. -/
def encR (op : Nat) (rd rs1 rs2 : BitVec 5) (fn : Nat) : Word :=
  BitVec.ofNat 32 (op * 2 ^ 26 + rd.toNat * 2 ^ 21 + rs1.toNat * 2 ^ 16 + rs2.toNat * 2 ^ 11 + fn)

/-- An I-format word; in the source form the first field is rt. -/
def encI (op : Nat) (rd rs1 : BitVec 5) (imm : BitVec 16) : Word :=
  BitVec.ofNat 32 (op * 2 ^ 26 + rd.toNat * 2 ^ 21 + rs1.toNat * 2 ^ 16 + imm.toNat)

/-- Where an instruction is legal. -/
inductive Profile where
  | both | onlyP | onlyA
  deriving DecidableEq, Repr

/-- What is known of an instruction before it runs: its word, where it is legal, the general and floating-point registers its fields
name, the issue slots it takes on an engine (R253). -/
structure Form where
  word  : Word
  prof  : Profile := .both
  g     : List (BitVec 5) := []
  f     : List (BitVec 5) := []
  slots : Nat := 1
  deriving DecidableEq, Repr

/-- The agent raises ILLEGAL on the instruction: not of its profile, or bit 4 of a register field is set where it must be 0
(R214, R215, R217). -/
def Form.illegal (x : Form) : Agent → Bool
  | .pair _ _ => x.prof == .onlyA || x.f.any fun r => 16 ≤ r.toNat
  | .thread _ _ => x.prof == .onlyP || x.g.any fun r => 16 ≤ r.toNat

/-- An R-format word has 0 in the fields that its function leaves unused, given which of rd, rs1, rs2 the function uses. -/
def unusedZero (w : Word) (rd rs1 rs2 : Bool) : Bool :=
  (rd || w.extractLsb' 21 5 == 0) && (rs1 || w.extractLsb' 16 5 == 0) && (rs2 || w.extractLsb' 11 5 == 0)

/-- The functions of the floating-point opcode: what its register fields name, `f`, `g` or nothing (R238). -/
def fpFields (fn : Nat) : Option (Bool × Bool × Option Bool) :=
  if fn ≤ 0x03 ∨ (0x05 ≤ fn ∧ fn ≤ 0x08) ∨ fn = 0x0B ∨ fn = 0x16 ∨ fn = 0x17 then some (true, true, some true)
  else if fn = 0x04 ∨ fn = 0x09 ∨ fn = 0x0A then some (true, true, none)
  else if fn = 0x0C ∨ fn = 0x0D then some (false, true, some true)
  else if fn = 0x0E ∨ fn = 0x0F ∨ fn = 0x10 ∨ fn = 0x11 ∨ fn = 0x14 then some (false, true, none)
  else if fn = 0x12 ∨ fn = 0x13 ∨ fn = 0x15 then some (true, false, none)
  else if fn = 0x18 then some (true, true, some false)
  else none

/-- The number of a control register of R236 and its place (`csrKey`). -/
def csrPlace (n : Nat) : Option Nat :=
  match n with
  | 0x000 => some csSTATUS | 0x001 => some csEPC | 0x002 => some csECAUSE | 0x003 => some csEVAL
  | 0x004 => some csVBASE | 0x005 => some csSCRATCH | 0x010 => some csFCSR
  | 0x020 => some csCYCLEL | 0x021 => some csCYCLEH | 0x022 => some csINSTRL | 0x023 => some csINSTRH
  | 0x030 => some csCOREID | 0x031 => some csISAVER
  | _ => none

/-- The control registers of level U (R236). -/
def csrUser (c : Nat) : Bool := c == csFCSR || decide (csCYCLEL ≤ c)

/-- The control registers with a writable field (R236). -/
def csrWritable (c : Nat) : Bool := c == csSTATUS || c == csEPC || c == csVBASE || c == csSCRATCH || c == csFCSR

/-- Register fields of a word that a thread cannot name (R214). -/
def highReg (w : Word) (rd rs1 rs2 : Bool) : Bool := (rd && bitOf w 25) || (rs1 && bitOf w 20) || (rs2 && bitOf w 15)

/-- A policy pair raises no ILLEGAL on the word, its CSR conditions of R235 apart (R215, R217, R218). -/
def wordLegalP (w : Word) : Bool :=
  let op := w.toNat / 2 ^ 26
  let fn := w.toNat % 2 ^ 11
  if op = 0x00 then decide (fn ≤ 0x00D)
  else if op = 0x01 then decide (fn ≤ 0x007) && fn != 3
  else if op = 0x08 ∨ op = 0x18 then unusedZero w true false true
  else if op = 0x09 then decide (fn ≤ 2)
  else if op ≤ 0x19 then true
  else if op = 0x1A then decide (fn ≤ 4) && unusedZero w false false false
  else if op = 0x1B then unusedZero w true false true && (csrPlace (w.toNat % 2 ^ 16)).isSome
  else if op = 0x1C then unusedZero w false true true && ((csrPlace (w.toNat % 2 ^ 16)).map csrWritable).getD false
  else if op = 0x1D then decide (fn ≤ 5)
  else if op = 0x20 then
    match fpFields fn with
    | some (d, a, b) => !highReg w d a (b.getD false) && unusedZero w true true b.isSome
    | none => false
  else if op = 0x21 ∨ op = 0x22 then !highReg w true false false
  else false

/-- An angle thread raises no ILLEGAL on the word (R214, R217, R218, R241). -/
def wordLegalA (w : Word) : Bool :=
  let op := w.toNat / 2 ^ 26
  let fn := w.toNat % 2 ^ 11
  let imm := w.toNat % 2 ^ 16
  if op = 0x00 then decide (fn ≤ 0x00D) && !highReg w true true true
  else if op = 0x01 then decide (fn ≤ 0x002) && !highReg w true true true
  else if op = 0x08 ∨ op = 0x18 then unusedZero w true false true && !highReg w true false false
  else if op = 0x09 then decide (fn ≤ 2) && !highReg w true true false
  else if op ≤ 0x19 then !highReg w true true false
  else if op = 0x1A then fn == 4 && unusedZero w false false false
  else if op = 0x30 then fn == 0 && !highReg w true true true
  else if op = 0x31 then decide (fn ≤ 1) && !highReg w true true true
  else if op = 0x32 then unusedZero w true false true && !highReg w true false false
  else if op = 0x33 ∨ op = 0x34 ∨ op = 0x35 then !highReg w true true true
  else if op = 0x36 then fn == 0 && unusedZero w true true false && !highReg w true true false
  else if op = 0x37 then !highReg w true true false
  else if op = 0x38 ∨ op = 0x39 then decide (imm < 32) && !highReg w true true false
  else if op = 0x3A then fn == 0 && unusedZero w true false false && !highReg w true false false
  else if op = 0x3B then decide (fn ≤ 3) && unusedZero w true false false && !highReg w true false false
  else if op = 0x3C then decide (imm < 4) && !highReg w true true false
  else if op = 0x3D then fn == 0 && unusedZero w false false false
  else false

/-! ### Registers of the agent -/

/-- General register `r`. -/
def State.gr (s : State) (a : Agent) (r : BitVec 5) : Word :=
  match a with
  | .pair t _ => s.pg t r.toNat
  | .thread n _ => s.tg n r.toNat

/-- The state with a general register written. -/
def State.setGr (s : State) (a : Agent) (r : BitVec 5) (v : Word) : State :=
  match a with
  | .pair t _ => s.setPg t r.toNat v
  | .thread n _ => s.setTg n r.toNat v

/-- Floating-point register `r` of a pair. -/
def State.fr (s : State) (a : Agent) (r : BitVec 5) : Word :=
  match a with
  | .pair t _ => s.reg (fKey t r.toNat)
  | .thread _ _ => 0

/-- The state with a floating-point register of a pair written. -/
def State.setFr (s : State) (a : Agent) (r : BitVec 5) (v : Word) : State :=
  match a with
  | .pair t _ => s.setReg (fKey t r.toNat) v
  | .thread _ _ => s

/-- The address of the instruction. -/
def State.pcOf (s : State) (a : Agent) : Word :=
  match a with
  | .pair t _ => s.ppc t
  | .thread n _ => (s.thr n).pc

/-! ### Completion (R212, R231, R236) -/

/-- One more instruction of pair `t` is retired. -/
def State.retirePair (s : State) (t : Nat) : State := s.updPair t fun x => { x with instrs := x.instrs + 1 }

/-- The instruction completes and the next lies at pc + 4. -/
def State.retireIns (s : State) (a : Agent) : State :=
  match a with
  | .pair t _ => (s.setPpc t (s.ppc t + 4)).retirePair t
  | .thread n _ => s.setThPc n ((s.thr n).pc + 4)

/-- The instruction completes and the next lies at `target`. -/
def State.branchTo (s : State) (a : Agent) (target : Word) : State :=
  match a with
  | .pair t _ => ((s.setPpc t target).retirePair t).tracePc t target
  | .thread n _ => s.setThPc n target

/-! ### Exceptions (R247 to R251) -/

abbrev excILLEGAL : Nat := 0x1
abbrev excFETCHFAULT : Nat := 0x2
abbrev excLOADALIGN : Nat := 0x3
abbrev excSTOREALIGN : Nat := 0x4
abbrev excLOADFAULT : Nat := 0x5
abbrev excSTOREFAULT : Nat := 0x6
abbrev excPRIV : Nat := 0x7
abbrev excECALL : Nat := 0x8
abbrev excBRK : Nat := 0x9
abbrev excDATAERR : Nat := 0xA

/-- An exception of thread `n` (R251, R258): recorded, and the thread becomes FAULTED before the instruction takes effect; the
engine sends a U-class message with the code address, the thread and the code. -/
def State.threadTrap (s : State) (n code : Nat) (eval : Word) : State :=
  let pc := s.thPc n % 2 ^ 18
  let s1 := ((s.setReg (AEN_TFC n) (BitVec.ofNat 32 code)).setReg (AEN_TFAD n) (BitVec.ofNat 32 pc)).setReg (AEN_TFVAL n) eval
  let s2 := ((s1.setTh n thFAULTED).raise AEN_EVT (AEN_EVT_FAULT0 + n / 32)).traceThr n 2 pc
  s2.sendFault blkAEN (n / 32) 0x10 clsU (pc + 2 ^ 18 * n + 2 ^ 24 * code)

/-- The agent takes an exception at its instruction. -/
def State.takeExc (s : State) (a : Agent) (code : Nat) (eval : Word) : State :=
  match a with
  | .pair t _ => s.pairTrap t code eval
  | .thread n _ => s.threadTrap n code eval

/-! ### Issue -/

/-- What an instruction does once it is fetched, and the FABRIC carats its accesses take in a state (R494, R497). -/
structure Effect where
  beats : State → Nat := fun _ => 0
  run   : State → State

/-- The step and the resume of pair `t` are used up by the instruction now issued (R636). -/
def State.useStep (s : State) (t : Nat) : State := s.updPair t fun x => { x with step := false, resume := false }

/-- The fetch of pair `t` at `pc`: the state after it, and the word unusable. -/
def State.fetchPair (s : State) (t pc : Nat) (e : Ecc) : State × Bool :=
  if inWindow pc then s.eccRead (windowMem t pc) pc 4 e
  else match regionOf pc with
    | .mem m => s.eccRead m pc 4 e
    | .rom | .regs | .none => (s, false)

/-- An unusable instruction word: in local memory it halts the pair with kind LMUNC (R283), elsewhere it is DATAERR (R288). -/
def State.badFetch (s : State) (t pc : Nat) : State :=
  if inWindow pc then (s.updPair t fun x => { x with run := .held }).sendFault blkPAIR t 0x11 clsU pc
  else s.pairTrap t excDATAERR (BitVec.ofNat 32 pc)

/-- Pair `t` issues an instruction: the loads into the registers it names complete first (R229); a fetch it may not make raises
FETCHFAULT (R232); with too few FABRIC carats the access waits (R502); then the instruction runs or is ILLEGAL. -/
def State.issuePair (s : State) (t : Fin 4) (e : Ecc) (x : Form) (f : Effect) : State :=
  if !s.pairActive t then s
  else
    let s0 := s.settle t (x.g.map BitVec.toNat ++ x.f.map fun r => 32 + r.toNat)
    let pc := (s0.ppc t).toNat
    let need := sramBeats pc + (if x.illegal (.pair t e) then 0 else f.beats s0)
    if !s0.mayFetch t pc then (s0.useStep t).pairTrap t excFETCHFAULT (s0.ppc t)
    else if !s0.budHas (s0.binding (8 + t)) resFABRIC need then s0.budStarve (s0.binding (8 + t)) resFABRIC
    else
      let r := ((s0.budDraw (s0.binding (8 + t)) resFABRIC need).useStep t).fetchPair t pc e
      if r.2 then r.1.badFetch t pc
      else if x.illegal (.pair t e) then r.1.pairTrap t excILLEGAL x.word
      else f.run r.1

/-- The pages a thread fetches from (R256, R232). -/
def State.thMayFetch (s : State) (n pc : Nat) : Bool :=
  decide (pc < 0x40000) && decide (s.fld (AEN_TWIN n) AEN_TWIN_CLO ≤ pc / 4096 ∧ pc / 4096 ≤ s.fld (AEN_TWIN n) AEN_TWIN_CHI)

/-- Thread `n` lacks what its next instruction draws: it stalls (R272, R502). -/
def State.thStarve (s : State) (n slots beats : Nat) : State :=
  let acct := s.thAcct n
  let s1 := if s.budHas acct resISSUE slots then s else s.budStarve acct resISSUE
  (if s1.budHas acct resFABRIC beats then s1 else s1.budStarve acct resFABRIC).stall n

/-- Thread `n`, which is READY, issues an instruction: its slots and carats are drawn or it stalls (R271, R272); a fetch outside its
pages raises FETCHFAULT (R256), an unusable word DATAERR (R257); then the instruction runs or is ILLEGAL. -/
def State.issueThread (s : State) (n : Fin 64) (e : Ecc) (x : Form) (f : Effect) : State :=
  if s.thState n ≠ thREADY || !s.unitRuns then s
  else
    let acct := s.thAcct n
    let beats := if x.illegal (.thread n e) then 0 else f.beats s
    if !(s.budHas acct resISSUE x.slots && s.budHas acct resFABRIC beats) then s.thStarve n x.slots beats
    else
      let s1 := ((s.budDraw acct resISSUE x.slots).budDraw acct resFABRIC beats).count (AEN_TISS n) AEN_TISS_SLOTS x.slots
      let pc := s1.thPc n
      if !s1.thMayFetch n pc then s1.threadTrap n excFETCHFAULT (BitVec.ofNat 32 pc)
      else
        let r := s1.eccRead (.code (n / 32)) (0x30000000 + 0x100000 * (n.val / 32) + pc) 4 e
        if r.2 then r.1.threadTrap n excDATAERR (BitVec.ofNat 32 pc)
        else if x.illegal (.thread n e) then r.1.threadTrap n excILLEGAL x.word
        else f.run r.1

/-- The agent issues an instruction. -/
def State.issueIns (s : State) (a : Agent) (x : Form) (f : Effect) : State :=
  match a with
  | .pair t e => s.issuePair t e x f
  | .thread n e => s.issueThread n e x f

/-- `ILLEGAL` (R217): the agent issues a word that R214, R215 or R217 makes illegal for it. -/
def execIllegal (a : Agent) (word : Word) (s : State) : Host.Outcome State Fault Refusal :=
  let legal := match a with
    | .pair _ _ => wordLegalP word
    | .thread _ _ => wordLegalA word
  .next (if legal then s else s.issueIns a { word := word } { run := fun u => u.takeExc a excILLEGAL word })

end Sys2Proof.Machine
end

