-- ==== Sys2Proof/Machine/GentalInt.lean ====
section
/-! DEFINITION. The integer instructions (R219 to R222). -/

namespace Sys2Proof.Machine

/-- An instruction that computes one general register from the agent's registers, at once. -/
def State.toReg (s : State) (a : Agent) (x : Form) (rd : BitVec 5) (v : State → Word) : State :=
  s.issueIns a x { run := fun u => (u.setGr a rd (v u)).retireIns a }

/-- A register-register operation. -/
def State.regReg (s : State) (a : Agent) (op fn : Nat) (p : Profile) (rd rs1 rs2 : BitVec 5) (f : Word → Word → Word) : State :=
  s.toReg a { word := encR op rd rs1 rs2 fn, prof := p, g := [rd, rs1, rs2] } rd fun u => f (u.gr a rs1) (u.gr a rs2)

/-- A register-immediate operation. -/
def State.regImm (s : State) (a : Agent) (op : Nat) (rd rs1 : BitVec 5) (imm : BitVec 16) (f : Word → Word) : State :=
  s.toReg a { word := encI op rd rs1 imm, g := [rd, rs1] } rd fun u => f (u.gr a rs1)

/-- A shift by the amount in the rs2 field, which names no register (R214). -/
def State.shiftImm (s : State) (a : Agent) (fn : Nat) (rd rs1 amount : BitVec 5) (f : Word → Nat → Word) : State :=
  s.toReg a { word := encR 0x09 rd rs1 amount fn, g := [rd, rs1] } rd fun u => f (u.gr a rs1) amount.toNat

/-- sext(imm16) of R216. -/
def sext (imm : BitVec 16) : Word := imm.signExtend 32

/-- zext(imm16) of R216. -/
def zext (imm : BitVec 16) : Word := imm.setWidth 32

/-- 1 or 0. -/
def flagWord (b : Bool) : Word := if b then 1 else 0

/-- Bits [63:32] of the signed product. -/
def mulHighS (x y : Word) : Word := BitVec.ofInt 32 (x.toInt * y.toInt / 2 ^ 32)

/-- Bits [63:32] of the unsigned product. -/
def mulHighU (x y : Word) : Word := BitVec.ofNat 32 (x.toNat * y.toNat / 2 ^ 32)

/-- The signed quotient, toward zero, saturating (R221). -/
def divS (x y : Word) : Word :=
  if y = 0 then (if x.slt 0 then 0x80000000 else 0x7FFFFFFF)
  else if x = 0x80000000 ∧ y = 0xFFFFFFFF then 0x7FFFFFFF
  else BitVec.ofInt 32 (x.toInt.tdiv y.toInt)

/-- The unsigned quotient, saturating (R221). -/
def divU (x y : Word) : Word := if y = 0 then 0xFFFFFFFF else BitVec.ofNat 32 (x.toNat / y.toNat)

/-- The signed remainder, with the sign of the dividend (R220, R221). -/
def modS (x y : Word) : Word := if y = 0 then 0 else BitVec.ofInt 32 (x.toInt.tmod y.toInt)

/-- The unsigned remainder (R221). -/
def modU (x y : Word) : Word := if y = 0 then 0 else BitVec.ofNat 32 (x.toNat % y.toNat)

/-- A shift amount: the low five bits (R219). -/
def amountOf (y : Word) : Nat := y.toNat % 32

/-- `ADD` (R220): integer addition. -/
def execAdd (a : Agent) (rd rs1 rs2 : BitVec 5) (s : State) : Host.Outcome State Fault Refusal :=
  .next (s.regReg a 0x00 0x000 .both rd rs1 rs2 fun x y => x + y)

/-- `SUB` (R220): integer subtraction. -/
def execSub (a : Agent) (rd rs1 rs2 : BitVec 5) (s : State) : Host.Outcome State Fault Refusal :=
  .next (s.regReg a 0x00 0x001 .both rd rs1 rs2 fun x y => x - y)

/-- `AND` (R220): bitwise and. -/
def execAnd (a : Agent) (rd rs1 rs2 : BitVec 5) (s : State) : Host.Outcome State Fault Refusal :=
  .next (s.regReg a 0x00 0x002 .both rd rs1 rs2 fun x y => x &&& y)

/-- `OR` (R220): bitwise or. -/
def execOr (a : Agent) (rd rs1 rs2 : BitVec 5) (s : State) : Host.Outcome State Fault Refusal :=
  .next (s.regReg a 0x00 0x003 .both rd rs1 rs2 fun x y => x ||| y)

/-- `XOR` (R220): bitwise exclusive or. -/
def execXor (a : Agent) (rd rs1 rs2 : BitVec 5) (s : State) : Host.Outcome State Fault Refusal :=
  .next (s.regReg a 0x00 0x004 .both rd rs1 rs2 fun x y => x ^^^ y)

/-- `SLL` (R220): shift left. -/
def execSll (a : Agent) (rd rs1 rs2 : BitVec 5) (s : State) : Host.Outcome State Fault Refusal :=
  .next (s.regReg a 0x00 0x005 .both rd rs1 rs2 fun x y => x <<< amountOf y)

/-- `SRL` (R220): shift right, zeros in. -/
def execSrl (a : Agent) (rd rs1 rs2 : BitVec 5) (s : State) : Host.Outcome State Fault Refusal :=
  .next (s.regReg a 0x00 0x006 .both rd rs1 rs2 fun x y => x >>> amountOf y)

/-- `SRA` (R220): shift right, sign in. -/
def execSra (a : Agent) (rd rs1 rs2 : BitVec 5) (s : State) : Host.Outcome State Fault Refusal :=
  .next (s.regReg a 0x00 0x007 .both rd rs1 rs2 fun x y => x.sshiftRight (amountOf y))

/-- `SLT` (R220): signed less than. -/
def execSlt (a : Agent) (rd rs1 rs2 : BitVec 5) (s : State) : Host.Outcome State Fault Refusal :=
  .next (s.regReg a 0x00 0x008 .both rd rs1 rs2 fun x y => flagWord (x.slt y))

/-- `SLTU` (R220): unsigned less than. -/
def execSltu (a : Agent) (rd rs1 rs2 : BitVec 5) (s : State) : Host.Outcome State Fault Refusal :=
  .next (s.regReg a 0x00 0x009 .both rd rs1 rs2 fun x y => flagWord (x.ult y))

/-- `MIN` (R220): signed minimum. -/
def execMin (a : Agent) (rd rs1 rs2 : BitVec 5) (s : State) : Host.Outcome State Fault Refusal :=
  .next (s.regReg a 0x00 0x00A .both rd rs1 rs2 fun x y => if x.slt y then x else y)

/-- `MAX` (R220): signed maximum. -/
def execMax (a : Agent) (rd rs1 rs2 : BitVec 5) (s : State) : Host.Outcome State Fault Refusal :=
  .next (s.regReg a 0x00 0x00B .both rd rs1 rs2 fun x y => if x.slt y then y else x)

/-- `MINU` (R220): unsigned minimum. -/
def execMinu (a : Agent) (rd rs1 rs2 : BitVec 5) (s : State) : Host.Outcome State Fault Refusal :=
  .next (s.regReg a 0x00 0x00C .both rd rs1 rs2 fun x y => if x.ult y then x else y)

/-- `MAXU` (R220): unsigned maximum. -/
def execMaxu (a : Agent) (rd rs1 rs2 : BitVec 5) (s : State) : Host.Outcome State Fault Refusal :=
  .next (s.regReg a 0x00 0x00D .both rd rs1 rs2 fun x y => if x.ult y then y else x)

/-- `MUL` (R220): low word of the product. -/
def execMul (a : Agent) (rd rs1 rs2 : BitVec 5) (s : State) : Host.Outcome State Fault Refusal :=
  .next (s.regReg a 0x01 0x000 .both rd rs1 rs2 fun x y => x * y)

/-- `MULSH` (R220): high word of the signed product. -/
def execMulsh (a : Agent) (rd rs1 rs2 : BitVec 5) (s : State) : Host.Outcome State Fault Refusal :=
  .next (s.regReg a 0x01 0x001 .both rd rs1 rs2 fun x y => mulHighS x y)

/-- `MULUH` (R220): high word of the unsigned product. -/
def execMuluh (a : Agent) (rd rs1 rs2 : BitVec 5) (s : State) : Host.Outcome State Fault Refusal :=
  .next (s.regReg a 0x01 0x002 .both rd rs1 rs2 fun x y => mulHighU x y)

/-- `DIVS` (R220): signed quotient (R221, R222). -/
def execDivs (a : Agent) (rd rs1 rs2 : BitVec 5) (s : State) : Host.Outcome State Fault Refusal :=
  .next (s.regReg a 0x01 0x004 .onlyP rd rs1 rs2 fun x y => divS x y)

/-- `DIVU` (R220): unsigned quotient (R221, R222). -/
def execDivu (a : Agent) (rd rs1 rs2 : BitVec 5) (s : State) : Host.Outcome State Fault Refusal :=
  .next (s.regReg a 0x01 0x005 .onlyP rd rs1 rs2 fun x y => divU x y)

/-- `MODS` (R220): signed remainder (R221, R222). -/
def execMods (a : Agent) (rd rs1 rs2 : BitVec 5) (s : State) : Host.Outcome State Fault Refusal :=
  .next (s.regReg a 0x01 0x006 .onlyP rd rs1 rs2 fun x y => modS x y)

/-- `MODU` (R220): unsigned remainder (R221, R222). -/
def execModu (a : Agent) (rd rs1 rs2 : BitVec 5) (s : State) : Host.Outcome State Fault Refusal :=
  .next (s.regReg a 0x01 0x007 .onlyP rd rs1 rs2 fun x y => modU x y)

/-- `ADDI` (R220): addition of a sign-extended immediate. -/
def execAddi (a : Agent) (rd rs1 : BitVec 5) (imm : BitVec 16) (s : State) : Host.Outcome State Fault Refusal :=
  .next (s.regImm a 0x02 rd rs1 imm fun x => x + sext imm)

/-- `ANDI` (R220): and with a zero-extended immediate. -/
def execAndi (a : Agent) (rd rs1 : BitVec 5) (imm : BitVec 16) (s : State) : Host.Outcome State Fault Refusal :=
  .next (s.regImm a 0x03 rd rs1 imm fun x => x &&& zext imm)

/-- `ORI` (R220): or with a zero-extended immediate. -/
def execOri (a : Agent) (rd rs1 : BitVec 5) (imm : BitVec 16) (s : State) : Host.Outcome State Fault Refusal :=
  .next (s.regImm a 0x04 rd rs1 imm fun x => x ||| zext imm)

/-- `XORI` (R220): exclusive or with a zero-extended immediate. -/
def execXori (a : Agent) (rd rs1 : BitVec 5) (imm : BitVec 16) (s : State) : Host.Outcome State Fault Refusal :=
  .next (s.regImm a 0x05 rd rs1 imm fun x => x ^^^ zext imm)

/-- `SLTI` (R220): signed less than a sign-extended immediate. -/
def execSlti (a : Agent) (rd rs1 : BitVec 5) (imm : BitVec 16) (s : State) : Host.Outcome State Fault Refusal :=
  .next (s.regImm a 0x06 rd rs1 imm fun x => flagWord (x.slt (sext imm)))

/-- `SLTIU` (R220): unsigned less than a sign-extended immediate. -/
def execSltiu (a : Agent) (rd rs1 : BitVec 5) (imm : BitVec 16) (s : State) : Host.Outcome State Fault Refusal :=
  .next (s.regImm a 0x07 rd rs1 imm fun x => flagWord (x.ult (sext imm)))

/-- `LUI` (R220): the immediate in the upper halfword. -/
def execLui (a : Agent) (rd : BitVec 5) (imm : BitVec 16) (s : State) : Host.Outcome State Fault Refusal :=
  .next (s.toReg a { word := encI 0x08 rd 0 imm, g := [rd] } rd fun _ => zext imm <<< 16)

/-- `SLLI` (R220): shift left by an immediate amount. -/
def execSlli (a : Agent) (rd rs1 amount : BitVec 5) (s : State) : Host.Outcome State Fault Refusal :=
  .next (s.shiftImm a 0x000 rd rs1 amount fun x k => x <<< k)

/-- `SRLI` (R220): shift right, zeros in by an immediate amount. -/
def execSrli (a : Agent) (rd rs1 amount : BitVec 5) (s : State) : Host.Outcome State Fault Refusal :=
  .next (s.shiftImm a 0x001 rd rs1 amount fun x k => x >>> k)

/-- `SRAI` (R220): shift right, sign in by an immediate amount. -/
def execSrai (a : Agent) (rd rs1 amount : BitVec 5) (s : State) : Host.Outcome State Fault Refusal :=
  .next (s.shiftImm a 0x002 rd rs1 amount fun x k => x.sshiftRight k)

end Sys2Proof.Machine
end

