-- ==== Sys2Proof/Machine/GentalMem.lean ====
section
/-! DEFINITION. The loads, stores and atomic instructions (R223 to R230, R256, R257, R283, R284). -/

namespace Sys2Proof.Machine

/-- The effective address g[rs1] + sext(imm16) (R223). -/
def State.ea (s : State) (a : Agent) (rs1 : BitVec 5) (imm : BitVec 16) : Nat := (s.gr a rs1 + sext imm).toNat

/-- What a load gets: data, or an exception. -/
inductive Got where
  | data (v : Nat)
  | exc (code : Nat)
  deriving DecidableEq, Repr

/-- The address of a thread's data byte in the map of R37. -/
def threadData (n x : Nat) : Nat := 0x30040000 + 0x100000 * (n / 32) + x

/-- FABRIC carats of an aligned pair access that its protection regions allow. A thread's data SRAM is not metered. -/
def State.accessBeats (s : State) (a : Agent) (x n : Nat) (u : Use) : Nat :=
  match a with
  | .pair t _ => if x % n = 0 && s.protOk t x u && !inWindow x then sramBeats x else 0
  | .thread _ _ => 0

/-- A load of `n` bytes by pair `t` (R224, R228, R283, R284, R286). -/
def State.loadPair (s : State) (t : Fin 4) (x n : Nat) (ecc : Ecc) : State × Got :=
  if x % n ≠ 0 then (s, .exc excLOADALIGN)
  else if !s.protOk t x .load then (s, .exc excLOADFAULT)
  else if inWindow x then
    let r := s.eccRead (windowMem t x) x n ecc
    (r.1, if r.2 then .exc excDATAERR else .data (ofBytes (r.1.rdBytes (windowKey t x) n)))
  else
    let r := s.busRead (.pair t) x n ecc
    (r.1, match r.2.2 with
      | .ok => .data r.2.1
      | .refused => .exc excLOADFAULT
      | .bad => .exc excDATAERR)

/-- A load of `n` bytes by thread `k` (R224, R225, R257). -/
def State.loadThread (s : State) (k : Fin 64) (x n : Nat) (ecc : Ecc) : State × Got :=
  if x % n ≠ 0 then (s, .exc excLOADALIGN)
  else if 0xFFFF < x then (s, .exc excLOADFAULT)
  else
    let r := s.eccRead (.data (k.val / 32)) (threadData k x) n ecc
    (r.1, if r.2 then .exc excDATAERR else .data (ofBytes (r.1.rdBytes (threadData k x) n)))

/-- A load of `n` bytes by the agent. -/
def State.loadAt (s : State) (a : Agent) (x n : Nat) (ecc : Ecc) : State × Got :=
  match a with
  | .pair t _ => s.loadPair t x n ecc
  | .thread k _ => s.loadThread k x n ecc

/-- Loaded data goes to register `d` (32 up: f registers): at once on a thread, as an outstanding load on a pair (R229). -/
def State.loaded (s : State) (a : Agent) (d : Nat) (v : Word) : State :=
  match a with
  | .pair t _ => s.addLoad t d v
  | .thread n _ => s.setTg n d v

/-- A load instruction. -/
def State.loadIns (s : State) (a : Agent) (x : Form) (d : Nat) (rs1 : BitVec 5) (imm : BitVec 16) (n : Nat) (ecc : Ecc)
    (ext : Nat → Word) : State :=
  s.issueIns a x {
    beats := fun u => u.accessBeats a (u.ea a rs1 imm) n .load
    run := fun u =>
      let r := u.loadAt a (u.ea a rs1 imm) n ecc
      match r.2 with
      | .data v => (r.1.loaded a d (ext v)).retireIns a
      | .exc c => r.1.takeExc a c (BitVec.ofNat 32 (u.ea a rs1 imm)) }

/-- A store by pair `t`: the exception, or the state after it (R224, R228, R286). -/
def State.storePair (s : State) (t : Fin 4) (x : Nat) (bytes : List Byte) (ecc : Ecc) : State × Option Nat :=
  if x % bytes.length ≠ 0 then (s, some excSTOREALIGN)
  else if !s.protOk t x .store then (s, some excSTOREFAULT)
  else if inWindow x then ((s.eccStore (windowMem t x) x bytes.length ecc).wrBytes (windowKey t x) bytes, none)
  else
    let r := s.busWrite (.pair t) x bytes ecc
    (r.1, match r.2 with
      | .ok => none
      | .refused | .bad => some excSTOREFAULT)

/-- A data address lies in the 1 KiB blocks thread `k` may write (R256). -/
def State.thMayWrite (s : State) (k x : Nat) : Bool :=
  decide (x < 0x10000) && decide (s.fld (AEN_TWIN k) AEN_TWIN_DLO ≤ x / 1024 ∧ x / 1024 ≤ s.fld (AEN_TWIN k) AEN_TWIN_DHI)

/-- A store by thread `k` (R224, R225, R256). -/
def State.storeThread (s : State) (k : Fin 64) (x : Nat) (bytes : List Byte) (ecc : Ecc) : State × Option Nat :=
  if x % bytes.length ≠ 0 then (s, some excSTOREALIGN)
  else if !s.thMayWrite k x then (s, some excSTOREFAULT)
  else ((s.eccStore (.data (k.val / 32)) (threadData k x) bytes.length ecc).wrBytes (threadData k x) bytes, none)

/-- A store of the low `n` bytes of a word by the agent. -/
def State.storeAt (s : State) (a : Agent) (x n : Nat) (v : Word) (ecc : Ecc) : State × Option Nat :=
  match a with
  | .pair t _ => s.storePair t x (toBytes n v.toNat) ecc
  | .thread k _ => s.storeThread k x (toBytes n v.toNat) ecc

/-- A store instruction; `v` is the stored register. -/
def State.storeIns (s : State) (a : Agent) (x : Form) (rs1 : BitVec 5) (imm : BitVec 16) (n : Nat) (ecc : Ecc)
    (v : State → Word) : State :=
  s.issueIns a x {
    beats := fun u => u.accessBeats a (u.ea a rs1 imm) n .store
    run := fun u =>
      let r := u.storeAt a (u.ea a rs1 imm) n (v u) ecc
      match r.2 with
      | none => r.1.retireIns a
      | some c => r.1.takeExc a c (BitVec.ofNat 32 (u.ea a rs1 imm)) }

/-- A load into a general register. -/
def State.loadG (s : State) (a : Agent) (op : Nat) (rd rs1 : BitVec 5) (imm : BitVec 16) (n : Nat) (ecc : Ecc) (ext : Nat → Word) :
    State :=
  s.loadIns a { word := encI op rd rs1 imm, g := [rd, rs1] } rd.toNat rs1 imm n ecc ext

/-- A store from a general register. -/
def State.storeG (s : State) (a : Agent) (op : Nat) (rt rs1 : BitVec 5) (imm : BitVec 16) (n : Nat) (ecc : Ecc) : State :=
  s.storeIns a { word := encI op rt rs1 imm, g := [rt, rs1] } rs1 imm n ecc fun u => u.gr a rt

/-- The sign extension of a value of `w` bits. -/
def sextN (w v : Nat) : Word := BitVec.ofInt 32 (signedOf w v)

/-- `LW` (R223): load word. -/
def execLw (a : Agent) (rd rs1 : BitVec 5) (imm : BitVec 16) (ecc : Ecc) (s : State) : Host.Outcome State Fault Refusal :=
  .next (s.loadG a 0x0A rd rs1 imm 4 ecc (BitVec.ofNat 32))

/-- `LH` (R223): load halfword, sign-extended. -/
def execLh (a : Agent) (rd rs1 : BitVec 5) (imm : BitVec 16) (ecc : Ecc) (s : State) : Host.Outcome State Fault Refusal :=
  .next (s.loadG a 0x0B rd rs1 imm 2 ecc (sextN 16))

/-- `LHU` (R223): load halfword, zero-extended. -/
def execLhu (a : Agent) (rd rs1 : BitVec 5) (imm : BitVec 16) (ecc : Ecc) (s : State) : Host.Outcome State Fault Refusal :=
  .next (s.loadG a 0x0C rd rs1 imm 2 ecc (BitVec.ofNat 32))

/-- `LB` (R223): load byte, sign-extended. -/
def execLb (a : Agent) (rd rs1 : BitVec 5) (imm : BitVec 16) (ecc : Ecc) (s : State) : Host.Outcome State Fault Refusal :=
  .next (s.loadG a 0x0D rd rs1 imm 1 ecc (sextN 8))

/-- `LBU` (R223): load byte, zero-extended. -/
def execLbu (a : Agent) (rd rs1 : BitVec 5) (imm : BitVec 16) (ecc : Ecc) (s : State) : Host.Outcome State Fault Refusal :=
  .next (s.loadG a 0x0E rd rs1 imm 1 ecc (BitVec.ofNat 32))

/-- `SW` (R223): store word. -/
def execSw (a : Agent) (rt rs1 : BitVec 5) (imm : BitVec 16) (ecc : Ecc) (s : State) : Host.Outcome State Fault Refusal :=
  .next (s.storeG a 0x0F rt rs1 imm 4 ecc)

/-- `SH` (R223): store halfword. -/
def execSh (a : Agent) (rt rs1 : BitVec 5) (imm : BitVec 16) (ecc : Ecc) (s : State) : Host.Outcome State Fault Refusal :=
  .next (s.storeG a 0x10 rt rs1 imm 2 ecc)

/-- `SB` (R223): store byte. -/
def execSb (a : Agent) (rt rs1 : BitVec 5) (imm : BitVec 16) (ecc : Ecc) (s : State) : Host.Outcome State Fault Refusal :=
  .next (s.storeG a 0x11 rt rs1 imm 1 ecc)

/-- `FLW` (R223): load word into an f register. -/
def execFlw (a : Agent) (rd rs1 : BitVec 5) (imm : BitVec 16) (ecc : Ecc) (s : State) : Host.Outcome State Fault Refusal :=
  .next (s.loadIns a { word := encI 0x21 rd rs1 imm, prof := .onlyP, g := [rs1], f := [rd] } (32 + rd.toNat) rs1 imm 4 ecc
    (BitVec.ofNat 32))

/-- `FSW` (R223): store word from an f register. -/
def execFsw (a : Agent) (rt rs1 : BitVec 5) (imm : BitVec 16) (ecc : Ecc) (s : State) : Host.Outcome State Fault Refusal :=
  .next (s.storeIns a { word := encI 0x22 rt rs1 imm, prof := .onlyP, g := [rs1], f := [rt] } rs1 imm 4 ecc fun u => u.fr a rt)

/-! ### Atomic instructions (R230) -/

/-- The read and the write of an atomic instruction of pair `t` at address `x`: the old word, or the exception. The write is done
only where `upd` gives a value. -/
def State.atomicAt (s : State) (t : Fin 4) (x : Nat) (ecc : Ecc) (upd : Word → Option Word) : State × Got :=
  if x % 4 ≠ 0 then (s, .exc excLOADALIGN)
  else if !s.protOk t x .store then (s, .exc excSTOREFAULT)
  else if regionOf x ≠ .mem .sram then (s, .exc excSTOREFAULT)
  else if s.calOwns x 4 then (s.busError x, .exc excSTOREFAULT)
  else
    let r := s.eccRead .sram x 4 ecc
    if r.2 then (r.1, .exc excDATAERR)
    else
      let old := ofBytes (r.1.rdBytes x 4)
      match upd (BitVec.ofNat 32 old) with
      | some v => (r.1.wrBytes x (toBytes 4 v.toNat), .data old)
      | none => (r.1, .data old)

/-- An atomic instruction: `f` gives the word written from the old word, g[rs2] and g[rd]. -/
def State.atomicIns (s : State) (a : Agent) (fn : Nat) (rd rs1 rs2 : BitVec 5) (ecc : Ecc) (f : Word → Word → Word → Option Word) :
    State :=
  s.issueIns a { word := encR 0x1D rd rs1 rs2 fn, prof := .onlyP, g := [rd, rs1, rs2] } {
    beats := fun u => u.accessBeats a (u.gr a rs1).toNat 4 .store
    run := fun u =>
      match a with
      | .pair t _ =>
        let r := u.atomicAt t (u.gr a rs1).toNat ecc fun old => f old (u.gr a rs2) (u.gr a rd)
        match r.2 with
        | .data v => (r.1.loaded a rd.toNat (BitVec.ofNat 32 v)).retireIns a
        | .exc c => r.1.takeExc a c (u.gr a rs1)
      | .thread _ _ => u }

/-- `ASWP` (R230): swap. -/
def execAswp (a : Agent) (rd rs1 rs2 : BitVec 5) (ecc : Ecc) (s : State) : Host.Outcome State Fault Refusal :=
  .next (s.atomicIns a 0 rd rs1 rs2 ecc fun _ y _ => some y)

/-- `AADD` (R230): add, wrapping. -/
def execAadd (a : Agent) (rd rs1 rs2 : BitVec 5) (ecc : Ecc) (s : State) : Host.Outcome State Fault Refusal :=
  .next (s.atomicIns a 1 rd rs1 rs2 ecc fun old y _ => some (old + y))

/-- `AADDS` (R230): add, unsigned and saturating. -/
def execAadds (a : Agent) (rd rs1 rs2 : BitVec 5) (ecc : Ecc) (s : State) : Host.Outcome State Fault Refusal :=
  .next (s.atomicIns a 2 rd rs1 rs2 ecc fun old y _ => some (BitVec.ofNat 32 (min (old.toNat + y.toNat) 0xFFFFFFFF)))

/-- `AAND` (R230): and. -/
def execAand (a : Agent) (rd rs1 rs2 : BitVec 5) (ecc : Ecc) (s : State) : Host.Outcome State Fault Refusal :=
  .next (s.atomicIns a 3 rd rs1 rs2 ecc fun old y _ => some (old &&& y))

/-- `AORR` (R230): or. -/
def execAorr (a : Agent) (rd rs1 rs2 : BitVec 5) (ecc : Ecc) (s : State) : Host.Outcome State Fault Refusal :=
  .next (s.atomicIns a 4 rd rs1 rs2 ecc fun old y _ => some (old ||| y))

/-- `ACAS` (R230): compare with g[rd] and swap. -/
def execAcas (a : Agent) (rd rs1 rs2 : BitVec 5) (ecc : Ecc) (s : State) : Host.Outcome State Fault Refusal :=
  .next (s.atomicIns a 5 rd rs1 rs2 ecc fun old y c => if old = c then some y else none)

end Sys2Proof.Machine
end

