-- ==== Sys2Proof/Machine/GentalAng.lean ====
section
/-! DEFINITION. The angle instructions (R239 to R246, R265 to R275). -/

namespace Sys2Proof.Machine

/-- An angle instruction of thread `n`. -/
def State.angIns (s : State) (a : Agent) (x : Form) (f : State → Nat → State) (beats : Nat := 0) : State :=
  s.issueIns a { x with prof := .onlyA } {
    beats := fun _ => beats
    run := fun u =>
      match a with
      | .pair _ _ => u
      | .thread n _ => f u n }

/-! ### Waits (R241 to R243, R258, R275) -/

/-- A wait issues: with a retarget pending the thread moves and the wait has no effect; where its condition already holds it
completes at once; else it is recorded and the thread waits (R242, R258). `done` says that it completes whatever the condition. -/
def State.waitIns (s : State) (n kind : Nat) (target : Word) (mask : Nat) (rd : BitVec 5) (done : Bool) : State :=
  if s.bit (AEN_TSTAT n) 3 then (s.setThPc n (s.reg (AEN_TNPC n))).setFld (AEN_TSTAT n) AEN_TSTAT_RTP 0
  else
    let s1 := s.setThPc n ((s.thr n).pc + 4)
    if done || s1.waitHolds n kind target mask then s1.waitDone n kind mask rd
    else
      let s2 := (s1.setReg (AEN_TWAKE n) target).updThr n fun t => { t with waitMask := mask, waitRd := rd }
      (s2.setTh n thWAIT).setFld (AEN_TSTAT n) AEN_TSTAT_WKIND kind

/-- `WAIT_ANG` (R241): wait until the angle word reaches g[rs1] in FULL or HOLD, or an event of g[rs2][15:0]. -/
def execWaitAng (a : Agent) (rd rs1 rs2 : BitVec 5) (s : State) : Host.Outcome State Fault Refusal :=
  .next (s.angIns a { word := encR 0x30 rd rs1 rs2 0, g := [rd, rs1, rs2] } fun u n =>
    u.waitIns n wkANG (u.gr a rs1) ((u.gr a rs2).toNat % 65536) rd false)

/-- `WAIT_TIM` (R241, R242): wait until the slot counter reaches g[rs1], or with `rel` g[rs1] slots from now. -/
def execWaitTim (a : Agent) (rd rs1 rs2 : BitVec 5) (rel : Bool) (s : State) : Host.Outcome State Fault Refusal :=
  .next (s.angIns a { word := encR 0x31 rd rs1 rs2 (b2n rel), g := [rd, rs1, rs2] } fun u n =>
    let x := u.gr a rs1
    u.waitIns n wkTIM (if rel then u.slotW + x else x) ((u.gr a rs2).toNat % 65536) rd
      (rel && (x == 0 || decide (2 ^ 31 ≤ x.toNat))))

/-- `WAIT_EVT` (R241): wait for an event of imm16; with imm16 = 0 the pending bits are read, with no wait and no clear (DEDUCED: no
wait means that a pending retarget stays pending). -/
def execWaitEvt (a : Agent) (rd : BitVec 5) (imm : BitVec 16) (s : State) : Host.Outcome State Fault Refusal :=
  .next (s.angIns a { word := encI 0x32 rd 0 imm, g := [rd] } fun u n =>
    if imm = 0 then (u.setTg n rd.toNat (BitVec.ofNat 32 (u.pend n))).retireIns a
    else u.waitIns n wkEVT (zext imm) imm.toNat rd false)

/-! ### Posts (R241, R244, R246, R260, R269) -/

/-- The words of template `k` of thread `n`'s engine, or DATAERR. -/
def State.template (s : State) (n k : Nat) (ecc : Ecc) : State × List Word × Bool :=
  let x := threadData n (16 * k)
  let r := s.eccRead (.data (n / 32)) x 16 ecc
  (r.1, r.1.rdWords x 4, r.2)

/-- A post from a template: `f` gives the descriptor's words, and whether the instruction itself refuses it with ILLEGAL. -/
def State.postIns (s : State) (a : Agent) (op : Nat) (rd rs1 rs2 : BitVec 5) (k : BitVec 11) (ecc : Ecc)
    (f : State → List Word → List Word × Bool) : State :=
  s.angIns a { word := encR op rd rs1 rs2 k.toNat, g := [rd, rs1, rs2], slots := 2 } fun u n =>
    let r := u.template n k.toNat ecc
    if r.2.2 then r.1.takeExc a excDATAERR (BitVec.ofNat 32 (16 * k.toNat))
    else
      let d := f u r.2.1
      let w := fun i => d.1.getD i 0
      let p := if d.2 then (r.1.refusePost stILLEGAL, refusedWord stILLEGAL) else r.1.post (w 0) (w 1) (w 2) (w 3) n
      (((p.1.setTg n rd.toNat p.2).traceThr n 1 (p.1.thPc n)).retireIns a)

/-- The KIND of a descriptor (R174). -/
def kindOf (d : List Word) : Nat := (({ w0 := 0, w1 := d.getD 1 0, w2 := 0, w3 := 0, poster := 0 } : Action)).kind

/-- `POST` (R241): post template `k` at angle g[rs1]; g[rs2] replaces word 2 unless rs2 = 0. -/
def execPostAction (a : Agent) (rd rs1 rs2 : BitVec 5) (k : BitVec 11) (ecc : Ecc) (s : State) :
    Host.Outcome State Fault Refusal :=
  .next (s.postIns a 0x33 rd rs1 rs2 k ecc fun u d =>
    let d1 := d.set 0 (u.gr a rs1)
    (if rs2 = 0 then d1 else d1.set 2 (u.gr a rs2), false))

/-- `PULSE` (R241): post a pulse from angle g[rs1] to angle g[rs2]. -/
def execPulse (a : Agent) (rd rs1 rs2 : BitVec 5) (k : BitVec 11) (ecc : Ecc) (s : State) : Host.Outcome State Fault Refusal :=
  .next (s.postIns a 0x34 rd rs1 rs2 k ecc fun u d =>
    let x := u.gr a rs2 - u.gr a rs1
    let kind := kindOf d
    ((d.set 0 (u.gr a rs1)).set 2 ((d.getD 2 0 &&& 0xFF000000) ||| (x &&& 0xFFFFFF)),
      !(kind == kINJ || kind == kIGN || kind == kAPULSE) || x == 0 || decide (2 ^ 24 ≤ x.toNat)))

/-- `SAMP` (R241): post a sample at angle g[rs1]; g[rs2] replaces the channel unless rs2 = 0. -/
def execSamp (a : Agent) (rd rs1 rs2 : BitVec 5) (k : BitVec 11) (ecc : Ecc) (s : State) : Host.Outcome State Fault Refusal :=
  .next (s.postIns a 0x35 rd rs1 rs2 k ecc fun u d =>
    let d1 := d.set 0 (u.gr a rs1)
    let c := u.gr a rs2
    (if rs2 = 0 then d1 else d1.set 1 ((d.getD 1 0 &&& 0xFFFFFC0F) ||| ((c &&& 63) <<< 4)),
      kindOf d != kSAMPLE || (rs2 != 0 && decide (47 < c.toNat))))

/-- `CANCL` (R241): abort handle g[rs1] under R198. -/
def execCancl (a : Agent) (rd rs1 : BitVec 5) (s : State) : Host.Outcome State Fault Refusal :=
  .next (s.angIns a { word := encR 0x36 rd rs1 0 0, g := [rd, rs1] } fun u n =>
    let r := u.abortHandle (u.gr a rs1)
    (r.1.setTg n rd.toNat (BitVec.ofNat 32 r.2)).retireIns a)

/-! ### Trims and queues -/

/-- `TRIM` (R241): the trim in force whose index is g[rs1] + zext(imm16). -/
def execTrimRead (a : Agent) (rd rs1 : BitVec 5) (imm : BitVec 16) (s : State) : Host.Outcome State Fault Refusal :=
  .next (s.angIns a { word := encI 0x37 rd rs1 imm, g := [rd, rs1] } fun u n =>
    let i := u.gr a rs1 + zext imm
    if 511 < i.toNat then u.takeExc a excLOADFAULT i
    else (u.setTg n rd.toNat (u.reg (AEN_TRM i.toNat))).retireIns a)

/-- `QPUT` (R241): the 16 bytes at data address g[rs1] go into queue `q`. -/
def execQput (a : Agent) (rd rs1 q : BitVec 5) (ecc : Ecc) (s : State) : Host.Outcome State Fault Refusal :=
  .next (s.angIns a { word := encI 0x38 rd rs1 (q.setWidth 16), g := [rd, rs1] } (beats := 1) fun u n =>
    let x := (u.gr a rs1).toNat
    if x % 16 ≠ 0 then u.takeExc a excLOADALIGN (u.gr a rs1)
    else if 0xFFF0 < x then u.takeExc a excLOADFAULT (u.gr a rs1)
    else
      let r := u.eccRead (.data (n / 32)) (threadData n x) 16 ecc
      if r.2 then r.1.takeExc a excDATAERR (u.gr a rs1)
      else
        let p := r.1.qput q.toNat (r.1.rdBytes (threadData n x) 16)
        (p.1.setTg n rd.toNat (BitVec.ofNat 32 p.2)).retireIns a)

/-- `QGET` (R241): the oldest entry of queue `q` goes to data address g[rs1]. -/
def execQget (a : Agent) (rd rs1 q : BitVec 5) (s : State) : Host.Outcome State Fault Refusal :=
  .next (s.angIns a { word := encI 0x39 rd rs1 (q.setWidth 16), g := [rd, rs1] } (beats := 1) fun u n =>
    let x := (u.gr a rs1).toNat
    if x % 16 ≠ 0 then u.takeExc a excSTOREALIGN (u.gr a rs1)
    else if 0xFFF0 < x ∨ !u.thMayWrite n x then u.takeExc a excSTOREFAULT (u.gr a rs1)
    else if u.qCount q.toNat = 0 then (u.setTg n rd.toNat 1).retireIns a
    else
      let v := (u.wrBytes (threadData n x) (u.qOldest q.toNat)).qpop q.toNat 1
      (v.setTg n rd.toNat 0).retireIns a)

/-! ### Queries, signals, end -/

/-- `SYNCQ` (R241): OBS_STATE. -/
def execSyncq (a : Agent) (rd : BitVec 5) (s : State) : Host.Outcome State Fault Refusal :=
  .next (s.angIns a { word := encR 0x3A rd 0 0 0, g := [rd] } fun u n =>
    (u.setTg n rd.toNat (OBS_STATE_GRADE.set (u.reg OBS_STATE) u.grade)).retireIns a)

/-- `ANGQ` (R241): the angle word, the slot counter, its upper part, or the rate. -/
def execAngq (a : Agent) (rd : BitVec 5) (what : Fin 4) (s : State) : Host.Outcome State Fault Refusal :=
  .next (s.angIns a { word := encR 0x3B rd 0 0 what.val, g := [rd] } fun u n =>
    let v : Word := match what with
      | 0 => u.obsAng
      | 1 => u.slotW
      | 2 => u.reg OBS_RATE
      | 3 => (u.slot.extractLsb' 32 16).setWidth 32
    (u.setTg n rd.toNat v).retireIns a)

/-- `SIGT` (R241): set SIG bit `sig` of thread g[rs1]. -/
def execSigt (a : Agent) (rd rs1 : BitVec 5) (sig : BitVec 2) (s : State) : Host.Outcome State Fault Refusal :=
  .next (s.angIns a { word := encI 0x3C rd rs1 (sig.setWidth 16), g := [rd, rs1] } fun u n =>
    let m := (u.gr a rs1).toNat
    (if m ≤ 63 then (u.setPend m (pdSIG + sig.toNat)).setTg n rd.toNat 0 else u.setTg n rd.toNat 1).retireIns a)

/-- `TEND` (R241): the thread ends. -/
def execTend (a : Agent) (s : State) : Host.Outcome State Fault Refusal :=
  .next (s.angIns a { word := encR 0x3D 0 0 0 0 } fun u n => u.thEnd n)

end Sys2Proof.Machine
end

