-- ==== Sys2Proof/Machine/GentalFlow.lean ====
section
/-! DEFINITION. Branches, jumps, system instructions and control registers (R231 to R236). -/

namespace Sys2Proof.Machine

/-- A conditional branch: pc + sext(imm16) × 4 where `f` holds of g[rs1] and g[rt] (R231). -/
def State.branchIns (s : State) (a : Agent) (op : Nat) (rt rs1 : BitVec 5) (imm : BitVec 16) (f : Word → Word → Bool) : State :=
  s.issueIns a { word := encI op rt rs1 imm, g := [rt, rs1] } {
    run := fun u =>
      if f (u.gr a rs1) (u.gr a rt) then u.branchTo a (u.pcOf a + sext imm * 4) else u.retireIns a }

/-- `BEQ` (R231). -/
def execBeq (a : Agent) (rt rs1 : BitVec 5) (imm : BitVec 16) (s : State) : Host.Outcome State Fault Refusal :=
  .next (s.branchIns a 0x12 rt rs1 imm fun x y => x == y)

/-- `BNE` (R231). -/
def execBne (a : Agent) (rt rs1 : BitVec 5) (imm : BitVec 16) (s : State) : Host.Outcome State Fault Refusal :=
  .next (s.branchIns a 0x13 rt rs1 imm fun x y => x != y)

/-- `BLT` (R231): signed less than. -/
def execBlt (a : Agent) (rt rs1 : BitVec 5) (imm : BitVec 16) (s : State) : Host.Outcome State Fault Refusal :=
  .next (s.branchIns a 0x14 rt rs1 imm fun x y => x.slt y)

/-- `BGE` (R231): signed greater or equal. -/
def execBge (a : Agent) (rt rs1 : BitVec 5) (imm : BitVec 16) (s : State) : Host.Outcome State Fault Refusal :=
  .next (s.branchIns a 0x15 rt rs1 imm fun x y => !x.slt y)

/-- `BLTU` (R231): unsigned less than. -/
def execBltu (a : Agent) (rt rs1 : BitVec 5) (imm : BitVec 16) (s : State) : Host.Outcome State Fault Refusal :=
  .next (s.branchIns a 0x16 rt rs1 imm fun x y => x.ult y)

/-- `BGEU` (R231): unsigned greater or equal. -/
def execBgeu (a : Agent) (rt rs1 : BitVec 5) (imm : BitVec 16) (s : State) : Host.Outcome State Fault Refusal :=
  .next (s.branchIns a 0x17 rt rs1 imm fun x y => !x.ult y)

/-- `JAL` (R231): link and jump relative to pc. -/
def execJal (a : Agent) (rd : BitVec 5) (imm : BitVec 16) (s : State) : Host.Outcome State Fault Refusal :=
  .next (s.issueIns a { word := encI 0x18 rd 0 imm, g := [rd] } {
    run := fun u => (u.setGr a rd (u.pcOf a + 4)).branchTo a (u.pcOf a + sext imm * 4) })

/-- `JALR` (R231): the target is formed before rd is written. -/
def execJalr (a : Agent) (rd rs1 : BitVec 5) (imm : BitVec 16) (s : State) : Host.Outcome State Fault Refusal :=
  .next (s.issueIns a { word := encI 0x19 rd rs1 imm, g := [rd, rs1] } {
    run := fun u => (u.setGr a rd (u.pcOf a + 4)).branchTo a ((u.gr a rs1 + sext imm) &&& 0xFFFFFFFC) })

/-! ### System instructions (R234) -/

/-- The form of a system instruction. -/
def sysForm (fn : Nat) (p : Profile) : Form := { word := encR 0x1A 0 0 0 fn, prof := p }

/-- A system instruction of level S: PRIV at level U (R234, R247). -/
def State.privIns (s : State) (a : Agent) (fn : Nat) (f : State → Nat → State) : State :=
  s.issueIns a (sysForm fn .onlyP) {
    run := fun u =>
      match a with
      | .pair t _ => if u.atS t then f u t else u.takeExc a excPRIV (sysForm fn .onlyP).word
      | .thread _ _ => u }

/-- `FENCE` (R234): every earlier load and store has completed. Stores complete as they are issued. -/
def execFence (a : Agent) (s : State) : Host.Outcome State Fault Refusal :=
  .next (s.issueIns a (sysForm 0 .onlyP) {
    run := fun u => match a with
      | .pair t _ => (u.settleAll t).retireIns a
      | .thread _ _ => u })

/-- `ECALL` (R234, R247): the exception ECALL; EVAL is the level it was issued at. -/
def execEcall (a : Agent) (s : State) : Host.Outcome State Fault Refusal :=
  .next (s.issueIns a (sysForm 1 .onlyP) {
    run := fun u => match a with
      | .pair t _ => u.takeExc a excECALL (flagWord (u.atS t))
      | .thread _ _ => u })

/-- `ERET` (R234, R330): the exit sequence. -/
def execEret (a : Agent) (s : State) : Host.Outcome State Fault Refusal :=
  .next (s.privIns a 2 fun u t => (u.retirePair t).pairExit t)

/-- `WFI` (R234): the pair waits while no interrupt is pending above its threshold. -/
def execWfi (a : Agent) (s : State) : Host.Outcome State Fault Refusal :=
  .next (s.privIns a 3 fun u t =>
    let v := u.retireIns a
    v.updPair t fun x => { x with wfi := decide (v.claimable t = 0) })

/-- `BRK` (R234, R636, R637): a halt where Loupe asks for it, else the exception BRK. -/
def execBrk (a : Agent) (s : State) : Host.Outcome State Fault Refusal :=
  .next (s.issueIns a (sysForm 4 .both) {
    run := fun u =>
      match a with
      | .pair t _ => if s.brkHaltsPair t then (u.settleAll t).haltPair t true else u.takeExc a excBRK 0
      | .thread n _ => if u.brkHaltsThread n then (u.setTh n thHALTED).raise DBG_EVT DBG_EVT_THALT else u.takeExc a excBRK 0 })

/-! ### Control registers (R235, R236) -/

/-- A read of control register `c` of pair `t`: a counter's low half latches its high half. -/
def State.csrRead (s : State) (t c : Nat) : State × Word :=
  let low : Nat → Nat → State × Word := fun n hi => (s.setCsr t hi (BitVec.ofNat 32 (n / 2 ^ 32)), BitVec.ofNat 32 n)
  if c = csCYCLEL then low s.sys.clocks csCYCLEH
  else if c = csINSTRL then low (s.pair t).instrs csINSTRH
  else if c = csCOREID then (s, BitVec.ofNat 32 t)
  else if c = csISAVER then (s, 0x00010000)
  else (s, s.csr t c)

/-- The word a control register holds after `w` is written: RO fields and reserved bits keep what they hold. -/
def csrMerge (c : Nat) (old w : Word) : Word :=
  if c = csSTATUS then (old &&& 0xFFFFFFFE) ||| (w &&& 1)
  else if c = csVBASE then w &&& 0xFFFFFF00
  else if c = csFCSR then w &&& 0x1F3
  else w

/-- The value lies in the legal range of the register's fields (R236). -/
def csrLegal (c : Nat) (w : Word) : Bool := c != csEPC || w &&& 3 == 0

/-- `CSRR` (R235): read a control register. -/
def execCsrr (a : Agent) (rd : BitVec 5) (num : BitVec 16) (s : State) : Host.Outcome State Fault Refusal :=
  let x : Form := { word := encI 0x1B rd 0 num, prof := .onlyP, g := [rd] }
  .next (s.issueIns a x {
    run := fun u =>
      match a, csrPlace num.toNat with
      | .pair t _, some c =>
        if u.atS t || csrUser c then
          let r := u.csrRead t c
          (r.1.setGr a rd r.2).retireIns a
        else u.takeExc a excPRIV x.word
      | .pair _ _, none => u.takeExc a excILLEGAL x.word
      | .thread _ _, _ => u })

/-- `CSRW` (R235): write a control register. -/
def execCsrw (a : Agent) (rs1 : BitVec 5) (num : BitVec 16) (s : State) : Host.Outcome State Fault Refusal :=
  let x : Form := { word := encI 0x1C 0 rs1 num, prof := .onlyP, g := [rs1] }
  .next (s.issueIns a x {
    run := fun u =>
      match a, csrPlace num.toNat with
      | .pair t _, some c =>
        let w := u.gr a rs1
        if !csrWritable c || !csrLegal c w then u.takeExc a excILLEGAL x.word
        else if u.atS t || csrUser c then (u.setCsr t c (csrMerge c (u.csr t c) w)).retireIns a
        else u.takeExc a excPRIV x.word
      | .pair _ _, none => u.takeExc a excILLEGAL x.word
      | .thread _ _, _ => u })

end Sys2Proof.Machine
end

