-- ==== Sys2Proof/Machine/GentalFp.lean ====
section
/-! DEFINITION. The floating-point instructions (R237, R238), over the binary32 arithmetic of `Float.lean`. -/

namespace Sys2Proof.Machine

/-- The rounding mode FCSR.RM. -/
def State.rm (s : State) (a : Agent) : Nat :=
  match a with
  | .pair t _ => (s.csr t csFCSR).toNat % 4
  | .thread _ _ => 0

/-- Exceptions set sticky flags (R237): the flags of `fl` join FCSR.FLAGS. -/
def State.addFlags (s : State) (a : Agent) (fl : Nat) : State :=
  match a with
  | .pair t _ => s.setCsr t csFCSR (s.csr t csFCSR ||| BitVec.ofNat 32 (fl % 32 * 16))
  | .thread _ _ => s

/-- The form of a floating-point instruction. -/
def fpForm (fn : Nat) (rd rs1 rs2 : BitVec 5) (g f : List (BitVec 5)) : Form :=
  { word := encR 0x20 rd rs1 rs2 fn, prof := .onlyP, g := g, f := f }

/-- A floating-point instruction with a result in f[rd]. -/
def State.toF (s : State) (a : Agent) (x : Form) (rd : BitVec 5) (v : State → Word × Nat) : State :=
  s.issueIns a x { run := fun u => ((u.setFr a rd (v u).1).addFlags a (v u).2).retireIns a }

/-- A floating-point instruction with a result in g[rd]. -/
def State.toG (s : State) (a : Agent) (x : Form) (rd : BitVec 5) (v : State → Word × Nat) : State :=
  s.issueIns a x { run := fun u => ((u.setGr a rd (v u).1).addFlags a (v u).2).retireIns a }

/-- An operation on f[rs1] and f[rs2]; `f` takes the rounding mode first. -/
def State.fp2 (s : State) (a : Agent) (fn : Nat) (rd rs1 rs2 : BitVec 5) (f : Nat → Word → Word → Word × Nat) : State :=
  s.toF a (fpForm fn rd rs1 rs2 [] [rd, rs1, rs2]) rd fun u => f (u.rm a) (u.fr a rs1) (u.fr a rs2)

/-- An operation on f[rs1]. -/
def State.fp1 (s : State) (a : Agent) (fn : Nat) (rd rs1 : BitVec 5) (f : Nat → Word → Word × Nat) : State :=
  s.toF a (fpForm fn rd rs1 0 [] [rd, rs1]) rd fun u => f (u.rm a) (u.fr a rs1)

/-- An operation on f[rs1] with its result in g[rd]. -/
def State.fpG (s : State) (a : Agent) (fn : Nat) (rd rs1 : BitVec 5) (f : Nat → Word → Word × Nat) : State :=
  s.toG a (fpForm fn rd rs1 0 [rd] [rs1]) rd fun u => f (u.rm a) (u.fr a rs1)

/-- An operation on g[rs1] with its result in f[rd]. -/
def State.fpOfG (s : State) (a : Agent) (fn : Nat) (rd rs1 : BitVec 5) (f : Nat → Word → Word × Nat) : State :=
  s.toF a (fpForm fn rd rs1 0 [rs1] [rd]) rd fun u => f (u.rm a) (u.gr a rs1)

/-- A comparison of f[rs1] with f[rs2] into g[rd]. -/
def State.fpCmp (s : State) (a : Agent) (fn : Nat) (rd rs1 rs2 : BitVec 5) (f : Word → Word → Word × Nat) : State :=
  s.toG a (fpForm fn rd rs1 rs2 [rd] [rs1, rs2]) rd fun u => f (u.fr a rs1) (u.fr a rs2)

/-- The relation of two values as one bit (R238). -/
def fRelation (x y : Word) : Word :=
  if fIsNaN x || fIsNaN y then 8 else if fLt x y then 1 else if fEq x y then 2 else 4

/-- The type of a value (R238). -/
def fType (x : Word) : Word :=
  let e := x.toNat / 2 ^ 23 % 256
  let m := x.toNat % 2 ^ 23
  let k := if e = 255 then (if m = 0 then 3 else if bitOf x 22 then 4 else 5)
    else if e = 0 then (if m = 0 then 0 else 1) else 2
  BitVec.ofNat 32 (k + 8 * b2n (bitOf x 31))

/-- The smallest and largest value of a signed word. -/
abbrev intLo : Int := -(2 ^ 31)
abbrev intHi : Int := 2 ^ 31 - 1

/-- `FADD` (R238): sum. -/
def execFadd (a : Agent) (rd rs1 rs2 : BitVec 5) (s : State) : Host.Outcome State Fault Refusal :=
  .next (s.fp2 a 0 rd rs1 rs2 fAddX)

/-- `FSUB` (R238): difference. -/
def execFsub (a : Agent) (rd rs1 rs2 : BitVec 5) (s : State) : Host.Outcome State Fault Refusal :=
  .next (s.fp2 a 1 rd rs1 rs2 fSubX)

/-- `FMUL` (R238): product. -/
def execFmul (a : Agent) (rd rs1 rs2 : BitVec 5) (s : State) : Host.Outcome State Fault Refusal :=
  .next (s.fp2 a 2 rd rs1 rs2 fMulX)

/-- `FDIV` (R238): quotient. -/
def execFdiv (a : Agent) (rd rs1 rs2 : BitVec 5) (s : State) : Host.Outcome State Fault Refusal :=
  .next (s.fp2 a 3 rd rs1 rs2 fDivX)

/-- `FSQRT` (R238): square root. -/
def execFsqrt (a : Agent) (rd rs1 : BitVec 5) (s : State) : Host.Outcome State Fault Refusal :=
  .next (s.fp1 a 4 rd rs1 fSqrtX)

/-- `FMIN` (R238): minimum. -/
def execFmin (a : Agent) (rd rs1 rs2 : BitVec 5) (s : State) : Host.Outcome State Fault Refusal :=
  .next (s.fp2 a 5 rd rs1 rs2 fun _ => fMinMaxX false)

/-- `FMAX` (R238): maximum. -/
def execFmax (a : Agent) (rd rs1 rs2 : BitVec 5) (s : State) : Host.Outcome State Fault Refusal :=
  .next (s.fp2 a 6 rd rs1 rs2 fun _ => fMinMaxX true)

/-- `FMINN` (R238): minimumNumber. -/
def execFminn (a : Agent) (rd rs1 rs2 : BitVec 5) (s : State) : Host.Outcome State Fault Refusal :=
  .next (s.fp2 a 7 rd rs1 rs2 fun _ => fMinMaxNumX false)

/-- `FMAXN` (R238): maximumNumber. -/
def execFmaxn (a : Agent) (rd rs1 rs2 : BitVec 5) (s : State) : Host.Outcome State Fault Refusal :=
  .next (s.fp2 a 8 rd rs1 rs2 fun _ => fMinMaxNumX true)

/-- `FABS` (R238): magnitude, no flags. -/
def execFabs (a : Agent) (rd rs1 : BitVec 5) (s : State) : Host.Outcome State Fault Refusal :=
  .next (s.fp1 a 9 rd rs1 fun _ x => (fAbs x, 0))

/-- `FNEG` (R238): sign inverted, no flags. -/
def execFneg (a : Agent) (rd rs1 : BitVec 5) (s : State) : Host.Outcome State Fault Refusal :=
  .next (s.fp1 a 10 rd rs1 fun _ x => (fNeg x, 0))

/-- `FCPYS` (R238): the sign of the second operand, no flags. -/
def execFcpys (a : Agent) (rd rs1 rs2 : BitVec 5) (s : State) : Host.Outcome State Fault Refusal :=
  .next (s.fp2 a 11 rd rs1 rs2 fun _ x y => (fAbs x ||| (y &&& 0x80000000), 0))

/-- `FCMP` (R238): quiet comparison. -/
def execFcmp (a : Agent) (rd rs1 rs2 : BitVec 5) (s : State) : Host.Outcome State Fault Refusal :=
  .next (s.fpCmp a 12 rd rs1 rs2 fun x y => (fRelation x y, b2n (fIsSNaN x || fIsSNaN y)))

/-- `FCMPS` (R238): signalling comparison. -/
def execFcmps (a : Agent) (rd rs1 rs2 : BitVec 5) (s : State) : Host.Outcome State Fault Refusal :=
  .next (s.fpCmp a 13 rd rs1 rs2 fun x y => (fRelation x y, b2n (fIsNaN x || fIsNaN y)))

/-- `FTYPE` (R238): type of the value, no flags. -/
def execFtype (a : Agent) (rd rs1 : BitVec 5) (s : State) : Host.Outcome State Fault Refusal :=
  .next (s.fpG a 14 rd rs1 fun _ x => (fType x, 0))

/-- `FTOI` (R238): signed integer. -/
def execFtoi (a : Agent) (rd rs1 : BitVec 5) (s : State) : Host.Outcome State Fault Refusal :=
  .next (s.fpG a 15 rd rs1 fun m x => fToIntX m intLo intHi x)

/-- `FTOIZ` (R238): signed integer, toward zero. -/
def execFtoiz (a : Agent) (rd rs1 : BitVec 5) (s : State) : Host.Outcome State Fault Refusal :=
  .next (s.fpG a 16 rd rs1 fun _ x => fToIntX 3 intLo intHi x)

/-- `FTOIU` (R238): unsigned integer. -/
def execFtoiu (a : Agent) (rd rs1 : BitVec 5) (s : State) : Host.Outcome State Fault Refusal :=
  .next (s.fpG a 17 rd rs1 fun m x => fToIntX m 0 (2 ^ 32 - 1) x)

/-- `FITOF` (R238): from a signed integer. -/
def execFitof (a : Agent) (rd rs1 : BitVec 5) (s : State) : Host.Outcome State Fault Refusal :=
  .next (s.fpOfG a 18 rd rs1 fun m x => fOfIntX m x.toInt)

/-- `FUTOF` (R238): from an unsigned integer. -/
def execFutof (a : Agent) (rd rs1 : BitVec 5) (s : State) : Host.Outcome State Fault Refusal :=
  .next (s.fpOfG a 19 rd rs1 fun m x => fOfIntX m x.toNat)

/-- `FMVGF` (R238): bits to a general register. -/
def execFmvgf (a : Agent) (rd rs1 : BitVec 5) (s : State) : Host.Outcome State Fault Refusal :=
  .next (s.fpG a 20 rd rs1 fun _ x => (x, 0))

/-- `FMVFG` (R238): bits from a general register. -/
def execFmvfg (a : Agent) (rd rs1 : BitVec 5) (s : State) : Host.Outcome State Fault Refusal :=
  .next (s.fpOfG a 21 rd rs1 fun _ x => (x, 0))

/-- `FMAC` (R238): multiply and add, rounded once. -/
def execFmac (a : Agent) (rd rs1 rs2 : BitVec 5) (s : State) : Host.Outcome State Fault Refusal :=
  .next (s.toF a (fpForm 22 rd rs1 rs2 [] [rd, rs1, rs2]) rd fun u => fMacX (u.rm a) false (u.fr a rd) (u.fr a rs1) (u.fr a rs2))

/-- `FMSC` (R238): multiply and subtract, rounded once. -/
def execFmsc (a : Agent) (rd rs1 rs2 : BitVec 5) (s : State) : Host.Outcome State Fault Refusal :=
  .next (s.toF a (fpForm 23 rd rs1 rs2 [] [rd, rs1, rs2]) rd fun u => fMacX (u.rm a) true (u.fr a rd) (u.fr a rs1) (u.fr a rs2))

/-- `FSCL` (R238): scaleB by the signed integer g[rs2]. -/
def execFscl (a : Agent) (rd rs1 rs2 : BitVec 5) (s : State) : Host.Outcome State Fault Refusal :=
  .next (s.toF a (fpForm 24 rd rs1 rs2 [rs2] [rd, rs1]) rd fun u => fScaleX (u.rm a) (u.fr a rs1) (u.gr a rs2).toInt)

end Sys2Proof.Machine
end

