-- ==== Sys2Proof/Machine/Loupe.lean ====
section
/-! DEFINITION. Loupe's commands and the packets it sends (R630 to R635). -/

namespace Sys2Proof.Machine

/-- Status codes of a RESP (R632). -/
abbrev lpOK : Nat := 0
abbrev lpBUSERR : Nat := 1
abbrev lpLOCKED : Nat := 2
abbrev lpNOTHALT : Nat := 3
abbrev lpOP : Nat := 4

/-- Packets leave over the lanes. -/
def State.lanes (s : State) (l : List (List Byte)) : State := s.updDbg fun d => { d with sent := l }

/-- A RESP packet (R633). -/
def respPacket (tag status : Nat) (data : Word) : List Byte :=
  let l := packetHead 2 tag :: toBytes 1 status ++ toBytes 4 data.toNat
  l ++ toBytes 2 (crc16 l)

/-- A command is answered; BUSERR and LOCKED send an ACCESS message with ADDR (R632). -/
def State.loupeAnswer (s : State) (tag status : Nat) (data addr : Word) (after : List (List Byte)) : State :=
  let s1 := s.lanes (respPacket tag status data :: after)
  if status = lpBUSERR ∨ status = lpLOCKED then (s1.raise DBG_EVT DBG_EVT_ACCESS).sendFault blkDBG 0 0x07 clsC addr.toNat else s1

/-- A frame with a wrong CRC or stop bit is discarded, and no start bit is accepted before 16 idle bits (R631). -/
def State.loupeBad (s : State) : State :=
  ((s.updDbg fun d => { d with bad := true, sent := [] }).count DBG_CNT DBG_CNT_CMDERR 1).raise DBG_EVT DBG_EVT_CMDERR

/-- A command frame (R630, R631): after 16 idle bits where Loupe waits for them; `act` carries it out while Loupe is open. -/
def State.loupeFrame (s : State) (tag : Nat) (addr : Word) (good idle : Bool) (act : State → State) : State :=
  if s.dbg.bad && !idle then s.lanes []
  else if !good then s.loupeBad
  else
    let s1 := s.updDbg fun d => { d with bad := false }
    if s1.loupeOpen then act s1 else s1.loupeAnswer tag lpLOCKED 0 addr []

/-- The word an access names. -/
def loupeWord (addr : Word) : Nat := addr.toNat / 4 * 4

/-- An access in the private window of the pair `DBG_CTRL.PSEL` names, which must be halted (R632); an uncorrectable word is an
error response. -/
def State.loupeWindowRead (s : State) (a : Nat) (ecc : Ecc) : State × Word × Nat :=
  let t := s.fld DBG_CTRL DBG_CTRL_PSEL
  if !s.pairHalted t then (s, 0, lpNOTHALT)
  else
    let r := s.eccRead (windowMem t a) a 4 ecc
    if r.2 then (r.1, 0, lpBUSERR) else (r.1, r.1.rd32 (windowKey t a), lpOK)

/-- READ (R632). -/
def State.loupeRead (s : State) (a : Nat) (ecc : Ecc) : State × Word × Nat :=
  if inWindow a then s.loupeWindowRead a ecc
  else
    let r := s.busRead .loupe a 4 ecc
    (r.1, BitVec.ofNat 32 r.2.1, if r.2.2 = .ok then lpOK else lpBUSERR)

/-- WRITE (R632). -/
def State.loupeWrite (s : State) (a : Nat) (w : Word) (ecc : Ecc) : State × Nat :=
  if inWindow a then
    let t := s.fld DBG_CTRL DBG_CTRL_PSEL
    if s.pairHalted t then (s.wr32 (windowKey t a) w, lpOK) else (s, lpNOTHALT)
  else
    let r := s.busWrite .loupe a (toBytes 4 w.toNat) ecc
    (r.1, if r.2 = .ok then lpOK else lpBUSERR)

/-! ### Commands -/

/-- `LOUPE_NOP` (R631). -/
def execLoupeNop (tag : BitVec 4) (addr : Word) (good idle : Bool) (s : State) : Host.Outcome State Fault Refusal :=
  .next (s.loupeFrame tag.toNat addr good idle fun t => t.loupeAnswer tag.toNat lpOK 0 addr [])

/-- `LOUPE_READ` (R632). -/
def execLoupeRead (tag : BitVec 4) (addr : Word) (good idle : Bool) (ecc : Ecc) (s : State) : Host.Outcome State Fault Refusal :=
  .next (s.loupeFrame tag.toNat addr good idle fun t =>
    let r := t.loupeRead (loupeWord addr) ecc
    r.1.loupeAnswer tag.toNat r.2.2 r.2.1 addr [])

/-- `LOUPE_WRITE` (R632). -/
def execLoupeWrite (tag : BitVec 4) (addr w : Word) (good idle : Bool) (ecc : Ecc) (s : State) :
    Host.Outcome State Fault Refusal :=
  .next (s.loupeFrame tag.toNat addr good idle fun t =>
    let r := t.loupeWrite (loupeWord addr) w ecc
    r.1.loupeAnswer tag.toNat r.2 0 addr [])

/-- `RESYNC` (R631): a SYNC packet follows the RESP. -/
def execResync (tag : BitVec 4) (addr : Word) (good idle : Bool) (s : State) : Host.Outcome State Fault Refusal :=
  .next (s.loupeFrame tag.toNat addr good idle fun t => t.loupeAnswer tag.toNat lpOK 0 addr [t.syncPacket])

/-- `LOUPE_UNUSED_OP` (R631): an OP other than 0 to 3. -/
def execLoupeUnusedOp (tag : BitVec 4) (addr : Word) (good idle : Bool) (s : State) : Host.Outcome State Fault Refusal :=
  .next (s.loupeFrame tag.toNat addr good idle fun t => t.loupeAnswer tag.toNat lpOP 0 addr [])

/-- `LOUPE_SYNC` (R634): Loupe has sent `n` packets of the trace buffer, oldest first, and sends a SYNC packet. -/
def execLoupeSync (n : Nat) (s : State) : Host.Outcome State Fault Refusal :=
  let s1 := s.lanes (s.dbg.buf.take n ++ [s.syncPacket])
  .next (s1.updDbg fun d => { d with buf := d.buf.drop n }).showFill

/-- The packets that leave a buffer until at most half of it is full, and the rest. -/
def drainHalf : List (List Byte) → List (List Byte) × List (List Byte)
  | [] => ([], [])
  | p :: t =>
    if (((p :: t).map List.length).sum) ≤ 2048 then ([], p :: t)
    else
      let r := drainHalf t
      (p :: r.1, r.2)

/-- `TRACE_RESUME` (R635): the buffer has drained to half full after a loss: a LOSS packet with the count, then a SYNC. -/
def execTraceResume (s : State) : Host.Outcome State Fault Refusal :=
  match s.dbg.lost with
  | none => .next s
  | some n =>
    let r := drainHalf s.dbg.buf
    let loss := packetHead 8 0 :: toBytes 2 (capAt 65535 n)
    let s1 := (s.lanes (r.1 ++ [loss, s.syncPacket])).updDbg fun d => { d with buf := r.2, lost := none }
    .next ((s1.showFill.count DBG_CNT DBG_CNT_LOSS n).raise DBG_EVT DBG_EVT_LOSS)

end Sys2Proof.Machine
end

