-- ==== Sys2Proof/Machine/Spi.lean ====
section
/-! DEFINITION. Transactions of the SPI target port (R545 to R547). -/

namespace Sys2Proof.Machine

/-- Status codes (R546). -/
abbrev spOK : Nat := 0
abbrev spCRC : Nat := 1
abbrev spACCESS : Nat := 2
abbrev spLEN : Nat := 3
abbrev spTOUT : Nat := 4
abbrev spBUSERR : Nat := 5
abbrev spQFULL : Nat := 6
abbrev spQEMPTY : Nat := 7
abbrev spFRAME : Nat := 8

/-- The port takes transactions: enabled, or served by the boot ROM in RECOVERY. -/
def State.spiOn (s : State) : Bool := s.bit SPI_APPLIED 0 || s.boot.recovery

/-- The event of a status code: DONE, CRC, ACCESS, TOUT, FRAME. -/
def spiEvent (code : Nat) : Option Nat :=
  if code = spOK then some SPI_EVT_DONE else if code = spCRC then some SPI_EVT_CRC else if code = spACCESS then some SPI_EVT_ACCESS
  else if code = spTOUT then some SPI_EVT_TOUT else if code = spFRAME then some SPI_EVT_FRAME else none

/-- A transaction ends with a status: the status word, its event, the counts, and for a refusal a message with the code; an empty
queue refuses nothing (R546). -/
def State.spiEnd (s : State) (code : Nat) : State :=
  let n := ((s.reg SPI_STAT).toNat / 256 + 1) % 256
  let s1 := s.setReg SPI_STAT (BitVec.ofNat 32 (code + 256 * n + 65536 * b2n s.boot.recovery))
  let s2 := match spiEvent code with
    | some e => s1.raise SPI_EVT e
    | none => s1
  if code = spOK ∨ code = spQEMPTY then s2.count SPI_CNT SPI_CNT_OK 1
  else (s2.count SPI_CNT SPI_CNT_REFUSED 1).sendFault blkSPI 0 0x07 clsC code

/-- How a transaction came in: whole, or with a wrong CRC, a wrong count of words, or a part of a word. -/
def spiForm : SpiForm → Nat
  | .good => spOK
  | .badCrc => spCRC
  | .badLen => spLEN
  | .badFrame => spFRAME

/-- A transaction is carried out by `act`, which answers its status code, unless it came in wrong. -/
def State.spiDo (s : State) (f : SpiForm) (act : State → State × Nat) : State :=
  if !s.spiOn then s
  else if spiForm f ≠ spOK then s.spiEnd (spiForm f)
  else
    let r := act s
    r.1.spiEnd r.2

/-- The address of a word offset in window `w`, where `n` words from it lie inside the window. -/
def State.spiAddr (s : State) (w off n : Nat) : Option Nat :=
  let k := SPI_WIN w
  if 4 * (off + n) ≤ 2 ^ (10 + s.fld k SPI_WIN_LOG2) then some (s.fld k SPI_WIN_BASE * 1024 + 4 * off) else none

/-- SRAM accesses are charged to the host buffers' account (R497). -/
def State.spiCharge (s : State) (a : Nat) : State := if sramBeats a = 1 then s.budDraw (s.binding 5) resFABRIC 1 else s

/-- `n` words are read from an address on, until one is refused. -/
def State.spiReads (s : State) (a : Nat) (ecc : Ecc) : Nat → State × List Word × Bool
  | 0 => (s, [], true)
  | n + 1 =>
    let r := (s.spiCharge a).busRead .spi a 4 ecc
    match r.2.2 with
    | .ok =>
      let q := r.1.spiReads (a + 4) ecc n
      (q.1, BitVec.ofNat 32 r.2.1 :: q.2.1, q.2.2)
    | .refused | .bad => (r.1, [], false)

/-- Words are written from an address on, until one is refused. -/
def State.spiWrites (s : State) (a : Nat) (ecc : Ecc) : List Word → State × Bool
  | [] => (s, true)
  | w :: t =>
    let r := (s.spiCharge a).busWrite .spi a (toBytes 4 w.toNat) ecc
    match r.2 with
    | .ok => r.1.spiWrites (a + 4) ecc t
    | .refused | .bad => (r.1, false)

/-- READ of `n` words. -/
def State.spiRead (s : State) (w off n : Nat) (ecc : Ecc) : State × Nat :=
  match s.spiAddr w off n with
  | some a =>
    if s.boot.recovery || s.fld (SPI_WIN w) SPI_WIN_RD == 0 then (s, spACCESS)
    else
      let r := s.spiReads a ecc n
      if r.2.2 then ({ r.1 with spi := { r.1.spi with out := r.2.1 } }, spOK) else (r.1, spBUSERR)
  | none => (s, spACCESS)

/-- WRITE. -/
def State.spiPut (s : State) (w off : Nat) (l : List Word) (ecc : Ecc) : State × Nat :=
  match s.spiAddr w off l.length with
  | some a =>
    if s.boot.recovery || s.fld (SPI_WIN w) SPI_WIN_WR == 0 then (s, spACCESS)
    else
      let r := s.spiWrites a ecc l
      (r.1, if r.2 then spOK else spBUSERR)
  | none => (s, spACCESS)

/-- QPUT. -/
def State.spiQput (s : State) (q : Nat) (l : List Word) : State × Nat :=
  if l.length ≠ 4 then (s, spLEN)
  else if s.boot.recovery || !s.bit SPI_QEN q then (s, spACCESS)
  else
    let r := s.qputFor (s.binding 5) q (wordsToBytes l)
    (r.1, if r.2 = qPUT then spOK else spQFULL)

/-- QGET. -/
def State.spiQget (s : State) (q : Nat) : State × Nat :=
  if s.boot.recovery || !s.bit SPI_QEN q then (s, spACCESS)
  else if s.qCount q = 0 then (s, spQEMPTY)
  else
    let a := s.qAddr q (s.fld (QUE_QTAIL q) QUE_QTAIL_INDEX)
    let s1 := s.spiCharge 0x20000000
    ({ s1.qpop q 1 with spi := { s1.spi with out := s.rdWords a 4 } }, spOK)

/-- RLOAD, in RECOVERY alone: the words go to SRAM. -/
def State.spiLoad (s : State) (off : Nat) (l : List Word) : State × Nat :=
  if s.boot.recovery && decide (4 * (off + l.length) ≤ 0x800000)
  then (s.wrBytes (0x20000000 + 4 * off) (wordsToBytes l), spOK) else (s, spACCESS)

/-- The staged image is written to slot A or C0, a record names it, and the unit is reset (R547). -/
def State.spiAdopt (s : State) (cal : Bool) : State :=
  let b := 0x20000000
  let s1 := s.wrBytes (slotBase cal 0) (s.rdBytes b (256 + s.imgLen b))
  let c := s1.ctlRec
  (s1.ctlWrite (if cal then { c with cactive := 0, ctry := 0 } else { c with active := 0, try_ := 0 })).askReset 5 0

/-- RCOMMIT, in RECOVERY alone: the staged image is verified under R308. -/
def State.spiCommit (s : State) (typ : Nat) : State × Nat :=
  let b := 0x20000000
  let cal := typ == 2
  if !s.boot.recovery || (typ != 1 && typ != 2) then (s, spACCESS)
  else if s.imageOk b (slotSize cal) cal then (s.spiAdopt cal, spOK)
  else (s, if decide (256 + s.imgLen b ≤ slotSize cal) && !s.digestOk b then spCRC else spACCESS)

/-! ### Commands -/

/-- `SPI_READ` (R546). -/
def execSpiRead (win : Fin 4) (off : BitVec 22) (len : BitVec 4) (form : SpiForm) (ecc : Ecc) (s : State) :
    Host.Outcome State Fault Refusal :=
  .next (s.spiDo form fun t => t.spiRead win off.toNat (len.toNat + 1) ecc)

/-- `SPI_WRITE` (R546): applied after SPI_CS_N has risen. -/
def execSpiWrite (win : Fin 4) (off : BitVec 22) (data : List Word) (form : SpiForm) (ecc : Ecc) (s : State) :
    Host.Outcome State Fault Refusal :=
  .next (s.spiDo form fun t => t.spiPut win off.toNat data ecc)

/-- `SPI_QPUT` (R546). -/
def execSpiQput (q : BitVec 5) (data : List Word) (form : SpiForm) (s : State) : Host.Outcome State Fault Refusal :=
  .next (s.spiDo form fun t => t.spiQput q.toNat data)

/-- `SPI_QGET` (R546): LEN must be 3. -/
def execSpiQget (q : BitVec 5) (len : BitVec 4) (form : SpiForm) (s : State) : Host.Outcome State Fault Refusal :=
  .next (s.spiDo form fun t => if len.toNat = 3 then t.spiQget q.toNat else (t, spLEN))

/-- `SPI_NOP` (R547). -/
def execSpiNop (form : SpiForm) (s : State) : Host.Outcome State Fault Refusal := .next (s.spiDo form fun t => (t, spOK))

/-- `RLOAD` (R547). -/
def execRload (off : BitVec 22) (data : List Word) (form : SpiForm) (s : State) : Host.Outcome State Fault Refusal :=
  .next (s.spiDo form fun t => t.spiLoad off.toNat data)

/-- `RCOMMIT` (R547). -/
def execRcommit (typ : Word) (form : SpiForm) (s : State) : Host.Outcome State Fault Refusal :=
  .next (s.spiDo form fun t => t.spiCommit typ.toNat)

/-- `SPI_TOUT` (R546): SPI_CS_N has stayed low longer than SPI_TOUT. -/
def execSpiTout (s : State) : Host.Outcome State Fault Refusal := .next (if s.spiOn then s.spiEnd spTOUT else s)

end Sys2Proof.Machine
end

