-- ==== Sys2Proof/Machine/Dispatch.lean ====
section
/-! DEFINITION. Which meaning each command has: one arm per constructor, each one direct call. -/

namespace Sys2Proof.Machine

/-- The effect of a command on everything but the queue. -/
def exec (i : Instr) (s : State) : Host.Outcome State Fault Refusal :=
  match i with
  | .registerWrite m addr w => Sys2Proof.Machine.execRegisterWrite m addr w s
  | .crossingDelivery src dst good => Sys2Proof.Machine.execCrossingDelivery src dst good s
  | .stuck src dst => Sys2Proof.Machine.execStuck src dst s
  | .keepalive toHv good => Sys2Proof.Machine.execKeepalive toHv good s
  | .linkLossHv => Sys2Proof.Machine.execLinkLossHv s
  | .referenceLoss => Sys2Proof.Machine.execReferenceLoss s
  | .linkloss => Sys2Proof.Machine.execLinkloss s
  | .linkRetrain => Sys2Proof.Machine.execLinkRetrain s
  | .budgetFramePulse => Sys2Proof.Machine.execBudgetFramePulse s
  | .framePulseAtMeter isl => Sys2Proof.Machine.execFramePulseAtMeter isl s
  | .budgetOverrunReport src => Sys2Proof.Machine.execBudgetOverrunReport src s
  | .vsysHvHold => Sys2Proof.Machine.execVsysHvHold s
  | .porstAssert => Sys2Proof.Machine.execPorstAssert s
  | .railResetCrossing rail => Sys2Proof.Machine.execRailResetCrossing rail s
  | .porRelease warn => Sys2Proof.Machine.execPorRelease warn s
  | .supplyWarning rail => Sys2Proof.Machine.execSupplyWarning rail s
  | .systemReset => Sys2Proof.Machine.execSystemReset s
  | .systemResetEnd => Sys2Proof.Machine.execSystemResetEnd s
  | .resetHoldEnd => Sys2Proof.Machine.execResetHoldEnd s
  | .rstnInput => Sys2Proof.Machine.execRstnInput s
  | .sysRst w => Sys2Proof.Machine.execSysRst w s
  | .crystalValid => Sys2Proof.Machine.execCrystalValid s
  | .pllLock pll => Sys2Proof.Machine.execPllLock pll s
  | .clkfail code => Sys2Proof.Machine.execClkfail code s
  | .rtcf => Sys2Proof.Machine.execRtcf s
  | .alarmArm w => Sys2Proof.Machine.execAlarmArm w s
  | .alarmMatch => Sys2Proof.Machine.execAlarmMatch s
  | .sleepGo active => Sys2Proof.Machine.execSleepGo active s
  | .sleepEnter => Sys2Proof.Machine.execSleepEnter s
  | .wakeUp src => Sys2Proof.Machine.execWakeUp src s
  | .vrHalfWave n positive peak => Sys2Proof.Machine.execVrHalfWave n positive peak s
  | .hallThresholdCrossing n up => Sys2Proof.Machine.execHallThresholdCrossing n up s
  | .edgeFilterPass n => Sys2Proof.Machine.execEdgeFilterPass n s
  | .directionPulseEnd n => Sys2Proof.Machine.execDirectionPulseEnd n s
  | .toothDelivery n => Sys2Proof.Machine.execToothDelivery n s
  | .windowClose n => Sys2Proof.Machine.execWindowClose n s
  | .wheelTimeout n => Sys2Proof.Machine.execWheelTimeout n s
  | .camEdge => Sys2Proof.Machine.execCamEdge s
  | .camloss => Sys2Proof.Machine.execCamloss s
  | .secondaryTooth => Sys2Proof.Machine.execSecondaryTooth s
  | .provisionalPrediction => Sys2Proof.Machine.execProvisionalPrediction s
  | .ceil => Sys2Proof.Machine.execCeil s
  | .cycleBoundary => Sys2Proof.Machine.execCycleBoundary s
  | .wheelEnable w => Sys2Proof.Machine.execWheelEnable w s
  | .wheelDisable w => Sys2Proof.Machine.execWheelDisable w s
  | .whlClrCnt wheels => Sys2Proof.Machine.execWhlClrCnt wheels s
  | .whlSlotlRead => Sys2Proof.Machine.execWhlSlotlRead s
  | .echoEnable k w => Sys2Proof.Machine.execEchoEnable k w s
  | .echoDisable k w => Sys2Proof.Machine.execEchoDisable k w s
  | .echoPulseEnd k => Sys2Proof.Machine.execEchoPulseEnd k s
  | .followEdge k => Sys2Proof.Machine.execFollowEdge k s
  | .echoRampStep k => Sys2Proof.Machine.execEchoRampStep k s
  | .obsEnable w => Sys2Proof.Machine.execObsEnable w s
  | .obsDisable w => Sys2Proof.Machine.execObsDisable w s
  | .obsAngRead => Sys2Proof.Machine.execObsAngRead s
  | .obsClrFact wheels => Sys2Proof.Machine.execObsClrFact wheels s
  | .obsClrTors => Sys2Proof.Machine.execObsClrTors s
  | .obsClrJmax => Sys2Proof.Machine.execObsClrJmax s
  | .reseek => Sys2Proof.Machine.execReseek s
  | .phaseKeep => Sys2Proof.Machine.execPhaseKeep s
  | .phaseAdd => Sys2Proof.Machine.execPhaseAdd s
  | .swapSource => Sys2Proof.Machine.execSwapSource s
  | .dropSync => Sys2Proof.Machine.execDropSync s
  | .policyPost t w => Sys2Proof.Machine.execPolicyPost t w s
  | .policyAbort t h => Sys2Proof.Machine.execPolicyAbort t h s
  | .abortArrival => Sys2Proof.Machine.execAbortArrival s
  | .bucketWalk => Sys2Proof.Machine.execBucketWalk s
  | .actionRelease => Sys2Proof.Machine.execActionRelease s
  | .actionFire ix => Sys2Proof.Machine.execActionFire ix s
  | .injEndDispatch ix => Sys2Proof.Machine.execInjEndDispatch ix s
  | .pulseEnd ix => Sys2Proof.Machine.execPulseEnd ix s
  | .deferredStart ix => Sys2Proof.Machine.execDeferredStart ix s
  | .softShutdownEnd n => Sys2Proof.Machine.execSoftShutdownEnd n s
  | .cycCompare n clr => Sys2Proof.Machine.execCycCompare n clr s
  | .cycReturnDelayed n => Sys2Proof.Machine.execCycReturnDelayed n s
  | .channelDisable grp w => Sys2Proof.Machine.execChannelDisable grp w s
  | .calendarDisable => Sys2Proof.Machine.execCalendarDisable s
  | .calClrCnt => Sys2Proof.Machine.execCalClrCnt s
  | .calClrBmax => Sys2Proof.Machine.execCalClrBmax s
  | .add a rd rs1 rs2 => Sys2Proof.Machine.execAdd a rd rs1 rs2 s
  | .sub a rd rs1 rs2 => Sys2Proof.Machine.execSub a rd rs1 rs2 s
  | .and a rd rs1 rs2 => Sys2Proof.Machine.execAnd a rd rs1 rs2 s
  | .or a rd rs1 rs2 => Sys2Proof.Machine.execOr a rd rs1 rs2 s
  | .xor a rd rs1 rs2 => Sys2Proof.Machine.execXor a rd rs1 rs2 s
  | .sll a rd rs1 rs2 => Sys2Proof.Machine.execSll a rd rs1 rs2 s
  | .srl a rd rs1 rs2 => Sys2Proof.Machine.execSrl a rd rs1 rs2 s
  | .sra a rd rs1 rs2 => Sys2Proof.Machine.execSra a rd rs1 rs2 s
  | .slt a rd rs1 rs2 => Sys2Proof.Machine.execSlt a rd rs1 rs2 s
  | .sltu a rd rs1 rs2 => Sys2Proof.Machine.execSltu a rd rs1 rs2 s
  | .min a rd rs1 rs2 => Sys2Proof.Machine.execMin a rd rs1 rs2 s
  | .max a rd rs1 rs2 => Sys2Proof.Machine.execMax a rd rs1 rs2 s
  | .minu a rd rs1 rs2 => Sys2Proof.Machine.execMinu a rd rs1 rs2 s
  | .maxu a rd rs1 rs2 => Sys2Proof.Machine.execMaxu a rd rs1 rs2 s
  | .mul a rd rs1 rs2 => Sys2Proof.Machine.execMul a rd rs1 rs2 s
  | .mulsh a rd rs1 rs2 => Sys2Proof.Machine.execMulsh a rd rs1 rs2 s
  | .muluh a rd rs1 rs2 => Sys2Proof.Machine.execMuluh a rd rs1 rs2 s
  | .divs a rd rs1 rs2 => Sys2Proof.Machine.execDivs a rd rs1 rs2 s
  | .divu a rd rs1 rs2 => Sys2Proof.Machine.execDivu a rd rs1 rs2 s
  | .mods a rd rs1 rs2 => Sys2Proof.Machine.execMods a rd rs1 rs2 s
  | .modu a rd rs1 rs2 => Sys2Proof.Machine.execModu a rd rs1 rs2 s
  | .addi a rd rs1 imm => Sys2Proof.Machine.execAddi a rd rs1 imm s
  | .andi a rd rs1 imm => Sys2Proof.Machine.execAndi a rd rs1 imm s
  | .ori a rd rs1 imm => Sys2Proof.Machine.execOri a rd rs1 imm s
  | .xori a rd rs1 imm => Sys2Proof.Machine.execXori a rd rs1 imm s
  | .slti a rd rs1 imm => Sys2Proof.Machine.execSlti a rd rs1 imm s
  | .sltiu a rd rs1 imm => Sys2Proof.Machine.execSltiu a rd rs1 imm s
  | .lui a rd imm => Sys2Proof.Machine.execLui a rd imm s
  | .slli a rd rs1 amount => Sys2Proof.Machine.execSlli a rd rs1 amount s
  | .srli a rd rs1 amount => Sys2Proof.Machine.execSrli a rd rs1 amount s
  | .srai a rd rs1 amount => Sys2Proof.Machine.execSrai a rd rs1 amount s
  | .lw a rd rs1 imm ecc => Sys2Proof.Machine.execLw a rd rs1 imm ecc s
  | .lh a rd rs1 imm ecc => Sys2Proof.Machine.execLh a rd rs1 imm ecc s
  | .lhu a rd rs1 imm ecc => Sys2Proof.Machine.execLhu a rd rs1 imm ecc s
  | .lb a rd rs1 imm ecc => Sys2Proof.Machine.execLb a rd rs1 imm ecc s
  | .lbu a rd rs1 imm ecc => Sys2Proof.Machine.execLbu a rd rs1 imm ecc s
  | .sw a rt rs1 imm ecc => Sys2Proof.Machine.execSw a rt rs1 imm ecc s
  | .sh a rt rs1 imm ecc => Sys2Proof.Machine.execSh a rt rs1 imm ecc s
  | .sb a rt rs1 imm ecc => Sys2Proof.Machine.execSb a rt rs1 imm ecc s
  | .flw a rd rs1 imm ecc => Sys2Proof.Machine.execFlw a rd rs1 imm ecc s
  | .fsw a rt rs1 imm ecc => Sys2Proof.Machine.execFsw a rt rs1 imm ecc s
  | .loadComplete t => Sys2Proof.Machine.execLoadComplete t s
  | .aswp a rd rs1 rs2 ecc => Sys2Proof.Machine.execAswp a rd rs1 rs2 ecc s
  | .aadd a rd rs1 rs2 ecc => Sys2Proof.Machine.execAadd a rd rs1 rs2 ecc s
  | .aadds a rd rs1 rs2 ecc => Sys2Proof.Machine.execAadds a rd rs1 rs2 ecc s
  | .aand a rd rs1 rs2 ecc => Sys2Proof.Machine.execAand a rd rs1 rs2 ecc s
  | .aorr a rd rs1 rs2 ecc => Sys2Proof.Machine.execAorr a rd rs1 rs2 ecc s
  | .acas a rd rs1 rs2 ecc => Sys2Proof.Machine.execAcas a rd rs1 rs2 ecc s
  | .beq a rt rs1 imm => Sys2Proof.Machine.execBeq a rt rs1 imm s
  | .bne a rt rs1 imm => Sys2Proof.Machine.execBne a rt rs1 imm s
  | .blt a rt rs1 imm => Sys2Proof.Machine.execBlt a rt rs1 imm s
  | .bge a rt rs1 imm => Sys2Proof.Machine.execBge a rt rs1 imm s
  | .bltu a rt rs1 imm => Sys2Proof.Machine.execBltu a rt rs1 imm s
  | .bgeu a rt rs1 imm => Sys2Proof.Machine.execBgeu a rt rs1 imm s
  | .jal a rd imm => Sys2Proof.Machine.execJal a rd imm s
  | .jalr a rd rs1 imm => Sys2Proof.Machine.execJalr a rd rs1 imm s
  | .fence a => Sys2Proof.Machine.execFence a s
  | .ecall a => Sys2Proof.Machine.execEcall a s
  | .eret a => Sys2Proof.Machine.execEret a s
  | .wfi a => Sys2Proof.Machine.execWfi a s
  | .wfiWake t => Sys2Proof.Machine.execWfiWake t s
  | .brk a => Sys2Proof.Machine.execBrk a s
  | .csrr a rd num => Sys2Proof.Machine.execCsrr a rd num s
  | .csrw a rs1 num => Sys2Proof.Machine.execCsrw a rs1 num s
  | .fadd a rd rs1 rs2 => Sys2Proof.Machine.execFadd a rd rs1 rs2 s
  | .fsub a rd rs1 rs2 => Sys2Proof.Machine.execFsub a rd rs1 rs2 s
  | .fmul a rd rs1 rs2 => Sys2Proof.Machine.execFmul a rd rs1 rs2 s
  | .fdiv a rd rs1 rs2 => Sys2Proof.Machine.execFdiv a rd rs1 rs2 s
  | .fsqrt a rd rs1 => Sys2Proof.Machine.execFsqrt a rd rs1 s
  | .fmin a rd rs1 rs2 => Sys2Proof.Machine.execFmin a rd rs1 rs2 s
  | .fmax a rd rs1 rs2 => Sys2Proof.Machine.execFmax a rd rs1 rs2 s
  | .fminn a rd rs1 rs2 => Sys2Proof.Machine.execFminn a rd rs1 rs2 s
  | .fmaxn a rd rs1 rs2 => Sys2Proof.Machine.execFmaxn a rd rs1 rs2 s
  | .fabs a rd rs1 => Sys2Proof.Machine.execFabs a rd rs1 s
  | .fneg a rd rs1 => Sys2Proof.Machine.execFneg a rd rs1 s
  | .fcpys a rd rs1 rs2 => Sys2Proof.Machine.execFcpys a rd rs1 rs2 s
  | .fcmp a rd rs1 rs2 => Sys2Proof.Machine.execFcmp a rd rs1 rs2 s
  | .fcmps a rd rs1 rs2 => Sys2Proof.Machine.execFcmps a rd rs1 rs2 s
  | .ftype a rd rs1 => Sys2Proof.Machine.execFtype a rd rs1 s
  | .ftoi a rd rs1 => Sys2Proof.Machine.execFtoi a rd rs1 s
  | .ftoiz a rd rs1 => Sys2Proof.Machine.execFtoiz a rd rs1 s
  | .ftoiu a rd rs1 => Sys2Proof.Machine.execFtoiu a rd rs1 s
  | .fitof a rd rs1 => Sys2Proof.Machine.execFitof a rd rs1 s
  | .futof a rd rs1 => Sys2Proof.Machine.execFutof a rd rs1 s
  | .fmvgf a rd rs1 => Sys2Proof.Machine.execFmvgf a rd rs1 s
  | .fmvfg a rd rs1 => Sys2Proof.Machine.execFmvfg a rd rs1 s
  | .fmac a rd rs1 rs2 => Sys2Proof.Machine.execFmac a rd rs1 rs2 s
  | .fmsc a rd rs1 rs2 => Sys2Proof.Machine.execFmsc a rd rs1 rs2 s
  | .fscl a rd rs1 rs2 => Sys2Proof.Machine.execFscl a rd rs1 rs2 s
  | .waitAng a rd rs1 rs2 => Sys2Proof.Machine.execWaitAng a rd rs1 rs2 s
  | .waitTim a rd rs1 rs2 rel => Sys2Proof.Machine.execWaitTim a rd rs1 rs2 rel s
  | .waitEvt a rd imm => Sys2Proof.Machine.execWaitEvt a rd imm s
  | .waitWake n => Sys2Proof.Machine.execWaitWake n s
  | .postAction a rd rs1 rs2 k ecc => Sys2Proof.Machine.execPostAction a rd rs1 rs2 k ecc s
  | .pulse a rd rs1 rs2 k ecc => Sys2Proof.Machine.execPulse a rd rs1 rs2 k ecc s
  | .samp a rd rs1 rs2 k ecc => Sys2Proof.Machine.execSamp a rd rs1 rs2 k ecc s
  | .cancl a rd rs1 => Sys2Proof.Machine.execCancl a rd rs1 s
  | .trimRead a rd rs1 imm => Sys2Proof.Machine.execTrimRead a rd rs1 imm s
  | .qput a rd rs1 q ecc => Sys2Proof.Machine.execQput a rd rs1 q ecc s
  | .qget a rd rs1 q => Sys2Proof.Machine.execQget a rd rs1 q s
  | .syncq a rd => Sys2Proof.Machine.execSyncq a rd s
  | .angq a rd what => Sys2Proof.Machine.execAngq a rd what s
  | .sigt a rd rs1 sig => Sys2Proof.Machine.execSigt a rd rs1 sig s
  | .tend a => Sys2Proof.Machine.execTend a s
  | .interruptEntry t => Sys2Proof.Machine.execInterruptEntry t s
  | .threadStart n => Sys2Proof.Machine.execThreadStart n s
  | .threadKill n => Sys2Proof.Machine.execThreadKill n s
  | .threadRetarget n => Sys2Proof.Machine.execThreadRetarget n s
  | .threadSignal n sig => Sys2Proof.Machine.execThreadSignal n sig s
  | .engineDisable w => Sys2Proof.Machine.execEngineDisable w s
  | .codeWindowWrite e word w => Sys2Proof.Machine.execCodeWindowWrite e word w s
  | .aenClrEcc => Sys2Proof.Machine.execAenClrEcc s
  | .lockstep t => Sys2Proof.Machine.execLockstep t s
  | .pairRestartDone t => Sys2Proof.Machine.execPairRestartDone t s
  | .sramScrubRead word ecc => Sys2Proof.Machine.execSramScrubRead word ecc s
  | .mramScrubRead word ecc => Sys2Proof.Machine.execMramScrubRead word ecc s
  | .mramLineWrite t ecc => Sys2Proof.Machine.execMramLineWrite t ecc s
  | .mramLineWriteDone ok => Sys2Proof.Machine.execMramLineWriteDone ok s
  | .queuePutPort t w => Sys2Proof.Machine.execQueuePutPort t w s
  | .queuePop n w => Sys2Proof.Machine.execQueuePop n w s
  | .queueBaseWrite n w => Sys2Proof.Machine.execQueueBaseWrite n w s
  | .queClrEcc => Sys2Proof.Machine.execQueClrEcc s
  | .dmaStart c ecc => Sys2Proof.Machine.execDmaStart c ecc s
  | .dmaStop c => Sys2Proof.Machine.execDmaStop c s
  | .dmaSoft c ecc => Sys2Proof.Machine.execDmaSoft c ecc s
  | .dmaTrigger c ecc => Sys2Proof.Machine.execDmaTrigger c ecc s
  | .dmaElementDone c src dst => Sys2Proof.Machine.execDmaElementDone c src dst s
  | .trimRequestWrite t ix w => Sys2Proof.Machine.execTrimRequestWrite t ix w s
  | .envelopeWrite ix word w => Sys2Proof.Machine.execEnvelopeWrite ix word w s
  | .elockWrite w => Sys2Proof.Machine.execElockWrite w s
  | .bootRom => Sys2Proof.Machine.execBootRom s
  | .irqMessage src => Sys2Proof.Machine.execIrqMessage src s
  | .irqClaim m t => Sys2Proof.Machine.execIrqClaim m t s
  | .irqComplete m t w => Sys2Proof.Machine.execIrqComplete m t w s
  | .irqPendingClear g w => Sys2Proof.Machine.execIrqPendingClear g w s
  | .irqMaskSet g w => Sys2Proof.Machine.execIrqMaskSet g w s
  | .irqMaskClear g w => Sys2Proof.Machine.execIrqMaskClear g w s
  | .irqCounterClear g w => Sys2Proof.Machine.execIrqCounterClear g w s
  | .irqDoorbell w => Sys2Proof.Machine.execIrqDoorbell w s
  | .holdoffEnd g => Sys2Proof.Machine.execHoldoffEnd g s
  | .extintEnable x w => Sys2Proof.Machine.execExtintEnable x w s
  | .extintDisable x w => Sys2Proof.Machine.execExtintDisable x w s
  | .extintLevelChange x level => Sys2Proof.Machine.execExtintLevelChange x level s
  | .extintResend => Sys2Proof.Machine.execExtintResend s
  | .timerStep n => Sys2Proof.Machine.execTimerStep n s
  | .timerMatch n => Sys2Proof.Machine.execTimerMatch n s
  | .timerWrap n => Sys2Proof.Machine.execTimerWrap n s
  | .linkedStep n => Sys2Proof.Machine.execLinkedStep n s
  | .tmrStart w => Sys2Proof.Machine.execTmrStart w s
  | .tmrStop w => Sys2Proof.Machine.execTmrStop w s
  | .timerTriggerStart line => Sys2Proof.Machine.execTimerTriggerStart line s
  | .timerCapture n => Sys2Proof.Machine.execTimerCapture n s
  | .timerCountLoad n w => Sys2Proof.Machine.execTimerCountLoad n w s
  | .timerCompareWrite n w => Sys2Proof.Machine.execTimerCompareWrite n w s
  | .injCtrlWrite w => Sys2Proof.Machine.execInjCtrlWrite w s
  | .injStartCommand => Sys2Proof.Machine.execInjStartCommand s
  | .injEndCommand => Sys2Proof.Machine.execInjEndCommand s
  | .injRegulation n code => Sys2Proof.Machine.execInjRegulation n code s
  | .injBoostDone n => Sys2Proof.Machine.execInjBoostDone n s
  | .injShiftedStart n => Sys2Proof.Machine.execInjShiftedStart n s
  | .bcancel n => Sys2Proof.Machine.execBcancel n s
  | .tbmaxExpiry n => Sys2Proof.Machine.execTbmaxExpiry n s
  | .tpkEnd n => Sys2Proof.Machine.execTpkEnd n s
  | .injTransEnd n => Sys2Proof.Machine.execInjTransEnd n s
  | .injDecayEnd n => Sys2Proof.Machine.execInjDecayEnd n s
  | .injCloseEnd n => Sys2Proof.Machine.execInjCloseEnd n s
  | .overcurrent n => Sys2Proof.Machine.execOvercurrent n s
  | .dutyLimit n => Sys2Proof.Machine.execDutyLimit n s
  | .openDetected n => Sys2Proof.Machine.execOpenDetected n s
  | .closeDetected n => Sys2Proof.Machine.execCloseDetected n s
  | .driveReport => Sys2Proof.Machine.execDriveReport s
  | .hsopen b => Sys2Proof.Machine.execHsopen b s
  | .hsshort b => Sys2Proof.Machine.execHsshort b s
  | .vhvuv k v => Sys2Proof.Machine.execVhvuv k v s
  | .vhvov k v => Sys2Proof.Machine.execVhvov k v s
  | .bstfb k v f => Sys2Proof.Machine.execBstfb k v f s
  | .injDiagGo w => Sys2Proof.Machine.execInjDiagGo w s
  | .diagdone short opn between => Sys2Proof.Machine.execDiagdone short opn between s
  | .injFclr w => Sys2Proof.Machine.execInjFclr w s
  | .alrtPulseEnd => Sys2Proof.Machine.execAlrtPulseEnd s
  | .alrtRel w => Sys2Proof.Machine.execAlrtRel w s
  | .pwmCtrlWrite w => Sys2Proof.Machine.execPwmCtrlWrite w s
  | .pwmBoundary n below => Sys2Proof.Machine.execPwmBoundary n below s
  | .pwmTransition n active => Sys2Proof.Machine.execPwmTransition n active s
  | .swNodeCrossing n => Sys2Proof.Machine.execSwNodeCrossing n s
  | .nodeTimeout n => Sys2Proof.Machine.execNodeTimeout n s
  | .pwmCommit n w => Sys2Proof.Machine.execPwmCommit n w s
  | .commutation line => Sys2Proof.Machine.execCommutation line s
  | .pwmCmut w => Sys2Proof.Machine.execPwmCmut w s
  | .pwmSafecmd w => Sys2Proof.Machine.execPwmSafecmd w s
  | .pwmResume w => Sys2Proof.Machine.execPwmResume w s
  | .boostTrip k => Sys2Proof.Machine.execBoostTrip k s
  | .bmaxd k => Sys2Proof.Machine.execBmaxd k s
  | .srOff k => Sys2Proof.Machine.execSrOff k s
  | .rampStart => Sys2Proof.Machine.execRampStart s
  | .cmpFilteredEdge n rising => Sys2Proof.Machine.execCmpFilteredEdge n rising s
  | .cmpEnable n w => Sys2Proof.Machine.execCmpEnable n w s
  | .cmpDisable n w => Sys2Proof.Machine.execCmpDisable n w s
  | .cmpForceEnd n high => Sys2Proof.Machine.execCmpForceEnd n high s
  | .fadcSampleDispatch => Sys2Proof.Machine.execFadcSampleDispatch s
  | .fadcNextConversion f => Sys2Proof.Machine.execFadcNextConversion f s
  | .fadcConversionDone f raw outside => Sys2Proof.Machine.execFadcConversionDone f raw outside s
  | .fadcRegularTrigger line => Sys2Proof.Machine.execFadcRegularTrigger line s
  | .fadcInjectedTrigger line => Sys2Proof.Machine.execFadcInjectedTrigger line s
  | .fadcRsw conv => Sys2Proof.Machine.execFadcRsw conv s
  | .fadcJsw conv => Sys2Proof.Machine.execFadcJsw conv s
  | .fadcScal conv => Sys2Proof.Machine.execFadcScal conv s
  | .fadcDisable w => Sys2Proof.Machine.execFadcDisable w s
  | .padcPeriodEnd c raw sat => Sys2Proof.Machine.execPadcPeriodEnd c raw sat s
  | .padcScal conv => Sys2Proof.Machine.execPadcScal conv s
  | .padcDisable w => Sys2Proof.Machine.execPadcDisable w s
  | .gridzEdge => Sys2Proof.Machine.execGridzEdge s
  | .gridloss => Sys2Proof.Machine.execGridloss s
  | .staleInput fast n => Sys2Proof.Machine.execStaleInput fast n s
  | .cmbCtrlWrite w => Sys2Proof.Machine.execCmbCtrlWrite w s
  | .cmbSample => Sys2Proof.Machine.execCmbSample s
  | .cmbWindowOpen c work => Sys2Proof.Machine.execCmbWindowOpen c work s
  | .cmbWindowClose c work => Sys2Proof.Machine.execCmbWindowClose c work s
  | .cmbRecord => Sys2Proof.Machine.execCmbRecord s
  | .cmbWorkRecord => Sys2Proof.Machine.execCmbWorkRecord s
  | .cmbRuleEnable r w => Sys2Proof.Machine.execCmbRuleEnable r w s
  | .cmbDitherEnable d w => Sys2Proof.Machine.execCmbDitherEnable d w s
  | .budClrCnt => Sys2Proof.Machine.execBudClrCnt s
  | .budClrPeak => Sys2Proof.Machine.execBudClrPeak s
  | .budMonselWrite w => Sys2Proof.Machine.execBudMonselWrite w s
  | .superframeStart => Sys2Proof.Machine.execSuperframeStart s
  | .statusFrame p bytes res => Sys2Proof.Machine.execStatusFrame p bytes res s
  | .tagTimeout unit p => Sys2Proof.Machine.execTagTimeout unit p s
  | .angleFrame p bytes res => Sys2Proof.Machine.execAngleFrame p bytes res s
  | .dataFrame p bytes res => Sys2Proof.Machine.execDataFrame p bytes res s
  | .dataChannelSend d => Sys2Proof.Machine.execDataChannelSend d s
  | .dreqFrame p bytes turn => Sys2Proof.Machine.execDreqFrame p bytes turn s
  | .drspFrame p bytes elapsed => Sys2Proof.Machine.execDrspFrame p bytes elapsed s
  | .dreqTimeout p => Sys2Proof.Machine.execDreqTimeout p s
  | .authFrame p bytes => Sys2Proof.Machine.execAuthFrame p bytes s
  | .keyFrame p bytes => Sys2Proof.Machine.execKeyFrame p bytes s
  | .membFrame p bytes res => Sys2Proof.Machine.execMembFrame p bytes res s
  | .authItemResend p => Sys2Proof.Machine.execAuthItemResend p s
  | .authTimeout p => Sys2Proof.Machine.execAuthTimeout p s
  | .linkHoldoffEnd p => Sys2Proof.Machine.execLinkHoldoffEnd p s
  | .ringOfOne => Sys2Proof.Machine.execRingOfOne s
  | .memberTimeout unit => Sys2Proof.Machine.execMemberTimeout unit s
  | .portDown p => Sys2Proof.Machine.execPortDown p s
  | .portRetrain p => Sys2Proof.Machine.execPortRetrain p s
  | .chnCtrlWrite w => Sys2Proof.Machine.execChnCtrlWrite w s
  | .clrfar w => Sys2Proof.Machine.execClrfar w s
  | .ethReceive bytes good => Sys2Proof.Machine.execEthReceive bytes good s
  | .ethTransmit => Sys2Proof.Machine.execEthTransmit s
  | .ethTxComplete => Sys2Proof.Machine.execEthTxComplete s
  | .ethStep w => Sys2Proof.Machine.execEthStep w s
  | .pcapLatch line => Sys2Proof.Machine.execPcapLatch line s
  | .canReceive k id ide fdf brs rtr dlc data => Sys2Proof.Machine.execCanReceive k id ide fdf brs rtr dlc data s
  | .canTransmit k => Sys2Proof.Machine.execCanTransmit k s
  | .busoff k => Sys2Proof.Machine.execBusoff k s
  | .canAutoRecovery k => Sys2Proof.Machine.execCanAutoRecovery k s
  | .canRec k w => Sys2Proof.Machine.execCanRec k w s
  | .spiRead win off len form ecc => Sys2Proof.Machine.execSpiRead win off len form ecc s
  | .spiWrite win off data form ecc => Sys2Proof.Machine.execSpiWrite win off data form ecc s
  | .spiQput q data form => Sys2Proof.Machine.execSpiQput q data form s
  | .spiQget q len form => Sys2Proof.Machine.execSpiQget q len form s
  | .spiNop form => Sys2Proof.Machine.execSpiNop form s
  | .rload off data form => Sys2Proof.Machine.execRload off data form s
  | .rcommit typ form => Sys2Proof.Machine.execRcommit typ form s
  | .spiTout => Sys2Proof.Machine.execSpiTout s
  | .faultDecision src => Sys2Proof.Machine.execFaultDecision src s
  | .shadowEnd => Sys2Proof.Machine.execShadowEnd s
  | .fltUpendClear w => Sys2Proof.Machine.execFltUpendClear w s
  | .fltArm logc => Sys2Proof.Machine.execFltArm logc s
  | .fltLock logc => Sys2Proof.Machine.execFltLock logc s
  | .fltClrCnt => Sys2Proof.Machine.execFltClrCnt s
  | .fltInjArm target tout => Sys2Proof.Machine.execFltInjArm target tout s
  | .fltInjDisarm target tout => Sys2Proof.Machine.execFltInjDisarm target tout s
  | .injto => Sys2Proof.Machine.execInjto s
  | .locketEntry => Sys2Proof.Machine.execLocketEntry s
  | .locketRecordWrite => Sys2Proof.Machine.execLocketRecordWrite s
  | .locketRecordDone => Sys2Proof.Machine.execLocketRecordDone s
  | .sealSigned => Sys2Proof.Machine.execSealSigned s
  | .sealRing w => Sys2Proof.Machine.execSealRing w s
  | .pseal w => Sys2Proof.Machine.execPseal w s
  | .pinnedSealTimeout => Sys2Proof.Machine.execPinnedSealTimeout s
  | .locketScanDone => Sys2Proof.Machine.execLocketScanDone s
  | .userPut w => Sys2Proof.Machine.execUserPut w s
  | .verifyBlock w => Sys2Proof.Machine.execVerifyBlock w s
  | .vdone => Sys2Proof.Machine.execVdone s
  | .authorisedRequest w => Sys2Proof.Machine.execAuthorisedRequest w s
  | .clrdone => Sys2Proof.Machine.execClrdone s
  | .timeStep w => Sys2Proof.Machine.execTimeStep w s
  | .timeAdjust w => Sys2Proof.Machine.execTimeAdjust w s
  | .tloss => Sys2Proof.Machine.execTloss s
  | .lktTseclRead => Sys2Proof.Machine.execLktTseclRead s
  | .enrolment w => Sys2Proof.Machine.execEnrolment w s
  | .rollbackRaise w => Sys2Proof.Machine.execRollbackRaise w s
  | .rngerr => Sys2Proof.Machine.execRngerr s
  | .loupeNop tag addr good idle => Sys2Proof.Machine.execLoupeNop tag addr good idle s
  | .loupeRead tag addr good idle ecc => Sys2Proof.Machine.execLoupeRead tag addr good idle ecc s
  | .loupeWrite tag addr w good idle ecc => Sys2Proof.Machine.execLoupeWrite tag addr w good idle ecc s
  | .resync tag addr good idle => Sys2Proof.Machine.execResync tag addr good idle s
  | .loupeSync n => Sys2Proof.Machine.execLoupeSync n s
  | .traceResume => Sys2Proof.Machine.execTraceResume s
  | .dbgEnableWrite m w => Sys2Proof.Machine.execDbgEnableWrite m w s
  | .dbgHalt w => Sys2Proof.Machine.execDbgHalt w s
  | .dbgRes w => Sys2Proof.Machine.execDbgRes w s
  | .dbgStep w => Sys2Proof.Machine.execDbgStep w s
  | .dbgTres w => Sys2Proof.Machine.execDbgTres w s
  | .dbgUtrc w => Sys2Proof.Machine.execDbgUtrc w s
  | .dutySubWindow n => Sys2Proof.Machine.execDutySubWindow n s
  | .vhvovRelease k v => Sys2Proof.Machine.execVhvovRelease k v s
  | .autoNegotiationWord link speed => Sys2Proof.Machine.execAutoNegotiationWord link speed s
  | .ethStale => Sys2Proof.Machine.execEthStale s
  | .filterStale k j => Sys2Proof.Machine.execFilterStale k j s
  | .triggerPoint n => Sys2Proof.Machine.execTriggerPoint n s
  | .illegal a word => Sys2Proof.Machine.execIllegal a word s
  | .loupeUnusedOp tag addr good idle => Sys2Proof.Machine.execLoupeUnusedOp tag addr good idle s

end Sys2Proof.Machine
end

