-- ==== Sys2Proof/Machine/Tick.lean ====
section
/-! DEFINITION. One slot of 2.5 ns: what the clocks do while no command is waiting (log 12). Everything that has a row of its own
happens by that row's command alone. -/

namespace Sys2Proof.Machine

/-- The islands of the logic die run: no reset is in progress and the unit does not sleep. -/
def State.islandsRun (s : State) : Bool := !s.sys.por && !s.sys.rst && s.sys.mode != .sleep

/-- A slot of the angle island: the slot counter (R70), the observer (R111), the ends of pulses that come into reach (R186),
coasting (R127), the synthetic angles (R94). -/
def State.tickAngle (s : State) : State :=
  let s1 : State := { s with prevAng := s.angW }
  let s2 : State := s1.runAngle
  let s3 : State := { s2 with slot := s2.slot + 1 }
  ((s3.noteEnds.coastTick).runSynth 0).runSynth 1

/-- A slot of the other islands: core clocks (R236), apertures (R438), the Ethernet clock (R541). -/
def State.tickIslands (s : State) : State :=
  ((s.updSys fun y => { y with clocks := y.clocks + 2 }).runFadc).runEth

/-- A slot of the guard and timer islands, which never stop: the RTC (R620), calendar time (R599), the release of RST_N (R614). -/
def State.tickGuard (s : State) : State :=
  let s1 := s.runRtc
  let s2 := if s1.crystalOk && s1.now % 8 == 0 then s1.calTick else s1
  match s2.sys.rstn with
  | some t => if t ≤ s2.now then s2.updSys fun y => { y with rstn := none } else s2
  | none => s2

/-- One slot. The high-voltage die runs through a reset of the logic die (R611). -/
def State.tick (s : State) : State :=
  let s0 : State := if s.islandsRun then s.tickAngle.tickIslands else s
  let s1 : State := { s0 with now := s0.now + 1 }
  (if s1.sys.por then s1 else s1.runInj.runPwm).tickGuard

end Sys2Proof.Machine
end

