-- ==== Sys2Proof/Machine/GentalWord.lean ====
section
/-! DEFINITION. The words of the Gental instructions (R216, R218, R220, R223, R230, R231, R234, R235, R238, R241): the word of each
instruction, and the instruction a word spells. The commands of the table carry no bits; this says what the code that stands in
memory is as commands. -/

namespace Sys2Proof.Machine

/-- The word of a Gental instruction; the other rows have none. -/
def gentalWord : Instr → Option Word
  | .add _ rd rs1 rs2 => some (encR 0x00 rd rs1 rs2 0x000)
  | .sub _ rd rs1 rs2 => some (encR 0x00 rd rs1 rs2 0x001)
  | .and _ rd rs1 rs2 => some (encR 0x00 rd rs1 rs2 0x002)
  | .or _ rd rs1 rs2 => some (encR 0x00 rd rs1 rs2 0x003)
  | .xor _ rd rs1 rs2 => some (encR 0x00 rd rs1 rs2 0x004)
  | .sll _ rd rs1 rs2 => some (encR 0x00 rd rs1 rs2 0x005)
  | .srl _ rd rs1 rs2 => some (encR 0x00 rd rs1 rs2 0x006)
  | .sra _ rd rs1 rs2 => some (encR 0x00 rd rs1 rs2 0x007)
  | .slt _ rd rs1 rs2 => some (encR 0x00 rd rs1 rs2 0x008)
  | .sltu _ rd rs1 rs2 => some (encR 0x00 rd rs1 rs2 0x009)
  | .min _ rd rs1 rs2 => some (encR 0x00 rd rs1 rs2 0x00A)
  | .max _ rd rs1 rs2 => some (encR 0x00 rd rs1 rs2 0x00B)
  | .minu _ rd rs1 rs2 => some (encR 0x00 rd rs1 rs2 0x00C)
  | .maxu _ rd rs1 rs2 => some (encR 0x00 rd rs1 rs2 0x00D)
  | .mul _ rd rs1 rs2 => some (encR 0x01 rd rs1 rs2 0x000)
  | .mulsh _ rd rs1 rs2 => some (encR 0x01 rd rs1 rs2 0x001)
  | .muluh _ rd rs1 rs2 => some (encR 0x01 rd rs1 rs2 0x002)
  | .divs _ rd rs1 rs2 => some (encR 0x01 rd rs1 rs2 0x004)
  | .divu _ rd rs1 rs2 => some (encR 0x01 rd rs1 rs2 0x005)
  | .mods _ rd rs1 rs2 => some (encR 0x01 rd rs1 rs2 0x006)
  | .modu _ rd rs1 rs2 => some (encR 0x01 rd rs1 rs2 0x007)
  | .addi _ rd rs1 imm => some (encI 0x02 rd rs1 imm)
  | .andi _ rd rs1 imm => some (encI 0x03 rd rs1 imm)
  | .ori _ rd rs1 imm => some (encI 0x04 rd rs1 imm)
  | .xori _ rd rs1 imm => some (encI 0x05 rd rs1 imm)
  | .slti _ rd rs1 imm => some (encI 0x06 rd rs1 imm)
  | .sltiu _ rd rs1 imm => some (encI 0x07 rd rs1 imm)
  | .lui _ rd imm => some (encI 0x08 rd 0 imm)
  | .slli _ rd rs1 k => some (encR 0x09 rd rs1 k 0x000)
  | .srli _ rd rs1 k => some (encR 0x09 rd rs1 k 0x001)
  | .srai _ rd rs1 k => some (encR 0x09 rd rs1 k 0x002)
  | .lw _ rd rs1 imm _ => some (encI 0x0A rd rs1 imm)
  | .lh _ rd rs1 imm _ => some (encI 0x0B rd rs1 imm)
  | .lhu _ rd rs1 imm _ => some (encI 0x0C rd rs1 imm)
  | .lb _ rd rs1 imm _ => some (encI 0x0D rd rs1 imm)
  | .lbu _ rd rs1 imm _ => some (encI 0x0E rd rs1 imm)
  | .flw _ rd rs1 imm _ => some (encI 0x21 rd rs1 imm)
  | .sw _ rt rs1 imm _ => some (encI 0x0F rt rs1 imm)
  | .sh _ rt rs1 imm _ => some (encI 0x10 rt rs1 imm)
  | .sb _ rt rs1 imm _ => some (encI 0x11 rt rs1 imm)
  | .fsw _ rt rs1 imm _ => some (encI 0x22 rt rs1 imm)
  | .beq _ rt rs1 imm => some (encI 0x12 rt rs1 imm)
  | .bne _ rt rs1 imm => some (encI 0x13 rt rs1 imm)
  | .blt _ rt rs1 imm => some (encI 0x14 rt rs1 imm)
  | .bge _ rt rs1 imm => some (encI 0x15 rt rs1 imm)
  | .bltu _ rt rs1 imm => some (encI 0x16 rt rs1 imm)
  | .bgeu _ rt rs1 imm => some (encI 0x17 rt rs1 imm)
  | .jal _ rd imm => some (encI 0x18 rd 0 imm)
  | .jalr _ rd rs1 imm => some (encI 0x19 rd rs1 imm)
  | .fence _ => some (encR 0x1A 0 0 0 0x000)
  | .ecall _ => some (encR 0x1A 0 0 0 0x001)
  | .eret _ => some (encR 0x1A 0 0 0 0x002)
  | .wfi _ => some (encR 0x1A 0 0 0 0x003)
  | .brk _ => some (encR 0x1A 0 0 0 0x004)
  | .csrr _ rd num => some (encI 0x1B rd 0 num)
  | .csrw _ rs1 num => some (encI 0x1C 0 rs1 num)
  | .aswp _ rd rs1 rs2 _ => some (encR 0x1D rd rs1 rs2 0x000)
  | .aadd _ rd rs1 rs2 _ => some (encR 0x1D rd rs1 rs2 0x001)
  | .aadds _ rd rs1 rs2 _ => some (encR 0x1D rd rs1 rs2 0x002)
  | .aand _ rd rs1 rs2 _ => some (encR 0x1D rd rs1 rs2 0x003)
  | .aorr _ rd rs1 rs2 _ => some (encR 0x1D rd rs1 rs2 0x004)
  | .acas _ rd rs1 rs2 _ => some (encR 0x1D rd rs1 rs2 0x005)
  | .fadd _ rd rs1 rs2 => some (encR 0x20 rd rs1 rs2 0x000)
  | .fsub _ rd rs1 rs2 => some (encR 0x20 rd rs1 rs2 0x001)
  | .fmul _ rd rs1 rs2 => some (encR 0x20 rd rs1 rs2 0x002)
  | .fdiv _ rd rs1 rs2 => some (encR 0x20 rd rs1 rs2 0x003)
  | .fmin _ rd rs1 rs2 => some (encR 0x20 rd rs1 rs2 0x005)
  | .fmax _ rd rs1 rs2 => some (encR 0x20 rd rs1 rs2 0x006)
  | .fminn _ rd rs1 rs2 => some (encR 0x20 rd rs1 rs2 0x007)
  | .fmaxn _ rd rs1 rs2 => some (encR 0x20 rd rs1 rs2 0x008)
  | .fcpys _ rd rs1 rs2 => some (encR 0x20 rd rs1 rs2 0x00B)
  | .fcmp _ rd rs1 rs2 => some (encR 0x20 rd rs1 rs2 0x00C)
  | .fcmps _ rd rs1 rs2 => some (encR 0x20 rd rs1 rs2 0x00D)
  | .fmac _ rd rs1 rs2 => some (encR 0x20 rd rs1 rs2 0x016)
  | .fmsc _ rd rs1 rs2 => some (encR 0x20 rd rs1 rs2 0x017)
  | .fscl _ rd rs1 rs2 => some (encR 0x20 rd rs1 rs2 0x018)
  | .fsqrt _ rd rs1 => some (encR 0x20 rd rs1 0 0x004)
  | .fabs _ rd rs1 => some (encR 0x20 rd rs1 0 0x009)
  | .fneg _ rd rs1 => some (encR 0x20 rd rs1 0 0x00A)
  | .ftype _ rd rs1 => some (encR 0x20 rd rs1 0 0x00E)
  | .ftoi _ rd rs1 => some (encR 0x20 rd rs1 0 0x00F)
  | .ftoiz _ rd rs1 => some (encR 0x20 rd rs1 0 0x010)
  | .ftoiu _ rd rs1 => some (encR 0x20 rd rs1 0 0x011)
  | .fitof _ rd rs1 => some (encR 0x20 rd rs1 0 0x012)
  | .futof _ rd rs1 => some (encR 0x20 rd rs1 0 0x013)
  | .fmvgf _ rd rs1 => some (encR 0x20 rd rs1 0 0x014)
  | .fmvfg _ rd rs1 => some (encR 0x20 rd rs1 0 0x015)
  | .waitAng _ rd rs1 rs2 => some (encR 0x30 rd rs1 rs2 0x000)
  | .waitTim _ rd rs1 rs2 rel => some (encR 0x31 rd rs1 rs2 (b2n rel))
  | .waitEvt _ rd imm => some (encI 0x32 rd 0 imm)
  | .postAction _ rd rs1 rs2 k _ => some (encR 0x33 rd rs1 rs2 k.toNat)
  | .pulse _ rd rs1 rs2 k _ => some (encR 0x34 rd rs1 rs2 k.toNat)
  | .samp _ rd rs1 rs2 k _ => some (encR 0x35 rd rs1 rs2 k.toNat)
  | .cancl _ rd rs1 => some (encR 0x36 rd rs1 0 0x000)
  | .trimRead _ rd rs1 imm => some (encI 0x37 rd rs1 imm)
  | .qput _ rd rs1 q _ => some (encI 0x38 rd rs1 (q.setWidth 16))
  | .qget _ rd rs1 q => some (encI 0x39 rd rs1 (q.setWidth 16))
  | .syncq _ rd => some (encR 0x3A rd 0 0 0x000)
  | .angq _ rd k => some (encR 0x3B rd 0 0 k.val)
  | .sigt _ rd rs1 sig => some (encI 0x3C rd rs1 (sig.setWidth 16))
  | .tend _ => some (encR 0x3D 0 0 0 0x000)
  | _ => none

/-! ### Fields (R216) -/

/-- The major opcode. -/
def wOp (w : Word) : Nat := w.toNat / 2 ^ 26

/-- The function field. -/
def wFn (w : Word) : Nat := w.toNat % 2 ^ 11

/-- The field [25:21]: rd or rt. -/
def wRd (w : Word) : BitVec 5 := w.extractLsb' 21 5

/-- The field [20:16]: rs1. -/
def wRs1 (w : Word) : BitVec 5 := w.extractLsb' 16 5

/-- The field [15:11]: rs2. -/
def wRs2 (w : Word) : BitVec 5 := w.extractLsb' 11 5

/-- imm16. -/
def wImm (w : Word) : BitVec 16 := w.extractLsb' 0 16

/-- An instruction of which the named conditions on unused fields hold (R217). -/
def ifZero (ok : Bool) (i : Instr) : Option Instr := if ok then some i else none

/-! ### Words to instructions (R218) -/

/-- Functions of opcode 0x00 (R220). -/
def decodeInt (a : Agent) (w : Word) : Option Instr :=
  match wFn w with
  | 0x00 => some (.add a (wRd w) (wRs1 w) (wRs2 w))
  | 0x01 => some (.sub a (wRd w) (wRs1 w) (wRs2 w))
  | 0x02 => some (.and a (wRd w) (wRs1 w) (wRs2 w))
  | 0x03 => some (.or a (wRd w) (wRs1 w) (wRs2 w))
  | 0x04 => some (.xor a (wRd w) (wRs1 w) (wRs2 w))
  | 0x05 => some (.sll a (wRd w) (wRs1 w) (wRs2 w))
  | 0x06 => some (.srl a (wRd w) (wRs1 w) (wRs2 w))
  | 0x07 => some (.sra a (wRd w) (wRs1 w) (wRs2 w))
  | 0x08 => some (.slt a (wRd w) (wRs1 w) (wRs2 w))
  | 0x09 => some (.sltu a (wRd w) (wRs1 w) (wRs2 w))
  | 0x0A => some (.min a (wRd w) (wRs1 w) (wRs2 w))
  | 0x0B => some (.max a (wRd w) (wRs1 w) (wRs2 w))
  | 0x0C => some (.minu a (wRd w) (wRs1 w) (wRs2 w))
  | 0x0D => some (.maxu a (wRd w) (wRs1 w) (wRs2 w))
  | _ => none

/-- Functions of opcode 0x01 (R220). -/
def decodeMul (a : Agent) (w : Word) : Option Instr :=
  match wFn w with
  | 0x00 => some (.mul a (wRd w) (wRs1 w) (wRs2 w))
  | 0x01 => some (.mulsh a (wRd w) (wRs1 w) (wRs2 w))
  | 0x02 => some (.muluh a (wRd w) (wRs1 w) (wRs2 w))
  | 0x04 => some (.divs a (wRd w) (wRs1 w) (wRs2 w))
  | 0x05 => some (.divu a (wRd w) (wRs1 w) (wRs2 w))
  | 0x06 => some (.mods a (wRd w) (wRs1 w) (wRs2 w))
  | 0x07 => some (.modu a (wRd w) (wRs1 w) (wRs2 w))
  | _ => none

/-- Functions of opcode 0x09 (R220). -/
def decodeShift (a : Agent) (w : Word) : Option Instr :=
  match wFn w with
  | 0x00 => some (.slli a (wRd w) (wRs1 w) (wRs2 w))
  | 0x01 => some (.srli a (wRd w) (wRs1 w) (wRs2 w))
  | 0x02 => some (.srai a (wRd w) (wRs1 w) (wRs2 w))
  | _ => none

/-- Functions of opcode 0x1A (R234): no field is used. -/
def decodeSystem (a : Agent) (w : Word) : Option Instr :=
  match wFn w with
  | 0x00 => ifZero (unusedZero w false false false) (.fence a)
  | 0x01 => ifZero (unusedZero w false false false) (.ecall a)
  | 0x02 => ifZero (unusedZero w false false false) (.eret a)
  | 0x03 => ifZero (unusedZero w false false false) (.wfi a)
  | 0x04 => ifZero (unusedZero w false false false) (.brk a)
  | _ => none

/-- Functions of opcode 0x1D (R230). -/
def decodeAtomic (a : Agent) (e : Ecc) (w : Word) : Option Instr :=
  match wFn w with
  | 0x00 => some (.aswp a (wRd w) (wRs1 w) (wRs2 w) e)
  | 0x01 => some (.aadd a (wRd w) (wRs1 w) (wRs2 w) e)
  | 0x02 => some (.aadds a (wRd w) (wRs1 w) (wRs2 w) e)
  | 0x03 => some (.aand a (wRd w) (wRs1 w) (wRs2 w) e)
  | 0x04 => some (.aorr a (wRd w) (wRs1 w) (wRs2 w) e)
  | 0x05 => some (.acas a (wRd w) (wRs1 w) (wRs2 w) e)
  | _ => none

/-- Functions of opcode 0x20 (R238). -/
def decodeFp (a : Agent) (w : Word) : Option Instr :=
  match wFn w with
  | 0x00 => some (.fadd a (wRd w) (wRs1 w) (wRs2 w))
  | 0x01 => some (.fsub a (wRd w) (wRs1 w) (wRs2 w))
  | 0x02 => some (.fmul a (wRd w) (wRs1 w) (wRs2 w))
  | 0x03 => some (.fdiv a (wRd w) (wRs1 w) (wRs2 w))
  | 0x05 => some (.fmin a (wRd w) (wRs1 w) (wRs2 w))
  | 0x06 => some (.fmax a (wRd w) (wRs1 w) (wRs2 w))
  | 0x07 => some (.fminn a (wRd w) (wRs1 w) (wRs2 w))
  | 0x08 => some (.fmaxn a (wRd w) (wRs1 w) (wRs2 w))
  | 0x0B => some (.fcpys a (wRd w) (wRs1 w) (wRs2 w))
  | 0x0C => some (.fcmp a (wRd w) (wRs1 w) (wRs2 w))
  | 0x0D => some (.fcmps a (wRd w) (wRs1 w) (wRs2 w))
  | 0x16 => some (.fmac a (wRd w) (wRs1 w) (wRs2 w))
  | 0x17 => some (.fmsc a (wRd w) (wRs1 w) (wRs2 w))
  | 0x18 => some (.fscl a (wRd w) (wRs1 w) (wRs2 w))
  | 0x04 => ifZero (unusedZero w true true false) (.fsqrt a (wRd w) (wRs1 w))
  | 0x09 => ifZero (unusedZero w true true false) (.fabs a (wRd w) (wRs1 w))
  | 0x0A => ifZero (unusedZero w true true false) (.fneg a (wRd w) (wRs1 w))
  | 0x0E => ifZero (unusedZero w true true false) (.ftype a (wRd w) (wRs1 w))
  | 0x0F => ifZero (unusedZero w true true false) (.ftoi a (wRd w) (wRs1 w))
  | 0x10 => ifZero (unusedZero w true true false) (.ftoiz a (wRd w) (wRs1 w))
  | 0x11 => ifZero (unusedZero w true true false) (.ftoiu a (wRd w) (wRs1 w))
  | 0x12 => ifZero (unusedZero w true true false) (.fitof a (wRd w) (wRs1 w))
  | 0x13 => ifZero (unusedZero w true true false) (.futof a (wRd w) (wRs1 w))
  | 0x14 => ifZero (unusedZero w true true false) (.fmvgf a (wRd w) (wRs1 w))
  | 0x15 => ifZero (unusedZero w true true false) (.fmvfg a (wRd w) (wRs1 w))
  | _ => none

/-- The instruction a word spells for the agent, none where the opcode or the function is not assigned or a field that must be 0 is not
(R217, R218). Whether the agent may run it is said by `Form.illegal`. `e` is what the code of the data it accesses shows. -/
def gentalInstr (a : Agent) (e : Ecc) (w : Word) : Option Instr :=
  match wOp w with
  | 0x00 => decodeInt a w
  | 0x01 => decodeMul a w
  | 0x02 => some (.addi a (wRd w) (wRs1 w) (wImm w))
  | 0x03 => some (.andi a (wRd w) (wRs1 w) (wImm w))
  | 0x04 => some (.ori a (wRd w) (wRs1 w) (wImm w))
  | 0x05 => some (.xori a (wRd w) (wRs1 w) (wImm w))
  | 0x06 => some (.slti a (wRd w) (wRs1 w) (wImm w))
  | 0x07 => some (.sltiu a (wRd w) (wRs1 w) (wImm w))
  | 0x08 => ifZero (unusedZero w true false true) (.lui a (wRd w) (wImm w))
  | 0x09 => decodeShift a w
  | 0x0A => some (.lw a (wRd w) (wRs1 w) (wImm w) e)
  | 0x0B => some (.lh a (wRd w) (wRs1 w) (wImm w) e)
  | 0x0C => some (.lhu a (wRd w) (wRs1 w) (wImm w) e)
  | 0x0D => some (.lb a (wRd w) (wRs1 w) (wImm w) e)
  | 0x0E => some (.lbu a (wRd w) (wRs1 w) (wImm w) e)
  | 0x0F => some (.sw a (wRd w) (wRs1 w) (wImm w) e)
  | 0x10 => some (.sh a (wRd w) (wRs1 w) (wImm w) e)
  | 0x11 => some (.sb a (wRd w) (wRs1 w) (wImm w) e)
  | 0x12 => some (.beq a (wRd w) (wRs1 w) (wImm w))
  | 0x13 => some (.bne a (wRd w) (wRs1 w) (wImm w))
  | 0x14 => some (.blt a (wRd w) (wRs1 w) (wImm w))
  | 0x15 => some (.bge a (wRd w) (wRs1 w) (wImm w))
  | 0x16 => some (.bltu a (wRd w) (wRs1 w) (wImm w))
  | 0x17 => some (.bgeu a (wRd w) (wRs1 w) (wImm w))
  | 0x18 => ifZero (unusedZero w true false true) (.jal a (wRd w) (wImm w))
  | 0x19 => some (.jalr a (wRd w) (wRs1 w) (wImm w))
  | 0x1A => decodeSystem a w
  | 0x1B => ifZero (unusedZero w true false true) (.csrr a (wRd w) (wImm w))
  | 0x1C => ifZero (unusedZero w false true true) (.csrw a (wRs1 w) (wImm w))
  | 0x1D => decodeAtomic a e w
  | 0x20 => decodeFp a w
  | 0x21 => some (.flw a (wRd w) (wRs1 w) (wImm w) e)
  | 0x22 => some (.fsw a (wRd w) (wRs1 w) (wImm w) e)
  | 0x30 => ifZero (wFn w == 0) (.waitAng a (wRd w) (wRs1 w) (wRs2 w))
  | 0x31 => ifZero (decide (wFn w ≤ 1)) (.waitTim a (wRd w) (wRs1 w) (wRs2 w) (wFn w == 1))
  | 0x32 => ifZero (unusedZero w true false true) (.waitEvt a (wRd w) (wImm w))
  | 0x33 => some (.postAction a (wRd w) (wRs1 w) (wRs2 w) (w.extractLsb' 0 11) e)
  | 0x34 => some (.pulse a (wRd w) (wRs1 w) (wRs2 w) (w.extractLsb' 0 11) e)
  | 0x35 => some (.samp a (wRd w) (wRs1 w) (wRs2 w) (w.extractLsb' 0 11) e)
  | 0x36 => ifZero (wFn w == 0 && unusedZero w true true false) (.cancl a (wRd w) (wRs1 w))
  | 0x37 => some (.trimRead a (wRd w) (wRs1 w) (wImm w))
  | 0x38 => ifZero (decide ((wImm w).toNat < 32)) (.qput a (wRd w) (wRs1 w) ((wImm w).setWidth 5) e)
  | 0x39 => ifZero (decide ((wImm w).toNat < 32)) (.qget a (wRd w) (wRs1 w) ((wImm w).setWidth 5))
  | 0x3A => ifZero (wFn w == 0 && unusedZero w true false false) (.syncq a (wRd w))
  | 0x3B => ifZero (decide (wFn w < 4) && unusedZero w true false false) (.angq a (wRd w) (Fin.ofNat 4 (wFn w)))
  | 0x3C => ifZero (decide ((wImm w).toNat < 4)) (.sigt a (wRd w) (wRs1 w) ((wImm w).setWidth 2))
  | 0x3D => ifZero (wFn w == 0 && unusedZero w false false false) (.tend a)
  | _ => none

end Sys2Proof.Machine
end

