-- ==== Sys2Proof/Safety.lean ====
section
/-! DEFINITION. The terms in which statements speak of the machine: the canonical form of its tables, when an agent can issue an
instruction and what the issue alone does, the results the tables of R220, R231 and R238 give, and which parts of the state an
instruction leaves alone. -/

namespace Sys2Proof.Machine

/-! ### Tables -/

/-- Registers and memory are in their one canonical form. -/
def State.canonical (s : State) : Prop := tabWf resetOf s.regs = true ∧ Memory.wf s.mem = true

/-! ### Issue (R229, R232, R253, R256, R271, R272, R502) -/

/-- The agent can issue an instruction that names the general registers `g` and the floating-point registers `f`, takes `slots`
issue slots and draws `beats` FABRIC carats for its data: it runs, it may fetch at its pc, the fetch finds a correct word with no
test injection armed, no load into a register named is outstanding, its budget suffices, and the registers exist in its
profile. -/
def State.canIssue (s : State) (a : Agent) (g f : List (BitVec 5)) (slots beats : Nat) : Prop :=
  s.flt.armed = none ∧
  match a with
  | .pair t e =>
    e = .clean ∧ s.pairActive t = true ∧ s.mayFetch t (s.ppc t).toNat = true
    ∧ (∀ d ∈ (s.pair t).loads, d.1 ∉ g.map BitVec.toNat ∧ d.1 ∉ f.map fun r => 32 + r.toNat)
    ∧ (∀ r ∈ f, r.toNat < 16)
    ∧ s.budHas (s.binding (8 + t)) resFABRIC (sramBeats (s.ppc t).toNat + beats) = true
  | .thread n e =>
    e = .clean ∧ s.thState n = thREADY ∧ s.unitRuns = true ∧ s.thMayFetch n (s.thPc n) = true
    ∧ (∀ r ∈ g, r.toNat < 16)
    ∧ s.budHas (s.thAcct n) resISSUE slots = true ∧ s.budHas (s.thAcct n) resFABRIC beats = true

/-- The state in which the instruction takes its effect: its budget is drawn, a debug step is used up, the slots of a thread are
counted. -/
def State.issued (s : State) (a : Agent) (slots beats : Nat) : State :=
  match a with
  | .pair t _ => (s.budDraw (s.binding (8 + t)) resFABRIC (sramBeats (s.ppc t).toNat + beats)).useStep t
  | .thread n _ =>
    ((s.budDraw (s.thAcct n) resISSUE slots).budDraw (s.thAcct n) resFABRIC beats).count (AEN_TISS n) AEN_TISS_SLOTS slots

/-- The agent is a policy pair. -/
def isPair : Agent → Bool
  | .pair _ _ => true
  | .thread _ _ => false

/-- The registers that the issue and the completion of an instruction change, whatever it does: the pc of a pair, the slot count of
a thread (R231, R279). -/
def ownKeys : Agent → List Nat
  | .pair t _ => [pcKey t]
  | .thread n _ => [AEN_TISS n]

/-- The key of a general register. -/
def gKeyOf : Agent → BitVec 5 → Nat
  | .pair t _, r => gKey t r.toNat
  | .thread n _, r => AEN_TG n r.toNat

/-- The key of a floating-point register. -/
def fKeyOf : Agent → BitVec 5 → Nat
  | .pair t _, r => fKey t r.toNat
  | .thread _ _, _ => 0

/-- The key of FCSR. -/
def fcsrKey : Agent → Nat
  | .pair t _ => csrKey t csFCSR
  | .thread _ _ => 0

/-- `t` is `s` after an instruction of agent `a` that writes the registers `ks` alone: every other register, every byte of memory,
every item in flight, every queue and buffer, every other pair and thread, and the outstanding loads are unchanged, the pair
counts one more instruction, and the budget drawn is that of the issue. -/
def State.onlyWrites (s t : State) (a : Agent) (slots beats : Nat) (ks : List Nat) : Prop :=
  t = { s with regs := t.regs, meters := t.meters, pairs := t.pairs, threads := t.threads }
  ∧ (∀ k, k ∉ ks → k ∉ ownKeys a → t.reg k = s.reg k)
  ∧ t.meters = (s.issued a slots beats).meters
  ∧ (∀ p : Fin 4, (∀ e, a ≠ .pair p e) → t.pair p = s.pair p)
  ∧ (∀ (p : Fin 4) e, a = .pair p e →
      t.pair p = { s.pair p with instrs := (s.pair p).instrs + 1, step := false, resume := false })
  ∧ (∀ n : Fin 64, (∀ e, a ≠ .thread n e) → t.thr n = s.thr n)
  ∧ (∀ n : Fin 64, t.thr n = { s.thr n with pc := (t.thr n).pc })

/-! ### Results of the integer instructions (R220) -/

/-- An instruction that computes one general register: its agent, destination and sources, whether it is of Gental-P alone, and the
value. -/
structure IntOp where
  a    : Agent
  rd   : BitVec 5
  src  : List (BitVec 5)
  pOnly : Bool := false
  val  : Word

/-- The table of R220, row by row. -/
def State.intOp (s : State) : Instr → Option IntOp
  | .add a d x y => some { a, rd := d, src := [x, y], val := s.gr a x + s.gr a y }
  | .sub a d x y => some { a, rd := d, src := [x, y], val := s.gr a x - s.gr a y }
  | .and a d x y => some { a, rd := d, src := [x, y], val := s.gr a x &&& s.gr a y }
  | .or a d x y => some { a, rd := d, src := [x, y], val := s.gr a x ||| s.gr a y }
  | .xor a d x y => some { a, rd := d, src := [x, y], val := s.gr a x ^^^ s.gr a y }
  | .sll a d x y => some { a, rd := d, src := [x, y], val := s.gr a x <<< ((s.gr a y).toNat % 32) }
  | .srl a d x y => some { a, rd := d, src := [x, y], val := s.gr a x >>> ((s.gr a y).toNat % 32) }
  | .sra a d x y => some { a, rd := d, src := [x, y], val := (s.gr a x).sshiftRight ((s.gr a y).toNat % 32) }
  | .slt a d x y => some { a, rd := d, src := [x, y], val := if (s.gr a x).toInt < (s.gr a y).toInt then 1 else 0 }
  | .sltu a d x y => some { a, rd := d, src := [x, y], val := if (s.gr a x).toNat < (s.gr a y).toNat then 1 else 0 }
  | .min a d x y => some { a, rd := d, src := [x, y], val := BitVec.ofInt 32 (min (s.gr a x).toInt (s.gr a y).toInt) }
  | .max a d x y => some { a, rd := d, src := [x, y], val := BitVec.ofInt 32 (max (s.gr a x).toInt (s.gr a y).toInt) }
  | .minu a d x y => some { a, rd := d, src := [x, y], val := BitVec.ofNat 32 (min (s.gr a x).toNat (s.gr a y).toNat) }
  | .maxu a d x y => some { a, rd := d, src := [x, y], val := BitVec.ofNat 32 (max (s.gr a x).toNat (s.gr a y).toNat) }
  | .mul a d x y => some { a, rd := d, src := [x, y], val := BitVec.ofNat 32 ((s.gr a x).toNat * (s.gr a y).toNat) }
  | .mulsh a d x y => some { a, rd := d, src := [x, y], val := BitVec.ofInt 32 ((s.gr a x).toInt * (s.gr a y).toInt / 2 ^ 32) }
  | .muluh a d x y => some { a, rd := d, src := [x, y], val := BitVec.ofNat 32 ((s.gr a x).toNat * (s.gr a y).toNat / 2 ^ 32) }
  | .divs a d x y => some { a, rd := d, src := [x, y], pOnly := true, val := divS (s.gr a x) (s.gr a y) }
  | .divu a d x y => some { a, rd := d, src := [x, y], pOnly := true, val := divU (s.gr a x) (s.gr a y) }
  | .mods a d x y => some { a, rd := d, src := [x, y], pOnly := true, val := modS (s.gr a x) (s.gr a y) }
  | .modu a d x y => some { a, rd := d, src := [x, y], pOnly := true, val := modU (s.gr a x) (s.gr a y) }
  | .addi a d x m => some { a, rd := d, src := [x], val := s.gr a x + m.signExtend 32 }
  | .andi a d x m => some { a, rd := d, src := [x], val := s.gr a x &&& m.setWidth 32 }
  | .ori a d x m => some { a, rd := d, src := [x], val := s.gr a x ||| m.setWidth 32 }
  | .xori a d x m => some { a, rd := d, src := [x], val := s.gr a x ^^^ m.setWidth 32 }
  | .slti a d x m => some { a, rd := d, src := [x], val := if (s.gr a x).toInt < m.toInt then 1 else 0 }
  | .sltiu a d x m => some { a, rd := d, src := [x], val := if (s.gr a x).toNat < (m.signExtend 32).toNat then 1 else 0 }
  | .lui a d m => some { a, rd := d, src := [], val := BitVec.ofNat 32 (m.toNat * 2 ^ 16) }
  | .slli a d x k => some { a, rd := d, src := [x], val := s.gr a x <<< k.toNat }
  | .srli a d x k => some { a, rd := d, src := [x], val := s.gr a x >>> k.toNat }
  | .srai a d x k => some { a, rd := d, src := [x], val := (s.gr a x).sshiftRight k.toNat }
  | _ => none

/-- The register numbers of an `IntOp` are those of its agent's profile, and the agent has the instruction (R214, R222). -/
def IntOp.ok (o : IntOp) : Prop := o.pOnly = true → isPair o.a = true

/-! ### Branches and jumps (R231) -/

/-- A branch or jump: the registers it names, whether it is taken, where it goes, the register it links in. -/
structure JumpOp where
  a : Agent
  g : List (BitVec 5)
  taken  : Bool
  target : Word
  link   : Option (BitVec 5) := none

/-- The table of R231: a displacement counts words from pc; JALR clears the low two bits of its target. -/
def State.jumpOp (s : State) : Instr → Option JumpOp
  | .beq a t x m => some { a, g := [t, x], taken := s.gr a x == s.gr a t, target := s.pcOf a + m.signExtend 32 * 4 }
  | .bne a t x m => some { a, g := [t, x], taken := s.gr a x != s.gr a t, target := s.pcOf a + m.signExtend 32 * 4 }
  | .blt a t x m =>
    some { a, g := [t, x], taken := decide ((s.gr a x).toInt < (s.gr a t).toInt), target := s.pcOf a + m.signExtend 32 * 4 }
  | .bge a t x m =>
    some { a, g := [t, x], taken := decide ((s.gr a t).toInt ≤ (s.gr a x).toInt), target := s.pcOf a + m.signExtend 32 * 4 }
  | .bltu a t x m =>
    some { a, g := [t, x], taken := decide ((s.gr a x).toNat < (s.gr a t).toNat), target := s.pcOf a + m.signExtend 32 * 4 }
  | .bgeu a t x m =>
    some { a, g := [t, x], taken := decide ((s.gr a t).toNat ≤ (s.gr a x).toNat), target := s.pcOf a + m.signExtend 32 * 4 }
  | .jal a d m => some { a, g := [d], taken := true, target := s.pcOf a + m.signExtend 32 * 4, link := some d }
  | .jalr a d x m =>
    some { a, g := [d, x], taken := true, target := (s.gr a x + m.signExtend 32) &&& 0xFFFFFFFC, link := some d }
  | _ => none

/-! ### Loads, stores and atomic instructions (R223, R230) -/

/-- A load: the registers it names, its destination (32 up: floating-point registers), address, bytes, extension. -/
structure LoadOp where
  a : Agent
  g : List (BitVec 5)
  f : List (BitVec 5) := []
  dst  : Nat
  addr : Nat
  n    : Nat
  ext  : Nat → Word
  ecc  : Ecc
  pOnly : Bool := false

/-- The loads of R223. -/
def State.loadOp (s : State) : Instr → Option LoadOp
  | .lw a d x m e => some { a, g := [d, x], dst := d.toNat, addr := s.ea a x m, n := 4, ext := BitVec.ofNat 32, ecc := e }
  | .lh a d x m e =>
    some { a, g := [d, x], dst := d.toNat, addr := s.ea a x m, n := 2, ext := fun v => (BitVec.ofNat 16 v).signExtend 32, ecc := e }
  | .lhu a d x m e => some { a, g := [d, x], dst := d.toNat, addr := s.ea a x m, n := 2, ext := BitVec.ofNat 32, ecc := e }
  | .lb a d x m e =>
    some { a, g := [d, x], dst := d.toNat, addr := s.ea a x m, n := 1, ext := fun v => (BitVec.ofNat 8 v).signExtend 32, ecc := e }
  | .lbu a d x m e => some { a, g := [d, x], dst := d.toNat, addr := s.ea a x m, n := 1, ext := BitVec.ofNat 32, ecc := e }
  | .flw a d x m e =>
    some { a, g := [x], f := [d], dst := 32 + d.toNat, addr := s.ea a x m, n := 4, ext := BitVec.ofNat 32, ecc := e, pOnly := true }
  | _ => none

/-- Where the agent's bytes at an address lie that a load may read (R37, R225, R284). -/
def readKey (a : Agent) (x : Nat) : Option Nat :=
  match a with
  | .pair t _ =>
    if inWindow x then some (windowKey t x)
    else match regionOf x with
      | .rom | .mem _ => some x
      | .regs | .none => none
  | .thread k _ => if x ≤ 0xFFFF then some (threadData k x) else none

/-- The protection of the pair allows the use (R286); a thread's pages are checked by its own windows (R256). -/
def State.allows (s : State) (a : Agent) (x : Nat) (u : Use) : Prop :=
  match a with
  | .pair t _ => s.protOk t x u = true
  | .thread k _ => u = .store → s.thMayWrite k x = true

/-- A store: the registers it names, its address, bytes and the word stored. -/
structure StoreOp where
  a : Agent
  g : List (BitVec 5)
  f : List (BitVec 5) := []
  addr : Nat
  n    : Nat
  val  : Word
  ecc  : Ecc
  pOnly : Bool := false

/-- The stores of R223. -/
def State.storeOp (s : State) : Instr → Option StoreOp
  | .sw a y x m e => some { a, g := [y, x], addr := s.ea a x m, n := 4, val := s.gr a y, ecc := e }
  | .sh a y x m e => some { a, g := [y, x], addr := s.ea a x m, n := 2, val := s.gr a y, ecc := e }
  | .sb a y x m e => some { a, g := [y, x], addr := s.ea a x m, n := 1, val := s.gr a y, ecc := e }
  | .fsw a y x m e => some { a, g := [x], f := [y], addr := s.ea a x m, n := 4, val := s.fr a y, ecc := e, pOnly := true }
  | _ => none

/-- Where a store of the agent to `n` bytes at an address puts them (R37, R178, R225, R255, R284): the calendar's enabled
descriptor area and protected code pages take none. -/
def State.storeKey (s : State) (a : Agent) (x n : Nat) : Option Nat :=
  match a with
  | .pair t _ =>
    if inWindow x then some (windowKey t x)
    else match regionOf x with
      | .mem .sram => if s.calOwns x n then none else some x
      | .mem (.data _) => some x
      | .mem (.code e) => if s.codeProtected e (x % 0x100000) then none else some x
      | _ => none
  | .thread k _ => some (threadData k x)

/-- An atomic instruction: rd, the address register, the operand register, and the word written from the old word. -/
structure AtomOp where
  t : Fin 4
  e : Ecc
  rd : BitVec 5
  rs1 : BitVec 5
  rs2 : BitVec 5
  ecc : Ecc
  new : Word → Option Word

/-- The table of R230. -/
def State.atomOp (s : State) : Instr → Option AtomOp
  | .aswp (.pair t e) d x y c => some { t, e, rd := d, rs1 := x, rs2 := y, ecc := c, new := fun _ => some (s.pg t y.toNat) }
  | .aadd (.pair t e) d x y c => some { t, e, rd := d, rs1 := x, rs2 := y, ecc := c, new := fun o => some (o + s.pg t y.toNat) }
  | .aadds (.pair t e) d x y c =>
    some { t, e, rd := d, rs1 := x, rs2 := y, ecc := c,
           new := fun o => some (BitVec.ofNat 32 (min (o.toNat + (s.pg t y.toNat).toNat) (2 ^ 32 - 1))) }
  | .aand (.pair t e) d x y c => some { t, e, rd := d, rs1 := x, rs2 := y, ecc := c, new := fun o => some (o &&& s.pg t y.toNat) }
  | .aorr (.pair t e) d x y c => some { t, e, rd := d, rs1 := x, rs2 := y, ecc := c, new := fun o => some (o ||| s.pg t y.toNat) }
  | .acas (.pair t e) d x y c =>
    some { t, e, rd := d, rs1 := x, rs2 := y, ecc := c,
           new := fun o => if o = s.pg t d.toNat then some (s.pg t y.toNat) else none }
  | _ => none

/-! ### Entry sequence (R249, R329) -/

/-- `t` is `s` after the entry sequence of pair `p`: the frame stacked, EPC, ECAUSE, EVAL, level S with interrupts off, and pc at
the handler; no other byte of memory changes. -/
def State.entered (s t : State) (p : Fin 4) (epc : Word) (cause : Nat) (eval : Word) (vector : Word) : Prop :=
  t.csr p csEPC = epc ∧ t.csr p csECAUSE = BitVec.ofNat 32 cause ∧ t.csr p csEVAL = eval ∧ t.csr p csSTATUS = 2
  ∧ t.ppc p = (s.csr p csVBASE &&& 0xFFFFFF00) + vector
  ∧ t.frames p = s.frames p + 1
  ∧ t.rdBytes (frameKey p (s.frames p)) 32 = wordsToBytes
      [s.csr p csEPC, s.csr p csSTATUS, s.csr p csECAUSE, s.csr p csEVAL, BitVec.ofNat 32 (s.runp p), s.pg p 1, s.pg p 2, s.pg p 3]
  ∧ (∀ k, (k < frameKey p (s.frames p) ∨ frameKey p (s.frames p) + 32 ≤ k) → t.rd8 k = s.rd8 k)

/-- No outstanding load of the pair goes into g1 to g3, which the entry sequence stacks and the exit sequence restores. -/
def State.scratchReady (s : State) (p : Fin 4) : Prop := ∀ d ∈ (s.pair p).loads, d.1 ≠ 1 ∧ d.1 ≠ 2 ∧ d.1 ≠ 3

/-! ### Results of the floating-point instructions (R237, R238) -/

/-- A floating-point instruction: the registers it names, its destination, its result and the exception flags it raises. -/
structure FpOp where
  t : Fin 4
  e : Ecc
  g : List (BitVec 5) := []
  f : List (BitVec 5) := []
  /-- The key of the destination: none where it is g0. -/
  dst : Option Nat
  res : Word × Nat

/-- The key of general register `r` of a pair as a destination: none for g0. -/
def gDst (t : Fin 4) (r : BitVec 5) : Option Nat := if r = 0 then none else some (gKey t r.toNat)

/-- Floating-point register `r` of pair `t`. -/
def State.freg (s : State) (t : Fin 4) (r : BitVec 5) : Word := s.reg (fKey t r.toNat)

/-- The rounding mode of pair `t`: bits [1:0] of FCSR. -/
def State.rmOf (s : State) (t : Fin 4) : Nat := (s.csr t csFCSR).toNat % 4

/-- The table of R238, row by row, over the binary32 operations. -/
def State.fpOp (s : State) : Instr → Option FpOp
  | .fadd (.pair t e) d x y =>
    some { t, e, f := [d, x, y], dst := some (fKey t d.toNat), res := fAddX (s.rmOf t) (s.freg t x) (s.freg t y) }
  | .fsub (.pair t e) d x y =>
    some { t, e, f := [d, x, y], dst := some (fKey t d.toNat), res := fSubX (s.rmOf t) (s.freg t x) (s.freg t y) }
  | .fmul (.pair t e) d x y =>
    some { t, e, f := [d, x, y], dst := some (fKey t d.toNat), res := fMulX (s.rmOf t) (s.freg t x) (s.freg t y) }
  | .fdiv (.pair t e) d x y =>
    some { t, e, f := [d, x, y], dst := some (fKey t d.toNat), res := fDivX (s.rmOf t) (s.freg t x) (s.freg t y) }
  | .fsqrt (.pair t e) d x => some { t, e, f := [d, x], dst := some (fKey t d.toNat), res := fSqrtX (s.rmOf t) (s.freg t x) }
  | .fmin (.pair t e) d x y =>
    some { t, e, f := [d, x, y], dst := some (fKey t d.toNat), res := fMinMaxX false (s.freg t x) (s.freg t y) }
  | .fmax (.pair t e) d x y =>
    some { t, e, f := [d, x, y], dst := some (fKey t d.toNat), res := fMinMaxX true (s.freg t x) (s.freg t y) }
  | .fminn (.pair t e) d x y =>
    some { t, e, f := [d, x, y], dst := some (fKey t d.toNat), res := fMinMaxNumX false (s.freg t x) (s.freg t y) }
  | .fmaxn (.pair t e) d x y =>
    some { t, e, f := [d, x, y], dst := some (fKey t d.toNat), res := fMinMaxNumX true (s.freg t x) (s.freg t y) }
  | .fabs (.pair t e) d x => some { t, e, f := [d, x], dst := some (fKey t d.toNat), res := (s.freg t x &&& 0x7FFFFFFF, 0) }
  | .fneg (.pair t e) d x => some { t, e, f := [d, x], dst := some (fKey t d.toNat), res := (s.freg t x ^^^ 0x80000000, 0) }
  | .fcpys (.pair t e) d x y =>
    some { t, e, f := [d, x, y], dst := some (fKey t d.toNat),
           res := ((s.freg t x &&& 0x7FFFFFFF) ||| (s.freg t y &&& 0x80000000), 0) }
  | .fcmp (.pair t e) d x y =>
    some { t, e, g := [d], f := [x, y], dst := gDst t d,
           res := (fRelation (s.freg t x) (s.freg t y), b2n (fIsSNaN (s.freg t x) || fIsSNaN (s.freg t y))) }
  | .fcmps (.pair t e) d x y =>
    some { t, e, g := [d], f := [x, y], dst := gDst t d,
           res := (fRelation (s.freg t x) (s.freg t y), b2n (fIsNaN (s.freg t x) || fIsNaN (s.freg t y))) }
  | .ftype (.pair t e) d x => some { t, e, g := [d], f := [x], dst := gDst t d, res := (fType (s.freg t x), 0) }
  | .ftoi (.pair t e) d x =>
    some { t, e, g := [d], f := [x], dst := gDst t d, res := fToIntX (s.rmOf t) (-2 ^ 31) (2 ^ 31 - 1) (s.freg t x) }
  | .ftoiz (.pair t e) d x =>
    some { t, e, g := [d], f := [x], dst := gDst t d, res := fToIntX 3 (-2 ^ 31) (2 ^ 31 - 1) (s.freg t x) }
  | .ftoiu (.pair t e) d x =>
    some { t, e, g := [d], f := [x], dst := gDst t d, res := fToIntX (s.rmOf t) 0 (2 ^ 32 - 1) (s.freg t x) }
  | .fitof (.pair t e) d x =>
    some { t, e, g := [x], f := [d], dst := some (fKey t d.toNat), res := fOfIntX (s.rmOf t) (s.pg t x.toNat).toInt }
  | .futof (.pair t e) d x =>
    some { t, e, g := [x], f := [d], dst := some (fKey t d.toNat), res := fOfIntX (s.rmOf t) (s.pg t x.toNat).toNat }
  | .fmvgf (.pair t e) d x => some { t, e, g := [d], f := [x], dst := gDst t d, res := (s.freg t x, 0) }
  | .fmvfg (.pair t e) d x => some { t, e, g := [x], f := [d], dst := some (fKey t d.toNat), res := (s.pg t x.toNat, 0) }
  | .fmac (.pair t e) d x y =>
    some { t, e, f := [d, x, y], dst := some (fKey t d.toNat), res := fMacX (s.rmOf t) false (s.freg t d) (s.freg t x) (s.freg t y) }
  | .fmsc (.pair t e) d x y =>
    some { t, e, f := [d, x, y], dst := some (fKey t d.toNat), res := fMacX (s.rmOf t) true (s.freg t d) (s.freg t x) (s.freg t y) }
  | .fscl (.pair t e) d x y =>
    some { t, e, g := [y], f := [d, x], dst := some (fKey t d.toNat), res := fScaleX (s.rmOf t) (s.freg t x) (s.pg t y.toNat).toInt }
  | _ => none

/-! ### What a command leaves alone -/

/-- `t` is `s` but for the registers `ks`: every other register, every byte of memory, every item in flight, every queue, buffer and
counter is as before. -/
def State.onlyRegs (s t : State) (ks : List Nat) : Prop := t = { s with regs := t.regs } ∧ ∀ k, k ∉ ks → t.reg k = s.reg k

/-- `t` is `s` but for the registers `ks` and the items `l`, launched in this order behind every earlier one. -/
def State.onlySends (s t : State) (ks : List Nat) (l : List Item) : Prop :=
  t = { s with regs := t.regs, inflight := s.inflight ++ l } ∧ ∀ k, k ∉ ks → t.reg k = s.reg k

/-- The interrupt message of bit `b` of an event register (R316, R317). -/
def evtItem (evt b : Nat) : Item := ⟨islandOf (blkOf evt), .policy, .irq (evtBase evt + b) true true⟩

/-- A fault message on its way to the collector (R550 to R553). -/
def faultItem (blk unit kind cls detail : Nat) : Item := ⟨islandOf blk, .guard, .fault (faultWord blk unit kind cls 0 detail)⟩

/-- What a fault of the drive sends (R383, R385): its event, its message of kind 0x10 + bit, and the event of ALRT_N. -/
def drvFault (bit unit cls : Nat) : List Item :=
  [evtItem INJ_EVT bit, faultItem blkINJ unit (0x10 + bit) cls 0, evtItem INJ_EVT INJ_EVT_ALRT]

/-- `t` is `s` after a fault of bank `b` has latched its channels (R376, R383): each is LATCHED, or its pulse goes on to its
minimum-duration end and is LATCHED then; the fault is reported, and other banks are as before. -/
def State.bankLatched (s t : State) (b bit : Nat) : Prop :=
  (∀ i, i < 3 →
    (s.pulsing (3 * b + i) = false ∨ (s.injOf (3 * b + i)).tmin ≤ s.now →
      (t.injOf (3 * b + i)).st = .latched
      ∧ ((s.injOf (3 * b + i)).st ≠ .latched → t.bit INJ_STAT (16 + 3 * b + i) = true))
    ∧ (s.pulsing (3 * b + i) = true → s.now < (s.injOf (3 * b + i)).tmin →
      (t.injOf (3 * b + i)).st = (s.injOf (3 * b + i)).st
      ∧ (t.injOf (3 * b + i)).forced = some ((s.injOf (3 * b + i)).tmin, bit, true)))
  ∧ t.bit INJ_EVT bit = true ∧ t.fld INJ_ALRT INJ_ALRT_LOW = 1 ∧ t.fld INJ_ALRT INJ_ALRT_CAUSE = bit
  ∧ (∀ x ∈ drvFault bit b clsU, x ∈ t.inflight) ∧ (∀ m, m < 12 → m / 3 ≠ b → t.injOf m = s.injOf m)
  ∧ t = { s with regs := t.regs, inj := t.inj, drive := t.drive, inflight := t.inflight }

/-- `t` is `s` after a filtered edge of comparator `n` (R340, R412, R414): its level and event, its count, for a rising one the lines that
select it, the threads' hardware event and the end of its ramp, and the candidates of the timer channels that capture it. -/
def State.cmpEdged (s t : State) (n : Nat) (up : Bool) : Prop :=
  t.bit CMP_STAT n = up ∧ t.bit CMP_EVT (if up then n else 8 + n) = true
  ∧ (∀ i, i < 8 → i ≠ n → t.bit CMP_STAT i = s.bit CMP_STAT i) ∧ (up = true → t.bit CMP_STAT (16 + n) = false)
  ∧ t.fld (CMP_CNT n) (if up then CMP_CNT_RISE else CMP_CNT_FALL)
      = min 65535 (s.fld (CMP_CNT n) (if up then CMP_CNT_RISE else CMP_CNT_FALL) + 1)
  ∧ (up = false → t.inflight = s.inflight ++ [evtItem CMP_EVT (8 + n)])
  ∧ (up = true → t.inflight = ({ s with inflight := s.inflight ++ [evtItem CMP_EVT n] }.pulseSelected .converter (0x40 + n)).inflight
      ++ [⟨.converter, .angle, .hwEvent (0x40 + n)⟩])
  ∧ (∀ c : Fin 16, t.tmrOf c =
      if s.fld (TMR_CCFG c) TMR_CCFG_CSRC = (if up then 33 + n else 41 + n) then { s.tmrOf c with cand := some (s.reg (TMR_CNT c)) }
      else if s.fld (TMR_CCFG c) TMR_CCFG_CSRC = (if up then 41 + n else 33 + n) then { s.tmrOf c with cand := none } else s.tmrOf c)
  ∧ t = { s with regs := t.regs, inflight := t.inflight, tmr := t.tmr } ∧ ∀ k, k ∉ [CMP_STAT, CMP_EVT, CMP_CNT n] → t.reg k = s.reg k

/-- `t` is `s` after the loss of the mains lock (R445): PADC_GRID is 0, its event and message leave. -/
def State.gridGone (s t : State) : Prop :=
  t.mainsLocked = false ∧ t.reg PADC_GRID = 0 ∧ t.mains.ivs = [] ∧ t.bit PADC_EVT PADC_EVT_GRIDLOSS = true
  ∧ s.onlySends { t with mains := s.mains } [PADC_STAT, PADC_GRID, PADC_EVT]
      [evtItem PADC_EVT PADC_EVT_GRIDLOSS, faultItem blkPADC 0 0x12 clsC 0]

/-! ### The Chain (R513, R518 to R520) -/

/-- `t` is `s` after port `p` has discarded a frame (R513): counted, CRCERR set, its event in flight, nothing else. -/
def State.frameDiscarded (s t : State) (p : Nat) : Prop :=
  t.port p = { s.port p with crc := (s.port p).crc + 1 } ∧ t.port (1 - p) = s.port (1 - p)
  ∧ t.fld CHN_CNT0 CHN_CNT0_CRC = min 65535 (s.fld CHN_CNT0 CHN_CNT0_CRC + 1) ∧ t.bit CHN_EVT CHN_EVT_CRCERR = true
  ∧ s.onlySends { t with chn := { t.chn with ports := s.chn.ports } } [CHN_CNT0, CHN_EVT] [evtItem CHN_EVT CHN_EVT_CRCERR]

/-- `t` is `s` after the link of port `p` has been refused (R519, R520): the frames `sent` leave first, the port is down for 1 s from now and
begins anew then, JOINREF is counted with its event and a C-class message that names the other end; `checks` are the items of a failed
verification. -/
def State.joinRefused (s t : State) (p : Nat) (sent : List (List Byte)) (checks : List Item) : Prop :=
  (t.port p).hold = some (s.now + 400000000) ∧ (t.port p).auth = false ∧ (t.port p).up = (s.port p).up
  ∧ (t.port p).out = (s.port p).out ++ sent ∧ (t.port p).tx = [] ∧ (t.port p).pair = none ∧ t.port (1 - p) = s.port (1 - p)
  ∧ t.fld CHN_CNT1 CHN_CNT1_JOINREF = min 255 (s.fld CHN_CNT1 CHN_CNT1_JOINREF + 1) ∧ t.bit CHN_EVT CHN_EVT_JOINREF = true
  ∧ t = { s with regs := t.regs, chn := { s.chn with ports := t.chn.ports }, freeUses := t.freeUses,
                 inflight := s.inflight ++ checks ++ [evtItem CHN_EVT CHN_EVT_JOINREF,
                   faultItem blkCHN 0 0x10 clsC (match (s.port p).offer with | some o => o.2.1 | none => 0)] }
  ∧ ∀ k, k ∉ [CHN_CNT1, CHN_EVT, CHN_PSTAT, HMK_EVT] → t.reg k = s.reg k

/-! ### SPI transactions (R546, R549) -/

/-- What the end of a transaction with status `code` sends: OK, CRC, ACCESS, TOUT and FRAME raise their event; every status but OK and QEMPTY
is a refusal, with a C-class message. -/
def spiItems (code : Nat) : List Item :=
  (if code = 0 then [evtItem SPI_EVT 0] else if code = 1 then [evtItem SPI_EVT 1] else if code = 2 then [evtItem SPI_EVT 2]
    else if code = 4 then [evtItem SPI_EVT 3] else if code = 8 then [evtItem SPI_EVT 4] else [])
  ++ if code = 0 ∨ code = 7 then [] else [faultItem blkSPI 0 0x07 clsC code]

/-- `t` is `s` after a transaction has ended with status `code`: the status word holds it and one more transaction, it is counted as done
or refused, and its items are in flight. -/
def State.spiEnded (s t : State) (code : Nat) : Prop :=
  let refused := code ≠ 0 ∧ code ≠ 7
  t.reg SPI_STAT = BitVec.ofNat 32 (code + 256 * (((s.reg SPI_STAT).toNat / 256 + 1) % 256) + 65536 * b2n s.boot.recovery)
  ∧ t.fld SPI_CNT SPI_CNT_OK = (if refused then s.fld SPI_CNT SPI_CNT_OK else min 65535 (s.fld SPI_CNT SPI_CNT_OK + 1))
  ∧ t.fld SPI_CNT SPI_CNT_REFUSED = (if refused then min 65535 (s.fld SPI_CNT SPI_CNT_REFUSED + 1) else s.fld SPI_CNT SPI_CNT_REFUSED)
  ∧ ∀ x ∈ spiItems code, x ∈ t.inflight

/-- `t` is `s` after a transaction that did nothing but end with status `code`. -/
def State.spiRefused (s t : State) (code : Nat) : Prop :=
  s.spiEnded t code ∧ s.onlySends t [SPI_STAT, SPI_CNT, SPI_EVT] (spiItems code)

/-- The memory of a retired calendar entry. -/
def State.entryOf (s : State) (i : Nat) : CalEnt := tabGet (fun _ => {}) s.calEnt i

/-! ### Angle threads -/

/-- `t` is `s` after thread `n` has raised an exception (R251): FAULTED at its instruction, with code, address and value recorded,
and a U-class message in flight; its general registers and every byte of memory are as before. -/
def State.trapped (s t : State) (n : Nat) (code : Nat) (eval : Word) : Prop :=
  t.thState n = 4 ∧ t.reg (AEN_TFC n) = BitVec.ofNat 32 code ∧ t.reg (AEN_TFAD n) = BitVec.ofNat 32 (s.thPc n)
  ∧ t.reg (AEN_TFVAL n) = eval ∧ t.thr n = s.thr n ∧ t.mem = s.mem ∧ (∀ r, t.tg n r = s.tg n r)
  ∧ faultItem blkAEN (n / 32) 0x10 clsU (s.thPc n + 2 ^ 18 * n + 2 ^ 24 * code) ∈ t.inflight

/-- A wait (R241): its thread, the registers it names, the kind, the target, the event mask, rd, and whether it completes whatever
its condition. -/
structure WaitOp where
  n : Fin 64
  g : List (BitVec 5)
  kind   : Nat
  target : Word
  mask   : Nat
  rd     : BitVec 5
  now    : Bool := false

/-- The waits of R241. -/
def State.waitOp (s : State) : Instr → Option WaitOp
  | .waitAng (.thread n .clean) d x y =>
    some { n, g := [d, x, y], kind := 1, target := s.tg n x.toNat, mask := (s.tg n y.toNat).toNat % 65536, rd := d }
  | .waitTim (.thread n .clean) d x y false =>
    some { n, g := [d, x, y], kind := 2, target := s.tg n x.toNat, mask := (s.tg n y.toNat).toNat % 65536, rd := d }
  | .waitTim (.thread n .clean) d x y true =>
    some { n, g := [d, x, y], kind := 2, target := s.slotW + s.tg n x.toNat, mask := (s.tg n y.toNat).toNat % 65536, rd := d,
           now := decide ((s.tg n x.toNat).toNat = 0 ∨ 2 ^ 31 ≤ (s.tg n x.toNat).toNat) }
  | .waitEvt (.thread n .clean) d m =>
    if m = 0 then none else some { n, g := [d], kind := 3, target := m.setWidth 32, mask := m.toNat, rd := d }
  | _ => none

/-- The condition of a wait (R241, R242): an event of its mask is pending, or its angle is reached in FULL or HOLD, or its slot. -/
def WaitOp.met (s : State) (n kind : Nat) (target : Word) (mask : Nat) : Prop :=
  s.pend n &&& mask ≠ 0
  ∨ (kind = 1 ∧ s.fires = true ∧ (s.angW - target).toNat < 2 ^ 31)
  ∨ (kind = 2 ∧ (s.slotW - target).toNat < 2 ^ 31)

/-- What a completed wait puts into rd (R241). -/
def WaitOp.word (s : State) (n kind mask : Nat) : Word :=
  if kind = 1 then s.obsAng else if kind = 2 then s.slotW else BitVec.ofNat 32 (s.pend n &&& mask)

/-! ### Posts (R174 to R177, R241) -/

/-- First address of the descriptor area (R178). -/
def State.calArea (s : State) : Nat := s.fld CAL_BASE CAL_BASE_BASE * 2 ^ 21

/-- A post is accepted: the action of the four words and the poster stands in a free entry behind every earlier one, the words lie in
the entry's 16 bytes, no other byte changes, CAL_USED counts it, and the result `res` names its entry and generation. -/
def State.posted (s t : State) (w0 w1 w2 w3 : Word) (poster : Nat) (res : Word) : Prop :=
  ∃ a : Action, t.calq = s.calq ++ [a] ∧ t.stage = s.stage ∧ a.w0 = w0 ∧ a.w1 = w1 ∧ a.w2 = w2 ∧ a.w3 = w3 ∧ a.poster = poster
    ∧ a.place = .waiting ∧ a.idx < 131072 ∧ a.gen < 128 ∧ (∀ b ∈ s.calq ++ s.stage, b.idx ≠ a.idx)
    ∧ res = BitVec.ofNat 32 (a.idx + 2 ^ 17 * a.gen)
    ∧ t.fld CAL_USED CAL_USED_USED = s.calq.length + s.stage.length + 1
    ∧ t.rdBytes (s.calArea + 16 * a.idx) 16 = wordsToBytes [w0, w1, w2, w3]
    ∧ ∀ x, (x < s.calArea + 16 * a.idx ∨ s.calArea + 16 * a.idx + 16 ≤ x) → t.rd8 x = s.rd8 x

/-- A post is refused with status `st`: nothing is accepted, the refusal is counted with its event (FULL, or REFUSE for any other
status), and the result holds bit 31 and the status. -/
def State.unposted (s t : State) (st : Nat) (res : Word) : Prop :=
  t.calq = s.calq ∧ t.stage = s.stage ∧ t.mem = s.mem ∧ res = BitVec.ofNat 32 (2 ^ 31 + st)
  ∧ t.fld CAL_CNT1 CAL_CNT1_REFUSE = min 65535 (s.fld CAL_CNT1 CAL_CNT1_REFUSE + 1)
  ∧ t.bit CAL_EVT (if st = 17 then 3 else 4) = true

/-- A post from a template: thread, registers named, rd, template, the four words of its descriptor, and whether the instruction
itself makes it illegal. -/
structure PostOp where
  n : Fin 64
  g : List (BitVec 5)
  rd : BitVec 5
  k  : BitVec 11
  w0 : Word
  w1 : Word
  w2 : Word
  w3 : Word
  bad : Bool := false

/-- Word `j` of template `k` of the engine of thread `n` (R241). -/
def State.tmplWord (s : State) (n : Nat) (k : BitVec 11) (j : Nat) : Word := s.rd32 (threadData n (16 * k.toNat) + 4 * j)

/-- The posts of R241. -/
def State.postOp (s : State) : Instr → Option PostOp
  | .postAction (.thread n .clean) d x y k .clean =>
    some { n, g := [d, x, y], rd := d, k, w0 := s.tg n x.toNat, w1 := s.tmplWord n k 1,
           w2 := if y = 0 then s.tmplWord n k 2 else s.tg n y.toNat, w3 := s.tmplWord n k 3 }
  | .pulse (.thread n .clean) d x y k .clean =>
    let len := s.tg n y.toNat - s.tg n x.toNat
    some { n, g := [d, x, y], rd := d, k, w0 := s.tg n x.toNat, w1 := s.tmplWord n k 1,
           w2 := (s.tmplWord n k 2 &&& 0xFF000000) ||| (len &&& 0xFFFFFF), w3 := s.tmplWord n k 3,
           bad := decide (2 < (s.tmplWord n k 1).toNat % 16 ∨ len.toNat = 0 ∨ 2 ^ 24 ≤ len.toNat) }
  | .samp (.thread n .clean) d x y k .clean =>
    some { n, g := [d, x, y], rd := d, k, w0 := s.tg n x.toNat,
           w1 := if y = 0 then s.tmplWord n k 1 else (s.tmplWord n k 1 &&& 0xFFFFFC0F) ||| ((s.tg n y.toNat &&& 63) <<< 4),
           w2 := s.tmplWord n k 2, w3 := s.tmplWord n k 3,
           bad := decide ((s.tmplWord n k 1).toNat % 16 ≠ 4 ∨ (y ≠ 0 ∧ 47 < (s.tg n y.toNat).toNat)) }
  | _ => none

/-- The action that a post would make. -/
def PostOp.action (o : PostOp) : Action := { w0 := o.w0, w1 := o.w1, w2 := o.w2, w3 := o.w3, poster := o.n }

/-- The spark of an ignition action at its natural end is late beyond its limit, and so suppressed (R187). -/
def State.suppressed (s : State) (a : Action) : Prop :=
  a.kind = 1 ∧ a.limit ≠ 255 ∧ (a.lateEnd = true ∨ (a.tEnd = a.tmin ∧ ∃ x, a.ta = some x ∧ x < a.tmin))
  ∧ 1024 * a.limit < (wDiff s.angW a.endAngle).toNat

/-- What an abort of a handle gives (R198, R199): CANCELLED before the start; ABORTED for a pulse cut short; ABORT_LATE for one at its
natural end, SUPPRESSED if that end suppresses the spark, and the status under way for one that already ends early; for an entry retired
under the handle's generation ABORT_LATE if it completed, else its final status; STALE otherwise. -/
def State.abortStatus (s : State) (h : Word) (st : Nat) : Prop :=
  (∃ a, s.liveHandle h = some a ∧ (a.place = .waiting ∨ a.place = .held) ∧ st = 4)
  ∨ (∃ a, s.liveHandle h = some a ∧ a.place = .active ∧ s.now + a.lead < a.tEnd ∧ st = 5)
  ∨ (∃ a, s.liveHandle h = some a ∧ a.place = .active ∧ a.tEnd ≤ s.now + a.lead ∧ (s.suppressed a → st = 9) ∧ (¬s.suppressed a → st = 6))
  ∨ (∃ a, s.liveHandle h = some a ∧ a.place = .ending ∧ st = a.endSt)
  ∨ (s.liveHandle h = none ∧ ∃ e, e = tabGet (fun _ => ({} : CalEnt)) s.calEnt (h.toNat % 2 ^ 17)
      ∧ (e.used = true ∧ e.gen = h.toNat / 2 ^ 17 → st = if e.st = 1 ∨ e.st = 2 then 6 else e.st)
      ∧ (¬(e.used = true ∧ e.gen = h.toNat / 2 ^ 17) → st = 10))

/-- What an abort with that status does: an action not yet started leaves the calendar and its entry keeps CANCELLED; ABORT_LATE comes
with its event; an abort that finds no action changes none. -/
def State.aborted (s t : State) (h : Word) (st : Nat) : Prop :=
  (∀ a, s.liveHandle h = some a → (a.place = .waiting ∨ a.place = .held) →
      (∀ b ∈ t.calq ++ t.stage, b.idx ≠ a.idx) ∧ (tabGet (fun _ => ({} : CalEnt)) t.calEnt a.idx).st = 4)
  ∧ (st = 6 → (∀ a, s.liveHandle h = some a → a.place = .active) →
      (s.liveHandle h = none → (tabGet (fun _ => ({} : CalEnt)) s.calEnt (h.toNat % 2 ^ 17)).st ≠ 6) → t.bit OUT_EVT 3 = true)
  ∧ (s.liveHandle h = none → t.calq = s.calq ∧ t.stage = s.stage ∧ t.mem = s.mem)

/-! ### Trims (R303, R305) -/

/-- Trim `i` stands in `t` at the value in force that its request, its envelope and the base `b` give, with its flags: a LO above HI
holds 0 and shows ENVERR; else the request, held within the envelope narrowed by SLEW about the base; the bound nearest the base where
that leaves nothing. -/
def State.inForce (t : State) (i : Nat) (b : Int) : Prop :=
  let lo := (t.reg (AEN_ELO i)).toInt
  let hi := (t.reg (AEN_EHI i)).toInt
  let sl : Int := t.fld (AEN_ESL i) AEN_ESL_SLEW
  let l := if sl = 0 then lo else max lo (b - sl)
  let h := if sl = 0 then hi else min hi (b + sl)
  let v := (t.reg (AEN_TRM i)).toInt
  (hi < lo → v = 0) ∧ (lo ≤ hi → h < l → v = if b < lo then lo else hi)
  ∧ (lo ≤ hi → l ≤ h → v = min (max (t.reg (AEN_TRQ i)).toInt l) h)
  ∧ t.fld (AEN_TRS i) AEN_TRS_ENVERR = (if hi < lo then 1 else 0)
  ∧ t.fld (AEN_TRS i) AEN_TRS_CLAMPED = (if t.reg (AEN_TRM i) = t.reg (AEN_TRQ i) then 0 else 1)

/-! ### Queues (R294 to R296) -/

/-- A put into queue `q` with entry `l`: refused by a disabled or full queue, which counts it and sets QFULL; else the entry is the
last of the ring, head and count step on, and no other byte changes. The result is the code of R241. -/
def State.queued (s t : State) (q : Nat) (l : List Byte) (res : Nat) : Prop :=
  (s.fld (QUE_QCFG q) QUE_QCFG_EN = 0 ∨ s.qDepth q ≤ s.qCount q →
    res = (if s.fld (QUE_QCFG q) QUE_QCFG_EN = 0 then 2 else 1) ∧ t.mem = s.mem ∧ t.qCount q = s.qCount q
    ∧ t.fld (QUE_QDROP q) QUE_QDROP_DROP = min 65535 (s.fld (QUE_QDROP q) QUE_QDROP_DROP + 1) ∧ t.bit QUE_EVT 0 = true)
  ∧ (s.fld (QUE_QCFG q) QUE_QCFG_EN = 1 → s.qCount q < s.qDepth q →
    res = 0 ∧ t.qCount q = s.qCount q + 1
    ∧ t.fld (QUE_QHEAD q) QUE_QHEAD_INDEX = (s.fld (QUE_QHEAD q) QUE_QHEAD_INDEX + 1) % s.qDepth q
    ∧ t.rdBytes (s.qAddr q (s.fld (QUE_QHEAD q) QUE_QHEAD_INDEX)) 16 = l
    ∧ ∀ x, (x < s.qAddr q (s.fld (QUE_QHEAD q) QUE_QHEAD_INDEX) ∨ s.qAddr q (s.fld (QUE_QHEAD q) QUE_QHEAD_INDEX) + 16 ≤ x) →
        t.rd8 x = s.rd8 x)

/-! ### Refused register writes (R13, R552) -/

/-- `t` is `s` after the register write at `addr` has been refused: no register but the block's WERR and WERRA changes, WERRA holds the
offset, one C-class WERR message leaves, and nothing else happens. -/
def State.writeRefused (s t : State) (addr : Nat) : Prop :=
  t = { s with regs := t.regs, inflight := t.inflight }
  ∧ (∃ u, t.inflight = s.inflight ++ [faultItem (blkOf addr) u 1 clsC (addr % 0x10000)])
  ∧ t.fld (werraKey (blkOf addr)) ⟨0, 16⟩ = addr % 0x10000
  ∧ ∀ k, k ≠ werrKey (blkOf addr) → k ≠ werraKey (blkOf addr) → t.reg k = s.reg k

/-- QNE bit `i` of thread `n` has to be set: its binding is enabled and its queue holds an entry (R267). -/
def State.qneDue (s : State) (n i : Nat) : Bool :=
  bitOf (s.reg (AEN_TQB n)) (8 * i + 7) && decide (s.qCount ((s.reg (AEN_TQB n)).toNat / 2 ^ (8 * i) % 32) ≠ 0)

/-! ### Resets (R611, R612, R614) -/

/-- `t` is `s` after a reset: MRAM keeps its bytes and every other byte is as after power-on; the registers of `kept` hold what they
held and every other its reset value, but for those of `own`; nothing is in flight, the calendar is empty, the commands still wait. -/
def State.cleared (s t : State) (kept : Nat → Bool) (own : List Nat) : Prop :=
  (∀ k, t.rd8 k = if inMram k then s.rd8 k else memDefault k)
  ∧ (∀ k, k ∉ own → t.reg k = if kept k then s.reg k else resetOf k)
  ∧ t.inflight = [] ∧ t.calq = [] ∧ t.stage = [] ∧ t.pending = s.pending

/-- `t` is `s` after a system reset with its cause and detail has been issued: the unit is in reset from now on, the high-voltage die
and soft shutdowns go on, SYS_RCAUSE names the cause and counts the request, and Loupe's enable follows the enrolment. -/
def State.wasReset (s t : State) (cause detail : Nat) : Prop :=
  t.sys.rst = true ∧ t.sys.rstAt = s.now ∧ t.now = s.now
  ∧ t.fld SYS_RCAUSE SYS_RCAUSE_CAUSE = cause % 16 ∧ t.fld SYS_RCAUSE SYS_RCAUSE_DETAIL = detail % 8
  ∧ t.fld SYS_RCAUSE SYS_RCAUSE_COUNT = min 255 (s.fld SYS_RCAUSE SYS_RCAUSE_COUNT + 1)
  ∧ s.cleared t keptReg [SYS_RCAUSE, DBG_CTRL, HMK_CHAL 0, HMK_CHAL 1, HMK_CHAL 2, HMK_CHAL 3, FLT_CNT1, HMK_STAT, SYS_STAT]
  ∧ t.inj = s.inj ∧ t.drive = s.drive ∧ t.pwm = s.pwm ∧ t.outCh = s.outCh.map OutCh.kept
  ∧ t.bit DBG_CTRL 0 = decide (s.fld HMK_STAT HMK_STAT_ENR = 0)

/-! ### The high-voltage die after a link loss (R32) -/

/-- `t` is `s` after the high-voltage die has declared the die-to-die link lost: a pulse past its minimum-duration end is over, a start
that waited is off, the boost pairs are off, the enabled pairs 0 to 7 are on their way to the safe state, and ALRT_N is low. -/
def State.hvLost (s t : State) : Prop :=
  t.drive.lost = true
  ∧ (∀ n, n < 12 → s.pulsing n = true → (s.injOf n).tmin ≤ s.now → t.pulsing n = false)
  ∧ (∀ n, n < 12 → (s.injOf n).st = .waitb → (t.injOf n).st = .off)
  ∧ (∀ n, n < 8 → s.pwmOn n = true → t.fld (PWM_CNT n) PWM_CNT_SAFE = 1)
  ∧ (∀ n, n = 8 ∨ n = 9 → (t.pwmOf n).h = false ∧ (t.pwmOf n).l = false)
  ∧ t.fld INJ_ALRT INJ_ALRT_LOW = 1 ∧ t.fld INJ_ALRT INJ_ALRT_CAUSE = 31 ∧ t.mem = s.mem

/-! ### The fault collector (R553 to R564) -/

/-- The registers in which the collector and Locket keep what a decision leaves: counts, events, latches, first and last message, FLT_N, shadows,
and what Locket and Loupe show of their queues. -/
def decisionRegs : List Nat :=
  [FLT_STAT, FLT_EVT, FLT_UPEND, FLT_FLAT, FLT_SHAD, FLT_CNT0, FLT_CNT1, FLT_LASTL, FLT_LASTH, FLT_FIRSTL, FLT_FIRSTH,
   LKT_STAT, LKT_CNT, LKT_PHEAD, LKT_HEADL, LKT_HEADH, LKT_OLDL, LKT_OLDH, DBG_STAT]

/-- The registers that show what Locket holds (R605). -/
def lktShown : List Nat := [LKT_STAT, LKT_PHEAD, LKT_HEADL, LKT_HEADH, LKT_OLDL, LKT_OLDH]

/-- `t` is `s` as far as Locket goes after entry `r` has reached its input queue (R580): behind every earlier entry; a closed Locket and a full
queue drop it and count the drop. -/
def State.entryPut (s t : State) (r : LktRec) : Prop :=
  let full := 256 ≤ s.lkt.queue.length
  let closed := s.fld LKT_STAT LKT_STAT_CLOSED = 1
  t.fld LKT_CNT LKT_CNT_DROP = (if closed ∨ full then min (2 ^ LKT_CNT_DROP.w - 1) (s.fld LKT_CNT LKT_CNT_DROP + 1) else s.fld LKT_CNT LKT_CNT_DROP)
  ∧ t.lkt = (if closed then s.lkt else if full
      then { s.lkt with drops := s.lkt.drops + 1, dropAt := if s.lkt.drops = 0 then (s.calSec, s.calNs) else s.lkt.dropAt }
      else { s.lkt with queue := s.lkt.queue ++ [r] })

/-- The fault record of message `m`, pinned or not, has been put into Locket's queue (R564, R573). -/
def State.recordPut (s t : State) (m : BitVec 64) (pin : Bool) (tail : List Byte) : Prop :=
  s.entryPut t (s.lktStamp rtFAULT pin (toBytes 8 m.toNat ++ tail))

/-- The 64 bytes `b` are record `r` with its SEQ and FLAGS, as R571 lays it out. -/
def laidOut (b : List Byte) (r : LktRec) (seq flags : Nat) : Prop :=
  b.length = 64 ∧ field b 0 6 = seq % 2 ^ 48 ∧ field b 6 1 = r.typ % 256 ∧ field b 7 1 = flags % 256 ∧ field b 8 6 = r.tsec % 2 ^ 48
  ∧ field b 14 4 = r.tns % 2 ^ 32 ∧ field b 18 3 = r.src % 2 ^ 24 ∧ field b 21 1 = r.sgen % 256 ∧ field b 22 1 = r.sync % 256 ∧ field b 23 1 = 0
  ∧ field b 24 4 = r.ang.toNat ∧ slice b 28 32 = slice r.payload 0 32 ∧ field b 60 4 = crc32 (slice b 0 60) % 2 ^ 32

/-- A pinned copy needs room for itself, for a LINK where no block is open, and for a seal pair (R584). -/
def State.pinRoom (s : State) : Prop := s.lkt.pinned.slot + (if s.lkt.pinned.blk = none then 1 else 0) + 3 ≤ 4096

/-- FLAGS of a record about to be written (R571, R573): PIN or NOPIN where a copy is due, EARLY. -/
def State.flagsDue (s : State) (r : LktRec) (flags : Nat) : Prop :=
  (s.pinRoom → flags = (if r.pin then 1 else 0) + 4 * b2n r.early) ∧ (¬s.pinRoom → flags = (if r.pin then 2 else 0) + 4 * b2n r.early)

/-- The open block `blk` of an area becomes `blk'`, and the hash `prev` that its next LINK carries becomes `prev'`, with a record of a type
(R576, R577): a LINK opens a block, a SEALS ends it, a SEALR is not hashed, any other record goes into the chain hash. -/
def blockMoved (blk blk' : Option (Nat × List Byte)) (prev prev' : List Byte) (typ : Nat) (b : List Byte) : Prop :=
  (typ = rtLINK → blk' = some (1, Config.sha256 b) ∧ prev' = prev)
  ∧ (typ = rtSEALS → blk' = none ∧ prev' = (blk.map Prod.snd).getD prev)
  ∧ (typ = rtSEALR → blk' = blk ∧ prev' = prev)
  ∧ (typ ≠ rtLINK → typ ≠ rtSEALR → typ ≠ rtSEALS → blk' = blk.map (fun x => (x.1 + 1, Config.sha256 (x.2 ++ b))) ∧ prev' = prev)

/-- The seals that wait for a signature once one of an area has been asked for: no more than one of each area waits (R576, R585). -/
def State.sealAsked (s : State) (signs : List (Bool × Bool)) (area early : Bool) : List (Bool × Bool) :=
  let blk := if area then s.lkt.pinned.blk else s.lkt.ring.blk
  if blk = none ∨ signs.any (fun q => q.1 == area) ∨ s.lkt.own.any (fun r => r.area == area && r.typ == rtSEALS) then signs
  else signs ++ [(area, early)]

/-- `t` is `s` after the collector has only counted, with event `evt`, and recorded a message, as `md` shows it (R558, R566): no class effect, no
reaction, no shadow. -/
def State.onlyRecorded (s t : State) (md : BitVec 64) (f : Fld) (evt : Nat) : Prop :=
  t.fld FLT_CNT1 f = min (2 ^ f.w - 1) (s.fld FLT_CNT1 f + 1) ∧ t.bit FLT_EVT evt = true
  ∧ (t.reg FLT_LASTL).toNat = md.toNat % 2 ^ 32 ∧ (t.reg FLT_LASTH).toNat = md.toNat / 2 ^ 32
  ∧ s.recordPut t md false (List.replicate 4 0)
  ∧ t = { s with regs := t.regs, lkt := t.lkt, dbg := t.dbg, inflight := s.inflight ++ [evtItem FLT_EVT evt] }
  ∧ ∀ k, k ∉ [FLT_EVT, FLT_CNT1, FLT_LASTL, FLT_LASTH, LKT_STAT, LKT_CNT, LKT_PHEAD, LKT_HEADL, LKT_HEADH, LKT_OLDL, LKT_OLDH, DBG_STAT] →
      t.reg k = s.reg k

/-- A reaction as an entry or a class default gives it (R555): SAFE, ACTION, LOG, PROMO, SHADOW, dependent blocks. -/
structure Decided where
  safe   : Nat
  action : Nat
  log    : Bool
  promo  : Nat := 0
  shadow : Nat := 0
  dep    : Nat := 0
  deriving DecidableEq, Repr

/-- `t` is `s` after a message that is not secondary has been decided with a reaction (R554, R556 to R564): the class raised by PROMO, its count
and latch; FLT_N; the first and the last message; the log copy; SAFE, where a class F takes 3; ACTION; the shadow. SUPWARN of SYS takes neither
SAFE nor ACTION nor a log copy. BLKRST is a write of 0 to one enable: R454 and R467 bear on one that leaves others set. With neither, nothing but the collector's and Locket's own state changes. -/
def State.decidedAs (s t : State) (m : BitVec 64) (r : Decided) : Prop :=
  let blk := m.toNat / 2 ^ 58
  let unit := m.toNat / 2 ^ 54 % 16
  let cls := let c := m.toNat / 2 ^ 44 % 4; if r.promo = 1 then max c clsU else if r.promo = 2 then max c clsF else c
  let warn := blk = blkSYS ∧ m.toNat / 2 ^ 46 % 256 = 0x10
  let safe := if warn then 0 else if cls = clsF then 3 else r.safe
  let action := if warn then 0 else r.action
  let md := (m &&& ~~~0x340000000000) ||| BitVec.ofNat 64 (cls * 2 ^ 44)
  let clear := s.reg FLT_UPEND = 0 ∧ s.reg FLT_FLAT = 0
  let first := 2 ≤ cls ∧ clear
  (t.fld FLT_CNT0 FLT_CNT0_C = if cls ≤ 1 then min 65535 (s.fld FLT_CNT0 FLT_CNT0_C + 1) else s.fld FLT_CNT0 FLT_CNT0_C)
  ∧ (t.fld FLT_CNT0 FLT_CNT0_U = if cls = 2 then min 65535 (s.fld FLT_CNT0 FLT_CNT0_U + 1) else s.fld FLT_CNT0 FLT_CNT0_U)
  ∧ (t.fld FLT_CNT1 FLT_CNT1_F = if cls = 3 then min 255 (s.fld FLT_CNT1 FLT_CNT1_F + 1) else s.fld FLT_CNT1 FLT_CNT1_F)
  ∧ (∀ b, b < 32 → t.bit FLT_UPEND b = (s.bit FLT_UPEND b || decide (cls = 2 ∧ b = blk)) ∧ t.bit FLT_FLAT b = (s.bit FLT_FLAT b || decide (cls = 3 ∧ b = blk)))
  ∧ t.fld FLT_STAT FLT_STAT_LOW = (if s.fld FLT_CTRL FLT_CTRL_ARM = 0 ∨ t.reg FLT_UPEND ≠ 0 ∨ t.reg FLT_FLAT ≠ 0 then 1 else 0)
  ∧ (t.reg FLT_FIRSTL).toNat = (if first then md.toNat % 2 ^ 32 else (s.reg FLT_FIRSTL).toNat)
  ∧ (t.reg FLT_FIRSTH).toNat = (if first then md.toNat / 2 ^ 32 else (s.reg FLT_FIRSTH).toNat)
  ∧ (t.reg FLT_LASTL).toNat = md.toNat % 2 ^ 32 ∧ (t.reg FLT_LASTH).toNat = md.toNat / 2 ^ 32
  ∧ t.bit FLT_EVT (cls - 1) = true ∧ (safe ≠ 0 ∨ action ≠ 0 → t.bit FLT_EVT FLT_EVT_REACT = true)
  ∧ (r.log = true → ¬warn → action ≠ 3 →
      s.recordPut t md (cls == 3 || (decide first && s.fld LKT_CFG LKT_CFG_PINU == 1)) (toBytes 1 safe ++ toBytes 1 action ++ toBytes 2 r.shadow))
  ∧ (r.log = false ∨ warn → t.lkt = s.lkt)
  ∧ (1 ≤ safe → t.reg OUT_ENI = 0 ∧ (s.linkOk = true → ∀ n, n < 8 → s.pwmOn n = true → t.fld (PWM_CNT n) PWM_CNT_SAFE = 1))
  ∧ (2 ≤ safe → t.reg OUT_ENG = 0 ∧ t.reg OUT_ENA = 0) ∧ (safe = 3 → t.bit CAL_CTRL 0 = false ∧ t.reg AEN_CTRL = 0)
  ∧ (action = 1 → (blk = blkAEN → unit < 2 → t.bit AEN_CTRL unit = false) ∧ (blk = blkFADC → unit < 4 → t.bit FADC_CTRL unit = false)
      ∧ (blk = blkPADC → unit < 2 → s.fld PADC_XCFG PADC_XCFG_EN = 0 → t.bit PADC_CTRL unit = false)
      ∧ (blk = blkCMB → unit < 12 → s.fld CMB_CTRL CMB_CTRL_EN = 2 ^ unit → t.bit CMB_CTRL unit = false)
      ∧ (blk = blkCHN → unit < 2 → t.bit CHN_CTRL unit = false) ∧ (blk = blkCAN → unit < 2 → t.bit CAN_CTRL unit = false)
      ∧ (blk = blkETH → t.bit ETH_CTRL 0 = false) ∧ (blk = blkSPI → t.bit SPI_CTRL 0 = false)
      ∧ (blk = blkQUE → m.toNat / 2 ^ 46 % 256 = 0x10 → t.dmaState unit = dmIDLE))
  ∧ (action = 2 → blk = blkPAIR → (vat t.pairs (unit % 4)).run = .boot ∧ t.pairHalted (unit % 4) = false)
  ∧ t.sys.ask = (if action = 3 then some (4, 0) else s.sys.ask)
  ∧ t.flt = { s.flt with shadows := s.flt.shadows ++ (if r.shadow = 0 then [] else [(2 ^ blk ||| r.dep, r.shadow)]) }
  ∧ (r.shadow ≠ 0 → ∀ b, b < 32 → t.bit FLT_SHAD b = t.flt.shadows.any fun x => x.1.testBit b)
  ∧ (safe = 0 → action = 0 →
      t = { s with regs := t.regs, lkt := t.lkt, dbg := t.dbg, flt := t.flt, inflight := s.inflight ++ [evtItem FLT_EVT (cls - 1)] }
      ∧ ∀ k, k ∉ decisionRegs → t.reg k = s.reg k)

/-! ### Loupe (R630 to R633) -/

/-- `t` is `s` after Loupe has answered a command: one RESP packet with TAG, status and data, then the packets `after`; BUSERR (1) and LOCKED (2) set
ACCESS and send its message with ADDR (R632, R633). -/
def State.loupeSays (s t : State) (tag : BitVec 4) (status : Nat) (data addr : Word) (after : List (List Byte)) : Prop :=
  let l := BitVec.ofNat 8 (2 * 16 + tag.toNat) :: BitVec.ofNat 8 status :: toBytes 4 data.toNat
  t.dbg = { s.dbg with sent := (l ++ toBytes 2 (crc16 l)) :: after, bad := false }
  ∧ (status = 1 ∨ status = 2 → t.bit DBG_EVT DBG_EVT_ACCESS = true)
  ∧ s.onlySends { t with dbg := s.dbg } [DBG_EVT]
      (if status = 1 ∨ status = 2 then [evtItem DBG_EVT DBG_EVT_ACCESS, faultItem blkDBG 0 0x07 clsC addr.toNat] else [])

end Sys2Proof.Machine
end

