-- ==== Sys2Proof/Certificates/Slice0/Obligations.lean ====
section
/-! DEFINITION. The statements for the provers. Each docstring names the rules of spec/ it formalises. -/

open Sys2Proof Sys2Proof.Machine

/-- R220, R213, R231: where its agent can issue it, each integer instruction of the table of R220 answers a next state: the
destination holds the value of its row (g0 stays 0), the pc moves on by 4, and nothing else changes.
R220, R221: the quotient and the remainder of a division: with a divisor other than 0, and apart from the one quotient out of
range, quotient times divisor plus remainder is the dividend, the remainder is smaller than the divisor and has the dividend's
sign; a division by 0 saturates and leaves the remainder 0. -/
def Obligations.IntegerResults : Prop :=
  (
    ∀ (i : Instr) (s : State) (o : IntOp), s.intOp i = some o → o.ok → s.canIssue o.a (o.rd :: o.src) [] 1 0 →
      ∃ t, Sys2Proof.Machine.exec i s = .next t
        ∧ t.gr o.a o.rd = (if o.rd = 0 then 0 else o.val)
        ∧ t.pcOf o.a = s.pcOf o.a + 4
        ∧ s.onlyWrites t o.a 1 0 (if o.rd = 0 then [] else [gKeyOf o.a o.rd]))
  ∧ (
    (∀ x y : Word, y ≠ 0 → ¬(x = 0x80000000 ∧ y = 0xFFFFFFFF) →
      (divS x y).toInt * y.toInt + (modS x y).toInt = x.toInt ∧ (modS x y).toInt.natAbs < y.toInt.natAbs
      ∧ ((modS x y).toInt = 0 ∨ ((modS x y).toInt < 0 ↔ x.toInt < 0)))
    ∧ (∀ x y : Word, y ≠ 0 → (divU x y).toNat * y.toNat + (modU x y).toNat = x.toNat ∧ (modU x y).toNat < y.toNat)
    ∧ (∀ x : Word, modS x 0 = 0 ∧ modU x 0 = 0 ∧ divU x 0 = 0xFFFFFFFF
      ∧ (divS x 0 = if x.toInt < 0 then 0x80000000 else 0x7FFFFFFF))
    ∧ divS 0x80000000 0xFFFFFFFF = 0x7FFFFFFF ∧ modS 0x80000000 0xFFFFFFFF = 0)

/-- R231: where its agent can issue it, each branch and jump answers a next state: pc is the target where it is taken and pc + 4
where not, JAL and JALR leave pc + 4 in rd, and apart from rd, the budget and the trace buffer nothing changes. -/
def Obligations.JumpResults : Prop :=
  ∀ (i : Instr) (s : State) (o : JumpOp), s.jumpOp i = some o → s.canIssue o.a o.g [] 1 0 →
    ∃ t, Sys2Proof.Machine.exec i s = .next t
      ∧ t.pcOf o.a = (if o.taken then o.target else s.pcOf o.a + 4)
      ∧ (∀ rd, o.link = some rd → t.gr o.a rd = if rd = 0 then 0 else s.pcOf o.a + 4)
      ∧ (∀ k, k ∉ ownKeys o.a → (∀ rd, o.link = some rd → k ≠ gKeyOf o.a rd) → k ≠ DBG_STAT → t.reg k = s.reg k)
      ∧ t = { s with regs := t.regs, meters := t.meters, pairs := t.pairs, threads := t.threads, dbg := t.dbg }

/-- R223, R224, R225, R229: an aligned load that the protection allows, of a correct word in memory, answers a next state: on a
thread the destination holds the extended data; on a pair the load joins the outstanding ones, at most four, the oldest of four
having reached its destination. Memory is unchanged, and on a thread every register but the destination.
R229: the oldest outstanding load of a pair returns: its destination holds its data, it is no longer outstanding, and nothing
else changes. -/
def Obligations.LoadResults : Prop :=
  (
    ∀ (i : Instr) (s : State) (o : LoadOp) (key : Nat), s.loadOp i = some o → o.ecc = .clean → (o.pOnly = true → isPair o.a = true) →
      o.addr % o.n = 0 → s.allows o.a o.addr .load → readKey o.a o.addr = some key →
      s.canIssue o.a o.g o.f 1 (s.accessBeats o.a o.addr o.n .load) →
      ∃ t, Sys2Proof.Machine.exec i s = .next t
        ∧ t.pcOf o.a = s.pcOf o.a + 4 ∧ t.mem = s.mem ∧ t.inflight = s.inflight
        ∧ (∀ k e, o.a = .thread k e → t.tg k o.dst = (if o.dst = 0 then 0 else o.ext (ofBytes (s.rdBytes key o.n)))
            ∧ ∀ j, j ∉ ownKeys o.a → j ≠ AEN_TG k o.dst → t.reg j = s.reg j)
        ∧ (∀ p e, o.a = .pair p e →
            (t.pair p).loads = (if 4 ≤ (s.pair p).loads.length then (s.pair p).loads.drop 1 else (s.pair p).loads)
              ++ [(o.dst, o.ext (ofBytes (s.rdBytes key o.n)))]
            ∧ ((s.pair p).loads.length < 4 → ∀ j, j ∉ ownKeys o.a → t.reg j = s.reg j)))
  ∧ (
    ∀ (p : Fin 4) (s : State) (d : Nat) (v : Word) (rest : List (Nat × Word)), (s.pair p).loads = (d, v) :: rest →
      ∃ t, Sys2Proof.Machine.exec (.loadComplete p) s = .next t
        ∧ (t.pair p).loads = rest
        ∧ (d = 0 → t.regs = s.regs)
        ∧ (0 < d → d < 32 → t.pg p d = v ∧ ∀ k, k ≠ gKey p d → t.reg k = s.reg k)
        ∧ (32 ≤ d → t.reg (fKey p (d - 32)) = v ∧ ∀ k, k ≠ fKey p (d - 32) → t.reg k = s.reg k)
        ∧ t = { s with regs := t.regs, pairs := t.pairs })

/-- R223, R224, R256, R286: an aligned store that the protection allows answers a next state: the bytes at the place of its address
are the low bytes of the register, every byte outside them is as before, and so is every register but pc and the slot count.
R230: an atomic instruction on an aligned SRAM word that the pair may store to and the calendar does not own answers a next
state: the word holds what its row makes of the old word (ACAS leaves it where the comparison fails), the old word is the
outstanding load of rd, and every byte outside the word is as before. -/
def Obligations.StoreResults : Prop :=
  (
    ∀ (i : Instr) (s : State) (o : StoreOp) (key : Nat), s.storeOp i = some o → o.ecc = .clean →
      (o.pOnly = true → isPair o.a = true) → o.addr % o.n = 0 → s.allows o.a o.addr .store → s.storeKey o.a o.addr o.n = some key →
      s.canIssue o.a o.g o.f 1 (s.accessBeats o.a o.addr o.n .store) →
      ∃ t, Sys2Proof.Machine.exec i s = .next t
        ∧ t.pcOf o.a = s.pcOf o.a + 4
        ∧ t.rdBytes key o.n = toBytes o.n o.val.toNat
        ∧ (∀ x, (x < key ∨ key + o.n ≤ x) → t.rd8 x = s.rd8 x)
        ∧ (∀ k, k ∉ ownKeys o.a → t.reg k = s.reg k)
        ∧ t = { s with regs := t.regs, mem := t.mem, meters := t.meters, pairs := t.pairs, threads := t.threads })
  ∧ (
    ∀ (i : Instr) (s : State) (o : AtomOp), s.atomOp i = some o → o.ecc = .clean → (s.pg o.t o.rs1.toNat).toNat % 4 = 0 →
      s.protOk o.t (s.pg o.t o.rs1.toNat).toNat .store = true → regionOf (s.pg o.t o.rs1.toNat).toNat = .mem .sram →
      s.calOwns (s.pg o.t o.rs1.toNat).toNat 4 = false → (s.pair o.t).loads.length < 4 →
      s.canIssue (.pair o.t o.e) [o.rd, o.rs1, o.rs2] [] 1 1 →
      ∃ t, Sys2Proof.Machine.exec i s = .next t
        ∧ t.rd32 (s.pg o.t o.rs1.toNat).toNat
            = (o.new (s.rd32 (s.pg o.t o.rs1.toNat).toNat)).getD (s.rd32 (s.pg o.t o.rs1.toNat).toNat)
        ∧ (t.pair o.t).loads = (s.pair o.t).loads ++ [(o.rd.toNat, s.rd32 (s.pg o.t o.rs1.toNat).toNat)]
        ∧ t.ppc o.t = s.ppc o.t + 4
        ∧ (∀ x, (x < (s.pg o.t o.rs1.toNat).toNat ∨ (s.pg o.t o.rs1.toNat).toNat + 4 ≤ x) → t.rd8 x = s.rd8 x)
        ∧ (∀ k, k ≠ pcKey o.t → t.reg k = s.reg k))

/-- R234, R249, R329, R330: the system instructions of a pair and its interrupt entry answer next states with their effects: FENCE
completes every load, ECALL and a BRK that no debugger takes make the entry sequence, ERET restores the top frame, WFI suspends
the pair unless an interrupt can be claimed and WFI_WAKE ends that, INTERRUPT_ENTRY enters the handler at offset 0x40 with RUNP
at the priority taken.
R235, R236: CSRR and CSRW of a register that the level may use: CSRR returns the register, a read of CYCLEL or INSTRL the low
word of its counter with the high word latched beside it; CSRW writes the writable bits alone; at level U a register of level S
raises PRIV, and a write to a read-only register raises ILLEGAL, both with the instruction word in EVAL. -/
def Obligations.SystemInstructions : Prop :=
  (
    (∀ (p : Fin 4) (s : State), s.canIssue (.pair p .clean) [] [] 1 0 →
      ∃ t, Sys2Proof.Machine.exec (.fence (.pair p .clean)) s = .next t
        ∧ (t.pair p).loads = [] ∧ t.ppc p = s.ppc p + 4 ∧ t.mem = s.mem
        ∧ ∀ k, k ≠ pcKey p → t.reg k = ((s.pair p).loads.foldl (fun u d => u.putLoad p d) s).reg k)
    ∧ (∀ (p : Fin 4) (s : State), s.canIssue (.pair p .clean) [] [] 1 0 → s.scratchReady p → s.frames p < 64 →
      (∃ t, Sys2Proof.Machine.exec (.ecall (.pair p .clean)) s = .next t
        ∧ s.entered t p (s.ppc p) 8 (if s.atS p then 1 else 0) 0)
      ∧ (s.brkHaltsPair p = false → ∃ t, Sys2Proof.Machine.exec (.brk (.pair p .clean)) s = .next t
        ∧ s.entered t p (s.ppc p) 9 0 0))
    ∧ (∀ (p : Fin 4) (s : State), s.canIssue (.pair p .clean) [] [] 1 0 → s.scratchReady p → s.atS p = true → 0 < s.frames p →
      (bitOf (s.topFrame p 1) 0 = false ∨ s.topPrio p ≤ (s.topFrame p 4).toNat % 16) →
      ∃ t, Sys2Proof.Machine.exec (.eret (.pair p .clean)) s = .next t
        ∧ t.ppc p = s.csr p csEPC ∧ t.csr p csEPC = s.topFrame p 0 ∧ t.csr p csSTATUS = s.topFrame p 1 &&& 3
        ∧ t.csr p csECAUSE = s.topFrame p 2 ∧ t.csr p csEVAL = s.topFrame p 3 ∧ t.runp p = (s.topFrame p 4).toNat % 16
        ∧ t.pg p 1 = s.topFrame p 5 ∧ t.pg p 2 = s.topFrame p 6 ∧ t.pg p 3 = s.topFrame p 7
        ∧ t.frames p = s.frames p - 1 ∧ t.mem = s.mem)
    ∧ (∀ (p : Fin 4) (s : State), s.canIssue (.pair p .clean) [] [] 1 0 → s.atS p = true →
      ∃ t, Sys2Proof.Machine.exec (.wfi (.pair p .clean)) s = .next t
        ∧ (t.pair p).wfi = decide (s.claimable p = 0) ∧ t.ppc p = s.ppc p + 4 ∧ t.mem = s.mem
        ∧ ∀ k, k ≠ pcKey p → t.reg k = s.reg k)
    ∧ (∀ (p : Fin 4) (s : State), s.claimable p ≠ 0 →
      ∃ t, Sys2Proof.Machine.exec (.wfiWake p) s = .next t ∧ t = { s with pairs := t.pairs } ∧ t.pair p = { s.pair p with wfi := false })
    ∧ (∀ (p : Fin 4) (s : State), s.pairActive p = true → s.pairHalted p = false → s.pairIE p = true → s.runp p < s.topPrio p →
      s.scratchReady p → s.frames p < 64 →
      ∃ t, Sys2Proof.Machine.exec (.interruptEntry p) s = .next t
        ∧ s.entered t p (s.ppc p) 0 0 0x40 ∧ t.runp p = s.topPrio p))
  ∧ (
    (∀ (p : Fin 4) (s : State) (rd : BitVec 5) (num : BitVec 16) (c : Nat), s.canIssue (.pair p .clean) [rd] [] 1 0 →
      csrPlace num.toNat = some c → (s.atS p = true ∨ c = csFCSR ∨ csCYCLEL ≤ c) →
      ∃ t, Sys2Proof.Machine.exec (.csrr (.pair p .clean) rd num) s = .next t
        ∧ t.ppc p = s.ppc p + 4 ∧ t.mem = s.mem
        ∧ t.pg p rd.toNat = (if rd = 0 then 0 else if c = csCYCLEL then BitVec.ofNat 32 s.sys.clocks
            else if c = csINSTRL then BitVec.ofNat 32 (s.pair p).instrs else if c = csCOREID then BitVec.ofNat 32 p.val
            else if c = csISAVER then 0x00010000 else s.csr p c)
        ∧ (c = csCYCLEL → t.csr p csCYCLEH = BitVec.ofNat 32 (s.sys.clocks / 2 ^ 32))
        ∧ (c = csINSTRL → t.csr p csINSTRH = BitVec.ofNat 32 ((s.pair p).instrs / 2 ^ 32)))
    ∧ (∀ (p : Fin 4) (s : State) (x : BitVec 5) (num : BitVec 16) (c : Nat), s.canIssue (.pair p .clean) [x] [] 1 0 →
      csrPlace num.toNat = some c → csrWritable c = true → (c = csEPC → (s.pg p x.toNat).toNat % 4 = 0) →
      (s.atS p = true ∨ c = csFCSR) →
      ∃ t, Sys2Proof.Machine.exec (.csrw (.pair p .clean) x num) s = .next t
        ∧ t.ppc p = s.ppc p + 4 ∧ t.mem = s.mem
        ∧ (∀ k, k ≠ pcKey p → k ≠ csrKey p c → t.reg k = s.reg k)
        ∧ (c = csSTATUS → bitOf (t.csr p c) 0 = bitOf (s.pg p x.toNat) 0 ∧ ∀ b, b ≠ 0 → bitOf (t.csr p c) b = bitOf (s.csr p c) b)
        ∧ (c = csVBASE → t.csr p c = s.pg p x.toNat &&& 0xFFFFFF00)
        ∧ (c = csFCSR → t.csr p c = s.pg p x.toNat &&& 0x1F3)
        ∧ (c = csEPC ∨ c = csSCRATCH → t.csr p c = s.pg p x.toNat))
    ∧ (∀ (p : Fin 4) (s : State) (x : BitVec 5) (num : BitVec 16) (c : Nat), s.canIssue (.pair p .clean) [x] [] 1 0 →
      csrPlace num.toNat = some c → s.scratchReady p → s.frames p < 64 →
      (csrWritable c = false → ∃ t, Sys2Proof.Machine.exec (.csrw (.pair p .clean) x num) s = .next t
        ∧ s.entered t p (s.ppc p) 1 (encI 0x1C 0 x num) 0)
      ∧ (csrUser c = false → s.atS p = false → ∃ t, Sys2Proof.Machine.exec (.csrr (.pair p .clean) x num) s = .next t
        ∧ s.entered t p (s.ppc p) 7 (encI 0x1B x 0 num) 0)))

/-- R215, R237, R238: where its pair can issue it, each floating-point instruction answers a next state: its destination holds the
result of its row, the exception flags it raises join FCSR.FLAGS (bits [8:4]), pc moves on by 4, and nothing else changes. -/
def Obligations.FloatResults : Prop :=
  ∀ (i : Instr) (s : State) (o : FpOp), s.fpOp i = some o → s.canIssue (.pair o.t o.e) o.g o.f 1 0 →
    ∃ t, Sys2Proof.Machine.exec i s = .next t
      ∧ (∀ k, o.dst = some k → t.reg k = o.res.1)
      ∧ t.csr o.t csFCSR = s.csr o.t csFCSR ||| BitVec.ofNat 32 (o.res.2 % 32 * 16)
      ∧ t.ppc o.t = s.ppc o.t + 4
      ∧ s.onlyWrites t (.pair o.t o.e) 1 0 (csrKey o.t csFCSR :: o.dst.toList)

/-- R217, R247, R249, R251: a word that is illegal for its agent raises ILLEGAL: on a pair the entry sequence with ECAUSE 1 and the
word in EVAL; on a thread, which stays at its instruction, the state FAULTED with the code in AEN_TFCn, the address in AEN_TFADn
and a U-class message of kind 0x10.
R224, R228, R247, R249: a misaligned load raises LOADALIGN and a misaligned store STOREALIGN on a pair, with the address in EVAL;
an aligned one that no protection region allows raises LOADFAULT or STOREFAULT. No byte of memory but the stacked frame changes.
R286: the protection of a pair: where regions cover an address the one of highest number decides, by its bits; at level S a load
is always allowed there; where none covers it, level S alone may use it. -/
def Obligations.InstructionTraps : Prop :=
  (
    (∀ (p : Fin 4) (s : State) (w : Word), wordLegalP w = false → s.canIssue (.pair p .clean) [] [] 1 0 → s.scratchReady p →
      s.frames p < 64 →
      ∃ t, Sys2Proof.Machine.exec (.illegal (.pair p .clean) w) s = .next t ∧ s.entered t p (s.ppc p) 1 w 0)
    ∧ (∀ (n : Fin 64) (s : State) (w : Word), wordLegalA w = false → s.canIssue (.thread n .clean) [] [] 1 0 →
      ∃ t, Sys2Proof.Machine.exec (.illegal (.thread n .clean) w) s = .next t
        ∧ t.thState n = 4 ∧ t.reg (AEN_TFC n) = 1 ∧ t.reg (AEN_TFAD n) = BitVec.ofNat 32 (s.thPc n) ∧ t.reg (AEN_TFVAL n) = w
        ∧ t.thr n = s.thr n ∧ t.mem = s.mem
        ∧ (∃ m, ⟨.angle, .guard, .fault m⟩ ∈ t.inflight ∧ m.toNat / 2 ^ 58 = 8 ∧ m.toNat / 2 ^ 46 % 256 = 0x10
            ∧ m.toNat / 2 ^ 44 % 4 = 2)))
  ∧ (
    (∀ (i : Instr) (s : State) (o : LoadOp) (p : Fin 4), s.loadOp i = some o → o.a = .pair p .clean → s.scratchReady p → s.frames p < 64 →
      s.canIssue o.a o.g o.f 1 (s.accessBeats o.a o.addr o.n .load) →
      (o.addr % o.n ≠ 0 → ∃ t, Sys2Proof.Machine.exec i s = .next t ∧ s.entered t p (s.ppc p) 3 (BitVec.ofNat 32 o.addr) 0)
      ∧ (o.addr % o.n = 0 → s.protOk p o.addr .load = false →
          ∃ t, Sys2Proof.Machine.exec i s = .next t ∧ s.entered t p (s.ppc p) 5 (BitVec.ofNat 32 o.addr) 0))
    ∧ (∀ (i : Instr) (s : State) (o : StoreOp) (p : Fin 4), s.storeOp i = some o → o.a = .pair p .clean → s.scratchReady p →
      s.frames p < 64 → s.canIssue o.a o.g o.f 1 (s.accessBeats o.a o.addr o.n .store) →
      (o.addr % o.n ≠ 0 → ∃ t, Sys2Proof.Machine.exec i s = .next t ∧ s.entered t p (s.ppc p) 4 (BitVec.ofNat 32 o.addr) 0)
      ∧ (o.addr % o.n = 0 → s.protOk p o.addr .store = false →
          ∃ t, Sys2Proof.Machine.exec i s = .next t ∧ s.entered t p (s.ppc p) 6 (BitVec.ofNat 32 o.addr) 0)))
  ∧ (
    ∀ (s : State) (p : Fin 4) (x : Nat),
      ((∀ r, r < 16 → s.covers p r x = false) → ∀ u, s.protOk p x u = s.atS p)
      ∧ (∀ r, r < 16 → s.covers p r x = true → (∀ q, r < q → q < 16 → s.covers p q x = false) →
          (s.atS p = true → s.protOk p x .load = true ∧ s.protOk p x .store = s.bit (QUE_RB p r) QUE_RB_SW
            ∧ s.protOk p x .fetch = s.bit (QUE_RB p r) QUE_RB_SX)
          ∧ (s.atS p = false → s.protOk p x .load = s.bit (QUE_RB p r) QUE_RB_UR ∧ s.protOk p x .store = s.bit (QUE_RB p r) QUE_RB_UW
            ∧ s.protOk p x .fetch = s.bit (QUE_RB p r) QUE_RB_UX)))

/-- R216, R218, R220 to R241: encoding and decoding of Gental agree: the word of an instruction decodes to it, and an instruction
decoded from a word has that word. -/
def Obligations.EncodeDecode : Prop :=
  (∀ (i : Instr) (w : Word), gentalWord i = some w → ∃ a e, gentalInstr a e w = some i)
  ∧ (∀ (a : Agent) (e : Ecc) (w : Word) (i : Instr), gentalInstr a e w = some i → gentalWord i = some w)

/-- R241: where a thread can issue them, SYNCQ, ANGQ and TRIM answer next states in which rd holds OBS_STATE, the word that the field
names (angle word, slot counter, rate, upper slot bits) or the trim in force, pc has moved on by 4 and nothing else has changed;
a trim index above 511 is a LOADFAULT.
R303, R305, R315: a request puts the trim at the value that its envelope, its slew and its base allow, and names its writer; an envelope
write, taken only before LOCK, re-evaluates the value in force and makes it the base; once LOCK is 1 it is refused with a C-class message
that carries the address. Writing 1 locks, writing 0 has no effect. -/
def Obligations.AngleQueriesAndTrims : Prop :=
  (
    ∀ (n : Fin 64) (s : State) (rd : BitVec 5),
      (s.canIssue (.thread n .clean) [rd] [] 1 0 →
        (∃ t, Sys2Proof.Machine.exec (.syncq (.thread n .clean) rd) s = .next t
          ∧ t.tg n rd.toNat = (if rd = 0 then 0 else OBS_STATE_GRADE.set (s.reg OBS_STATE) s.grade)
          ∧ (t.thr n).pc = (s.thr n).pc + 4
          ∧ s.onlyWrites t (.thread n .clean) 1 0 (if rd = 0 then [] else [AEN_TG n rd.toNat]))
        ∧ (∀ what : Fin 4, ∃ t, Sys2Proof.Machine.exec (.angq (.thread n .clean) rd what) s = .next t
          ∧ t.tg n rd.toNat = (if rd = 0 then 0 else if what = 0 then s.obsAng else if what = 1 then s.slotW
              else if what = 2 then s.reg OBS_RATE else BitVec.ofNat 32 (s.slot.toNat / 2 ^ 32))
          ∧ (t.thr n).pc = (s.thr n).pc + 4
          ∧ s.onlyWrites t (.thread n .clean) 1 0 (if rd = 0 then [] else [AEN_TG n rd.toNat])))
      ∧ ∀ (x : BitVec 5) (m : BitVec 16), s.canIssue (.thread n .clean) [rd, x] [] 1 0 →
        ((s.tg n x.toNat + m.setWidth 32).toNat ≤ 511 →
          ∃ t, Sys2Proof.Machine.exec (.trimRead (.thread n .clean) rd x m) s = .next t
          ∧ t.tg n rd.toNat = (if rd = 0 then 0 else s.reg (AEN_TRM (s.tg n x.toNat + m.setWidth 32).toNat))
          ∧ (t.thr n).pc = (s.thr n).pc + 4
          ∧ s.onlyWrites t (.thread n .clean) 1 0 (if rd = 0 then [] else [AEN_TG n rd.toNat]))
        ∧ (511 < (s.tg n x.toNat + m.setWidth 32).toNat →
          ∃ t, Sys2Proof.Machine.exec (.trimRead (.thread n .clean) rd x m) s = .next t
          ∧ s.trapped t n 5 (s.tg n x.toNat + m.setWidth 32)))
  ∧ (
    (∀ (p : Fin 4) (i : Fin 512) (w : Word) (s : State), ∃ t, Sys2Proof.Machine.exec (.trimRequestWrite p i w) s = .next t
      ∧ t.reg (AEN_TRQ i) = w ∧ t.fld (AEN_TRS i) AEN_TRS_SRC = 0 ∧ t.fld (AEN_TRS i) AEN_TRS_TGT = p
      ∧ t.inForce i (s.trimBase i).toInt ∧ s.onlyRegs t [AEN_TRQ i, AEN_TRM i, AEN_TRS i])
    ∧ (∀ (i : Fin 512) (j : Fin 3) (w : Word) (s : State),
      let k := if j = 0 then AEN_ELO i else if j = 1 then AEN_EHI i else AEN_ESL i
      (s.fld AEN_ELOCK AEN_ELOCK_LOCK = 0 → ∃ t, Sys2Proof.Machine.exec (.envelopeWrite i j w) s = .next t
        ∧ (j ≠ 2 → t.reg k = w) ∧ (j = 2 → t.fld k AEN_ESL_SLEW = AEN_ESL_SLEW.get w) ∧ t.inForce i (s.trimBase i).toInt
        ∧ t.trimBase i = t.reg (AEN_TRM i) ∧ (∀ m, m ≠ i.val → t.trimBase m = s.trimBase m)
        ∧ s.onlyRegs { t with trimB := s.trimB } [k, AEN_TRM i, AEN_TRS i])
      ∧ (s.fld AEN_ELOCK AEN_ELOCK_LOCK = 1 → ∃ t, Sys2Proof.Machine.exec (.envelopeWrite i j w) s = .next t
        ∧ s.onlySends t [] [faultItem blkAEN 0 0x07 clsC k]))
    ∧ (∀ (w : Word) (s : State), (AEN_ELOCK_LOCK.get w = 1 → ∃ t, Sys2Proof.Machine.exec (.elockWrite w) s = .next t
        ∧ t.fld AEN_ELOCK AEN_ELOCK_LOCK = 1 ∧ s.onlyRegs t [AEN_ELOCK])
      ∧ (AEN_ELOCK_LOCK.get w = 0 → Sys2Proof.Machine.exec (.elockWrite w) s = .next s)))

/-- R241, R242, R258, R265, R275: a wait that issues with no retarget pending completes at once where its condition holds (rd holds
the angle word, the slot counter or the pending bits, pc is the next instruction, the thread stays READY; the pending bits are as
before but for those a WAIT.EVT has put into rd) and else suspends the thread with its target recorded; with a retarget pending it
has no effect and the thread goes to AEN_TNPCn. WAIT.EVT of no event reads the pending bits.
R241, R265, R271, R272: a suspended thread whose condition holds has its word in the register its wait named; it is READY
where its account has an issue slot and enters STALL where it has none. One whose condition does not hold stays as it is. -/
def Obligations.ThreadWaits : Prop :=
  (
    (∀ (i : Instr) (s : State) (o : WaitOp), s.waitOp i = some o → s.canIssue (.thread o.n .clean) o.g [] 1 0 →
      (s.bit (AEN_TSTAT o.n) 3 = true → ∃ t, Sys2Proof.Machine.exec i s = .next t
        ∧ (t.thr o.n).pc = s.reg (AEN_TNPC o.n) ∧ t.bit (AEN_TSTAT o.n) 3 = false ∧ t.thState o.n = 1 ∧ t.pend o.n = s.pend o.n
        ∧ ∀ k, k ≠ AEN_TSTAT o.n → k ∉ ownKeys (.thread o.n .clean) → t.reg k = s.reg k)
      ∧ (s.bit (AEN_TSTAT o.n) 3 = false → (o.now = true ∨ WaitOp.met s o.n o.kind o.target o.mask) →
        ∃ t, Sys2Proof.Machine.exec i s = .next t
        ∧ (t.thr o.n).pc = (s.thr o.n).pc + 4 ∧ t.thState o.n = 1
        ∧ t.tg o.n o.rd.toNat = (if o.rd = 0 then 0 else WaitOp.word s o.n o.kind o.mask)
        ∧ (o.kind ≠ 3 → t.pend o.n = s.pend o.n)
        ∧ (o.kind = 3 → ∀ b, b < 16 → ¬(4 ≤ b ∧ b < 8) →
            (t.pend o.n).testBit b = ((s.pend o.n).testBit b && !(decide (o.rd ≠ 0) && o.mask.testBit b)))
        ∧ t.mem = s.mem ∧ t.inflight = s.inflight
        ∧ ∀ k, k ≠ AEN_TSTAT o.n → k ≠ AEN_TG o.n o.rd.toNat → k ∉ ownKeys (.thread o.n .clean) → t.reg k = s.reg k)
      ∧ (s.bit (AEN_TSTAT o.n) 3 = false → o.now = false → ¬WaitOp.met s o.n o.kind o.target o.mask →
        ∃ t, Sys2Proof.Machine.exec i s = .next t
        ∧ (t.thr o.n).pc = (s.thr o.n).pc + 4 ∧ t.thState o.n = 2 ∧ t.fld (AEN_TSTAT o.n) AEN_TSTAT_WKIND = o.kind
        ∧ t.reg (AEN_TWAKE o.n) = o.target ∧ (t.thr o.n).waitMask = o.mask ∧ (t.thr o.n).waitRd = o.rd
        ∧ t.pend o.n = s.pend o.n ∧ t.mem = s.mem ∧ t.inflight = s.inflight
        ∧ ∀ k, k ≠ AEN_TSTAT o.n → k ≠ AEN_TWAKE o.n → k ≠ AEN_STAT → k ∉ ownKeys (.thread o.n .clean) → t.reg k = s.reg k))
    ∧ (∀ (n : Fin 64) (s : State) (rd : BitVec 5), s.canIssue (.thread n .clean) [rd] [] 1 0 →
      ∃ t, Sys2Proof.Machine.exec (.waitEvt (.thread n .clean) rd 0) s = .next t
        ∧ t.tg n rd.toNat = (if rd = 0 then 0 else BitVec.ofNat 32 (s.pend n)) ∧ (t.thr n).pc = (s.thr n).pc + 4
        ∧ s.onlyWrites t (.thread n .clean) 1 0 (if rd = 0 then [] else [AEN_TG n rd.toNat])))
  ∧ (
    ∀ (n : Fin 64) (s : State), s.thState n = 2 →
      (WaitOp.met s n (s.fld (AEN_TSTAT n) AEN_TSTAT_WKIND) (s.reg (AEN_TWAKE n)) (s.thr n).waitMask →
        ∃ t, Sys2Proof.Machine.exec (.waitWake n) s = .next t
        ∧ t.thState n = (if s.budHas (s.thAcct n) resISSUE 1 then 1 else 3)
        ∧ t.tg n (s.thr n).waitRd.toNat = (if (s.thr n).waitRd = 0 then 0
            else WaitOp.word s n (s.fld (AEN_TSTAT n) AEN_TSTAT_WKIND) (s.thr n).waitMask)
        ∧ (t.thr n).pc = (s.thr n).pc ∧ t.mem = s.mem)
      ∧ (¬WaitOp.met s n (s.fld (AEN_TSTAT n) AEN_TSTAT_WKIND) (s.reg (AEN_TWAKE n)) (s.thr n).waitMask →
        Sys2Proof.Machine.exec (.waitWake n) s = .next s))

/-- R174 to R177, R241, R245: a post from a template that the calendar takes answers a next state in which the action stands in the
calendar and rd holds its handle; one that the calendar or the instruction itself refuses leaves the calendar as it was, and rd
holds bit 31 and the status. Either way pc moves on by 4.
R198, R199, R241: where a thread can issue it, CANCL answers a next state in which pc has moved on by 4 and rd holds the status of the
abort: CANCELLED for an action not yet started, which leaves the calendar; ABORTED for an active pulse that ends early; ABORT_LATE,
with its event, for one that has completed; the final status of any other retired entry of that generation; STALE for a handle that names
none. -/
def Obligations.PostsAndAborts : Prop :=
  (
    ∀ (i : Instr) (s : State) (o : PostOp), s.postOp i = some o → s.canIssue (.thread o.n .clean) o.g [] 2 0 →
      (o.bad = false → s.refusal o.action = none → ∃ t r, Sys2Proof.Machine.exec i s = .next t
        ∧ s.posted t o.w0 o.w1 o.w2 o.w3 o.n r ∧ t.tg o.n o.rd.toNat = (if o.rd = 0 then 0 else r)
        ∧ (t.thr o.n).pc = (s.thr o.n).pc + 4 ∧ t.thState o.n = 1)
      ∧ (∀ st, (o.bad = true ∧ st = 16) ∨ (o.bad = false ∧ s.refusal o.action = some st) →
        ∃ t r, Sys2Proof.Machine.exec i s = .next t
        ∧ s.unposted t st r ∧ t.tg o.n o.rd.toNat = (if o.rd = 0 then 0 else r)
        ∧ (t.thr o.n).pc = (s.thr o.n).pc + 4 ∧ t.thState o.n = 1))
  ∧ (
    ∀ (n : Fin 64) (s : State) (rd x : BitVec 5) (st : Nat), s.canIssue (.thread n .clean) [rd, x] [] 1 0 →
      s.abortStatus (s.tg n x.toNat) st →
      ∃ t, Sys2Proof.Machine.exec (.cancl (.thread n .clean) rd x) s = .next t
        ∧ t.tg n rd.toNat = (if rd = 0 then 0 else BitVec.ofNat 32 st) ∧ (t.thr n).pc = (s.thr n).pc + 4
        ∧ s.aborted t (s.tg n x.toNat) st)

/-- R241, R260, R268: where a thread can issue them, QPUT puts 16 bytes of its data memory into a queue and QGET takes the oldest
entry out of one into it, each with its result in rd (QGET of an empty queue: 1, and nothing else); SIGT sets a SIG bit of the
thread its register names, and answers 1 for a number above 63; TEND ends the thread, which keeps its registers and its pending
bits. A data address that is misaligned or outside the data memory is the exception of R225. -/
def Obligations.ThreadQueuesAndSignals : Prop :=
  (∀ (n : Fin 64) (s : State) (rd x q : BitVec 5), s.canIssue (.thread n .clean) [rd, x] [] 1 1 →
    (s.tg n x.toNat).toNat % 16 = 0 → (s.tg n x.toNat).toNat < 0x10000 → s.fld (QUE_QCFG q.toNat) QUE_QCFG_LOG2 ≤ 16 →
    (∃ t r, Sys2Proof.Machine.exec (.qput (.thread n .clean) rd x q .clean) s = .next t
      ∧ s.queued t q.toNat (s.rdBytes (threadData n (s.tg n x.toNat).toNat) 16) r
      ∧ t.tg n rd.toNat = (if rd = 0 then 0 else BitVec.ofNat 32 r) ∧ (t.thr n).pc = (s.thr n).pc + 4)
    ∧ (s.thMayWrite n (s.tg n x.toNat).toNat = true → s.qCount q.toNat = 0 →
      ∃ t, Sys2Proof.Machine.exec (.qget (.thread n .clean) rd x q) s = .next t
      ∧ t.tg n rd.toNat = (if rd = 0 then 0 else 1) ∧ (t.thr n).pc = (s.thr n).pc + 4
      ∧ s.onlyWrites t (.thread n .clean) 1 1 (if rd = 0 then [] else [AEN_TG n rd.toNat]))
    ∧ (s.thMayWrite n (s.tg n x.toNat).toNat = true → 0 < s.qCount q.toNat →
      ∃ t, Sys2Proof.Machine.exec (.qget (.thread n .clean) rd x q) s = .next t
      ∧ t.tg n rd.toNat = 0 ∧ (t.thr n).pc = (s.thr n).pc + 4
      ∧ t.rdBytes (threadData n (s.tg n x.toNat).toNat) 16 = s.qOldest q.toNat
      ∧ t.qCount q.toNat = s.qCount q.toNat - 1
      ∧ t.fld (QUE_QTAIL q.toNat) QUE_QTAIL_INDEX = (s.fld (QUE_QTAIL q.toNat) QUE_QTAIL_INDEX + 1) % s.qDepth q.toNat
      ∧ (∀ k, (k < threadData n (s.tg n x.toNat).toNat ∨ threadData n (s.tg n x.toNat).toNat + 16 ≤ k) → t.rd8 k = s.rd8 k)
      ∧ ∀ k, k ∉ ownKeys (.thread n .clean) → k ≠ AEN_TG n rd.toNat → k ≠ QUE_QTAIL q.toNat → k ≠ QUE_QCNT q.toNat → t.reg k = s.reg k))
  ∧ (∀ (n : Fin 64) (s : State) (rd x q : BitVec 5), s.canIssue (.thread n .clean) [rd, x] [] 1 1 →
    ((s.tg n x.toNat).toNat % 16 ≠ 0 →
      (∃ t, Sys2Proof.Machine.exec (.qput (.thread n .clean) rd x q .clean) s = .next t ∧ s.trapped t n 3 (s.tg n x.toNat))
      ∧ (∃ t, Sys2Proof.Machine.exec (.qget (.thread n .clean) rd x q) s = .next t ∧ s.trapped t n 4 (s.tg n x.toNat)))
    ∧ ((s.tg n x.toNat).toNat % 16 = 0 → 0x10000 ≤ (s.tg n x.toNat).toNat →
      (∃ t, Sys2Proof.Machine.exec (.qput (.thread n .clean) rd x q .clean) s = .next t ∧ s.trapped t n 5 (s.tg n x.toNat))
      ∧ (∃ t, Sys2Proof.Machine.exec (.qget (.thread n .clean) rd x q) s = .next t ∧ s.trapped t n 6 (s.tg n x.toNat))))
  ∧ (∀ (n : Fin 64) (s : State) (rd x : BitVec 5) (g : BitVec 2), s.canIssue (.thread n .clean) [rd, x] [] 1 0 →
    ∃ t, Sys2Proof.Machine.exec (.sigt (.thread n .clean) rd x g) s = .next t
      ∧ t.tg n rd.toNat = (if rd = 0 then 0 else if (s.tg n x.toNat).toNat ≤ 63 then 0 else 1) ∧ (t.thr n).pc = (s.thr n).pc + 4
      ∧ ((s.tg n x.toNat).toNat ≤ 63 → (t.pend (s.tg n x.toNat).toNat).testBit (12 + g.toNat) = true)
      ∧ t.mem = s.mem ∧ t.inflight = s.inflight
      ∧ ∀ k, k ∉ ownKeys (.thread n .clean) → k ≠ AEN_TG n rd.toNat →
          (63 < (s.tg n x.toNat).toNat ∨ k ≠ AEN_TSTAT (s.tg n x.toNat).toNat) → t.reg k = s.reg k)
  ∧ (∀ (n : Fin 64) (s : State), s.canIssue (.thread n .clean) [] [] 1 0 →
    ∃ t, Sys2Proof.Machine.exec (.tend (.thread n .clean)) s = .next t
      ∧ t.thState n = 0 ∧ t.bit (AEN_TSTAT n) 3 = false ∧ t.pend n = s.pend n ∧ (∀ r, r < 16 → t.tg n r = s.tg n r)
      ∧ t.mem = s.mem ∧ t.inflight = s.inflight
      ∧ ∀ k, k ∉ ownKeys (.thread n .clean) → k ≠ AEN_TSTAT n → k ≠ AEN_STAT → k ≠ DBG_STAT → t.reg k = s.reg k)

/-- R258, R262, R268, R275, R278: START makes an idle thread of an enabled engine READY at the address of AEN_TPCn, its pending bits
cleared but for bound queues that hold an entry, its counts 0; it is refused of any other. KILL ends a thread, with registers and
pending bits kept. RETARGET moves a waiting thread at once and marks a READY or STALL one; it is refused of any other. SIGNAL sets
the SIG bits named, in every state; of no bit it is refused. A write of AEN_CTRL that clears an engine's bit ends all its threads.
R255, R274, R278: a policy write to an engine's code memory stores its word in a page that AEN_CWPL and AEN_CWPH leave open, and
in a protected page it stores nothing: AEN_CWRA holds the address, the event is raised and a C-class message leaves. AEN_CLR.ECC
clears the count of corrected errors. -/
def Obligations.ThreadCommands : Prop :=
  (
    (∀ (n : Fin 64) (s : State),
      (s.thState n = 0 → s.bit AEN_CTRL (n / 32) = true → ∃ t, Sys2Proof.Machine.exec (.threadStart n) s = .next t
        ∧ t.thState n = 1 ∧ (t.thr n).pc = s.reg (AEN_TPC n) ∧ t.bit (AEN_TSTAT n) 3 = false
        ∧ (∀ b, b < 16 → (t.pend n).testBit b = (decide (4 ≤ b ∧ b < 8) && s.qneDue n (b - 4)))
        ∧ t.reg (AEN_TISS n) = 0 ∧ t.reg (AEN_TBST n) = 0
        ∧ t = { s with regs := t.regs, threads := t.threads }
        ∧ ∀ k, k ≠ AEN_TSTAT n → k ≠ AEN_STAT → k ≠ AEN_TISS n → k ≠ AEN_TBST n → t.reg k = s.reg k)
      ∧ ((s.thState n ≠ 0 ∨ s.bit AEN_CTRL (n / 32) = false) → ∃ t, Sys2Proof.Machine.exec (.threadStart n) s = .next t
        ∧ s.writeRefused t (AEN_TCMD n)))
    ∧ (∀ (n : Fin 64) (s : State), ∃ t, Sys2Proof.Machine.exec (.threadKill n) s = .next t
        ∧ t.thState n = 0 ∧ t.pend n = s.pend n ∧ t.mem = s.mem ∧ t.inflight = s.inflight ∧ t.threads = s.threads
        ∧ (s.thState n ≠ 0 → t.bit (AEN_TSTAT n) 3 = false)
        ∧ ∀ k, k ≠ AEN_TSTAT n → k ≠ AEN_STAT → k ≠ DBG_STAT → t.reg k = s.reg k)
    ∧ (∀ (n : Fin 64) (s : State),
      (s.thState n = 2 → ∃ t, Sys2Proof.Machine.exec (.threadRetarget n) s = .next t
        ∧ t.thState n = 1 ∧ (t.thr n).pc = s.reg (AEN_TNPC n) ∧ t.bit (AEN_TSTAT n) 3 = false ∧ t.pend n = s.pend n
        ∧ ∀ k, k ≠ AEN_TSTAT n → k ≠ AEN_STAT → t.reg k = s.reg k)
      ∧ (s.thState n = 1 ∨ s.thState n = 3 → ∃ t, Sys2Proof.Machine.exec (.threadRetarget n) s = .next t
        ∧ t.bit (AEN_TSTAT n) 3 = true ∧ t.thState n = s.thState n ∧ t.pend n = s.pend n ∧ s.onlyRegs t [AEN_TSTAT n])
      ∧ (s.thState n = 0 ∨ 3 < s.thState n → ∃ t, Sys2Proof.Machine.exec (.threadRetarget n) s = .next t
        ∧ s.writeRefused t (AEN_TCMD n)))
    ∧ (∀ (n : Fin 64) (s : State) (g : BitVec 4),
      (g ≠ 0 → ∃ t, Sys2Proof.Machine.exec (.threadSignal n g) s = .next t
        ∧ (∀ b, b < 16 → (t.pend n).testBit b = ((s.pend n).testBit b || (decide (12 ≤ b) && g.getLsbD (b - 12))))
        ∧ t.thState n = s.thState n ∧ s.onlyRegs t [AEN_TSTAT n])
      ∧ (g = 0 → ∃ t, Sys2Proof.Machine.exec (.threadSignal n g) s = .next t ∧ s.writeRefused t (AEN_TCMD n)))
    ∧ (∀ (s : State) (w : Word), ∃ t, Sys2Proof.Machine.exec (.engineDisable w) s = .next t
        ∧ (∀ e, e < 2 → t.bit AEN_CTRL e = bitOf w e)
        ∧ (∀ n : Fin 64, s.bit AEN_CTRL (n / 32) = true → bitOf w (n / 32) = false → t.thState n = 0 ∧ t.pend n = s.pend n)
        ∧ (∀ n : Fin 64, (s.bit AEN_CTRL (n / 32) = false ∨ bitOf w (n / 32) = true) → t.reg (AEN_TSTAT n) = s.reg (AEN_TSTAT n))
        ∧ t.mem = s.mem ∧ t.inflight = s.inflight ∧ t.threads = s.threads))
  ∧ (
    (∀ (e : Fin 2) (x : BitVec 16) (w : Word) (s : State),
      (s.codeProtected e (4 * x.toNat) = false → ∃ t, Sys2Proof.Machine.exec (.codeWindowWrite e x w) s = .next t
        ∧ t.rd32 (0x30000000 + 0x100000 * e + 4 * x.toNat) = w
        ∧ (∀ k, (k < 0x30000000 + 0x100000 * e + 4 * x.toNat ∨ 0x30000000 + 0x100000 * e + 4 * x.toNat + 4 ≤ k) → t.rd8 k = s.rd8 k)
        ∧ t = { s with mem := t.mem })
      ∧ (s.codeProtected e (4 * x.toNat) = true → ∃ t, Sys2Proof.Machine.exec (.codeWindowWrite e x w) s = .next t
        ∧ t.reg AEN_CWRA = BitVec.ofNat 32 (0x30000000 + 0x100000 * e + 4 * x.toNat) ∧ t.bit AEN_EVT AEN_EVT_CWREF = true
        ∧ s.onlySends t [AEN_CWRA, AEN_EVT] [evtItem AEN_EVT AEN_EVT_CWREF,
            faultItem blkAEN e 0x07 clsC (0x30000000 + 0x100000 * e + 4 * x.toNat)]))
    ∧ (∀ s : State, ∃ t, Sys2Proof.Machine.exec .aenClrEcc s = .next t ∧ t.reg AEN_ECC = 0 ∧ s.onlyRegs t [AEN_ECC]))

/-- A step takes the command at the front of the queue: what it answers is what that command does to the state with the queue's
rest. -/
def Obligations.StepRunsCommand : Prop :=
  ∀ (c : Instr) (rest : List Instr) (s : State), s.pending = c :: rest →
    Sys2Proof.Machine.step s = Sys2Proof.Machine.exec c { s with pending := rest }

/-- The model's own choice (log 12): on an empty queue one slot of 2.5 ns passes. The clock steps on; while no reset is in progress and
the unit does not sleep the slot counter steps by one and the core clocks by two, and otherwise both stand (R70, R236, R623). -/
def Obligations.IdleSlot : Prop :=
  ∀ s : State, s.pending = [] → ∃ t, Sys2Proof.Machine.step s = .next t ∧ t.pending = [] ∧ t.now = s.now + 1
    ∧ (s.islandsRun = true → t.slot = s.slot + 1 ∧ t.sys.clocks = s.sys.clocks + 2 ∧ t.prevAng = s.angW)
    ∧ (s.islandsRun = false → t.slot = s.slot ∧ t.sys.clocks = s.sys.clocks ∧ t.threads = s.threads ∧ t.mem = s.mem)

/-- R11, R236, R258, R614: the state after power-on: every register holds its reset value, each pair's COREID its number, ISAVER
0x0001_0000 and STATUS PRIV = 1 with IE = 0, every thread is IDLE with g1 to g15 and its pending bits at 0, no command waits,
nothing is in flight, no action is held, every output channel is disabled and the unit is in power-on reset. -/
def Obligations.ResetValues : Prop :=
  (∀ k, State.reset.reg k = resetOf k) ∧ State.reset.canonical
  ∧ (∀ p : Fin 4, State.reset.csr p csCOREID = BitVec.ofNat 32 p ∧ State.reset.csr p csISAVER = 0x00010000
      ∧ State.reset.csr p csSTATUS = 2)
  ∧ (∀ n : Fin 64, State.reset.thState n = 0 ∧ State.reset.pend n = 0 ∧ ∀ r, 1 ≤ r → r ≤ 15 → State.reset.tg n r = 0)
  ∧ State.reset.pending = [] ∧ State.reset.inflight = [] ∧ State.reset.calq = [] ∧ State.reset.stage = []
  ∧ State.reset.reg OUT_ENI = 0 ∧ State.reset.reg OUT_ENG = 0 ∧ State.reset.reg OUT_ENA = 0 ∧ State.reset.sys.por = true

/-- The model's own form (log 13): the state after power-on has its registers and its memory in canonical form. -/
def Obligations.ResetIsCanonical : Prop :=
 State.reset.canonical ∧ State.reset.mem = [] ∧ State.reset.regs = []

/-- The model's tables keep their one canonical form (log 13): from every state whose registers and memory are in canonical form (keys strictly rising,
no entry equal to what an unlisted key reads as), whatever command waits at the front of its queue and in every idle slot, a step that answers a next
state answers one in canonical form. -/
def Obligations.StepsKeepCanonicalForm : Prop :=
  ∀ s t : State, s.canonical → Sys2Proof.Machine.step s = .next t → t.canonical

/-- R23 to R26: the oldest item of a crossing arrives and leaves it, items behind it and of other crossings keeping their order: a
hardware event then sets the HW bits of the threads that select it, and nothing else. An illegal dual-rail code and an incomplete
handshake leave the item with its source and send a U-class message of the consuming island; with nothing on the crossing nothing
happens.
R30 to R34: a keep-alive frame that arrives whole over a trained link renews the time of the last good frame at its end, and a
bad one does not. The high-voltage die declares the loss of the link after tLOSS (1,024 slots) without one, or with the loss of its
reference, and brings its outputs to the safe state; the logic die declares it likewise and reports it. Training brings the link up
with every injection channel and PWM pair disabled. -/
def Obligations.CrossingsAndLink : Prop :=
  (
    (∀ (src dst : Island) (s : State) (sel : Nat), s.nextItem src dst = some (.hwEvent sel) → src ≠ .drive → dst ≠ .drive →
      ∃ t, Sys2Proof.Machine.exec (.crossingDelivery src dst true) s = .next t
        ∧ t = { s with regs := t.regs, inflight := dropFirstItem src dst s.inflight }
        ∧ (∀ n : Fin 64, ∀ b, b < 16 → (t.pend n).testBit b = ((s.pend n).testBit b
            || (decide (8 ≤ b ∧ b < 12) && decide ((s.reg (AEN_TEVS n)).toNat / 2 ^ (8 * (b - 8)) % 256 = sel))))
        ∧ ∀ k, (∀ n : Fin 64, k ≠ AEN_TSTAT n) → t.reg k = s.reg k)
    ∧ (∀ (src dst : Island) (s : State) (b : Body), s.nextItem src dst = some b →
      (∃ t, Sys2Proof.Machine.exec (.crossingDelivery src dst false) s = .next t
        ∧ s.onlySends t [] [⟨dst, .guard, .fault (faultWord blkCROSS (islandCode dst) 0x09 clsU 0 (islandCode src))⟩])
      ∧ (∃ t, Sys2Proof.Machine.exec (.stuck src dst) s = .next t
        ∧ s.onlySends t [] [⟨dst, .guard, .fault (faultWord blkCROSS (islandCode dst) 0x08 clsU 0 (islandCode src))⟩]))
    ∧ (∀ (src dst : Island) (s : State) (good : Bool), firstItem src dst s.inflight = none →
      Sys2Proof.Machine.exec (.crossingDelivery src dst good) s = .next s ∧ Sys2Proof.Machine.exec (.stuck src dst) s = .next s))
  ∧ (
    (∀ (s : State) (hv good : Bool), ∃ t, Sys2Proof.Machine.exec (.keepalive hv good) s = .next t ∧ t = { s with sys := t.sys }
        ∧ t.sys.goodHv = (if s.d2dUp && good && hv then s.now else s.sys.goodHv)
        ∧ t.sys.goodLog = (if s.d2dUp && good && !hv then s.now else s.sys.goodLog))
    ∧ (∀ s : State, s.drive.lost = false → s.sys.mode ≠ .sleep →
      (s.sys.goodHv + 1024 ≤ s.now → ∃ t, Sys2Proof.Machine.exec .linkLossHv s = .next t ∧ s.hvLost t)
      ∧ (s.now < s.sys.goodHv + 1024 → Sys2Proof.Machine.exec .linkLossHv s = .next s)
      ∧ ∃ t, Sys2Proof.Machine.exec .referenceLoss s = .next t ∧ s.hvLost t)
    ∧ (∀ s : State, s.d2dUp = true → s.sys.mode ≠ .sleep → s.sys.goodLog + 1024 ≤ s.now →
      ∃ t, Sys2Proof.Machine.exec .linkloss s = .next t ∧ t.d2dUp = false ∧ t.reg OUT_ENI = 0
        ∧ faultItem blkD2D 0 0x10 clsU 0 ∈ t.inflight
        ∧ ∀ a ∈ t.stage, a.kind = 0 → a.place = .ending ∧ a.endLocal = true)
    ∧ (∀ s : State, s.sys.por = false → s.sys.rst = false → s.sys.mode ≠ .sleep → s.linkOk = false →
      ∃ t, Sys2Proof.Machine.exec .linkRetrain s = .next t ∧ t.linkOk = true
        ∧ t.fld INJ_CTRL INJ_CTRL_EN = 0 ∧ t.fld INJ_APPLIED INJ_APPLIED_EN = 0 ∧ t.fld PWM_CTRL PWM_CTRL_EN = 0
        ∧ t.fld PWM_APPLIED PWM_APPLIED_EN = 0 ∧ t.sys.goodHv = s.now ∧ t.sys.goodLog = s.now ∧ t.mem = s.mem))

/-- R29, R503 to R505, R509: 4,096 fabric clocks after the last one, and not before, a budget frame pulse leaves for every island it
serves. Where it arrives the account meters are refilled from the registers with nothing used, and at the angle island every
stalled thread is READY with BUDGET pending. A meter's overrun report reaches the guard island and counts one frame of the
account. The count and peak registers are cleared by their command bits; BUD_MONSEL takes the account and resource to be monitored
and restarts the peak. -/
def Obligations.BudgetFrames : Prop :=
  (∀ s : State, s.sys.mode ≠ .sleep →
    (s.fabric.pulseAt + 4096 ≤ s.now → ∃ t, Sys2Proof.Machine.exec .budgetFramePulse s = .next t
      ∧ t.fabric.pulseAt = s.now ∧ t.regs = s.regs ∧ t.mem = s.mem
      ∧ t.inflight = s.inflight ++ ((([.fabric, .angle, .link, .converter, .guard, .combustion] ++ if s.linkOk then [.drive] else []) : List Island).map
          fun i => ⟨Island.fabric, i, .pulse⟩))
    ∧ (s.now < s.fabric.pulseAt + 4096 → Sys2Proof.Machine.exec .budgetFramePulse s = .next s))
  ∧ (∀ s : State, s.nextItem .fabric .angle = some .pulse →
    ∃ t, Sys2Proof.Machine.exec (.framePulseAtMeter .angle) s = .next t
      ∧ (∀ a, a < 48 → t.meter a 1 = s.refilled a 1) ∧ (∀ a r, a < 48 → r < 5 → r ≠ 1 → t.meter a r = s.meter a r)
      ∧ (∀ n : Fin 64, s.thState n = 3 → t.thState n = 1 ∧ (t.pend n).testBit 3 = true)
      ∧ (∀ n : Fin 64, s.thState n ≠ 3 → t.thState n = s.thState n) ∧ t.mem = s.mem)
  ∧ (∀ (s : State) (a res : Nat) (enf : Bool), a < 48 → s.nextItem .angle .guard = some (.budReport (s.budFrame.num) [(a, res, enf)]) →
    s.budFrame.reports = 1 → (∀ p ∈ s.budFrame.overs, p.1 ≠ a) →
    ∃ t, Sys2Proof.Machine.exec (.budgetOverrunReport .angle) s = .next t
      ∧ t.fld (BUD_OVR a) BUD_OVR_FRAMES = min (2 ^ BUD_OVR_FRAMES.w - 1) (s.fld (BUD_OVR a) BUD_OVR_FRAMES + 1)
      ∧ t.fld (BUD_OVR a) BUD_OVR_RUN = min (2 ^ BUD_OVR_RUN.w - 1) (s.fld (BUD_OVR a) BUD_OVR_RUN + 1)
      ∧ t.bit (if a < 32 then BUD_OVRSUM0 else BUD_OVRSUM1) (a % 32) = true
      ∧ t.bit BUD_EVT (if enf then BUD_EVT_OVR else BUD_EVT_WATCH) = true ∧ t.budFrame.reports = 2
      ∧ ∀ b, b < 48 → b ≠ a → t.reg (BUD_OVR b) = s.reg (BUD_OVR b))
  ∧ (∀ s : State, ∃ t, Sys2Proof.Machine.exec .budClrCnt s = .next t
      ∧ (∀ a, a < 48 → t.fld (BUD_OVR a) BUD_OVR_FRAMES = 0 ∧ t.fld (BUD_OVR a) BUD_OVR_RUN = s.fld (BUD_OVR a) BUD_OVR_RUN
          ∧ t.reg (BUD_DROP a) = 0)
      ∧ t = { s with regs := t.regs } ∧ ∀ k, (∀ a, a < 48 → k ≠ BUD_OVR a ∧ k ≠ BUD_DROP a) → t.reg k = s.reg k)
  ∧ (∀ s : State, ∃ t, Sys2Proof.Machine.exec .budClrPeak s = .next t ∧ t.reg BUD_MONPEAK = 0 ∧ s.onlyRegs t [BUD_MONPEAK])
  ∧ (∀ (s : State) (w : Word), BUD_MONSEL_ACCT.get w ≤ 47 → BUD_MONSEL_RES.get w ≤ 4 →
    ∃ t, Sys2Proof.Machine.exec (.budMonselWrite w) s = .next t
      ∧ t.fld BUD_MONSEL BUD_MONSEL_ACCT = BUD_MONSEL_ACCT.get w ∧ t.fld BUD_MONSEL BUD_MONSEL_RES = BUD_MONSEL_RES.get w
      ∧ t.reg BUD_MONPEAK = 0 ∧ s.onlyRegs t [BUD_MONSEL, BUD_MONPEAK])

/-- R50, R59, R609 to R614, R616: power-on resets keep MRAM and the enrolment alone and record their cause; the release of power-on
reset starts the unit, with RST_N low for 100 to 110 µs more. A system reset comes from a reaction or a host link, from RST_N or from
software with the key 0x5A; it is over 10 µs later where nothing holds it. A supply warning resets with its rail as the detail and
holds the unit until the rails have recovered; VSYS below 5.0 V resets the high-voltage die.
R617 to R625, R629: the states of crystal and PLLs as SYS_CLK shows them; the failure of a watched clock resets the unit, which
then waits for the clocks; the RTC falls back to the RC oscillator with its event; an alarm is armed by a value that lies ahead,
disarmed by 0 and refused otherwise, and gives its event when due; the sleep is entered from a stopped engine with every output
disabled and no wake source active, begins once Locket has drained, and ends with an enabled source. -/
def Obligations.ResetsClocksAndSleep : Prop :=
  (
    (∀ s : State, (∃ t, Sys2Proof.Machine.exec .porstAssert s = .next t ∧ t.reg SYS_RCAUSE = 2 ∧ t.sys.por = true
        ∧ t.enrol = s.enrol ∧ s.cleared t hallmarkReg [SYS_RCAUSE, HMK_STAT])
      ∧ ∀ rail : Fin 5, ∃ t, Sys2Proof.Machine.exec (.railResetCrossing rail) s = .next t
        ∧ t.reg SYS_RCAUSE = BitVec.ofNat 32 (1 + 16 * rail) ∧ t.sys.por = true
        ∧ t.enrol = s.enrol ∧ s.cleared t hallmarkReg [SYS_RCAUSE, HMK_STAT])
    ∧ (∀ (s : State) (warn : BitVec 5), s.sys.por = true → ∃ t, Sys2Proof.Machine.exec (.porRelease warn) s = .next t
        ∧ t.sys.por = false ∧ t.fld SYS_STAT SYS_STAT_GOOD = 31 ∧ t.fld SYS_STAT SYS_STAT_WARN = warn.toNat
        ∧ (∃ x, t.sys.rstn = some x ∧ s.now + 40000 ≤ x ∧ x ≤ s.now + 44000)
        ∧ t.bit DBG_CTRL 0 = decide (s.fld HMK_STAT HMK_STAT_ENR = 0) ∧ t.mem = s.mem)
    ∧ (∀ (s : State) (rail : Fin 5), (s.sys.por = true ∨ s.sys.rst = true → ∃ t, Sys2Proof.Machine.exec (.supplyWarning rail) s = .next t
        ∧ t.bit SYS_STAT (8 + rail) = true ∧ s.onlyRegs t [SYS_STAT])
      ∧ (s.sys.por = false → s.sys.rst = false → s.sys.mode = .run → ∃ t, Sys2Proof.Machine.exec (.supplyWarning rail) s = .next t
        ∧ t.sys.rst = true ∧ t.sys.rstAt = s.now ∧ t.sys.hold = 1 ∧ t.fld SYS_RCAUSE SYS_RCAUSE_CAUSE = 3
        ∧ t.fld SYS_RCAUSE SYS_RCAUSE_DETAIL = rail ∧ t.reg OUT_ENI = 0 ∧ t.reg OUT_ENG = 0 ∧ t.reg OUT_ENA = 0
        ∧ t.reg AEN_CTRL = 0 ∧ t.calq = [] ∧ t.stage = []))
    ∧ (∀ s : State, s.sys.por = false → s.sys.rst = false →
      (∀ c d, s.sys.ask = some (c, d) → ∃ t, Sys2Proof.Machine.exec .systemReset s = .next t ∧ t.sys.ask = none ∧ s.wasReset t c d)
      ∧ (∀ w, SYS_RST_GO.get w = 1 → SYS_RST_KEY.get w = 0x5A →
          ∃ t, Sys2Proof.Machine.exec (.sysRst w) s = .next t ∧ s.wasReset t 5 0)
      ∧ (∀ w, SYS_RST_GO.get w = 1 → SYS_RST_KEY.get w ≠ 0x5A →
          ∃ t, Sys2Proof.Machine.exec (.sysRst w) s = .next t ∧ s.writeRefused t SYS_RST)
      ∧ (s.sys.rstn = none → ∃ t, Sys2Proof.Machine.exec .rstnInput s = .next t ∧ s.wasReset t 6 0))
    ∧ (∀ s : State, s.sys.rst = true →
      (s.sys.hold = 0 → s.sys.rstAt + 4000 ≤ s.now → ∃ t, Sys2Proof.Machine.exec .systemResetEnd s = .next t
        ∧ t.sys.rst = false ∧ (∃ x, t.sys.rstn = some x ∧ s.now + 40000 ≤ x ∧ x ≤ s.now + 44000) ∧ t.regs = s.regs ∧ t.mem = s.mem)
      ∧ (s.now < s.sys.rstAt + 4000 → Sys2Proof.Machine.exec .systemResetEnd s = .next s)
      ∧ (s.sys.hold = 1 → ∃ t, Sys2Proof.Machine.exec .resetHoldEnd s = .next t
        ∧ t.sys.rst = false ∧ t.fld SYS_STAT SYS_STAT_WARN = 0 ∧ (∀ k, k ≠ SYS_STAT → t.reg k = s.reg k) ∧ t.mem = s.mem))
    ∧ (∀ s : State, ∃ t, Sys2Proof.Machine.exec .vsysHvHold s = .next t ∧ t.d2dUp = false
        ∧ (∀ k, t.reg k = if 0x400A0000 ≤ k ∧ k < 0x400C0000 then resetOf k else s.reg k)
        ∧ (∀ n, n < 12 → (t.injOf n).st = .off) ∧ (∀ n, n < 10 → (t.pwmOf n).h = false ∧ (t.pwmOf n).l = false)
        ∧ t = { s with regs := t.regs, inj := t.inj, drive := t.drive, pwm := t.pwm, d2dUp := false }))
  ∧ (
    (∀ s : State, ∃ t, Sys2Proof.Machine.exec .crystalValid s = .next t ∧ t.bit SYS_CLK 0 = true
        ∧ t.fld LKT_TSECH LKT_TSECH_XTAL = 1 ∧ s.onlyRegs t [SYS_CLK, LKT_TSECH])
    ∧ (∀ (s : State) (p : Fin 3), (s.bit SYS_CLK 0 = true → ∃ t, Sys2Proof.Machine.exec (.pllLock p) s = .next t
        ∧ t.bit SYS_CLK (1 + p) = true ∧ (∀ b, b ≠ 1 + p.val → t.bit SYS_CLK b = s.bit SYS_CLK b) ∧ s.onlyRegs t [SYS_CLK])
      ∧ (s.bit SYS_CLK 0 = false → Sys2Proof.Machine.exec (.pllLock p) s = .next s))
    ∧ (∀ (s : State) (c : Fin 4), s.sys.por = false → s.sys.rst = false → s.sys.mode = .run →
      ∃ t, Sys2Proof.Machine.exec (.clkfail c) s = .next t ∧ t.sys.rst = true ∧ t.sys.rstAt = s.now ∧ t.sys.hold = 2
        ∧ t.fld SYS_RCAUSE SYS_RCAUSE_CAUSE = 7 ∧ t.fld SYS_RCAUSE SYS_RCAUSE_DETAIL = c
        ∧ t.bit SYS_CLK c = false ∧ (c = 0 → ∀ b, b < 4 → t.bit SYS_CLK b = false) ∧ t.reg AEN_CTRL = 0)
    ∧ (∀ s : State, ∃ t, Sys2Proof.Machine.exec .rtcf s = .next t ∧ t.bit SYS_CLK 5 = true ∧ t.bit SYS_CLK 4 = false
        ∧ t.bit SYS_EVT 2 = true ∧ s.onlySends t [SYS_CLK, SYS_EVT] [evtItem SYS_EVT 2])
    ∧ (∀ (s : State) (w : Word),
      let v := (s.reg SYS_ALML).toNat + 2 ^ 32 * (w.toNat % 65536)
      (v = 0 ∨ s.sys.rtc.toNat < v → ∃ t, Sys2Proof.Machine.exec (.alarmArm w) s = .next t ∧ t.alarmAt = v
        ∧ t.fld SYS_ALMH SYS_ALMH_ARMED = (if v = 0 then 0 else 1) ∧ s.onlyRegs t [SYS_ALMH])
      ∧ (v ≠ 0 → v ≤ s.sys.rtc.toNat → ∃ t, Sys2Proof.Machine.exec (.alarmArm w) s = .next t ∧ s.writeRefused t SYS_ALMH))
    ∧ (∀ s : State, (s.sys.alarm = true → ∃ t, Sys2Proof.Machine.exec .alarmMatch s = .next t ∧ t.bit SYS_EVT 1 = true
        ∧ t.sys = { s.sys with alarm := false } ∧ t.mem = s.mem ∧ t.inflight = s.inflight ++ [evtItem SYS_EVT 1]
        ∧ ∀ k, k ≠ SYS_EVT → t.reg k = s.reg k)
      ∧ (s.sys.alarm = false → Sys2Proof.Machine.exec .alarmMatch s = .next s))
    ∧ (∀ (s : State) (active : Word), s.sys.mode = .run →
      (s.sleepLegal = true → active &&& s.reg SYS_WAKE = 0 → ∃ t, Sys2Proof.Machine.exec (.sleepGo active) s = .next t
        ∧ t.sys = { s.sys with mode := .entry } ∧ t.mem = s.mem ∧ t.inflight = s.inflight ∧ ∀ k, t.reg k = s.reg k)
      ∧ (s.sleepLegal = true → active &&& s.reg SYS_WAKE ≠ 0 → ∃ t, Sys2Proof.Machine.exec (.sleepGo active) s = .next t
        ∧ t.bit SYS_EVT 3 = true ∧ s.onlySends t [SYS_EVT] [evtItem SYS_EVT 3])
      ∧ (s.sleepLegal = false → ∃ t, Sys2Proof.Machine.exec (.sleepGo active) s = .next t ∧ s.writeRefused t SYS_SLEEP))
    ∧ (∀ s : State, s.sys.mode = .entry →
      (s.sleepDrained = true → ∃ t, Sys2Proof.Machine.exec .sleepEnter s = .next t ∧ t.sys = { s.sys with mode := .sleep, slept := s.now }
        ∧ t.d2dUp = false ∧ t.bit SYS_CLK 1 = false ∧ t.bit SYS_CLK 2 = false ∧ t.mem = s.mem ∧ ∀ k, k ≠ SYS_CLK → t.reg k = s.reg k)
      ∧ (s.sleepDrained = false → Sys2Proof.Machine.exec .sleepEnter s = .next s))
    ∧ (∀ (s : State) (src : Word), (src &&& s.reg SYS_WAKE = 0 → Sys2Proof.Machine.exec (.wakeUp src) s = .next s)
      ∧ (src &&& s.reg SYS_WAKE ≠ 0 → s.sys.mode = .entry → ∃ t, Sys2Proof.Machine.exec (.wakeUp src) s = .next t
        ∧ t.sys = { s.sys with mode := .run } ∧ t.bit SYS_EVT 3 = true ∧ t.mem = s.mem)
      ∧ (src &&& s.reg SYS_WAKE ≠ 0 → s.sys.mode = .sleep → ∃ t, Sys2Proof.Machine.exec (.wakeUp src) s = .next t
        ∧ t.sys.mode = .run ∧ t.reg SYS_WSRC = src &&& s.reg SYS_WAKE ∧ t.bit SYS_EVT 0 = true
        ∧ t.bit SYS_CLK 1 = true ∧ t.bit SYS_CLK 2 = true
        ∧ t.slot = s.slot + BitVec.ofNat 48 ((s.now - s.sys.slept) / 8 * 8)
        ∧ ∀ n : Fin 64, s.thState n = 2 → s.fld (AEN_TSTAT n) AEN_TSTAT_WKIND = 2 → t.thState n ≠ 2)))

/-- R62 to R65, R67, R71, R73, R78: a half-wave of a VR input leaves its peak in WHL_PKn and, where it arms, a crossing that EDGE
selects (AMP below twice FLOOR); a Hall input follows its thresholds; an input of another source sees neither. A level that has held for
FILT clocks is the filtered one; its edge waits for delivery, and one within 256 slots of the last is overrun: counted, no tooth. The
opposite edge tags the direction of a waiting one by its width, which is then delivered. -/
def Obligations.WheelEdges : Prop :=
  (∀ (n : Fin 6) (pos : Bool) (peak : Nat) (s : State),
    (s.fld (WHL_CFG n) WHL_CFG_MODE ≠ 0 ∨ s.fld (WHL_CFG n) WHL_CFG_SRC ≠ 0 → Sys2Proof.Machine.exec (.vrHalfWave n pos peak) s = .next s)
    ∧ (s.fld (WHL_CFG n) WHL_CFG_MODE = 0 → s.fld (WHL_CFG n) WHL_CFG_SRC = 0 →
      ∃ t, Sys2Proof.Machine.exec (.vrHalfWave n pos peak) s = .next t
        ∧ t = { s with regs := t.regs, whl := t.whl, inflight := t.inflight }
        ∧ t.fld (WHL_PK n) (if pos then WHL_PK_PPK else WHL_PK_NPK) = min 511 peak
        ∧ (if pos then (t.whlOf n).peakP else (t.whlOf n).peakN) = peak
        ∧ (∀ m : Fin 6, m ≠ n → t.whlOf m = s.whlOf m)
        ∧ (∀ k, k ≠ WHL_PK n → k ≠ WHL_EVT → t.reg k = s.reg k)
        ∧ (peak < s.fld (WHL_VR n) WHL_VR_FLOOR
            ∨ 16 * peak < s.fld (WHL_VR n) WHL_VR_FRAC * (if pos then (s.whlOf n).peakP else (s.whlOf n).peakN) →
            (t.whlOf n).det = (s.whlOf n).det ∧ t.reg WHL_EVT = s.reg WHL_EVT ∧ t.inflight = s.inflight)
        ∧ (s.fld (WHL_CFG n) WHL_CFG_EDGE = 3 ∨ s.fld (WHL_CFG n) WHL_CFG_EDGE = (if pos then 2 else 1) →
            s.fld (WHL_VR n) WHL_VR_FLOOR ≤ peak →
            s.fld (WHL_VR n) WHL_VR_FRAC * (if pos then (s.whlOf n).peakP else (s.whlOf n).peakN) ≤ 16 * peak →
            (t.whlOf n).det = !pos
            ∧ ((s.whlOf n).det = pos → (t.whlOf n).detAt = s.now ∧ (t.whlOf n).detAng = s.angW)
            ∧ (peak < 2 * s.fld (WHL_VR n) WHL_VR_FLOOR → t.bit WHL_EVT (WHL_EVT_AMP n) = true
                ∧ t.inflight = s.inflight ++ [evtItem WHL_EVT (WHL_EVT_AMP n)]))))
  ∧ (∀ (n : Fin 6) (up : Bool) (s : State),
    (s.fld (WHL_CFG n) WHL_CFG_MODE ≠ 1 ∨ s.fld (WHL_CFG n) WHL_CFG_SRC ≠ 0 →
      Sys2Proof.Machine.exec (.hallThresholdCrossing n up) s = .next s)
    ∧ (s.fld (WHL_CFG n) WHL_CFG_MODE = 1 → s.fld (WHL_CFG n) WHL_CFG_SRC = 0 →
      ∃ t, Sys2Proof.Machine.exec (.hallThresholdCrossing n up) s = .next t ∧ t = { s with whl := t.whl }
        ∧ t.whlOf n = (if (s.whlOf n).det = up then s.whlOf n
            else { s.whlOf n with det := up, detAt := s.now, detAng := s.angW })
        ∧ ∀ m : Fin 6, m ≠ n → t.whlOf m = s.whlOf m))
  ∧ (∀ (n : Fin 6) (s : State),
    let sel := edgeSelected (s.fld (WHL_CFG n) WHL_CFG_EDGE) (s.whlOf n).det
    let soon := ∃ a, (s.whlOf n).lastAcc = some a ∧ (s.whlOf n).detAt < a + 256
    (s.filterPasses n = false → Sys2Proof.Machine.exec (.edgeFilterPass n) s = .next s)
    ∧ (s.filterPasses n = true → sel = true → ∃ t, Sys2Proof.Machine.exec (.edgeFilterPass n) s = .next t
      ∧ t.bit WHL_STAT n = (s.whlOf n).det
      ∧ ((s.whlOf n).st ≠ .disabled → soon → (t.whlOf n).await = (s.whlOf n).await ∧ (t.whlOf n).lastAcc = (s.whlOf n).lastAcc
          ∧ t.fld (WHL_CNT n) WHL_CNT_OVR = min 255 (s.fld (WHL_CNT n) WHL_CNT_OVR + 1) ∧ t.bit WHL_EVT (WHL_EVT_OVR n) = true)
      ∧ ((s.whlOf n).st = .free → ¬soon → (t.whlOf n).lastAcc = some (s.whlOf n).detAt
          ∧ (if s.fld (WHL_CFG n) WHL_CFG_DIREN = 1 then (t.whlOf n).dirPend else (t.whlOf n).await)
              = some { stamp := (s.whlOf n).detAt, angle := (s.whlOf n).detAng, level := (s.whlOf n).det })
      ∧ ((s.whlOf n).st = .disabled → t.whlOf n = { s.whlOf n with vrEdge := false } ∧ s.onlyRegs { t with whl := s.whl } [WHL_STAT]))
    ∧ (s.filterPasses n = true → sel = false → (s.whlOf n).dirPend = none → ∃ t, Sys2Proof.Machine.exec (.edgeFilterPass n) s = .next t
      ∧ t.bit WHL_STAT n = (s.whlOf n).det ∧ t.whlOf n = { s.whlOf n with vrEdge := false }
      ∧ s.onlyRegs { t with whl := s.whl } [WHL_STAT]))
  ∧ (∀ (n : Fin 6) (e : Edge) (s : State), (s.whlOf n).dirPend = some e →
    (s.filterPasses n = false ∨ edgeSelected (s.fld (WHL_CFG n) WHL_CFG_EDGE) (s.whlOf n).det = true →
      Sys2Proof.Machine.exec (.directionPulseEnd n) s = .next s)
    ∧ (s.filterPasses n = true → edgeSelected (s.fld (WHL_CFG n) WHL_CFG_EDGE) (s.whlOf n).det = false →
      ∃ t, Sys2Proof.Machine.exec (.directionPulseEnd n) s = .next t ∧ (t.whlOf n).dirPend = none
        ∧ t.bit WHL_STAT (16 + n) = decide (16 * s.fld (WHL_DIR n) WHL_DIR_THR ≤ (s.whlOf n).detAt - e.stamp)
        ∧ (t.whlOf n).delivered = (s.whlOf n).delivered + 1 ∧ t.reg (WHL_LAST n) = s.slotAt e.stamp))

/-- R74, R77, R78, R99: a delivered stamp is the wheel's reference, with the period from the one before; from its second on a SPEED wheel
has its prediction. A window that closes with no edge is counted MISS, and a SPEED wheel's reference steps on by the prediction. The smaller
of 4 P and 500 ms with no tooth stalls the wheel: event, no prediction. Neither happens before its time.
R78, R83, R99: a write of WHL_CTRL enables wheels with a legal pattern table in FREE with no prediction and PK cleared, disables those
whose bit it clears, and leaves the others; with an illegal table it is refused whole. WHL_CLR clears the counters of the wheels named. A
read of WHL_SLOTL answers with the slot counter's low word and latches the rest. -/
def Obligations.WheelCommands : Prop :=
  (
    (∀ (n : Fin 6) (s : State), ((s.whlOf n).await = none → Sys2Proof.Machine.exec (.toothDelivery n) s = .next s)
      ∧ ∀ e, (s.whlOf n).await = some e → ∃ t, Sys2Proof.Machine.exec (.toothDelivery n) s = .next t
        ∧ (t.whlOf n).await = none ∧ (t.whlOf n).delivered = (s.whlOf n).delivered + 1 ∧ (t.whlOf n).lastTooth = some e.stamp
        ∧ t.reg (WHL_LAST n) = s.slotAt e.stamp ∧ t.bit WHL_STAT (16 + n) = e.rev
        ∧ (∀ r, (s.whlOf n).ref = some r → t.reg (WHL_PER n) = BitVec.ofNat 32 (min 0xFFFFFFFF (e.stamp - r)))
        ∧ ((s.whlOf n).ref = none → t.reg (WHL_PER n) = s.reg (WHL_PER n))
        ∧ (∀ r, (s.whlOf n).ref = some r → s.role n = 2 → (s.whlOf n).st = .free → s.isSource n = false → s.isSecondary n = false →
            (t.whlOf n).st = .windowed ∧ (t.whlOf n).pred = some (256 * (e.stamp - r)) ∧ (t.whlOf n).ref = some e.stamp
            ∧ t.bit WHL_STAT (8 + n) = true ∧ t.obs = s.obs ∧ t.sync = s.sync ∧ ∀ m : Fin 6, m ≠ n → t.whlOf m = s.whlOf m))
    ∧ (∀ (n : Fin 6) (s : State) (r p : Nat), (s.whlOf n).ref = some r → (s.whlOf n).pred = some p → (s.whlOf n).st = .windowed →
      (s.whlOf n).await = none → (s.whlOf n).dirPend = none →
      ((s.now - r) * 256 * 20 < (s.whlOf n).hi * p → Sys2Proof.Machine.exec (.windowClose n) s = .next s)
      ∧ ((s.whlOf n).hi * p ≤ (s.now - r) * 256 * 20 → ∃ t, Sys2Proof.Machine.exec (.windowClose n) s = .next t
        ∧ t.fld (WHL_CNT n) WHL_CNT_MISS = min 255 (s.fld (WHL_CNT n) WHL_CNT_MISS + 1) ∧ t.bit WHL_EVT (WHL_EVT_MISS n) = true
        ∧ (t.whlOf n).delivered = (s.whlOf n).delivered
        ∧ (s.role n = 2 → (t.whlOf n).ref = some (r + roundDivN p 256) ∧ (t.whlOf n).pred = some p ∧ t.obs = s.obs ∧ t.sync = s.sync)))
    ∧ (∀ (n : Fin 6) (s : State), s.role n ≠ 1 → (s.whlOf n).st = .free ∨ (s.whlOf n).st = .windowed → (s.whlOf n).await = none →
      (s.whlOf n).dirPend = none →
      ((s.whlOf n).tmoFrom + 200000000 ≤ s.now ∨ (∃ p, (s.whlOf n).pred = some p ∧ 4 * p ≤ 256 * (s.now - (s.whlOf n).tmoFrom)) →
        ∃ t, Sys2Proof.Machine.exec (.wheelTimeout n) s = .next t ∧ (t.whlOf n).st = .stalled ∧ (t.whlOf n).pred = none
          ∧ t.reg (WHL_PRED n) = 0 ∧ t.bit WHL_EVT (WHL_EVT_STALL n) = true ∧ t.bit WHL_STAT (8 + n) = false)
      ∧ (s.now < (s.whlOf n).tmoFrom + 200000000 → (∀ p, (s.whlOf n).pred = some p → 256 * (s.now - (s.whlOf n).tmoFrom) < 4 * p) →
        Sys2Proof.Machine.exec (.wheelTimeout n) s = .next s)))
  ∧ (
    (∀ (w : Word) (s : State), ((List.range 6).all fun n => !bitOf w n || s.tableLegal n) = true →
      (∃ t, Sys2Proof.Machine.exec (.wheelEnable w) s = .next t
        ∧ (∀ n, n < 6 → t.bit WHL_CTRL n = bitOf w n)
        ∧ (∀ n, n < 6 → s.bit WHL_CTRL n = false → bitOf w n = true →
            (t.whlOf n).st = .free ∧ (t.whlOf n).pred = none ∧ (t.whlOf n).ref = none ∧ (t.whlOf n).delivered = 0
            ∧ (t.whlOf n).tmoFrom = s.now ∧ t.reg (WHL_PK n) = 0 ∧ t.reg (WHL_PRED n) = 0)
        ∧ (∀ n, n < 6 → s.bit WHL_CTRL n = bitOf w n → s.isSource n = false → t.whlOf n = s.whlOf n)
        ∧ ∀ m, m < 6 → t.reg (WHL_CFG m) = s.reg (WHL_CFG m) ∧ t.reg (WHL_CNT m) = s.reg (WHL_CNT m))
      ∧ (∃ t, Sys2Proof.Machine.exec (.wheelDisable w) s = .next t
        ∧ (∀ n, n < 6 → t.bit WHL_CTRL n = bitOf w n)
        ∧ (∀ n, n < 6 → s.bit WHL_CTRL n = true → bitOf w n = false →
            (t.whlOf n).st = .disabled ∧ (t.whlOf n).pred = none ∧ (t.whlOf n).ref = none ∧ (t.whlOf n).await = none
            ∧ t.reg (WHL_PRED n) = 0 ∧ t.bit WHL_STAT (8 + n) = false ∧ (s.isSource n = true → t.syncSt = 0))
        ∧ ((∀ n, n < 6 → s.bit WHL_CTRL n = true → bitOf w n = false → s.isSource n = false) → t.sync.sec = s.sync.sec ∧ t.mem = s.mem
            ∧ t.inflight = s.inflight ∧ t.calq = s.calq)))
    ∧ (∀ (w : Word) (s : State), ((List.range 6).all fun n => !bitOf w n || s.tableLegal n) = false →
      (∃ t, Sys2Proof.Machine.exec (.wheelEnable w) s = .next t ∧ s.writeRefused t WHL_CTRL)
      ∧ ∃ t, Sys2Proof.Machine.exec (.wheelDisable w) s = .next t ∧ s.writeRefused t WHL_CTRL)
    ∧ (∀ (m : BitVec 6) (s : State), ∃ t, Sys2Proof.Machine.exec (.whlClrCnt m) s = .next t
        ∧ (∀ n, n < 6 → t.reg (WHL_CNT n) = if m.getLsbD n then 0 else s.reg (WHL_CNT n))
        ∧ s.onlyRegs t ((List.range 6).map WHL_CNT))
    ∧ (∀ s : State, ∃ t, Sys2Proof.Machine.exec .whlSlotlRead s = .next t ∧ t.answer = { data := s.slot.setWidth 32, err := false }
        ∧ t.reg WHL_SLOTH = BitVec.ofNat 32 (s.slot.toNat / 2 ^ 32) ∧ s.onlyRegs { t with answer := s.answer } [WHL_SLOTH]))

/-- R90 to R95: an echo generator is enabled at its idle level, owning its pin, its edges counted from the angle in force (FOLLOW) or from
the start of a synthetic angle of 0; disabled, it lets a pulse run out. A pulse ends at its time and, if an edge truncated it, the next starts
then; before that nothing happens. The next edge of a FOLLOW or SYNTH pattern takes its level once the angle has reached it. Every ramp step
moves the SYNTH period toward its target by at most ERAMP, at once where that is 0. -/
def Obligations.EchoGenerators : Prop :=
  (∀ (k : Fin 2) (w : Word) (s : State), s.fld (WHL_ECFG k) WHL_ECFG_EN = 0 → WHL_ECFG_EN.get w = 1 →
    (s.ecfgLegal k w = false → ∃ t, Sys2Proof.Machine.exec (.echoEnable k w) s = .next t ∧ s.writeRefused t (WHL_ECFG k))
    ∧ (s.ecfgLegal k w = true → WHL_ECFG_MODE.get w ≤ 2 → WHL_ECFG_SRC.get w ≤ 5 → 1 ≤ WHL_ECFG_DUTY.get w →
      ∃ t, Sys2Proof.Machine.exec (.echoEnable k w) s = .next t ∧ t.reg (WHL_ECFG k) = (s.reg (WHL_ECFG k) &&& 0xFF008088) ||| (w &&& 0x00FF7F77)
        ∧ (t.echoOf k).level = false ∧ (t.echoOf k).fallAt = none ∧ (t.echoOf k).syn = 0
        ∧ (WHL_ECFG_MODE.get w = 1 → (t.echoOf k).upTo = s.angW)
        ∧ (WHL_ECFG_NOPIN.get w = 0 → t.bit OUT_LVLA (WHL_ECFG_PIN.get w) = (WHL_ECFG_INV.get w == 1))
        ∧ (WHL_ECFG_NOPIN.get w = 1 → s.onlyRegs { t with echo := s.echo } [WHL_ECFG k])))
  ∧ (∀ (k : Fin 2) (w : Word) (s : State), s.fld (WHL_ECFG k) WHL_ECFG_EN = 1 → w = s.reg (WHL_ECFG k) &&& 0xFFFFFFFE →
    s.ecfgLegal k w = true → WHL_ECFG_MODE.get w ≤ 2 → WHL_ECFG_SRC.get w ≤ 5 → 1 ≤ WHL_ECFG_DUTY.get w →
    ∃ t, Sys2Proof.Machine.exec (.echoDisable k w) s = .next t ∧ t.fld (WHL_ECFG k) WHL_ECFG_EN = 0
      ∧ t.echoOf k = { s.echoOf k with closing := (s.echoOf k).level, riseAt := none }
      ∧ (k = 1 ∨ s.fld (WHL_ECFG 1) WHL_ECFG_SHARE = 0 → s.onlyRegs { t with echo := s.echo } [WHL_ECFG k])
      ∧ (k = 0 → s.fld (WHL_ECFG 1) WHL_ECFG_SHARE = 1 → s.echoIn 1 2 = true → (t.echoOf 1).level = false))
  ∧ (∀ (k : Fin 2) (s : State),
    (∀ x, (s.echoOf k).fallAt = some x →
      (s.now < x → Sys2Proof.Machine.exec (.echoPulseEnd k) s = .next s)
      ∧ (x ≤ s.now → ∃ t, Sys2Proof.Machine.exec (.echoPulseEnd k) s = .next t ∧ (t.echoOf k).level = false ∧ (t.echoOf k).fallAt = none
        ∧ (s.echoPinned k = true → t.bit OUT_LVLA (s.fld (WHL_ECFG k) WHL_ECFG_PIN) = (s.fld (WHL_ECFG k) WHL_ECFG_INV == 1))
        ∧ (s.echoPinned k = false → t = { s with echo := t.echo, whl := t.whl })))
    ∧ (∀ x, (s.echoOf k).fallAt = none → (s.echoOf k).riseAt = some x →
      (s.now < x → Sys2Proof.Machine.exec (.echoPulseEnd k) s = .next s)
      ∧ (x ≤ s.now → ∃ t, Sys2Proof.Machine.exec (.echoPulseEnd k) s = .next t ∧ (t.echoOf k).level = true
        ∧ (t.echoOf k).riseAt = none ∧ (t.echoOf k).fallAt = some (s.now + 16 * s.fld (WHL_EWID k) WHL_EWID_WIDTH)
        ∧ ∀ m : Fin 6, s.fld (WHL_CFG m) WHL_CFG_SRC = k + 1 → (t.whlOf m).det = true)))
  ∧ (∀ (k : Fin 2) (s : State), (s.echoAngle k = none → Sys2Proof.Machine.exec (.followEdge k) s = .next s)
    ∧ ∀ w, s.echoAngle k = some w → ∀ e, nextEdge (s.echoEdges k) (s.echoOf k).upTo = some e → (s.echoOf k).closing = false →
      let at' := (s.echoOf k).upTo + BitVec.ofNat 32 e.1
      (wReached w at' = false → Sys2Proof.Machine.exec (.followEdge k) s = .next s)
      ∧ (wReached w at' = true → ∃ t, Sys2Proof.Machine.exec (.followEdge k) s = .next t
        ∧ (t.echoOf k).level = (match e.2 with | .rise _ => true | .level b => b | .pulse => true | .fall => false)
        ∧ (∀ f, e.2 = .rise f → wReached w (at' + BitVec.ofNat 32 f) = true →
            (t.echoOf k).fallAt = some (s.now + 16) ∧ (t.echoOf k).upTo = at' + BitVec.ofNat 32 f)
        ∧ (e.2 = .fall ∨ e.2 = .pulse → (t.echoOf k).upTo = at')
        ∧ t.mem = s.mem ∧ t.calq = s.calq ∧ t.stage = s.stage))
  ∧ (∀ (k : Fin 2) (s : State),
    (s.echoIn k 2 = true → s.synthOf k = k → ∃ t, Sys2Proof.Machine.exec (.echoRampStep k) s = .next t
      ∧ t.fld (WHL_ESPDA k) WHL_ESPDA_PERIOD = (if s.fld (WHL_ERAMP k) WHL_ERAMP_RAMP = 0 then s.fld (WHL_ESPD k) WHL_ESPD_PERIOD
          else if s.fld (WHL_ESPDA k) WHL_ESPDA_PERIOD < s.fld (WHL_ESPD k) WHL_ESPD_PERIOD
          then min (s.fld (WHL_ESPD k) WHL_ESPD_PERIOD) (s.fld (WHL_ESPDA k) WHL_ESPDA_PERIOD + s.fld (WHL_ERAMP k) WHL_ERAMP_RAMP)
          else max (s.fld (WHL_ESPD k) WHL_ESPD_PERIOD) (s.fld (WHL_ESPDA k) WHL_ESPDA_PERIOD - s.fld (WHL_ERAMP k) WHL_ERAMP_RAMP))
      ∧ s.onlyRegs t [WHL_ESPDA k])
    ∧ (s.echoIn k 2 = false ∨ s.synthOf k ≠ k → Sys2Proof.Machine.exec (.echoRampStep k) s = .next s))

/-- R111, R113, R114, R303: where the angle reaches the next tooth's word before the tooth, the observer goes on at the rate of a provisional
prediction, formed once as though the tooth had arrived now; at the ceiling it holds, with flag and event; a new cycle count evaluates every
trim anew from its value in force. Before that none of them does anything.
R103, R104, R129, R132, R136, R138, R165: a read of OBS_ANG answers with the placed angle and latches the slot; OBS_CLR sets factors to
16,384 with FVAL cleared, torsional terms and the largest jump to 0, and is refused while the table named learns. The observer is enabled
on an ANGLE wheel, in the state it has, with the configured source and secondary in force; disabled, it is in STOP with no prediction. -/
def Obligations.AngleObserver : Prop :=
  (
    (∀ (s : State),
      (s.obs.prov ≠ none ∨ s.obs.tRef = none ∨ s.obs.hist = [] ∨ wReached s.angW (s.corrected (s.nextTooth s.srcWheel s.lastTooth).1.th) = false →
        Sys2Proof.Machine.exec .provisionalPrediction s = .next s)
      ∧ ∀ r, s.obs.tRef = some r → s.obs.prov = none → s.obs.hist ≠ [] → s.placed = true → s.fld OBS_CFG OBS_CFG_EN = 1 →
        let n := s.srcWheel
        let u := (s.nextTooth n s.lastTooth).1
        let v := (s.nextTooth n u).1
        wReached s.angW (s.corrected u.th) = true →
        ∃ t, Sys2Proof.Machine.exec .provisionalPrediction s = .next t ∧ ∃ q, predict (({
                len := ((s.now - r : Nat) : Rat), a := s.spanFactor n s.lastTooth.slot (s.nextTooth n s.lastTooth).2,
                w := s.torsFactor s.lastTooth u } : Ivl) :: s.obs.hist)
              (s.spanFactor n u.slot (s.nextTooth n u).2) (s.torsFactor u v) (s.fld OBS_PCFG OBS_PCFG_SLIM) = some q
          ∧ t.obs = { s.obs with prov := some q }
          ∧ t.reg OBS_RATE = BitVec.ofNat 32 (max 1 (min (2 ^ 32 - 1) (roundDivN ((v.th - u.th).toNat * 2 ^ 24 * 256) q)))
          ∧ s.onlyRegs { t with obs := s.obs } [OBS_RATE])
    ∧ (∀ s : State,
      (s.placed = true → s.fld OBS_CFG OBS_CFG_EN = 1 → s.angW = s.ceiling → s.fld OBS_FLAGS OBS_FLAGS_CEIL = 0 →
        ∃ t, Sys2Proof.Machine.exec .ceil s = .next t ∧ t.fld OBS_FLAGS OBS_FLAGS_CEIL = 1 ∧ t.bit OBS_EVT 3 = true
          ∧ t = { s with regs := t.regs, inflight := s.inflight ++ [evtItem OBS_EVT 3] }
          ∧ (∀ n : Fin 64, t.thState n = s.thState n)
          ∧ (∀ k, k ≠ OBS_FLAGS → k ≠ OBS_EVT → (∀ n : Fin 64, k ≠ AEN_TSTAT n) → t.reg k = s.reg k))
      ∧ (s.placed = false ∨ s.angW ≠ s.ceiling ∨ s.fld OBS_FLAGS OBS_FLAGS_CEIL = 1 → Sys2Proof.Machine.exec .ceil s = .next s))
    ∧ (∀ s : State,
      (s.placed = true → s.angW.toNat / 2 ^ 24 ≠ s.obs.cycle → ∃ t, Sys2Proof.Machine.exec .cycleBoundary s = .next t
        ∧ t.obs.cycle = s.angW.toNat / 2 ^ 24 ∧ t.mem = s.mem ∧ t.obs.ang = s.obs.ang
        ∧ (∀ i : Fin 512, t.trimBase i = s.reg (AEN_TRM i)
            ∧ t.reg (AEN_TRM i) = BitVec.ofInt 32 (trimValue (s.reg (AEN_TRQ i)).toInt (s.reg (AEN_ELO i)).toInt (s.reg (AEN_EHI i)).toInt
                (s.fld (AEN_ESL i) AEN_ESL_SLEW) (s.reg (AEN_TRM i)).toInt)
            ∧ t.reg (AEN_TRQ i) = s.reg (AEN_TRQ i)))
      ∧ (s.placed = false ∨ s.angW.toNat / 2 ^ 24 = s.obs.cycle → Sys2Proof.Machine.exec .cycleBoundary s = .next s)))
  ∧ (
    (∀ s : State, ∃ t, Sys2Proof.Machine.exec .obsAngRead s = .next t
      ∧ t.answer = { data := if s.placed then s.obs.ang.extractLsb' 24 32 else 0, err := false }
      ∧ t.reg OBS_ANGT = s.slotW ∧ s.onlyRegs { t with answer := s.answer } [OBS_ANGT])
    ∧ (∀ (m : BitVec 6) (s : State),
      (m.toNat &&& s.fld OBS_LCTL OBS_LCTL_LEN = 0 → ∃ t, Sys2Proof.Machine.exec (.obsClrFact m) s = .next t
        ∧ (∀ n, n < 6 → m.getLsbD n = true → t.fval n = false ∧ ∀ i, i < 4096 → t.half (OBS_FACT n 0) i = 16384)
        ∧ (∀ n, n < 6 → m.getLsbD n = false → t.fval n = s.fval n ∧ ∀ i, i < 2048 → t.reg (OBS_FACT n i) = s.reg (OBS_FACT n i))
        ∧ t = { s with regs := t.regs, obs := t.obs } ∧ t.obs = { s.obs with learn := t.obs.learn })
      ∧ (m.toNat &&& s.fld OBS_LCTL OBS_LCTL_LEN ≠ 0 → ∃ t, Sys2Proof.Machine.exec (.obsClrFact m) s = .next t ∧ s.writeRefused t OBS_CLR))
    ∧ (∀ s : State,
      (s.fld OBS_LCTL OBS_LCTL_TEN = 0 → ∃ t, Sys2Proof.Machine.exec .obsClrTors s = .next t
        ∧ (∀ i, i < 384 → t.reg (OBS_TORS i) = 0) ∧ t.fld OBS_FLAGS OBS_FLAGS_TVAL = 0
        ∧ t = { s with regs := t.regs, obs := { s.obs with torsCount := 0 } }
        ∧ ∀ k, k ≠ OBS_FLAGS → (∀ i, i < 384 → k ≠ OBS_TORS i) → t.reg k = s.reg k)
      ∧ (s.fld OBS_LCTL OBS_LCTL_TEN = 1 → ∃ t, Sys2Proof.Machine.exec .obsClrTors s = .next t ∧ s.writeRefused t OBS_CLR))
    ∧ (∀ s : State, ∃ t, Sys2Proof.Machine.exec .obsClrJmax s = .next t ∧ t.reg OBS_JMAX = 0 ∧ s.onlyRegs t [OBS_JMAX])
    ∧ (∀ (s : State) (w : Word), s.fld OBS_CFG OBS_CFG_EN = 0 → OBS_CFG_EN.get w = 1 → OBS_CFG_SRC.get w ≤ 5 →
      1 ≤ OBS_CFG_NFIRE.get w → OBS_CFG_NFIRE.get w ≤ 24 →
      (s.role (OBS_CFG_SRC.get w) = 0 → ∃ t, Sys2Proof.Machine.exec (.obsEnable w) s = .next t ∧ t.reg OBS_CFG = (s.reg OBS_CFG &&& 0xFFFFE08C) ||| (w &&& 0x1F73)
        ∧ t.srcWheel = OBS_CFG_SRC.get w ∧ t.sync.sec = s.fld OBS_SCFG OBS_SCFG_SEC ∧ t.syncSt = s.syncSt
        ∧ s.onlyRegs { t with sync := s.sync } [OBS_CFG, OBS_FLAGS])
      ∧ (s.role (OBS_CFG_SRC.get w) ≠ 0 → ∃ t, Sys2Proof.Machine.exec (.obsEnable w) s = .next t ∧ s.writeRefused t OBS_CFG))
    ∧ (∀ (s : State) (w : Word), s.fld OBS_CFG OBS_CFG_EN = 1 → w = s.reg OBS_CFG &&& 0xFFFFFFFE → OBS_CFG_SRC.get w ≤ 5 →
      1 ≤ OBS_CFG_NFIRE.get w → OBS_CFG_NFIRE.get w ≤ 24 →
      ∃ t, Sys2Proof.Machine.exec (.obsDisable w) s = .next t ∧ t.fld OBS_CFG OBS_CFG_EN = 0 ∧ t.syncSt = 0
        ∧ t.obs.pred = none ∧ t.obs.hist = [] ∧ t.fld OBS_FLAGS OBS_FLAGS_PRED = 0
        ∧ (s.fires = true → t.fld OBS_SCAUSE OBS_SCAUSE_CAUSE = 8 ∧ t.reg OBS_SLOSTA = s.angW)))

/-- R144, R147, R148, R154, R156, R157: the oldest delivered cam edge is judged: in FULL and HOLD a match confirms the phase, a match in the
other revolution is a phase error that loses synchronisation at NCONF of them, and any other edge is counted CAMERR; in CRANK NCONF matches of
one side resolve the phase. Two cycles with no cam edge set CAMLOSS. A tooth of the placed secondary leaves its error in OBS_SDIFF: 16 in a
row within RTOL make the sensors agree, NMIS in a row outside end it.
R149, R158, R159, R163, R165 to R167, R171: the commands of OBS_SCMD. RESEEK starts the gap search anew in LOST. PHASE resolves the
phase in CRANK on the tentative revolution, or on the other one 2^23 ahead. SWAP in FULL with agreement changes the source with the angle
unmoved and enters HOLD for 16 teeth. DROP leaves FULL or HOLD for LOST with cause SOFTWARE, a U-class message and no action left waiting.
Each is refused in any other state. -/
def Obligations.Synchronisation : Prop :=
  (
    (∀ s : State, s.sync.cams = [] → Sys2Proof.Machine.exec .camEdge s = .next s)
    ∧ (∀ s : State, ∀ e, s.sync.cams.head? = some e →
      let cam := s.fld OBS_SCFG OBS_SCFG_CAM
      let b := bucketOf e.angle
      let hit := s.camHit cam b e.level
      let other := s.camHit cam ((b + 2048) % 4096) e.level
      (s.fld OBS_SCFG OBS_SCFG_CAMEN = 0 → ∃ t, Sys2Proof.Machine.exec .camEdge s = .next t
        ∧ t = { s with sync := { s.sync with cams := s.sync.cams.tail } })
      ∧ (s.fld OBS_SCFG OBS_SCFG_CAMEN = 1 → s.syncSt = 1 → ∃ t, Sys2Proof.Machine.exec .camEdge s = .next t
        ∧ t = { s with sync := { s.sync with
                  cams := s.sync.cams.tail
                  camRef := s.sync.camRef || (decide (s.fld OBS_SCFG OBS_SCFG_PLACE = 1) && (s.patEntry cam 0 / 4096 % 2 == b2n e.level)) } })
      ∧ (s.fld OBS_SCFG OBS_SCFG_CAMEN = 1 → s.fires = true → hit = true → ∃ t, Sys2Proof.Machine.exec .camEdge s = .next t
        ∧ t = { s with sync := { s.sync with cams := s.sync.cams.tail, camW := e.angle, camLost := false, phErr := 0, byCmd := false } })
      ∧ (s.fld OBS_SCFG OBS_SCFG_CAMEN = 1 → s.fires = true → hit = false → s.fld (WHL_CFG cam) WHL_CFG_EDGE ≠ 3 → other = true →
        ∃ t, Sys2Proof.Machine.exec .camEdge s = .next t ∧ t.sync.phErr = s.sync.phErr + 1
        ∧ (s.sync.phErr + 1 < s.fld OBS_SCAM OBS_SCAM_NCONF → t = { s with sync := t.sync })
        ∧ (s.fld OBS_SCAM OBS_SCAM_NCONF ≤ s.sync.phErr + 1 → t.syncSt = 5 ∧ t.fld OBS_SCAUSE OBS_SCAUSE_CAUSE = 5))
      ∧ (s.fld OBS_SCFG OBS_SCFG_CAMEN = 1 → s.fires = true → hit = false → s.fld (WHL_CFG cam) WHL_CFG_EDGE ≠ 3 → other = false →
        ∃ t, Sys2Proof.Machine.exec .camEdge s = .next t
        ∧ t.fld OBS_SCNT OBS_SCNT_CAMERR = min (2 ^ OBS_SCNT_CAMERR.w - 1) (s.fld OBS_SCNT OBS_SCNT_CAMERR + 1)
        ∧ t.bit OBS_SEVT OBS_SEVT_CAMERR = true
        ∧ s.onlySends { t with sync := s.sync } [OBS_SCNT, OBS_SEVT] [evtItem OBS_SEVT OBS_SEVT_CAMERR])
      ∧ (s.fld OBS_SCFG OBS_SCFG_CAMEN = 1 → s.syncSt = 2 → hit ≠ other → ∃ t, Sys2Proof.Machine.exec .camEdge s = .next t
        ∧ t.sync.camW = (if s.fld OBS_SCAM OBS_SCAM_NCONF ≤ (if s.sync.camSide = some other then s.sync.camRun + 1 else 1) then t.angW else e.angle)
        ∧ (s.fld OBS_SCAM OBS_SCAM_NCONF ≤ (if s.sync.camSide = some other then s.sync.camRun + 1 else 1) →
            t.syncSt = 3 ∧ t.sync.byCmd = false ∧ t.angW = (if other then s.angW + BitVec.ofNat 32 (2 ^ 23) else s.angW))
        ∧ ((if s.sync.camSide = some other then s.sync.camRun + 1 else 1) < s.fld OBS_SCAM OBS_SCAM_NCONF →
            t = { s with sync := t.sync } ∧ t.sync.camSide = some other
            ∧ t.sync.camRun = (if s.sync.camSide = some other then s.sync.camRun + 1 else 1))))
    ∧ (∀ s : State,
      let due := s.fires && s.fld OBS_SCFG OBS_SCFG_CAMEN == 1 && !s.sync.camLost
        && wReached s.angW (s.sync.camW + BitVec.ofNat 32 (2 ^ 25))
      (due = true → ∃ t, Sys2Proof.Machine.exec .camloss s = .next t ∧ t.sync = { s.sync with camLost := true }
        ∧ t.bit OBS_SEVT OBS_SEVT_CAMLOSS = true ∧ s.onlySends { t with sync := s.sync } [OBS_SEVT] [evtItem OBS_SEVT OBS_SEVT_CAMLOSS])
      ∧ (due = false → Sys2Proof.Machine.exec .camloss s = .next s))
    ∧ (∀ s : State, (s.sync.secs = [] → Sys2Proof.Machine.exec .secondaryTooth s = .next s)
      ∧ ∀ x, s.sync.secs.head? = some x →
        let e := s.secError s.sync.sec x.1 x.2
        ∃ t, Sys2Proof.Machine.exec .secondaryTooth s = .next t ∧ t.sync.secs = s.sync.secs.tail ∧ t.reg OBS_SDIFF = BitVec.ofInt 32 e
          ∧ (e.natAbs ≤ s.fld OBS_SCFG OBS_SCFG_RTOL → t.sync.secIn = min 16 (s.sync.secIn + 1) ∧ t.sync.secOut = 0
              ∧ (15 ≤ s.sync.secIn → t.fld OBS_STATE OBS_STATE_AGREE = 1)
              ∧ (s.sync.secIn < 15 → t.reg OBS_STATE = s.reg OBS_STATE))
          ∧ (s.fld OBS_SCFG OBS_SCFG_RTOL < e.natAbs → t.sync.secIn = 0 ∧ t.sync.secOut = s.sync.secOut + 1
              ∧ (s.sync.secOut + 1 < s.fld OBS_SCFG OBS_SCFG_NMIS → t.reg OBS_STATE = s.reg OBS_STATE ∧ t.inflight = s.inflight)
              ∧ (s.fld OBS_SCFG OBS_SCFG_NMIS ≤ s.sync.secOut + 1 → t.fld OBS_STATE OBS_STATE_AGREE = 0
                  ∧ (s.fld OBS_STATE OBS_STATE_AGREE = 1 → t.bit OBS_SEVT OBS_SEVT_DISAGREE = true
                      ∧ faultItem blkOBS 0 0x12 clsC s.sync.sec ∈ t.inflight)))
          ∧ t.mem = s.mem ∧ t.obs = s.obs ∧ ∀ k, k ≠ OBS_SDIFF → k ≠ OBS_STATE → k ≠ OBS_SEVT → t.reg k = s.reg k))
  ∧ (
    (∀ s : State,
      (s.syncSt = 5 → ∃ t, Sys2Proof.Machine.exec .reseek s = .next t ∧ t.syncSt = 1 ∧ t.sync.search = {} ∧ t.fld OBS_FLAGS OBS_FLAGS_VALID = 0
        ∧ (∀ n : Fin 64, (t.pend n).testBit 0 = true) ∧ t.mem = s.mem ∧ t.calq = s.calq ∧ t.stage = s.stage)
      ∧ (s.syncSt ≠ 5 → ∃ t, Sys2Proof.Machine.exec .reseek s = .next t ∧ s.writeRefused t OBS_SCMD))
    ∧ (∀ s : State,
      (s.syncSt = 2 → (∃ t, Sys2Proof.Machine.exec .phaseKeep s = .next t ∧ t.syncSt = 3 ∧ t.sync.byCmd = true ∧ t.angW = s.angW
          ∧ t.fld OBS_STATE OBS_STATE_PHASE = 1 ∧ t.fld OBS_STATE OBS_STATE_SGEN = (s.fld OBS_STATE OBS_STATE_SGEN + 1) % 256
          ∧ t.bit OBS_SEVT OBS_SEVT_FULL = true
          ∧ ∀ a ∈ t.calq ++ t.stage, a.place = .waiting → wReached s.angW a.w0 = false)
        ∧ ∃ t, Sys2Proof.Machine.exec .phaseAdd s = .next t ∧ t.syncSt = 3 ∧ t.sync.byCmd = true
          ∧ t.angW = s.angW + BitVec.ofNat 32 (2 ^ 23) ∧ t.bit OBS_SEVT OBS_SEVT_FULL = true)
      ∧ (s.syncSt ≠ 2 → (∃ t, Sys2Proof.Machine.exec .phaseKeep s = .next t ∧ s.writeRefused t OBS_SCMD)
        ∧ ∃ t, Sys2Proof.Machine.exec .phaseAdd s = .next t ∧ s.writeRefused t OBS_SCMD))
    ∧ (∀ s : State,
      (s.syncSt = 3 → s.fld OBS_STATE OBS_STATE_AGREE = 1 → s.sync.sec < 6 → ∃ t, Sys2Proof.Machine.exec .swapSource s = .next t
        ∧ t.srcWheel = s.sync.sec ∧ t.sync.sec = s.srcWheel ∧ t.syncSt = 4 ∧ t.fld OBS_STATE OBS_STATE_HOLDN = 16
        ∧ t.angW = s.angW ∧ t.bit OBS_SEVT OBS_SEVT_SWITCH = true ∧ t.bit OBS_SEVT OBS_SEVT_HOLD = true ∧ t.obs.pred = none
        ∧ t.fld OBS_STATE OBS_STATE_AGREE = 0 ∧ t.mem = s.mem ∧ t.calq = s.calq ∧ t.stage = s.stage)
      ∧ (s.syncSt ≠ 3 ∨ s.fld OBS_STATE OBS_STATE_AGREE = 0 →
        ∃ t, Sys2Proof.Machine.exec .swapSource s = .next t ∧ s.writeRefused t OBS_SCMD))
    ∧ (∀ s : State,
      (s.fires = true → ∃ t, Sys2Proof.Machine.exec .dropSync s = .next t ∧ t.syncSt = 5
        ∧ t.fld OBS_SCAUSE OBS_SCAUSE_CAUSE = 7 ∧ t.fld OBS_SCAUSE OBS_SCAUSE_FROM = s.syncSt ∧ t.reg OBS_SLOSTA = s.angW
        ∧ t.fld OBS_SCNT OBS_SCNT_LOST = min (2 ^ OBS_SCNT_LOST.w - 1) (s.fld OBS_SCNT OBS_SCNT_LOST + 1)
        ∧ t.bit OBS_SEVT OBS_SEVT_LOST = true ∧ faultItem blkOBS 0 0x10 clsU 7 ∈ t.inflight ∧ t.fld OBS_FLAGS OBS_FLAGS_VALID = 0
        ∧ ∀ a ∈ t.calq ++ t.stage, a.place ≠ .waiting ∧ a.place ≠ .held)
      ∧ (s.fires = false → ∃ t, Sys2Proof.Machine.exec .dropSync s = .next t ∧ s.writeRefused t OBS_SCMD)))

/-- R174 to R177, R180, R181, R198, R201, R203, R209: a policy target's write of word 3 posts its descriptor, accepted or refused, with the
result in its port; its abort travels to the output unit, where the oldest gives its status. Where the angle enters a bucket the calendar walks
the next. It releases the earliest entry walked, the first accepted of equal ones, to the end of its stage; while that is full or its account
has no carat the release waits, counted. CAL_CTRL.EN = 0 cancels every action that has not started; the counters and BMAX have their clears. -/
def Obligations.CalendarFlow : Prop :=
  (∀ (p : Fin 4) (w : Word) (s : State),
    let a : Action := { w0 := s.reg (CAL_PPD0 p), w1 := s.reg (CAL_PPD1 p), w2 := s.reg (CAL_PPD2 p), w3 := w, poster := 64 + p }
    (s.refusal a = none → ∃ t, Sys2Proof.Machine.exec (.policyPost p w) s = .next t
      ∧ s.posted t a.w0 a.w1 a.w2 a.w3 (64 + p) (t.reg (CAL_PPRES p))
      ∧ t.reg (CAL_PPD3 p) = w ∧ t.inflight = s.inflight
      ∧ ∀ k, k ≠ CAL_PPD3 p → k ≠ CAL_PPRES p → k ≠ CAL_USED → k ≠ CAL_BMAX → t.reg k = s.reg k)
    ∧ ∀ st, s.refusal a = some st → ∃ t, Sys2Proof.Machine.exec (.policyPost p w) s = .next t
      ∧ s.unposted t st (t.reg (CAL_PPRES p)) ∧ t.reg (CAL_PPD3 p) = w
      ∧ ∀ k, k ≠ CAL_PPD3 p → k ≠ CAL_PPRES p → k ≠ CAL_CNT1 → k ≠ CAL_EVT → t.reg k = s.reg k)
  ∧ (∀ (p : Fin 4) (h : Word) (s : State), ∃ t, Sys2Proof.Machine.exec (.policyAbort p h) s = .next t
      ∧ t = { s with regs := t.regs, aborts := s.aborts ++ [(p.val, h)] } ∧ ∀ k, t.reg k = s.reg k)
  ∧ (∀ s : State, (s.aborts = [] → Sys2Proof.Machine.exec .abortArrival s = .next s)
    ∧ ∀ x, s.aborts.head? = some x → ∀ st, s.abortStatus x.2 st →
      ∃ t, Sys2Proof.Machine.exec .abortArrival s = .next t ∧ t.aborts = s.aborts.tail
        ∧ t.reg (CAL_PPCRES x.1) = BitVec.ofNat 32 st ∧ s.aborted t x.2 st)
  ∧ (∀ s : State,
    (∀ w, s.walked = some w →
      (s.fires = true → wLater ((s.angW &&& 0xFFFFF000) + 0x1FFF) w = true →
        Sys2Proof.Machine.exec .bucketWalk s = .next { s with walked := some ((s.angW &&& 0xFFFFF000) + 0x1FFF) })
      ∧ (s.fires = false ∨ wLater ((s.angW &&& 0xFFFFF000) + 0x1FFF) w = false → Sys2Proof.Machine.exec .bucketWalk s = .next s))
    ∧ (s.walked = none → Sys2Proof.Machine.exec .bucketWalk s = .next s))
  ∧ (∀ s : State,
    ((∀ a ∈ s.calq, s.dueForRelease a = false) → Sys2Proof.Machine.exec .actionRelease s = .next s)
    ∧ ∀ a, earliest (s.calq.filter s.dueForRelease) = some a →
      let full := decide (stageDepth a.stageNo ≤ (s.stage.filter fun b => b.stageNo == a.stageNo && (b.place == .waiting || b.place == .held)).length)
      a ∈ s.calq ∧ s.dueForRelease a = true ∧ (∀ x : Word, (∀ b ∈ s.calq, s.dueForRelease b = true → (b.w0 - x).toNat < 2 ^ 31) →
          ∀ b ∈ s.calq, s.dueForRelease b = true → (a.w0 - x).toNat ≤ (b.w0 - x).toNat)
      ∧ (full = false → s.budHas (s.binding 0) resFABRIC 1 = true → ∃ t, Sys2Proof.Machine.exec .actionRelease s = .next t
        ∧ t = { s with calq := s.calq.filter (fun b => b.idx != a.idx), stage := t.stage, meters := t.meters }
        ∧ t.stage = s.stage ++ [{ a with late := wReached (s.compared a) a.w0 && !s.onJumpAngle a }])
      ∧ (full = true ∨ s.budHas (s.binding 0) resFABRIC 1 = false → ∃ t, Sys2Proof.Machine.exec .actionRelease s = .next t
        ∧ t = { s with regs := t.regs, inflight := s.inflight ++ [evtItem CAL_EVT CAL_EVT_RSTALL], meters := t.meters }
        ∧ (t.reg CAL_RSTALL).toNat = min (2 ^ 32 - 1) ((s.reg CAL_RSTALL).toNat + 1) ∧ t.bit CAL_EVT CAL_EVT_RSTALL = true
        ∧ ∀ k, k ≠ CAL_RSTALL → k ≠ CAL_EVT → t.reg k = s.reg k))
  ∧ (∀ s : State,
    (s.fld CAL_CTRL CAL_CTRL_EN = 1 → ∃ t, Sys2Proof.Machine.exec .calendarDisable s = .next t ∧ t.fld CAL_CTRL CAL_CTRL_EN = 0
      ∧ (∀ a ∈ t.calq ++ t.stage, a.place ≠ .waiting ∧ a.place ≠ .held)
      ∧ (∀ a ∈ s.calq ++ s.stage, a.place = .waiting → (∀ b ∈ s.calq ++ s.stage, b ≠ a → b.idx ≠ a.idx) →
          (tabGet (fun _ => ({} : CalEnt)) t.calEnt a.idx).st = 4)
      ∧ t.reg OUT_ENI = s.reg OUT_ENI ∧ t.reg OUT_ENG = s.reg OUT_ENG ∧ t.reg OUT_ENA = s.reg OUT_ENA)
    ∧ (s.fld CAL_CTRL CAL_CTRL_EN = 0 → ∃ t, Sys2Proof.Machine.exec .calendarDisable s = .next t
      ∧ t = { s with regs := t.regs } ∧ ∀ k, t.reg k = s.reg k))
  ∧ (∀ s : State, (∃ t, Sys2Proof.Machine.exec .calClrCnt s = .next t ∧ t.reg CAL_CNT0 = 0 ∧ t.reg CAL_CNT1 = 0 ∧ t.reg CAL_RSTALL = 0
      ∧ s.onlyRegs t [CAL_CNT0, CAL_CNT1, CAL_RSTALL])
    ∧ ∃ t, Sys2Proof.Machine.exec .calClrBmax s = .next t ∧ t.reg CAL_BMAX = 0 ∧ s.onlyRegs t [CAL_BMAX])

/-- R182, R184 to R189: a released action that is due fires in this slot: an INJ start is dispatched with its slot and t_min 64 slots ahead,
an ignition or pulse pin leaves idle, an edge takes its level, a message goes into its queue, a trigger pulses its line, a sample goes to its
converter, and an event is retired DONE or LATE. A start whose channel is occupied is held, with DEFER, until it may proceed late; beyond its
limit a late action is dropped with no edge. Before it is due nothing happens. (A released action has a legal channel, R173.)
R33, R163, R186, R187, R191, R194, R196, R200: an INJ end command leaves once t_end lies at most 64 slots ahead, an ignition or pin pulse
ends at t_end with its spark, or by soft shutdown if that is suppressed. A soft shutdown ends after 5 ms. A CYC channel leaves idle at SET and
returns at CLR, 40 ns late after a jump over both. A write that clears a channel's enable cancels what it holds, ends its pulse and rests its pin
at idle. -/
def Obligations.ActionsAndPulses : Prop :=
  (
    (∀ (i : Nat) (s : State), (s.staged i = none → Sys2Proof.Machine.exec (.actionFire i) s = .next s
        ∧ Sys2Proof.Machine.exec (.deferredStart i) s = .next s)
      ∧ ∀ a, s.staged i = some a → a.chanOk = true →
        let busy := a.isPulse && (s.channelBusy a (s.now + a.lead) || s.heldBefore a)
        let drop := a.late && a.limit != 255 && decide (1024 * a.limit < (wDiff (s.compared a) a.w0).toNat)
        let ts := s.now + a.lead
        (s.isDue a = false → Sys2Proof.Machine.exec (.actionFire i) s = .next s)
        ∧ (s.isDue a = true → busy = true → ∃ t, Sys2Proof.Machine.exec (.actionFire i) s = .next t
          ∧ t.bit OUT_EVT OUT_EVT_DEFER = true ∧ t.stage = (s.stage.map fun b => if b.idx = a.idx then { b with place := .held } else b)
          ∧ s.onlySends { t with stage := s.stage } [OUT_EVT] [evtItem OUT_EVT OUT_EVT_DEFER])
        ∧ (s.isDue a = true → busy = false → drop = true → ∃ t, Sys2Proof.Machine.exec (.actionFire i) s = .next t
          ∧ (∀ b ∈ t.calq ++ t.stage, b.idx ≠ a.idx) ∧ (tabGet (fun _ => ({} : CalEnt)) t.calEnt a.idx).st = 3
          ∧ t.fld CAL_CNT0 CAL_CNT0_DROP = min (2 ^ CAL_CNT0_DROP.w - 1) (s.fld CAL_CNT0 CAL_CNT0_DROP + 1) ∧ t.bit CAL_EVT CAL_EVT_DROP = true
          ∧ t.reg OUT_ACTI = s.reg OUT_ACTI ∧ t.reg OUT_ACTG = s.reg OUT_ACTG ∧ t.reg OUT_LVLA = s.reg OUT_LVLA)
        ∧ (s.isDue a = true → busy = false → drop = false → a.isPulse = true → ∃ t, Sys2Proof.Machine.exec (.actionFire i) s = .next t
          ∧ (∃ b ∈ t.stage, b.idx = a.idx ∧ b.place = .active ∧ b.late = a.late ∧ b.startW = s.compared a ∧ b.ts = ts
              ∧ b.tmin = ts + a.minDur * 4 ^ (a.scale + 1) ∧ b.tmax = ts + a.maxDur * 4 ^ (a.scale + 1)
              ∧ b.ta = (if wReached (s.compared a) a.endAngle then some ts else none))
          ∧ (a.kind = 0 → t.bit OUT_ACTI a.chan = true
              ∧ ⟨.angle, .drive, .injStart a.chan a.prof ts (ts + a.minDur * 4 ^ (a.scale + 1))⟩ ∈ t.inflight)
          ∧ (a.kind = 1 → t.bit OUT_ACTG a.chan = true) ∧ (a.kind = 2 → t.bit OUT_LVLA a.chan = !s.aoutIdle a.chan)
          ∧ t.mem = s.mem ∧ t.calq = s.calq)
        ∧ (s.isDue a = true → drop = false → a.isPulse = false → a.kind ≠ 5 → ∃ t, Sys2Proof.Machine.exec (.actionFire i) s = .next t
          ∧ (∀ b ∈ t.calq ++ t.stage, b.idx ≠ a.idx)
          ∧ (tabGet (fun _ => ({} : CalEnt)) t.calEnt a.idx).st = (if a.late then 2 else 1)
          ∧ (a.kind = 3 → t.bit OUT_LVLA a.chan = (a.level != s.aoutIdle a.chan))
          ∧ (a.kind = 4 → ⟨.angle, .converter, .sample a.chan (s.now + 16) a.late a.w2 a.w3⟩ ∈ t.inflight)
          ∧ (a.kind = 6 → ∀ d ∈ [Island.angle, .fabric, .converter, .timer, .drive, .link], ⟨.angle, d, .trigger a.chan⟩ ∈ t.inflight))
        ∧ (s.isDue a = true → drop = false → a.kind = 5 →
          let r := if s.fld (QUE_QCFG a.chan) QUE_QCFG_EN = 0 then 2 else if s.qDepth a.chan ≤ s.qCount a.chan then 1 else 0
          ∃ t, Sys2Proof.Machine.exec (.actionFire i) s = .next t
          ∧ (tabGet (fun _ => ({} : CalEnt)) t.calEnt a.idx).st = (if r = 0 then if a.late then 2 else 1 else 3)
          ∧ (a.rep = false → s.fld (QUE_QCFG a.chan) QUE_QCFG_LOG2 ≤ 16 → s.queued t a.chan (wordsToBytes [s.angW, a.w1, a.w2, a.w3]) r))
        ∧ (a.place ≠ .held ∨ s.fires = false ∨ s.channelBusy a ts = true ∨ s.heldBefore a = true →
            Sys2Proof.Machine.exec (.deferredStart i) s = .next s)
        ∧ (a.place = .held → s.fires = true → s.channelBusy a ts = false → s.heldBefore a = false → a.isPulse = true →
          (a.limit = 255 ∨ (wDiff (s.compared a) a.w0).toNat ≤ 1024 * a.limit → ∃ t, Sys2Proof.Machine.exec (.deferredStart i) s = .next t
            ∧ ∃ b ∈ t.stage, b.idx = a.idx ∧ b.place = .active ∧ b.late = true ∧ b.defer = true ∧ b.ts = ts)
          ∧ (a.limit ≠ 255 → 1024 * a.limit < (wDiff (s.compared a) a.w0).toNat →
            ∃ t, Sys2Proof.Machine.exec (.deferredStart i) s = .next t ∧ (∀ b ∈ t.calq ++ t.stage, b.idx ≠ a.idx)
            ∧ (tabGet (fun _ => ({} : CalEnt)) t.calEnt a.idx).st = 3 ∧ t.bit CAL_EVT CAL_EVT_DEFER = true))))
  ∧ (
    (∀ (i : Nat) (s : State), (s.staged i = none → Sys2Proof.Machine.exec (.injEndDispatch i) s = .next s
        ∧ Sys2Proof.Machine.exec (.pulseEnd i) s = .next s)
      ∧ ∀ a, s.staged i = some a → a.chanOk = true →
        (a.kind = 0 → a.place = .active →
          (s.now + 64 < a.tEnd → Sys2Proof.Machine.exec (.injEndDispatch i) s = .next s)
          ∧ (a.tEnd ≤ s.now + 64 → ∃ t, Sys2Proof.Machine.exec (.injEndDispatch i) s = .next t
            ∧ ⟨.angle, .drive, .injEnd a.chan a.tEnd false⟩ ∈ t.inflight ∧ t.bit OUT_ACTI a.chan = false
            ∧ (t.outOf a.chan).lastEnd = some a.tEnd ∧ (∀ b ∈ t.calq ++ t.stage, b.idx ≠ a.idx)
            ∧ (tabGet (fun _ => ({} : CalEnt)) t.calEnt a.idx).st = (if a.late then 2 else 1)))
        ∧ (a.kind = 0 → a.place = .ending → a.endLocal = false →
          (s.now + 64 < a.tmin → Sys2Proof.Machine.exec (.injEndDispatch i) s = .next s)
          ∧ (a.tmin ≤ s.now + 64 → ∃ t, Sys2Proof.Machine.exec (.injEndDispatch i) s = .next t
            ∧ ⟨.angle, .drive, .injEnd a.chan a.tmin true⟩ ∈ t.inflight ∧ (tabGet (fun _ => ({} : CalEnt)) t.calEnt a.idx).st = a.endSt))
        ∧ (a.kind = 0 → a.place = .ending → a.endLocal = true →
          (s.now < a.tmin → Sys2Proof.Machine.exec (.injEndDispatch i) s = .next s)
          ∧ (a.tmin ≤ s.now → ∃ t, Sys2Proof.Machine.exec (.injEndDispatch i) s = .next t
            ∧ (t.outOf a.chan).lastEnd = some a.tmin ∧ (tabGet (fun _ => ({} : CalEnt)) t.calEnt a.idx).st = a.endSt))
        ∧ (a.kind ≠ 0 → Sys2Proof.Machine.exec (.injEndDispatch i) s = .next s)
        ∧ (a.kind = 0 ∨ a.place ≠ .active ∨ s.now < a.tEnd → Sys2Proof.Machine.exec (.pulseEnd i) s = .next s)
        ∧ (a.kind = 1 → a.place = .active → a.tEnd ≤ s.now → ¬s.suppressed a →
          ∃ t, Sys2Proof.Machine.exec (.pulseEnd i) s = .next t
          ∧ t.bit OUT_ACTG a.chan = false ∧ (t.outOf (12 + a.chan)).lastEnd = some a.tEnd ∧ (t.outOf (12 + a.chan)).soft = (s.outOf (12 + a.chan)).soft)
        ∧ (a.kind = 1 → a.place = .active → a.tEnd ≤ s.now → s.suppressed a →
          ∃ t, Sys2Proof.Machine.exec (.pulseEnd i) s = .next t ∧ t.bit OUT_ACTG a.chan = false
          ∧ (t.outOf (12 + a.chan)).soft = some s.now ∧ t.bit OUT_SOFTG a.chan = true ∧ t.bit OUT_EVT OUT_EVT_SOFT = true
          ∧ (tabGet (fun _ => ({} : CalEnt)) t.calEnt a.idx).st = 9)
        ∧ (a.kind = 2 → a.place = .active → a.tEnd ≤ s.now → ∃ t, Sys2Proof.Machine.exec (.pulseEnd i) s = .next t
          ∧ t.bit OUT_LVLA a.chan = s.aoutIdle a.chan ∧ (t.outOf (36 + a.chan)).lastEnd = some a.tEnd
          ∧ (tabGet (fun _ => ({} : CalEnt)) t.calEnt a.idx).st = (if a.late then 2 else 1)))
    ∧ (∀ (n : Fin 24) (s : State), ((s.outOf (12 + n)).soft = none → Sys2Proof.Machine.exec (.softShutdownEnd n) s = .next s)
      ∧ ∀ x, (s.outOf (12 + n)).soft = some x →
        (s.now < x + 2000000 → Sys2Proof.Machine.exec (.softShutdownEnd n) s = .next s)
        ∧ (x + 2000000 ≤ s.now → ∃ t, Sys2Proof.Machine.exec (.softShutdownEnd n) s = .next t
          ∧ (t.outOf (12 + n)).soft = none ∧ (t.outOf (12 + n)).lastEnd = some (x + 2000000) ∧ t.bit OUT_SOFTG n = false
          ∧ s.onlyRegs { t with outCh := s.outCh } [OUT_SOFTG]))
    ∧ (∀ (n : Fin 16) (s : State),
      (s.setDue n = true → ∃ t, Sys2Proof.Machine.exec (.cycCompare n false) s = .next t ∧ t.bit OUT_LVLA n = !s.aoutIdle n
        ∧ (t.cycOf n).setFrom = s.angW ∧ (t.cycOf n).clrFrom = (s.cycOf n).clrFrom ∧ t.mem = s.mem)
      ∧ (s.setDue n = false → Sys2Proof.Machine.exec (.cycCompare n false) s = .next s)
      ∧ (s.clrDue n = true → ∃ t, Sys2Proof.Machine.exec (.cycCompare n true) s = .next t ∧ t.bit OUT_LVLA n = s.aoutIdle n
        ∧ (t.cycOf n).clrFrom = s.angW ∧ (t.cycOf n).setFrom = (s.cycOf n).setFrom ∧ t.mem = s.mem)
      ∧ (s.clrDue n = false → Sys2Proof.Machine.exec (.cycCompare n true) s = .next s)
      ∧ ((s.cycOf n).ret = none → Sys2Proof.Machine.exec (.cycReturnDelayed n) s = .next s)
      ∧ ∀ x, (s.cycOf n).ret = some x →
        (s.now < x → Sys2Proof.Machine.exec (.cycReturnDelayed n) s = .next s)
        ∧ (x ≤ s.now → ∃ t, Sys2Proof.Machine.exec (.cycReturnDelayed n) s = .next t ∧ t.bit OUT_LVLA n = s.aoutIdle n
          ∧ (t.cycOf n).ret = none ∧ t.mem = s.mem))
    ∧ (∀ (w : Word) (s : State) (c : Nat),
      (c < 12 → (s.d2dUp = true ∨ (w &&& ~~~s.reg OUT_ENI).toNat % 4096 = 0) → s.bit OUT_ENI c = true → bitOf w c = false →
        ∃ t, Sys2Proof.Machine.exec (.channelDisable 0 w) s = .next t ∧ t.bit OUT_ENI c = false
        ∧ ∀ a ∈ t.calq ++ t.stage, a.channel = some c → a.place ≠ .waiting ∧ a.place ≠ .held)
      ∧ (s.d2dUp = false → (w &&& ~~~s.reg OUT_ENI).toNat % 4096 ≠ 0 →
        ∃ t, Sys2Proof.Machine.exec (.channelDisable 0 w) s = .next t ∧ s.writeRefused t OUT_ENI)
      ∧ (c < 24 → s.bit OUT_ENG c = true → bitOf w c = false → ∃ t, Sys2Proof.Machine.exec (.channelDisable 1 w) s = .next t
        ∧ t.bit OUT_ENG c = false
        ∧ ∀ a ∈ t.calq ++ t.stage, a.channel = some (12 + c) → a.place ≠ .waiting ∧ a.place ≠ .held)
      ∧ (c < 16 → s.echoOwns c = false → s.bit OUT_ENA c = true → bitOf w c = false →
        ∃ t, Sys2Proof.Machine.exec (.channelDisable 2 w) s = .next t ∧ t.bit OUT_ENA c = false ∧ t.bit OUT_LVLA c = s.aoutIdle c
        ∧ ∀ a ∈ t.calq ++ t.stage, a.channel = some (36 + c) → a.place ≠ .waiting ∧ a.place ≠ .held)))

/-- R11 to R13, R38, R552: a register write outside the static legal range of a field is refused whole, in every block; a write to an offset
that holds no register does nothing, and one outside the register blocks is a bus error of the fabric. A write of 1 clears the event bits it
names; CAL_BASE, written only while the calendar is disabled, takes its value then and is refused or unchanged otherwise.
R281, R282, R306, R308, R311: a comparator halts its pair, once, with a U-class message. After a reset the boot ROM clears SRAM and runs:
either it starts all four pairs at level S from a code and a calibration image that pass verification, with the envelopes, the fault collector
and the booted slots locked, or it enters RECOVERY with no pair started. A restarted pair enters its entry point only if the digest of the
booted image is right. -/
def Obligations.RegisterWritesAndBoot : Prop :=
  (
    (∀ (m : Master) (x : BitVec 30) (w : Word) (s : State), regionOf (4 * x.toNat) = .regs → blkOf (4 * x.toNat) ≠ 8 → blkOf (4 * x.toNat) ≠ 22 →
      (∀ r, rowFind (blockRows (blkOf (4 * x.toNat))) (4 * x.toNat % 0x10000) = some r → fieldsLegal r.1.flds w = false →
        ∃ t, Sys2Proof.Machine.exec (.registerWrite m x w) s = .next t ∧ s.writeRefused t (4 * x.toNat))
      ∧ ((rowFind (blockRows (blkOf (4 * x.toNat))) (4 * x.toNat % 0x10000)).isNone = true → Sys2Proof.Machine.exec (.registerWrite m x w) s = .next s))
    ∧ (∀ (m : Master) (x : BitVec 30) (w : Word) (s : State), regionOf (4 * x.toNat) ≠ .regs →
      ∃ t, Sys2Proof.Machine.exec (.registerWrite m x w) s = .next t ∧ s.onlySends t [] [faultItem blkFABRIC 0 0x07 clsC (4 * x.toNat)])
    ∧ (∀ (m : Master) (w : Word) (s : State), ∃ t, Sys2Proof.Machine.exec (.registerWrite m (BitVec.ofNat 30 (WHL_EVT / 4)) w) s = .next t
        ∧ t.reg WHL_EVT = s.reg WHL_EVT &&& ~~~w ∧ s.onlyRegs t [WHL_EVT])
    ∧ (∀ (m : Master) (w : Word) (s : State), 256 ≤ CAL_BASE_BASE.get w → CAL_BASE_BASE.get w ≤ 259 →
      (s.fld CAL_CTRL CAL_CTRL_EN = 0 ∨ CAL_BASE_BASE.get w = s.fld CAL_BASE CAL_BASE_BASE →
        ∃ t, Sys2Proof.Machine.exec (.registerWrite m (BitVec.ofNat 30 (CAL_BASE / 4)) w) s = .next t
          ∧ t.fld CAL_BASE CAL_BASE_BASE = CAL_BASE_BASE.get w ∧ s.onlyRegs t [CAL_BASE])
      ∧ (s.fld CAL_CTRL CAL_CTRL_EN = 1 → CAL_BASE_BASE.get w ≠ s.fld CAL_BASE CAL_BASE_BASE →
        ∃ t, Sys2Proof.Machine.exec (.registerWrite m (BitVec.ofNat 30 (CAL_BASE / 4)) w) s = .next t ∧ s.writeRefused t CAL_BASE)))
  ∧ (
    (∀ (p : Fin 4) (s : State), ((s.pair p).run = .held → Sys2Proof.Machine.exec (.lockstep p) s = .next s)
      ∧ ((s.pair p).run ≠ .held → ∃ t, Sys2Proof.Machine.exec (.lockstep p) s = .next t ∧ t.pair p = { s.pair p with run := .held }
        ∧ (∀ q : Fin 4, q ≠ p → t.pair q = s.pair q)
        ∧ s.onlySends { t with pairs := s.pairs } [] [faultItem blkPAIR p 0x10 clsU (s.ppc p).toNat]))
    ∧ (∀ s : State,
      (s.unitRuns = false ∨ s.boot.done = true → Sys2Proof.Machine.exec .bootRom s = .next s)
      ∧ (s.unitRuns = true → s.boot.done = false → ∃ t, Sys2Proof.Machine.exec .bootRom s = .next t ∧ t.boot.done = true
        ∧ ((t.boot.recovery = true ∧ t.pairs = s.pairs ∧ t.bit SPI_STAT 16 = true
            ∧ (faultItem blkPAIR 0 0x13 clsU 1 ∈ t.inflight ∨ faultItem blkPAIR 0 0x13 clsU 2 ∈ t.inflight)
            ∧ ∀ a, 0x20000000 ≤ a → a < 0x20800000 → t.rd8 a = 0)
          ∨ (t.boot.recovery = s.boot.recovery ∧ t.boot.slot < 2 ∧ t.boot.cslot < 2
            ∧ s.slotOk false t.boot.slot = true ∧ s.slotOk true t.boot.cslot = true
            ∧ (∀ p : Fin 4, (t.pair p).run = .run ∧ t.csr p csSTATUS = 2)
            ∧ t.fld AEN_ELOCK AEN_ELOCK_LOCK = 1 ∧ t.fld FLT_CTRL FLT_CTRL_LOCK = 1
            ∧ t.bit QUE_MPROT (slotProt false t.boot.slot) = true ∧ t.bit QUE_MPROT (slotProt true t.boot.cslot) = true))))
    ∧ (∀ (p : Fin 4) (s : State),
      (s.unitRuns = true → s.boot.done = true → s.boot.recovery = false → (s.pair p).run = .boot → s.digestOk (slotBase false s.boot.slot) = true →
        ∃ t, Sys2Proof.Machine.exec (.pairRestartDone p) s = .next t ∧ t.pair p = { s.pair p with run := .run } ∧ t.csr p csSTATUS = 2
          ∧ (∀ q : Fin 4, q ≠ p → t.pair q = s.pair q ∧ t.ppc q = s.ppc q) ∧ t.inflight = s.inflight ∧ t.boot = s.boot)
      ∧ (s.unitRuns = false ∨ s.boot.recovery = true ∨ (s.pair p).run ≠ .boot ∨ s.digestOk (slotBase false s.boot.slot) = false →
        Sys2Proof.Machine.exec (.pairRestartDone p) s = .next s)))

/-- R288, R289, R291, R292, R314: a scrub read of a clean word changes nothing but the pass count, with the last word; a corrected word is
counted with its event and a C-class message, an uncorrectable one with a U-class message; MRAM charges the rewrite. A line write takes its
source and target, refused while one runs; done, it has written its 32 bytes, or none where it was certain to fail, with its result, and waits
while its account has no write slot. -/
def Obligations.MemoryUpkeep : Prop :=
  (∀ (x : BitVec 20) (s : State), s.flt.armed = none →
    (∃ t, Sys2Proof.Machine.exec (.sramScrubRead x .clean) s = .next t
      ∧ t.fld QUE_SCRUB QUE_SCRUB_SPASS = (if x.toNat = 2 ^ 20 - 1 then (s.fld QUE_SCRUB QUE_SCRUB_SPASS + 1) % 65536 else s.fld QUE_SCRUB QUE_SCRUB_SPASS)
      ∧ s.onlyRegs t [QUE_SCRUB])
    ∧ (∀ y, ∃ t, Sys2Proof.Machine.exec (.sramScrubRead x (.corrected y)) s = .next t
      ∧ t.fld QUE_SECC QUE_SECC_CORR = min 65535 (s.fld QUE_SECC QUE_SECC_CORR + 1) ∧ t.bit QUE_EVT QUE_EVT_ECCC = true
      ∧ s.onlySends t [QUE_SECC, QUE_EVT, QUE_SCRUB] [evtItem QUE_EVT QUE_EVT_ECCC, faultItem blkQUE 0 0x03 clsC (0x20000000 + 8 * x.toNat)])
    ∧ (∀ y, ∃ t, Sys2Proof.Machine.exec (.sramScrubRead x (.uncorrectable y)) s = .next t
      ∧ t.fld QUE_SECC QUE_SECC_UNC = min 65535 (s.fld QUE_SECC QUE_SECC_UNC + 1) ∧ t.bit QUE_EVT QUE_EVT_ECCU = true
      ∧ s.onlySends t [QUE_SECC, QUE_EVT, QUE_SCRUB] [evtItem QUE_EVT QUE_EVT_ECCU, faultItem blkQUE 0 0x04 clsU (0x20000000 + 8 * x.toNat)]))
  ∧ (∀ (x : BitVec 20) (s : State), s.flt.armed = none → x.toNat < 786432 →
    (∃ t, Sys2Proof.Machine.exec (.mramScrubRead x .clean) s = .next t
      ∧ t.fld QUE_SCRUB QUE_SCRUB_MPASS = (if x.toNat = 786431 then (s.fld QUE_SCRUB QUE_SCRUB_MPASS + 1) % 65536 else s.fld QUE_SCRUB QUE_SCRUB_MPASS)
      ∧ s.onlyRegs t [QUE_SCRUB])
    ∧ (∀ y, ∃ t, Sys2Proof.Machine.exec (.mramScrubRead x (.corrected y)) s = .next t
      ∧ t.fld QUE_MECC QUE_MECC_CORR = min 65535 (s.fld QUE_MECC QUE_MECC_CORR + 1) ∧ t.bit QUE_EVT QUE_EVT_ECCC = true
      ∧ t.meters = (s.budDraw (s.binding 7) resMRAM 1).meters
      ∧ s.onlySends { t with meters := s.meters } [QUE_MECC, QUE_EVT, QUE_SCRUB]
          [evtItem QUE_EVT QUE_EVT_ECCC, faultItem blkQUE 1 0x03 clsC (0x10000000 + 8 * x.toNat)])
    ∧ (∀ y, ∃ t, Sys2Proof.Machine.exec (.mramScrubRead x (.uncorrectable y)) s = .next t
      ∧ t.fld QUE_MECC QUE_MECC_UNC = min 65535 (s.fld QUE_MECC QUE_MECC_UNC + 1)
      ∧ s.onlySends t [QUE_MECC, QUE_EVT, QUE_SCRUB] [evtItem QUE_EVT QUE_EVT_ECCU, faultItem blkQUE 1 0x04 clsU (0x10000000 + 8 * x.toNat)]))
  ∧ (∀ (p : Fin 4) (s : State),
    (s.fld QUE_MSTAT QUE_MSTAT_BUSY = 1 → ∀ e, ∃ t, Sys2Proof.Machine.exec (.mramLineWrite p e) s = .next t ∧ s.writeRefused t QUE_MCMD)
    ∧ (s.fld QUE_MSTAT QUE_MSTAT_BUSY = 0 → s.flt.armed = none → ∃ t, Sys2Proof.Machine.exec (.mramLineWrite p .clean) s = .next t
      ∧ t.fld QUE_MSTAT QUE_MSTAT_BUSY = 1
      ∧ t.fabric = { s.fabric with line := some {
          by_ := some p.val, dst := 32 * s.fld QUE_MDST QUE_MDST_ADDR, data := s.rdBytes (32 * s.fld QUE_MSRC QUE_MSRC_ADDR) 32,
          result := match mprotBit (32 * s.fld QUE_MDST QUE_MDST_ADDR) with
            | none => 2
            | some b => if s.bit QUE_MPROT b then 1 else 0 } }
      ∧ s.onlyRegs { t with fabric := s.fabric } [QUE_MSTAT]))
  ∧ (∀ (s : State) (ok : Bool), (s.fabric.line = none → Sys2Proof.Machine.exec (.mramLineWriteDone ok) s = .next s)
    ∧ ∀ l, s.fabric.line = some l →
      (s.budHas (s.pairAcct l.by_) resMRAM 1 = false → ∃ t, Sys2Proof.Machine.exec (.mramLineWriteDone ok) s = .next t
        ∧ t = { s with meters := t.meters })
      ∧ (s.budHas (s.pairAcct l.by_) resMRAM 1 = true → ∃ t, Sys2Proof.Machine.exec (.mramLineWriteDone ok) s = .next t
        ∧ t.fabric.line = none ∧ t.fld QUE_MSTAT QUE_MSTAT_BUSY = 0
        ∧ t.fld QUE_MSTAT QUE_MSTAT_RESULT = (if l.result ≠ 0 then l.result % 8 else if ok then 0 else 3)
        ∧ (l.result ≠ 0 → t.mem = s.mem) ∧ (l.result = 0 → ok = true → t.mem = (s.wrBytes l.dst l.data).mem)
        ∧ (∀ k, l.data.length = 32 → (k < l.dst ∨ l.dst + 32 ≤ k) → t.rd8 k = s.rd8 k)
        ∧ t.bit QUE_EVT (if l.result = 0 ∧ ok = true then QUE_EVT_MDONE else QUE_EVT_MERR) = true
        ∧ ∀ k, k ≠ QUE_MSTAT → k ≠ QUE_EVT → t.reg k = s.reg k))

/-- R294 to R296, R313, R314: a policy target's write of word 3 puts its entry into the queue its port names, with the result; a pop takes the
smaller of its number and the count from the tail; a base, legal only where the ring fits SRAM and while the queue is disabled, starts it
empty. QUE_CLR clears the error counts.
R298 to R302, R314, R502: START checks the first descriptor of an idle, enabled channel, which then waits at it, or stands in ERR with
its cause; STOP makes it IDLE; both are refused where they do not apply. A trigger or SOFT starts a waiting channel, is held once by a
running one, counted and dropped after that, and has no effect on any other. A running channel moves its element, counts it, and at the end
of its last descriptor waits at the first; with no carat it waits. -/
def Obligations.QueuesAndDma : Prop :=
  (
    (∀ (p : Fin 4) (w : Word) (s : State), s.fld (QUE_QCFG (s.fld (QUE_PPQ p) QUE_PPQ_Q)) QUE_QCFG_LOG2 ≤ 16 →
      let q := s.fld (QUE_PPQ p) QUE_PPQ_Q
      let r := if s.fld (QUE_QCFG q) QUE_QCFG_EN = 0 then 2 else if s.qDepth q ≤ s.qCount q then 1 else 0
      ∃ t, Sys2Proof.Machine.exec (.queuePutPort p w) s = .next t
        ∧ s.queued t q (wordsToBytes [s.reg (QUE_PPD0 p), s.reg (QUE_PPD1 p), s.reg (QUE_PPD2 p), w]) r
        ∧ t.fld (QUE_PPRES p) QUE_PPRES_RESULT = r ∧ t.reg (QUE_PPD3 p) = w
        ∧ ∀ k, k ∉ [QUE_PPD3 p, QUE_PPRES p, QUE_QHEAD q, QUE_QCNT q, QUE_QDROP q, QUE_EVT] → (∀ n : Fin 64, k ≠ AEN_TSTAT n) → t.reg k = s.reg k)
    ∧ (∀ (n : Fin 32) (w : Word) (s : State), s.fld (QUE_QCFG n) QUE_QCFG_LOG2 ≤ 16 →
      (QUE_QPOP_K.get w ≤ 65536 → ∃ t, Sys2Proof.Machine.exec (.queuePop n w) s = .next t
        ∧ t.qCount n = s.qCount n - min (QUE_QPOP_K.get w) (s.qCount n)
        ∧ t.fld (QUE_QTAIL n) QUE_QTAIL_INDEX = (s.fld (QUE_QTAIL n) QUE_QTAIL_INDEX + min (QUE_QPOP_K.get w) (s.qCount n)) % s.qDepth n
        ∧ s.onlyRegs t [QUE_QTAIL n, QUE_QCNT n])
      ∧ (65536 < QUE_QPOP_K.get w → ∃ t, Sys2Proof.Machine.exec (.queuePop n w) s = .next t ∧ s.writeRefused t (QUE_QPOP n)))
    ∧ (∀ (n : Fin 32) (w : Word) (s : State),
      let size := 16 * 2 ^ s.fld (QUE_QCFG n) QUE_QCFG_LOG2
      let base := 16 * QUE_QBASE_BASE.get w
      (0x20000000 ≤ base → base + size ≤ 0x20800000 → base % size = 0 →
        (s.fld (QUE_QCFG n) QUE_QCFG_EN = 0 ∨ QUE_QBASE_BASE.get w = s.fld (QUE_QBASE n) QUE_QBASE_BASE) →
        ∃ t, Sys2Proof.Machine.exec (.queueBaseWrite n w) s = .next t ∧ t.fld (QUE_QBASE n) QUE_QBASE_BASE = QUE_QBASE_BASE.get w
          ∧ t.reg (QUE_QHEAD n) = 0 ∧ t.reg (QUE_QTAIL n) = 0 ∧ t.reg (QUE_QCNT n) = 0
          ∧ s.onlyRegs t [QUE_QBASE n, QUE_QHEAD n, QUE_QTAIL n, QUE_QCNT n])
      ∧ (base < 0x20000000 ∨ 0x20800000 < base + size ∨ base % size ≠ 0
          ∨ (s.fld (QUE_QCFG n) QUE_QCFG_EN = 1 ∧ QUE_QBASE_BASE.get w ≠ s.fld (QUE_QBASE n) QUE_QBASE_BASE) →
        ∃ t, Sys2Proof.Machine.exec (.queueBaseWrite n w) s = .next t ∧ s.writeRefused t (QUE_QBASE n)))
    ∧ (∀ s : State, ∃ t, Sys2Proof.Machine.exec .queClrEcc s = .next t ∧ t.reg QUE_SECC = 0 ∧ t.reg QUE_MECC = 0
        ∧ s.onlyRegs t [QUE_SECC, QUE_MECC]))
  ∧ (
    (∀ (c : Fin 16) (s : State), s.flt.armed = none →
      let a := 16 * s.fld (QUE_DDESC c) QUE_DDESC_ADDR
      let d := s.rdWords a 4
      (s.dmaState c ≠ 0 ∨ s.fld (QUE_DCFG c) QUE_DCFG_EN = 0 →
        ∃ t, Sys2Proof.Machine.exec (.dmaStart c .clean) s = .next t ∧ s.writeRefused t (QUE_DCMD c))
      ∧ (s.dmaState c = 0 → s.fld (QUE_DCFG c) QUE_DCFG_EN = 1 → 0x20000000 ≤ a → a < 0x20800000 → dmaLegal d = true →
        ∃ t, Sys2Proof.Machine.exec (.dmaStart c .clean) s = .next t ∧ t.dmaState c = 1 ∧ t.fld (QUE_DSTAT c) QUE_DSTAT_TPEND = 0
          ∧ t.dmaOf c = { desc := d, done := 0 } ∧ t.reg (QUE_DCUR c) = BitVec.ofNat 32 a ∧ t.reg (QUE_DREM c) = BitVec.ofNat 32 (dmaLen d)
          ∧ t = { s with regs := t.regs, meters := t.meters, fabric := t.fabric }
          ∧ ∀ k, k ∉ [QUE_DSTAT c, QUE_DCUR c, QUE_DREM c] → t.reg k = s.reg k)
      ∧ (s.dmaState c = 0 → s.fld (QUE_DCFG c) QUE_DCFG_EN = 1 → (a < 0x20000000 ∨ 0x20800000 ≤ a ∨ dmaLegal d = false) →
        ∃ t, Sys2Proof.Machine.exec (.dmaStart c .clean) s = .next t ∧ t.dmaState c = 3
          ∧ t.fld (QUE_DSTAT c) QUE_DSTAT_CAUSE = (if a < 0x20000000 ∨ 0x20800000 ≤ a then 2 else 1)
          ∧ t.bit QUE_EVT QUE_EVT_DERR = true
          ∧ t.inflight = s.inflight ++ [evtItem QUE_EVT QUE_EVT_DERR,
              faultItem blkQUE c 0x10 clsU (if a < 0x20000000 ∨ 0x20800000 ≤ a then 2 else 1)] ∧ t.mem = s.mem))
    ∧ (∀ (c : Fin 16) (s : State),
      (s.dmaState c ≠ 0 → ∃ t, Sys2Proof.Machine.exec (.dmaStop c) s = .next t ∧ t.dmaState c = 0
        ∧ t.fld (QUE_DSTAT c) QUE_DSTAT_TPEND = 0 ∧ s.onlyRegs t [QUE_DSTAT c])
      ∧ (s.dmaState c = 0 → (∃ t, Sys2Proof.Machine.exec (.dmaStop c) s = .next t ∧ s.writeRefused t (QUE_DCMD c))
        ∧ ∃ t, Sys2Proof.Machine.exec (.dmaSoft c .clean) s = .next t ∧ s.writeRefused t (QUE_DCMD c)))
    ∧ (∀ (c : Fin 16) (s : State) (soft : Bool), s.flt.armed = none → (soft = true ∨ s.fld (QUE_DCFG c) QUE_DCFG_TRIG < 32) →
      let r := if soft then Sys2Proof.Machine.exec (.dmaSoft c .clean) s else Sys2Proof.Machine.exec (.dmaTrigger c .clean) s
      let a := (s.reg (QUE_DCUR c)).toNat
      (s.dmaState c = 1 → 0x20000000 ≤ a → a < 0x20800000 → dmaLegal (s.rdWords a 4) = true →
        ∃ t, r = .next t ∧ t.dmaState c = 2 ∧ t.dmaOf c = { desc := s.rdWords a 4, done := 0 }
          ∧ t.mem = s.mem ∧ t.inflight = s.inflight)
      ∧ (s.dmaState c = 2 → s.fld (QUE_DSTAT c) QUE_DSTAT_TPEND = 0 → ∃ t, r = .next t
          ∧ t.fld (QUE_DSTAT c) QUE_DSTAT_TPEND = 1 ∧ t.dmaState c = 2 ∧ s.onlyRegs t [QUE_DSTAT c])
      ∧ (s.dmaState c = 2 → s.fld (QUE_DSTAT c) QUE_DSTAT_TPEND = 1 → ∃ t, r = .next t
          ∧ t.fld (QUE_DSTAT c) QUE_DSTAT_TOVR = min 255 (s.fld (QUE_DSTAT c) QUE_DSTAT_TOVR + 1) ∧ t.bit QUE_EVT QUE_EVT_TOVR = true
          ∧ s.onlySends t [QUE_DSTAT c, QUE_EVT] [evtItem QUE_EVT QUE_EVT_TOVR])
      ∧ (s.dmaState c = 3 → ∃ t, r = .next t ∧ t = { s with regs := t.regs } ∧ ∀ k, t.reg k = s.reg k))
    ∧ (∀ (c : Fin 16) (s : State), (s.fld (QUE_DCFG c) QUE_DCFG_TRIG = 32 ∨ s.dmaState c = 0) →
        Sys2Proof.Machine.exec (.dmaTrigger c .clean) s = .next s)
    ∧ (∀ (c : Fin 16) (s : State), (s.dmaState c ≠ 2 → Sys2Proof.Machine.exec (.dmaElementDone c .clean .clean) s = .next s)
      ∧ (s.dmaState c = 2 → s.flt.armed = none →
        let x := s.dmaOf c
        let z := dmaSize x.desc
        let src := dmaSrc x.desc + (if dmaBit x.desc 26 then x.done else 0)
        let dst := dmaDst x.desc + (if dmaBit x.desc 27 then x.done else 0)
        let need := sramBeats src + sramBeats dst
        (s.budHas (s.dmaAcct c) resFABRIC need = false → ∃ t, Sys2Proof.Machine.exec (.dmaElementDone c .clean .clean) s = .next t
          ∧ t = { s with meters := t.meters })
        ∧ (s.budHas (s.dmaAcct c) resFABRIC need = true → regionOf src = .none → ∃ t,
            Sys2Proof.Machine.exec (.dmaElementDone c .clean .clean) s = .next t ∧ t.dmaState c = 3
            ∧ t.fld (QUE_DSTAT c) QUE_DSTAT_CAUSE = 2 ∧ t.mem = s.mem)
        ∧ (s.budHas (s.dmaAcct c) resFABRIC need = true → (regionOf src = .mem .sram ∨ regionOf src = .mem .mram) → regionOf dst = .mem .sram →
            s.calOwns dst z = false → x.done + z < dmaLen x.desc → ∃ t,
            Sys2Proof.Machine.exec (.dmaElementDone c .clean .clean) s = .next t
            ∧ t.rdBytes dst z = s.rdBytes src z ∧ (∀ k, (k < dst ∨ dst + z ≤ k) → t.rd8 k = s.rd8 k)
            ∧ t.dmaOf c = { x with done := x.done + z } ∧ t.reg (QUE_DREM c) = BitVec.ofNat 32 (dmaLen x.desc - (x.done + z))
            ∧ t.inflight = s.inflight ∧ ∀ k, k ≠ QUE_DREM c → t.reg k = s.reg k)
        ∧ (s.budHas (s.dmaAcct c) resFABRIC need = true → (regionOf src = .mem .sram ∨ regionOf src = .mem .mram) → regionOf dst = .mem .sram →
            s.calOwns dst z = false → dmaLen x.desc ≤ x.done + z → dmaBit x.desc 29 = true → s.fld (QUE_DSTAT c) QUE_DSTAT_TPEND = 0 → ∃ t,
            Sys2Proof.Machine.exec (.dmaElementDone c .clean .clean) s = .next t
            ∧ t.rdBytes dst z = s.rdBytes src z ∧ t.dmaState c = 1
            ∧ t.reg (QUE_DCUR c) = BitVec.ofNat 32 (16 * s.fld (QUE_DDESC c) QUE_DDESC_ADDR)
            ∧ (dmaBit x.desc 28 = true → t.bit QUE_EVT QUE_EVT_DDONE = true)))))

/-- R318 to R328: a message counts its source and sets it pending, whatever else stands; the doorbell raises the sixteen software sources
alone. A claim by the target itself takes the deliverable source of highest priority, the lowest number among equals, moves it in service
and starts the hold-off of its group; with none deliverable it reads 0, and for any other master it is a bus error. Only the target that
claimed a source completes it. The pending, mask and counter bits named by a write, and no others, change.
R333: an enabled converter sends its pin's message when the pin is or becomes asserted, only counts further assertions while it is
SENT, and on completion resends without counting while the pin is asserted and is QUIET otherwise; disabling it sends nothing. A filtered
assertion pulses the trigger lines that select it. POL and FILT are written only while EN is 0. -/
def Obligations.InterruptsAndPins : Prop :=
  (
    (∀ (src : Island) (s : State) (n : Nat) (c p : Bool), s.nextItem src .policy = some (.irq n c p) → src ≠ .drive → n < 512 →
      ∃ t, Sys2Proof.Machine.exec (.irqMessage src) s = .next t
        ∧ t.fld (IRQ_CNT (n / 4)) (cntFld n) = (if c then min 255 (s.fld (IRQ_CNT (n / 4)) (cntFld n) + 1) else s.fld (IRQ_CNT (n / 4)) (cntFld n))
        ∧ t.isPend n = (p || s.isPend n) ∧ t = { s with regs := t.regs, inflight := dropFirstItem src .policy s.inflight }
        ∧ (∀ m, m < 512 → m ≠ n → t.isPend m = s.isPend m ∧ t.fld (IRQ_CNT (m / 4)) (cntFld m) = s.fld (IRQ_CNT (m / 4)) (cntFld m))
        ∧ ∀ k, k ≠ IRQ_CNT (n / 4) → k ≠ IRQ_PEND (n / 16) → t.reg k = s.reg k)
    ∧ (∀ (src : Island) (s : State), firstItem src .policy s.inflight = none → Sys2Proof.Machine.exec (.irqMessage src) s = .next s)
    ∧ (∀ (p : Fin 4) (s : State),
      (∀ n, 0 < n → n < 512 → s.deliverable p n = true →
        (∀ m, 0 < m → m < 512 → s.deliverable p m = true → s.irqPrio m < s.irqPrio n ∨ (s.irqPrio m = s.irqPrio n ∧ n ≤ m)) →
        ∃ t, Sys2Proof.Machine.exec (.irqClaim (.pair p) p) s = .next t ∧ t.answer = { data := BitVec.ofNat 32 n, err := false }
          ∧ t.isPend n = false ∧ t.inService n = true ∧ (n, p.val) ∈ t.irq.claims
          ∧ t.fld (IRQ_HOLD (n / 16)) IRQ_HOLD_ACT = (if s.fld (IRQ_HOLD (n / 16)) IRQ_HOLD_HOLD = 0 then 0 else 1)
          ∧ (∀ m, m < 512 → m ≠ n → t.isPend m = s.isPend m ∧ t.inService m = s.inService m)
          ∧ t = { s with regs := t.regs, irq := { s.irq with claims := t.irq.claims }, answer := t.answer }
          ∧ ∀ k, k ∉ [IRQ_PEND (n / 16), IRQ_INSV (n / 16), IRQ_HOLD (n / 16)] → t.reg k = s.reg k)
      ∧ ((∀ m, 0 < m → m < 512 → s.deliverable p m = false) →
        Sys2Proof.Machine.exec (.irqClaim (.pair p) p) s = .next { s with answer := { data := 0, err := false } })
      ∧ ∀ m : Master, m ≠ .pair p → ∃ t, Sys2Proof.Machine.exec (.irqClaim m p) s = .next t ∧ t.answer = { data := 0, err := true }
          ∧ s.onlySends { t with answer := s.answer } [] [faultItem blkIRQ 0 0x07 clsC (IRQ_CLAIM p)])
    ∧ (∀ (m : Master) (p : Fin 4) (w : Word) (s : State),
      let n := w.toNat % 512
      (m = .pair p → (n, p.val) ∈ s.irq.claims → ∃ t, Sys2Proof.Machine.exec (.irqComplete m p w) s = .next t ∧ t.inService n = false
        ∧ (∀ q, (n, q) ∉ t.irq.claims) ∧ (∀ c ∈ s.irq.claims, c.1 ≠ n → c ∈ t.irq.claims)
        ∧ t.inflight = s.inflight ++ (if 1 ≤ n ∧ n ≤ 8 then [⟨.policy, .timer, .extDone (n - 1)⟩] else [])
        ∧ (∀ x, x < 512 → x ≠ n → t.inService x = s.inService x)
        ∧ t = { s with regs := t.regs, irq := { s.irq with claims := t.irq.claims }, inflight := t.inflight }
        ∧ ∀ k, k ≠ IRQ_INSV (n / 16) → t.reg k = s.reg k)
      ∧ (m ≠ .pair p ∨ (n, p.val) ∉ s.irq.claims → ∃ t, Sys2Proof.Machine.exec (.irqComplete m p w) s = .next t
        ∧ s.writeRefused t (IRQ_CLAIM p)))
    ∧ (∀ (g : Fin 32) (w : Word) (s : State),
      (∃ t, Sys2Proof.Machine.exec (.irqPendingClear g w) s = .next t ∧ s.onlyRegs t [IRQ_PEND g]
        ∧ ∀ i, i < 16 → t.bit (IRQ_PEND g) i = (s.bit (IRQ_PEND g) i && !bitOf w i))
      ∧ (∃ t, Sys2Proof.Machine.exec (.irqMaskSet g w) s = .next t ∧ s.onlyRegs t [IRQ_MASK g]
        ∧ ∀ i, i < 16 → t.bit (IRQ_MASK g) i = (s.bit (IRQ_MASK g) i || bitOf w i))
      ∧ (∃ t, Sys2Proof.Machine.exec (.irqMaskClear g w) s = .next t ∧ s.onlyRegs t [IRQ_MASK g]
        ∧ ∀ i, i < 16 → t.bit (IRQ_MASK g) i = (s.bit (IRQ_MASK g) i && !bitOf w i))
      ∧ (∃ t, Sys2Proof.Machine.exec (.irqCounterClear g w) s = .next t
        ∧ s.onlyRegs t [IRQ_CNT (4 * g), IRQ_CNT (4 * g + 1), IRQ_CNT (4 * g + 2), IRQ_CNT (4 * g + 3)]
        ∧ ∀ i, i < 16 → t.fld (IRQ_CNT ((16 * g + i) / 4)) (cntFld (16 * g + i))
            = if bitOf w i then 0 else s.fld (IRQ_CNT ((16 * g + i) / 4)) (cntFld (16 * g + i)))
      ∧ ∃ t, Sys2Proof.Machine.exec (.holdoffEnd g) s = .next t ∧ t.fld (IRQ_HOLD g) IRQ_HOLD_ACT = 0
        ∧ t.fld (IRQ_HOLD g) IRQ_HOLD_HOLD = s.fld (IRQ_HOLD g) IRQ_HOLD_HOLD ∧ s.onlyRegs t [IRQ_HOLD g])
    ∧ (∀ (w : Word) (s : State),
      let n := w.toNat % 512
      (496 ≤ n → ∃ t, Sys2Proof.Machine.exec (.irqDoorbell w) s = .next t ∧ t.isPend n = true
        ∧ t.fld (IRQ_CNT (n / 4)) (cntFld n) = min 255 (s.fld (IRQ_CNT (n / 4)) (cntFld n) + 1) ∧ s.onlyRegs t [IRQ_PEND (n / 16), IRQ_CNT (n / 4)])
      ∧ (n < 496 → ∃ t, Sys2Proof.Machine.exec (.irqDoorbell w) s = .next t ∧ s.writeRefused t IRQ_DOOR)))
  ∧ (
    (∀ (x : Fin 8) (w : Word) (s : State), s.fld (IRQ_XCFG x) IRQ_XCFG_EN = 0 → IRQ_XCFG_EN.get w = 1 →
      let a := s.irq.level.getLsbD x == (IRQ_XCFG_POL.get w == 1)
      ∃ t, Sys2Proof.Machine.exec (.extintEnable x w) s = .next t ∧ t.fld (IRQ_XCFG x) IRQ_XCFG_EN = 1
        ∧ t.fld (IRQ_XCFG x) IRQ_XCFG_POL = IRQ_XCFG_POL.get w ∧ t.fld (IRQ_XCFG x) IRQ_XCFG_FILT = IRQ_XCFG_FILT.get w
        ∧ t.bit IRQ_XSTAT x = a ∧ t.bit IRQ_XSTAT (8 + x) = (a || s.bit IRQ_XSTAT (8 + x))
        ∧ s.onlySends t [IRQ_XCFG x, IRQ_XSTAT] (if a then [⟨.timer, .policy, .irq (1 + x) true true⟩] else []))
    ∧ (∀ (x : Fin 8) (w : Word) (s : State), s.fld (IRQ_XCFG x) IRQ_XCFG_EN = 1 →
      (IRQ_XCFG_EN.get w = 0 → IRQ_XCFG_POL.get w = s.fld (IRQ_XCFG x) IRQ_XCFG_POL → IRQ_XCFG_FILT.get w = s.fld (IRQ_XCFG x) IRQ_XCFG_FILT →
        ∃ t, Sys2Proof.Machine.exec (.extintDisable x w) s = .next t ∧ t.fld (IRQ_XCFG x) IRQ_XCFG_EN = 0
          ∧ t.bit IRQ_XSTAT (8 + x) = false ∧ s.onlyRegs t [IRQ_XCFG x, IRQ_XSTAT])
      ∧ (IRQ_XCFG_POL.get w ≠ s.fld (IRQ_XCFG x) IRQ_XCFG_POL ∨ IRQ_XCFG_FILT.get w ≠ s.fld (IRQ_XCFG x) IRQ_XCFG_FILT →
        (∃ t, Sys2Proof.Machine.exec (.extintDisable x w) s = .next t ∧ s.writeRefused t (IRQ_XCFG x))
        ∧ ∃ t, Sys2Proof.Machine.exec (.extintEnable x w) s = .next t ∧ s.writeRefused t (IRQ_XCFG x)))
    ∧ (∀ (x : Fin 8) (lv : Bool) (s : State), (s.irq.level.getLsbD x = lv → Sys2Proof.Machine.exec (.extintLevelChange x lv) s = .next s)
      ∧ (s.irq.level.getLsbD x = !lv → ∃ t, Sys2Proof.Machine.exec (.extintLevelChange x lv) s = .next t
        ∧ (∀ y, y < 8 → t.irq.level.getLsbD y = if y = x.val then lv else s.irq.level.getLsbD y)
        ∧ (let a := lv == (s.fld (IRQ_XCFG x) IRQ_XCFG_POL == 1)
          let en := s.fld (IRQ_XCFG x) IRQ_XCFG_EN == 1
          t.bit IRQ_XSTAT x = a ∧ t.bit IRQ_XSTAT (8 + x) = ((a && en) || s.bit IRQ_XSTAT (8 + x))
          ∧ t.inflight = (if a then (s.pulseSelected .timer (0x21 + x)).inflight else s.inflight)
              ++ (if a && en then [⟨.timer, .policy, .irq (1 + x) true (!s.bit IRQ_XSTAT (8 + x))⟩] else []))
        ∧ t = { s with regs := t.regs, irq := { s.irq with level := t.irq.level }, inflight := t.inflight }
        ∧ ∀ k, k ≠ IRQ_XSTAT → t.reg k = s.reg k))
    ∧ (∀ (s : State) (x : Nat), s.nextItem .policy .timer = some (.extDone x) → x < 8 →
      let sent := s.fld (IRQ_XCFG x) IRQ_XCFG_EN == 1 && s.bit IRQ_XSTAT (8 + x)
      let a := s.irq.level.getLsbD x == (s.fld (IRQ_XCFG x) IRQ_XCFG_POL == 1)
      ∃ t, Sys2Proof.Machine.exec .extintResend s = .next t
        ∧ t.bit IRQ_XSTAT (8 + x) = (s.bit IRQ_XSTAT (8 + x) && !(sent && !a))
        ∧ t = { s with
            regs := t.regs,
            inflight := dropFirstItem .policy .timer s.inflight ++ (if sent && a then [⟨.timer, .policy, .irq (1 + x) false true⟩] else []) }
        ∧ ∀ k, k ≠ IRQ_XSTAT → t.reg k = s.reg k))

/-- R334 to R341: a step moves the count of a running, unlinked channel as its mode says, its position in the lap by one, and makes a match
due exactly where it reaches the compare position, a wrap where it wraps, with the TOP written meanwhile. Matches and wraps that are due
set their event, pulse the lines and, for ONE, stop the channel. A linked channel steps for each wrap below it and for nothing else.
R336, R337, R339, R340, R350: TMR_START and TMR_STOP start and stop the channels they name, a trigger pulse those whose STRT names its
line; a capture stores the count, or the count of the first clock of a comparator's run, with its event; the count takes a value up to
TOP without a match, and a compare value is taken as written. -/
def Obligations.TimerChannels : Prop :=
  (
    (∀ (n : Fin 16) (s : State), (s.tmrRun n = false ∨ s.tmrLink n = true → Sys2Proof.Machine.exec (.timerStep n) s = .next s)
      ∧ (s.tmrRun n = true → s.tmrLink n = false →
        let x := s.tmrOf n
        let top := x.top.toNat
        let c := (s.reg (TMR_CNT n)).toNat
        let mode := s.fld (TMR_CFG n) TMR_CFG_MODE
        0 < top → c ≤ top → (mode = 2 → x.down = true → 0 < c) → mode ≤ 2 →
        ∃ t, Sys2Proof.Machine.exec (.timerStep n) s = .next t
          ∧ (let wrap := if mode = 0 then decide (c = top) else if mode = 1 then decide (c = 0)
                else decide (c = 1) && (x.down || decide (top = 1))
            (mode = 0 → (t.reg (TMR_CNT n)).toNat = if c = top then 0 else c + 1)
            ∧ (mode = 1 → (t.reg (TMR_CNT n)).toNat = if c = 0 then (s.reg (TMR_TOP n)).toNat else c - 1)
            ∧ (mode = 2 → (t.reg (TMR_CNT n)).toNat = if x.down ∨ c = top then c - 1 else c + 1)
            ∧ (t.tmrOf n).wrapDue = (x.wrapDue || wrap) ∧ (t.tmrOf n).top = (if wrap then s.reg (TMR_TOP n) else x.top)
            ∧ (n.val < 15 → (t.tmrOf (n + 1)).linkDue = ((s.tmrOf (n + 1)).linkDue || (wrap && s.tmrLink (n + 1)))))
          ∧ (s.reg (TMR_TOP n) = x.top → t.tmrPos n = (s.tmrPos n + 1) % lapOf mode top)
          ∧ (t.tmrOf n).matchDue = (x.matchDue || decide (t.tmrTarget n = some (t.tmrPos n)))
          ∧ (∀ m : Fin 16, m.val ≠ n.val → m.val ≠ n.val + 1 → t.tmrOf m = s.tmrOf m)
          ∧ t = { s with regs := t.regs, tmr := t.tmr } ∧ ∀ k, k ≠ TMR_CNT n → t.reg k = s.reg k))
    ∧ (∀ (n : Fin 16) (s : State),
      ((s.tmrOf n).matchDue = false → Sys2Proof.Machine.exec (.timerMatch n) s = .next s)
      ∧ ((s.tmrOf n).matchDue = true → ∃ t, Sys2Proof.Machine.exec (.timerMatch n) s = .next t
        ∧ t.tmrOf n = { s.tmrOf n with matchDue := false } ∧ t.bit TMR_EVT n = true
        ∧ t.inflight = ({ s with inflight := s.inflight ++ [evtItem TMR_EVT n] }.pulseSelected .timer (1 + n)).inflight
            ++ [⟨.timer, .angle, .hwEvent (0x30 + n)⟩]
        ∧ (∀ m : Fin 16, m ≠ n → t.tmrOf m = s.tmrOf m) ∧ t = { s with regs := t.regs, tmr := t.tmr, inflight := t.inflight }
        ∧ ∀ k, k ≠ TMR_EVT → t.reg k = s.reg k)
      ∧ ((s.tmrOf n).wrapDue = false → Sys2Proof.Machine.exec (.timerWrap n) s = .next s)
      ∧ ((s.tmrOf n).wrapDue = true → ∃ t, Sys2Proof.Machine.exec (.timerWrap n) s = .next t
        ∧ (t.tmrOf n).wrapDue = false ∧ t.bit TMR_EVT (16 + n) = true
        ∧ t.tmrRun n = (s.tmrRun n && s.fld (TMR_CFG n) TMR_CFG_ONE == 0)
        ∧ t.inflight = ({ s with inflight := s.inflight ++ [evtItem TMR_EVT (16 + n)] }.pulseSelected .timer (0x11 + n)).inflight
        ∧ (∀ m : Fin 16, m ≠ n → t.tmrOf m = s.tmrOf m ∧ t.tmrRun m = s.tmrRun m)
        ∧ t = { s with regs := t.regs, tmr := t.tmr, inflight := t.inflight } ∧ ∀ k, k ≠ TMR_EVT → k ≠ TMR_STAT → t.reg k = s.reg k)
      ∧ ((s.tmrOf n).linkDue = false → Sys2Proof.Machine.exec (.linkedStep n) s = .next s)
      ∧ ((s.tmrOf n).linkDue = true → s.tmrRun n = true → s.tmrLink n = true → s.fld (TMR_CFG n) TMR_CFG_MODE = 0 →
        ∃ t, Sys2Proof.Machine.exec (.linkedStep n) s = .next t ∧ (t.tmrOf n).linkDue = false
          ∧ t.reg (TMR_CNT n) = (if s.reg (TMR_CNT n) = (s.tmrOf n).top then 0 else s.reg (TMR_CNT n) + 1)
          ∧ (t.tmrOf n).wrapDue = ((s.tmrOf n).wrapDue || s.reg (TMR_CNT n) == (s.tmrOf n).top)
          ∧ t = { s with regs := t.regs, tmr := t.tmr } ∧ ∀ k, k ≠ TMR_CNT n → t.reg k = s.reg k)))
  ∧ (
    (∀ (w : Word) (s : State),
      (∃ t, Sys2Proof.Machine.exec (.tmrStart w) s = .next t ∧ (∀ i : Fin 16, t.tmrRun i = (s.tmrRun i || bitOf w i)
          ∧ t.tmrOf i = if s.tmrRun i = false ∧ bitOf w i = true then { s.tmrOf i with down := false } else s.tmrOf i)
        ∧ t = { s with regs := t.regs, tmr := t.tmr } ∧ ∀ k, k ≠ TMR_STAT → t.reg k = s.reg k)
      ∧ ∃ t, Sys2Proof.Machine.exec (.tmrStop w) s = .next t ∧ (∀ i : Fin 16, t.tmrRun i = (s.tmrRun i && !bitOf w i)
          ∧ t.tmrOf i = if bitOf w i then { s.tmrOf i with top := s.reg (TMR_TOP i) } else s.tmrOf i)
        ∧ t = { s with regs := t.regs, tmr := t.tmr } ∧ ∀ k, k ≠ TMR_STAT → t.reg k = s.reg k)
    ∧ (∀ (l : Fin 32) (s : State), ∃ t, Sys2Proof.Machine.exec (.timerTriggerStart l) s = .next t
        ∧ (∀ i : Fin 16, t.tmrRun i = (s.tmrRun i || decide (s.fld (TMR_CFG i) TMR_CFG_STRT = l)))
        ∧ t = { s with regs := t.regs, tmr := t.tmr } ∧ ∀ k, k ≠ TMR_STAT → t.reg k = s.reg k)
    ∧ (∀ (n : Fin 16) (s : State),
      let c := s.fld (TMR_CCFG n) TMR_CCFG_CSRC
      (c = 0 ∨ (32 < c ∧ (s.tmrOf n).cand = none) → Sys2Proof.Machine.exec (.timerCapture n) s = .next s)
      ∧ (0 < c → c ≤ 32 → ∃ t, Sys2Proof.Machine.exec (.timerCapture n) s = .next t ∧ t.reg (TMR_CAP n) = s.reg (TMR_CNT n)
        ∧ t.bit TMR_CEVT n = true ∧ s.onlySends t [TMR_CAP n, TMR_CEVT] [evtItem TMR_CEVT n])
      ∧ ∀ v, (s.tmrOf n).cand = some v → 32 < c → ∃ t, Sys2Proof.Machine.exec (.timerCapture n) s = .next t ∧ t.reg (TMR_CAP n) = v
        ∧ t.bit TMR_CEVT n = true ∧ s.onlySends { t with tmr := s.tmr } [TMR_CAP n, TMR_CEVT] [evtItem TMR_CEVT n])
    ∧ (∀ (n : Fin 16) (w : Word) (s : State),
      (w.toNat ≤ (s.tmrOf n).top.toNat → ∃ t, Sys2Proof.Machine.exec (.timerCountLoad n w) s = .next t ∧ t.reg (TMR_CNT n) = w
        ∧ s.onlyRegs t [TMR_CNT n])
      ∧ ((s.tmrOf n).top.toNat < w.toNat → ∃ t, Sys2Proof.Machine.exec (.timerCountLoad n w) s = .next t ∧ s.writeRefused t (TMR_CNT n))
      ∧ ∃ t, Sys2Proof.Machine.exec (.timerCompareWrite n w) s = .next t ∧ t.reg (TMR_CMP n) = w ∧ s.onlyRegs t [TMR_CMP n]))

/-- R362, R367 to R369, R372 to R376, R386: a start whose slot has come is refused with its event and report, or waits where another channel
of its bank boosts, or puts the low side on with its copy of the profile; one whose slot lies ahead is kept for it, and so is an end. A
waiting start begins when the bank's boost is over, its end moved by the shift, or is cancelled after SHMAX. INJ_CTRL comes into force
while the link carries it; a disabled channel's pulse ends once its minimum-duration end has passed. -/
def Obligations.InjectionStarts : Prop :=
  (∀ (s : State) (n p ts tmin : Nat), s.nextItem .angle .drive = some (.injStart n p ts tmin) → n < 12 → p < 16 →
    let c := s.injOf n
    let rest := dropFirstItem .angle .drive s.inflight
    let rep : Item := ⟨.drive, .angle, .drv 5 n (s.slotAt (c.ts + c.shift)).toNat false 0 0 0 s.now none none⟩
    (s.now < ts → ∃ t, Sys2Proof.Machine.exec .injStartCommand s = .next t ∧ t.injOf n = { c with armed := some (p, ts, tmin) }
      ∧ (∀ m, m < 12 → m ≠ n → t.injOf m = s.injOf m)
      ∧ t = { s with inj := t.inj, inflight := rest, sys := { s.sys with goodHv := s.now } })
    ∧ (ts ≤ s.now → s.startBarred n = true → ∃ t, Sys2Proof.Machine.exec .injStartCommand s = .next t
      ∧ t.injOf n = { c with endCmd := none } ∧ t.bit INJ_EVT INJ_EVT_REFUSED = true ∧ t.inflight = rest ++ [evtItem INJ_EVT INJ_EVT_REFUSED, rep]
      ∧ (∀ m, m < 12 → m ≠ n → t.injOf m = s.injOf m) ∧ ∀ k, k ≠ INJ_EVT → t.reg k = s.reg k)
    ∧ (ts ≤ s.now → s.startBarred n = false → s.profileOk n p = false → ∃ t, Sys2Proof.Machine.exec .injStartCommand s = .next t
      ∧ t.injOf n = { c with endCmd := none } ∧ t.bit INJ_EVT INJ_EVT_PROFERR = true ∧ t.bit INJ_EVT INJ_EVT_REFUSED = true
      ∧ t.bit (INJ_FST n) INJ_FST_PROFERR = true ∧ t.fld INJ_ALRT INJ_ALRT_LOW = 1
      ∧ t.inflight = rest ++ drvFault INJ_EVT_PROFERR n clsC ++ [evtItem INJ_EVT INJ_EVT_REFUSED, rep]
      ∧ ∀ k, k ∉ [INJ_EVT, INJ_ALRT, INJ_FST n] → t.reg k = s.reg k)
    ∧ (ts ≤ s.now → s.startBarred n = false → s.profileOk n p = true → (c.st = .off ∨ c.st = .decay ∨ c.st = .close) →
      ∃ t, Sys2Proof.Machine.exec .injStartCommand s = .next t
        ∧ (let wait := decide (s.fld (INJ_PROF p) INJ_PROF_IBST ≠ 0) && s.otherBoost n
          (t.injOf n).st = (if wait then .waitb else if s.fld (INJ_PROF p) INJ_PROF_IBST ≠ 0 then .boost
            else if s.fld (INJ_PROF p) INJ_PROF_MODE = 0 then .peak else .prop)
          ∧ t.bit INJ_STAT n = (if wait then (s.bit INJ_STAT n && decide (c.st ≠ .close)) else true)
          ∧ (wait = false → t.hsOn (n / 3) = t.bankDemand (n / 3) none))
        ∧ (t.injOf n).ts = s.now ∧ (t.injOf n).tmin = tmin ∧ (t.injOf n).shift = 0
        ∧ (t.injOf n).prof = s.reg (INJ_PROF p) ∧ (t.injOf n).pk = s.reg (INJ_PK p) ∧ (t.injOf n).hld = s.reg (INJ_HLD p)
        ∧ (t.injOf n).dth = s.reg (INJ_DTH p) ∧ (t.injOf n).det = s.reg (INJ_DET p)
        ∧ (c.st ≠ .close → t.inflight = rest) ∧ (∀ m, m < 12 → m / 3 ≠ n / 3 → t.injOf m = s.injOf m)
        ∧ ∀ k, k ≠ INJ_STAT → k ≠ INJ_FST n → t.reg k = s.reg k))
  ∧ (∀ (s : State) (n te : Nat) (fast : Bool), s.nextItem .angle .drive = some (.injEnd n te fast) → n < 12 →
    let c := s.injOf n
    let rest := dropFirstItem .angle .drive s.inflight
    (s.pulsing n = true → te + c.shift ≤ s.now → ∃ t, Sys2Proof.Machine.exec .injEndCommand s = .next t
      ∧ (t.injOf n).st = .decay ∧ t.bit INJ_STAT n = false ∧ (t.injOf n).tEnd = te + c.shift ∧ (t.injOf n).natural = !fast
      ∧ t.hsOn (n / 3) = t.bankDemand (n / 3) none ∧ (∀ m, m < 12 → m / 3 ≠ n / 3 → t.injOf m = s.injOf m)
      ∧ ∀ k, k ≠ INJ_STAT → k ≠ INJ_FST n → t.reg k = s.reg k)
    ∧ (c.st = .waitb ∨ ((s.pulsing n = true ∨ c.armed.isSome = true) ∧ s.now < te + c.shift) →
      ∃ t, Sys2Proof.Machine.exec .injEndCommand s = .next t ∧ t.injOf n = { c with endCmd := some (te, !fast) }
        ∧ (∀ m, m < 12 → m ≠ n → t.injOf m = s.injOf m)
        ∧ t = { s with inj := t.inj, inflight := rest, sys := { s.sys with goodHv := s.now } })
    ∧ (s.pulsing n = false → c.st ≠ .waitb → c.armed = none → ∃ t, Sys2Proof.Machine.exec .injEndCommand s = .next t
        ∧ t = { s with inflight := rest, sys := { s.sys with goodHv := s.now } }))
  ∧ (∀ (n : Fin 12) (s : State),
    let c := s.injOf n
    let b := n.val / 3
    (c.st ≠ .waitb ∨ s.otherBoost n = true → Sys2Proof.Machine.exec (.injShiftedStart n) s = .next s)
    ∧ (c.st = .waitb → s.otherBoost n = false → c.ts ≤ s.now → ∃ t, Sys2Proof.Machine.exec (.injShiftedStart n) s = .next t
      ∧ (INJ_PROF_IBST.get c.prof ≠ 0 → (t.injOf n).st = .boost) ∧ (t.injOf n).ts = c.ts ∧ (t.injOf n).shift = s.now - c.ts
      ∧ (t.injOf n).tmin = c.tmin + (s.now - c.ts) ∧ t.bit INJ_STAT n = true
      ∧ t.fld (INJ_BOVL b) INJ_BOVL_SHIFT = min 65535 (s.fld (INJ_BOVL b) INJ_BOVL_SHIFT + 1)
      ∧ t.fld (INJ_BSH b) INJ_BSH_LAST = min 65535 ((s.now - c.ts) / 4)
      ∧ t.inflight = s.inflight ++ drvFault INJ_EVT_BSHIFT n clsC
          ++ [⟨.drive, .angle, .drv 2 n (s.slotAt s.now).toNat false 0 ((s.now - c.ts) / 4) 0 0 (s.reportQueue 2) none⟩]
      ∧ ∀ k, k ∉ [INJ_STAT, INJ_EVT, INJ_ALRT, INJ_BOVL b, INJ_BSH b] → t.reg k = s.reg k)
    ∧ (c.st ≠ .waitb ∨ s.now < c.ts + 40 * s.fld (INJ_BANK b) INJ_BANK_SHMAX → Sys2Proof.Machine.exec (.bcancel n) s = .next s)
    ∧ (c.st = .waitb → c.ts + 40 * s.fld (INJ_BANK b) INJ_BANK_SHMAX ≤ s.now → ∃ t, Sys2Proof.Machine.exec (.bcancel n) s = .next t
      ∧ t.injOf n = { c with st := .off, endCmd := none, armed := none }
      ∧ t.fld (INJ_BOVL b) INJ_BOVL_CANC = min 65535 (s.fld (INJ_BOVL b) INJ_BOVL_CANC + 1)
      ∧ t.inflight = s.inflight ++ drvFault INJ_EVT_BCANCEL n clsU
          ++ [⟨.drive, .angle, .drv 3 n (s.slotAt (c.ts + c.shift)).toNat false 0 0 0 s.now (s.reportQueue 3) none⟩]
      ∧ (∀ m, m < 12 → m ≠ n.val → t.injOf m = s.injOf m)
      ∧ ∀ k, k ∉ [INJ_EVT, INJ_ALRT, INJ_BOVL b] → t.reg k = s.reg k))
  ∧ (∀ (w : Word) (s : State), ∃ t, Sys2Proof.Machine.exec (.injCtrlWrite w) s = .next t
      ∧ t.fld INJ_CTRL INJ_CTRL_EN = INJ_CTRL_EN.get w ∧ t.fld INJ_CTRL INJ_CTRL_GEN = INJ_CTRL_GEN.get w
      ∧ (s.linkOk = false → s.onlyRegs t [INJ_CTRL])
      ∧ (s.linkOk = true → t.fld INJ_APPLIED INJ_APPLIED_EN = INJ_CTRL_EN.get w ∧ t.fld INJ_APPLIED INJ_APPLIED_GEN = INJ_CTRL_GEN.get w
        ∧ (∀ n, n < 12 → (bitOf w n = true ∨ s.bit INJ_APPLIED n = false) → (t.injOf n).st = (s.injOf n).st)
        ∧ (∀ n, n < 12 → bitOf w n = false → s.bit INJ_APPLIED n = true → s.pulsing n = true → (s.injOf n).tmin ≤ s.now →
            (t.injOf n).st = .decay ∧ t.bit INJ_STAT n = false)
        ∧ (∀ n, n < 12 → bitOf w n = false → s.bit INJ_APPLIED n = true → (s.injOf n).st = .waitb → (t.injOf n).st = .off)
        ∧ t.mem = s.mem ∧ ∀ k, k ∉ [INJ_CTRL, INJ_APPLIED, INJ_STAT] → (∀ n, n < 12 → k ≠ INJ_FST n) → t.reg k = s.reg k))

/-- R357, R361, R363, R364, R376, R379, R380: a sample stores its code and current, regulates a channel in PEAK, HOLD or PROP within its
band, sheds it while another channel needs the high side, and carries the search for opening on. A segment ends on its condition and not
before: BOOST at IBST or TBMAX, PEAK after TPK, TRANS at IHLD, DECAY at ICLS or IZ, CLOSE on its four conditions. -/
def Obligations.InjectionSegments : Prop :=
  (∀ (n : Fin 12) (code : BitVec 10) (s : State), ∃ t, Sys2Proof.Machine.exec (.injRegulation n code) s = .next t
    ∧ t.fld (INJ_IM n) INJ_IM_CODE = code.toNat ∧ t.fld (INJ_IM n) INJ_IM_I = s.currentOf n code.toNat
    ∧ (let h := s.claspHead n
      let c := s.injOf h
      let i : Int := t.twiceCode h
      let it := 2 * s.injTarget h
      let hy : Int := 2 * s.codeOf h (INJ_HLD_HYST.get c.hld)
      (t.injOf n).codes = (code.toNat :: (s.injOf n).codes).take 9 ∧ (t.injOf h).st = c.st
      ∧ (c.st = .peak ∨ c.st = .hold ∨ c.st = .prop →
          (t.injOf h).req = (if i < it - hy then true else if it + hy ≤ i then false else c.req)
          ∧ t.hsOn (h / 3) = t.bankDemand (h / 3) none
          ∧ (c.shed = false → it + hy ≤ i → s.bankDemand (h / 3) (some h) = true → (t.injOf h).shed = true ∧ t.bit INJ_STAT h = false)
          ∧ (c.shed = false → (i < it + hy ∨ s.bankDemand (h / 3) (some h) = false) → (t.injOf h).shed = false ∧ t.bit INJ_STAT h = s.bit INJ_STAT h)
          ∧ (c.shed = true → i ≤ it → (t.injOf h).shed = false ∧ t.bit INJ_STAT h = true)
          ∧ (c.shed = true → it < i → s.bankDemand (h / 3) (some h) = true → (t.injOf h).shed = true ∧ t.bit INJ_STAT h = s.bit INJ_STAT h))
      ∧ (c.st = .boost → h = n.val → s.fld (INJ_CH n) INJ_CH_ODET = 1 → 8 ≤ c.codes.length → c.ts + c.shift + 40 * INJ_DET_OBLK.get c.det ≤ s.now →
          let d : Int := (code.toNat : Int) - (c.codes.getD 7 0 : Nat)
          (t.injOf h).sref = some (c.sref.getD d)
          ∧ (t.injOf h).found = (c.found || decide (16 * d ≤ INJ_DET_OFRAC.get c.det * c.sref.getD d))
          ∧ (c.found = false → 16 * d ≤ INJ_DET_OFRAC.get c.det * c.sref.getD d → (t.injOf h).openDue = some s.now))
      ∧ (∀ m, m < 12 → m / 3 ≠ n.val / 3 → t.injOf m = s.injOf m))
    ∧ t = { s with regs := t.regs, inj := t.inj } ∧ ∀ k, k ≠ INJ_IM n → k ≠ INJ_STAT → t.reg k = s.reg k)
  ∧ (∀ (n : Fin 12) (s : State),
    let c := s.injOf n
    let next : InjSt := if INJ_PROF_MODE.get c.prof = 0 then .peak else .prop
    (c.st ≠ .boost ∨ s.iAtLeast n (INJ_PROF_IBST.get c.prof) = false → Sys2Proof.Machine.exec (.injBoostDone n) s = .next s)
    ∧ (c.st = .boost → s.iAtLeast n (INJ_PROF_IBST.get c.prof) = true → ∃ t, Sys2Proof.Machine.exec (.injBoostDone n) s = .next t
      ∧ (t.injOf n).st = next ∧ (t.injOf n).segAt = s.now ∧ (t.injOf n).ts = c.ts ∧ t.hsOn (n / 3) = t.bankDemand (n / 3) none
      ∧ (c.shed = false → t.bit INJ_STAT n = s.bit INJ_STAT n) ∧ ∀ k, k ≠ INJ_STAT → k ≠ INJ_FST n → t.reg k = s.reg k)
    ∧ (c.st ≠ .boost ∨ s.now < c.ts + c.shift + 4 * INJ_PROF_TBMAX.get c.prof → Sys2Proof.Machine.exec (.tbmaxExpiry n) s = .next s)
    ∧ (c.st = .boost → c.ts + c.shift + 4 * INJ_PROF_TBMAX.get c.prof ≤ s.now →
      (2 * s.codeOf n (INJ_PROF_IBST.get c.prof) ≤ 10 * s.twiceCode n → ∃ t, Sys2Proof.Machine.exec (.tbmaxExpiry n) s = .next t
        ∧ (t.injOf n).st = next ∧ t.bit (INJ_FST n) INJ_FST_BSTTO = true ∧ t.fld INJ_ALRT INJ_ALRT_CAUSE = INJ_EVT_BSTTO
        ∧ (∀ x ∈ drvFault INJ_EVT_BSTTO n clsC, x ∈ t.inflight) ∧ (c.shed = false → t.bit INJ_STAT n = s.bit INJ_STAT n))
      ∧ (10 * s.twiceCode n < 2 * s.codeOf n (INJ_PROF_IBST.get c.prof) → c.tmin ≤ s.now → ∃ t,
          Sys2Proof.Machine.exec (.tbmaxExpiry n) s = .next t ∧ (t.injOf n).st = .decay ∧ t.bit INJ_STAT n = false
          ∧ (t.injOf n).natural = false ∧ t.bit (INJ_FST n) INJ_FST_OPENON = true
          ∧ (∀ x ∈ drvFault INJ_EVT_OPENON n clsC, x ∈ t.inflight))
      ∧ (10 * s.twiceCode n < 2 * s.codeOf n (INJ_PROF_IBST.get c.prof) → s.now < c.tmin → ∃ t,
          Sys2Proof.Machine.exec (.tbmaxExpiry n) s = .next t ∧ ((t.injOf n).forced.map fun f => (f.1, f.2.1)) = some (c.tmin, INJ_EVT_OPENON)
          ∧ (c.shed = false → t.bit INJ_STAT n = s.bit INJ_STAT n)))
    ∧ (c.st ≠ .peak ∨ s.now < c.segAt + 40 * INJ_PK_TPK.get c.pk → Sys2Proof.Machine.exec (.tpkEnd n) s = .next s)
    ∧ (c.st = .peak → c.segAt + 40 * INJ_PK_TPK.get c.pk ≤ s.now →
      (INJ_PROF_PHDEC.get c.prof = 1 → ∃ t, Sys2Proof.Machine.exec (.tpkEnd n) s = .next t ∧ (t.injOf n).st = .trans
        ∧ t.bit INJ_STAT n = false ∧ t.hsOn (n / 3) = t.bankDemand (n / 3) none ∧ t.inflight = s.inflight
        ∧ ∀ k, k ≠ INJ_STAT → t.reg k = s.reg k)
      ∧ (INJ_PROF_PHDEC.get c.prof = 0 → ∃ t, Sys2Proof.Machine.exec (.tpkEnd n) s = .next t ∧ t.injOf n = { c with st := .hold }
        ∧ t = { s with inj := t.inj } ∧ ∀ m, m < 12 → m ≠ n.val → t.injOf m = s.injOf m))
    ∧ (c.st ≠ .trans ∨ s.iAtMost n (INJ_HLD_IHLD.get c.hld) = false → Sys2Proof.Machine.exec (.injTransEnd n) s = .next s)
    ∧ (c.st = .trans → s.iAtMost n (INJ_HLD_IHLD.get c.hld) = true → ∃ t, Sys2Proof.Machine.exec (.injTransEnd n) s = .next t
      ∧ (t.injOf n).st = .hold ∧ t.bit INJ_STAT n = true ∧ t = { s with regs := t.regs, inj := t.inj }
      ∧ (∀ m, m < 12 → m ≠ n.val → t.injOf m = s.injOf m) ∧ ∀ k, k ≠ INJ_STAT → t.reg k = s.reg k)
    ∧ (c.st ≠ .decay → Sys2Proof.Machine.exec (.injDecayEnd n) s = .next s)
    ∧ (c.st = .decay →
      let close := c.natural && s.fld (INJ_CH n) INJ_CH_CDET == 1 && !s.hsOn (n / 3) && s.iAtMost n (INJ_DET_ICLS.get c.det)
      (close = true → ∃ t, Sys2Proof.Machine.exec (.injDecayEnd n) s = .next t ∧ (t.injOf n).st = .close ∧ (t.injOf n).closeAt = s.now
        ∧ t.bit INJ_STAT n = true ∧ t.inflight = s.inflight ∧ ∀ k, k ≠ INJ_STAT → t.reg k = s.reg k)
      ∧ (close = false → ∃ t, Sys2Proof.Machine.exec (.injDecayEnd n) s = .next t
        ∧ (t.injOf n).st = (if s.iAtMost n 20 then .off else .decay) ∧ t = { s with inj := t.inj }))
    ∧ (c.st ≠ .close → Sys2Proof.Machine.exec (.injCloseEnd n) s = .next s)
    ∧ (c.st = .close →
      (s.hsOn (n / 3) = true → ∃ t, Sys2Proof.Machine.exec (.injCloseEnd n) s = .next t ∧ (t.injOf n).st = .decay ∧ t.bit INJ_STAT n = false
        ∧ (c.found = false → t.bit (INJ_FST n) INJ_FST_CLSINV = true) ∧ ∀ k, k ≠ INJ_STAT → k ≠ INJ_FST n → t.reg k = s.reg k)
      ∧ (s.hsOn (n / 3) = false →
        let ends := c.found || s.iAtMost n 20 || decide (c.tEnd + 1600000 ≤ s.now)
        (ends = true → ∃ t, Sys2Proof.Machine.exec (.injCloseEnd n) s = .next t ∧ (t.injOf n).st = .off ∧ t.bit INJ_STAT n = false
          ∧ (c.found = false → t.bit (INJ_FST n) INJ_FST_CLSINV = true) ∧ ∀ k, k ≠ INJ_STAT → k ≠ INJ_FST n → t.reg k = s.reg k)
        ∧ (ends = false → Sys2Proof.Machine.exec (.injCloseEnd n) s = .next s))))

/-- R373, R374, R379 to R382: a detection is reported with its delay and adapts the filtered delay while adaptation is enabled and permitted:
the first value is taken, an outlier after sixteen is refused with ODOUT, any other moves it by the filter. A report that reaches the angle
island puts its 16-byte entry into its queue, and retires the action: a refused or cancelled start, or a pulse whose end is not yet
dispatched. -/
def Obligations.InjectionReports : Prop :=
  (∀ (n : Fin 12) (s : State) (isOpen : Bool),
    let c := s.injOf n
    let key := if isOpen then INJ_OD n else INJ_CD n
    let bit := if isOpen then INJ_EVT_OPEN else INJ_EVT_CLOSE
    let r := if isOpen then Sys2Proof.Machine.exec (.openDetected n) s else Sys2Proof.Machine.exec (.closeDetected n) s
    ((if isOpen then c.openDue else c.closeDue) = none → r = .next s)
    ∧ ∀ u, (if isOpen then c.openDue else c.closeDue) = some u →
      let d := roundDivN (u - 160 - (if isOpen then c.ts + c.shift else c.tEnd)) 4
      let od := INJ_OD_OD.get (s.reg key)
      let nval := INJ_OD_NVAL.get (s.reg key)
      let on := s.fld (INJ_ADP n) INJ_ADP_EN == 1 && s.injOk n
      let far := decide (100 * s.fld (INJ_ADP n) INJ_ADP_OUTL < (if d < od then od - d else d - od))
      ∃ t, r = .next t ∧ t.bit INJ_EVT bit = true
        ∧ (on = false → t.reg key = s.reg key)
        ∧ (on = true → nval = 0 → INJ_OD_OD.get (t.reg key) = min 65535 d ∧ INJ_OD_NVAL.get (t.reg key) = 1)
        ∧ (on = true → 16 ≤ nval → far = true → t.reg key = s.reg key ∧ t.bit INJ_EVT INJ_EVT_ODOUT = true ∧ t.bit (INJ_FST n) INJ_FST_ODOUT = true)
        ∧ (on = true → 0 < nval → (nval < 16 ∨ far = false) →
            INJ_OD_OD.get (t.reg key) = min 65535 ((od : Int) + roundDiv ((d : Int) - od) (2 ^ s.fld (INJ_ADP n) INJ_ADP_ARATE)).toNat
            ∧ INJ_OD_NVAL.get (t.reg key) = min 65535 (nval + 1))
        ∧ t.inflight = s.inflight ++ [evtItem INJ_EVT bit]
            ++ (if on && decide (16 ≤ nval) && far then [evtItem INJ_EVT INJ_EVT_ODOUT] else [])
            ++ [⟨.drive, .angle, .drv (if isOpen then 0 else 1) n (s.slotAt (c.ts + c.shift)).toNat true 0 d (INJ_OD_OD.get (t.reg key)) 0
                (s.reportQueue (if isOpen then 0 else 1))
                (if isOpen && on && !(decide (16 ≤ nval) && far) && s.fld (INJ_ADP n) INJ_ADP_TEN == 1
                  then some (s.fld (INJ_ADP n) INJ_ADP_TRI, INJ_OD_OD.get (t.reg key)) else none)⟩]
        ∧ t = { s with regs := t.regs, inj := t.inj, inflight := t.inflight } ∧ ∀ k, k ∉ [INJ_EVT, INJ_FST n, key] → t.reg k = s.reg k)
  ∧ (∀ (s : State) (kind n slot cause delay filt tend : Nat) (valid : Bool) (q : Option Nat) (trim : Option (Nat × Nat)),
    s.nextItem .drive .angle = some (.drv kind n slot valid cause delay filt tend q trim) → n < 12 →
    let rest := dropFirstItem .drive .angle s.inflight
    (kind < 3 → q = none → trim = none → ∃ t, Sys2Proof.Machine.exec .driveReport s = .next t
      ∧ t = { s with inflight := rest, sys := { s.sys with goodLog := s.now } })
    ∧ (∀ i v, trim = some (i, v) → i < 512 → kind < 3 → q = none → ∃ t, Sys2Proof.Machine.exec .driveReport s = .next t
      ∧ t.reg (AEN_TRQ i) = BitVec.ofNat 32 v ∧ t.fld (AEN_TRS i) AEN_TRS_SRC = 1 ∧ t.inForce i (s.trimBase i).toInt
      ∧ ∀ k, k ∉ [AEN_TRQ i, AEN_TRM i, AEN_TRS i] → t.reg k = s.reg k)
    ∧ (∀ x, q = some x → x < 32 → kind < 3 → trim = none → s.budHas (s.binding 4) resFABRIC 1 = true → s.fld (QUE_QCFG x) QUE_QCFG_LOG2 ≤ 16 →
      ∃ t, Sys2Proof.Machine.exec .driveReport s = .next t
        ∧ s.queued t x (wordsToBytes [BitVec.ofNat 32 slot, BitVec.ofNat 32 (n + 16 * kind + 256 * (if valid then 1 else 0)),
            BitVec.ofNat 32 delay, BitVec.ofNat 32 filt])
          (if s.fld (QUE_QCFG x) QUE_QCFG_EN = 0 then 2 else if s.qDepth x ≤ s.qCount x then 1 else 0))
    ∧ (∀ a, (s.stage.find? fun a => a.kind == 0 && a.chan == n && (a.place == .active || a.place == .ending)) = some a →
      3 ≤ kind → kind ≤ 5 → q = none → trim = none → ∃ t, Sys2Proof.Machine.exec .driveReport s = .next t
        ∧ (∀ b ∈ t.calq ++ t.stage, b.idx ≠ a.idx) ∧ t.bit OUT_ACTI n = false
        ∧ t.entryOf a.idx = { gen := a.gen, st := if kind = 4 then 5 else 4, used := true }
        ∧ (kind = 4 → (t.outOf n).lastEnd = some tend)
        ∧ t.fld CAL_USED CAL_USED_USED = s.fld CAL_USED CAL_USED_USED - 1))

/-- R354, R358, R374, R376, R378, R383: an overcurrent turns its channel's low side off at once and latches it; a fault of the high side
latches the channels of its bank: a pulse whose minimum-duration end has passed is over, a start that waits is dropped. The duty limit ends
a pulse and bars starts until the sum is 1 ms below it. A boost converter's voltage is stored, its faults reported, its switching stopped
above OV and resumed 1.0 V below.
R376, R383 to R385: the off-state test takes only banks whose channels are disabled, and is BUSY until it is done; then each bank it
named shows a short, with its channels latched, or for each channel pass, OPENOFF or not tested. INJ_FCLR returns the latched channels it
names to OFF once their current is at IZ. At the end of its pulse ALRT_N is released unless a U-class fault with HOLDU or a link loss
holds it; REL releases a held one, and one written during the pulse counts at its end. -/
def Obligations.InjectionFaultsAndTests : Prop :=
  (
    (∀ (n : Fin 12) (s : State), ((s.injOf n).st = .latched → Sys2Proof.Machine.exec (.overcurrent n) s = .next s)
      ∧ ((s.injOf n).st ≠ .latched → ∃ t, Sys2Proof.Machine.exec (.overcurrent n) s = .next t
        ∧ (t.injOf n).st = .latched ∧ (t.injOf n).armed = none ∧ t.bit INJ_STAT (16 + n) = true ∧ t.bit INJ_STAT (s.claspHead n) = false
        ∧ t.bit (INJ_FST n) INJ_FST_OC = true ∧ t.fld INJ_ALRT INJ_ALRT_LOW = 1 ∧ t.fld INJ_ALRT INJ_ALRT_CAUSE = 0
        ∧ (∀ x ∈ drvFault INJ_EVT_OC n clsU, x ∈ t.inflight) ∧ (∀ m, m < 12 → m / 3 ≠ n.val / 3 → t.injOf m = s.injOf m)
        ∧ t = { s with regs := t.regs, inj := t.inj, drive := t.drive, inflight := t.inflight }))
    ∧ (∀ (b : Fin 4) (s : State),
      let any := s.powered (3 * b) || s.powered (3 * b + 1) || s.powered (3 * b + 2)
      (s.hsOn b = false → Sys2Proof.Machine.exec (.hsopen b) s = .next s)
      ∧ (s.hsOn b = true → ∃ t, Sys2Proof.Machine.exec (.hsopen b) s = .next t ∧ s.bankLatched t b INJ_EVT_HSOPEN)
      ∧ (s.hsOn b = true ∨ any = true → Sys2Proof.Machine.exec (.hsshort b) s = .next s)
      ∧ (s.hsOn b = false → any = false → ∃ t, Sys2Proof.Machine.exec (.hsshort b) s = .next t ∧ s.bankLatched t b INJ_EVT_HSSHORT))
    ∧ (∀ (n : Fin 12) (s : State),
      (s.fld (INJ_DUTY n) INJ_DUTY_LIM = 1 ∨ s.dutySum n < s.dutyLimit n → Sys2Proof.Machine.exec (.dutyLimit n) s = .next s)
      ∧ (s.fld (INJ_DUTY n) INJ_DUTY_LIM = 0 → s.dutyLimit n ≤ s.dutySum n → ∃ t, Sys2Proof.Machine.exec (.dutyLimit n) s = .next t
        ∧ t.fld (INJ_DUTY n) INJ_DUTY_LIM = 1 ∧ t.bit (INJ_FST n) INJ_FST_DUTY = true ∧ (∀ x ∈ drvFault INJ_EVT_DUTY n clsU, x ∈ t.inflight)
        ∧ (s.pulsing n = true → (s.injOf n).tmin ≤ s.now → (t.injOf n).st = .decay ∧ t.bit INJ_STAT n = false)
        ∧ (s.pulsing n = true → s.now < (s.injOf n).tmin → (t.injOf n).st = (s.injOf n).st
            ∧ (t.injOf n).forced.map (fun f => (f.1, f.2.1)) = some ((s.injOf n).tmin, INJ_EVT_DUTY) ∧ t.bit INJ_STAT n = s.bit INJ_STAT n)
        ∧ (s.pulsing n = false → t.injOf n = s.injOf n))
      ∧ (∃ t, Sys2Proof.Machine.exec (.dutySubWindow n) s = .next t
        ∧ (t.injOf n).win = (((s.injOf n).acc + (match (s.injOf n).onAt with | some u => s.now - u | none => 0)) :: (s.injOf n).win).take 99
        ∧ (t.injOf n).acc = 0 ∧ (t.injOf n).onAt = (s.injOf n).onAt.map (fun _ => s.now)
        ∧ t.fld (INJ_DUTY n) INJ_DUTY_LIM = (if t.dutySum n + 400000 < t.dutyLimit n then 0 else s.fld (INJ_DUTY n) INJ_DUTY_LIM)
        ∧ (∀ m : Fin 12, m ≠ n → t.injOf m = s.injOf m) ∧ t = { s with regs := t.regs, inj := t.inj } ∧ ∀ k, k ≠ INJ_DUTY n → t.reg k = s.reg k))
    ∧ (∀ (k : Fin 2) (v f : BitVec 10) (s : State),
      let uv := s.fld (INJ_BLIM k) INJ_BLIM_UV
      let ov := s.fld (INJ_BLIM k) INJ_BLIM_OV
      let stop := vat s.drive.ovStop k
      (∃ t, Sys2Proof.Machine.exec (.vhvuv k v) s = .next t ∧ t.fld (INJ_BV k) INJ_BV_VHV = v.toNat
        ∧ t.inflight = s.inflight ++ (if v.toNat < uv then drvFault INJ_EVT_VHVUV k clsC else []) ∧ vat t.drive.ovStop k = stop
        ∧ (v.toNat < uv → t.bit INJ_EVT INJ_EVT_VHVUV = true) ∧ ∀ r, r ∉ [INJ_BV k, INJ_EVT, INJ_ALRT] → t.reg r = s.reg r)
      ∧ (∃ t, Sys2Proof.Machine.exec (.vhvov k v) s = .next t ∧ t.fld (INJ_BV k) INJ_BV_VHV = v.toNat
        ∧ t.inflight = s.inflight ++ (if ov < v.toNat then drvFault INJ_EVT_VHVOV k clsU else [])
        ∧ vat t.drive.ovStop k = (decide (ov < v.toNat) || stop)
        ∧ (ov < v.toNat → t.bit INJ_EVT INJ_EVT_VHVOV = true) ∧ ∀ r, r ∉ [INJ_BV k, INJ_EVT, INJ_ALRT] → t.reg r = s.reg r)
      ∧ (∃ t, Sys2Proof.Machine.exec (.vhvovRelease k v) s = .next t ∧ t.fld (INJ_BV k) INJ_BV_VHV = v.toNat
        ∧ vat t.drive.ovStop k = (stop && !decide (v.toNat + 10 < ov)) ∧ t.inflight = s.inflight ∧ ∀ r, r ≠ INJ_BV k → t.reg r = s.reg r)
      ∧ (∃ t, Sys2Proof.Machine.exec (.bstfb k v f) s = .next t ∧ t.fld (INJ_BV k) INJ_BV_VHV = v.toNat ∧ t.fld (INJ_BV k) INJ_BV_VFB = f.toNat
        ∧ (let far := decide (s.fld (INJ_BST k) INJ_BST_VSET < 20 * (if v.toNat < f.toNat then f.toNat - v.toNat else v.toNat - f.toNat))
          t.inflight = s.inflight ++ (if far then drvFault INJ_EVT_BSTFB k clsC else [])
          ∧ (far = true → t.bit INJ_EVT INJ_EVT_BSTFB = true)) ∧ ∀ r, r ∉ [INJ_BV k, INJ_EVT, INJ_ALRT] → t.reg r = s.reg r)))
  ∧ (
    (∀ (w : Word) (s : State),
      let bad := ∃ b : Fin 4, bitOf w (4 + b) = true ∧ (s.bit INJ_APPLIED (3 * b) || s.bit INJ_APPLIED (3 * b + 1) || s.bit INJ_APPLIED (3 * b + 2)) = true
      (bad → ∃ t, Sys2Proof.Machine.exec (.injDiagGo w) s = .next t ∧ s.writeRefused t INJ_DIAG)
      ∧ (¬bad → ∃ t, Sys2Proof.Machine.exec (.injDiagGo w) s = .next t
        ∧ t.fld INJ_DIAG INJ_DIAG_BUSY = (if bitOf w 0 then 1 else s.fld INJ_DIAG INJ_DIAG_BUSY)
        ∧ t.drive = (if bitOf w 0 then { s.drive with diagBanks := s.drive.diagBanks ||| INJ_DIAG_BANKS.get w } else s.drive)
        ∧ s.onlyRegs { t with drive := s.drive } [INJ_DIAG]))
    ∧ (∀ (short : BitVec 4) (opn mid : BitVec 12) (s : State),
      (s.fld INJ_DIAG INJ_DIAG_BUSY = 0 → Sys2Proof.Machine.exec (.diagdone short opn mid) s = .next s)
      ∧ (s.fld INJ_DIAG INJ_DIAG_BUSY = 1 → ∃ t, Sys2Proof.Machine.exec (.diagdone short opn mid) s = .next t
        ∧ t.fld INJ_DIAG INJ_DIAG_BUSY = 0 ∧ t.bit INJ_EVT INJ_EVT_DIAGDONE = true ∧ t.drive.diagBanks = 0
        ∧ (∀ b : Fin 4, s.drive.diagBanks.testBit b = false → t.reg (INJ_DRES b) = s.reg (INJ_DRES b)
            ∧ ∀ m, m < 12 → m / 3 = b.val → t.injOf m = s.injOf m)
        ∧ (∀ b : Fin 4, s.drive.diagBanks.testBit b = true → short.getLsbD b = true → t.reg (INJ_DRES b) = 0x100
            ∧ faultItem blkINJ b (0x10 + INJ_EVT_SHORTGND) clsU 0 ∈ t.inflight
            ∧ ∀ m, m < 12 → m / 3 = b.val → s.pulsing m = false → (t.injOf m).st = .latched
              ∧ ((s.injOf m).st ≠ .latched → t.bit INJ_STAT (16 + m) = true))
        ∧ (∀ b : Fin 4, s.drive.diagBanks.testBit b = true → short.getLsbD b = false → t.fld (INJ_DRES b) INJ_DRES_SHORT = 0
            ∧ ∀ i : Fin 3, t.fld (INJ_DRES b) ⟨2 * i, 2⟩
                  = (if opn.getLsbD (3 * b + i) then 2 else if mid.getLsbD (3 * b + i) then 3 else 1)
                ∧ (opn.getLsbD (3 * b + i) = true → faultItem blkINJ (3 * b + i) (0x10 + INJ_EVT_OPENOFF) clsC 0 ∈ t.inflight))))
    ∧ (∀ (w : Word) (s : State), ∃ t, Sys2Proof.Machine.exec (.injFclr w) s = .next t
        ∧ (∀ n : Fin 12,
            let ok := bitOf w n && decide ((s.injOf n).st = .latched) && s.iAtMost n 20
            t.injOf n = (if ok then { s.injOf n with st := .off } else s.injOf n) ∧ t.bit INJ_STAT (16 + n) = (s.bit INJ_STAT (16 + n) && !ok))
        ∧ s.onlyRegs { t with inj := s.inj } [INJ_STAT])
    ∧ (∀ s : State,
      (s.drive.alrtPulse = false → Sys2Proof.Machine.exec .alrtPulseEnd s = .next s)
      ∧ (s.drive.alrtPulse = true →
        let held := s.drive.alrtLink || (s.drive.alrtU && s.fld INJ_ALRT INJ_ALRT_HOLDU == 1)
        ∃ t, Sys2Proof.Machine.exec .alrtPulseEnd s = .next t ∧ t.drive.alrtPulse = false
          ∧ t.fld INJ_ALRT INJ_ALRT_LOW = (if held && !s.drive.alrtRel then s.fld INJ_ALRT INJ_ALRT_LOW else 0)
          ∧ s.onlyRegs { t with drive := s.drive } [INJ_ALRT]))
    ∧ (∀ (w : Word) (s : State), ∃ t, Sys2Proof.Machine.exec (.alrtRel w) s = .next t
        ∧ t.fld INJ_ALRT INJ_ALRT_HOLDU = INJ_ALRT_HOLDU.get w
        ∧ t.fld INJ_ALRT INJ_ALRT_LOW = (if bitOf w 1 && !s.drive.alrtPulse then 0 else s.fld INJ_ALRT INJ_ALRT_LOW)
        ∧ (s.drive.alrtPulse = true → t.drive = { s.drive with alrtRel := s.drive.alrtRel || bitOf w 1 })
        ∧ s.onlyRegs { t with drive := s.drive } [INJ_ALRT]))

/-- R392 to R395, R397, R400, R401, R403 to R405: at a boundary the shadows load, together under a commit, or the safe duty is in force, or a
resumed pair takes its shadows; every (IPRE + 1)th sets PRD. A transition of the request judges the window that begins: a short one is
dropped or stretched, with its flag and count; the outgoing switch goes off at once, and the incoming one waits for its dead time in COMPL.
Every (TPRE + 1)th trigger point pulses the pair's trigger output. -/
def Obligations.PwmPeriods : Prop :=
  (∀ (n : Fin 10) (below : Bool) (s : State), (s.pwmOn n = false → Sys2Proof.Machine.exec (.pwmBoundary n below) s = .next s)
    ∧ (s.pwmOn n = true → n.val < 8 → ∃ t, Sys2Proof.Machine.exec (.pwmBoundary n below) s = .next t
      ∧ (let p := s.pwmOf n
        let top := s.pwmTop n
        let cp := s.fld (PWM_CNT n) PWM_CNT_CPEND = 1
        let safe := s.fld (PWM_CNT n) PWM_CNT_SAFE = 1
        (¬safe → p.resume = false →
          t.pwmTop n = (if cp ∨ p.perW = true then s.fld (PWM_PER n) PWM_PER_TOP else top)
          ∧ t.pwmDuty n = (if cp ∨ p.dutW = true then s.fld (PWM_DUT n) PWM_DUT_DUTY else s.pwmDuty n)
          ∧ t.fld (PWM_CNT n) PWM_CNT_CPEND = 0
          ∧ (¬cp → ((p.perW = true ∧ p.dutW = false ∧ p.lastLoad = 2) ∨ (p.dutW = true ∧ p.perW = false ∧ p.lastLoad = 1)) →
              t.bit (PWM_ST n) PWM_ST_MISM = true ∧ t.bit PWM_EVT PWM_EVT_MISM = true))
        ∧ (safe → p.resume = false → t.pwmTop n = top
          ∧ t.pwmDuty n = roundDivN (s.fld (PWM_SAFE n) PWM_SAFE_SDUTY * (if s.pwmCentre n then top else top + 1)) 1000 % 65536
          ∧ t.fld (PWM_CNT n) PWM_CNT_SAFE = 1)
        ∧ (p.resume = true → t.fld (PWM_CNT n) PWM_CNT_SAFE = 0 ∧ t.pwmTop n = s.fld (PWM_PER n) PWM_PER_TOP
          ∧ t.pwmDuty n = s.fld (PWM_DUT n) PWM_DUT_DUTY ∧ (t.pwmOf n).resume = false)
        ∧ (t.pwmOf n).bAt = s.now
        ∧ (t.pwmOf n).req = (if s.pwmCentre n then decide (t.pwmTop n ≤ t.pwmDuty n) else decide (0 < t.pwmDuty n))
        ∧ (t.pwmOf n).ipc = (if s.fld (PWM_TRG n) PWM_TRG_IPRE ≤ p.ipc then 0 else p.ipc + 1)
        ∧ (s.fld (PWM_TRG n) PWM_TRG_IPRE ≤ p.ipc → t.bit PWM_EVT n = true ∧ evtItem PWM_EVT n ∈ t.inflight))
      ∧ (∀ m : Fin 10, m ≠ n → t.pwmOf m = s.pwmOf m) ∧ t = { s with regs := t.regs, pwm := t.pwm, inflight := t.inflight }
      ∧ ∀ k, k ∉ [PWM_ACT n, PWM_CNT n, PWM_ST n, PWM_EVT, PWM_SCNT n] → t.reg k = s.reg k))
  ∧ (∀ (n : Fin 10) (act : Bool) (s : State),
    (s.pwmOn n = false ∨ 8 ≤ n.val ∨ (s.pwmOf n).req = act → Sys2Proof.Machine.exec (.pwmTransition n act) s = .next s)
    ∧ (s.pwmOn n = true → n.val < 8 → (s.pwmOf n).req = !act →
      let outm := s.fld (PWM_CFG n) PWM_CFG_OUTM
      let top := s.pwmTop n
      let win := if s.pwmCentre n then 2 * min (s.pwmDuty n) top else min (s.pwmDuty n) (top + 1)
      let len := if act then win else (if s.pwmCentre n then 2 * top else top + 1) - win
      let least := s.fld (PWM_CFG n) PWM_CFG_MINW + if outm = 0 then s.fld (PWM_DT n) PWM_DT_DTMAX else 0
      let short := (act = true ∨ outm = 0) ∧ s.pwmMask n = 0 ∧ 0 < len ∧ len < least
      let drop := short ∧ s.fld (PWM_CFG n) PWM_CFG_SHORT = 0
      ∃ t, Sys2Proof.Machine.exec (.pwmTransition n act) s = .next t ∧ (t.pwmOf n).req = act
        ∧ t.fld (PWM_SCNT n) PWM_SCNT_SHORT = (if short then min 65535 (s.fld (PWM_SCNT n) PWM_SCNT_SHORT + 1) else s.fld (PWM_SCNT n) PWM_SCNT_SHORT)
        ∧ (short → t.bit (PWM_ST n) (if s.fld (PWM_CFG n) PWM_CFG_SHORT = 0 then PWM_ST_DROP else PWM_ST_STRETCH) = true
            ∧ t.bit PWM_EVT PWM_EVT_SHORTP = true ∧ t.inflight = s.inflight ++ [evtItem PWM_EVT PWM_EVT_SHORTP])
        ∧ (¬short → t.inflight = s.inflight)
        ∧ (s.pwmMask n = 0 → outm = 0 → drop → (t.pwmOf n).h = false ∧ (t.pwmOf n).l = false ∧ (t.pwmOf n).inc = none)
        ∧ (s.pwmMask n = 0 → outm = 0 → ¬drop → act = true → (t.pwmOf n).l = false ∧ (t.pwmOf n).h = (s.pwmOf n).h
            ∧ ((s.pwmOf n).h = false → (s.pwmOf n).inc = none → (t.pwmOf n).inc = some (true, s.now)))
        ∧ (s.pwmMask n = 0 → outm = 0 → ¬drop → act = false → (t.pwmOf n).h = false ∧ (t.pwmOf n).l = (s.pwmOf n).l
            ∧ ((s.pwmOf n).l = false → (s.pwmOf n).inc = none → (t.pwmOf n).inc = some (false, s.now)))
        ∧ (s.pwmMask n = 0 → outm = 1 → (t.pwmOf n).l = false ∧ ((t.pwmOf n).h = true ↔ act = true ∧ ¬drop))
        ∧ (s.pwmMask n = 0 → outm = 2 → (t.pwmOf n).h = false ∧ ((t.pwmOf n).l = true ↔ act = true ∧ ¬drop))
        ∧ (∀ m : Fin 10, m ≠ n → t.pwmOf m = s.pwmOf m) ∧ ∀ k, k ∉ [PWM_ST n, PWM_EVT, PWM_SCNT n] → t.reg k = s.reg k))
  ∧ (∀ (n : Fin 10) (s : State),
    let on := s.pwmOn n && s.fld (PWM_TRG n) PWM_TRG_TEN == 1 && decide (s.fld (PWM_TRG n) PWM_TRG_TPOS ≤ s.pwmTop n)
    (on = false → Sys2Proof.Machine.exec (.triggerPoint n) s = .next s)
    ∧ (on = true → s.fld (PWM_TRG n) PWM_TRG_TPRE ≤ (s.pwmOf n).tpc → ∃ t, Sys2Proof.Machine.exec (.triggerPoint n) s = .next t
      ∧ t.pwmOf n = { s.pwmOf n with tpc := 0 } ∧ t.inflight = (s.pulseSelected .drive (0x30 + n)).inflight
      ∧ t = { s with pwm := t.pwm, inflight := t.inflight } ∧ ∀ m : Fin 10, m ≠ n → t.pwmOf m = s.pwmOf m)
    ∧ (on = true → (s.pwmOf n).tpc < s.fld (PWM_TRG n) PWM_TRG_TPRE → ∃ t, Sys2Proof.Machine.exec (.triggerPoint n) s = .next t
      ∧ t.pwmOf n = { s.pwmOf n with tpc := (s.pwmOf n).tpc + 1 } ∧ t = { s with pwm := t.pwm } ∧ ∀ m : Fin 10, m ≠ n → t.pwmOf m = s.pwmOf m))

/-- R392, R394, R398, R399, R402, R404 to R407: a detected crossing turns the incoming switch on after the dead time it measures, a timeout
at DTMAX with its flag. A commutation event brings each pair's next mask into force, OFF at once. Enables come into force while the link
carries them and are refused where a period is too short; a disabled pair is off and out of the safe state. COMMIT, SAFECMD and RESUME act
on the pairs they may name. -/
def Obligations.PwmControl : Prop :=
  (∀ (n : Fin 10) (s : State),
    let p := s.pwmOf n
    (p.inc = none ∨ p.onAt.isSome = true → Sys2Proof.Machine.exec (.swNodeCrossing n) s = .next s
      ∧ Sys2Proof.Machine.exec (.nodeTimeout n) s = .next s)
    ∧ ∀ i, p.inc = some i → p.onAt = none →
      let d := (s.now - i.2) / 2
      let dt := max (s.fld (PWM_DT n) PWM_DT_DTMIN) (min (d + s.fld (PWM_DT n) PWM_DT_MARGIN) (s.fld (PWM_DT n) PWM_DT_DTMAX))
      (∃ t, Sys2Proof.Machine.exec (.swNodeCrossing n) s = .next t
        ∧ t.fld (PWM_MEAS n) (if i.1 then PWM_MEAS_DLH else PWM_MEAS_DHL) = min 65534 d
        ∧ (s.now < i.2 + 2 * dt → t.pwmOf n = { p with onAt := some (i.2 + 2 * dt) })
        ∧ (i.2 + 2 * dt ≤ s.now → (if i.1 then (t.pwmOf n).h else (t.pwmOf n).l) = true ∧ (t.pwmOf n).inc = none)
        ∧ (∀ m : Fin 10, m ≠ n → t.pwmOf m = s.pwmOf m) ∧ ∀ k, k ≠ PWM_MEAS n → t.reg k = s.reg k)
      ∧ (s.now < i.2 + 2 * s.fld (PWM_DT n) PWM_DT_DTMAX → Sys2Proof.Machine.exec (.nodeTimeout n) s = .next s)
      ∧ (i.2 + 2 * s.fld (PWM_DT n) PWM_DT_DTMAX ≤ s.now → ∃ t, Sys2Proof.Machine.exec (.nodeTimeout n) s = .next t
        ∧ (if i.1 then (t.pwmOf n).h else (t.pwmOf n).l) = true ∧ t.fld (PWM_MEAS n) (if i.1 then PWM_MEAS_DLH else PWM_MEAS_DHL) = 65535
        ∧ t.bit (PWM_ST n) PWM_ST_NODE = true ∧ t.bit PWM_EVT PWM_EVT_NODE = true
        ∧ t.fld (PWM_SCNT n) PWM_SCNT_NODE = min 65535 (s.fld (PWM_SCNT n) PWM_SCNT_NODE + 1)
        ∧ ∀ k, k ∉ [PWM_MEAS n, PWM_ST n, PWM_EVT, PWM_SCNT n] → t.reg k = s.reg k))
  ∧ (∀ (s : State) (soft : Bool) (l : Fin 32) (w : Word),
    let r := if soft then Sys2Proof.Machine.exec (.pwmCmut w) s else Sys2Proof.Machine.exec (.commutation l) s
    ∃ t, r = .next t
      ∧ (∀ n : Fin 10,
          let hit := if soft then bitOf w n else decide (s.fld (PWM_MSK n) PWM_MSK_CSRC = l)
          t.fld (PWM_MSK n) PWM_MSK_APPL = (if hit then s.fld (PWM_MSK n) PWM_MSK_NEXT else s.fld (PWM_MSK n) PWM_MSK_APPL)
          ∧ (hit = false ∨ s.pwmOn n = false → t.pwmOf n = s.pwmOf n)
          ∧ (hit = true → s.pwmOn n = true → (s.pwmOf n).safeOn = false →
              let m := s.fld (PWM_MSK n) PWM_MSK_NEXT
              (m = 1 → (t.pwmOf n).h = false ∧ (t.pwmOf n).l = false ∧ (t.pwmOf n).inc = none)
              ∧ (m = 2 → (t.pwmOf n).h = false ∧ (t.pwmOf n).l = (s.pwmOf n).l
                  ∧ ((s.pwmOf n).l = false → (s.pwmOf n).inc = none → (t.pwmOf n).inc = some (false, s.now)))
              ∧ (m = 3 → (t.pwmOf n).l = false ∧ (t.pwmOf n).h = (s.pwmOf n).h
                  ∧ ((s.pwmOf n).h = false → (s.pwmOf n).inc = none → (t.pwmOf n).inc = some (true, s.now)))))
      ∧ t = { s with regs := t.regs, pwm := t.pwm, inflight := t.inflight } ∧ ∀ k, (∀ n : Fin 10, k ≠ PWM_MSK n) → t.reg k = s.reg k)
  ∧ (∀ (w : Word) (s : State),
    let bad := ∃ i : Fin 10, bitOf w i = true ∧ s.periodOk i (s.fld (PWM_PER i) PWM_PER_TOP) = false
    (bad → ∃ t, Sys2Proof.Machine.exec (.pwmCtrlWrite w) s = .next t ∧ s.writeRefused t PWM_CTRL)
    ∧ (¬bad → ∃ t, Sys2Proof.Machine.exec (.pwmCtrlWrite w) s = .next t
      ∧ t.fld PWM_CTRL PWM_CTRL_EN = PWM_CTRL_EN.get w ∧ t.fld PWM_CTRL PWM_CTRL_GEN = PWM_CTRL_GEN.get w
      ∧ (s.linkOk = false → s.onlyRegs t [PWM_CTRL])
      ∧ (s.linkOk = true → t.fld PWM_APPLIED PWM_APPLIED_EN = PWM_CTRL_EN.get w ∧ t.fld PWM_APPLIED PWM_APPLIED_GEN = PWM_CTRL_GEN.get w
        ∧ (∀ n : Fin 10, s.pwmOn n = bitOf w n → t.pwmOf n = s.pwmOf n)
        ∧ (∀ n : Fin 10, s.pwmOn n = true → bitOf w n = false → (t.pwmOf n).h = false ∧ (t.pwmOf n).l = false
            ∧ (t.pwmOf n).safeOn = false ∧ t.fld (PWM_CNT n) PWM_CNT_SAFE = 0 ∧ t.fld (PWM_CNT n) PWM_CNT_CPEND = 0)
        ∧ (∀ n : Fin 10, s.pwmOn n = false → bitOf w n = true → (t.pwmOf n).bAt = s.now ∧ (t.pwmOf n).tpc = 0)
        ∧ (∀ n : Fin 8, s.pwmOn n = false → bitOf w n = true → t.fld (PWM_SCNT n) PWM_SCNT_NODE = 0) ∧ t.mem = s.mem)))
  ∧ (∀ (n : Fin 10) (w : Word) (s : State), ∃ t, Sys2Proof.Machine.exec (.pwmCommit n w) s = .next t
      ∧ t.fld (PWM_CNT n) PWM_CNT_CPEND = (if bitOf w 0 then 1 else s.fld (PWM_CNT n) PWM_CNT_CPEND) ∧ s.onlyRegs t [PWM_CNT n])
  ∧ (∀ (w : Word) (s : State),
    let off := ∃ i : Fin 8, bitOf w i = true ∧ s.pwmOn i = false
    let out := ∃ i : Fin 8, bitOf w i = true ∧ s.fld (PWM_CNT i) PWM_CNT_SAFE = 0
    (off → ∃ t, Sys2Proof.Machine.exec (.pwmSafecmd w) s = .next t ∧ s.writeRefused t PWM_SAFECMD)
    ∧ (¬off → ∃ t, Sys2Proof.Machine.exec (.pwmSafecmd w) s = .next t
      ∧ (∀ i : Fin 8, t.fld (PWM_CNT i) PWM_CNT_SAFE = (if bitOf w i then 1 else s.fld (PWM_CNT i) PWM_CNT_SAFE)
          ∧ t.pwmOf i = if bitOf w i then { s.pwmOf i with resume := false } else s.pwmOf i)
      ∧ (∀ i : Fin 8, bitOf w i = true → t.bit PWM_EVT PWM_EVT_SAFE = true ∧ evtItem PWM_EVT PWM_EVT_SAFE ∈ t.inflight)
      ∧ t = { s with regs := t.regs, pwm := t.pwm, inflight := t.inflight } ∧ ∀ k, (∀ i : Fin 8, k ≠ PWM_CNT i) → k ≠ PWM_EVT → t.reg k = s.reg k)
    ∧ (out → ∃ t, Sys2Proof.Machine.exec (.pwmResume w) s = .next t ∧ s.writeRefused t PWM_RESUME)
    ∧ (¬out → ∃ t, Sys2Proof.Machine.exec (.pwmResume w) s = .next t
      ∧ (∀ i : Fin 8, t.pwmOf i = if bitOf w i then { s.pwmOf i with resume := true } else s.pwmOf i)
      ∧ s.onlyRegs { t with pwm := s.pwm } []))

/-- R408 to R412, R414, R415, R421: a boost pair begins its switching period at a boundary where it may switch and its output is below
target, else the period is skipped and counted; PWM_L goes off on the comparator's level after blanking, or at DMAX with its event; the
rectifier follows with SRMODE and goes off after SRTON. A ramp message starts or ends the ramp of the comparator that serves its converter.
A filtered edge of an enabled, unforced comparator sets its level, counts, and tells its consumers; enabling forces the output and clears
the counts, disabling forces it low without an edge, and a forcing that ends on a high level is a rising edge. -/
def Obligations.BoostAndComparators : Prop :=
  (∀ (k : Fin 2) (below : Bool) (s : State), s.pwmOn (8 + k) = true → s.fld (PWM_CNT (8 + k)) PWM_CNT_SAFE = 0 →
    (s.pwmOf (8 + k)).resume = false → (s.pwmOf (8 + k)).safeOn = false → s.fld (PWM_MSK (8 + k)) PWM_MSK_APPL = 0 →
    ∃ t, Sys2Proof.Machine.exec (.pwmBoundary ⟨8 + k, by omega⟩ below) s = .next t
      ∧ (t.pwmOf (8 + k)).bAt = s.now ∧ (t.pwmOf (8 + k)).h = false
      ∧ (let go := s.boostMay k && below
        (go = true → (s.pwmOf (8 + k)).h = false → (t.pwmOf (8 + k)).l = true ∧ (t.pwmOf (8 + k)).lOn = s.now
            ∧ ⟨.drive, .converter, .ramp k true⟩ ∈ t.inflight ∧ t.reg (PWM_BCNT k) = s.reg (PWM_BCNT k))
        ∧ (go = true → (s.pwmOf (8 + k)).h = true → (t.pwmOf (8 + k)).l = false ∧ (t.pwmOf (8 + k)).inc = some (false, s.now))
        ∧ (go = false → (t.pwmOf (8 + k)).l = false ∧ (t.pwmOf (8 + k)).inc = none
            ∧ t.fld (PWM_BCNT k) PWM_BCNT_SKIP = min 65535 (s.fld (PWM_BCNT k) PWM_BCNT_SKIP + 1)
            ∧ (s.boostCmp k = 0 → t.bit (PWM_ST (8 + k)) PWM_ST_BNOCMP = true ∧ t.bit PWM_EVT PWM_EVT_BOOST = true))))
  ∧ (∀ (k : Fin 2) (s : State),
    let p := s.pwmOf (8 + k)
    let rect := s.fld (PWM_BST k) PWM_BST_SRMODE
    let endRamp : Item := ⟨.drive, .converter, .ramp k false⟩
    let stopped := fun t : State => t.pwmOf (8 + k) = { p with
      l := false
      inc := if rect = 1 then some (true, s.now) else p.inc
      onAt := if rect = 1 then none else p.onAt }
    (p.l = false ∨ s.now < p.lOn + 2 * s.fld (PWM_BST k) PWM_BST_BLANK → Sys2Proof.Machine.exec (.boostTrip k) s = .next s)
    ∧ (p.l = true → p.lOn + 2 * s.fld (PWM_BST k) PWM_BST_BLANK ≤ s.now → ∃ t, Sys2Proof.Machine.exec (.boostTrip k) s = .next t
      ∧ stopped t
      ∧ (∀ c : Fin 8, t.bit CMP_STAT (16 + c) = (s.bit CMP_STAT (16 + c)
          && !decide (s.fld (CMP_CFG c) CMP_CFG_MODE = 1 ∧ s.fld (CMP_CFG c) CMP_CFG_BST = k)))
      ∧ s.onlySends { t with pwm := s.pwm } [CMP_STAT] [endRamp])
    ∧ (p.l = false ∨ 1000 * (s.now - p.lOn) < 2 * s.fld (PWM_BST k) PWM_BST_DMAX * (s.pwmTop (8 + k) + 1) →
      Sys2Proof.Machine.exec (.bmaxd k) s = .next s)
    ∧ (p.l = true → 2 * s.fld (PWM_BST k) PWM_BST_DMAX * (s.pwmTop (8 + k) + 1) ≤ 1000 * (s.now - p.lOn) →
      ∃ t, Sys2Proof.Machine.exec (.bmaxd k) s = .next t ∧ stopped t ∧ t.bit (PWM_ST (8 + k)) PWM_ST_BMAXD = true
        ∧ t.bit PWM_EVT PWM_EVT_BOOST = true ∧ t.fld (PWM_BCNT k) PWM_BCNT_MAXD = min 65535 (s.fld (PWM_BCNT k) PWM_BCNT_MAXD + 1)
        ∧ s.onlySends { t with pwm := s.pwm } [PWM_ST (8 + k), PWM_EVT, PWM_BCNT k] [endRamp, evtItem PWM_EVT PWM_EVT_BOOST])
    ∧ (p.h = false ∨ s.now < p.hOn + 2 * s.fld (PWM_BSR k) PWM_BSR_SRTON → Sys2Proof.Machine.exec (.srOff k) s = .next s)
    ∧ (p.h = true → p.hOn + 2 * s.fld (PWM_BSR k) PWM_BSR_SRTON ≤ s.now → ∃ t, Sys2Proof.Machine.exec (.srOff k) s = .next t
      ∧ t.pwmOf (8 + k) = { p with h := false } ∧ t = { s with pwm := t.pwm }))
  ∧ (∀ (s : State) (k : Nat) (b : Bool), s.nextItem .drive .converter = some (.ramp k b) →
    ∃ t, Sys2Proof.Machine.exec .rampStart s = .next t
      ∧ (∀ c : Fin 8,
          let mine := s.cmpOn c && s.fld (CMP_CFG c) CMP_CFG_MODE == 1 && s.fld (CMP_CFG c) CMP_CFG_BST == k
          t.bit CMP_STAT (16 + c) = (if mine then b else s.bit CMP_STAT (16 + c))
          ∧ vat t.rampAt c = if mine then s.now else vat s.rampAt c)
      ∧ t = { s with regs := t.regs, rampAt := t.rampAt, inflight := dropFirstItem .drive .converter s.inflight }
      ∧ ∀ r, r ≠ CMP_STAT → t.reg r = s.reg r)
  ∧ (∀ (n : Fin 8) (up : Bool) (s : State),
    (s.cmpOn n = false ∨ s.cmpForced n = true ∨ s.bit CMP_STAT n = up → Sys2Proof.Machine.exec (.cmpFilteredEdge n up) s = .next s)
    ∧ (s.cmpOn n = true → s.cmpForced n = false → s.bit CMP_STAT n = !up → ∃ t, Sys2Proof.Machine.exec (.cmpFilteredEdge n up) s = .next t
      ∧ s.cmpEdged t n up)
    ∧ (s.cmpOn n = false ∨ s.cmpForced n = false → Sys2Proof.Machine.exec (.cmpForceEnd n up) s = .next s)
    ∧ (s.cmpOn n = true → s.cmpForced n = true → ∃ t, Sys2Proof.Machine.exec (.cmpForceEnd n up) s = .next t ∧ t.cmpForced n = false
      ∧ (up = true → s.cmpEdged t n true)
      ∧ (up = false → (∀ i, i < 32 → i ≠ 8 + n.val → t.bit CMP_STAT i = s.bit CMP_STAT i) ∧ s.onlyRegs t [CMP_STAT])))
  ∧ (∀ (n : Fin 8) (w : Word) (s : State),
    let clash := CMP_CFG_MODE.get w = 1 ∧ ∃ m : Fin 8, m ≠ n ∧ s.fld (CMP_CFG m) CMP_CFG_MODE = 1 ∧ s.fld (CMP_CFG m) CMP_CFG_BST = CMP_CFG_BST.get w
    let moved := CMP_CFG_MODE.get w ≠ s.fld (CMP_CFG n) CMP_CFG_MODE ∨ CMP_CFG_BST.get w ≠ s.fld (CMP_CFG n) CMP_CFG_BST
    (s.cmpOn n = false → ¬clash → CMP_CFG_EN.get w = 1 → ∃ t, Sys2Proof.Machine.exec (.cmpEnable n w) s = .next t
      ∧ t.cmpOn n = true ∧ t.fld (CMP_CFG n) CMP_CFG_MODE = CMP_CFG_MODE.get w ∧ t.fld (CMP_CFG n) CMP_CFG_BST = CMP_CFG_BST.get w
      ∧ t.fld (CMP_CFG n) CMP_CFG_EFILT = CMP_CFG_EFILT.get w ∧ t.cmpForced n = true ∧ t.reg (CMP_CNT n) = 0
      ∧ s.onlyRegs t [CMP_CFG n, CMP_STAT, CMP_CNT n])
    ∧ (s.cmpOn n = true → ¬clash → ¬moved → CMP_CFG_EN.get w = 0 → ∃ t, Sys2Proof.Machine.exec (.cmpDisable n w) s = .next t
      ∧ t.cmpOn n = false ∧ t.cmpForced n = true ∧ t.bit CMP_STAT n = false ∧ t.bit CMP_STAT (16 + n) = false
      ∧ s.onlyRegs t [CMP_CFG n, CMP_STAT])
    ∧ (clash ∨ (s.cmpOn n = true ∧ moved) → (∃ t, Sys2Proof.Machine.exec (.cmpEnable n w) s = .next t ∧ s.writeRefused t (CMP_CFG n))
      ∧ ∃ t, Sys2Proof.Machine.exec (.cmpDisable n w) s = .next t ∧ s.writeRefused t (CMP_CFG n)))

/-- R423 to R431, R435 to R441, R451: a dispatched SAMPLE is converted at its slot, or as soon after as the converter allows, and a conversion
of another source in its way is abandoned; a marker takes its place in the order. With nothing in its way an enabled, unreserved converter
begins the injected, the regular, the calibration or the loop conversion, in this order. 200 ns after its aperture a conversion completes:
its result word stands in the input's register and its destination, corrected, marked and watched; the last of a sequence ends its run; the
last of a calibration sets the pair or reports it out of range. -/
def Obligations.FastConversions : Prop :=
  (∀ (s : State) (input slot : Nat) (late : Bool) (w2 w3 : Word), s.nextItem .angle .converter = some (.sample input slot late w2 w3) → input < 48 →
    let f := input / 12
    let kept := (s.fadcOf f).conv.filter fun d => d.miss || d.src == 0 || decide (d.apt + 60 ≤ s.now)
    let t0 := max slot (if kept.length < (s.fadcOf f).conv.length then s.now + 20 else s.now)
    let apt := match (kept.filter fun d => !d.miss).getLast? with | some c => max t0 (c.apt + 80) | none => t0
    let dly := decide (slot + 3 ≤ apt)
    ∃ t, Sys2Proof.Machine.exec .fadcSampleDispatch s = .next t
      ∧ (t.fadcOf f).conv = kept ++ [{ src := 0, input := input, gain := s.fld (FADC_CH input) FADC_CH_GAIN, apt := apt, dly := dly, kill := !s.fadcOn f, w2 := w2, w3 := w3 }]
      ∧ t.fld (FADC_CNT f) FADC_CNT_DLY = (if dly then min 65535 (s.fld (FADC_CNT f) FADC_CNT_DLY + 1) else s.fld (FADC_CNT f) FADC_CNT_DLY)
      ∧ t.inflight = dropFirstItem .angle .converter s.inflight ++ (if dly then [evtItem FADC_EVT FADC_EVT_DLY] else [])
      ∧ (∀ g : Fin 4, g.val ≠ f → t.fadcOf g = s.fadcOf g)
      ∧ t = { s with regs := t.regs, fadc := t.fadc, inflight := t.inflight } ∧ ∀ k, k ≠ FADC_CNT f → k ≠ FADC_EVT → t.reg k = s.reg k)
  ∧ (∀ (s : State) (input slot : Nat) (a w2 w3 : Word), s.nextItem .angle .converter = some (.sampleMiss input a slot w2 w3) → input < 48 →
    let f := input / 12
    let c := (s.fadcOf f).conv
    let rest := dropFirstItem .angle .converter s.inflight
    (c = [] → bitOf w2 1 = false → ∃ t, Sys2Proof.Machine.exec .fadcSampleDispatch s = .next t
      ∧ t = { s with inflight := rest ++ (if bitOf w2 0 then [⟨.converter, .combustion, .cmbSample (w2.toNat / 2 ^ 16 % 16)
          (BitVec.ofNat 32 (2 ^ 16 * input + 2 ^ 24 + 2 ^ 27)) a (s.slotAt slot) w3⟩] else []) })
    ∧ (∀ d, c.head? = some d → d.miss = false → ∃ t, Sys2Proof.Machine.exec .fadcSampleDispatch s = .next t
      ∧ (t.fadcOf f).conv = c ++ [{ input := input, apt := slot, miss := true, ang := some a, w2 := w2, w3 := w3 }]
      ∧ t = { s with fadc := t.fadc, inflight := rest }))
  ∧ (∀ (f : Fin 4) (s : State),
    let x := s.fadcOf f
    let apt := max (s.now + 20) (match x.lastApt with | some u => u + 80 | none => 0)
    let has := s.budHas (s.binding (12 + f)) resCONV 1
    let jw := s.bit FADC_STAT (4 + f) && decide (x.inj.idx < x.inj.ents.length) && decide (x.inj.at_ ≤ s.now)
    let rw := s.bit FADC_STAT f && decide (x.reg.idx < x.reg.ents.length) && decide (x.reg.at_ ≤ s.now)
    let ents := if x.loopIdx = 0 then s.seqEntries (FADC_LSQ f 0) (s.fld (FADC_CFG f) FADC_CFG_LLEN) else x.loop
    let free := s.fadcOn f = true ∧ s.busyConv f = [] ∧ s.reserved f = false
    (¬free → Sys2Proof.Machine.exec (.fadcNextConversion f) s = .next s)
    ∧ (free → has = true → jw = true → ∃ t, Sys2Proof.Machine.exec (.fadcNextConversion f) s = .next t
      ∧ (t.fadcOf f).conv = x.conv ++ [{ src := 1, input := x.inj.ents.getD x.inj.idx 0, gain := s.fld (FADC_CH (x.inj.ents.getD x.inj.idx 0)) FADC_CH_GAIN, apt := apt, idx := x.inj.idx, dly := decide (x.inj.req + 3 ≤ apt) }]
      ∧ (t.fadcOf f).inj.idx = x.inj.idx + 1 ∧ (t.fadcOf f).reg = x.reg ∧ ∀ g : Fin 4, g ≠ f → t.fadcOf g = s.fadcOf g)
    ∧ (free → has = true → jw = false → rw = true → ∃ t, Sys2Proof.Machine.exec (.fadcNextConversion f) s = .next t
      ∧ (t.fadcOf f).conv = x.conv ++ [{ src := 2, input := x.reg.ents.getD x.reg.idx 0, gain := s.fld (FADC_CH (x.reg.ents.getD x.reg.idx 0)) FADC_CH_GAIN, apt := apt, idx := x.reg.idx, dly := decide (x.reg.req + 3 ≤ apt) }]
      ∧ (t.fadcOf f).reg.idx = x.reg.idx + 1 ∧ (t.fadcOf f).inj = x.inj ∧ ∀ g : Fin 4, g ≠ f → t.fadcOf g = s.fadcOf g)
    ∧ (∀ k, x.cal = some k → k.begun < 128 → k.gains ≠ [] → free → jw = false → rw = false →
      ∃ t, Sys2Proof.Machine.exec (.fadcNextConversion f) s = .next t
        ∧ (t.fadcOf f).conv = x.conv ++ [{ src := 4, input := 0, gain := k.gains.headD 0, apt := apt, idx := k.begun }]
        ∧ (t.fadcOf f).cal = some { k with begun := k.begun + 1 } ∧ t.regs = s.regs ∧ t.inflight = s.inflight)
    ∧ (free → jw = false → rw = false → x.cal = none →
      (ents = [] → ∃ t, Sys2Proof.Machine.exec (.fadcNextConversion f) s = .next t ∧ (t.fadcOf f).conv = x.conv ∧ t = { s with fadc := t.fadc })
      ∧ (ents ≠ [] → has = true → ∃ t, Sys2Proof.Machine.exec (.fadcNextConversion f) s = .next t
        ∧ (t.fadcOf f).conv = x.conv ++ [{ src := 3, input := ents.getD x.loopIdx 0, gain := s.fld (FADC_CH (ents.getD x.loopIdx 0)) FADC_CH_GAIN, apt := apt, idx := x.loopIdx }]
        ∧ (t.fadcOf f).loopIdx = (if x.loopIdx + 1 < ents.length then x.loopIdx + 1 else 0) ∧ (t.fadcOf f).loop = ents
        ∧ t.regs = s.regs ∧ t.inflight = s.inflight)
      ∧ (ents ≠ [] → has = false → ∃ t, Sys2Proof.Machine.exec (.fadcNextConversion f) s = .next t
        ∧ t = { s with meters := t.meters })))
  ∧ (∀ (f : Fin 4) (raw : BitVec 16) (outside : Bool) (s : State),
    ((s.fadcOf f).conv = [] → Sys2Proof.Machine.exec (.fadcConversionDone f raw outside) s = .next s)
    ∧ ∀ c, (s.fadcOf f).conv.head? = some c →
      (c.miss = true ∨ s.now < c.apt + 80 → Sys2Proof.Machine.exec (.fadcConversionDone f raw outside) s = .next s)
      ∧ (c.miss = false → c.apt + 80 ≤ s.now → (c.src = 4 ∨ c.input / 12 = f) → c.gain < 4 → c.idx < 16 → (∀ d ∈ (s.fadcOf f).conv.tail, d.miss = false) →
        let x := s.fadcOf f
        let n := c.input
        let cal := s.reg (FADC_CAL f c.gain)
        let code := if c.kill then 0 else (max 0 (min 65535 (((raw.toNat : Int) - FADC_CAL_OFS.getI cal) * FADC_CAL_GC.get cal / 32768))).toNat
        let inv := c.kill || x.gains.any fun g => g != c.gain
        let ovr := outside && (raw == 0 || raw == 65535)
        let win := (decide (code < s.fld (FADC_WIN n) FADC_WIN_LO) || decide (s.fld (FADC_WIN n) FADC_WIN_HI < code)) && !inv
        let res := BitVec.ofNat 32 (code + 2 ^ 16 * n + 2 ^ 22 * min c.src 3 + 2 ^ 24 * b2n inv + 2 ^ 25 * b2n ovr
          + 2 ^ 26 * b2n (0 < x.recov) + 2 ^ 28 * b2n c.dly + 2 ^ 29 * b2n win + 2 ^ 30 * b2n (s.dacOn n))
        (c.src < 4 → ∃ t, Sys2Proof.Machine.exec (.fadcConversionDone f raw outside) s = .next t
          ∧ t.reg (FADC_LAST n) = res ∧ (t.fadcOf f).conv = x.conv.tail ∧ (t.fadcOf f).gains = (c.gain :: x.gains).take 2
          ∧ (t.fadcOf f).recov = (if ovr then 2 else x.recov - 1) ∧ (ovr = true → t.bit FADC_EVT FADC_EVT_OVR = true)
          ∧ (inv = false → (vat t.faWatch n).okAt = s.now ∧ (vat t.faWatch n).out = (if win then (vat s.faWatch n).out + 1 else 0))
          ∧ (inv = true → t.faWatch = s.faWatch)
          ∧ (inv = false → win = true → s.fld (FADC_CH n) FADC_CH_NWIN ≤ (vat s.faWatch n).out + 1 → (vat s.faWatch n).set = false →
              t.bit FADC_EVT FADC_EVT_WINF = true ∧ faultItem blkFADC (n / 12) 0x06 clsC n ∈ t.inflight)
          ∧ (c.src = 0 → bitOf c.w2 0 = true → ⟨.converter, .combustion, .cmbSample (c.w2.toNat / 2 ^ 16 % 16) res (c.ang.getD s.obsAng)
                (s.slotAt c.apt) c.w3⟩ ∈ t.inflight)
          ∧ (c.src = 1 → c.idx < 4 → t.reg (FADC_JDAT f c.idx) = res
              ∧ (s.bit FADC_STAT (4 + f) = true → c.idx + 1 = x.inj.ents.length → t.bit FADC_EVT (4 + f) = true
                  ∧ t.bit FADC_STAT (4 + f) = s.bit FADC_STAT (16 + f)))
          ∧ (c.src = 2 → t.reg (FADC_RDAT f c.idx) = res
              ∧ (s.bit FADC_STAT f = true → c.idx + 1 = x.reg.ents.length → t.bit FADC_EVT f = true
                  ∧ t.bit FADC_STAT f = s.bit FADC_STAT (12 + f))))
        ∧ (∀ k, x.cal = some k → c.src = 4 →
          let m0 := k.sum0 + if k.done < 64 then raw.toNat else 0
          let m1 := k.sum1 + if k.done < 64 then 0 else raw.toNat
          (k.done < 127 → ∃ t, Sys2Proof.Machine.exec (.fadcConversionDone f raw outside) s = .next t
            ∧ (t.fadcOf f).cal = some { k with done := k.done + 1, sum0 := m0, sum1 := m1 })
          ∧ (k.done = 127 → k.gains.length = 1 → k.gains.headD 0 < 4 → k.pairs = [] →
            let ofs := roundDiv m0 64
            let gc : Int := if m1 = m0 then 0 else rround (((49152 * 32768 * 64 : Int) : Rat) / (((m1 : Int) - m0 : Int) : Rat))
            let ok := -4095 ≤ ofs ∧ ofs ≤ 4095 ∧ 16384 ≤ gc ∧ gc ≤ 49151
            ∃ t, Sys2Proof.Machine.exec (.fadcConversionDone f raw outside) s = .next t
              ∧ (t.fadcOf f).cal = none ∧ t.bit FADC_STAT (8 + f) = false
              ∧ (ok → FADC_CAL_OFS.getI (t.reg (FADC_CAL f (k.gains.headD 0))) = ofs
                  ∧ (FADC_CAL_GC.get (t.reg (FADC_CAL f (k.gains.headD 0))) : Int) = gc ∧ t.bit FADC_EVT FADC_EVT_CALDONE = true)
              ∧ (¬ok → (∀ g : Fin 4, t.reg (FADC_CAL f g) = s.reg (FADC_CAL f g)) ∧ t.bit FADC_EVT FADC_EVT_CALERR = true
                  ∧ faultItem blkFADC f 0x10 clsC 0 ∈ t.inflight)))))

/-- R432 to R434, R442, R451, R459: a trigger, by its line or by software, starts an idle sequence of an enabled converter with the entries its
registers hold, is held once by a running one, and is dropped and counted after that. A command bit of a disabled converter is refused; SCAL
starts a calibration of the gains in CALG. Clearing an enable bit marks the conversions under way, stops the sequences and a calibration, and
retires every SAMPLE of the converter's inputs. -/
def Obligations.FastControl : Prop :=
  (∀ (l : Fin 32) (w : BitVec 4) (soft : Bool) (s : State), (soft = true → ∀ i : Fin 4, w.getLsbD i = true → s.fadcOn i = true) →
    let r := if soft then Sys2Proof.Machine.exec (.fadcRsw w) s else Sys2Proof.Machine.exec (.fadcRegularTrigger l) s
    let j := if soft then Sys2Proof.Machine.exec (.fadcJsw w) s else Sys2Proof.Machine.exec (.fadcInjectedTrigger l) s
    (∃ t, r = .next t
      ∧ (∀ f : Fin 4,
          let hit := s.fadcOn f && if soft then w.getLsbD f else decide (s.fld (FADC_CFG f) FADC_CFG_RTRIG = l)
          let run := s.bit FADC_STAT f
          let held := s.bit FADC_STAT (12 + f)
          t.bit FADC_STAT f = (run || hit) ∧ t.bit FADC_STAT (12 + f) = (held || (hit && run))
          ∧ t.fld (FADC_CNT f) FADC_CNT_TOVR
              = (if hit && run && held then min 255 (s.fld (FADC_CNT f) FADC_CNT_TOVR + 1) else s.fld (FADC_CNT f) FADC_CNT_TOVR)
          ∧ (hit && !run = true → (t.fadcOf f).reg.idx = 0
              ∧ (t.fadcOf f).reg.ents = s.seqEntries (FADC_RSQ f 0) (s.fld (FADC_CFG f) FADC_CFG_RLEN + 1))
          ∧ (hit && !run = false → t.fadcOf f = s.fadcOf f))
      ∧ t = { s with regs := t.regs, fadc := t.fadc, inflight := t.inflight }
      ∧ ∀ k, k ≠ FADC_STAT → k ≠ FADC_EVT → (∀ f : Fin 4, k ≠ FADC_CNT f) → t.reg k = s.reg k)
    ∧ (∃ t, j = .next t
      ∧ (∀ f : Fin 4,
          let hit := s.fadcOn f && if soft then w.getLsbD f else decide (s.fld (FADC_CFG f) FADC_CFG_JTRIG = l)
          let run := s.bit FADC_STAT (4 + f)
          let held := s.bit FADC_STAT (16 + f)
          t.bit FADC_STAT (4 + f) = (run || hit) ∧ t.bit FADC_STAT (16 + f) = (held || (hit && run))
          ∧ t.fld (FADC_CNT f) FADC_CNT_TOVR
              = (if hit && run && held then min 255 (s.fld (FADC_CNT f) FADC_CNT_TOVR + 1) else s.fld (FADC_CNT f) FADC_CNT_TOVR)
          ∧ (hit && !run = true → (t.fadcOf f).inj.idx = 0
              ∧ (t.fadcOf f).inj.ents = s.seqEntries (FADC_JSQ f) (s.fld (FADC_CFG f) FADC_CFG_JLEN + 1))
          ∧ (hit && !run = false → t.fadcOf f = s.fadcOf f))
      ∧ t = { s with regs := t.regs, fadc := t.fadc, inflight := t.inflight }
      ∧ ∀ k, k ≠ FADC_STAT → k ≠ FADC_EVT → (∀ f : Fin 4, k ≠ FADC_CNT f) → t.reg k = s.reg k))
  ∧ (∀ (w : BitVec 4) (s : State),
    ((∃ i : Fin 4, w.getLsbD i = true ∧ s.fadcOn i = false) →
      (∃ t, Sys2Proof.Machine.exec (.fadcRsw w) s = .next t ∧ s.writeRefused t FADC_CMD)
      ∧ (∃ t, Sys2Proof.Machine.exec (.fadcJsw w) s = .next t ∧ s.writeRefused t FADC_CMD))
    ∧ (let bad := ∃ i : Fin 4, w.getLsbD i = true
          ∧ (s.fadcOn i = false ∨ s.fld (FADC_OPT i) FADC_OPT_CALG = 0 ∨ s.bit FADC_STAT (8 + i) = true)
      (bad → ∃ t, Sys2Proof.Machine.exec (.fadcScal w) s = .next t ∧ s.writeRefused t FADC_CMD)
      ∧ (¬bad → ∃ t, Sys2Proof.Machine.exec (.fadcScal w) s = .next t
        ∧ (∀ f : Fin 4, t.bit FADC_STAT (8 + f) = (s.bit FADC_STAT (8 + f) || w.getLsbD f)
            ∧ (t.fadcOf f).cal = if w.getLsbD f
                then some { gains := (List.range 4).filter fun g => (s.fld (FADC_OPT f) FADC_OPT_CALG).testBit g } else (s.fadcOf f).cal)
        ∧ s.onlyRegs { t with fadc := s.fadc } [FADC_STAT])))
  ∧ (∀ (w : Word) (s : State), ∃ t, Sys2Proof.Machine.exec (.fadcDisable w) s = .next t
      ∧ (∀ f : Fin 4, t.fadcOn f = bitOf w f)
      ∧ (∀ f : Fin 4, s.fadcOn f = bitOf w f → t.fadcOf f = s.fadcOf f)
      ∧ (∀ f : Fin 4, s.fadcOn f = true → bitOf w f = false →
          (t.fadcOf f).conv = (s.fadcOf f).conv.map (fun c => { c with kill := true }) ∧ (t.fadcOf f).cal = none ∧ (t.fadcOf f).reg = {}
          ∧ (t.fadcOf f).inj = {} ∧ (t.fadcOf f).loopIdx = 0 ∧ t.bit FADC_STAT f = false ∧ t.bit FADC_STAT (4 + f) = false
          ∧ t.bit FADC_STAT (8 + f) = false ∧ t.bit FADC_STAT (12 + f) = false ∧ t.bit FADC_STAT (16 + f) = false
          ∧ ∀ a ∈ t.calq ++ t.stage, a.kind = 4 → a.chan / 12 = f → a.place ≠ .waiting)
      ∧ (∀ f : Fin 4, s.fadcOn f = false → bitOf w f = true → (t.fadcOf f).loopIdx = 0 ∧ (t.fadcOf f).reg = {} ∧ (t.fadcOf f).inj = {}))

/-- R443 to R449, R452, R453, R455: the end of a period of the list settles the filter or delivers a word, the corrected mean of the last FILT + 1
results with its marks, and carries the list on; the period that completes after a disable gives code 0 with INV. Six calibration periods set
the pair or report it out of range; a cross-check compares the two words once both are known. A change of the settings takes effect at the
boundary, with three INV words. -/
def Obligations.PrecisionConversions : Prop :=
  (∀ (c : Fin 2) (raw : BitVec 24) (sat : Bool) (s : State),
    let p := s.padcOf c
    let e := s.listEntry c p.idx
    let k := e.1
    let diff := s.padcDiff k
    let hist := (((if diff then raw.toInt else (raw.toNat : Int)), sat) :: p.hist).take (p.cfg.1 + 1)
    let mean : Rat := ((hist.foldl (fun a x => a + x.1) (0 : Int) : Int) : Rat) / (hist.length : Rat)
    let exact := (mean - (s.fldI (PADC_OFS c) PADC_OFS_OFS : Rat)) * (s.fld (PADC_GC c) PADC_GC_GC : Rat) / 4194304
    let code : Int := if diff then max (-8388608) (min 8388607 (rround exact)) else max 0 (min 16777215 (rround exact))
    let out := if diff then decide (code < s.fldI (PADC_WLO k) PADC_WLO_LO ∨ s.fldI (PADC_WHI k) PADC_WHI_HI < code)
      else decide (code < s.fld (PADC_WLO k) PADC_WLO_LO ∨ (s.fld (PADC_WHI k) PADC_WHI_HI : Int) < code)
    let word := fun (v : Int) (inv ovr win : Bool) => BitVec.ofNat 32 ((v % 16777216).toNat + 2 ^ 24 * k + 2 ^ 28 * b2n inv + 2 ^ 29 * b2n ovr
      + 2 ^ 30 * b2n win + 2 ^ 31 * b2n (s.dacOn (48 + k)))
    (p.closing = false → p.act = .idle ∨ p.act = .waitX → Sys2Proof.Machine.exec (.padcPeriodEnd c raw sat) s = .next s)
    ∧ (p.closing = true → p.act = .list → s.fld (PADC_OPT c) PADC_OPT_QEN = 0 → ∃ t, Sys2Proof.Machine.exec (.padcPeriodEnd c raw sat) s = .next t
      ∧ t.reg (PADC_RES c) = word 0 true sat false ∧ t.reg (PADC_LAST k) = word 0 true sat false ∧ t.bit PADC_EVT c = true
      ∧ t.fld (PADC_CNT c) PADC_CNT_INV = min 65535 (s.fld (PADC_CNT c) PADC_CNT_INV + 1)
      ∧ (t.padcOf c).act = .idle ∧ (t.padcOf c).idx = 0 ∧ (t.padcOf c).closing = false ∧ t.paWatch = s.paWatch
      ∧ ∀ r, r ∉ [PADC_RES c, PADC_LAST k, PADC_EVT, PADC_CNT c] → t.reg r = s.reg r)
    ∧ (p.closing = false → p.act = .list → p.xReq = false → p.calReq = false → s.fld PADC_XCFG PADC_XCFG_EN = 0 → s.fld (PADC_OPT c) PADC_OPT_QEN = 0 →
      let gives := decide (p.cfg.1 < p.k + 1)
      let inv := decide (0 < p.inv)
      let ovr := hist.any fun x => x.2
      let entryOver := decide (p.cfg.1 + e.2 ≤ p.k + 1)
      let last := decide (s.fld (PADC_CFG c) PADC_CFG_LEN ≤ p.idx + 1)
      ∃ t, Sys2Proof.Machine.exec (.padcPeriodEnd c raw sat) s = .next t
        ∧ t.reg (PADC_RES c) = (if gives then word code inv ovr (out && !inv) else s.reg (PADC_RES c))
        ∧ t.reg (PADC_LAST k) = (if gives then word code inv ovr (out && !inv) else s.reg (PADC_LAST k))
        ∧ t.bit PADC_EVT c = (gives || s.bit PADC_EVT c) ∧ t.bit PADC_EVT (2 + c) = ((entryOver && last) || s.bit PADC_EVT (2 + c))
        ∧ (gives = true → ovr = true → t.bit PADC_EVT PADC_EVT_OVR = true
            ∧ t.fld (PADC_CNT c) PADC_CNT_OVR = min 65535 (s.fld (PADC_CNT c) PADC_CNT_OVR + 1))
        ∧ (gives = true → inv = false → (vat t.paWatch k).okAt = s.now ∧ (vat t.paWatch k).out = if out then (vat s.paWatch k).out + 1 else 0)
        ∧ (gives = true → inv = false → out = true → s.fld (PADC_CH k) PADC_CH_NWIN ≤ (vat s.paWatch k).out + 1 → (vat s.paWatch k).set = false →
            t.bit PADC_EVT PADC_EVT_WINF = true ∧ faultItem blkPADC c 0x06 clsC k ∈ t.inflight)
        ∧ (t.padcOf c).idx = (if entryOver then (if last then 0 else p.idx + 1) else p.idx)
        ∧ (t.padcOf c).k = (if entryOver then 0 else p.k + 1) ∧ (t.padcOf c).act = .list
        ∧ (t.padcOf c).inv = (if p.cfg ≠ s.padcCfg c then 3 else if gives then p.inv - 1 else p.inv)
        ∧ (t.padcOf c).per = s.padcPeriod c
        ∧ (∀ d : Fin 2, d ≠ c → t.padcOf d = s.padcOf d)
        ∧ ∀ r, r ∉ [PADC_RES c, PADC_LAST k, PADC_EVT, PADC_CNT c] → t.reg r = s.reg r)
    ∧ (p.closing = false → p.act = .cal → p.hist.length < 5 → ∃ t, Sys2Proof.Machine.exec (.padcPeriodEnd c raw sat) s = .next t
      ∧ (t.padcOf c).act = .cal ∧ t.regs = s.regs ∧ t.inflight = s.inflight
      ∧ (p.cfg.1 = s.fld (PADC_CFG c) PADC_CFG_FILT → (t.padcOf c).hist = ((raw.toNat : Int), false) :: p.hist))
    ∧ (∀ v1 v2 v3 v4 v5 : Int, p.hist.map (fun x => x.1) = [v5, v4, v3, v2, v1] → p.closing = false → p.act = .cal → p.xReq = false → p.calReq = false →
      let ofs := rround (((v1 + v2 + v3 : Int) : Rat) / 3)
      let d : Rat := (((raw.toNat : Int) + v5 + v4 : Int) : Rat) / 3 - ((v1 + v2 + v3 : Int) : Rat) / 3
      let gc : Int := if d = 0 then 0 else rround (((12582912 * 4194304 : Int) : Rat) / d)
      let ok := -65536 ≤ ofs ∧ ofs ≤ 65535 ∧ 2097152 ≤ gc ∧ gc ≤ 6291455
      ∃ t, Sys2Proof.Machine.exec (.padcPeriodEnd c raw sat) s = .next t ∧ (t.padcOf c).act = .list ∧ t.bit PADC_STAT c = false
        ∧ (ok → t.fldI (PADC_OFS c) PADC_OFS_OFS = ofs ∧ (t.fld (PADC_GC c) PADC_GC_GC : Int) = gc ∧ t.bit PADC_EVT PADC_EVT_CALDONE = true)
        ∧ (¬ok → t.reg (PADC_OFS c) = s.reg (PADC_OFS c) ∧ t.reg (PADC_GC c) = s.reg (PADC_GC c) ∧ t.bit PADC_EVT PADC_EVT_CALERR = true
            ∧ faultItem blkPADC c 0x10 clsC 0 ∈ t.inflight)))
  ∧ (∀ (raw : BitVec 24) (sat : Bool) (s : State) (w0 : Int), (s.padcOf 0).xWord = some w0 → (s.padcOf 1).act = .cross → (s.padcOf 1).closing = false →
    (s.padcOf 1).xWord = none → (s.padcOf 1).hist = [] → (s.padcOf 1).cfg.1 = 0 → s.fld PADC_XCFG PADC_XCFG_SRC ≠ 2 →
    let w1 := max 0 (min 16777215 (rround (((raw.toNat : Rat) - (s.fldI (PADC_OFS 1) PADC_OFS_OFS : Rat)) * (s.fld (PADC_GC 1) PADC_GC_GC : Rat) / 4194304)))
    let dp := min 65535 (rround ((|w0 - w1| * 1000000 : Int) / (16777216 : Rat))).toNat
    ∃ t, Sys2Proof.Machine.exec (.padcPeriodEnd 1 raw sat) s = .next t ∧ t.fld PADC_XRES PADC_XRES_DP = dp ∧ t.fld PADC_STAT PADC_STAT_XRUN = 0
      ∧ (t.padcOf 0).act = .list ∧ (t.padcOf 1).act = .list
      ∧ t.fld PADC_XSTAT PADC_XSTAT_FAIL = (if s.fld PADC_XTOL PADC_XTOL_PTOL < dp then min 255 (s.fld PADC_XSTAT PADC_XSTAT_FAIL + 1)
          else s.fld PADC_XSTAT PADC_XSTAT_FAIL)
      ∧ t.inflight = s.inflight ++ (if s.fld PADC_XTOL PADC_XTOL_PTOL < dp
          then [evtItem PADC_EVT PADC_EVT_XCHK, faultItem blkPADC 0 0x11 clsC dp] else []))

/-- R445, R449, R452, R454, R456: SCAL asks for a calibration of enabled converters that have none running; clearing an enable bit lets the period
in progress complete, and is refused while a cross-check needs both. Eight steady intervals of GRIDZ lock the mains; an interval out of range or
off T_m, or none for 25 ms, loses the lock. An input without a valid result for TOUT is stale, and its time starts again. -/
def Obligations.MainsAndPrecision : Prop :=
  (∀ (w : BitVec 2) (s : State),
    let bad := ∃ i : Fin 2, w.getLsbD i = true ∧ (s.padcOn i = false ∨ s.bit PADC_STAT i = true)
    (bad → ∃ t, Sys2Proof.Machine.exec (.padcScal w) s = .next t ∧ s.writeRefused t PADC_CMD)
    ∧ (¬bad → ∃ t, Sys2Proof.Machine.exec (.padcScal w) s = .next t
      ∧ (∀ c : Fin 2, t.bit PADC_STAT c = (s.bit PADC_STAT c || w.getLsbD c)
          ∧ t.padcOf c = if w.getLsbD c then { s.padcOf c with calReq := true } else s.padcOf c)
      ∧ s.onlyRegs { t with padc := s.padc } [PADC_STAT]))
  ∧ (∀ (w : Word) (s : State),
    (s.fld PADC_XCFG PADC_XCFG_EN = 1 → PADC_CTRL_EN.get w ≠ 3 → ∃ t, Sys2Proof.Machine.exec (.padcDisable w) s = .next t
      ∧ s.writeRefused t PADC_CTRL)
    ∧ (s.fld PADC_XCFG PADC_XCFG_EN = 0 → ∃ t, Sys2Proof.Machine.exec (.padcDisable w) s = .next t
      ∧ (∀ c : Fin 2, t.padcOn c = bitOf w c ∧ (s.padcOn c = bitOf w c → t.padcOf c = s.padcOf c)
          ∧ (s.padcOn c = true → bitOf w c = false → (s.padcOf c).act ≠ .waitX →
              t.padcOf c = { s.padcOf c with closing := true, calReq := false, xReq := false } ∧ t.bit PADC_STAT c = false)
          ∧ (s.padcOn c = false → bitOf w c = true → (t.padcOf c).act = .list ∧ (t.padcOf c).idx = 0 ∧ (t.padcOf c).per = s.padcPeriod c))
      ∧ t.mem = s.mem ∧ t.inflight = s.inflight ∧ ∀ r, r ≠ PADC_CTRL → r ≠ PADC_STAT → t.reg r = s.reg r))
  ∧ (∀ s : State, (s.mains.last = none → ∃ t, Sys2Proof.Machine.exec .gridzEdge s = .next t
      ∧ t = { s with mains := { s.mains with last := some s.now } })
    ∧ ∀ u, s.mains.last = some u →
      let d := s.now - u
      let inRange := 5716000 ≤ d ∧ d ≤ 10000000
      let sum := s.mains.ivs.sum
      let ivs := (d :: s.mains.ivs).take 8
      let steady := ivs.length = 8 ∧ (ivs.all fun i => decide (99 * ivs.sum ≤ 800 * i ∧ 800 * i ≤ 101 * ivs.sum)) = true
      let near := 98 * sum ≤ 800 * d ∧ 800 * d ≤ 102 * sum
      (s.now < u + 4000000 → Sys2Proof.Machine.exec .gridzEdge s = .next s)
      ∧ (u + 4000000 ≤ s.now → s.mainsLocked = false → inRange → steady → ∃ t, Sys2Proof.Machine.exec .gridzEdge s = .next t
        ∧ t.mainsLocked = true ∧ (t.reg PADC_GRID).toNat = roundDivN (ivs.sum * 2) 40 % 2 ^ 32 ∧ t.bit PADC_EVT PADC_EVT_GRIDLOCK = true
        ∧ t.mains = { s.mains with last := some s.now, ivs := ivs } ∧ t.inflight = s.inflight ++ [evtItem PADC_EVT PADC_EVT_GRIDLOCK])
      ∧ (u + 4000000 ≤ s.now → s.mainsLocked = false → (¬inRange ∨ ¬steady) → ∃ t, Sys2Proof.Machine.exec .gridzEdge s = .next t
        ∧ t = { s with mains := { s.mains with last := some s.now, ivs := t.mains.ivs } } ∧ t.mains.ivs = (if inRange then ivs else []))
      ∧ (u + 4000000 ≤ s.now → s.mainsLocked = true → inRange → near → ∃ t, Sys2Proof.Machine.exec .gridzEdge s = .next t
        ∧ t.mains = { s.mains with last := some s.now, ivs := ivs } ∧ (t.reg PADC_GRID).toNat = roundDivN (ivs.sum * 2) 40 % 2 ^ 32
        ∧ s.onlyRegs { t with mains := s.mains } [PADC_GRID])
      ∧ (u + 4000000 ≤ s.now → s.mainsLocked = true → (¬inRange ∨ ¬near) → ∃ t, Sys2Proof.Machine.exec .gridzEdge s = .next t ∧ s.gridGone t
        ∧ t.mains.last = some s.now)
      ∧ (s.mainsLocked = false ∨ s.now < u + 10000000 → Sys2Proof.Machine.exec .gridloss s = .next s)
      ∧ (s.mainsLocked = true → u + 10000000 ≤ s.now → ∃ t, Sys2Proof.Machine.exec .gridloss s = .next t ∧ s.gridGone t ∧ t.mains.last = some u))
  ∧ (∀ (n : Fin 48) (s : State),
    let tf := s.fld (FADC_CH n) FADC_CH_TOUT
    let fastDue := s.fadcOn (n / 12) = true ∧ tf ≠ 0 ∧ (vat s.faWatch n).okAt + 4000 * tf ≤ s.now
    (¬fastDue → Sys2Proof.Machine.exec (.staleInput true n) s = .next s)
    ∧ (fastDue → ∃ t, Sys2Proof.Machine.exec (.staleInput true n) s = .next t
      ∧ (vat t.faWatch n).okAt = s.now ∧ (∀ m : Fin 48, m ≠ n → vat t.faWatch m = vat s.faWatch m) ∧ t.bit FADC_EVT FADC_EVT_STALE = true
      ∧ s.onlySends { t with faWatch := s.faWatch } [FADC_EVT] [evtItem FADC_EVT FADC_EVT_STALE, faultItem blkFADC (n / 12) 0x05 clsC n]))
  ∧ (∀ (n : Fin 48) (s : State),
    let tp := s.fld (PADC_CH n) PADC_CH_TOUT
    let due := n.val < 16 ∧ (s.padcOn 0 = true ∨ s.padcOn 1 = true) ∧ tp ≠ 0 ∧ (vat s.paWatch n).okAt + 4000000 * tp ≤ s.now
    (¬due → Sys2Proof.Machine.exec (.staleInput false n) s = .next s)
    ∧ (due → ∃ t, Sys2Proof.Machine.exec (.staleInput false n) s = .next t ∧ (vat t.paWatch n).okAt = s.now ∧ t.bit PADC_EVT PADC_EVT_STALE = true
      ∧ s.onlySends { t with paWatch := s.paWatch } [PADC_EVT]
          [evtItem PADC_EVT PADC_EVT_STALE, faultItem blkPADC (if s.padcOn 0 then 0 else 1) 0x05 clsC n]))

/-- R462, R464, R466 to R470, R486, R489, R490: a sample joins the open instances of its stream that hold its angle, at most 2,048 of them; one
of a wrong channel is discarded with CHERR, one of a closed instance counted LATE. An instance opens in the slot in which the angle word
reaches T + GOFS + S in FULL or HOLD and closes behind T + GOFS + E. CMB_CTRL puts into force the enables that pass R467, and abandons the open
instances of a cleared stream. A rule that is enabled writes its accumulator to its trim, unless another names that trim; an adapter writes
its DAMP to its profile. -/
def Obligations.CombustionWindows : Prop :=
  (∀ (s : State) (c : Nat) (res angle slot user : Word), s.nextItem .converter .combustion = some (.cmbSample c res angle slot user) → c < 12 →
    let rest := dropFirstItem .converter .combustion s.inflight
    let chan := res.toNat / 2 ^ 16 % 64
    let x := s.strOf c
    let gofs : Int := s.fld (CMB_GOFS c) ⟨0, 24⟩
    let inC := fun (tdc : Word) => decide ((s.reg (CMB_WS c)).toInt ≤ (angle - tdc).toInt - gofs ∧ (angle - tdc).toInt - gofs < (s.reg (CMB_WE c)).toInt)
    let inW := fun (tdc : Word) => decide ((s.reg CMB_WWS).toInt ≤ (angle - tdc).toInt - gofs ∧ (angle - tdc).toInt - gofs < (s.reg CMB_WWE).toInt)
    (s.bit CMB_APPLIED c = false → ∃ t, Sys2Proof.Machine.exec .cmbSample s = .next t ∧ t = { s with inflight := rest })
    ∧ (s.bit CMB_APPLIED c = true → chan ≠ s.fld (CMB_CYL c) CMB_CYL_CHAN → ∃ t, Sys2Proof.Machine.exec .cmbSample s = .next t
      ∧ t.fld (CMB_SCNT c) CMB_SCNT_CHERR = min 255 (s.fld (CMB_SCNT c) CMB_SCNT_CHERR + 1) ∧ t.bit CMB_EVT CMB_EVT_CHERR = true
      ∧ t = { s with regs := t.regs, inflight := rest ++ [evtItem CMB_EVT CMB_EVT_CHERR, faultItem blkCMB c 0x10 clsC chan] }
      ∧ ∀ k, k ∉ [CMB_SCNT c, CMB_EVT] → t.reg k = s.reg k)
    ∧ (s.bit CMB_APPLIED c = true → chan = s.fld (CMB_CYL c) CMB_CYL_CHAN →
      let late := ((∀ w ∈ x.comb, inC w.tdc = false) ∧ x.clC.any inC = true)
        ∨ ((∀ w ∈ x.work, inW w.tdc = false) ∧ x.clW.any inW = true)
      ∃ t, Sys2Proof.Machine.exec .cmbSample s = .next t
      ∧ (t.strOf c).comb = x.comb.map (fun w => if inC w.tdc then
          (if w.smps.length < 2048 then { w with smps := { res := res, a := (angle - w.tdc).toInt, slot := slot } :: w.smps } else { w with ovf := true }) else w)
      ∧ (t.strOf c).work = x.work.map (fun w => if inW w.tdc then s.addWork w res angle else w)
      ∧ (∀ m : Fin 12, m ≠ c → t.strOf m = s.strOf m)
      ∧ (late → t.fld CMB_CNT CMB_CNT_LATE = min 65535 (s.fld CMB_CNT CMB_CNT_LATE + 1) ∧ t.bit CMB_EVT CMB_EVT_LATE = true
          ∧ t = { s with regs := t.regs, cmb := { s.cmb with strs := t.cmb.strs }, inflight := rest ++ [evtItem CMB_EVT CMB_EVT_LATE] }
          ∧ ∀ k, k ∉ [CMB_CNT, CMB_EVT] → t.reg k = s.reg k)
      ∧ (¬late → t = { s with cmb := { s.cmb with strs := t.cmb.strs }, inflight := rest })))
  ∧ (∀ s : State, s.nextItem .converter .combustion = none → Sys2Proof.Machine.exec .cmbSample s = .next s)
  ∧ (∀ (c : Fin 12) (work : Bool) (tdc : Word) (s : State), tdc.toNat % 2 ^ 24 = s.fld (CMB_TDC c) CMB_TDC_TDC →
    let x := s.strOf c
    let start := tdc + BitVec.ofNat 32 (s.fld (CMB_GOFS c) ⟨0, 24⟩) + (if work then s.reg CMB_WWS else s.reg (CMB_WS c))
    let now := (s.angW - start).toNat < (s.angW - s.prevAng).toNat ∧ (s.angW - start).toNat < 2 ^ 24
    let again := if work then x.opW = some tdc else x.opC = some tdc
    (now → s.bit CMB_APPLIED c = true → s.fires = true → ¬again → ∃ t, Sys2Proof.Machine.exec (.cmbWindowOpen c work) s = .next t
      ∧ (work = false → t.strOf c = { x with
          opC := some tdc
          comb := x.comb ++ [{ cyl := c, tdc := tdc, sgen := s.fld OBS_STATE OBS_STATE_SGEN, sg := s.reg (CMB_SG c), so := s.reg (CMB_SO c),
                               kc := (List.range 10).map fun k => s.reg (CMB_KC k) }] })
      ∧ (work = true → t.strOf c = { x with
          opW := some tdc
          work := x.work ++ [{ cyl := c, tdc := tdc, sgen := s.fld OBS_STATE OBS_STATE_SGEN, sg := s.reg (CMB_SG c), so := s.reg (CMB_SO c) }] })
      ∧ t.bit CMB_STAT (if work then 12 + c else c) = true ∧ (∀ m : Fin 12, m ≠ c → t.strOf m = s.strOf m)
      ∧ s.onlyRegs { t with cmb := { s.cmb with strs := s.cmb.strs } } [CMB_STAT])
    ∧ (now → s.bit CMB_APPLIED c = false ∨ s.fires = false ∨ again → Sys2Proof.Machine.exec (.cmbWindowOpen c work) s = .next s)
    ∧ ((s.angW - start).toNat < 2 ^ 24 → ¬now → Sys2Proof.Machine.exec (.cmbWindowOpen c work) s = .next s))
  ∧ (∀ (c : Fin 12) (s : State),
    (((s.strOf c).comb = [] → Sys2Proof.Machine.exec (.cmbWindowClose c false) s = .next s)
    ∧ ∀ w, (s.strOf c).comb.head? = some w →
      let stop := w.tdc + BitVec.ofNat 32 (s.fld (CMB_GOFS c) ⟨0, 24⟩) + s.reg (CMB_WE c)
      ((s.angW - stop).toNat < 2 ^ 31 → ∃ t, Sys2Proof.Machine.exec (.cmbWindowClose c false) s = .next t
        ∧ t.strOf c = { s.strOf c with comb := (s.strOf c).comb.tail, clC := some w.tdc }
        ∧ t.cmb.queue = s.cmb.queue ++ [{ w with slot := s.slotW, pref := s.reg (CMB_PREF c) }] ∧ t.cmb.works = s.cmb.works
        ∧ t.fld CMB_STAT CMB_STAT_PEND = min 15 (s.cmb.queue.length + 1) ∧ (∀ m : Fin 12, m ≠ c → t.strOf m = s.strOf m)
        ∧ s.onlyRegs { t with cmb := s.cmb } [CMB_STAT])
      ∧ (2 ^ 31 ≤ (s.angW - stop).toNat → Sys2Proof.Machine.exec (.cmbWindowClose c false) s = .next s))
    ∧ ((s.strOf c).work = [] → Sys2Proof.Machine.exec (.cmbWindowClose c true) s = .next s)
    ∧ ∀ w, (s.strOf c).work.head? = some w →
      let stop := w.tdc + BitVec.ofNat 32 (s.fld (CMB_GOFS c) ⟨0, 24⟩) + s.reg CMB_WWE
      ((s.angW - stop).toNat < 2 ^ 31 → ∃ t, Sys2Proof.Machine.exec (.cmbWindowClose c true) s = .next t
        ∧ t.strOf c = { s.strOf c with work := (s.strOf c).work.tail, clW := some w.tdc }
        ∧ t.cmb.works = s.cmb.works ++ [{ w with slot := s.slotW }] ∧ t.cmb.queue = s.cmb.queue
        ∧ (∀ m : Fin 12, m ≠ c → t.strOf m = s.strOf m) ∧ s.onlyRegs { t with cmb := s.cmb } [CMB_STAT])
      ∧ (2 ^ 31 ≤ (s.angW - stop).toNat → Sys2Proof.Machine.exec (.cmbWindowClose c true) s = .next s))
  ∧ (∀ (w : Word) (s : State),
    let ok := fun (c : Nat) =>
      let ws := (s.reg (CMB_WS c)).toInt
      let we := (s.reg (CMB_WE c)).toInt
      let inside := fun (a b : Int) => ws ≤ a ∧ a < b ∧ b ≤ we
      let pa := (s.reg (CMB_PA c)).toInt
      let pb := (s.reg (CMB_PB c)).toInt
      let pw : Int := s.fld (CMB_PW c) CMB_PW_PW
      (s.fld (CMB_CYL c) CMB_CYL_PEG ≠ 0 → inside pa pb) ∧ (2 ≤ s.fld (CMB_CYL c) CMB_CYL_PEG → inside pa (pa + pw) ∧ inside (pb - pw) pb)
        ∧ inside (s.reg (CMB_FA c)).toInt (s.reg (CMB_FB c)).toInt ∧ inside (s.reg (CMB_KA c)).toInt (s.reg (CMB_KB c)).toInt
    let legal := (∀ c : Fin 12, bitOf w c = true → ok c) ∧ (CMB_CTRL_EN.get w = 0 ∨ s.volLegal = true)
    (¬legal → ∃ t, Sys2Proof.Machine.exec (.cmbCtrlWrite w) s = .next t ∧ s.writeRefused t CMB_CTRL)
    ∧ (legal → ∃ t, Sys2Proof.Machine.exec (.cmbCtrlWrite w) s = .next t
      ∧ t.fld CMB_APPLIED CMB_APPLIED_EN = CMB_CTRL_EN.get w ∧ t.fld CMB_APPLIED CMB_APPLIED_GEN = CMB_CTRL_GEN.get w
      ∧ t.fld CMB_CTRL CMB_CTRL_EN = CMB_CTRL_EN.get w ∧ t.fld CMB_CTRL CMB_CTRL_GEN = CMB_CTRL_GEN.get w
      ∧ (∀ c : Fin 12, s.bit CMB_APPLIED c = bitOf w c → t.strOf c = s.strOf c)
      ∧ (∀ c : Fin 12, s.bit CMB_APPLIED c = false → bitOf w c = true → (t.strOf c).recs = [])
      ∧ (∀ c : Fin 12, s.bit CMB_APPLIED c = true → bitOf w c = false → (t.strOf c).comb = [] ∧ (t.strOf c).work = []
          ∧ (∀ x ∈ (s.strOf c).comb, { x with aband := true, pref := s.reg (CMB_PREF c), slot := s.slotW } ∈ t.cmb.queue)
          ∧ t.fld (CMB_SCNT c) CMB_SCNT_ABAND
              = min 255 (s.fld (CMB_SCNT c) CMB_SCNT_ABAND + (s.strOf c).comb.length + (s.strOf c).work.length)
          ∧ ((s.strOf c).comb ≠ [] ∨ (s.strOf c).work ≠ [] → t.bit CMB_EVT CMB_EVT_ABAND = true))
      ∧ (s.fld CMB_ACFG CMB_ACFG_COASTEN = 0 → t = { s with regs := t.regs, cmb := t.cmb, inflight := t.inflight }
          ∧ t.cmb.works = s.cmb.works ∧ t.cmb.imeps = s.cmb.imeps
          ∧ ∀ k, k ∉ [CMB_CTRL, CMB_APPLIED, CMB_STAT, CMB_EVT] → (∀ c : Fin 12, k ≠ CMB_SCNT c) → t.reg k = s.reg k)))
  ∧ (∀ (r : Fin 32) (w : Word) (s : State),
    let shared := ∃ k : Fin 32, k ≠ r ∧ s.bit (CMB_RCFG k) 0 = true ∧ s.fld (CMB_RCFG k) CMB_RCFG_TRIM = CMB_RCFG_TRIM.get w
    let acc := s.reg (CMB_RACC r)
    let fits := CMB_RCFG_CYL.get w ≤ 11 ∧ CMB_RCFG_METRIC.get w ≤ 9 ∧ CMB_RCFG_MODE.get w ≤ 2
    (bitOf w 0 = true → shared ∨ ¬fits → ∃ t, Sys2Proof.Machine.exec (.cmbRuleEnable r w) s = .next t ∧ s.writeRefused t (CMB_RCFG r))
    ∧ (bitOf w 0 = true → s.bit (CMB_RCFG r) 0 = false → ¬shared → fits → ∃ t, Sys2Proof.Machine.exec (.cmbRuleEnable r w) s = .next t
      ∧ t.reg (CMB_RCFG r) = w &&& 0x01FF0FFF ∧ t.reg (AEN_TRQ (CMB_RCFG_TRIM.get w)) = acc
      ∧ t.fld (AEN_TRS (CMB_RCFG_TRIM.get w)) AEN_TRS_SRC = 1 ∧ t.inForce (CMB_RCFG_TRIM.get w) (s.trimBase (CMB_RCFG_TRIM.get w)).toInt
      ∧ (let lim := acc = s.reg (CMB_RLO r) ∨ acc = s.reg (CMB_RHI r)
        t.bit CMB_EVT CMB_EVT_RULEL = (decide lim || s.bit CMB_EVT CMB_EVT_RULEL)
        ∧ t = { s with regs := t.regs, inflight := s.inflight ++ if lim then [evtItem CMB_EVT CMB_EVT_RULEL] else [] })
      ∧ ∀ k, k ∉ [CMB_RCFG r, AEN_TRQ (CMB_RCFG_TRIM.get w), AEN_TRM (CMB_RCFG_TRIM.get w), AEN_TRS (CMB_RCFG_TRIM.get w), CMB_EVT] → t.reg k = s.reg k))
  ∧ (∀ (d : Fin 4) (w : Word) (s : State),
    let fits := 8 ≤ CMB_DCFG_NCOV.get w ∧ 1 ≤ CMB_DCFG_STEP.get w ∧ CMB_DCFG_STEP.get w ≤ 1000
    (¬fits → ∃ t, Sys2Proof.Machine.exec (.cmbDitherEnable d w) s = .next t ∧ s.writeRefused t (CMB_DCFG d))
    ∧ (fits → bitOf w 0 = true → s.bit (CMB_DCFG d) 0 = false → ∃ t, Sys2Proof.Machine.exec (.cmbDitherEnable d w) s = .next t
      ∧ t.reg (CMB_DCFG d) = w &&& 0x03FFFFF1
      ∧ t.fld (INJ_DTH (CMB_DCFG_PROF.get w)) INJ_DTH_DAMP = s.fld (CMB_DAMP d) CMB_DAMP_DAMP
      ∧ t.fld (INJ_DTH (CMB_DCFG_PROF.get w)) INJ_DTH_DFREQ = s.fld (INJ_DTH (CMB_DCFG_PROF.get w)) INJ_DTH_DFREQ
      ∧ (∀ c : Fin 12, t.imepsOf d c = [] ∧ ∀ e : Fin 4, e ≠ d → t.imepsOf e c = s.imepsOf e c)
      ∧ t.cmb.strs = s.cmb.strs ∧ t.cmb.queue = s.cmb.queue ∧ t.cmb.works = s.cmb.works
      ∧ s.onlyRegs { t with cmb := s.cmb } [CMB_DCFG d, INJ_DTH (CMB_DCFG_PROF.get w)]))

/-- R472, R473, R477 to R485, R487 to R489: the oldest closed combustion instance gives its record, with its flags, in the record area and, with
room for all of it, in the record queue; the misfire run follows it; every rule of its kind that may act moves its accumulator by INT, STEP or PROP
within LO and HI and writes its trim; COAST is 1 while the last two records of every enabled stream are valid misfires. A work record gives
IMEP with the stream's last good Δ; an adapter whose streams all hold NCOV of them steps DAMP by COV. -/
def Obligations.CombustionRecords : Prop :=
  (∀ s : State, s.cmb.queue = [] → Sys2Proof.Machine.exec .cmbRecord s = .next s)
  ∧ (∀ (s : State) (w : CmbWin), s.cmb.queue.head? = some w → w.cyl < 12 →
    let c := w.cyl
    let o := s.combustion w
    let ws := o.words c 0 w.sgen w.tdc w.slot
    let cnt := fun (f : Fld) => s.fld (CMB_SCNT c) f
    let q := s.fld CMB_QCFG CMB_QCFG_QUE
    let room := s.fld (QUE_QCFG q) QUE_QCFG_EN = 1 ∧ s.qCount q + 4 ≤ s.qDepth q
    let mine := fun (r : Nat) => s.bit (CMB_RCFG r) 0 = true ∧ s.fld (CMB_RCFG r) CMB_RCFG_CYL = c ∧ s.fld (CMB_RCFG r) CMB_RCFG_METRIC ≠ 9
    let acts := fun (r : Nat) => mine r ∧ o.valid = true ∧ (o.misf = true → s.bit (CMB_RCFG r) 11 = true)
    ∃ t, Sys2Proof.Machine.exec .cmbRecord s = .next t
      ∧ t.cmb.queue = s.cmb.queue.tail ∧ t.cmb.works = s.cmb.works ∧ t.cmb.imeps = s.cmb.imeps
      ∧ (∀ i : Fin 16, t.reg (CMB_REC c i) = ws.getD i 0)
      ∧ (t.strOf c).recs = ((o.valid, o.misf, o.part) :: (s.strOf c).recs).take 2
      ∧ (t.strOf c).delta = (if o.pegerr then (s.strOf c).delta else some o.delta)
      ∧ (∀ m : Fin 12, m ≠ c → t.strOf m = s.strOf m)
      ∧ t.bit CMB_EVT 0 = true ∧ t.bit CMB_EVT 2 = (!o.valid || s.bit CMB_EVT 2) ∧ t.bit CMB_EVT 3 = (o.misf || s.bit CMB_EVT 3)
      ∧ t.bit CMB_EVT 4 = (o.part || s.bit CMB_EVT 4) ∧ t.bit CMB_EVT 5 = (o.knock || s.bit CMB_EVT 5)
      ∧ t.bit CMB_EVT 7 = (o.pegerr || s.bit CMB_EVT 7) ∧ t.bit CMB_EVT 8 = (o.nfix || s.bit CMB_EVT 8)
      ∧ t.fld (CMB_SCNT c) CMB_SCNT_INVAL = (if o.valid then cnt CMB_SCNT_INVAL else min 255 (cnt CMB_SCNT_INVAL + 1))
      ∧ t.fld (CMB_SCNT c) CMB_SCNT_MISRUN
          = (if o.valid then (if o.misf then min 255 (cnt CMB_SCNT_MISRUN + 1) else 0) else cnt CMB_SCNT_MISRUN)
      ∧ (o.valid = true → o.misf = true → s.fld CMB_CFG CMB_CFG_MISFL ≤ min 255 (cnt CMB_SCNT_MISRUN + 1) → (s.strOf c).told = false →
          t.bit CMB_EVT CMB_EVT_MISFL = true ∧ faultItem blkCMB c 0x12 clsU 0 ∈ t.inflight ∧ (t.strOf c).told = true)
      ∧ (s.fld CMB_QCFG CMB_QCFG_EN = 0 → t.mem = s.mem ∧ t.meters = s.meters)
      ∧ (s.fld CMB_QCFG CMB_QCFG_EN = 1 → room → s.budHas (s.binding 2) resFABRIC 4 = true → s.fld (QUE_QHEAD q) QUE_QHEAD_INDEX < s.qDepth q →
          t.qCount q = s.qCount q + 4 ∧ t.fld (QUE_QHEAD q) QUE_QHEAD_INDEX = (s.fld (QUE_QHEAD q) QUE_QHEAD_INDEX + 4) % s.qDepth q
          ∧ (∀ i : Fin 4, t.rdBytes (s.qAddr q ((s.fld (QUE_QHEAD q) QUE_QHEAD_INDEX + i) % s.qDepth q)) 16 = wordsToBytes ((ws.drop (4 * i)).take 4))
          ∧ ∀ x, (∀ i : Fin 4, let b := s.qAddr q ((s.fld (QUE_QHEAD q) QUE_QHEAD_INDEX + i) % s.qDepth q)
              x < b ∨ b + 16 ≤ x) → t.rd8 x = s.rd8 x)
      ∧ (s.fld CMB_QCFG CMB_QCFG_EN = 1 → ¬(room ∧ s.budHas (s.binding 2) resFABRIC 4 = true) → t.mem = s.mem ∧ t.qCount q = s.qCount q
          ∧ t.fld CMB_CNT CMB_CNT_QDROP = min 65535 (s.fld CMB_CNT CMB_CNT_QDROP + 1) ∧ t.bit CMB_EVT CMB_EVT_QDROP = true
          ∧ faultItem blkCMB 0 0x11 clsC 0 ∈ t.inflight)
      ∧ (∀ r : Fin 32, (¬acts r → t.reg (CMB_RACC r) = s.reg (CMB_RACC r)) ∧ (acts r →
          let lo := (s.reg (CMB_RLO r)).toInt
          let hi := (s.reg (CMB_RHI r)).toInt
          let acc := (s.reg (CMB_RACC r)).toInt
          let m := o.metric (s.fld (CMB_RCFG r) CMB_RCFG_METRIC)
          let set := s.reg (CMB_RSET r)
          let e := fSub set m
          let rd := fun x => fRound (-(2 ^ 160)) (2 ^ 160) x
          let to' := fun (x : Int) => (t.reg (CMB_RACC r)).toInt = max lo (min hi x)
          lo ≤ hi →
          (s.fld (CMB_RCFG r) CMB_RCFG_MODE = 0 → fLe (fAbs e) (s.reg (CMB_RDB r)) = true → to' acc)
          ∧ (s.fld (CMB_RCFG r) CMB_RCFG_MODE = 0 → fLe (fAbs e) (s.reg (CMB_RDB r)) = false →
              ∀ d, rd (fMul (if fLt 0 e then s.reg (CMB_RKU r) else s.reg (CMB_RKD r)) e) = some d → to' (acc + d))
          ∧ (s.fld (CMB_RCFG r) CMB_RCFG_MODE = 1 → fLt set m = true → ∀ d, rd (s.reg (CMB_RKU r)) = some d → to' (acc + d))
          ∧ (s.fld (CMB_RCFG r) CMB_RCFG_MODE = 1 → fLt set m = false → fLt m (fSub set (s.reg (CMB_RDB r))) = true →
              ∀ d, rd (s.reg (CMB_RKD r)) = some d → to' (acc - d))
          ∧ (s.fld (CMB_RCFG r) CMB_RCFG_MODE = 1 → fLt set m = false → fLt m (fSub set (s.reg (CMB_RDB r))) = false →
              t.reg (CMB_RACC r) = s.reg (CMB_RACC r))
          ∧ (s.fld (CMB_RCFG r) CMB_RCFG_MODE = 2 → ∀ d, rd (fMul (s.reg (CMB_RKU r)) e) = some d → to' d)
          ∧ (t.reg (CMB_RACC r) = s.reg (CMB_RLO r) ∨ t.reg (CMB_RACC r) = s.reg (CMB_RHI r) → t.bit CMB_EVT CMB_EVT_RULEL = true)
          ∧ ((∀ k : Fin 32, k ≠ r → mine k → s.fld (CMB_RCFG k) CMB_RCFG_TRIM ≠ s.fld (CMB_RCFG r) CMB_RCFG_TRIM) →
              t.reg (AEN_TRQ (s.fld (CMB_RCFG r) CMB_RCFG_TRIM)) = t.reg (CMB_RACC r)
              ∧ t.inForce (s.fld (CMB_RCFG r) CMB_RCFG_TRIM) (s.trimBase (s.fld (CMB_RCFG r) CMB_RCFG_TRIM)).toInt)))
      ∧ (s.fld CMB_ACFG CMB_ACFG_COASTEN = 1 →
          let coast := ((List.range 12).filter fun k => s.bit CMB_APPLIED k).length = s.fld CMB_CFG CMB_CFG_ENGCYL
            ∧ ∀ k : Fin 12, s.bit CMB_APPLIED k = true → (t.strOf k).recs.length = 2 ∧ ∀ x ∈ (t.strOf k).recs, x.1 = true ∧ x.2.1 = true
          t.fld CMB_ASTAT CMB_ASTAT_COAST = (if coast then 1 else 0) ∧ t.fld OBS_LCTL OBS_LCTL_COAST = (if coast then 1 else 0))
      ∧ (s.fld CMB_QCFG CMB_QCFG_EN = 0 → s.fld CMB_ACFG CMB_ACFG_COASTEN = 0 → (∀ r : Fin 32, ¬acts r) →
          t = { s with regs := t.regs, cmb := t.cmb, inflight := t.inflight, freeUses := t.freeUses }
          ∧ ∀ k, (∀ i : Fin 16, k ≠ CMB_REC c i) → k ∉ [CMB_STAT, CMB_EVT, CMB_SCNT c] → t.reg k = s.reg k))
  ∧ (∀ s : State, ∀ w ∈ s.cmb.queue,
    let o := s.combustion w
    let bad := fun (x : CmbSmp) => x.res &&& 0x4F000000 != 0
    o.nsamp = w.smps.length ∧ o.nbad = (w.smps.filter bad).length ∧ (o.psat = true ↔ ∃ x ∈ w.smps, x.res.getLsbD 25 = true)
    ∧ o.aband = w.aband ∧ o.ovfl = w.ovf
    ∧ (s.fld (CMB_CYL w.cyl) CMB_CYL_PEG = 0 →
        (o.pegerr = false ↔ fLe 0xC0A00000 w.pref = true ∧ fLe w.pref 0x40A00000 = true) ∧ o.delta = if o.pegerr then 0 else w.pref)
    ∧ (s.fld (CMB_CYL w.cyl) CMB_CYL_NFIT = 0 → o.n = s.reg CMB_NDEF ∧ o.nfix = false)
    ∧ (o.nfix = true → o.n = s.reg CMB_NDEF)
    ∧ o.misf = fLt o.qnet (s.reg CMB_MISQ) ∧ o.part = (fLe (s.reg CMB_MISQ) o.qnet && fLt o.qnet (s.reg CMB_PARTQ))
    ∧ (o.misf = true → o.mfb10 = 0x80000000 ∧ o.mfb50 = 0x80000000 ∧ o.mfb90 = 0x80000000)
    ∧ o.knock = fLt (s.reg CMB_KTHR) o.ke
    ∧ (w.aband = true ∨ w.ovf = true ∨ o.pegerr = true ∨ o.psat = true ∨ s.fld CMB_CFG CMB_CFG_BADMAX < o.nbad ∨ w.smps.length < o.nbad + 16 →
        o.valid = false)
    ∧ (w.aband = false → w.ovf = false → o.pegerr = false → o.nbad = 0 → 16 ≤ w.smps.length → o.valid = true))
  ∧ (∀ s : State, s.cmb.works = [] → Sys2Proof.Machine.exec .cmbWorkRecord s = .next s)
  ∧ (∀ (s : State) (w : WorkWin), s.cmb.works.head? = some w → w.cyl < 12 → s.fld CMB_QCFG CMB_QCFG_EN = 0 →
    let c := w.cyl
    let d := (s.strOf c).delta
    let valid := !w.psat && decide (w.bad ≤ s.fld CMB_CFG CMB_CFG_BADMAX)
    let mine := fun (r : Nat) => s.bit (CMB_RCFG r) 0 = true ∧ s.fld (CMB_RCFG r) CMB_RCFG_CYL = c ∧ s.fld (CMB_RCFG r) CMB_RCFG_METRIC = 9
    let takes := fun (a : Fin 4) => valid = true ∧ s.fld (CMB_DCFG a) CMB_DCFG_EN = 1 ∧ s.bit (CMB_DMASK a) c = true
      ∧ (s.imepsOf a c).length < s.fld (CMB_DCFG a) CMB_DCFG_NCOV
    let held := fun (a : Fin 4) (k : Nat) (v : Word) => if k = c then s.imepsOf a k ++ [v] else s.imepsOf a k
    let full := fun (a : Fin 4) (v : Word) => ∀ k : Fin 12, s.bit (CMB_DMASK a) k = true → s.fld (CMB_DCFG a) CMB_DCFG_NCOV ≤ (held a k v).length
    ∃ t, Sys2Proof.Machine.exec .cmbWorkRecord s = .next t
      ∧ (let v := t.reg (CMB_WREC c 3)
        (∀ x, w.last = some x → v = fDiv (fAdd w.sum (fMul (d.getD 0) (fSub x.2 w.v0))) (s.reg CMB_VD))
        ∧ t.reg (CMB_WREC c 0) = w.tdc ∧ t.reg (CMB_WREC c 14) = w.slot ∧ t.fld (CMB_WREC c 2) ⟨0, 16⟩ = w.n % 65536
        ∧ t.reg (CMB_WREC c 1) = BitVec.ofNat 32 (c + 2 ^ 4 + 2 ^ 5 * b2n valid + 2 ^ 10 * b2n w.psat + 2 ^ 12 * b2n d.isNone
            + 2 ^ 16 * min 255 w.bad + 2 ^ 24 * w.sgen)
        ∧ (∀ i : Fin 10, t.reg (CMB_WREC c (4 + i)) = 0)
        ∧ t.cmb.works = s.cmb.works.tail ∧ t.cmb.queue = s.cmb.queue ∧ t.cmb.strs = s.cmb.strs
        ∧ t.bit CMB_EVT 1 = true ∧ t.bit CMB_EVT 2 = (!valid || s.bit CMB_EVT 2) ∧ t.bit CMB_EVT 7 = (d.isNone || s.bit CMB_EVT 7)
        ∧ t.fld (CMB_SCNT c) CMB_SCNT_INVAL
            = (if valid then s.fld (CMB_SCNT c) CMB_SCNT_INVAL else min 255 (s.fld (CMB_SCNT c) CMB_SCNT_INVAL + 1))
        ∧ (∀ a : Fin 4, (¬takes a → (∀ k : Fin 12, t.imepsOf a k = s.imepsOf a k) ∧ t.reg (CMB_DAMP a) = s.reg (CMB_DAMP a))
          ∧ (takes a → ¬full a v → (∀ k : Fin 12, t.imepsOf a k = held a k v) ∧ t.reg (CMB_DAMP a) = s.reg (CMB_DAMP a))
          ∧ (takes a → full a v →
              let cov := t.reg (CMB_DCOV a)
              let old := s.fld (CMB_DAMP a) CMB_DAMP_DAMP
              let st := s.fld (CMB_DCFG a) CMB_DCFG_STEP
              (∀ k : Fin 12, t.imepsOf a k = [])
              ∧ (∃ k : Fin 12, s.bit (CMB_DMASK a) k = true ∧ cov = covOf (held a k v))
              ∧ (∀ k : Fin 12, s.bit (CMB_DMASK a) k = true → fLt cov (covOf (held a k v)) = false)
              ∧ t.fld (CMB_DAMP a) CMB_DAMP_DAMP = (if fLt (s.reg (CMB_DCHI a)) cov then min (old + st) (s.fld (CMB_DLIM a) CMB_DLIM_DMAX)
                  else if fLt cov (s.reg (CMB_DCLO a)) then max (old - st) (s.fld (CMB_DLIM a) CMB_DLIM_DMIN) else old)
              ∧ ((∀ b : Fin 4, b ≠ a → takes b → full b v → s.fld (CMB_DCFG b) CMB_DCFG_PROF ≠ s.fld (CMB_DCFG a) CMB_DCFG_PROF) →
                  t.fld (INJ_DTH (s.fld (CMB_DCFG a) CMB_DCFG_PROF)) INJ_DTH_DAMP = t.fld (CMB_DAMP a) CMB_DAMP_DAMP)
              ∧ t.bit CMB_EVT CMB_EVT_DITH = true))
        ∧ ((∀ r : Fin 32, ¬mine r) → (∀ a : Fin 4, ¬(takes a ∧ full a v)) →
            t = { s with regs := t.regs, cmb := t.cmb, inflight := t.inflight, freeUses := t.freeUses }
            ∧ ∀ k, (∀ i : Fin 16, k ≠ CMB_WREC c i) → k ∉ [CMB_EVT, CMB_SCNT c] → t.reg k = s.reg k)))

/-- R511 to R516, R523, R524, R527, R532, R533, R535, R536: a bad frame is discarded with CRCERR; a good one of another member goes on out of the other
port with HOP one more and waits for its tag. The tag of a STATUS frame from the preferred port verifies the frames of the superframe before, which
are used in order, or discards them with TAGFAIL. A superframe closes the tag of the unit's own frames, holds the election and sends STATUS,
the MEMB frames due and, as leader, ANGLE on every authenticated port. A data channel sends one entry within quota and budget. -/
def Obligations.ChainFrames : Prop :=
  (∀ (p : Fin 2) (bytes : List Byte) (res : Nat) (s : State),
    (s.linkUp p = false →
      Sys2Proof.Machine.exec (.statusFrame p bytes res) s = .next s ∧ Sys2Proof.Machine.exec (.angleFrame p bytes res) s = .next s
      ∧ Sys2Proof.Machine.exec (.dataFrame p bytes res) s = .next s ∧ Sys2Proof.Machine.exec (.membFrame p bytes res) s = .next s)
    ∧ (s.linkUp p = true → frameOk bytes = false ∨ ((s.member (frameSrc bytes)).isNone = true ∧ frameSrc bytes ≠ s.ownUnit) →
      ∃ t, Sys2Proof.Machine.exec (.statusFrame p bytes res) s = .next t
        ∧ Sys2Proof.Machine.exec (.angleFrame p bytes res) s = .next t ∧ Sys2Proof.Machine.exec (.dataFrame p bytes res) s = .next t
        ∧ Sys2Proof.Machine.exec (.membFrame p bytes res) s = .next t
        ∧ s.frameDiscarded t p)
    ∧ (s.linkUp p = true → frameOk bytes = true → frameSrc bytes = s.ownUnit → (s.member s.ownUnit).isNone = true →
      Sys2Proof.Machine.exec (.statusFrame p bytes res) s = .next s ∧ Sys2Proof.Machine.exec (.angleFrame p bytes res) s = .next s
      ∧ Sys2Proof.Machine.exec (.dataFrame p bytes res) s = .next s ∧ Sys2Proof.Machine.exec (.membFrame p bytes res) s = .next s)
    ∧ (∀ m, s.member (frameSrc bytes) = some m → s.linkUp p = true → frameOk bytes = true → frameSrc bytes ≠ s.ownUnit →
      let typ := frameType bytes
      let on := s.linkUp (1 - p) = true ∧ frameHop bytes ≠ 62
      let dly := (if typ = 1 then field bytes 12 4 else 0) + (s.reg (CHN_LDLY p)).toNat
      let f : ChnFrame := { bytes := bytes, delay := dly, ang := if s.placed then some s.angW else none, at_ := s.now }
      let goesOn := fun (t : State) => t.port p = s.port p
        ∧ t.port (1 - p) = (if on then { s.port (1 - p) with fwd := (s.port (1 - p)).fwd ++ [forwarded bytes ((s.reg (CHN_LDLY p)).toNat + res)] }
            else s.port (1 - p))
      let kept := fun (t : State) => goesOn t
        ∧ t.member m.unit = some (m.setBuf p { m.buf p with frames := (m.buf p).frames ++ [f] })
        ∧ (∀ u, u ≠ m.unit → t.member u = s.member u)
        ∧ t = { s with chn := { s.chn with ports := t.chn.ports, members := t.chn.members } }
      (typ = 1 → ∃ t, Sys2Proof.Machine.exec (.angleFrame p bytes res) s = .next t ∧ kept t)
      ∧ (typ = 2 → ∃ t, Sys2Proof.Machine.exec (.dataFrame p bytes res) s = .next t ∧ kept t)
      ∧ (typ = 7 → ∃ t, Sys2Proof.Machine.exec (.membFrame p bytes res) s = .next t ∧ kept t)
      ∧ (typ = 0 →
        let m1 := if p.val = 0 then { m with hop0 := some (frameHop bytes) } else { m with hop1 := some (frameHop bytes) }
        let sf := BitVec.ofNat 32 (field bytes 6 4)
        let n := (m.buf p).sf.getD (sf - 1)
        let covered := (m.buf p).frames
        let tagOk := sf = n + 1 ∧ (Config.cmac s.ringKey (tagInput m.unit n (covered.map ChnFrame.bytes))).take 4 = slice bytes 10 4
        let fresh := ∀ l, m.lastSf = some l → 1 ≤ (n - l).toNat ∧ (n - l).toNat < 2 ^ 31
        (p.val ≠ m1.pref ∨ covered = [] → ∃ t, Sys2Proof.Machine.exec (.statusFrame p bytes res) s = .next t ∧ goesOn t
          ∧ t.member m.unit = some (m1.setBuf p { sf := some sf, frames := [f], age := 0 }) ∧ (∀ u, u ≠ m.unit → t.member u = s.member u)
          ∧ t = { s with chn := { s.chn with ports := t.chn.ports, members := t.chn.members } })
        ∧ (p.val = m1.pref → covered ≠ [] → ¬tagOk → ∃ t, Sys2Proof.Machine.exec (.statusFrame p bytes res) s = .next t ∧ goesOn t
          ∧ t.member m.unit = some (m1.setBuf p { sf := some sf, frames := [f], age := 0 })
          ∧ t.fld CHN_CNT0 CHN_CNT0_TAG = min 65535 (s.fld CHN_CNT0 CHN_CNT0_TAG + 1) ∧ t.bit CHN_EVT CHN_EVT_TAGFAIL = true
          ∧ s.onlySends { t with chn := { t.chn with ports := s.chn.ports, members := s.chn.members } } [CHN_CNT0, CHN_EVT]
              [evtItem CHN_EVT CHN_EVT_TAGFAIL, faultItem blkCHN 0 0x11 clsC m.unit])
        ∧ (p.val = m1.pref → covered ≠ [] → tagOk → ¬fresh → ∃ t, Sys2Proof.Machine.exec (.statusFrame p bytes res) s = .next t ∧ goesOn t
          ∧ t.member m.unit = some (m1.setBuf p { sf := some sf, frames := [f], age := 0 })
          ∧ t = { s with chn := { s.chn with ports := t.chn.ports, members := t.chn.members } })
        ∧ (p.val = m1.pref → (covered.map fun c => frameType c.bytes) = [0] → tagOk → fresh →
          ∃ t, Sys2Proof.Machine.exec (.statusFrame p bytes res) s = .next t ∧ goesOn t
          ∧ (let b := ((covered.map ChnFrame.bytes).head?).getD []
            t.member m.unit = some ({ m1 with
              age := 0
              miss := 0
              lastSf := some (BitVec.ofNat 32 (field b 6 4))
              grade := field b 4 1 / 16 % 8
              lprio := field b 5 1 % 16
              cand := field b 5 1 / 16 % 2 == 1 }.setBuf p { sf := some sf, frames := [f], age := 0 }))
          ∧ t = { s with chn := { s.chn with ports := t.chn.ports, members := t.chn.members } }))))
  ∧ (∀ (u : Nat) (f : ChnFrame) (s : State), frameType f.bytes = 7 → f.bytes.length = 16 →
    let v := field f.bytes 4 4 % 2 ^ 18
    let q := field f.bytes 4 4 / 2 ^ 18 % 256
    let add := field f.bytes 4 4 / 2 ^ 26 % 2 = 1
    let t := s.useFrame u f
    (v = s.ownUnit ∨ (add ∧ (s.member v).isSome = true) → t = s)
    ∧ (v ≠ s.ownUnit → add → s.member v = none → t.member v = some { unit := v, quota := q } ∧ (∀ w, w ≠ v → t.member w = s.member w)
        ∧ t.fld CHN_PSTAT CHN_PSTAT_MEMBERS = min 63 (s.chn.members.length + 2)
        ∧ s.onlyRegs { t with chn := { t.chn with members := s.chn.members } } [CHN_PSTAT])
    ∧ (v ≠ s.ownUnit → ¬add → t.member v = none ∧ (∀ w, w ≠ v → t.member w = s.member w)
        ∧ s.onlyRegs { t with chn := { t.chn with members := s.chn.members } } [CHN_PSTAT]))
  ∧ (∀ (u : Nat) (f : ChnFrame) (s : State), frameType f.bytes = 2 → f.bytes.length = 32 →
    let w := field f.bytes 4 4
    let rq := w / 2 ^ 18 % 32
    let forUs := w % 2 ^ 18 = s.ownUnit ∨ w / 2 ^ 23 % 2 = 1
    let t := s.useFrame u f
    let dropped := t.fld CHN_CNT1 CHN_CNT1_DDROP = min 65535 (s.fld CHN_CNT1 CHN_CNT1_DDROP + 1) ∧ t.bit CHN_EVT CHN_EVT_DDROP = true
    (¬forUs → t = s)
    ∧ (forUs → s.bit CHN_RXQ rq = false → dropped ∧ s.onlySends t [CHN_CNT1, CHN_EVT] [evtItem CHN_EVT CHN_EVT_DDROP])
    ∧ (forUs → s.bit CHN_RXQ rq = true → ∃ res, s.queued t rq (slice f.bytes 8 16) res ∧ (res ≠ 0 → dropped)))
  ∧ (∀ (u : Nat) (f : ChnFrame) (s : State), frameType f.bytes = 1 → f.bytes.length = 32 →
    let g := field f.bytes 19 1
    let cur := s.fld CHN_ASTAT CHN_ASTAT_LGEN
    let leads := s.fld CHN_ASTAT CHN_ASTAT_LEADER = 1
    let bound := leads ∨ s.fld CHN_ASTAT CHN_ASTAT_REF = 1
    let later := 1 ≤ (g + 256 - cur) % 256 ∧ (g + 256 - cur) % 256 ≤ 127
    let mine := if leads then some s.ownUnit else s.chn.fol
    let follows := ¬bound ∨ later ∨ (g = cur ∧ (mine = none ∨ mine = some u ∨ mine.any (fun v => outranks (s.rankOf u) (s.rankOf v)) = true))
    let aref := BitVec.ofNat 32 (field f.bytes 4 4) + BitVec.ofInt 32 (roundDiv (field f.bytes 8 4 * (128 * f.delay)) (1000 * 2 ^ 24))
    let t := s.useFrame u f
    (¬follows → t = s)
    ∧ (follows → t.fld CHN_ASTAT CHN_ASTAT_LDR = u % 2 ^ 18 ∧ t.fld CHN_ASTAT CHN_ASTAT_REF = 1 ∧ t.fld CHN_ASTAT CHN_ASTAT_LGEN = g
        ∧ t.chn.fol = some u ∧ (leads → t.chn.stop = true)
        ∧ (s.fld CHN_ACFG CHN_ACFG_MODE = 0 → s.onlyRegs { t with chn := { s.chn with ports := s.chn.ports } } [CHN_ASTAT]
            ∧ t.chn = { s.chn with fol := some u, folAge := 0, stop := t.chn.stop })
        ∧ (s.fld CHN_ACFG CHN_ACFG_MODE = 1 ∨ s.fld CHN_ACFG CHN_ACFG_MODE = 2 → t.reg CHN_RDLY = BitVec.ofNat 32 f.delay
            ∧ ∀ a, f.ang = some a →
              let e := (a - aref).toInt
              let atol : Int := s.fld CHN_ATOL CHN_ATOL_ATOL
              let far := (s.fld CHN_ATOL CHN_ATOL_CAPT : Int) < |e|
              let lost := atol < |e| ∧ s.chn.bad + 1 = s.fld CHN_ACFG CHN_ACFG_NMIS
              let won := |e| ≤ atol ∧ s.chn.good = 15 ∧ s.fld CHN_ASTAT CHN_ASTAT_AGREE = 0
              (t.reg CHN_ADIFF).toInt = e
              ∧ t.chn.bad = (if |e| ≤ atol then 0 else s.chn.bad + 1) ∧ t.chn.good = (if |e| ≤ atol then s.chn.good + 1 else 0)
              ∧ t.fld CHN_ASTAT CHN_ASTAT_AGREE = (if lost then 0 else if won then 1 else s.fld CHN_ASTAT CHN_ASTAT_AGREE)
              ∧ t.fld CHN_ASTAT CHN_ASTAT_FAR = (if far then 1 else s.fld CHN_ASTAT CHN_ASTAT_FAR)
              ∧ t.inflight = s.inflight
                  ++ (if lost then [evtItem CHN_EVT CHN_EVT_DISAGREE, faultItem blkCHN 0 0x12 clsC u] else if won then [evtItem CHN_EVT CHN_EVT_AGREE] else [])
                  ++ (if far then [evtItem CHN_EVT CHN_EVT_FAR, faultItem blkCHN 0 0x13 clsU u] else [])
              ∧ t.angW = s.angW ∧ t.mem = s.mem)
        ∧ (s.fld CHN_ACFG CHN_ACFG_MODE = 3 →
            let said := field f.bytes 16 1 % 8
            let good := said = 3 ∨ said = 4
            let same := field f.bytes 18 1 = s.chn.sgen
            t.reg CHN_RDLY = BitVec.ofNat 32 f.delay
            ∧ (s.syncSt = 0 ∨ s.syncSt = 5 → t.syncSt = if good then 1 else s.syncSt)
            ∧ (s.syncSt = 1 → t.syncSt = (if good ∧ s.chn.first = true then 3 else 1) ∧ (¬(good ∧ s.chn.first = true) → (t.chn.first = true ↔ good)))
            ∧ (s.fires = true → good → same → t.syncSt = said)
            ∧ (s.fires = true → ¬good ∨ ¬same → t.syncSt = 5))))
  ∧ (∀ (u : BitVec 18) (p : Fin 2) (s : State),
    (s.member u.toNat = none → Sys2Proof.Machine.exec (.tagTimeout u p) s = .next s)
    ∧ ∀ m, s.member u.toNat = some m →
      ((m.buf p).age < 2 ∨ (m.buf p).frames = [] → Sys2Proof.Machine.exec (.tagTimeout u p) s = .next s)
      ∧ (2 ≤ (m.buf p).age → (m.buf p).frames ≠ [] → ∃ t, Sys2Proof.Machine.exec (.tagTimeout u p) s = .next t
        ∧ t.member u.toNat = some (m.setBuf p {}) ∧ (∀ v, v ≠ u.toNat → t.member v = s.member v)
        ∧ t.fld CHN_CNT0 CHN_CNT0_TAG = min 65535 (s.fld CHN_CNT0 CHN_CNT0_TAG + 1) ∧ t.bit CHN_EVT CHN_EVT_TAGFAIL = true
        ∧ s.onlySends { t with chn := { t.chn with members := s.chn.members } } [CHN_CNT0, CHN_EVT]
            [evtItem CHN_EVT CHN_EVT_TAGFAIL, faultItem blkCHN 0 0x11 clsC u.toNat]))
  ∧ (∀ (d : Fin 16) (s : State),
    let n := (if s.linkUp 0 then 1 else 0) + (if s.linkUp 1 then 1 else 0)
    let q := s.fld (CHN_DCFG d) CHN_DCFG_TXQ
    let acct := some (s.fld (CHN_DCFG d) CHN_DCFG_ACCT)
    let ready := s.bit (CHN_DCFG d) 0 = true ∧ n ≠ 0 ∧ s.qCount q ≠ 0 ∧ vat s.chn.used d + 2 ≤ s.fld (CHN_DCFG d) CHN_DCFG_QUOTA
    let l := mkFrame 2 0 s.ownUnit (toBytes 4 ((s.reg (CHN_DDST d)).toNat % 2 ^ 24) ++ s.qOldest q)
    (¬ready → Sys2Proof.Machine.exec (.dataChannelSend d) s = .next s)
    ∧ (ready → s.budHas acct resCHAIN (2 * n) = false → ∃ t, Sys2Proof.Machine.exec (.dataChannelSend d) s = .next t
      ∧ t = { s with meters := (s.budStarve acct resCHAIN).meters })
    ∧ (ready → s.budHas acct resCHAIN (2 * n) = true → ∃ t, Sys2Proof.Machine.exec (.dataChannelSend d) s = .next t
      ∧ t.qCount q = s.qCount q - 1 ∧ vat t.chn.used d = vat s.chn.used d + 2 ∧ (∀ e : Fin 16, e ≠ d → vat t.chn.used e = vat s.chn.used e)
      ∧ t.chn.mine = s.chn.mine ++ [l]
      ∧ (∀ p : Fin 2, t.port p = if s.linkUp p then { s.port p with out := (s.port p).out ++ [l] } else s.port p)
      ∧ t.meters = (s.budDraw acct resCHAIN (2 * n)).meters ∧ t.mem = s.mem ∧ t.chn.members = s.chn.members))
  ∧ (∀ s : State, s.inRing = false → (s.chn.members.map ChnMember.unit).Nodup → s.ownUnit ∉ s.chn.members.map ChnMember.unit →
    let sf := s.chn.sfseq + 1
    let tag := (Config.cmac s.ringKey (tagInput s.ownUnit s.chn.sfseq s.chn.mine)).take 4
    let mingr := s.fld CHN_ECFG CHN_ECFG_MINGR
    let hyst := s.fld CHN_ECFG CHN_ECFG_HYST
    let self := s.fld CHN_ECFG CHN_ECFG_CAND = 1 ∧ mingr ≤ s.grade
    let heard := fun (m : ChnMember) => m.lastSf.isSome && decide (m.age + 1 ≤ 4)
    let cand := fun (m : ChnMember) => heard m && m.cand && decide (mingr ≤ m.grade)
    let cands := (if self then [(s.grade, s.fld CHN_ECFG CHN_ECFG_LPRIO, s.ownUnit)] else [])
      ++ (s.chn.members.filter cand).map fun m => (m.grade, m.lprio, m.unit)
    let best := fun (x : Option Nat) => (x = none → cands = []) ∧ ∀ u, x = some u → ∃ c ∈ cands, c.2.2 = u ∧ ∀ d ∈ cands, outranks d c = false
    ∃ t, Sys2Proof.Machine.exec .superframeStart s = .next t
      ∧ t.chn.sfseq = sf ∧ t.chn.count = s.chn.count + 1
      ∧ (∀ p : Fin 2, (t.port p).crc = 0 ∧ (t.port p).fwd = [] ∧ (t.port p).up = (s.port p).up
          ∧ (s.linkUp p = true → (t.port p).auth = true
            ∧ mkFrame 0 0 s.ownUnit (toBytes 1 (s.syncSt + 16 * s.grade)
                ++ toBytes 1 (s.fld CHN_ECFG CHN_ECFG_LPRIO + 16 * s.fld CHN_ECFG CHN_ECFG_CAND) ++ toBytes 4 sf.toNat ++ tag) ∈ (t.port p).out
            ∧ (∀ x ∈ s.chn.memb, mkFrame 7 0 s.ownUnit (toBytes 4 (x.1 + 2 ^ 18 * (x.2.1 % 256) + 2 ^ 26 * b2n x.2.2.1)) ∈ (t.port p).out)
            ∧ (t.fld CHN_ASTAT CHN_ASTAT_LEADER = 1 → mkFrame 1 0 s.ownUnit (wordsToBytes [s.obsAng, s.reg OBS_RATE, 0] ++ toBytes 1 s.syncSt
                ++ toBytes 1 s.grade ++ toBytes 1 (s.fld OBS_STATE OBS_STATE_SGEN) ++ toBytes 1 (t.fld CHN_ASTAT CHN_ASTAT_LGEN)) ∈ (t.port p).out)
            ∧ ((s.chn.count + 1) % 1024 = 0 → mkFrame 3 0 s.ownUnit (toBytes 4 (s.port p).rseq) ∈ (t.port p).out
                ∧ (t.port p).dreq = some ((s.port p).rseq % 2 ^ 32, 0))))
      ∧ (∀ m ∈ s.chn.members, ∃ m', t.member m.unit = some m' ∧ m'.age = m.age + 1 ∧ m'.grade = m.grade ∧ m'.lprio = m.lprio ∧ m'.lastSf = m.lastSf)
      ∧ (s.chn.sit = none → best t.chn.sit)
      ∧ (∀ u, s.chn.sit = some u →
          let g := (s.rankOf u).1
          let up := fun (n k v : Nat) => if cands.any (fun c => c.2.2 == v) ∧ v ≠ u ∧ g < k then n + 1 else 0
          let gone := u ≠ s.ownUnit ∧ ((s.member u).all fun m => !heard m) = true
          let beaten := hyst ≤ up s.chn.better s.grade s.ownUnit ∨ ∃ m ∈ s.chn.members, hyst ≤ up m.better m.grade m.unit
          (gone ∨ g < mingr ∨ beaten → best t.chn.sit) ∧ (¬(gone ∨ g < mingr ∨ beaten) → t.chn.sit = some u))
      ∧ (t.chn.sit ≠ s.chn.sit → t.bit CHN_EVT CHN_EVT_LCHG = true)
      ∧ (let stays := s.fld CHN_ASTAT CHN_ASTAT_LEADER = 1 ∧ s.chn.stop = false
        t.fld CHN_ASTAT CHN_ASTAT_LEADER = 1 → (stays → t.fld CHN_ASTAT CHN_ASTAT_LGEN = s.fld CHN_ASTAT CHN_ASTAT_LGEN)
          ∧ (¬stays → t.chn.sit = some s.ownUnit ∧ t.fld CHN_ASTAT CHN_ASTAT_LGEN = (s.fld CHN_ASTAT CHN_ASTAT_LGEN + 1) % 256))
      ∧ t = { s with regs := t.regs, chn := t.chn, inflight := t.inflight }
      ∧ ∀ k, k ∉ [CHN_ASTAT, CHN_PSTAT, CHN_EVT] → t.reg k = s.reg k)

/-- R518 to R523, R525, R526, R530, R534, R548: a delay request is answered at once, and its answer gives the delay of the link; without one it is
sent again after 8 superframes. An item whole with its last fragment is acknowledged and taken: a HELLO of another mode, a certificate,
signature, key or admission that fails ends in ABORT and 1 s down; else the exchange goes on to the ring key of the surviving ring. A port that
comes up begins authentication, one that goes down holds nothing, with both down the unit is isolated. -/
def Obligations.ChainLinks : Prop :=
  (∀ (p : Fin 2) (bytes : List Byte) (turn : Word) (s : State),
    (s.linkUp p = false → Sys2Proof.Machine.exec (.dreqFrame p bytes turn) s = .next s ∧ Sys2Proof.Machine.exec (.drspFrame p bytes turn) s = .next s)
    ∧ (s.linkUp p = true → frameOk bytes = false → ∃ t, Sys2Proof.Machine.exec (.dreqFrame p bytes turn) s = .next t
        ∧ Sys2Proof.Machine.exec (.drspFrame p bytes turn) s = .next t ∧ s.frameDiscarded t p)
    ∧ (s.linkUp p = true → frameOk bytes = true → frameType bytes = 3 → ∃ t, Sys2Proof.Machine.exec (.dreqFrame p bytes turn) s = .next t
        ∧ t.port p = { s.port p with out := (s.port p).out ++ [mkFrame 4 0 s.ownUnit (slice bytes 4 4 ++ toBytes 4 turn.toNat)] }
        ∧ t.port (1 - p) = s.port (1 - p) ∧ t = { s with chn := { s.chn with ports := t.chn.ports } })
    ∧ (s.linkUp p = true → frameOk bytes = true → frameType bytes = 4 → ∀ d, (s.port p).dreq = some d →
        (field bytes 4 4 = d.1 → ∃ t, Sys2Proof.Machine.exec (.drspFrame p bytes turn) s = .next t
          ∧ (t.reg (CHN_LDLY p)).toNat = ((turn.toNat - field bytes 8 4) / 2) % 2 ^ 32 ∧ t.port p = { s.port p with dreq := none }
          ∧ t.port (1 - p) = s.port (1 - p) ∧ s.onlyRegs { t with chn := { t.chn with ports := s.chn.ports } } [CHN_LDLY p])
        ∧ (field bytes 4 4 ≠ d.1 → Sys2Proof.Machine.exec (.drspFrame p bytes turn) s = .next s))
    ∧ (s.linkUp p = true → frameOk bytes = true → frameType bytes = 4 → (s.port p).dreq = none →
        Sys2Proof.Machine.exec (.drspFrame p bytes turn) s = .next s))
  ∧ (∀ (p : Fin 2) (s : State),
    ((s.port p).dreq = none → Sys2Proof.Machine.exec (.dreqTimeout p) s = .next s)
    ∧ ∀ d, (s.port p).dreq = some d →
      (d.2 < 8 → Sys2Proof.Machine.exec (.dreqTimeout p) s = .next s)
      ∧ (8 ≤ d.2 → ∃ t, Sys2Proof.Machine.exec (.dreqTimeout p) s = .next t
        ∧ t.port p = { s.port p with
            out := (s.port p).out ++ [mkFrame 3 0 s.ownUnit (toBytes 4 (s.port p).rseq)]
            dreq := some ((s.port p).rseq % 2 ^ 32, 0)
            rseq := ((s.port p).rseq + 1) % 2 ^ 32 }
        ∧ t.port (1 - p) = s.port (1 - p) ∧ t = { s with chn := { s.chn with ports := t.chn.ports } }))
  ∧ (∀ (p : Fin 2) (bytes : List Byte) (s : State),
    let x := s.port p
    let item := field bytes 4 1 % 16
    let frag := field bytes 5 1
    let n := field bytes 6 1
    let data := slice bytes 8 54
    let shape := 1 ≤ n ∧ n ≤ 19 ∧ frag < n ∧ field bytes 4 1 / 16 = 0 ∧ field bytes 7 1 = 0
    let closed := x.up = false ∨ x.hold.isSome = true
    let rx := fun (key : Bool) => (frag, data) :: (if x.rxKey = key ∧ x.rxItem = item ∧ x.rxN = n then x.rx else []).filter fun q => q.1 != frag
    let whole := fun (key : Bool) => (List.range n).flatMap fun i => (((rx key).find? fun q => q.1 == i).map Prod.snd).getD []
    let ports := fun (t : State) => t.port (1 - p) = s.port (1 - p) ∧ t = { s with chn := { s.chn with ports := t.chn.ports } }
    let ack := fun (key : Bool) => fragments (if key then 6 else 5) s.ownUnit 5 (toBytes 1 item)
    let abort := fun (why : Nat) => fragments 5 s.ownUnit 6 (toBytes 1 why)
    (closed → Sys2Proof.Machine.exec (.authFrame p bytes) s = .next s ∧ Sys2Proof.Machine.exec (.keyFrame p bytes) s = .next s)
    ∧ (¬closed → frameOk bytes = false → ∃ t, Sys2Proof.Machine.exec (.authFrame p bytes) s = .next t
        ∧ Sys2Proof.Machine.exec (.keyFrame p bytes) s = .next t ∧ s.frameDiscarded t p)
    ∧ (¬closed → frameOk bytes = true → frameType bytes = 5 →
      (¬(shape ∧ 1 ≤ item ∧ item ≤ 6) → ∃ t, Sys2Proof.Machine.exec (.authFrame p bytes) s = .next t ∧ s.frameDiscarded t p)
      ∧ (shape → item = 5 → ∃ t, Sys2Proof.Machine.exec (.authFrame p bytes) s = .next t ∧ ports t
        ∧ t.port p = { x with tx := x.tx.map fun i => if i.isKey = false ∧ i.item = field data 0 1 then { i with acked := true } else i })
      ∧ (shape → item = 6 → ∃ t, Sys2Proof.Machine.exec (.authFrame p bytes) s = .next t ∧ s.joinRefused t p [] [])
      ∧ (shape → 1 ≤ item → item ≤ 4 → x.auth = true → Sys2Proof.Machine.exec (.authFrame p bytes) s = .next s)
      ∧ (shape → 1 ≤ item → item ≤ 4 → x.auth = false → (rx false).length < n → ∃ t, Sys2Proof.Machine.exec (.authFrame p bytes) s = .next t ∧ ports t
        ∧ t.port p = { x with rxKey := false, rxItem := item, rxN := n, rx := rx false })
      ∧ (shape → x.auth = false → n ≤ (rx false).length →
        let d := whole false
        let mode := field d 16 1
        (item = 1 → mode ≠ s.fld CHN_CFG CHN_CFG_AUTH → ∃ t, Sys2Proof.Machine.exec (.authFrame p bytes) s = .next t
          ∧ s.joinRefused t p (ack false ++ abort 4) [])
        ∧ (item = 1 → mode = s.fld CHN_CFG CHN_CFG_AUTH → x.hello = none → ∃ t, Sys2Proof.Machine.exec (.authFrame p bytes) s = .next t ∧ ports t
          ∧ (t.port p).hello = some (slice d 0 16, mode)
          ∧ (let head := toBytes 1 s.ownQuota ++ toBytes 3 s.ownUnit ++ toBytes 4 0 ++ Config.ecdhPub x.seed
            let new := [(2, toBytes 2 Config.devCert.length ++ Config.devCert)]
              ++ (if mode = 0 then [(3, certItem (match s.enrolled with | some e => e.cert | none => []))] else [])
              ++ [(4, head ++ Config.ecdsaSign Config.devPrivate (head ++ slice d 0 16))]
            (t.port p).tx = x.tx ++ new.map (fun i => ({ isKey := false, item := i.1, data := i.2 } : AuthItem))
            ∧ (t.port p).out = x.out ++ ack false ++ new.flatMap fun i => fragments 5 s.ownUnit i.1 i.2))
        ∧ (item = 2 ∨ item = 3 → ∃ t, Sys2Proof.Machine.exec (.authFrame p bytes) s = .next t ∧ ports t
          ∧ t.port p = { x with
              rxKey := false
              rxItem := item
              rxN := 0
              rx := []
              out := x.out ++ ack false
              dev := if item = 2 then some ((d.drop 2).take (field d 0 2)) else x.dev
              own := if item = 3 then some ((d.drop 2).take (field d 0 2)) else x.own })
        ∧ (∀ h, x.hello = some h → ∀ dev, x.dev = some dev → item = 4 →
          let unit := field d 1 3 % 2 ^ 18
          let certs := Config.certOk Config.caKey dev s.checksDates s.calSec = true ∧ (s.fld CHN_CFG CHN_CFG_AUTH = 0 →
            (x.own.any fun o => s.enrolled.any fun e => Config.certOk e.rootk o s.checksDates s.calSec
              && Config.certKey o == Config.certKey dev && Config.certUnit o == unit) = true)
          let signed := Config.ecdsaOk (Config.certKey dev) (slice d 0 72 ++ x.nonce) (slice d 72 64) = true
          let failed := [evtItem HMK_EVT HMK_EVT_VERIFY, faultItem blkHMK 0 0x10 clsC 0]
          (¬certs → ∃ t, Sys2Proof.Machine.exec (.authFrame p bytes) s = .next t ∧ s.joinRefused t p (ack false ++ abort 1) failed)
          ∧ (certs → ¬signed → ∃ t, Sys2Proof.Machine.exec (.authFrame p bytes) s = .next t ∧ s.joinRefused t p (ack false ++ abort 2) failed)
          ∧ (certs → signed → ∃ t, Sys2Proof.Machine.exec (.authFrame p bytes) s = .next t ∧ ports t
            ∧ (t.port p).offer = some (field d 0 1, unit, slice d 8 64)
            ∧ (let key := Config.hkdf (Config.ecdhShared x.seed (slice d 8 64)) (if s.ownUnit < unit then x.nonce ++ h.1 else h.1 ++ x.nonce)
              let kid := toBytes 4 (s.keyGen + 2 ^ 18 * s.chn.cnt)
              let rkey := if x.rkey.any (fun r => slice r 0 4 == kid) then kid else kid ++ Config.keyWrap key s.ringKey
              (t.port p).pair = some key
              ∧ (t.port p).tx.map (fun i => (i.isKey, i.item, i.data)) = x.tx.map (fun i => (i.isKey, i.item, i.data))
                  ++ [(true, 1, rkey), (true, 2, s.tableItem), (true, 3, Config.cmac key (rkey ++ s.tableItem))])))))
    ∧ (¬closed → frameOk bytes = true → frameType bytes = 6 →
      (¬(shape ∧ (item = 1 ∨ item = 2 ∨ item = 3 ∨ item = 5)) → ∃ t, Sys2Proof.Machine.exec (.keyFrame p bytes) s = .next t ∧ s.frameDiscarded t p)
      ∧ (shape → item = 5 → ∃ t, Sys2Proof.Machine.exec (.keyFrame p bytes) s = .next t ∧ ports t
        ∧ t.port p = { x with tx := x.tx.map fun i => if i.isKey = true ∧ i.item = field data 0 1 then { i with acked := true } else i })
      ∧ (shape → 1 ≤ item → item ≤ 3 → x.auth = true → Sys2Proof.Machine.exec (.keyFrame p bytes) s = .next s)
      ∧ (shape → 1 ≤ item → item ≤ 3 → x.auth = false → (rx true).length < n → ∃ t, Sys2Proof.Machine.exec (.keyFrame p bytes) s = .next t ∧ ports t
        ∧ t.port p = { x with rxKey := true, rxItem := item, rxN := n, rx := rx true })
      ∧ (shape → x.auth = false → n ≤ (rx true).length →
        let d := whole true
        (item = 1 ∨ item = 2 → ∃ t, Sys2Proof.Machine.exec (.keyFrame p bytes) s = .next t ∧ ports t
          ∧ (t.port p).out = x.out ++ ack true
          ∧ (item = 1 → (t.port p).mtab = x.mtab ∧ ∃ l, (t.port p).rkey = some l ∧ l.take 4 = d.take 4)
          ∧ (item = 2 → (t.port p).rkey = x.rkey ∧ (t.port p).mtab = some (slice d 0 (1 + 4 * field d 0 1))))
        ∧ (∀ key, x.pair = some key → ∀ rk, x.rkey = some rk → ∀ mt, x.mtab = some mt → ∀ o, x.offer = some o → item = 3 →
          let good := Config.cmac key (rk ++ mt) = slice d 0 16
          let gen := field rk 0 4 % 2 ^ 18
          let cnt := field rk 0 4 / 2 ^ 18 % 256
          let survives := s.keyGen < gen ∨ (gen = s.keyGen ∧ cnt < s.chn.cnt)
          let admits := s.member o.2.1 = none ∧ o.2.1 ≠ s.ownUnit ∧ s.chn.members.length + 1 < 64
            ∧ (s.chn.members.map fun m => 1 + m.quota).sum + (1 + s.ownQuota) + (1 + o.1) ≤ 194
          (¬good → ∃ t, Sys2Proof.Machine.exec (.keyFrame p bytes) s = .next t ∧ s.joinRefused t p (ack true ++ abort 2) [])
          ∧ (good → gen = s.keyGen → cnt = s.chn.cnt → ∃ t, Sys2Proof.Machine.exec (.keyFrame p bytes) s = .next t ∧ ports t ∧ (t.port p).keyed = true)
          ∧ (good → survives → ¬admits → ∃ t, Sys2Proof.Machine.exec (.keyFrame p bytes) s = .next t ∧ s.joinRefused t p (ack true ++ abort 3) [])
          ∧ (good → survives → admits → ∃ t, Sys2Proof.Machine.exec (.keyFrame p bytes) s = .next t ∧ (t.port p).keyed = true
            ∧ t.member o.2.1 = some { unit := o.2.1, quota := o.1 } ∧ t.chn.memb = s.chn.memb ++ [(o.2.1, o.1, true, 4)]
            ∧ t.ringKey = s.ringKey ∧ t.keyGen = s.keyGen ∧ ∀ v, v ≠ o.2.1 → t.member v = s.member v)
          ∧ (good → ¬survives → (gen ≠ s.keyGen ∨ cnt ≠ s.chn.cnt) →
            (Config.keyUnwrap key (rk.drop 4) = none → ∃ t, Sys2Proof.Machine.exec (.keyFrame p bytes) s = .next t
              ∧ s.joinRefused t p (ack true ++ abort 2) [])
            ∧ (∀ ring, Config.keyUnwrap key (rk.drop 4) = some ring → ∃ t, Sys2Proof.Machine.exec (.keyFrame p bytes) s = .next t
              ∧ t.ringKey = ring ∧ t.keyGen = gen ∧ t.chn.cnt = cnt ∧ (t.port p).keyed = true
              ∧ ∀ v, (t.member v).isSome = true ↔ v ∈ (tableMembers s.ownUnit mt).map ChnMember.unit))))))
  ∧ (∀ (p : Fin 2) (s : State),
    let x := s.port p
    let due := fun (i : AuthItem) => !i.acked && decide (64 ≤ i.age)
    (x.tx.any due = false → Sys2Proof.Machine.exec (.authItemResend p) s = .next s)
    ∧ (∀ i, x.tx.find? due = some i → ∃ t, Sys2Proof.Machine.exec (.authItemResend p) s = .next t
      ∧ (t.port p).out = x.out ++ fragments (if i.isKey then 6 else 5) s.ownUnit i.item i.data
      ∧ (t.port p).tx.length = x.tx.length ∧ { i with age := 0 } ∈ (t.port p).tx
      ∧ t.port (1 - p) = s.port (1 - p) ∧ t = { s with chn := { s.chn with ports := t.chn.ports } })
    ∧ (x.auth = true ∨ x.t0.all (fun u => decide (s.now < u + 40000000)) = true → Sys2Proof.Machine.exec (.authTimeout p) s = .next s)
    ∧ (x.auth = false → x.t0.any (fun u => decide (u + 40000000 ≤ s.now)) = true → ∃ t, Sys2Proof.Machine.exec (.authTimeout p) s = .next t
      ∧ s.joinRefused t p (fragments 5 s.ownUnit 6 (toBytes 1 5)) [])
    ∧ (x.hold.all (fun u => decide (s.now < u)) = true → Sys2Proof.Machine.exec (.linkHoldoffEnd p) s = .next s)
    ∧ (x.hold.any (fun u => decide (u ≤ s.now)) = true → ∃ t, Sys2Proof.Machine.exec (.linkHoldoffEnd p) s = .next t
      ∧ (t.port p).hold = none ∧ (t.port p).up = x.up ∧ (t.port p).auth = false ∧ (t.port p).hello = none ∧ (t.port p).nonce.length = 16
      ∧ t.port (1 - p) = s.port (1 - p) ∧ t.inflight = s.inflight ∧ t.chn.members = s.chn.members ∧ t.mem = s.mem)
    ∧ (x.up = false → Sys2Proof.Machine.exec (.portDown p) s = .next s)
    ∧ (x.up = true → ∃ t, Sys2Proof.Machine.exec (.portDown p) s = .next t ∧ t.port p = {} ∧ t.port (1 - p) = s.port (1 - p)
      ∧ (let gone := (s.port (1 - p)).up = false
        t.fld CHN_PSTAT CHN_PSTAT_UP = (if gone then 0 else 2 ^ (1 - p.val))
        ∧ s.onlySends { t with chn := { t.chn with ports := s.chn.ports } } [CHN_PSTAT, CHN_EVT] ([evtItem CHN_EVT (2 + p), faultItem blkCHN 0 0x14 clsC 0]
            ++ if gone then [evtItem CHN_EVT CHN_EVT_ISOL, faultItem blkCHN 0 0x15 clsU 0] else [])))
    ∧ (s.bit CHN_APPLIED p = false ∨ x.up = true → Sys2Proof.Machine.exec (.portRetrain p) s = .next s)
    ∧ (s.bit CHN_APPLIED p = true → x.up = false → ∃ t, Sys2Proof.Machine.exec (.portRetrain p) s = .next t
      ∧ (t.port p).up = true ∧ (t.port p).auth = false ∧ (t.port p).hello = none ∧ (t.port p).nonce.length = 16 ∧ t.port (1 - p) = s.port (1 - p)
      ∧ t.bit CHN_PSTAT p = true ∧ t.bit CHN_EVT p = true
      ∧ s.onlySends { t with chn := { t.chn with ports := s.chn.ports }, freeUses := s.freeUses } [CHN_PSTAT, CHN_EVT] [evtItem CHN_EVT p]))
  ∧ (∀ s : State, (s.chn.alone < 32 → Sys2Proof.Machine.exec .ringOfOne s = .next s)
    ∧ (32 ≤ s.chn.alone → ∃ t, Sys2Proof.Machine.exec .ringOfOne s = .next t ∧ t.chn = { s.chn with members := [], memb := [] }
      ∧ t.ringKey = s.ringKey ∧ t.fld CHN_PSTAT CHN_PSTAT_MEMBERS = 1 ∧ s.onlyRegs { t with chn := s.chn } [CHN_PSTAT]))
  ∧ (∀ (u : BitVec 18) (s : State),
    ((s.member u.toNat).all (fun m => decide (m.age ≤ 32)) = true → Sys2Proof.Machine.exec (.memberTimeout u) s = .next s)
    ∧ ∀ m, s.member u.toNat = some m → 32 < m.age → u.toNat ≠ s.ownUnit → ∃ t, Sys2Proof.Machine.exec (.memberTimeout u) s = .next t
      ∧ t.member u.toNat = none ∧ (∀ v, v ≠ u.toNat → t.member v = s.member v) ∧ t.chn.memb = s.chn.memb ++ [(u.toNat, m.quota, false, 4)]
      ∧ t.chn.ports = s.chn.ports ∧ t.ringKey = s.ringKey ∧ s.onlyRegs { t with chn := s.chn } [CHN_PSTAT])
  ∧ (∀ (w : Word) (s : State), ∃ t, Sys2Proof.Machine.exec (.chnCtrlWrite w) s = .next t
    ∧ t.fld CHN_CTRL CHN_CTRL_EN = CHN_CTRL_EN.get w ∧ t.fld CHN_CTRL CHN_CTRL_GEN = CHN_CTRL_GEN.get w
    ∧ t.fld CHN_APPLIED CHN_APPLIED_EN = CHN_CTRL_EN.get w ∧ t.fld CHN_APPLIED CHN_APPLIED_GEN = CHN_CTRL_GEN.get w
    ∧ (∀ p : Fin 2, t.port p = if bitOf w p then s.port p else {})
    ∧ s.onlyRegs { t with chn := { t.chn with ports := s.chn.ports } } [CHN_CTRL, CHN_APPLIED, CHN_PSTAT])
  ∧ (∀ (w : Word) (s : State), ∃ t, Sys2Proof.Machine.exec (.clrfar w) s = .next t
    ∧ t.fld CHN_ASTAT CHN_ASTAT_FAR = (if bitOf w 0 then 0 else s.fld CHN_ASTAT CHN_ASTAT_FAR) ∧ s.onlyRegs t [CHN_ASTAT])

/-- R538 to R541: a received frame is dropped and counted under the first condition of R539 that holds; else its bytes stand in the oldest free buffer
and its entry with the receive stamp is put. A transmit entry outside 60 to 1,518 bytes, or with the link down, completes with its STATUS; else
its frame goes out with the transmit stamp and completes when sent. STEP adds the signed offset to the clock, CTRIG latches it, a changed
auto-negotiation word sets LINK, and STALE follows TOUT ms without an accepted frame. -/
def Obligations.EthernetFrames : Prop :=
  (∀ (l : List Byte) (good : Bool) (s : State),
    let ms := s.now / 400000
    let n := if s.eth.ms = ms then s.eth.count + 1 else 1
    let whole := good = true ∧ 60 ≤ l.length ∧ l.length ≤ 1518
    let d := field l 0 6
    let dest := d = (s.reg ETH_MACL).toNat + 2 ^ 32 * s.fld ETH_MACH ETH_MACH_ADDR ∨ (d = 2 ^ 48 - 1 ∧ s.fld ETH_MACH ETH_MACH_BCAST = 1)
      ∨ ∃ m : Fin 16, s.fld (ETH_MCH m) ETH_MCH_EN = 1 ∧ d = (s.reg (ETH_MCL m)).toNat + 2 ^ 32 * s.fld (ETH_MCH m) ETH_MCH_ADDR
    let tagged := slice l 12 2 = [0x81, 0x00]
    let vid := ((l.getD 14 0).toNat * 256 + (l.getD 15 0).toNat) % 4096
    let vlan := (tagged → ∃ v : Fin 16, (s.fld (ETH_VLAN v) ETH_VLAN_EN0 = 1 ∧ s.fld (ETH_VLAN v) ETH_VLAN_VID0 = vid)
        ∨ (s.fld (ETH_VLAN v) ETH_VLAN_EN1 = 1 ∧ s.fld (ETH_VLAN v) ETH_VLAN_VID1 = vid)) ∧ (¬tagged → s.fld ETH_MACH ETH_MACH_UNTAG = 1)
    let fbq := s.fld ETH_QCFG ETH_QCFG_FBQ
    let rxq := s.fld ETH_QCFG ETH_QCFG_RXQ
    let acct := s.binding 5
    let pause := if s.fld ETH_MACH ETH_MACH_PAUSE = 1 ∧ slice l 12 4 = [0x88, 0x08, 0x00, 0x01]
      then s.now + ((l.getD 16 0).toNat * 256 + (l.getD 17 0).toNat) * s.quantum10 / 10 else s.eth.pause
    let dropped := fun (t : State) (evt : Nat) =>
      t.fld ETH_CNT ETH_CNT_RXDROP = min (2 ^ ETH_CNT_RXDROP.w - 1) (s.fld ETH_CNT ETH_CNT_RXDROP + 1) ∧ t.bit ETH_EVT evt = true
      ∧ t.eth = { s.eth with ms := ms, count := n, pause := pause } ∧ s.onlySends { t with eth := s.eth } [ETH_CNT, ETH_EVT] [evtItem ETH_EVT evt]
    (s.bit ETH_APPLIED 0 = false → Sys2Proof.Machine.exec (.ethReceive l good) s = .next s)
    ∧ (s.bit ETH_APPLIED 0 = true → ¬whole → ∃ t, Sys2Proof.Machine.exec (.ethReceive l good) s = .next t
      ∧ t.fld ETH_CNT ETH_CNT_FCS = min (2 ^ ETH_CNT_FCS.w - 1) (s.fld ETH_CNT ETH_CNT_FCS + 1) ∧ t.bit ETH_EVT ETH_EVT_FCS = true
      ∧ t.eth = { s.eth with ms := ms, count := n } ∧ s.onlySends { t with eth := s.eth } [ETH_CNT, ETH_EVT] [evtItem ETH_EVT ETH_EVT_FCS])
    ∧ (s.bit ETH_APPLIED 0 = true → whole → ¬(dest ∧ vlan) → ∃ t, Sys2Proof.Machine.exec (.ethReceive l good) s = .next t ∧ dropped t ETH_EVT_FILT)
    ∧ (s.bit ETH_APPLIED 0 = true → whole → dest → vlan →
      (s.fld ETH_RXLIM ETH_RXLIM_LIM < n → ∃ t, Sys2Proof.Machine.exec (.ethReceive l good) s = .next t ∧ dropped t ETH_EVT_RATE)
      ∧ (n ≤ s.fld ETH_RXLIM ETH_RXLIM_LIM → s.qCount fbq = 0 → ∃ t, Sys2Proof.Machine.exec (.ethReceive l good) s = .next t ∧ dropped t ETH_EVT_NOBUF)
      ∧ (n ≤ s.fld ETH_RXLIM ETH_RXLIM_LIM → s.qCount fbq ≠ 0 → s.budHas acct resFABRIC ((l.length + 15) / 16 + 1) = false →
        ∃ t, Sys2Proof.Machine.exec (.ethReceive l good) s = .next t
          ∧ t.fld ETH_CNT ETH_CNT_RXDROP = min (2 ^ ETH_CNT_RXDROP.w - 1) (s.fld ETH_CNT ETH_CNT_RXDROP + 1)
          ∧ t.eth = { s.eth with ms := ms, count := n, pause := pause } ∧ t.mem = s.mem ∧ t.qCount fbq = s.qCount fbq
          ∧ t.meters = (s.budStarve acct resFABRIC).meters)
      ∧ (n ≤ s.fld ETH_RXLIM ETH_RXLIM_LIM → s.qCount fbq ≠ 0 → s.budHas acct resFABRIC ((l.length + 15) / 16 + 1) = true → fbq ≠ rxq →
          s.fld (QUE_QCFG rxq) QUE_QCFG_EN = 1 → s.qCount rxq < s.qDepth rxq →
        let buf := BitVec.ofNat 32 (field (s.qOldest fbq) 0 4)
        let slot := s.qAddr rxq (s.fld (QUE_QHEAD rxq) QUE_QHEAD_INDEX)
        let stamp := clkAdd s.eth.clk (-((s.fld ETH_PLAT ETH_PLAT_RXLAT * nsUnit / 10 : Nat) : Int))
        ∃ t, Sys2Proof.Machine.exec (.ethReceive l good) s = .next t
          ∧ t.qCount fbq = s.qCount fbq - 1 ∧ t.qCount rxq = s.qCount rxq + 1
          ∧ t.rdBytes slot 16 = wordsToBytes [buf, BitVec.ofNat 32 (l.length + 2 ^ 11), BitVec.ofNat 32 (clkNs stamp), BitVec.ofNat 32 (clkSec stamp)]
          ∧ (∀ x, (x < slot ∨ slot + 16 ≤ x) →
              t.rd8 x = if buf.toNat ≤ x ∧ x < buf.toNat + l.length then l.getD (x - buf.toNat) 0 else s.rd8 x)
          ∧ t.bit ETH_EVT ETH_EVT_RXF = true ∧ t.eth = { s.eth with ms := ms, count := n, pause := pause, okAt := s.now })))
  ∧ (∀ s : State,
    let q := s.fld ETH_QCFG ETH_QCFG_TXQ
    let tcq := s.fld ETH_QCFG ETH_QCFG_TCQ
    let ready := s.bit ETH_APPLIED 0 = true ∧ s.eth.tx = none ∧ s.qCount q ≠ 0 ∧ s.eth.pause ≤ s.now
    let addr := BitVec.ofNat 32 (field (s.qOldest q) 0 4)
    let w1 := BitVec.ofNat 32 (field (s.qOldest q) 4 4)
    let len := w1.toNat % 2 ^ 11
    let fits := 60 ≤ len ∧ len ≤ 1518
    let up := s.fld ETH_STAT ETH_STAT_LINK = 1
    let st := if fits then 2 else 1
    (¬ready → Sys2Proof.Machine.exec .ethTransmit s = .next s)
    ∧ (ready → ¬(fits ∧ up) → q ≠ tcq → ∃ t, Sys2Proof.Machine.exec .ethTransmit s = .next t
      ∧ t.qCount q = s.qCount q - 1 ∧ t.eth = s.eth ∧ t.bit ETH_EVT ETH_EVT_TXC = true ∧ (¬fits → t.bit ETH_EVT ETH_EVT_TXBAD = true)
      ∧ (s.budHas (s.binding 5) resFABRIC 1 = true → s.fld (QUE_QCFG tcq) QUE_QCFG_EN = 1 → s.qCount tcq < s.qDepth tcq →
          t.qCount tcq = s.qCount tcq + 1
          ∧ t.rdBytes (s.qAddr tcq (s.fld (QUE_QHEAD tcq) QUE_QHEAD_INDEX)) 16 = wordsToBytes [addr, (w1 &&& 0xFFF) ||| BitVec.ofNat 32 (2 ^ 12 * st), 0, 0]))
    ∧ (ready → fits → up → ∃ t, Sys2Proof.Machine.exec .ethTransmit s = .next t
      ∧ t.qCount q = s.qCount q - 1 ∧ t.mem = s.mem ∧ t.inflight = s.inflight
      ∧ t.eth = { s.eth with tx := some {
          addr := addr, w1 := w1, bytes := s.rdBytes addr.toNat len
          stamp := clkAdd s.eth.clk ((s.fld ETH_PLAT ETH_PLAT_TXLAT * nsUnit / 10 : Nat) : Int) } }
      ∧ t.meters = (s.budDraw (s.binding 5) resFABRIC ((len + 15) / 16)).meters))
  ∧ (∀ s : State, (s.eth.tx = none → Sys2Proof.Machine.exec .ethTxComplete s = .next s)
    ∧ ∀ x, s.eth.tx = some x →
      let tcq := s.fld ETH_QCFG ETH_QCFG_TCQ
      let stamped := bitOf x.w1 11
      ∃ t, Sys2Proof.Machine.exec .ethTxComplete s = .next t ∧ t.eth = { s.eth with tx := none } ∧ t.bit ETH_EVT ETH_EVT_TXC = true
        ∧ (s.budHas (s.binding 5) resFABRIC 1 = true → s.fld (QUE_QCFG tcq) QUE_QCFG_EN = 1 → s.qCount tcq < s.qDepth tcq →
          t.qCount tcq = s.qCount tcq + 1
          ∧ t.rdBytes (s.qAddr tcq (s.fld (QUE_QHEAD tcq) QUE_QHEAD_INDEX)) 16
              = wordsToBytes [x.addr, x.w1 &&& 0xFFF, (if stamped then BitVec.ofNat 32 (clkNs x.stamp) else 0), (if stamped then BitVec.ofNat 32 (clkSec x.stamp) else 0)])
        ∧ (s.fld (QUE_QCFG tcq) QUE_QCFG_EN = 0 ∨ s.qDepth tcq ≤ s.qCount tcq → t.mem = s.mem
          ∧ t.fld (QUE_QDROP tcq) QUE_QDROP_DROP = min 65535 (s.fld (QUE_QDROP tcq) QUE_QDROP_DROP + 1)))
  ∧ (∀ (w : Word) (s : State), ∃ t, Sys2Proof.Machine.exec (.ethStep w) s = .next t
    ∧ t.eth = { s.eth with clk := (if bitOf w 0
        then clkAdd s.eth.clk (((s.reg ETH_PSTPS).toInt * 1000000000 + (s.reg ETH_PSTPN).toInt) * 2 ^ 32) else s.eth.clk) }
    ∧ s.onlyRegs { t with eth := s.eth } [])
  ∧ (∀ (k : Fin 32) (s : State), (s.fld ETH_PCFG ETH_PCFG_CTRIG ≠ k → Sys2Proof.Machine.exec (.pcapLatch k) s = .next s)
    ∧ (s.fld ETH_PCFG ETH_PCFG_CTRIG = k → ∃ t, Sys2Proof.Machine.exec (.pcapLatch k) s = .next t
      ∧ (t.reg ETH_PCAPL).toNat = s.eth.clk / 2 ^ 32 / 1000000000 % 2 ^ 32 ∧ (t.reg ETH_PCAPN).toNat = s.eth.clk / 2 ^ 32 % 1000000000
      ∧ (t.reg ETH_PCAPH).toNat = s.eth.clk / 2 ^ 32 / 1000000000 / 2 ^ 32 % 2 ^ 32
      ∧ t.bit ETH_EVT ETH_EVT_PCAP = true ∧ s.onlySends t [ETH_PCAPL, ETH_PCAPH, ETH_PCAPN, ETH_EVT] [evtItem ETH_EVT ETH_EVT_PCAP]))
  ∧ (∀ (link : Bool) (speed : Fin 3) (s : State),
    let w := BitVec.ofNat 32 (b2n link + 2 * speed)
    (s.reg ETH_STAT = w → Sys2Proof.Machine.exec (.autoNegotiationWord link speed) s = .next s)
    ∧ (s.reg ETH_STAT ≠ w → ∃ t, Sys2Proof.Machine.exec (.autoNegotiationWord link speed) s = .next t
      ∧ t.reg ETH_STAT = w ∧ t.bit ETH_EVT ETH_EVT_LINK = true ∧ s.onlySends t [ETH_STAT, ETH_EVT] [evtItem ETH_EVT ETH_EVT_LINK]))
  ∧ (∀ s : State,
    let due := s.bit ETH_APPLIED 0 = true ∧ s.fld ETH_RXLIM ETH_RXLIM_TOUT ≠ 0 ∧ s.eth.okAt + 400000 * s.fld ETH_RXLIM ETH_RXLIM_TOUT ≤ s.now
    (¬due → Sys2Proof.Machine.exec .ethStale s = .next s)
    ∧ (due → ∃ t, Sys2Proof.Machine.exec .ethStale s = .next t ∧ t.bit ETH_EVT ETH_EVT_STALE = true ∧ t.eth = { s.eth with okAt := s.now }
      ∧ s.onlySends { t with eth := s.eth } [ETH_EVT] [evtItem ETH_EVT ETH_EVT_STALE, faultItem blkETH 0 0x05 clsC 0]))

/-- R543, R544, R549: a received frame goes, with all its entries and its filter index and stamp, to the queue of the lowest enabled filter that
matches; beyond RXLIM, or without room, it is dropped and counted. A transmit entry that R544 rules out is discarded with TXBAD. Bus-off ends
with AUTOREC or after REC, which is legal in bus-off alone. A filter without a match for TOUT ms is stale. -/
def Obligations.CanFrames : Prop :=
  (∀ (k : Fin 2) (id : BitVec 29) (ide fdf brs rtr : Bool) (dlc : BitVec 4) (data : List Byte) (s : State),
    let x := vat s.can k
    let ms := s.now / 400000
    let n := if x.ms = ms then x.count + 1 else 1
    let lim := s.fld (CAN_CFG k) CAN_CFG_RXLIM
    let hits := fun (j : Nat) => s.fld (CAN_FCFG k j) CAN_FCFG_EN = 1 ∧ (s.fld (CAN_FCFG k j) CAN_FCFG_IDE = 1 ↔ ide = true)
      ∧ (id.setWidth 32 ^^^ s.reg (CAN_FID k j)) &&& s.reg (CAN_FMSK k j) = 0
    let len := if rtr then 0 else if dlc.toNat ≤ 8 then dlc.toNat else if fdf = false then 8
      else [12, 16, 20, 24, 32, 48, 64].getD (dlc.toNat - 9) 0
    let m := if len ≤ 8 then 1 else 1 + (len - 8 + 15) / 16
    let on := s.bit CAN_APPLIED k = true ∧ s.fld (CAN_STAT k) CAN_STAT_STATE ≠ 2
    let drop := fun (t : State) => t.fld (CAN_CNT k) CAN_CNT_DROP = min 65535 (s.fld (CAN_CNT k) CAN_CNT_DROP + 1)
    (¬on → Sys2Proof.Machine.exec (.canReceive k id ide fdf brs rtr dlc data) s = .next s)
    ∧ (on → lim < n → ∃ t, Sys2Proof.Machine.exec (.canReceive k id ide fdf brs rtr dlc data) s = .next t
      ∧ drop t ∧ t.bit CAN_EVT (CAN_EVT_RATE k) = true ∧ vat t.can k = { x with ms := ms, count := n }
      ∧ s.onlySends { t with can := s.can } [CAN_CNT k, CAN_EVT] [evtItem CAN_EVT (CAN_EVT_RATE k)])
    ∧ (on → n ≤ lim → (∀ j : Fin 32, ¬hits j) → ∃ t, Sys2Proof.Machine.exec (.canReceive k id ide fdf brs rtr dlc data) s = .next t
      ∧ vat t.can k = { x with ms := ms, count := n } ∧ t = { s with can := t.can } ∧ ∀ l : Fin 2, l ≠ k → vat t.can l = vat s.can l)
    ∧ (∀ j : Fin 32, on → n ≤ lim → hits j → (∀ i : Fin 32, i < j → ¬hits i) →
      let q := s.fld (CAN_FCFG k j) CAN_FCFG_QUE
      let room := s.fld (QUE_QCFG q) QUE_QCFG_EN = 1 ∧ s.qCount q + m ≤ s.qDepth q
      let paid := s.budHas (s.binding 5) resFABRIC m = true
      let head := s.fld (QUE_QHEAD q) QUE_QHEAD_INDEX
      let body := slice data 0 len
      (¬(room ∧ paid) → ∃ t, Sys2Proof.Machine.exec (.canReceive k id ide fdf brs rtr dlc data) s = .next t
        ∧ drop t ∧ t.mem = s.mem ∧ t.qCount q = s.qCount q ∧ vat (vat t.can k).okAt j = s.now
        ∧ (¬room → s.onlyRegs { t with can := s.can } [CAN_CNT k]))
      ∧ (room → paid → head < s.qDepth q → ∃ t, Sys2Proof.Machine.exec (.canReceive k id ide fdf brs rtr dlc data) s = .next t
        ∧ t.qCount q = s.qCount q + m ∧ t.fld (QUE_QHEAD q) QUE_QHEAD_INDEX = (head + m) % s.qDepth q
        ∧ t.rdBytes (s.qAddr q head) 16 = wordsToBytes [
            BitVec.ofNat 32 (id.toNat + 2 ^ 29 * b2n ide + 2 ^ 30 * b2n fdf + 2 ^ 31 * b2n brs),
            BitVec.ofNat 32 (dlc.toNat + 2 ^ 4 * b2n rtr + 2 ^ 16 * j + 2 ^ 21 * (clkNs s.eth.clk / 2 ^ 10 % 2 ^ 11))] ++ slice body 0 8
        ∧ (∀ i : Fin 4, i.val + 1 < m → t.rdBytes (s.qAddr q ((head + i + 1) % s.qDepth q)) 16 = slice body (8 + 16 * i) 16)
        ∧ vat (vat t.can k).okAt j = s.now ∧ (∀ i : Fin 32, i ≠ j → vat (vat t.can k).okAt i = vat x.okAt i)
        ∧ t.bit CAN_EVT (CAN_EVT_RXF k) = true ∧ t.fld (CAN_CNT k) CAN_CNT_DROP = s.fld (CAN_CNT k) CAN_CNT_DROP)))
  ∧ (∀ (k : Fin 2) (s : State),
    let q := s.fld (CAN_CFG k) CAN_CFG_TXQ
    let w0 := BitVec.ofNat 32 (field (s.qOldest q) 0 4)
    let w1 := BitVec.ofNat 32 (field (s.qOldest q) 4 4)
    let fd := bitOf w0 30
    let rtr := bitOf w1 4
    let dlc := w1.toNat % 16
    let len := if rtr then 0 else if dlc ≤ 8 then dlc else if fd = false then 8 else [12, 16, 20, 24, 32, 48, 64].getD (dlc - 9) 0
    let m := if len ≤ 8 then 1 else 1 + (len - 8 + 15) / 16
    let on := s.bit CAN_APPLIED k = true ∧ s.fld (CAN_STAT k) CAN_STAT_STATE ≠ 2 ∧ s.fld (CAN_CFG k) CAN_CFG_LOM = 0 ∧ m ≤ s.qCount q
    let bad := (bitOf w0 29 = false ∧ 0x7FF < w0.toNat % 2 ^ 29) ∨ (fd = false ∧ 8 < dlc) ∨ (bitOf w0 31 = true ∧ fd = false) ∨ (rtr = true ∧ fd = true)
    (¬on → Sys2Proof.Machine.exec (.canTransmit k) s = .next s)
    ∧ (on → ¬bad → ∃ t, Sys2Proof.Machine.exec (.canTransmit k) s = .next t ∧ t.qCount q = s.qCount q - m
      ∧ t.bit CAN_EVT (CAN_EVT_TXC k) = true ∧ s.onlySends t [QUE_QTAIL q, QUE_QCNT q, CAN_EVT] [evtItem CAN_EVT (CAN_EVT_TXC k)])
    ∧ (on → bad → ∃ t, Sys2Proof.Machine.exec (.canTransmit k) s = .next t ∧ t.qCount q = s.qCount q - m
      ∧ t.fld (CAN_CNT k) CAN_CNT_TXBAD = min 65535 (s.fld (CAN_CNT k) CAN_CNT_TXBAD + 1) ∧ t.bit CAN_EVT (CAN_EVT_TXBAD k) = true
      ∧ s.onlySends t [QUE_QTAIL q, QUE_QCNT q, CAN_CNT k, CAN_EVT] [evtItem CAN_EVT (CAN_EVT_TXBAD k), faultItem blkCAN k 0x11 clsC 0]))
  ∧ (∀ (k : Fin 2) (s : State),
    let on := s.bit CAN_APPLIED k = true ∧ s.fld (CAN_STAT k) CAN_STAT_STATE ≠ 2
    (¬on → Sys2Proof.Machine.exec (.busoff k) s = .next s)
    ∧ (on → ∃ t, Sys2Proof.Machine.exec (.busoff k) s = .next t ∧ t.fld (CAN_STAT k) CAN_STAT_STATE = 2
      ∧ t.fld (CAN_STAT k) CAN_STAT_TEC = s.fld (CAN_STAT k) CAN_STAT_TEC ∧ t.fld (CAN_STAT k) CAN_STAT_REC = s.fld (CAN_STAT k) CAN_STAT_REC
      ∧ t.bit CAN_EVT (CAN_EVT_BOFF k) = true
      ∧ s.onlySends t [CAN_STAT k, CAN_EVT] [evtItem CAN_EVT (CAN_EVT_BOFF k), faultItem blkCAN k 0x10 clsC 0]))
  ∧ (∀ (k : Fin 2) (s : State),
    let ends := s.fld (CAN_STAT k) CAN_STAT_STATE = 2 ∧ (s.fld (CAN_CFG k) CAN_CFG_AUTOREC = 1 ∨ (vat s.can k).rec_ = true)
    (¬ends → Sys2Proof.Machine.exec (.canAutoRecovery k) s = .next s)
    ∧ (ends → ∃ t, Sys2Proof.Machine.exec (.canAutoRecovery k) s = .next t ∧ t.fld (CAN_STAT k) CAN_STAT_STATE = 0
      ∧ vat t.can k = { vat s.can k with rec_ := false } ∧ s.onlyRegs { t with can := s.can } [CAN_STAT k]))
  ∧ (∀ (k : Fin 2) (w : Word) (s : State),
    (bitOf w 0 = false → Sys2Proof.Machine.exec (.canRec k w) s = .next s)
    ∧ (bitOf w 0 = true → s.fld (CAN_STAT k) CAN_STAT_STATE ≠ 2 → ∃ t, Sys2Proof.Machine.exec (.canRec k w) s = .next t ∧ s.writeRefused t (CAN_CMD k))
    ∧ (bitOf w 0 = true → s.fld (CAN_STAT k) CAN_STAT_STATE = 2 → ∃ t, Sys2Proof.Machine.exec (.canRec k w) s = .next t
      ∧ vat t.can k = { vat s.can k with rec_ := true } ∧ (∀ l : Fin 2, l ≠ k → vat t.can l = vat s.can l) ∧ s.onlyRegs { t with can := s.can } []))
  ∧ (∀ (k : Fin 2) (j : Fin 32) (s : State),
    let tout := s.fld (CAN_FCFG k j) CAN_FCFG_TOUT
    let due := s.bit CAN_APPLIED k = true ∧ s.fld (CAN_FCFG k j) CAN_FCFG_EN = 1 ∧ tout ≠ 0 ∧ vat (vat s.can k).okAt j + 400000 * tout ≤ s.now
    (¬due → Sys2Proof.Machine.exec (.filterStale k j) s = .next s)
    ∧ (due → ∃ t, Sys2Proof.Machine.exec (.filterStale k j) s = .next t
      ∧ vat (vat t.can k).okAt j = s.now ∧ (∀ i : Fin 32, i ≠ j → vat (vat t.can k).okAt i = vat (vat s.can k).okAt i)
      ∧ t.bit CAN_EVT (CAN_EVT_STALE k) = true
      ∧ s.onlySends { t with can := s.can } [CAN_EVT] [evtItem CAN_EVT (CAN_EVT_STALE k), faultItem blkCAN k 0x05 clsC j]))

/-- R308, R545 to R547: nothing happens while the port is off. A transaction that came in wrong ends with CRC, LEN or FRAME and no effect; one outside
its window, without the right, on a queue whose bit is 0, or of the wrong state of the boot ROM, with ACCESS. Otherwise READ hands out the words
of its window, WRITE stores them, QPUT and QGET work the queue, and in RECOVERY RLOAD fills SRAM and RCOMMIT adopts an image that passes
R308 and resets the unit. -/
def Obligations.SpiTransactions : Prop :=
  (∀ (w : Fin 4) (off : BitVec 22) (len : BitVec 4) (data : List Word) (q : BitVec 5) (typ : Word) (form : SpiForm) (e : Ecc) (s : State),
    let on := s.bit SPI_APPLIED 0 = true ∨ s.boot.recovery = true
    let code := match form with | .good => 0 | .badCrc => 1 | .badLen => 3 | .badFrame => 8
    (¬on → Sys2Proof.Machine.exec (.spiRead w off len form e) s = .next s ∧ Sys2Proof.Machine.exec (.spiWrite w off data form e) s = .next s
      ∧ Sys2Proof.Machine.exec (.spiQput q data form) s = .next s ∧ Sys2Proof.Machine.exec (.spiQget q len form) s = .next s
      ∧ Sys2Proof.Machine.exec (.spiNop form) s = .next s ∧ Sys2Proof.Machine.exec (.rload off data form) s = .next s
      ∧ Sys2Proof.Machine.exec (.rcommit typ form) s = .next s)
    ∧ (on → code ≠ 0 → ∃ t, Sys2Proof.Machine.exec (.spiRead w off len form e) s = .next t
      ∧ Sys2Proof.Machine.exec (.spiWrite w off data form e) s = .next t
      ∧ Sys2Proof.Machine.exec (.spiQput q data form) s = .next t ∧ Sys2Proof.Machine.exec (.spiQget q len form) s = .next t
      ∧ Sys2Proof.Machine.exec (.spiNop form) s = .next t ∧ Sys2Proof.Machine.exec (.rload off data form) s = .next t
      ∧ Sys2Proof.Machine.exec (.rcommit typ form) s = .next t ∧ s.spiRefused t code)
    ∧ (on → ∃ t, Sys2Proof.Machine.exec (.spiNop .good) s = .next t ∧ s.spiRefused t 0)
    ∧ (on → ∃ t, Sys2Proof.Machine.exec .spiTout s = .next t ∧ s.spiRefused t 4) ∧ (¬on → Sys2Proof.Machine.exec .spiTout s = .next s))
  ∧ (∀ (w : Fin 4) (off : BitVec 22) (len : BitVec 4) (s : State), (s.bit SPI_APPLIED 0 = true ∨ s.boot.recovery = true) →
    let n := len.toNat + 1
    let a := s.fld (SPI_WIN w) SPI_WIN_BASE * 1024 + 4 * off.toNat
    let inside := 4 * (off.toNat + n) ≤ 2 ^ (10 + s.fld (SPI_WIN w) SPI_WIN_LOG2)
    let may := inside ∧ s.boot.recovery = false ∧ s.fld (SPI_WIN w) SPI_WIN_RD = 1
    let sram := 0x20000000 ≤ a ∧ a + 4 * n ≤ 0x20800000
    (¬may → ∀ e, ∃ t, Sys2Proof.Machine.exec (.spiRead w off len .good e) s = .next t ∧ s.spiRefused t 2)
    ∧ (may → sram → s.flt.armed = none → ∃ t, Sys2Proof.Machine.exec (.spiRead w off len .good .clean) s = .next t
      ∧ t.spi.out = (List.range n).map (fun i => s.rd32 (a + 4 * i)) ∧ s.spiEnded t 0 ∧ t.meters = (s.budDraw (s.binding 5) resFABRIC n).meters
      ∧ t = { s with regs := t.regs, inflight := t.inflight, spi := t.spi, meters := t.meters }
      ∧ ∀ k, k ∉ [SPI_STAT, SPI_CNT, SPI_EVT] → t.reg k = s.reg k)
    ∧ (may → regionOf a = .none → ∀ e, ∃ t, Sys2Proof.Machine.exec (.spiRead w off len .good e) s = .next t
      ∧ s.spiEnded t 5 ∧ faultItem blkFABRIC 0 0x07 clsC a ∈ t.inflight ∧ t.spi = s.spi ∧ t.mem = s.mem))
  ∧ (∀ (w : Fin 4) (off : BitVec 22) (data : List Word) (s : State), (s.bit SPI_APPLIED 0 = true ∨ s.boot.recovery = true) →
    let n := data.length
    let a := s.fld (SPI_WIN w) SPI_WIN_BASE * 1024 + 4 * off.toNat
    let inside := 4 * (off.toNat + n) ≤ 2 ^ (10 + s.fld (SPI_WIN w) SPI_WIN_LOG2)
    let may := inside ∧ s.boot.recovery = false ∧ s.fld (SPI_WIN w) SPI_WIN_WR = 1
    let sram := 0x20000000 ≤ a ∧ a + 4 * n ≤ 0x20800000
    (¬may → ∀ e, ∃ t, Sys2Proof.Machine.exec (.spiWrite w off data .good e) s = .next t ∧ s.spiRefused t 2)
    ∧ (may → sram → data ≠ [] → s.fld CAL_CTRL CAL_CTRL_EN = 0 → s.flt.armed = none → ∃ t, Sys2Proof.Machine.exec (.spiWrite w off data .good .clean) s = .next t
      ∧ (∀ i, i < n → t.rd32 (a + 4 * i) = data.getD i 0) ∧ (∀ x, (x < a ∨ a + 4 * n ≤ x) → t.rd8 x = s.rd8 x)
      ∧ s.spiEnded t 0 ∧ t.meters = (s.budDraw (s.binding 5) resFABRIC n).meters
      ∧ t = { s with regs := t.regs, inflight := t.inflight, mem := t.mem, meters := t.meters }
      ∧ ∀ k, k ∉ [SPI_STAT, SPI_CNT, SPI_EVT] → t.reg k = s.reg k)
    ∧ (may → data ≠ [] → regionOf a = .none → ∀ e, ∃ t, Sys2Proof.Machine.exec (.spiWrite w off data .good e) s = .next t
      ∧ s.spiEnded t 5 ∧ faultItem blkFABRIC 0 0x07 clsC a ∈ t.inflight ∧ t.spi = s.spi ∧ t.mem = s.mem))
  ∧ (∀ (q : BitVec 5) (data : List Word) (s : State), (s.bit SPI_APPLIED 0 = true ∨ s.boot.recovery = true) →
    let open' := s.boot.recovery = false ∧ s.bit SPI_QEN q.toNat = true
    (data.length ≠ 4 → ∃ t, Sys2Proof.Machine.exec (.spiQput q data .good) s = .next t ∧ s.spiRefused t 3)
    ∧ (data.length = 4 → ¬open' → ∃ t, Sys2Proof.Machine.exec (.spiQput q data .good) s = .next t ∧ s.spiRefused t 2)
    ∧ (data.length = 4 → open' → s.budHas (s.binding 5) resFABRIC 1 = true → ∃ t, Sys2Proof.Machine.exec (.spiQput q data .good) s = .next t
      ∧ (∃ res, s.queued t q.toNat (wordsToBytes data) res ∧ s.spiEnded t (if res = 0 then 0 else 6)))
    ∧ (data.length = 4 → open' → s.budHas (s.binding 5) resFABRIC 1 = false → ∃ t, Sys2Proof.Machine.exec (.spiQput q data .good) s = .next t
      ∧ s.spiEnded t 6 ∧ t.mem = s.mem ∧ t.qCount q.toNat = s.qCount q.toNat
      ∧ t.fld (QUE_QDROP q.toNat) QUE_QDROP_DROP = min 65535 (s.fld (QUE_QDROP q.toNat) QUE_QDROP_DROP + 1)))
  ∧ (∀ (q : BitVec 5) (len : BitVec 4) (s : State), (s.bit SPI_APPLIED 0 = true ∨ s.boot.recovery = true) →
    let open' := s.boot.recovery = false ∧ s.bit SPI_QEN q.toNat = true
    let a := s.qAddr q.toNat (s.fld (QUE_QTAIL q.toNat) QUE_QTAIL_INDEX)
    (len ≠ 3 → ∃ t, Sys2Proof.Machine.exec (.spiQget q len .good) s = .next t ∧ s.spiRefused t 3)
    ∧ (len = 3 → ¬open' → ∃ t, Sys2Proof.Machine.exec (.spiQget q len .good) s = .next t ∧ s.spiRefused t 2)
    ∧ (len = 3 → open' → s.qCount q.toNat = 0 → ∃ t, Sys2Proof.Machine.exec (.spiQget q len .good) s = .next t ∧ s.spiRefused t 7)
    ∧ (len = 3 → open' → s.qCount q.toNat ≠ 0 → ∃ t, Sys2Proof.Machine.exec (.spiQget q len .good) s = .next t
      ∧ t.spi.out = (List.range 4).map (fun i => s.rd32 (a + 4 * i)) ∧ t.qCount q.toNat = s.qCount q.toNat - 1
      ∧ t.fld (QUE_QTAIL q.toNat) QUE_QTAIL_INDEX = (s.fld (QUE_QTAIL q.toNat) QUE_QTAIL_INDEX + 1) % s.qDepth q.toNat
      ∧ s.spiEnded t 0 ∧ t.mem = s.mem))
  ∧ (∀ (off : BitVec 22) (data : List Word) (s : State), (s.bit SPI_APPLIED 0 = true ∨ s.boot.recovery = true) →
    let a := 0x20000000 + 4 * off.toNat
    let may := s.boot.recovery = true ∧ 4 * (off.toNat + data.length) ≤ 0x800000
    (¬may → ∃ t, Sys2Proof.Machine.exec (.rload off data .good) s = .next t ∧ s.spiRefused t 2)
    ∧ (may → ∃ t, Sys2Proof.Machine.exec (.rload off data .good) s = .next t
      ∧ (∀ i, i < data.length → t.rd32 (a + 4 * i) = data.getD i 0) ∧ (∀ x, (x < a ∨ a + 4 * data.length ≤ x) → t.rd8 x = s.rd8 x)
      ∧ s.spiEnded t 0 ∧ t = { s with regs := t.regs, inflight := t.inflight, mem := t.mem }))
  ∧ (∀ (typ : Word) (s : State), (s.bit SPI_APPLIED 0 = true ∨ s.boot.recovery = true) →
    let cal := typ == 2
    let may := s.boot.recovery = true ∧ (typ = 1 ∨ typ = 2)
    let passes := s.imageOk 0x20000000 (slotSize cal) cal = true
    let len := 256 + s.imgLen 0x20000000
    (¬may → ∃ t, Sys2Proof.Machine.exec (.rcommit typ .good) s = .next t ∧ s.spiRefused t 2)
    ∧ (may → ¬passes → ∃ t, Sys2Proof.Machine.exec (.rcommit typ .good) s = .next t
      ∧ s.spiRefused t (if len ≤ slotSize cal ∧ s.digestOk 0x20000000 = false then 1 else 2))
    ∧ (may → passes → s.ctlRec.seq + 1 < 2 ^ 32 → ∃ t, Sys2Proof.Machine.exec (.rcommit typ .good) s = .next t ∧ s.spiEnded t 0 ∧ t.sys.ask.isSome = true
      ∧ t.rdBytes (slotBase cal 0) len = s.rdBytes 0x20000000 len
      ∧ (let c := t.ctlRec
        c.seq = s.ctlRec.seq + 1 ∧ (cal = false → c.active = 0 ∧ c.try_ = 0 ∧ c.cactive = s.ctlRec.cactive)
        ∧ (cal = true → c.cactive = 0 ∧ c.ctry = 0 ∧ c.active = s.ctlRec.active))
      ∧ ∀ x, (x < slotBase cal 0 ∨ slotBase cal 0 + len ≤ x) → (x < ctlPage s.ctlOld ∨ ctlPage s.ctlOld + 32 ≤ x) → t.rd8 x = s.rd8 x))

/-- R553 to R564, R566: the collector decides the oldest message of a crossing completely. A message from a block in shadow is tagged secondary,
counted and recorded, and does nothing else; so is a recognised test injection, untagged. Any other is decided by the enabled entry of lowest
number that matches it, or by its class's default.
R558, R559, R561, R563, R565, R569, R570: shadows whose pulses have run out end. A write of 1 clears a pending U; ARM and LOCK are set and
never cleared by a write; FLT_N follows. FLT_CLR clears the counts but that of F. A test injection is armed only inside its target, disarmed by
ARM = 0, and ends with TIMEOUT. -/
def Obligations.FaultDecisions : Prop :=
  (
    ∀ (src : Island) (s : State),
      ((∀ m, s.nextItem src .guard ≠ some (.fault m)) → Sys2Proof.Machine.exec (.faultDecision src) s = .next s)
      ∧ ∀ m, s.nextItem src .guard = some (.fault m) →
        let blk := m.toNat / 2 ^ 58
        let unit := m.toNat / 2 ^ 54 % 16
        let kind := m.toNat / 2 ^ 46 % 256
        let cls := m.toNat / 2 ^ 44 % 4
        let u : State := { s with inflight := dropFirstItem src .guard s.inflight }
        let hits := fun (x : Nat) => s.fld (FLT_RM x) FLT_RM_EN = 1 ∧ (s.fld (FLT_RM x) FLT_RM_BANY = 1 ∨ s.fld (FLT_RM x) FLT_RM_BLOCK = blk)
          ∧ (s.fld (FLT_RM x) FLT_RM_UANY = 1 ∨ s.fld (FLT_RM x) FLT_RM_UNIT = unit) ∧ (s.fld (FLT_RM x) FLT_RM_KANY = 1 ∨ s.fld (FLT_RM x) FLT_RM_KIND = kind)
        (s.bit FLT_SHAD blk = true → ∃ t, Sys2Proof.Machine.exec (.faultDecision src) s = .next t
          ∧ u.onlyRecorded t (m ||| 0x40000000000) FLT_CNT1_SEC FLT_EVT_SEC)
        ∧ (s.bit FLT_SHAD blk = false → m.toNat.testBit 43 = true → ∃ t, Sys2Proof.Machine.exec (.faultDecision src) s = .next t
          ∧ u.onlyRecorded t (m &&& ~~~0x40000000000) FLT_CNT1_INJ FLT_EVT_INJOK)
        ∧ (s.bit FLT_SHAD blk = false → m.toNat.testBit 43 = false →
          (∀ x : Fin 64, hits x → (∀ y : Fin 64, y < x → ¬hits y) → ∃ t, Sys2Proof.Machine.exec (.faultDecision src) s = .next t
            ∧ u.decidedAs t m {
                safe := s.fld (FLT_RA x) FLT_RA_SAFE, action := s.fld (FLT_RA x) FLT_RA_ACTION, log := s.fld (FLT_RA x) FLT_RA_LOG == 1
                promo := s.fld (FLT_RA x) FLT_RA_PROMO, shadow := s.fld (FLT_RA x) FLT_RA_SHADOW, dep := s.fld (FLT_RD x) FLT_RD_DEP })
          ∧ ((∀ x : Fin 64, ¬hits x) → ∃ t, Sys2Proof.Machine.exec (.faultDecision src) s = .next t
            ∧ u.decidedAs t m { safe := if cls = 3 then 3 else 0, action := 0, log := cls != 1 || s.fld FLT_CTRL FLT_CTRL_LOGC == 1 })))
  ∧ (
    (∀ s : State, ∃ t, Sys2Proof.Machine.exec .shadowEnd s = .next t
      ∧ t.flt = { s.flt with shadows := s.flt.shadows.filter fun x => x.2 != 0 }
      ∧ (∀ b, b < 32 → t.bit FLT_SHAD b = t.flt.shadows.any fun x => x.1.testBit b) ∧ s.onlyRegs { t with flt := s.flt } [FLT_SHAD])
    ∧ (∀ (w : Word) (s : State), s.fld FLT_UPEND ⟨28, 4⟩ = 0 → ∃ t, Sys2Proof.Machine.exec (.fltUpendClear w) s = .next t
      ∧ t.reg FLT_UPEND = s.reg FLT_UPEND &&& ~~~w
      ∧ t.fld FLT_STAT FLT_STAT_LOW = (if s.fld FLT_CTRL FLT_CTRL_ARM = 0 ∨ t.reg FLT_UPEND ≠ 0 ∨ s.reg FLT_FLAT ≠ 0 then 1 else 0)
      ∧ s.onlyRegs t [FLT_UPEND, FLT_STAT])
    ∧ (∀ (logc : Bool) (s : State),
      let low := if s.reg FLT_UPEND ≠ 0 ∨ s.reg FLT_FLAT ≠ 0 then 1 else 0
      (∃ t, Sys2Proof.Machine.exec (.fltArm logc) s = .next t ∧ t.fld FLT_CTRL FLT_CTRL_ARM = 1 ∧ t.fld FLT_CTRL FLT_CTRL_LOGC = b2n logc
        ∧ t.fld FLT_CTRL FLT_CTRL_LOCK = s.fld FLT_CTRL FLT_CTRL_LOCK ∧ t.fld FLT_STAT FLT_STAT_LOW = low ∧ s.onlyRegs t [FLT_CTRL, FLT_STAT])
      ∧ (∃ t, Sys2Proof.Machine.exec (.fltLock logc) s = .next t ∧ t.fld FLT_CTRL FLT_CTRL_LOCK = 1 ∧ t.fld FLT_CTRL FLT_CTRL_LOGC = b2n logc
        ∧ t.fld FLT_CTRL FLT_CTRL_ARM = s.fld FLT_CTRL FLT_CTRL_ARM
        ∧ t.fld FLT_STAT FLT_STAT_LOW = (if s.fld FLT_CTRL FLT_CTRL_ARM = 0 then 1 else low) ∧ s.onlyRegs t [FLT_CTRL, FLT_STAT]))
    ∧ (∀ s : State, ∃ t, Sys2Proof.Machine.exec .fltClrCnt s = .next t ∧ t.reg FLT_CNT0 = 0 ∧ t.fld FLT_CNT1 FLT_CNT1_SEC = 0
      ∧ t.fld FLT_CNT1 FLT_CNT1_INJ = 0 ∧ t.fld FLT_CNT1 FLT_CNT1_F = s.fld FLT_CNT1 FLT_CNT1_F ∧ s.onlyRegs t [FLT_CNT0, FLT_CNT1])
    ∧ (∀ (target : BitVec 4) (tout : BitVec 16) (s : State),
      let a := (s.reg FLT_INJA).toNat
      let g := target.toNat
      let legal := s.flt.armed = none ∧ tout ≠ 0 ∧ (
        (g = 1 ∧ 0x20000000 ≤ a ∧ a < 0x20800000 ∧ a % 8 = 0) ∨ (g = 2 ∧ 0x10000000 ≤ a ∧ a < 0x10600000 ∧ a % 8 = 0)
        ∨ (g = 3 ∧ 0x30000000 ≤ a ∧ a < 0x30040000 ∧ a % 4 = 0) ∨ (g = 4 ∧ 0x30040000 ≤ a ∧ a < 0x30050000 ∧ a % 4 = 0)
        ∨ (g = 5 ∧ 0x30100000 ≤ a ∧ a < 0x30140000 ∧ a % 4 = 0) ∨ (g = 6 ∧ 0x30140000 ≤ a ∧ a < 0x30150000 ∧ a % 4 = 0)
        ∨ (7 ≤ g ∧ g ≤ 10 ∧ 0xF0000000 ≤ a ∧ a < 0xF0010000 ∧ a % 4 = 0) ∨ (11 ≤ g ∧ g ≤ 14 ∧ 0xF0010000 ≤ a ∧ a < 0xF0020000 ∧ a % 4 = 0))
      (legal → ∃ t, Sys2Proof.Machine.exec (.fltInjArm target tout) s = .next t ∧ t.flt = { s.flt with armed := some (g, a, s.now + tout.toNat * 400000) }
        ∧ t.fld FLT_INJ FLT_INJ_TARGET = g ∧ t.fld FLT_INJ FLT_INJ_TOUT = tout.toNat ∧ t.fld FLT_INJ FLT_INJ_ARM = 1
        ∧ t.fld FLT_STAT FLT_STAT_INJARM = 1 ∧ s.onlyRegs { t with flt := s.flt } [FLT_INJ, FLT_STAT])
      ∧ (¬legal → ∃ t, Sys2Proof.Machine.exec (.fltInjArm target tout) s = .next t ∧ s.writeRefused t FLT_INJ)
      ∧ (g ≤ 14 ∧ tout ≠ 0 → ∃ t, Sys2Proof.Machine.exec (.fltInjDisarm target tout) s = .next t ∧ t.flt = { s.flt with armed := none }
        ∧ t.fld FLT_INJ FLT_INJ_TARGET = g ∧ t.fld FLT_INJ FLT_INJ_TOUT = tout.toNat ∧ t.fld FLT_INJ FLT_INJ_ARM = 0
        ∧ t.fld FLT_STAT FLT_STAT_INJARM = 0 ∧ s.onlyRegs { t with flt := s.flt } [FLT_INJ, FLT_STAT])
      ∧ (¬(g ≤ 14 ∧ tout ≠ 0) → ∃ t, Sys2Proof.Machine.exec (.fltInjDisarm target tout) s = .next t ∧ s.writeRefused t FLT_INJ))
    ∧ (∀ s : State, (s.flt.armed = none → Sys2Proof.Machine.exec .injto s = .next s)
      ∧ ∀ x, s.flt.armed = some x → (s.now < x.2.2 → Sys2Proof.Machine.exec .injto s = .next s)
        ∧ (x.2.2 ≤ s.now → ∃ t, Sys2Proof.Machine.exec .injto s = .next t ∧ t.flt = { s.flt with armed := none }
          ∧ t.fld FLT_INJ FLT_INJ_ARM = 0 ∧ t.fld FLT_STAT FLT_STAT_INJARM = 0 ∧ t.fld FLT_INJS FLT_INJS_RESULT = 3 ∧ t.bit FLT_EVT FLT_EVT_INJTO = true
          ∧ s.onlySends { t with flt := s.flt } [FLT_INJ, FLT_STAT, FLT_INJS, FLT_EVT] [evtItem FLT_EVT FLT_EVT_INJTO])))

/-- R571 to R573, R575, R579, R580, R584: an entry reaches the input queue behind every earlier one, with the time, angle and sync state of that
moment; a FAULT entry keeps those of its decision. A USER entry is queued, dropped or refused by a closed Locket as LKT_URES says. Where it may
start one, Locket starts its own oldest record, else the oldest entry: 32 bytes of a ring record laid out by R571 under the next SEQ, charged to the
account of binding 6, or a whole record of the pinned area; a queue empty again after drops makes a LOST record due. -/
def Obligations.LocketEntries : Prop :=
  (∀ s : State, (s.lkt.coming = [] → Sys2Proof.Machine.exec .locketEntry s = .next s)
    ∧ (s.lkt.coming ≠ [] →
      let r := s.lkt.coming.headD {}
      let u : State := { s with lkt := { s.lkt with coming := s.lkt.coming.tail } }
      ∃ t, Sys2Proof.Machine.exec .locketEntry s = .next t
        ∧ u.entryPut t (if r.typ = rtFAULT then r else { s.lktStamp r.typ r.pin r.payload with early := r.early })
        ∧ s.onlyRegs { t with lkt := s.lkt } (LKT_CNT :: lktShown)))
  ∧ (∀ (w : Word) (s : State),
    let r := s.lktStamp rtUSER (bitOf w 1) (wordsToBytes ((List.range 8).map fun i => s.reg (LKT_UPUT i)))
    (bitOf w 0 = false → bitOf w 1 = true → ∃ t, Sys2Proof.Machine.exec (.userPut w) s = .next t ∧ s.writeRefused t LKT_UCMD)
    ∧ (bitOf w 0 = false → bitOf w 1 = false → ∃ t, Sys2Proof.Machine.exec (.userPut w) s = .next t ∧ s.onlyRegs t [LKT_UCMD])
    ∧ (bitOf w 0 = true → ∃ t, Sys2Proof.Machine.exec (.userPut w) s = .next t ∧ s.entryPut t r
      ∧ t.fld LKT_URES LKT_URES_RESULT = (if s.fld LKT_STAT LKT_STAT_CLOSED = 1 then 2 else if 256 ≤ s.lkt.queue.length then 1 else 0)
      ∧ s.onlyRegs { t with lkt := s.lkt } (LKT_UCMD :: LKT_URES :: LKT_CNT :: lktShown)))
  ∧ (∀ s : State,
    let l := s.lkt
    let ready := s.fld LKT_STAT LKT_STAT_SCAN = 0 ∧ s.fld LKT_STAT LKT_STAT_CLOSED ≠ 1 ∧ l.signs = [] ∧ l.clear = none ∧ l.writing = none
      ∧ l.frame ≠ some (vat s.frameNo (islandCode .guard))
    let r := if l.own = [] then l.queue.headD {} else l.own.headD {}
    let early := l.own = [] ∧ r.typ = rtENROL ∧ ∃ x, l.ring.blk = some x ∧ 1 < x.1
    let lost := l.own = [] ∧ l.queue.length = 1 ∧ l.drops ≠ 0
    let own' := if lost
      then [s.lktStamp rtLOST false (toBytes 4 l.drops ++ toBytes 6 l.dropAt.1 ++ toBytes 4 l.dropAt.2)] else l.own.tail
    let queue' := if l.own = [] then l.queue.tail else l.queue
    (¬ready ∨ (l.own = [] ∧ l.queue = []) → Sys2Proof.Machine.exec .locketRecordWrite s = .next s)
    ∧ (ready → l.queue ≠ [] → early → ∃ t, Sys2Proof.Machine.exec .locketRecordWrite s = .next t
      ∧ t.lkt = { s.lkt with signs := s.sealAsked [] false true } ∧ s.onlyRegs { t with lkt := s.lkt } lktShown)
    ∧ (ready → (l.own ≠ [] ∨ l.queue ≠ []) → ¬early → r.area = false →
      let key := 0x103C0000 + 64 * l.ring.slot
      ∃ t, Sys2Proof.Machine.exec .locketRecordWrite s = .next t
        ∧ t.lkt = { l with own := own', queue := queue', drops := if lost then 0 else l.drops, writing := t.lkt.writing
                           frame := some (vat s.frameNo (islandCode .guard)) }
        ∧ (∃ x, t.lkt.writing = some x ∧ x.1 = r ∧ s.flagsDue r (field x.2 7 1) ∧ laidOut x.2 r l.ring.seq (field x.2 7 1)
          ∧ ∀ a, t.rd8 a = if key ≤ a ∧ a < key + 32 then x.2.getD (a - key) 0 else s.rd8 a)
        ∧ t.meters = (s.budDraw (s.binding 6) resMRAM 2).meters
        ∧ s.onlyRegs { t with lkt := s.lkt, mem := s.mem, meters := s.meters } lktShown)
    ∧ (ready → (l.own ≠ [] ∨ l.queue ≠ []) → ¬early → r.area = true →
      let key := 0x105C0000 + 64 * l.pinned.slot
      ∃ t, Sys2Proof.Machine.exec .locketRecordWrite s = .next t
        ∧ t.lkt = { l with own := own', queue := queue', drops := if lost then 0 else l.drops, pinned := t.lkt.pinned
                           frame := some (vat s.frameNo (islandCode .guard)) }
        ∧ t.lkt.pinned.slot = l.pinned.slot + 1 ∧ t.lkt.pinned.seq = l.pinned.seq + 1
        ∧ (let b := t.rdBytes key 64
           s.flagsDue r (field b 7 1) ∧ laidOut b r l.pinned.seq (field b 7 1)
           ∧ blockMoved l.pinned.blk t.lkt.pinned.blk l.pinned.prev t.lkt.pinned.prev r.typ b)
        ∧ (∀ a, a < key ∨ key + 64 ≤ a → t.rd8 a = s.rd8 a)
        ∧ t.meters = (s.budDraw (s.binding 6) resMRAM 2).meters
        ∧ (r.typ = rtSEALS → t.bit LKT_EVT LKT_EVT_SEALED = true)
        ∧ s.onlySends { t with lkt := s.lkt, mem := s.mem, meters := s.meters } (LKT_EVT :: lktShown)
            (if r.typ = rtSEALS then [evtItem LKT_EVT LKT_EVT_SEALED] else [])))

/-- R574 to R577, R580, R584 to R586: when the second line of a ring record verifies, its bytes stand in its slot, the ring's next slot and SEQ step on,
LKT_HEADL and LKT_HEADH name it, and its block takes it into the chain hash. A pinned record is copied byte for byte into the next pinned slot, after a
LINK where no pinned block is open; without room the copy is counted as lost. A block with its LINK and 61 others asks for its seal. A LOST
record sends RECLOST, a SEALS record sets SEALED.
R583, R590, R592, R600: the scan ends once, with calendar time restored from the head record, TSRC 0, a new LINK as the newest ring record and no
block of the pinned area left open. The erases of a clear spare the slots of its LINK and its CLEAR record and the one after the head, which takes CLRDONE;
the pinned area, where it is in SCOPE, holds a LINK and the copy alone. -/
def Obligations.LocketRecords : Prop :=
  (
    ∀ s : State, (s.lkt.writing = none → Sys2Proof.Machine.exec .locketRecordDone s = .next s)
      ∧ ∀ x, s.lkt.writing = some x →
        let l := s.lkt
        let r := x.1
        let b := x.2
        let key := 0x103C0000 + 64 * l.ring.slot
        let fl := field b 7 1
        let pin := fl % 2 = 1
        let nopin := fl % 2 = 0 ∧ fl / 2 % 2 = 1
        let p := l.pinned
        let link := ({ s.lktStamp rtLINK false p.prev with area := true } : LktRec).bytes p.seq 0
        let k := if p.blk = none then 1 else 0
        let lk := 0x105C0000 + 64 * p.slot
        let ck := lk + 64 * k
        let n := fun (blk : Option (Nat × List Byte)) => (blk.map Prod.fst).getD 0
        ∃ t, Sys2Proof.Machine.exec .locketRecordDone s = .next t
          ∧ t.lkt = { l with writing := none, ring := t.lkt.ring, pinned := t.lkt.pinned, oldest := t.lkt.oldest, signs := t.lkt.signs
                             copyAt := if pin then some s.now else l.copyAt }
          ∧ t.lkt.ring.slot = (l.ring.slot + 1) % 32768 ∧ t.lkt.ring.seq = l.ring.seq + 1
          ∧ blockMoved l.ring.blk t.lkt.ring.blk l.ring.prev t.lkt.ring.prev r.typ b
          ∧ (¬pin → t.lkt.pinned = p ∧ ∀ a, t.rd8 a = if key ≤ a ∧ a < key + b.length then b.getD (a - key) 0 else s.rd8 a)
          ∧ (pin → t.lkt.pinned.slot = p.slot + k + 1 ∧ t.lkt.pinned.seq = p.seq + k
            ∧ (r.typ ≠ rtLINK → r.typ ≠ rtSEALR → r.typ ≠ rtSEALS → t.lkt.pinned.blk = some (match p.blk with
                | some y => (y.1 + 1, Config.sha256 (y.2 ++ b)) | none => (2, Config.sha256 (Config.sha256 link ++ b))))
            ∧ ∀ a, t.rd8 a = if ck ≤ a ∧ a < ck + b.length then b.getD (a - ck) 0 else if k = 1 ∧ lk ≤ a ∧ a < lk + 64 then link.getD (a - lk) 0
                else if key ≤ a ∧ a < key + b.length then b.getD (a - key) 0 else s.rd8 a)
          ∧ (nopin → t.fld LKT_CNT LKT_CNT_PDROP = min 255 (s.fld LKT_CNT LKT_CNT_PDROP + 1) ∧ t.fld LKT_STAT LKT_STAT_PFULL = 1
            ∧ t.bit LKT_EVT LKT_EVT_PFULL = true)
          ∧ (let signs := if pin ∧ 62 ≤ n t.lkt.pinned.blk then s.sealAsked l.signs true false else l.signs
             t.lkt.signs = if 62 ≤ n t.lkt.ring.blk ∧ r.typ ≠ rtLINK then s.sealAsked signs false false else signs)
          ∧ t.lkt.oldest ≠ none ∧ (t.lkt.oldest = some (l.ring.slot, l.ring.seq) ∨ l.oldest ≠ none)
          ∧ t.reg LKT_HEADL = BitVec.ofNat 32 l.ring.seq ∧ t.reg LKT_HEADH = BitVec.ofNat 32 (l.ring.seq / 2 ^ 32 + 2 ^ 16 * (l.ring.slot % 32768))
          ∧ s.onlySends { t with lkt := s.lkt, mem := s.mem } (LKT_CNT :: LKT_EVT :: lktShown)
              ((if nopin then [evtItem LKT_EVT LKT_EVT_PFULL] else [])
                ++ if r.typ = rtLOST then [evtItem LKT_EVT LKT_EVT_LOST, faultItem blkLKT 0 0x10 clsC (field r.payload 0 2)]
                   else if r.typ = rtSEALS then [evtItem LKT_EVT LKT_EVT_SEALED] else []))
  ∧ (
    (∀ s : State, (s.fld LKT_STAT LKT_STAT_SCAN = 0 → Sys2Proof.Machine.exec .locketScanDone s = .next s)
      ∧ (s.fld LKT_STAT LKT_STAT_SCAN = 1 → s.lkt.ring.slot < 32768 → ∃ t, Sys2Proof.Machine.exec .locketScanDone s = .next t
        ∧ t.fld LKT_STAT LKT_STAT_SCAN = 0 ∧ t.fld LKT_TSECH LKT_TSECH_TSRC = 0 ∧ t.lkt.signs = [] ∧ t.lkt.own = [] ∧ t.lkt.queue = s.lkt.queue
        ∧ t.lkt.pinned.blk = none
        ∧ (∃ x, t.lkt.ring.blk = some x ∧ x.1 = 1 ∧ x.2 = Config.sha256 (t.rdBytes (0x103C0000 + 64 * ((t.lkt.ring.slot + 32767) % 32768)) 64))
        ∧ field (t.rdBytes (0x103C0000 + 64 * ((t.lkt.ring.slot + 32767) % 32768)) 64) 6 1 = 8
        ∧ ((∀ i, i < 32768 → s.rd8 (0x103C0006 + 64 * i) = 0) → t.lkt.cal = 0)))
    ∧ (∀ s : State, (s.lkt.clear = none → Sys2Proof.Machine.exec .clrdone s = .next s)
      ∧ ∀ x, s.lkt.clear = some x →
        let b := x.2.2.2
        let scope := field b 28 1
        ∃ t, Sys2Proof.Machine.exec .clrdone s = .next t
          ∧ t.lkt.clear = none ∧ t.fld LKT_STAT LKT_STAT_CLRBUSY = 0 ∧ t.bit LKT_EVT LKT_EVT_CLRDONE = true
          ∧ t.lkt.ring.slot = (s.lkt.ring.slot + 1) % 32768 ∧ t.lkt.ring.seq = s.lkt.ring.seq + 1
          ∧ laidOut (t.rdBytes (0x103C0000 + 64 * s.lkt.ring.slot) 64) (s.lktStamp rtCLRDONE false (toBytes 1 scope)) s.lkt.ring.seq 0
          ∧ (scope % 2 = 1 → ∀ i, i < 32768 → i ≠ x.2.1 % 32768 → i ≠ (x.2.1 + 1) % 32768 → i ≠ s.lkt.ring.slot →
              ∀ j, j < 64 → t.rd8 (0x103C0000 + 64 * i + j) = 0)
          ∧ (scope / 2 % 2 = 1 → t.lkt.pinned.slot = 2 ∧ t.fld LKT_STAT LKT_STAT_PFULL = 0
            ∧ ∀ i, 2 ≤ i → i < 4096 → i + 32768 ≠ s.lkt.ring.slot → b.length ≤ 64 → ∀ j, j < 64 → t.rd8 (0x105C0000 + 64 * i + j) = 0)))

/-- R576 to R578, R585, R587: LKT_CMD and the pinned timeout ask for an early seal of an open block that waits for none. Once signed over
H, SEQ and UNIT, the seal pair and the next LINK with H are Locket's next records. A block verification reports pass, fail or no LINK. -/
def Obligations.LocketSeals : Prop :=
  (∀ (w : Word) (s : State),
    let a := if bitOf w 0 then s.sealAsked s.lkt.signs false true else s.lkt.signs
    let b := if bitOf w 1 then s.sealAsked a true true else a
    (∃ t, Sys2Proof.Machine.exec (.sealRing w) s = .next t ∧ t.lkt = { s.lkt with signs := b }
      ∧ (b ≠ s.lkt.signs → t.fld LKT_STAT LKT_STAT_SIGN = 1) ∧ s.onlyRegs { t with lkt := s.lkt } (LKT_CMD :: lktShown))
    ∧ (∃ t, Sys2Proof.Machine.exec (.pseal w) s = .next t ∧ t.lkt = { s.lkt with signs := b }
      ∧ (b ≠ s.lkt.signs → t.fld LKT_STAT LKT_STAT_SIGN = 1) ∧ s.onlyRegs { t with lkt := s.lkt } (LKT_CMD :: lktShown)))
  ∧ (∀ s : State,
    let due := ∃ x, s.lkt.copyAt = some x ∧ x + 40000000 * s.fld LKT_CFG LKT_CFG_PTIME ≤ s.now
    (¬due → Sys2Proof.Machine.exec .pinnedSealTimeout s = .next s)
    ∧ (due → ∃ t, Sys2Proof.Machine.exec .pinnedSealTimeout s = .next t
      ∧ t.lkt = { s.lkt with copyAt := none, signs := s.sealAsked s.lkt.signs true true } ∧ s.onlyRegs { t with lkt := s.lkt } lktShown))
  ∧ (∀ s : State,
    let q := s.lkt.signs.headD (false, false)
    let a := if q.1 then s.lkt.pinned else s.lkt.ring
    let st := fun (typ : Nat) (early : Bool) (p : List Byte) => { s.lktStamp typ false p with area := q.1, early := early }
    (s.lkt.signs = [] → Sys2Proof.Machine.exec .sealSigned s = .next s)
    ∧ (s.lkt.signs ≠ [] → a.blk = none → ∃ t, Sys2Proof.Machine.exec .sealSigned s = .next t
      ∧ t.lkt = { s.lkt with signs := s.lkt.signs.tail } ∧ s.onlyRegs { t with lkt := s.lkt } lktShown)
    ∧ (s.lkt.signs ≠ [] → ∀ x, a.blk = some x →
      let m := x.2 ++ toBytes 6 a.seq ++ toBytes 3 (s.fld HMK_UNIT HMK_UNIT_UNIT + 2 ^ 18 * s.fld LKT_TSECH LKT_TSECH_TSRC)
      let sig := Config.ecdsaSign Config.devPrivate m
      ∃ t, Sys2Proof.Machine.exec .sealSigned s = .next t
        ∧ t.lkt = { s.lkt with
            signs := s.lkt.signs.tail
            own := [st rtSEALR q.2 (slice sig 0 32), st rtSEALS q.2 (slice sig 32 32), st rtLINK false x.2] ++ s.lkt.own }
        ∧ s.onlyRegs { t with lkt := s.lkt } lktShown))
  ∧ (∀ (w : Word) (s : State),
    let slot := w.toNat % 2 ^ 15
    let legal := (bitOf w 15 = true → slot < 4096) ∧ (bitOf w 31 = true → s.fld LKT_STAT LKT_STAT_VBUSY = 0)
    (¬legal → ∃ t, Sys2Proof.Machine.exec (.verifyBlock w) s = .next t ∧ s.writeRefused t LKT_VCMD)
    ∧ (legal → bitOf w 31 = false → ∃ t, Sys2Proof.Machine.exec (.verifyBlock w) s = .next t ∧ s.onlyRegs t [LKT_VCMD])
    ∧ (legal → bitOf w 31 = true → ∃ t, Sys2Proof.Machine.exec (.verifyBlock w) s = .next t
      ∧ t.lkt = { s.lkt with verify := some (slot, bitOf w 15) } ∧ t.fld LKT_STAT LKT_STAT_VBUSY = 1
      ∧ s.onlyRegs { t with lkt := s.lkt } [LKT_VCMD, LKT_STAT]))
  ∧ (∀ s : State, (s.lkt.verify = none → Sys2Proof.Machine.exec .vdone s = .next s)
    ∧ ∀ x, s.lkt.verify = some x →
      let size := if x.2 then 4096 else 32768
      let at' := fun (i : Nat) => s.rdBytes ((if x.2 then 0x105C0000 else 0x103C0000) + 64 * i) 64
      let good := fun (b : List Byte) => 1 ≤ field b 6 1 ∧ field b 6 1 ≤ 16 ∧ field b 60 4 = crc32 (b.take 60)
      let link := at' x.1
      let l := s.blockFrom x.2 x.1 64
      let n := l.length
      let h := chainHash (l.take (n - 2))
      let sr := l.getD (n - 2) []
      let ss := l.getD (n - 1) []
      let whole := 3 ≤ n ∧ field sr 6 1 = 9 ∧ field ss 6 1 = 10 ∧ (∀ b ∈ l, good b)
      let before := at' ((x.1 + size - 1) % size)
      ∃ t, Sys2Proof.Machine.exec .vdone s = .next t
        ∧ (¬(good link ∧ field link 6 1 = 8) → t.fld LKT_VSTAT LKT_VSTAT_RESULT = 3 ∧ t.fld LKT_VSTAT LKT_VSTAT_CHAIN = 0)
        ∧ (good link → field link 6 1 = 8 → (t.fld LKT_VSTAT LKT_VSTAT_RESULT = 1 ∨ t.fld LKT_VSTAT LKT_VSTAT_RESULT = 2)
          ∧ (¬whole → t.fld LKT_VSTAT LKT_VSTAT_RESULT = 2)
          ∧ (x.2 = false → whole → (t.fld LKT_VSTAT LKT_VSTAT_RESULT = 1 ↔
              (∀ i, i + 1 < n → field (l.getD (i + 1) []) 0 6 = field (l.getD i []) 0 6 + 1)
              ∧ Config.ecdsaOk Config.devPublic (h ++ slice sr 0 6 ++ slice sr 18 3) (slice sr 28 32 ++ slice ss 28 32) = true))
          ∧ (t.fld LKT_VSTAT LKT_VSTAT_CHAIN = 1 → good before ∧ field before 6 1 = 10))
        ∧ t.lkt = { s.lkt with verify := none } ∧ t.fld LKT_STAT LKT_STAT_VBUSY = 0 ∧ t.bit LKT_EVT LKT_EVT_VDONE = true
        ∧ s.onlySends { t with lkt := s.lkt } [LKT_VSTAT, LKT_STAT, LKT_EVT] [evtItem LKT_EVT LKT_EVT_VDONE])

/-- R588 to R591: a GO draws a new challenge and is answered in LKT_ARES: a bad format, a NONCE other than the challenge in force, a bad signature of the
authority key over words 0 to 7 and the hashed device key, and a failed entropy source are refused with AREF and VERIFY. A verified CLEAR closes the ring
block, writes a LINK and the CLEAR record with the SEQ erased; a verified TIMESET sets calendar time and hands Locket a TIME entry. -/
def Obligations.AuthorisedRequests : Prop :=
  ∀ (w : Word) (s : State),
    let b := wordsToBytes ((List.range 24).map fun i => s.reg (LKT_AREQ i))
    let chal := wordsToBytes ((List.range 4).map fun i => s.reg (HMK_CHAL i))
    let op := field b 0 1 % 16
    let scope := field b 0 1 / 16 % 4
    let form := (op = 1 ∨ op = 2) ∧ field b 0 4 < 64 ∧ (op = 1 → scope ≠ 0) ∧ field b 30 2 = 0 ∧ field b 26 4 < 1000000000
    let fresh := slice b 4 16 = chal
    let key := match s.enrol.getLast? with | some e => e.authk | none => Config.serviceKey
    let signed := Config.ecdsaOk key (slice b 0 32 ++ Config.sha256 Config.devPublic) (slice b 32 64) = true
    let free := s.fld LKT_STAT LKT_STAT_CLRBUSY = 0
    let rng := s.fld HMK_STAT HMK_STAT_RNGERR = 1
    let chals := [LKT_ACMD, HMK_CHAL 0, HMK_CHAL 1, HMK_CHAL 2, HMK_CHAL 3]
    let drawn := fun (t : State) => ∀ i, i < 4 → t.reg (HMK_CHAL i)
      = BitVec.ofNat 32 (field ((List.range 16).map (Config.randomByte (s.freeUses + 1))) (4 * i) 4)
    let refused := fun (t : State) (res : Nat) => t.fld LKT_ARES LKT_ARES_RESULT = res ∧ t.bit LKT_EVT LKT_EVT_AREF = true ∧ t.bit HMK_EVT HMK_EVT_VERIFY = true
      ∧ s.onlySends { t with freeUses := s.freeUses } (LKT_ARES :: LKT_EVT :: HMK_EVT :: chals)
          [evtItem LKT_EVT LKT_EVT_AREF, evtItem HMK_EVT HMK_EVT_VERIFY, faultItem blkHMK 0 0x10 clsC 0]
    (bitOf w 0 = true → ¬free → ∃ t, Sys2Proof.Machine.exec (.authorisedRequest w) s = .next t ∧ s.writeRefused t LKT_ACMD)
    ∧ (bitOf w 0 = false → ∃ t, Sys2Proof.Machine.exec (.authorisedRequest w) s = .next t ∧ s.onlyRegs t [LKT_ACMD])
    ∧ (bitOf w 0 = true → free → rng → ∃ t, Sys2Proof.Machine.exec (.authorisedRequest w) s = .next t ∧ refused t 5)
    ∧ (bitOf w 0 = true → free → ¬rng → ¬form → ∃ t, Sys2Proof.Machine.exec (.authorisedRequest w) s = .next t ∧ refused t 2 ∧ drawn t)
    ∧ (bitOf w 0 = true → free → ¬rng → form → ¬fresh → ∃ t, Sys2Proof.Machine.exec (.authorisedRequest w) s = .next t ∧ refused t 3 ∧ drawn t)
    ∧ (bitOf w 0 = true → free → ¬rng → form → fresh → ¬signed → ∃ t, Sys2Proof.Machine.exec (.authorisedRequest w) s = .next t ∧ refused t 4 ∧ drawn t)
    ∧ (bitOf w 0 = true → free → ¬rng → form → fresh → signed → op = 2 →
      let sec := field b 20 6
      let ns := field b 26 4
      let old := s.lkt.cal / 64000000000
      let cal := (sec * 1000000000 + ns) * 64000000000
      ∃ t, Sys2Proof.Machine.exec (.authorisedRequest w) s = .next t ∧ drawn t
        ∧ t.fld LKT_ARES LKT_ARES_RESULT = 1 ∧ t.fld LKT_TSECH LKT_TSECH_TSRC = 1 ∧ t.bit LKT_EVT LKT_EVT_AOK = true ∧ t.bit LKT_EVT LKT_EVT_TSET = true
        ∧ t.lkt = { s.lkt with cal := cal, discAt := s.now, coming := t.lkt.coming }
        ∧ (∃ r, t.lkt.coming.getLast? = some r ∧ r.typ = rtTIME ∧ t.lkt.coming = s.lkt.coming ++ [r]
          ∧ r.payload = [1, 0, 0, 0] ++ toBytes 6 (old / 1000000000) ++ toBytes 4 (old % 1000000000) ++ toBytes 6 sec ++ toBytes 4 ns)
        ∧ s.onlySends { t with freeUses := s.freeUses, lkt := s.lkt } (LKT_ARES :: LKT_EVT :: LKT_TSECH :: chals)
            [evtItem LKT_EVT LKT_EVT_AOK, evtItem LKT_EVT LKT_EVT_TSET])
    ∧ (bitOf w 0 = true → free → ¬rng → form → fresh → signed → op = 1 → s.lkt.writing = none → s.lkt.ring.blk = none → s.lkt.ring.slot < 32768 →
      let slot := s.lkt.ring.slot
      let seq := s.lkt.ring.seq
      let at' := fun (t : State) (i : Nat) => t.rdBytes (0x103C0000 + 64 * (i % 32768)) 64
      ∃ t, Sys2Proof.Machine.exec (.authorisedRequest w) s = .next t ∧ drawn t
        ∧ t.fld LKT_ARES LKT_ARES_RESULT = 1 ∧ t.fld LKT_STAT LKT_STAT_CLRBUSY = 1 ∧ t.bit LKT_EVT LKT_EVT_AOK = true
        ∧ laidOut (at' t slot) (s.lktStamp rtLINK false s.lkt.ring.prev) seq 0
        ∧ laidOut (at' t (slot + 1)) (s.lktStamp rtCLEAR false ([BitVec.ofNat 8 scope, 0, 0, 0]
            ++ toBytes 6 (match s.lkt.oldest with | some o => o.2 | none => seq - 1) ++ toBytes 6 (seq - 1) ++ chal)) (seq + 1) 1
        ∧ t.lkt.ring.slot = (slot + 2) % 32768 ∧ t.lkt.ring.seq = seq + 2 ∧ t.lkt.queue = s.lkt.queue
        ∧ (∃ x, t.lkt.clear = some x ∧ x.1 = scope ∧ x.2.1 = slot ∧ x.2.2.2 = at' t (slot + 1)))

/-- R595, R596, R598, R594: an enrolment is accepted only when every check holds, and then alone the next slot of the store is written, with HMK_UNIT,
ENROK and a pinned ENROL entry; else HMK_ERES names the check and nothing of the store changes. A rollback minimum is only raised, up to the image in
force, with its ROLLBK entry; any other value is refused. A failed health test sets RNGERR. -/
def Obligations.Enrolments : Prop :=
  (∀ (w : Word) (s : State),
    let b := wordsToBytes ((List.range 512).map fun i => s.reg (HMK_EBUF i))
    let chal := wordsToBytes ((List.range 4).map fun i => s.reg (HMK_CHAL i))
    let len := field b 8 4
    let unit := field b 4 4
    let cert := slice b 288 len
    let rootk := slice b 32 64
    let go := bitOf w 0 = true
    let legal := go → s.fld HMK_STAT HMK_STAT_BUSY = 0 ∧ s.enrol.length < 4
    let rng := s.fld HMK_STAT HMK_STAT_RNGERR = 1
    let form := field b 0 4 = 0x4E454C49 ∧ 1 ≤ len ∧ len ≤ 1024 ∧ field b 28 4 = 0
    let fresh := slice b 12 16 = chal
    let dates := s.fld LKT_TSECH LKT_TSECH_TSRC = 1 ∨ s.fld LKT_TSECH LKT_TSECH_TSRC = 2
    let certified := Config.certOk rootk cert (decide dates) s.calSec = true ∧ Config.certKey cert = Config.devPublic
    let signed := Config.ecdsaOk rootk (slice b 0 (288 + len)) (slice b (288 + len) 64) = true
    let transfer := (∀ e, s.enrol.getLast? = some e → Config.ecdsaOk e.authk (slice b 0 224) (slice b 224 64) = true)
      ∧ (s.enrol = [] → slice b 224 64 = List.replicate 64 0)
    let unitOk := unit ≤ 262143 ∧ Config.certUnit cert = unit
    let keys := [HMK_ECMD, HMK_ERES, HMK_EVT, HMK_CHAL 0, HMK_CHAL 1, HMK_CHAL 2, HMK_CHAL 3]
    let refused := fun (t : State) (res : Nat) => t.fld HMK_ERES HMK_ERES_RESULT = res ∧ t.bit HMK_EVT HMK_EVT_ENRREF = true
      ∧ s.onlySends { t with freeUses := s.freeUses } keys ([evtItem HMK_EVT HMK_EVT_ENRREF]
          ++ if res = 4 ∨ res = 5 ∨ res = 6 then [evtItem HMK_EVT HMK_EVT_VERIFY, faultItem blkHMK 0 0x10 clsC 0] else [])
    (¬legal → ∃ t, Sys2Proof.Machine.exec (.enrolment w) s = .next t ∧ s.writeRefused t HMK_ECMD)
    ∧ (¬go → ∃ t, Sys2Proof.Machine.exec (.enrolment w) s = .next t ∧ s.onlyRegs t [HMK_ECMD])
    ∧ (go → legal → rng → ∃ t, Sys2Proof.Machine.exec (.enrolment w) s = .next t ∧ t.bit HMK_EVT HMK_EVT_ENRREF = true
      ∧ s.onlySends t [HMK_ECMD, HMK_EVT] [evtItem HMK_EVT HMK_EVT_ENRREF])
    ∧ (go → legal → ¬rng → ¬form → ∃ t, Sys2Proof.Machine.exec (.enrolment w) s = .next t ∧ refused t 2)
    ∧ (go → legal → ¬rng → form → ¬fresh → ∃ t, Sys2Proof.Machine.exec (.enrolment w) s = .next t ∧ refused t 3)
    ∧ (go → legal → ¬rng → form → fresh → ¬certified → ∃ t, Sys2Proof.Machine.exec (.enrolment w) s = .next t ∧ refused t 4)
    ∧ (go → legal → ¬rng → form → fresh → certified → ¬signed → ∃ t, Sys2Proof.Machine.exec (.enrolment w) s = .next t ∧ refused t 5)
    ∧ (go → legal → ¬rng → form → fresh → certified → signed → ¬transfer → ∃ t, Sys2Proof.Machine.exec (.enrolment w) s = .next t ∧ refused t 6)
    ∧ (go → legal → ¬rng → form → fresh → certified → signed → transfer → ¬unitOk → ∃ t, Sys2Proof.Machine.exec (.enrolment w) s = .next t ∧ refused t 7)
    ∧ (go → legal → ¬rng → form → fresh → certified → signed → transfer → unitOk → ∃ t, Sys2Proof.Machine.exec (.enrolment w) s = .next t
      ∧ t.fld HMK_ERES HMK_ERES_RESULT = 1 ∧ t.bit HMK_EVT HMK_EVT_ENROK = true
      ∧ t.enrol = s.enrol ++ [{ unit := unit, rootk := rootk, imgk := slice b 96 64, authk := slice b 160 64, cert := cert }]
      ∧ t.fld HMK_UNIT HMK_UNIT_UNIT = unit ∧ t.fld HMK_STAT HMK_STAT_ENR = 1 ∧ t.fld HMK_STAT HMK_STAT_NENR = s.enrol.length + 1
      ∧ t.fld HMK_OCLEN HMK_OCLEN_LEN = len
      ∧ (∃ r, t.lkt.coming.getLast? = some r ∧ t.lkt = { s.lkt with coming := s.lkt.coming ++ [r] } ∧ r.typ = rtENROL ∧ r.pin = true
        ∧ r.payload = toBytes 3 unit ++ toBytes 1 s.enrol.length ++ (Config.sha256 cert).take 28)
      ∧ s.onlySends { t with freeUses := s.freeUses, lkt := s.lkt, enrol := s.enrol } (HMK_UNIT :: HMK_STAT :: HMK_OCLEN :: keys)
          [evtItem HMK_EVT HMK_EVT_ENROK]))
  ∧ (∀ (w : Word) (s : State),
    let v := w.toNat % 256
    let cal := bitOf w 8
    let old := if cal then s.fld HMK_RBMIN HMK_RBMIN_CAL else s.fld HMK_RBMIN HMK_RBMIN_CODE
    let top := if cal then s.boot.crb else s.boot.rb
    let legal := s.fld HMK_STAT HMK_STAT_BUSY = 0 ∧ old < v ∧ v ≤ top
    (¬legal → ∃ t, Sys2Proof.Machine.exec (.rollbackRaise w) s = .next t ∧ s.writeRefused t HMK_RBCMD)
    ∧ (legal → ∃ t, Sys2Proof.Machine.exec (.rollbackRaise w) s = .next t
      ∧ t.fld HMK_RBMIN HMK_RBMIN_CODE = (if cal then s.fld HMK_RBMIN HMK_RBMIN_CODE else v)
      ∧ t.fld HMK_RBMIN HMK_RBMIN_CAL = (if cal then v else s.fld HMK_RBMIN HMK_RBMIN_CAL) ∧ t.bit HMK_EVT HMK_EVT_RBRAISE = true
      ∧ t.lkt = { s.lkt with coming := s.lkt.coming ++ [s.lktStamp rtROLLBK true [BitVec.ofNat 8 (b2n cal), BitVec.ofNat 8 old, BitVec.ofNat 8 v]] }
      ∧ s.onlySends { t with lkt := s.lkt } [HMK_RBCMD, HMK_RBMIN, HMK_EVT] [evtItem HMK_EVT HMK_EVT_RBRAISE]))
  ∧ (∀ s : State, ∃ t, Sys2Proof.Machine.exec .rngerr s = .next t ∧ t.fld HMK_STAT HMK_STAT_RNGERR = 1 ∧ t.bit HMK_EVT HMK_EVT_RNGERR = true
    ∧ s.onlySends t [HMK_STAT, HMK_EVT] [evtItem HMK_EVT HMK_EVT_RNGERR])

/-- R599 to R602, R605: STEP adds the signed offset to calendar time, legal within 1 s or while TSRC is 0, and hands Locket a TIME entry with the times before
and after; a step or a write of LKT_TADJ in ±500,000 sets TSRC to 2. HOLD seconds later TSRC is 3, with TLOSS. A read of LKT_TSECL latches the rest. -/
def Obligations.CalendarTime : Prop :=
  (∀ (w : Word) (s : State),
    let d : Int := (s.reg LKT_TSTEPS).toInt * 1000000000 + (s.reg LKT_TSTEPN).toInt
    let src := s.fld LKT_TSECH LKT_TSECH_TSRC
    let legal := bitOf w 0 = true → (-1000000000 ≤ d ∧ d ≤ 1000000000) ∨ src = 0
    let old := s.lkt.cal / 64000000000
    (¬legal → ∃ t, Sys2Proof.Machine.exec (.timeStep w) s = .next t ∧ s.writeRefused t LKT_TCMD)
    ∧ (bitOf w 0 = false → ∃ t, Sys2Proof.Machine.exec (.timeStep w) s = .next t ∧ s.onlyRegs t [LKT_TCMD])
    ∧ (bitOf w 0 = true → legal → ∃ t, Sys2Proof.Machine.exec (.timeStep w) s = .next t
      ∧ (t.lkt.cal : Int) = ((s.lkt.cal : Int) + d * 64000000000) % (2 ^ 48 * 1000000000 * 64000000000)
      ∧ t.fld LKT_TSECH LKT_TSECH_TSRC = 2
      ∧ t.lkt = { s.lkt with cal := t.lkt.cal, discAt := s.now, coming := t.lkt.coming }
      ∧ (∃ r, t.lkt.coming.getLast? = some r ∧ t.lkt.coming = s.lkt.coming ++ [r] ∧ r.typ = rtTIME
        ∧ r.payload = [2, 0, 0, 0] ++ toBytes 6 (old / 1000000000) ++ toBytes 4 (old % 1000000000) ++ toBytes 6 t.calSec ++ toBytes 4 t.calNs)
      ∧ s.onlyRegs { t with lkt := s.lkt } [LKT_TCMD, LKT_TSECH]))
  ∧ (∀ (w : Word) (s : State),
    let legal := -500000 ≤ w.toInt ∧ w.toInt ≤ 500000
    (¬legal → ∃ t, Sys2Proof.Machine.exec (.timeAdjust w) s = .next t ∧ s.writeRefused t LKT_TADJ)
    ∧ (legal → ∃ t, Sys2Proof.Machine.exec (.timeAdjust w) s = .next t ∧ t.reg LKT_TADJ = w ∧ t.fld LKT_TSECH LKT_TSECH_TSRC = 2
      ∧ t.lkt = { s.lkt with discAt := s.now } ∧ s.onlyRegs { t with lkt := s.lkt } [LKT_TADJ, LKT_TSECH]))
  ∧ (∀ s : State,
    let src := s.fld LKT_TSECH LKT_TSECH_TSRC
    let due := (src = 1 ∨ src = 2) ∧ s.lkt.discAt + 400000000 * s.fld LKT_TCFG LKT_TCFG_HOLD ≤ s.now
    (¬due → Sys2Proof.Machine.exec .tloss s = .next s)
    ∧ (due → ∃ t, Sys2Proof.Machine.exec .tloss s = .next t ∧ t.fld LKT_TSECH LKT_TSECH_TSRC = 3 ∧ t.bit LKT_EVT LKT_EVT_TLOSS = true
      ∧ s.onlySends t [LKT_TSECH, LKT_EVT] [evtItem LKT_EVT LKT_EVT_TLOSS]))
  ∧ (∀ s : State,
    let ns := s.lkt.cal / 64000000000
    ∃ t, Sys2Proof.Machine.exec .lktTseclRead s = .next t
      ∧ t.answer = { data := BitVec.ofNat 32 (ns / 1000000000), err := false } ∧ t.fld LKT_TNS LKT_TNS_NS = ns % 1000000000
      ∧ t.fld LKT_TSECH LKT_TSECH_SEC = ns / 1000000000 / 2 ^ 32 % 2 ^ 16 ∧ t.fld LKT_TSECH LKT_TSECH_TSRC = s.fld LKT_TSECH LKT_TSECH_TSRC
      ∧ s.onlyRegs { t with answer := s.answer } [LKT_TSECH, LKT_TNS])

/-- R630 to R634: a frame before 16 idle bits, where Loupe waits for them, does nothing; one with a wrong CRC or stop bit is discarded and counted; with
EN 0 every command is answered LOCKED. Else each command is answered by one RESP: NOP with OK, an unused OP with OP, RESYNC with a SYNC packet
behind it; READ and WRITE are one bus access of Loupe, or reach the private window of the pair that PSEL names, which has to be halted.
R633 to R635: the oldest packets of the trace buffer leave before a SYNC packet. After a loss, the buffer drains to half full, packet by packet, and
no further; a LOSS packet with the count and a SYNC follow, and the loss is counted. DBG_UTRC puts a USER packet into the buffer while Loupe is open
and the source is on, where there is room; without it the packet and every later one are dropped. -/
def Obligations.LoupeFramesAndTrace : Prop :=
  (
    (∀ (tag : BitVec 4) (addr w : Word) (good idle : Bool) (ecc : Ecc) (s : State),
      let hears := s.dbg.bad = false ∨ idle = true
      let shut := fun (r : Host.Outcome State Fault Refusal) =>
        (¬hears → ∃ t, r = .next t ∧ t = { s with dbg := { s.dbg with sent := [] } })
        ∧ (hears → good = false → ∃ t, r = .next t
          ∧ t.dbg = { s.dbg with sent := [], bad := true } ∧ t.fld DBG_CNT DBG_CNT_CMDERR = min 65535 (s.fld DBG_CNT DBG_CNT_CMDERR + 1)
          ∧ t.bit DBG_EVT DBG_EVT_CMDERR = true ∧ s.onlySends { t with dbg := s.dbg } [DBG_CNT, DBG_EVT] [evtItem DBG_EVT DBG_EVT_CMDERR])
        ∧ (hears → good = true → s.fld DBG_CTRL DBG_CTRL_EN = 0 → ∃ t, r = .next t ∧ s.loupeSays t tag 2 0 addr [])
      shut (Sys2Proof.Machine.exec (.loupeNop tag addr good idle) s) ∧ shut (Sys2Proof.Machine.exec (.loupeRead tag addr good idle ecc) s)
      ∧ shut (Sys2Proof.Machine.exec (.loupeWrite tag addr w good idle ecc) s) ∧ shut (Sys2Proof.Machine.exec (.resync tag addr good idle) s)
      ∧ shut (Sys2Proof.Machine.exec (.loupeUnusedOp tag addr good idle) s))
    ∧ (∀ (tag : BitVec 4) (addr : Word) (s : State), s.fld DBG_CTRL DBG_CTRL_EN = 1 →
      (∃ t, Sys2Proof.Machine.exec (.loupeNop tag addr true true) s = .next t ∧ s.loupeSays t tag 0 0 addr [])
      ∧ (∃ t, Sys2Proof.Machine.exec (.loupeUnusedOp tag addr true true) s = .next t ∧ s.loupeSays t tag 4 0 addr [])
      ∧ (∃ t, Sys2Proof.Machine.exec (.resync tag addr true true) s = .next t
        ∧ s.loupeSays t tag 0 0 addr [[0x1F, 0xA5, 0x5A] ++ toBytes 6 s.slot.toNat]))
    ∧ (∀ (tag : BitVec 4) (addr w : Word) (s : State), s.fld DBG_CTRL DBG_CTRL_EN = 1 →
      let a := addr.toNat / 4 * 4
      let p := s.fld DBG_CTRL DBG_CTRL_PSEL
      let u : State := { s with dbg := { s.dbg with bad := false } }
      let r := u.busRead .loupe a 4 .clean
      let q := u.busWrite .loupe a (toBytes 4 w.toNat) .clean
      (inWindow a = true → s.bit DBG_PSTAT p = false →
        (∃ t, Sys2Proof.Machine.exec (.loupeRead tag addr true true .clean) s = .next t ∧ s.loupeSays t tag 3 0 addr [])
        ∧ (∃ t, Sys2Proof.Machine.exec (.loupeWrite tag addr w true true .clean) s = .next t ∧ s.loupeSays t tag 3 0 addr []))
      ∧ (inWindow a = true → s.bit DBG_PSTAT p = true → s.flt.armed = none →
        (∃ t, Sys2Proof.Machine.exec (.loupeRead tag addr true true .clean) s = .next t ∧ s.loupeSays t tag 0 (s.rd32 (windowKey p a)) addr [])
        ∧ (∃ t, Sys2Proof.Machine.exec (.loupeWrite tag addr w true true .clean) s = .next t ∧ s.loupeSays { t with mem := s.mem } tag 0 0 addr []
          ∧ t.rd32 (windowKey p a) = w ∧ ∀ x, (x < windowKey p a ∨ windowKey p a + 4 ≤ x) → t.rd8 x = s.rd8 x))
      ∧ (inWindow a = false →
        (∃ t, Sys2Proof.Machine.exec (.loupeRead tag addr true true .clean) s = .next t
          ∧ r.1.loupeSays t tag (if r.2.2 = .ok then 0 else 1) (BitVec.ofNat 32 r.2.1) addr [])
        ∧ (∃ t, Sys2Proof.Machine.exec (.loupeWrite tag addr w true true .clean) s = .next t
          ∧ q.1.loupeSays t tag (if q.2 = .ok then 0 else 1) 0 addr []))))
  ∧ (
    (∀ (n : Nat) (s : State), ∃ t, Sys2Proof.Machine.exec (.loupeSync n) s = .next t
      ∧ t.dbg = { s.dbg with sent := s.dbg.buf.take n ++ [[0x1F, 0xA5, 0x5A] ++ toBytes 6 s.slot.toNat], buf := s.dbg.buf.drop n }
      ∧ t.fld DBG_STAT DBG_STAT_FILL = min 256 ((((s.dbg.buf.drop n).map List.length).sum + 15) / 16) ∧ s.onlyRegs { t with dbg := s.dbg } [DBG_STAT])
    ∧ (∀ s : State, (s.dbg.lost = none → Sys2Proof.Machine.exec .traceResume s = .next s)
      ∧ ∀ n, s.dbg.lost = some n → ∃ t, Sys2Proof.Machine.exec .traceResume s = .next t
        ∧ (let k := s.dbg.buf.length - t.dbg.buf.length
           t.dbg = { s.dbg with
             buf := s.dbg.buf.drop k, lost := none
             sent := s.dbg.buf.take k ++ [BitVec.ofNat 8 0x80 :: toBytes 2 (min 65535 n), [0x1F, 0xA5, 0x5A] ++ toBytes 6 s.slot.toNat] }
           ∧ ((s.dbg.buf.drop k).map List.length).sum ≤ 2048 ∧ (∀ j, j < k → 2048 < ((s.dbg.buf.drop j).map List.length).sum))
        ∧ t.fld DBG_CNT DBG_CNT_LOSS = min 65535 (s.fld DBG_CNT DBG_CNT_LOSS + n) ∧ t.bit DBG_EVT DBG_EVT_LOSS = true
        ∧ s.onlySends { t with dbg := s.dbg } [DBG_STAT, DBG_CNT, DBG_EVT] [evtItem DBG_EVT DBG_EVT_LOSS])
    ∧ (∀ (w : Word) (s : State),
      let fill := (s.dbg.buf.map List.length).sum
      let on := s.fld DBG_TCFG DBG_TCFG_USER = 1 ∧ s.fld DBG_CTRL DBG_CTRL_EN ≠ 0
      ∃ t, Sys2Proof.Machine.exec (.dbgUtrc w) s = .next t ∧ s.onlyRegs { t with dbg := s.dbg } [DBG_UTRC, DBG_STAT]
        ∧ (¬on → t.dbg = s.dbg)
        ∧ (on → ∀ n, s.dbg.lost = some n → t.dbg = { s.dbg with lost := some (n + 1) })
        ∧ (on → s.dbg.lost = none → 4096 < fill + 5 → t.dbg = { s.dbg with lost := some 1 })
        ∧ (on → s.dbg.lost = none → fill + 5 ≤ 4096 → t.dbg = { s.dbg with buf := s.dbg.buf ++ [BitVec.ofNat 8 0x70 :: toBytes 4 w.toNat] }
          ∧ t.fld DBG_STAT DBG_STAT_FILL = (fill + 5 + 15) / 16)))

/-- R630, R636, R637, R640: EN is written by a policy target at level S alone; a change of it hands Locket a DEBUG entry, and clearing it releases every
halt. A halt names running pairs, takes effect while Loupe is open, and raises HALT of each; a resume or a step names halted pairs: a resume lets them
run, with a BRK at pc executed once, a step lets each execute one instruction. DBG_TRES resumes a HALTED thread behind its BRK. -/
def Obligations.DebugHalts : Prop :=
  (∀ (m : Master) (w : Word) (s : State),
    let byS := match m with | .pair p => if s.atS p then some p.val else none | _ => none
    let old := s.fld DBG_CTRL DBG_CTRL_EN
    let en := w.toNat % 2
    (byS = none → en ≠ old → ∃ t, Sys2Proof.Machine.exec (.dbgEnableWrite m w) s = .next t ∧ s.writeRefused t DBG_CTRL)
    ∧ (en = old → ∃ t, Sys2Proof.Machine.exec (.dbgEnableWrite m w) s = .next t
      ∧ t.fld DBG_CTRL DBG_CTRL_EN = old ∧ t.fld DBG_CTRL DBG_CTRL_PSEL = w.toNat / 16 % 4 ∧ s.onlyRegs t [DBG_CTRL])
    ∧ (∀ p, byS = some p → en ≠ old → ∃ t, Sys2Proof.Machine.exec (.dbgEnableWrite m w) s = .next t
      ∧ t.fld DBG_CTRL DBG_CTRL_EN = en ∧ t.fld DBG_CTRL DBG_CTRL_PSEL = w.toNat / 16 % 4
      ∧ t.lkt = { s.lkt with coming := s.lkt.coming ++ [s.lktStamp rtDEBUG true [BitVec.ofNat 8 en, 1, BitVec.ofNat 8 p]] }
      ∧ (en = 1 → s.onlyRegs { t with lkt := s.lkt } [DBG_CTRL])
      ∧ (en = 0 → (∀ q, q < 4 → t.pairHalted q = false) ∧ (∀ n : Fin 64, s.thState n = 5 → t.thState n = 1 ∧ (t.thr n).pc = (s.thr n).pc + 4)
        ∧ (∀ n : Fin 64, s.thState n ≠ 5 → t.thState n = s.thState n ∧ (t.thr n).pc = (s.thr n).pc) ∧ t.mem = s.mem ∧ t.inflight = s.inflight)))
  ∧ (∀ (w : Word) (s : State),
    let named := fun (p : Nat) => bitOf w p = true
    (¬(∀ p, p < 4 → named p → s.pairHalted p = false) → ∃ t, Sys2Proof.Machine.exec (.dbgHalt w) s = .next t ∧ s.writeRefused t DBG_HALT)
    ∧ ((∀ p, p < 4 → named p → s.pairHalted p = false) → s.fld DBG_CTRL DBG_CTRL_EN = 0 → ∃ t, Sys2Proof.Machine.exec (.dbgHalt w) s = .next t
      ∧ s.onlyRegs t [DBG_HALT])
    ∧ ((∀ p, p < 4 → named p → s.pairHalted p = false) → s.fld DBG_CTRL DBG_CTRL_EN = 1 → ∃ t, Sys2Proof.Machine.exec (.dbgHalt w) s = .next t
      ∧ (∀ p : Fin 4, t.pairHalted p = (s.pairHalted p || bitOf w p) ∧ (named p → t.bit DBG_PSTAT (4 + p) = false ∧ t.bit DBG_EVT p = true
          ∧ (t.pair p).loads = [])
        ∧ (¬named p → t.pair p = s.pair p ∧ t.bit DBG_PSTAT (4 + p) = s.bit DBG_PSTAT (4 + p) ∧ t.bit DBG_EVT p = s.bit DBG_EVT p))
      ∧ t.inflight = s.inflight ++ ((List.range 4).filter fun p => bitOf w p).map (evtItem DBG_EVT)
      ∧ t = { s with regs := t.regs, pairs := t.pairs, inflight := t.inflight }))
  ∧ (∀ (w : Word) (s : State),
    let ok := ∀ p, p < 4 → bitOf w p = true → s.pairHalted p = true
    (¬ok → (∃ t, Sys2Proof.Machine.exec (.dbgRes w) s = .next t ∧ s.writeRefused t DBG_RES)
      ∧ ∃ t, Sys2Proof.Machine.exec (.dbgStep w) s = .next t ∧ s.writeRefused t DBG_STEP)
    ∧ (ok → (∃ t, Sys2Proof.Machine.exec (.dbgRes w) s = .next t
        ∧ (∀ p : Fin 4, t.pairHalted p = (s.pairHalted p && !bitOf w p)
          ∧ t.pair p = (if bitOf w p then { s.pair p with step := false, resume := true } else s.pair p))
        ∧ s.onlyRegs { t with pairs := s.pairs } [DBG_RES, DBG_PSTAT])
      ∧ ∃ t, Sys2Proof.Machine.exec (.dbgStep w) s = .next t
        ∧ (∀ p : Fin 4, t.pair p = (if bitOf w p then { s.pair p with step := true } else s.pair p))
        ∧ s.onlyRegs { t with pairs := s.pairs } [DBG_STEP]))
  ∧ (∀ (w : Word) (s : State),
    let n := w.toNat % 64
    (s.thState n ≠ 5 → ∃ t, Sys2Proof.Machine.exec (.dbgTres w) s = .next t ∧ s.writeRefused t DBG_TRES)
    ∧ (s.thState n = 5 → ∃ t, Sys2Proof.Machine.exec (.dbgTres w) s = .next t ∧ t.thState n = 1 ∧ (t.thr n).pc = (s.thr n).pc + 4
      ∧ (∀ j : Fin 64, j.val ≠ n → t.thState j = s.thState j ∧ t.thr j = s.thr j) ∧ (∀ r, t.tg n r = s.tg n r)
      ∧ t.mem = s.mem ∧ t.inflight = s.inflight ∧ t.calq = s.calq))
end

