-- ==== Sys2Proof/Laws/Field.lean ====
section
/-! SUPPORT. Bit fields of a register word: what a field reads after a field or a bit is set. -/

namespace Sys2Proof.Machine

theorem Fld.mask_getLsbD (f : Fld) (i : Nat) :
    f.mask.getLsbD i = (decide (i < 32) && decide (f.lo ≤ i) && decide (i < f.lo + f.w)) := by
  simp only [Fld.mask, BitVec.getLsbD_ofNat, Nat.testBit_mul_two_pow, Nat.testBit_two_pow_sub_one, Bool.and_assoc]
  congr 1
  by_cases h : f.lo ≤ i
  · simp only [h, decide_true, Bool.true_and, decide_eq_decide]; omega
  · simp [h]

theorem Fld.set_getLsbD (f : Fld) (r : Word) (v i : Nat) (hi : i < 32) :
    (f.set r v).getLsbD i =
      if f.lo ≤ i ∧ i < f.lo + f.w then v.testBit (i - f.lo) else r.getLsbD i := by
  simp only [Fld.set, BitVec.getLsbD_or, BitVec.getLsbD_and, BitVec.getLsbD_not, Fld.mask_getLsbD, BitVec.getLsbD_ofNat,
    Nat.testBit_mul_two_pow, Nat.testBit_mod_two_pow, hi, decide_true, Bool.true_and]
  by_cases h1 : f.lo ≤ i
  · by_cases h2 : i < f.lo + f.w
    · have h3 : i - f.lo < f.w := by omega
      simp [h1, h2, h3]
    · have h3 : ¬ i - f.lo < f.w := by omega
      simp [h1, h2, h3]
  · simp [h1]

theorem Fld.get_testBit (f : Fld) (r : Word) (i : Nat) :
    (f.get r).testBit i = (decide (i < f.w) && r.getLsbD (f.lo + i)) := by
  simp only [Fld.get, Nat.testBit_mod_two_pow, Nat.testBit_div_two_pow, BitVec.testBit_toNat, Nat.add_comm]

/-- A field reads as it was set, modulo its width. -/
theorem Fld.get_set_same (f : Fld) (r : Word) (v : Nat) (h : f.lo + f.w ≤ 32) : f.get (f.set r v) = v % 2 ^ f.w := by
  apply Nat.eq_of_testBit_eq
  intro i
  rw [Fld.get_testBit, Nat.testBit_mod_two_pow]
  by_cases hi : i < f.w
  · rw [Fld.set_getLsbD _ _ _ _ (by omega), if_pos ⟨by omega, by omega⟩]
    simp [hi]
  · simp [hi]

/-- A field apart from the one set reads as before. -/
theorem Fld.get_set_ne (f g : Fld) (r : Word) (v : Nat) (h : f.lo + f.w ≤ g.lo ∨ g.lo + g.w ≤ f.lo) :
    g.get (f.set r v) = g.get r := by
  apply Nat.eq_of_testBit_eq
  intro i
  rw [Fld.get_testBit, Fld.get_testBit]
  by_cases hi : i < g.w
  · by_cases h32 : g.lo + i < 32
    · rw [Fld.set_getLsbD _ _ _ _ h32, if_neg (by omega)]
    · rw [BitVec.getLsbD_of_ge _ _ (by omega), BitVec.getLsbD_of_ge _ _ (by omega)]
  · simp [hi]

theorem withBit_getLsbD (r : Word) (i j : Nat) (b : Bool) (hj : j < 32) :
    (withBit r i b).getLsbD j = if j = i then b else r.getLsbD j := by
  unfold withBit
  cases b
  · simp only [Bool.false_eq_true, if_false, BitVec.getLsbD_and, BitVec.getLsbD_not, BitVec.getLsbD_ofNat, Nat.testBit_two_pow, hj,
      decide_true, Bool.true_and]
    by_cases h : i = j
    · subst h; simp
    · simp [h, Ne.symm h]
  · simp only [if_true, BitVec.getLsbD_or, BitVec.getLsbD_ofNat, Nat.testBit_two_pow, hj, decide_true, Bool.true_and]
    by_cases h : i = j
    · subst h; simp
    · simp [h, Ne.symm h]

/-- The bit just set. -/
theorem bitOf_withBit_same (r : Word) (i : Nat) (b : Bool) (h : i < 32) : bitOf (withBit r i b) i = b := by
  simp [bitOf, withBit_getLsbD r i i b h]

/-- Every other bit. -/
theorem bitOf_withBit_ne (r : Word) {i j : Nat} (b : Bool) (h : j ≠ i) : bitOf (withBit r i b) j = bitOf r j := by
  by_cases hj : j < 32
  · simp [bitOf, withBit_getLsbD r i j b hj, h]
  · simp [bitOf, BitVec.getLsbD_of_ge _ j (Nat.le_of_not_lt hj)]

/-- A field without the bit set reads as before. -/
theorem Fld.get_withBit_ne (f : Fld) (r : Word) (i : Nat) (b : Bool) (h : i < f.lo ∨ f.lo + f.w ≤ i) :
    f.get (withBit r i b) = f.get r := by
  apply Nat.eq_of_testBit_eq
  intro j
  rw [Fld.get_testBit, Fld.get_testBit]
  by_cases hj : j < f.w
  · by_cases h32 : f.lo + j < 32
    · rw [withBit_getLsbD _ _ _ _ h32, if_neg (by omega)]
    · rw [BitVec.getLsbD_of_ge _ _ (by omega), BitVec.getLsbD_of_ge _ _ (by omega)]
  · simp [hj]

/-- A bit outside the field set is as before. -/
theorem bitOf_set_ne (f : Fld) (r : Word) (v i : Nat) (h : i < f.lo ∨ f.lo + f.w ≤ i) : bitOf (f.set r v) i = bitOf r i := by
  by_cases hi : i < 32
  · simp only [bitOf, Fld.set_getLsbD _ _ _ _ hi]; rw [if_neg (by omega)]
  · simp [bitOf, BitVec.getLsbD_of_ge _ i (Nat.le_of_not_lt hi)]

end Sys2Proof.Machine
end

