-- ==== Sys2Proof/Laws/Table.lean ====
section
/-! SUPPORT. Sparse tables and fixed arrays: what a read gives after a write, and that writes keep the canonical form. -/

namespace Sys2Proof.Machine

section
variable {α : Type} [DecidableEq α] (d : Nat → α)

omit [DecidableEq α] in
theorem tabFind_tabDel_same (l : List (Nat × α)) (k : Nat) : tabFind (tabDel l k) k = none := by
  induction l with
  | nil => rfl
  | cons e t ih => simp only [tabDel]; split <;> simp_all [tabFind]

omit [DecidableEq α] in
theorem tabFind_tabDel_ne (l : List (Nat × α)) {k j : Nat} (h : j ≠ k) : tabFind (tabDel l k) j = tabFind l j := by
  induction l with
  | nil => rfl
  | cons e t ih =>
    simp only [tabDel, tabFind]
    split
    · rename_i he; rw [ih, if_neg]; intro h2; exact h (h2 ▸ he)
    · simp only [tabFind, ih]

omit [DecidableEq α] in
theorem tabFind_tabIns_same (l : List (Nat × α)) (k : Nat) (v : α) (h : tabFind l k = none) :
    tabFind (tabIns l k v) k = some v := by
  induction l with
  | nil => simp [tabIns, tabFind]
  | cons e t ih =>
    simp only [tabFind] at h
    split at h
    · cases h
    · rename_i he; simp only [tabIns]; split <;> simp [tabFind, he, ih h]

omit [DecidableEq α] in
theorem tabFind_tabIns_ne (l : List (Nat × α)) {k j : Nat} (v : α) (h : j ≠ k) :
    tabFind (tabIns l k v) j = tabFind l j := by
  induction l with
  | nil => simp [tabIns, tabFind, Ne.symm h]
  | cons e t ih =>
    simp only [tabIns]
    split
    · simp [tabFind, Ne.symm h]
    · simp [tabFind, ih]

/-- A read of the key just written gives the value written. -/
@[simp] theorem tabGet_tabSet_same (l : List (Nat × α)) (k : Nat) (v : α) : tabGet d (tabSet d l k v) k = v := by
  by_cases h : v = d k
  · simp [tabGet, tabSet, h, tabFind_tabDel_same]
  · simp [tabGet, tabSet, h, tabFind_tabIns_same _ _ _ (tabFind_tabDel_same l k)]

/-- A write leaves every other key as it was. -/
theorem tabGet_tabSet_ne (l : List (Nat × α)) {k j : Nat} (v : α) (h : j ≠ k) :
    tabGet d (tabSet d l k v) j = tabGet d l j := by
  by_cases hv : v = d k
  · simp [tabGet, tabSet, hv, tabFind_tabDel_ne l h]
  · simp [tabGet, tabSet, hv, tabFind_tabIns_ne _ v h, tabFind_tabDel_ne l h]

theorem tabWfFrom_trans (l : List (Nat × α)) (a : Option Nat) (k : Nat) (h : keyAbove a k = true)
    (hl : tabWfFrom d (some k) l = true) : tabWfFrom d a l = true := by
  cases l with
  | nil => rfl
  | cons e t =>
    simp only [tabWfFrom, Bool.and_eq_true] at hl ⊢
    refine ⟨⟨?_, hl.1.2⟩, hl.2⟩
    cases a with
    | none => rfl
    | some x => simp only [keyAbove, decide_eq_true_eq] at *; omega

theorem tabWfFrom_tabDel (l : List (Nat × α)) (a : Option Nat) (k : Nat) (h : tabWfFrom d a l = true) :
    tabWfFrom d a (tabDel l k) = true := by
  induction l generalizing a with
  | nil => rfl
  | cons e t ih =>
    simp only [tabWfFrom, Bool.and_eq_true] at h
    simp only [tabDel]
    split
    · exact ih a (tabWfFrom_trans d t a e.1 h.1.1 h.2)
    · simp only [tabWfFrom, Bool.and_eq_true]; exact ⟨h.1, ih _ h.2⟩

theorem tabWfFrom_tabIns (l : List (Nat × α)) (a : Option Nat) (k : Nat) (v : α) (hv : v ≠ d k)
    (ha : keyAbove a k = true)
    (hk : tabFind l k = none) (h : tabWfFrom d a l = true) : tabWfFrom d a (tabIns l k v) = true := by
  induction l generalizing a with
  | nil => simp only [tabIns, tabWfFrom, Bool.and_eq_true, decide_eq_true_eq]; exact ⟨⟨ha, hv⟩, trivial⟩
  | cons e t ih =>
    simp only [tabWfFrom, Bool.and_eq_true] at h
    simp only [tabFind] at hk
    split at hk
    · cases hk
    · rename_i hne
      simp only [tabIns]
      split
      · rename_i hlt
        simp only [tabWfFrom, Bool.and_eq_true, decide_eq_true_eq]
        exact ⟨⟨ha, hv⟩, ⟨by simpa [keyAbove] using hlt, by simpa using h.1.2⟩, h.2⟩
      · rename_i hnlt
        simp only [tabWfFrom, Bool.and_eq_true]
        refine ⟨h.1, ih _ ?_ hk h.2⟩
        simp only [keyAbove, decide_eq_true_eq]; omega

/-- A write keeps the canonical form. -/
theorem tabWf_tabSet (l : List (Nat × α)) (k : Nat) (v : α) (h : tabWf d l = true) : tabWf d (tabSet d l k v) = true := by
  unfold tabSet tabWf at *
  split
  · exact tabWfFrom_tabDel d l none k h
  · rename_i hv
    exact tabWfFrom_tabIns d _ none k v hv rfl (tabFind_tabDel_same l k) (tabWfFrom_tabDel d l none k h)

end

/-! ### Fixed arrays -/

section
variable {α : Type} [Inhabited α] {n : Nat}

theorem vat_lt (v : Vector α n) {i : Nat} (h : i < n) : vat v i = v[i] := by
  simp [vat, List.getD, h]

/-- The changed element. -/
theorem vat_vupd_same (v : Vector α n) (f : α → α) {i : Nat} (h : i < n) : vat (vupd v i f) i = f (vat v i) := by
  rw [vat_lt _ h, vat_lt _ h]; simp [vupd]

/-- Every other element. -/
theorem vat_vupd_ne (v : Vector α n) (f : α → α) {i j : Nat} (h : j ≠ i) : vat (vupd v i f) j = vat v j := by
  by_cases hj : j < n
  · rw [vat_lt _ hj, vat_lt _ hj]; simp [vupd, h]
  · simp [vat, List.getD, hj]

theorem vat_vset_same (v : Vector α n) (x : α) {i : Nat} (h : i < n) : vat (vset v i x) i = x := vat_vupd_same v _ h

theorem vat_vset_ne (v : Vector α n) (x : α) {i j : Nat} (h : j ≠ i) : vat (vset v i x) j = vat v j := vat_vupd_ne v _ h

end

end Sys2Proof.Machine
end

