-- ==== Sys2Proof/Laws/State.lean ====
section
/-! SUPPORT. Beside `State`: what each named update leaves in each field, by unfolding it once, and what a register, a field, a
bit or a byte reads after a write. -/

namespace Sys2Proof.Machine

/-! ### setReg -/

@[simp] theorem State.setReg_pending (s : State) (k : Nat) (v : Word) : (s.setReg k v).pending = s.pending := rfl
@[simp] theorem State.setReg_mem (s : State) (k : Nat) (v : Word) : (s.setReg k v).mem = s.mem := rfl
@[simp] theorem State.setReg_inflight (s : State) (k : Nat) (v : Word) : (s.setReg k v).inflight = s.inflight := rfl
@[simp] theorem State.setReg_slot (s : State) (k : Nat) (v : Word) : (s.setReg k v).slot = s.slot := rfl
@[simp] theorem State.setReg_now (s : State) (k : Nat) (v : Word) : (s.setReg k v).now = s.now := rfl
@[simp] theorem State.setReg_prevAng (s : State) (k : Nat) (v : Word) : (s.setReg k v).prevAng = s.prevAng := rfl
@[simp] theorem State.setReg_d2dUp (s : State) (k : Nat) (v : Word) : (s.setReg k v).d2dUp = s.d2dUp := rfl
@[simp] theorem State.setReg_whl (s : State) (k : Nat) (v : Word) : (s.setReg k v).whl = s.whl := rfl
@[simp] theorem State.setReg_echo (s : State) (k : Nat) (v : Word) : (s.setReg k v).echo = s.echo := rfl
@[simp] theorem State.setReg_obs (s : State) (k : Nat) (v : Word) : (s.setReg k v).obs = s.obs := rfl
@[simp] theorem State.setReg_sync (s : State) (k : Nat) (v : Word) : (s.setReg k v).sync = s.sync := rfl
@[simp] theorem State.setReg_calq (s : State) (k : Nat) (v : Word) : (s.setReg k v).calq = s.calq := rfl
@[simp] theorem State.setReg_stage (s : State) (k : Nat) (v : Word) : (s.setReg k v).stage = s.stage := rfl
@[simp] theorem State.setReg_aborts (s : State) (k : Nat) (v : Word) : (s.setReg k v).aborts = s.aborts := rfl
@[simp] theorem State.setReg_calEnt (s : State) (k : Nat) (v : Word) : (s.setReg k v).calEnt = s.calEnt := rfl
@[simp] theorem State.setReg_walked (s : State) (k : Nat) (v : Word) : (s.setReg k v).walked = s.walked := rfl
@[simp] theorem State.setReg_outCh (s : State) (k : Nat) (v : Word) : (s.setReg k v).outCh = s.outCh := rfl
@[simp] theorem State.setReg_cyc (s : State) (k : Nat) (v : Word) : (s.setReg k v).cyc = s.cyc := rfl
@[simp] theorem State.setReg_threads (s : State) (k : Nat) (v : Word) : (s.setReg k v).threads = s.threads := rfl
@[simp] theorem State.setReg_trimB (s : State) (k : Nat) (v : Word) : (s.setReg k v).trimB = s.trimB := rfl
@[simp] theorem State.setReg_meters (s : State) (k : Nat) (v : Word) : (s.setReg k v).meters = s.meters := rfl
@[simp] theorem State.setReg_frameNo (s : State) (k : Nat) (v : Word) : (s.setReg k v).frameNo = s.frameNo := rfl
@[simp] theorem State.setReg_budFrame (s : State) (k : Nat) (v : Word) : (s.setReg k v).budFrame = s.budFrame := rfl
@[simp] theorem State.setReg_irq (s : State) (k : Nat) (v : Word) : (s.setReg k v).irq = s.irq := rfl
@[simp] theorem State.setReg_tmr (s : State) (k : Nat) (v : Word) : (s.setReg k v).tmr = s.tmr := rfl
@[simp] theorem State.setReg_inj (s : State) (k : Nat) (v : Word) : (s.setReg k v).inj = s.inj := rfl
@[simp] theorem State.setReg_drive (s : State) (k : Nat) (v : Word) : (s.setReg k v).drive = s.drive := rfl
@[simp] theorem State.setReg_pwm (s : State) (k : Nat) (v : Word) : (s.setReg k v).pwm = s.pwm := rfl
@[simp] theorem State.setReg_rampAt (s : State) (k : Nat) (v : Word) : (s.setReg k v).rampAt = s.rampAt := rfl
@[simp] theorem State.setReg_fadc (s : State) (k : Nat) (v : Word) : (s.setReg k v).fadc = s.fadc := rfl
@[simp] theorem State.setReg_padc (s : State) (k : Nat) (v : Word) : (s.setReg k v).padc = s.padc := rfl
@[simp] theorem State.setReg_faWatch (s : State) (k : Nat) (v : Word) : (s.setReg k v).faWatch = s.faWatch := rfl
@[simp] theorem State.setReg_paWatch (s : State) (k : Nat) (v : Word) : (s.setReg k v).paWatch = s.paWatch := rfl
@[simp] theorem State.setReg_mains (s : State) (k : Nat) (v : Word) : (s.setReg k v).mains = s.mains := rfl
@[simp] theorem State.setReg_cmb (s : State) (k : Nat) (v : Word) : (s.setReg k v).cmb = s.cmb := rfl
@[simp] theorem State.setReg_chn (s : State) (k : Nat) (v : Word) : (s.setReg k v).chn = s.chn := rfl
@[simp] theorem State.setReg_eth (s : State) (k : Nat) (v : Word) : (s.setReg k v).eth = s.eth := rfl
@[simp] theorem State.setReg_can (s : State) (k : Nat) (v : Word) : (s.setReg k v).can = s.can := rfl
@[simp] theorem State.setReg_spi (s : State) (k : Nat) (v : Word) : (s.setReg k v).spi = s.spi := rfl
@[simp] theorem State.setReg_lkt (s : State) (k : Nat) (v : Word) : (s.setReg k v).lkt = s.lkt := rfl
@[simp] theorem State.setReg_boot (s : State) (k : Nat) (v : Word) : (s.setReg k v).boot = s.boot := rfl
@[simp] theorem State.setReg_enrol (s : State) (k : Nat) (v : Word) : (s.setReg k v).enrol = s.enrol := rfl
@[simp] theorem State.setReg_pairs (s : State) (k : Nat) (v : Word) : (s.setReg k v).pairs = s.pairs := rfl
@[simp] theorem State.setReg_fabric (s : State) (k : Nat) (v : Word) : (s.setReg k v).fabric = s.fabric := rfl
@[simp] theorem State.setReg_flt (s : State) (k : Nat) (v : Word) : (s.setReg k v).flt = s.flt := rfl
@[simp] theorem State.setReg_sys (s : State) (k : Nat) (v : Word) : (s.setReg k v).sys = s.sys := rfl
@[simp] theorem State.setReg_dbg (s : State) (k : Nat) (v : Word) : (s.setReg k v).dbg = s.dbg := rfl
@[simp] theorem State.setReg_answer (s : State) (k : Nat) (v : Word) : (s.setReg k v).answer = s.answer := rfl
@[simp] theorem State.setReg_freeUses (s : State) (k : Nat) (v : Word) : (s.setReg k v).freeUses = s.freeUses := rfl

/-! ### setFld -/

@[simp] theorem State.setFld_pending (s : State) (k : Nat) (f : Fld) (v : Nat) : (s.setFld k f v).pending = s.pending := rfl
@[simp] theorem State.setFld_mem (s : State) (k : Nat) (f : Fld) (v : Nat) : (s.setFld k f v).mem = s.mem := rfl
@[simp] theorem State.setFld_inflight (s : State) (k : Nat) (f : Fld) (v : Nat) : (s.setFld k f v).inflight = s.inflight := rfl
@[simp] theorem State.setFld_slot (s : State) (k : Nat) (f : Fld) (v : Nat) : (s.setFld k f v).slot = s.slot := rfl
@[simp] theorem State.setFld_now (s : State) (k : Nat) (f : Fld) (v : Nat) : (s.setFld k f v).now = s.now := rfl
@[simp] theorem State.setFld_prevAng (s : State) (k : Nat) (f : Fld) (v : Nat) : (s.setFld k f v).prevAng = s.prevAng := rfl
@[simp] theorem State.setFld_d2dUp (s : State) (k : Nat) (f : Fld) (v : Nat) : (s.setFld k f v).d2dUp = s.d2dUp := rfl
@[simp] theorem State.setFld_whl (s : State) (k : Nat) (f : Fld) (v : Nat) : (s.setFld k f v).whl = s.whl := rfl
@[simp] theorem State.setFld_echo (s : State) (k : Nat) (f : Fld) (v : Nat) : (s.setFld k f v).echo = s.echo := rfl
@[simp] theorem State.setFld_obs (s : State) (k : Nat) (f : Fld) (v : Nat) : (s.setFld k f v).obs = s.obs := rfl
@[simp] theorem State.setFld_sync (s : State) (k : Nat) (f : Fld) (v : Nat) : (s.setFld k f v).sync = s.sync := rfl
@[simp] theorem State.setFld_calq (s : State) (k : Nat) (f : Fld) (v : Nat) : (s.setFld k f v).calq = s.calq := rfl
@[simp] theorem State.setFld_stage (s : State) (k : Nat) (f : Fld) (v : Nat) : (s.setFld k f v).stage = s.stage := rfl
@[simp] theorem State.setFld_aborts (s : State) (k : Nat) (f : Fld) (v : Nat) : (s.setFld k f v).aborts = s.aborts := rfl
@[simp] theorem State.setFld_calEnt (s : State) (k : Nat) (f : Fld) (v : Nat) : (s.setFld k f v).calEnt = s.calEnt := rfl
@[simp] theorem State.setFld_walked (s : State) (k : Nat) (f : Fld) (v : Nat) : (s.setFld k f v).walked = s.walked := rfl
@[simp] theorem State.setFld_outCh (s : State) (k : Nat) (f : Fld) (v : Nat) : (s.setFld k f v).outCh = s.outCh := rfl
@[simp] theorem State.setFld_cyc (s : State) (k : Nat) (f : Fld) (v : Nat) : (s.setFld k f v).cyc = s.cyc := rfl
@[simp] theorem State.setFld_threads (s : State) (k : Nat) (f : Fld) (v : Nat) : (s.setFld k f v).threads = s.threads := rfl
@[simp] theorem State.setFld_trimB (s : State) (k : Nat) (f : Fld) (v : Nat) : (s.setFld k f v).trimB = s.trimB := rfl
@[simp] theorem State.setFld_meters (s : State) (k : Nat) (f : Fld) (v : Nat) : (s.setFld k f v).meters = s.meters := rfl
@[simp] theorem State.setFld_frameNo (s : State) (k : Nat) (f : Fld) (v : Nat) : (s.setFld k f v).frameNo = s.frameNo := rfl
@[simp] theorem State.setFld_budFrame (s : State) (k : Nat) (f : Fld) (v : Nat) : (s.setFld k f v).budFrame = s.budFrame := rfl
@[simp] theorem State.setFld_irq (s : State) (k : Nat) (f : Fld) (v : Nat) : (s.setFld k f v).irq = s.irq := rfl
@[simp] theorem State.setFld_tmr (s : State) (k : Nat) (f : Fld) (v : Nat) : (s.setFld k f v).tmr = s.tmr := rfl
@[simp] theorem State.setFld_inj (s : State) (k : Nat) (f : Fld) (v : Nat) : (s.setFld k f v).inj = s.inj := rfl
@[simp] theorem State.setFld_drive (s : State) (k : Nat) (f : Fld) (v : Nat) : (s.setFld k f v).drive = s.drive := rfl
@[simp] theorem State.setFld_pwm (s : State) (k : Nat) (f : Fld) (v : Nat) : (s.setFld k f v).pwm = s.pwm := rfl
@[simp] theorem State.setFld_rampAt (s : State) (k : Nat) (f : Fld) (v : Nat) : (s.setFld k f v).rampAt = s.rampAt := rfl
@[simp] theorem State.setFld_fadc (s : State) (k : Nat) (f : Fld) (v : Nat) : (s.setFld k f v).fadc = s.fadc := rfl
@[simp] theorem State.setFld_padc (s : State) (k : Nat) (f : Fld) (v : Nat) : (s.setFld k f v).padc = s.padc := rfl
@[simp] theorem State.setFld_faWatch (s : State) (k : Nat) (f : Fld) (v : Nat) : (s.setFld k f v).faWatch = s.faWatch := rfl
@[simp] theorem State.setFld_paWatch (s : State) (k : Nat) (f : Fld) (v : Nat) : (s.setFld k f v).paWatch = s.paWatch := rfl
@[simp] theorem State.setFld_mains (s : State) (k : Nat) (f : Fld) (v : Nat) : (s.setFld k f v).mains = s.mains := rfl
@[simp] theorem State.setFld_cmb (s : State) (k : Nat) (f : Fld) (v : Nat) : (s.setFld k f v).cmb = s.cmb := rfl
@[simp] theorem State.setFld_chn (s : State) (k : Nat) (f : Fld) (v : Nat) : (s.setFld k f v).chn = s.chn := rfl
@[simp] theorem State.setFld_eth (s : State) (k : Nat) (f : Fld) (v : Nat) : (s.setFld k f v).eth = s.eth := rfl
@[simp] theorem State.setFld_can (s : State) (k : Nat) (f : Fld) (v : Nat) : (s.setFld k f v).can = s.can := rfl
@[simp] theorem State.setFld_spi (s : State) (k : Nat) (f : Fld) (v : Nat) : (s.setFld k f v).spi = s.spi := rfl
@[simp] theorem State.setFld_lkt (s : State) (k : Nat) (f : Fld) (v : Nat) : (s.setFld k f v).lkt = s.lkt := rfl
@[simp] theorem State.setFld_boot (s : State) (k : Nat) (f : Fld) (v : Nat) : (s.setFld k f v).boot = s.boot := rfl
@[simp] theorem State.setFld_enrol (s : State) (k : Nat) (f : Fld) (v : Nat) : (s.setFld k f v).enrol = s.enrol := rfl
@[simp] theorem State.setFld_pairs (s : State) (k : Nat) (f : Fld) (v : Nat) : (s.setFld k f v).pairs = s.pairs := rfl
@[simp] theorem State.setFld_fabric (s : State) (k : Nat) (f : Fld) (v : Nat) : (s.setFld k f v).fabric = s.fabric := rfl
@[simp] theorem State.setFld_flt (s : State) (k : Nat) (f : Fld) (v : Nat) : (s.setFld k f v).flt = s.flt := rfl
@[simp] theorem State.setFld_sys (s : State) (k : Nat) (f : Fld) (v : Nat) : (s.setFld k f v).sys = s.sys := rfl
@[simp] theorem State.setFld_dbg (s : State) (k : Nat) (f : Fld) (v : Nat) : (s.setFld k f v).dbg = s.dbg := rfl
@[simp] theorem State.setFld_answer (s : State) (k : Nat) (f : Fld) (v : Nat) : (s.setFld k f v).answer = s.answer := rfl
@[simp] theorem State.setFld_freeUses (s : State) (k : Nat) (f : Fld) (v : Nat) : (s.setFld k f v).freeUses = s.freeUses := rfl

/-! ### setBit -/

@[simp] theorem State.setBit_pending (s : State) (k i : Nat) (b : Bool) : (s.setBit k i b).pending = s.pending := rfl
@[simp] theorem State.setBit_mem (s : State) (k i : Nat) (b : Bool) : (s.setBit k i b).mem = s.mem := rfl
@[simp] theorem State.setBit_inflight (s : State) (k i : Nat) (b : Bool) : (s.setBit k i b).inflight = s.inflight := rfl
@[simp] theorem State.setBit_slot (s : State) (k i : Nat) (b : Bool) : (s.setBit k i b).slot = s.slot := rfl
@[simp] theorem State.setBit_now (s : State) (k i : Nat) (b : Bool) : (s.setBit k i b).now = s.now := rfl
@[simp] theorem State.setBit_prevAng (s : State) (k i : Nat) (b : Bool) : (s.setBit k i b).prevAng = s.prevAng := rfl
@[simp] theorem State.setBit_d2dUp (s : State) (k i : Nat) (b : Bool) : (s.setBit k i b).d2dUp = s.d2dUp := rfl
@[simp] theorem State.setBit_whl (s : State) (k i : Nat) (b : Bool) : (s.setBit k i b).whl = s.whl := rfl
@[simp] theorem State.setBit_echo (s : State) (k i : Nat) (b : Bool) : (s.setBit k i b).echo = s.echo := rfl
@[simp] theorem State.setBit_obs (s : State) (k i : Nat) (b : Bool) : (s.setBit k i b).obs = s.obs := rfl
@[simp] theorem State.setBit_sync (s : State) (k i : Nat) (b : Bool) : (s.setBit k i b).sync = s.sync := rfl
@[simp] theorem State.setBit_calq (s : State) (k i : Nat) (b : Bool) : (s.setBit k i b).calq = s.calq := rfl
@[simp] theorem State.setBit_stage (s : State) (k i : Nat) (b : Bool) : (s.setBit k i b).stage = s.stage := rfl
@[simp] theorem State.setBit_aborts (s : State) (k i : Nat) (b : Bool) : (s.setBit k i b).aborts = s.aborts := rfl
@[simp] theorem State.setBit_calEnt (s : State) (k i : Nat) (b : Bool) : (s.setBit k i b).calEnt = s.calEnt := rfl
@[simp] theorem State.setBit_walked (s : State) (k i : Nat) (b : Bool) : (s.setBit k i b).walked = s.walked := rfl
@[simp] theorem State.setBit_outCh (s : State) (k i : Nat) (b : Bool) : (s.setBit k i b).outCh = s.outCh := rfl
@[simp] theorem State.setBit_cyc (s : State) (k i : Nat) (b : Bool) : (s.setBit k i b).cyc = s.cyc := rfl
@[simp] theorem State.setBit_threads (s : State) (k i : Nat) (b : Bool) : (s.setBit k i b).threads = s.threads := rfl
@[simp] theorem State.setBit_trimB (s : State) (k i : Nat) (b : Bool) : (s.setBit k i b).trimB = s.trimB := rfl
@[simp] theorem State.setBit_meters (s : State) (k i : Nat) (b : Bool) : (s.setBit k i b).meters = s.meters := rfl
@[simp] theorem State.setBit_frameNo (s : State) (k i : Nat) (b : Bool) : (s.setBit k i b).frameNo = s.frameNo := rfl
@[simp] theorem State.setBit_budFrame (s : State) (k i : Nat) (b : Bool) : (s.setBit k i b).budFrame = s.budFrame := rfl
@[simp] theorem State.setBit_irq (s : State) (k i : Nat) (b : Bool) : (s.setBit k i b).irq = s.irq := rfl
@[simp] theorem State.setBit_tmr (s : State) (k i : Nat) (b : Bool) : (s.setBit k i b).tmr = s.tmr := rfl
@[simp] theorem State.setBit_inj (s : State) (k i : Nat) (b : Bool) : (s.setBit k i b).inj = s.inj := rfl
@[simp] theorem State.setBit_drive (s : State) (k i : Nat) (b : Bool) : (s.setBit k i b).drive = s.drive := rfl
@[simp] theorem State.setBit_pwm (s : State) (k i : Nat) (b : Bool) : (s.setBit k i b).pwm = s.pwm := rfl
@[simp] theorem State.setBit_rampAt (s : State) (k i : Nat) (b : Bool) : (s.setBit k i b).rampAt = s.rampAt := rfl
@[simp] theorem State.setBit_fadc (s : State) (k i : Nat) (b : Bool) : (s.setBit k i b).fadc = s.fadc := rfl
@[simp] theorem State.setBit_padc (s : State) (k i : Nat) (b : Bool) : (s.setBit k i b).padc = s.padc := rfl
@[simp] theorem State.setBit_faWatch (s : State) (k i : Nat) (b : Bool) : (s.setBit k i b).faWatch = s.faWatch := rfl
@[simp] theorem State.setBit_paWatch (s : State) (k i : Nat) (b : Bool) : (s.setBit k i b).paWatch = s.paWatch := rfl
@[simp] theorem State.setBit_mains (s : State) (k i : Nat) (b : Bool) : (s.setBit k i b).mains = s.mains := rfl
@[simp] theorem State.setBit_cmb (s : State) (k i : Nat) (b : Bool) : (s.setBit k i b).cmb = s.cmb := rfl
@[simp] theorem State.setBit_chn (s : State) (k i : Nat) (b : Bool) : (s.setBit k i b).chn = s.chn := rfl
@[simp] theorem State.setBit_eth (s : State) (k i : Nat) (b : Bool) : (s.setBit k i b).eth = s.eth := rfl
@[simp] theorem State.setBit_can (s : State) (k i : Nat) (b : Bool) : (s.setBit k i b).can = s.can := rfl
@[simp] theorem State.setBit_spi (s : State) (k i : Nat) (b : Bool) : (s.setBit k i b).spi = s.spi := rfl
@[simp] theorem State.setBit_lkt (s : State) (k i : Nat) (b : Bool) : (s.setBit k i b).lkt = s.lkt := rfl
@[simp] theorem State.setBit_boot (s : State) (k i : Nat) (b : Bool) : (s.setBit k i b).boot = s.boot := rfl
@[simp] theorem State.setBit_enrol (s : State) (k i : Nat) (b : Bool) : (s.setBit k i b).enrol = s.enrol := rfl
@[simp] theorem State.setBit_pairs (s : State) (k i : Nat) (b : Bool) : (s.setBit k i b).pairs = s.pairs := rfl
@[simp] theorem State.setBit_fabric (s : State) (k i : Nat) (b : Bool) : (s.setBit k i b).fabric = s.fabric := rfl
@[simp] theorem State.setBit_flt (s : State) (k i : Nat) (b : Bool) : (s.setBit k i b).flt = s.flt := rfl
@[simp] theorem State.setBit_sys (s : State) (k i : Nat) (b : Bool) : (s.setBit k i b).sys = s.sys := rfl
@[simp] theorem State.setBit_dbg (s : State) (k i : Nat) (b : Bool) : (s.setBit k i b).dbg = s.dbg := rfl
@[simp] theorem State.setBit_answer (s : State) (k i : Nat) (b : Bool) : (s.setBit k i b).answer = s.answer := rfl
@[simp] theorem State.setBit_freeUses (s : State) (k i : Nat) (b : Bool) : (s.setBit k i b).freeUses = s.freeUses := rfl

/-! ### count -/

@[simp] theorem State.count_pending (s : State) (k : Nat) (f : Fld) (n : Nat) : (s.count k f n).pending = s.pending := rfl
@[simp] theorem State.count_mem (s : State) (k : Nat) (f : Fld) (n : Nat) : (s.count k f n).mem = s.mem := rfl
@[simp] theorem State.count_inflight (s : State) (k : Nat) (f : Fld) (n : Nat) : (s.count k f n).inflight = s.inflight := rfl
@[simp] theorem State.count_slot (s : State) (k : Nat) (f : Fld) (n : Nat) : (s.count k f n).slot = s.slot := rfl
@[simp] theorem State.count_now (s : State) (k : Nat) (f : Fld) (n : Nat) : (s.count k f n).now = s.now := rfl
@[simp] theorem State.count_prevAng (s : State) (k : Nat) (f : Fld) (n : Nat) : (s.count k f n).prevAng = s.prevAng := rfl
@[simp] theorem State.count_d2dUp (s : State) (k : Nat) (f : Fld) (n : Nat) : (s.count k f n).d2dUp = s.d2dUp := rfl
@[simp] theorem State.count_whl (s : State) (k : Nat) (f : Fld) (n : Nat) : (s.count k f n).whl = s.whl := rfl
@[simp] theorem State.count_echo (s : State) (k : Nat) (f : Fld) (n : Nat) : (s.count k f n).echo = s.echo := rfl
@[simp] theorem State.count_obs (s : State) (k : Nat) (f : Fld) (n : Nat) : (s.count k f n).obs = s.obs := rfl
@[simp] theorem State.count_sync (s : State) (k : Nat) (f : Fld) (n : Nat) : (s.count k f n).sync = s.sync := rfl
@[simp] theorem State.count_calq (s : State) (k : Nat) (f : Fld) (n : Nat) : (s.count k f n).calq = s.calq := rfl
@[simp] theorem State.count_stage (s : State) (k : Nat) (f : Fld) (n : Nat) : (s.count k f n).stage = s.stage := rfl
@[simp] theorem State.count_aborts (s : State) (k : Nat) (f : Fld) (n : Nat) : (s.count k f n).aborts = s.aborts := rfl
@[simp] theorem State.count_calEnt (s : State) (k : Nat) (f : Fld) (n : Nat) : (s.count k f n).calEnt = s.calEnt := rfl
@[simp] theorem State.count_walked (s : State) (k : Nat) (f : Fld) (n : Nat) : (s.count k f n).walked = s.walked := rfl
@[simp] theorem State.count_outCh (s : State) (k : Nat) (f : Fld) (n : Nat) : (s.count k f n).outCh = s.outCh := rfl
@[simp] theorem State.count_cyc (s : State) (k : Nat) (f : Fld) (n : Nat) : (s.count k f n).cyc = s.cyc := rfl
@[simp] theorem State.count_threads (s : State) (k : Nat) (f : Fld) (n : Nat) : (s.count k f n).threads = s.threads := rfl
@[simp] theorem State.count_trimB (s : State) (k : Nat) (f : Fld) (n : Nat) : (s.count k f n).trimB = s.trimB := rfl
@[simp] theorem State.count_meters (s : State) (k : Nat) (f : Fld) (n : Nat) : (s.count k f n).meters = s.meters := rfl
@[simp] theorem State.count_frameNo (s : State) (k : Nat) (f : Fld) (n : Nat) : (s.count k f n).frameNo = s.frameNo := rfl
@[simp] theorem State.count_budFrame (s : State) (k : Nat) (f : Fld) (n : Nat) : (s.count k f n).budFrame = s.budFrame := rfl
@[simp] theorem State.count_irq (s : State) (k : Nat) (f : Fld) (n : Nat) : (s.count k f n).irq = s.irq := rfl
@[simp] theorem State.count_tmr (s : State) (k : Nat) (f : Fld) (n : Nat) : (s.count k f n).tmr = s.tmr := rfl
@[simp] theorem State.count_inj (s : State) (k : Nat) (f : Fld) (n : Nat) : (s.count k f n).inj = s.inj := rfl
@[simp] theorem State.count_drive (s : State) (k : Nat) (f : Fld) (n : Nat) : (s.count k f n).drive = s.drive := rfl
@[simp] theorem State.count_pwm (s : State) (k : Nat) (f : Fld) (n : Nat) : (s.count k f n).pwm = s.pwm := rfl
@[simp] theorem State.count_rampAt (s : State) (k : Nat) (f : Fld) (n : Nat) : (s.count k f n).rampAt = s.rampAt := rfl
@[simp] theorem State.count_fadc (s : State) (k : Nat) (f : Fld) (n : Nat) : (s.count k f n).fadc = s.fadc := rfl
@[simp] theorem State.count_padc (s : State) (k : Nat) (f : Fld) (n : Nat) : (s.count k f n).padc = s.padc := rfl
@[simp] theorem State.count_faWatch (s : State) (k : Nat) (f : Fld) (n : Nat) : (s.count k f n).faWatch = s.faWatch := rfl
@[simp] theorem State.count_paWatch (s : State) (k : Nat) (f : Fld) (n : Nat) : (s.count k f n).paWatch = s.paWatch := rfl
@[simp] theorem State.count_mains (s : State) (k : Nat) (f : Fld) (n : Nat) : (s.count k f n).mains = s.mains := rfl
@[simp] theorem State.count_cmb (s : State) (k : Nat) (f : Fld) (n : Nat) : (s.count k f n).cmb = s.cmb := rfl
@[simp] theorem State.count_chn (s : State) (k : Nat) (f : Fld) (n : Nat) : (s.count k f n).chn = s.chn := rfl
@[simp] theorem State.count_eth (s : State) (k : Nat) (f : Fld) (n : Nat) : (s.count k f n).eth = s.eth := rfl
@[simp] theorem State.count_can (s : State) (k : Nat) (f : Fld) (n : Nat) : (s.count k f n).can = s.can := rfl
@[simp] theorem State.count_spi (s : State) (k : Nat) (f : Fld) (n : Nat) : (s.count k f n).spi = s.spi := rfl
@[simp] theorem State.count_lkt (s : State) (k : Nat) (f : Fld) (n : Nat) : (s.count k f n).lkt = s.lkt := rfl
@[simp] theorem State.count_boot (s : State) (k : Nat) (f : Fld) (n : Nat) : (s.count k f n).boot = s.boot := rfl
@[simp] theorem State.count_enrol (s : State) (k : Nat) (f : Fld) (n : Nat) : (s.count k f n).enrol = s.enrol := rfl
@[simp] theorem State.count_pairs (s : State) (k : Nat) (f : Fld) (n : Nat) : (s.count k f n).pairs = s.pairs := rfl
@[simp] theorem State.count_fabric (s : State) (k : Nat) (f : Fld) (n : Nat) : (s.count k f n).fabric = s.fabric := rfl
@[simp] theorem State.count_flt (s : State) (k : Nat) (f : Fld) (n : Nat) : (s.count k f n).flt = s.flt := rfl
@[simp] theorem State.count_sys (s : State) (k : Nat) (f : Fld) (n : Nat) : (s.count k f n).sys = s.sys := rfl
@[simp] theorem State.count_dbg (s : State) (k : Nat) (f : Fld) (n : Nat) : (s.count k f n).dbg = s.dbg := rfl
@[simp] theorem State.count_answer (s : State) (k : Nat) (f : Fld) (n : Nat) : (s.count k f n).answer = s.answer := rfl
@[simp] theorem State.count_freeUses (s : State) (k : Nat) (f : Fld) (n : Nat) : (s.count k f n).freeUses = s.freeUses := rfl

/-! ### wr8 -/

@[simp] theorem State.wr8_pending (s : State) (a : Nat) (b : Byte) : (s.wr8 a b).pending = s.pending := rfl
@[simp] theorem State.wr8_regs (s : State) (a : Nat) (b : Byte) : (s.wr8 a b).regs = s.regs := rfl
@[simp] theorem State.wr8_inflight (s : State) (a : Nat) (b : Byte) : (s.wr8 a b).inflight = s.inflight := rfl
@[simp] theorem State.wr8_slot (s : State) (a : Nat) (b : Byte) : (s.wr8 a b).slot = s.slot := rfl
@[simp] theorem State.wr8_now (s : State) (a : Nat) (b : Byte) : (s.wr8 a b).now = s.now := rfl
@[simp] theorem State.wr8_prevAng (s : State) (a : Nat) (b : Byte) : (s.wr8 a b).prevAng = s.prevAng := rfl
@[simp] theorem State.wr8_d2dUp (s : State) (a : Nat) (b : Byte) : (s.wr8 a b).d2dUp = s.d2dUp := rfl
@[simp] theorem State.wr8_whl (s : State) (a : Nat) (b : Byte) : (s.wr8 a b).whl = s.whl := rfl
@[simp] theorem State.wr8_echo (s : State) (a : Nat) (b : Byte) : (s.wr8 a b).echo = s.echo := rfl
@[simp] theorem State.wr8_obs (s : State) (a : Nat) (b : Byte) : (s.wr8 a b).obs = s.obs := rfl
@[simp] theorem State.wr8_sync (s : State) (a : Nat) (b : Byte) : (s.wr8 a b).sync = s.sync := rfl
@[simp] theorem State.wr8_calq (s : State) (a : Nat) (b : Byte) : (s.wr8 a b).calq = s.calq := rfl
@[simp] theorem State.wr8_stage (s : State) (a : Nat) (b : Byte) : (s.wr8 a b).stage = s.stage := rfl
@[simp] theorem State.wr8_aborts (s : State) (a : Nat) (b : Byte) : (s.wr8 a b).aborts = s.aborts := rfl
@[simp] theorem State.wr8_calEnt (s : State) (a : Nat) (b : Byte) : (s.wr8 a b).calEnt = s.calEnt := rfl
@[simp] theorem State.wr8_walked (s : State) (a : Nat) (b : Byte) : (s.wr8 a b).walked = s.walked := rfl
@[simp] theorem State.wr8_outCh (s : State) (a : Nat) (b : Byte) : (s.wr8 a b).outCh = s.outCh := rfl
@[simp] theorem State.wr8_cyc (s : State) (a : Nat) (b : Byte) : (s.wr8 a b).cyc = s.cyc := rfl
@[simp] theorem State.wr8_threads (s : State) (a : Nat) (b : Byte) : (s.wr8 a b).threads = s.threads := rfl
@[simp] theorem State.wr8_trimB (s : State) (a : Nat) (b : Byte) : (s.wr8 a b).trimB = s.trimB := rfl
@[simp] theorem State.wr8_meters (s : State) (a : Nat) (b : Byte) : (s.wr8 a b).meters = s.meters := rfl
@[simp] theorem State.wr8_frameNo (s : State) (a : Nat) (b : Byte) : (s.wr8 a b).frameNo = s.frameNo := rfl
@[simp] theorem State.wr8_budFrame (s : State) (a : Nat) (b : Byte) : (s.wr8 a b).budFrame = s.budFrame := rfl
@[simp] theorem State.wr8_irq (s : State) (a : Nat) (b : Byte) : (s.wr8 a b).irq = s.irq := rfl
@[simp] theorem State.wr8_tmr (s : State) (a : Nat) (b : Byte) : (s.wr8 a b).tmr = s.tmr := rfl
@[simp] theorem State.wr8_inj (s : State) (a : Nat) (b : Byte) : (s.wr8 a b).inj = s.inj := rfl
@[simp] theorem State.wr8_drive (s : State) (a : Nat) (b : Byte) : (s.wr8 a b).drive = s.drive := rfl
@[simp] theorem State.wr8_pwm (s : State) (a : Nat) (b : Byte) : (s.wr8 a b).pwm = s.pwm := rfl
@[simp] theorem State.wr8_rampAt (s : State) (a : Nat) (b : Byte) : (s.wr8 a b).rampAt = s.rampAt := rfl
@[simp] theorem State.wr8_fadc (s : State) (a : Nat) (b : Byte) : (s.wr8 a b).fadc = s.fadc := rfl
@[simp] theorem State.wr8_padc (s : State) (a : Nat) (b : Byte) : (s.wr8 a b).padc = s.padc := rfl
@[simp] theorem State.wr8_faWatch (s : State) (a : Nat) (b : Byte) : (s.wr8 a b).faWatch = s.faWatch := rfl
@[simp] theorem State.wr8_paWatch (s : State) (a : Nat) (b : Byte) : (s.wr8 a b).paWatch = s.paWatch := rfl
@[simp] theorem State.wr8_mains (s : State) (a : Nat) (b : Byte) : (s.wr8 a b).mains = s.mains := rfl
@[simp] theorem State.wr8_cmb (s : State) (a : Nat) (b : Byte) : (s.wr8 a b).cmb = s.cmb := rfl
@[simp] theorem State.wr8_chn (s : State) (a : Nat) (b : Byte) : (s.wr8 a b).chn = s.chn := rfl
@[simp] theorem State.wr8_eth (s : State) (a : Nat) (b : Byte) : (s.wr8 a b).eth = s.eth := rfl
@[simp] theorem State.wr8_can (s : State) (a : Nat) (b : Byte) : (s.wr8 a b).can = s.can := rfl
@[simp] theorem State.wr8_spi (s : State) (a : Nat) (b : Byte) : (s.wr8 a b).spi = s.spi := rfl
@[simp] theorem State.wr8_lkt (s : State) (a : Nat) (b : Byte) : (s.wr8 a b).lkt = s.lkt := rfl
@[simp] theorem State.wr8_boot (s : State) (a : Nat) (b : Byte) : (s.wr8 a b).boot = s.boot := rfl
@[simp] theorem State.wr8_enrol (s : State) (a : Nat) (b : Byte) : (s.wr8 a b).enrol = s.enrol := rfl
@[simp] theorem State.wr8_pairs (s : State) (a : Nat) (b : Byte) : (s.wr8 a b).pairs = s.pairs := rfl
@[simp] theorem State.wr8_fabric (s : State) (a : Nat) (b : Byte) : (s.wr8 a b).fabric = s.fabric := rfl
@[simp] theorem State.wr8_flt (s : State) (a : Nat) (b : Byte) : (s.wr8 a b).flt = s.flt := rfl
@[simp] theorem State.wr8_sys (s : State) (a : Nat) (b : Byte) : (s.wr8 a b).sys = s.sys := rfl
@[simp] theorem State.wr8_dbg (s : State) (a : Nat) (b : Byte) : (s.wr8 a b).dbg = s.dbg := rfl
@[simp] theorem State.wr8_answer (s : State) (a : Nat) (b : Byte) : (s.wr8 a b).answer = s.answer := rfl
@[simp] theorem State.wr8_freeUses (s : State) (a : Nat) (b : Byte) : (s.wr8 a b).freeUses = s.freeUses := rfl

/-! ### launch -/

@[simp] theorem State.launch_pending (s : State) (i j : Island) (b : Body) : (s.launch i j b).pending = s.pending := rfl
@[simp] theorem State.launch_regs (s : State) (i j : Island) (b : Body) : (s.launch i j b).regs = s.regs := rfl
@[simp] theorem State.launch_mem (s : State) (i j : Island) (b : Body) : (s.launch i j b).mem = s.mem := rfl
@[simp] theorem State.launch_slot (s : State) (i j : Island) (b : Body) : (s.launch i j b).slot = s.slot := rfl
@[simp] theorem State.launch_now (s : State) (i j : Island) (b : Body) : (s.launch i j b).now = s.now := rfl
@[simp] theorem State.launch_prevAng (s : State) (i j : Island) (b : Body) : (s.launch i j b).prevAng = s.prevAng := rfl
@[simp] theorem State.launch_d2dUp (s : State) (i j : Island) (b : Body) : (s.launch i j b).d2dUp = s.d2dUp := rfl
@[simp] theorem State.launch_whl (s : State) (i j : Island) (b : Body) : (s.launch i j b).whl = s.whl := rfl
@[simp] theorem State.launch_echo (s : State) (i j : Island) (b : Body) : (s.launch i j b).echo = s.echo := rfl
@[simp] theorem State.launch_obs (s : State) (i j : Island) (b : Body) : (s.launch i j b).obs = s.obs := rfl
@[simp] theorem State.launch_sync (s : State) (i j : Island) (b : Body) : (s.launch i j b).sync = s.sync := rfl
@[simp] theorem State.launch_calq (s : State) (i j : Island) (b : Body) : (s.launch i j b).calq = s.calq := rfl
@[simp] theorem State.launch_stage (s : State) (i j : Island) (b : Body) : (s.launch i j b).stage = s.stage := rfl
@[simp] theorem State.launch_aborts (s : State) (i j : Island) (b : Body) : (s.launch i j b).aborts = s.aborts := rfl
@[simp] theorem State.launch_calEnt (s : State) (i j : Island) (b : Body) : (s.launch i j b).calEnt = s.calEnt := rfl
@[simp] theorem State.launch_walked (s : State) (i j : Island) (b : Body) : (s.launch i j b).walked = s.walked := rfl
@[simp] theorem State.launch_outCh (s : State) (i j : Island) (b : Body) : (s.launch i j b).outCh = s.outCh := rfl
@[simp] theorem State.launch_cyc (s : State) (i j : Island) (b : Body) : (s.launch i j b).cyc = s.cyc := rfl
@[simp] theorem State.launch_threads (s : State) (i j : Island) (b : Body) : (s.launch i j b).threads = s.threads := rfl
@[simp] theorem State.launch_trimB (s : State) (i j : Island) (b : Body) : (s.launch i j b).trimB = s.trimB := rfl
@[simp] theorem State.launch_meters (s : State) (i j : Island) (b : Body) : (s.launch i j b).meters = s.meters := rfl
@[simp] theorem State.launch_frameNo (s : State) (i j : Island) (b : Body) : (s.launch i j b).frameNo = s.frameNo := rfl
@[simp] theorem State.launch_budFrame (s : State) (i j : Island) (b : Body) : (s.launch i j b).budFrame = s.budFrame := rfl
@[simp] theorem State.launch_irq (s : State) (i j : Island) (b : Body) : (s.launch i j b).irq = s.irq := rfl
@[simp] theorem State.launch_tmr (s : State) (i j : Island) (b : Body) : (s.launch i j b).tmr = s.tmr := rfl
@[simp] theorem State.launch_inj (s : State) (i j : Island) (b : Body) : (s.launch i j b).inj = s.inj := rfl
@[simp] theorem State.launch_drive (s : State) (i j : Island) (b : Body) : (s.launch i j b).drive = s.drive := rfl
@[simp] theorem State.launch_pwm (s : State) (i j : Island) (b : Body) : (s.launch i j b).pwm = s.pwm := rfl
@[simp] theorem State.launch_rampAt (s : State) (i j : Island) (b : Body) : (s.launch i j b).rampAt = s.rampAt := rfl
@[simp] theorem State.launch_fadc (s : State) (i j : Island) (b : Body) : (s.launch i j b).fadc = s.fadc := rfl
@[simp] theorem State.launch_padc (s : State) (i j : Island) (b : Body) : (s.launch i j b).padc = s.padc := rfl
@[simp] theorem State.launch_faWatch (s : State) (i j : Island) (b : Body) : (s.launch i j b).faWatch = s.faWatch := rfl
@[simp] theorem State.launch_paWatch (s : State) (i j : Island) (b : Body) : (s.launch i j b).paWatch = s.paWatch := rfl
@[simp] theorem State.launch_mains (s : State) (i j : Island) (b : Body) : (s.launch i j b).mains = s.mains := rfl
@[simp] theorem State.launch_cmb (s : State) (i j : Island) (b : Body) : (s.launch i j b).cmb = s.cmb := rfl
@[simp] theorem State.launch_chn (s : State) (i j : Island) (b : Body) : (s.launch i j b).chn = s.chn := rfl
@[simp] theorem State.launch_eth (s : State) (i j : Island) (b : Body) : (s.launch i j b).eth = s.eth := rfl
@[simp] theorem State.launch_can (s : State) (i j : Island) (b : Body) : (s.launch i j b).can = s.can := rfl
@[simp] theorem State.launch_spi (s : State) (i j : Island) (b : Body) : (s.launch i j b).spi = s.spi := rfl
@[simp] theorem State.launch_lkt (s : State) (i j : Island) (b : Body) : (s.launch i j b).lkt = s.lkt := rfl
@[simp] theorem State.launch_boot (s : State) (i j : Island) (b : Body) : (s.launch i j b).boot = s.boot := rfl
@[simp] theorem State.launch_enrol (s : State) (i j : Island) (b : Body) : (s.launch i j b).enrol = s.enrol := rfl
@[simp] theorem State.launch_pairs (s : State) (i j : Island) (b : Body) : (s.launch i j b).pairs = s.pairs := rfl
@[simp] theorem State.launch_fabric (s : State) (i j : Island) (b : Body) : (s.launch i j b).fabric = s.fabric := rfl
@[simp] theorem State.launch_flt (s : State) (i j : Island) (b : Body) : (s.launch i j b).flt = s.flt := rfl
@[simp] theorem State.launch_sys (s : State) (i j : Island) (b : Body) : (s.launch i j b).sys = s.sys := rfl
@[simp] theorem State.launch_dbg (s : State) (i j : Island) (b : Body) : (s.launch i j b).dbg = s.dbg := rfl
@[simp] theorem State.launch_answer (s : State) (i j : Island) (b : Body) : (s.launch i j b).answer = s.answer := rfl
@[simp] theorem State.launch_freeUses (s : State) (i j : Island) (b : Body) : (s.launch i j b).freeUses = s.freeUses := rfl

/-! ### respond -/

@[simp] theorem State.respond_pending (s : State) (w : Word) (e : Bool) : (s.respond w e).pending = s.pending := rfl
@[simp] theorem State.respond_regs (s : State) (w : Word) (e : Bool) : (s.respond w e).regs = s.regs := rfl
@[simp] theorem State.respond_mem (s : State) (w : Word) (e : Bool) : (s.respond w e).mem = s.mem := rfl
@[simp] theorem State.respond_inflight (s : State) (w : Word) (e : Bool) : (s.respond w e).inflight = s.inflight := rfl
@[simp] theorem State.respond_slot (s : State) (w : Word) (e : Bool) : (s.respond w e).slot = s.slot := rfl
@[simp] theorem State.respond_now (s : State) (w : Word) (e : Bool) : (s.respond w e).now = s.now := rfl
@[simp] theorem State.respond_prevAng (s : State) (w : Word) (e : Bool) : (s.respond w e).prevAng = s.prevAng := rfl
@[simp] theorem State.respond_d2dUp (s : State) (w : Word) (e : Bool) : (s.respond w e).d2dUp = s.d2dUp := rfl
@[simp] theorem State.respond_whl (s : State) (w : Word) (e : Bool) : (s.respond w e).whl = s.whl := rfl
@[simp] theorem State.respond_echo (s : State) (w : Word) (e : Bool) : (s.respond w e).echo = s.echo := rfl
@[simp] theorem State.respond_obs (s : State) (w : Word) (e : Bool) : (s.respond w e).obs = s.obs := rfl
@[simp] theorem State.respond_sync (s : State) (w : Word) (e : Bool) : (s.respond w e).sync = s.sync := rfl
@[simp] theorem State.respond_calq (s : State) (w : Word) (e : Bool) : (s.respond w e).calq = s.calq := rfl
@[simp] theorem State.respond_stage (s : State) (w : Word) (e : Bool) : (s.respond w e).stage = s.stage := rfl
@[simp] theorem State.respond_aborts (s : State) (w : Word) (e : Bool) : (s.respond w e).aborts = s.aborts := rfl
@[simp] theorem State.respond_calEnt (s : State) (w : Word) (e : Bool) : (s.respond w e).calEnt = s.calEnt := rfl
@[simp] theorem State.respond_walked (s : State) (w : Word) (e : Bool) : (s.respond w e).walked = s.walked := rfl
@[simp] theorem State.respond_outCh (s : State) (w : Word) (e : Bool) : (s.respond w e).outCh = s.outCh := rfl
@[simp] theorem State.respond_cyc (s : State) (w : Word) (e : Bool) : (s.respond w e).cyc = s.cyc := rfl
@[simp] theorem State.respond_threads (s : State) (w : Word) (e : Bool) : (s.respond w e).threads = s.threads := rfl
@[simp] theorem State.respond_trimB (s : State) (w : Word) (e : Bool) : (s.respond w e).trimB = s.trimB := rfl
@[simp] theorem State.respond_meters (s : State) (w : Word) (e : Bool) : (s.respond w e).meters = s.meters := rfl
@[simp] theorem State.respond_frameNo (s : State) (w : Word) (e : Bool) : (s.respond w e).frameNo = s.frameNo := rfl
@[simp] theorem State.respond_budFrame (s : State) (w : Word) (e : Bool) : (s.respond w e).budFrame = s.budFrame := rfl
@[simp] theorem State.respond_irq (s : State) (w : Word) (e : Bool) : (s.respond w e).irq = s.irq := rfl
@[simp] theorem State.respond_tmr (s : State) (w : Word) (e : Bool) : (s.respond w e).tmr = s.tmr := rfl
@[simp] theorem State.respond_inj (s : State) (w : Word) (e : Bool) : (s.respond w e).inj = s.inj := rfl
@[simp] theorem State.respond_drive (s : State) (w : Word) (e : Bool) : (s.respond w e).drive = s.drive := rfl
@[simp] theorem State.respond_pwm (s : State) (w : Word) (e : Bool) : (s.respond w e).pwm = s.pwm := rfl
@[simp] theorem State.respond_rampAt (s : State) (w : Word) (e : Bool) : (s.respond w e).rampAt = s.rampAt := rfl
@[simp] theorem State.respond_fadc (s : State) (w : Word) (e : Bool) : (s.respond w e).fadc = s.fadc := rfl
@[simp] theorem State.respond_padc (s : State) (w : Word) (e : Bool) : (s.respond w e).padc = s.padc := rfl
@[simp] theorem State.respond_faWatch (s : State) (w : Word) (e : Bool) : (s.respond w e).faWatch = s.faWatch := rfl
@[simp] theorem State.respond_paWatch (s : State) (w : Word) (e : Bool) : (s.respond w e).paWatch = s.paWatch := rfl
@[simp] theorem State.respond_mains (s : State) (w : Word) (e : Bool) : (s.respond w e).mains = s.mains := rfl
@[simp] theorem State.respond_cmb (s : State) (w : Word) (e : Bool) : (s.respond w e).cmb = s.cmb := rfl
@[simp] theorem State.respond_chn (s : State) (w : Word) (e : Bool) : (s.respond w e).chn = s.chn := rfl
@[simp] theorem State.respond_eth (s : State) (w : Word) (e : Bool) : (s.respond w e).eth = s.eth := rfl
@[simp] theorem State.respond_can (s : State) (w : Word) (e : Bool) : (s.respond w e).can = s.can := rfl
@[simp] theorem State.respond_spi (s : State) (w : Word) (e : Bool) : (s.respond w e).spi = s.spi := rfl
@[simp] theorem State.respond_lkt (s : State) (w : Word) (e : Bool) : (s.respond w e).lkt = s.lkt := rfl
@[simp] theorem State.respond_boot (s : State) (w : Word) (e : Bool) : (s.respond w e).boot = s.boot := rfl
@[simp] theorem State.respond_enrol (s : State) (w : Word) (e : Bool) : (s.respond w e).enrol = s.enrol := rfl
@[simp] theorem State.respond_pairs (s : State) (w : Word) (e : Bool) : (s.respond w e).pairs = s.pairs := rfl
@[simp] theorem State.respond_fabric (s : State) (w : Word) (e : Bool) : (s.respond w e).fabric = s.fabric := rfl
@[simp] theorem State.respond_flt (s : State) (w : Word) (e : Bool) : (s.respond w e).flt = s.flt := rfl
@[simp] theorem State.respond_sys (s : State) (w : Word) (e : Bool) : (s.respond w e).sys = s.sys := rfl
@[simp] theorem State.respond_dbg (s : State) (w : Word) (e : Bool) : (s.respond w e).dbg = s.dbg := rfl
@[simp] theorem State.respond_freeUses (s : State) (w : Word) (e : Bool) : (s.respond w e).freeUses = s.freeUses := rfl

/-! ### Registers -/

@[simp] theorem State.reg_setReg_same (s : State) (k : Nat) (v : Word) : (s.setReg k v).reg k = v := by
  simp [State.reg, State.setReg]

theorem State.reg_setReg_ne (s : State) {k j : Nat} (v : Word) (h : j ≠ k) : (s.setReg k v).reg j = s.reg j := by
  simp [State.reg, State.setReg, tabGet_tabSet_ne _ _ _ h]

/-- What a register reads after a write of any register. -/
theorem State.reg_setReg (s : State) (k j : Nat) (v : Word) : (s.setReg k v).reg j = if j = k then v else s.reg j := by
  split
  · rename_i h; subst h; simp
  · rename_i h; exact s.reg_setReg_ne v h

@[simp] theorem State.reg_setFld_same (s : State) (k : Nat) (f : Fld) (v : Nat) :
    (s.setFld k f v).reg k = f.set (s.reg k) v := by simp [State.setFld]

theorem State.reg_setFld_ne (s : State) {k j : Nat} (f : Fld) (v : Nat) (h : j ≠ k) : (s.setFld k f v).reg j = s.reg j :=
  s.reg_setReg_ne _ h

theorem State.reg_setFld (s : State) (k j : Nat) (f : Fld) (v : Nat) :
    (s.setFld k f v).reg j = if j = k then f.set (s.reg k) v else s.reg j := s.reg_setReg k j _

@[simp] theorem State.reg_setBit_same (s : State) (k i : Nat) (b : Bool) :
    (s.setBit k i b).reg k = withBit (s.reg k) i b := by simp [State.setBit]

theorem State.reg_setBit_ne (s : State) {k j : Nat} (i : Nat) (b : Bool) (h : j ≠ k) : (s.setBit k i b).reg j = s.reg j :=
  s.reg_setReg_ne _ h

theorem State.reg_setBit (s : State) (k j i : Nat) (b : Bool) :
    (s.setBit k i b).reg j = if j = k then withBit (s.reg k) i b else s.reg j := s.reg_setReg k j _

@[simp] theorem State.reg_wr8 (s : State) (a : Nat) (b : Byte) (k : Nat) : (s.wr8 a b).reg k = s.reg k := rfl
@[simp] theorem State.reg_launch (s : State) (i j : Island) (b : Body) (k : Nat) : (s.launch i j b).reg k = s.reg k := rfl
@[simp] theorem State.reg_respond (s : State) (w : Word) (e : Bool) (k : Nat) : (s.respond w e).reg k = s.reg k := rfl

/-- A field of a register just set. -/
theorem State.fld_setFld_same (s : State) (k : Nat) (f : Fld) (v : Nat) (h : f.lo + f.w ≤ 32) :
    (s.setFld k f v).fld k f = v % 2 ^ f.w := by simp [State.fld, Fld.get_set_same _ _ _ h]

/-- Another field of the same register. -/
theorem State.fld_setFld_ne (s : State) (k : Nat) (f g : Fld) (v : Nat) (h : f.lo + f.w ≤ g.lo ∨ g.lo + g.w ≤ f.lo) :
    (s.setFld k f v).fld k g = s.fld k g := by simp [State.fld, Fld.get_set_ne _ _ _ _ h]

/-- A field of another register. -/
theorem State.fld_setReg_ne (s : State) {k j : Nat} (v : Word) (g : Fld) (h : j ≠ k) : (s.setReg k v).fld j g = s.fld j g := by
  simp [State.fld, State.reg_setReg_ne _ _ h]

/-- A bit just set. -/
theorem State.bit_setBit_same (s : State) (k i : Nat) (b : Bool) (h : i < 32) : (s.setBit k i b).bit k i = b := by
  simp [State.bit, bitOf_withBit_same _ _ _ h]

/-! ### What an update adds -/

theorem State.launch_inflight (s : State) (i j : Island) (b : Body) :
    (s.launch i j b).inflight = s.inflight ++ [⟨i, j, b⟩] := rfl

/-- An event sets its bit and sends one interrupt message; it changes nothing else. -/
theorem State.raise_spec (s : State) (evt bit : Nat) :
    s.raise evt bit = { s.setBit evt bit true with
      inflight := s.inflight ++ [⟨islandOf (blkOf evt), .policy, .irq (evtBase evt + bit) true true⟩] } := rfl

/-- A fault message leaves for the guard island; nothing else changes. -/
theorem State.sendFault_spec (s : State) (blk unit kind cls detail : Nat) :
    s.sendFault blk unit kind cls detail = { s with
      inflight := s.inflight ++ [⟨islandOf blk, .guard, .fault (faultWord blk unit kind cls 0 detail)⟩] } := rfl

/-! ### Memory -/

@[simp] theorem State.rd8_wr8_same (s : State) (a : Nat) (b : Byte) : (s.wr8 a b).rd8 a = b := by
  simp [State.rd8, State.wr8]

theorem State.rd8_wr8_ne (s : State) {a c : Nat} (b : Byte) (h : c ≠ a) : (s.wr8 a b).rd8 c = s.rd8 c := by
  simp [State.rd8, State.wr8, tabGet_tabSet_ne _ _ _ h]

@[simp] theorem State.rd8_setReg (s : State) (k : Nat) (v : Word) (a : Nat) : (s.setReg k v).rd8 a = s.rd8 a := rfl
@[simp] theorem State.rd8_launch (s : State) (i j : Island) (b : Body) (a : Nat) : (s.launch i j b).rd8 a = s.rd8 a := rfl

/-- A run of bytes written reads as before outside it. -/
theorem State.rd8_wrBytes_out (s : State) (a : Nat) (l : List Byte) (c : Nat) (h : c < a ∨ a + l.length ≤ c) :
    (s.wrBytes a l).rd8 c = s.rd8 c := by
  induction l generalizing s a with
  | nil => rfl
  | cons b t ih =>
    simp only [List.length_cons] at h
    simp only [State.wrBytes]
    rw [ih _ _ (by omega), State.rd8_wr8_ne _ _ (by omega)]

/-- A byte of the run written. -/
theorem State.rd8_wrBytes_in (s : State) (a : Nat) (l : List Byte) (i : Nat) (h : i < l.length) :
    (s.wrBytes a l).rd8 (a + i) = l[i] := by
  induction l generalizing s a i with
  | nil => simp at h
  | cons b t ih =>
    simp only [State.wrBytes]
    cases i with
    | zero => simp [State.rd8_wrBytes_out _ (a + 1) t a (by omega)]
    | succ i =>
      have := ih (s.wr8 a b) (a + 1) i (by simpa using h)
      rw [show a + (i + 1) = a + 1 + i by omega]; simpa using this

@[simp] theorem State.wrBytes_regs (s : State) (a : Nat) (l : List Byte) : (s.wrBytes a l).regs = s.regs := by
  induction l generalizing s a with
  | nil => rfl
  | cons b t ih => simp [State.wrBytes, ih]

@[simp] theorem State.wrBytes_pending (s : State) (a : Nat) (l : List Byte) : (s.wrBytes a l).pending = s.pending := by
  induction l generalizing s a with
  | nil => rfl
  | cons b t ih => simp [State.wrBytes, ih]

/-! ### The canonical form -/

theorem State.setReg_wf (s : State) (k : Nat) (v : Word) (h : tabWf resetOf s.regs = true) :
    tabWf resetOf (s.setReg k v).regs = true := tabWf_tabSet _ _ _ _ h

theorem State.wr8_wf (s : State) (a : Nat) (b : Byte) (h : Memory.wf s.mem = true) : Memory.wf (s.wr8 a b).mem = true :=
  tabWf_tabSet _ _ _ _ h

theorem State.wrBytes_wf (s : State) (a : Nat) (l : List Byte) (h : Memory.wf s.mem = true) :
    Memory.wf (s.wrBytes a l).mem = true := by
  induction l generalizing s a with
  | nil => exact h
  | cons b t ih => exact ih _ _ (s.wr8_wf a b h)

theorem State.reset_memory_wf : Memory.wf State.reset.mem = true := rfl

end Sys2Proof.Machine
end

