-- ==== Sys2Proof/Laws/Gental.lean ====
section
/-! SUPPORT. The issue of a Gental instruction: where the agent can issue it, it takes its effect in the issued state, and what the
issue itself changes. -/

namespace Sys2Proof.Machine

/-! ### Arrays of plain data -/

theorem vupd_self {α : Type} [Inhabited α] {n : Nat} (v : Vector α n) (i : Nat) (f : α → α) (h : f (vat v i) = vat v i) :
    vupd v i f = v := by
  apply Vector.ext
  intro j hj
  unfold vupd
  rw [Vector.getElem_ofFn]
  split
  · rename_i e
    simp only at e
    subst e
    rw [vat_lt v hj] at h
    exact h
  · rfl

/-! ### Budgets -/

@[simp] theorem State.budDraw_pending (s : State) (c : Option Nat) (r n : Nat) : (s.budDraw c r n).pending = s.pending := by unfold State.budDraw State.updMeter; cases c <;> simp
@[simp] theorem State.budDraw_regs (s : State) (c : Option Nat) (r n : Nat) : (s.budDraw c r n).regs = s.regs := by unfold State.budDraw State.updMeter; cases c <;> simp
@[simp] theorem State.budDraw_mem (s : State) (c : Option Nat) (r n : Nat) : (s.budDraw c r n).mem = s.mem := by unfold State.budDraw State.updMeter; cases c <;> simp
@[simp] theorem State.budDraw_inflight (s : State) (c : Option Nat) (r n : Nat) : (s.budDraw c r n).inflight = s.inflight := by unfold State.budDraw State.updMeter; cases c <;> simp
@[simp] theorem State.budDraw_slot (s : State) (c : Option Nat) (r n : Nat) : (s.budDraw c r n).slot = s.slot := by unfold State.budDraw State.updMeter; cases c <;> simp
@[simp] theorem State.budDraw_now (s : State) (c : Option Nat) (r n : Nat) : (s.budDraw c r n).now = s.now := by unfold State.budDraw State.updMeter; cases c <;> simp
@[simp] theorem State.budDraw_prevAng (s : State) (c : Option Nat) (r n : Nat) : (s.budDraw c r n).prevAng = s.prevAng := by unfold State.budDraw State.updMeter; cases c <;> simp
@[simp] theorem State.budDraw_d2dUp (s : State) (c : Option Nat) (r n : Nat) : (s.budDraw c r n).d2dUp = s.d2dUp := by unfold State.budDraw State.updMeter; cases c <;> simp
@[simp] theorem State.budDraw_whl (s : State) (c : Option Nat) (r n : Nat) : (s.budDraw c r n).whl = s.whl := by unfold State.budDraw State.updMeter; cases c <;> simp
@[simp] theorem State.budDraw_echo (s : State) (c : Option Nat) (r n : Nat) : (s.budDraw c r n).echo = s.echo := by unfold State.budDraw State.updMeter; cases c <;> simp
@[simp] theorem State.budDraw_obs (s : State) (c : Option Nat) (r n : Nat) : (s.budDraw c r n).obs = s.obs := by unfold State.budDraw State.updMeter; cases c <;> simp
@[simp] theorem State.budDraw_sync (s : State) (c : Option Nat) (r n : Nat) : (s.budDraw c r n).sync = s.sync := by unfold State.budDraw State.updMeter; cases c <;> simp
@[simp] theorem State.budDraw_calq (s : State) (c : Option Nat) (r n : Nat) : (s.budDraw c r n).calq = s.calq := by unfold State.budDraw State.updMeter; cases c <;> simp
@[simp] theorem State.budDraw_stage (s : State) (c : Option Nat) (r n : Nat) : (s.budDraw c r n).stage = s.stage := by unfold State.budDraw State.updMeter; cases c <;> simp
@[simp] theorem State.budDraw_aborts (s : State) (c : Option Nat) (r n : Nat) : (s.budDraw c r n).aborts = s.aborts := by unfold State.budDraw State.updMeter; cases c <;> simp
@[simp] theorem State.budDraw_calEnt (s : State) (c : Option Nat) (r n : Nat) : (s.budDraw c r n).calEnt = s.calEnt := by unfold State.budDraw State.updMeter; cases c <;> simp
@[simp] theorem State.budDraw_walked (s : State) (c : Option Nat) (r n : Nat) : (s.budDraw c r n).walked = s.walked := by unfold State.budDraw State.updMeter; cases c <;> simp
@[simp] theorem State.budDraw_outCh (s : State) (c : Option Nat) (r n : Nat) : (s.budDraw c r n).outCh = s.outCh := by unfold State.budDraw State.updMeter; cases c <;> simp
@[simp] theorem State.budDraw_cyc (s : State) (c : Option Nat) (r n : Nat) : (s.budDraw c r n).cyc = s.cyc := by unfold State.budDraw State.updMeter; cases c <;> simp
@[simp] theorem State.budDraw_threads (s : State) (c : Option Nat) (r n : Nat) : (s.budDraw c r n).threads = s.threads := by unfold State.budDraw State.updMeter; cases c <;> simp
@[simp] theorem State.budDraw_trimB (s : State) (c : Option Nat) (r n : Nat) : (s.budDraw c r n).trimB = s.trimB := by unfold State.budDraw State.updMeter; cases c <;> simp
@[simp] theorem State.budDraw_frameNo (s : State) (c : Option Nat) (r n : Nat) : (s.budDraw c r n).frameNo = s.frameNo := by unfold State.budDraw State.updMeter; cases c <;> simp
@[simp] theorem State.budDraw_budFrame (s : State) (c : Option Nat) (r n : Nat) : (s.budDraw c r n).budFrame = s.budFrame := by unfold State.budDraw State.updMeter; cases c <;> simp
@[simp] theorem State.budDraw_irq (s : State) (c : Option Nat) (r n : Nat) : (s.budDraw c r n).irq = s.irq := by unfold State.budDraw State.updMeter; cases c <;> simp
@[simp] theorem State.budDraw_tmr (s : State) (c : Option Nat) (r n : Nat) : (s.budDraw c r n).tmr = s.tmr := by unfold State.budDraw State.updMeter; cases c <;> simp
@[simp] theorem State.budDraw_inj (s : State) (c : Option Nat) (r n : Nat) : (s.budDraw c r n).inj = s.inj := by unfold State.budDraw State.updMeter; cases c <;> simp
@[simp] theorem State.budDraw_drive (s : State) (c : Option Nat) (r n : Nat) : (s.budDraw c r n).drive = s.drive := by unfold State.budDraw State.updMeter; cases c <;> simp
@[simp] theorem State.budDraw_pwm (s : State) (c : Option Nat) (r n : Nat) : (s.budDraw c r n).pwm = s.pwm := by unfold State.budDraw State.updMeter; cases c <;> simp
@[simp] theorem State.budDraw_rampAt (s : State) (c : Option Nat) (r n : Nat) : (s.budDraw c r n).rampAt = s.rampAt := by unfold State.budDraw State.updMeter; cases c <;> simp
@[simp] theorem State.budDraw_fadc (s : State) (c : Option Nat) (r n : Nat) : (s.budDraw c r n).fadc = s.fadc := by unfold State.budDraw State.updMeter; cases c <;> simp
@[simp] theorem State.budDraw_padc (s : State) (c : Option Nat) (r n : Nat) : (s.budDraw c r n).padc = s.padc := by unfold State.budDraw State.updMeter; cases c <;> simp
@[simp] theorem State.budDraw_faWatch (s : State) (c : Option Nat) (r n : Nat) : (s.budDraw c r n).faWatch = s.faWatch := by unfold State.budDraw State.updMeter; cases c <;> simp
@[simp] theorem State.budDraw_paWatch (s : State) (c : Option Nat) (r n : Nat) : (s.budDraw c r n).paWatch = s.paWatch := by unfold State.budDraw State.updMeter; cases c <;> simp
@[simp] theorem State.budDraw_mains (s : State) (c : Option Nat) (r n : Nat) : (s.budDraw c r n).mains = s.mains := by unfold State.budDraw State.updMeter; cases c <;> simp
@[simp] theorem State.budDraw_cmb (s : State) (c : Option Nat) (r n : Nat) : (s.budDraw c r n).cmb = s.cmb := by unfold State.budDraw State.updMeter; cases c <;> simp
@[simp] theorem State.budDraw_chn (s : State) (c : Option Nat) (r n : Nat) : (s.budDraw c r n).chn = s.chn := by unfold State.budDraw State.updMeter; cases c <;> simp
@[simp] theorem State.budDraw_eth (s : State) (c : Option Nat) (r n : Nat) : (s.budDraw c r n).eth = s.eth := by unfold State.budDraw State.updMeter; cases c <;> simp
@[simp] theorem State.budDraw_can (s : State) (c : Option Nat) (r n : Nat) : (s.budDraw c r n).can = s.can := by unfold State.budDraw State.updMeter; cases c <;> simp
@[simp] theorem State.budDraw_spi (s : State) (c : Option Nat) (r n : Nat) : (s.budDraw c r n).spi = s.spi := by unfold State.budDraw State.updMeter; cases c <;> simp
@[simp] theorem State.budDraw_lkt (s : State) (c : Option Nat) (r n : Nat) : (s.budDraw c r n).lkt = s.lkt := by unfold State.budDraw State.updMeter; cases c <;> simp
@[simp] theorem State.budDraw_boot (s : State) (c : Option Nat) (r n : Nat) : (s.budDraw c r n).boot = s.boot := by unfold State.budDraw State.updMeter; cases c <;> simp
@[simp] theorem State.budDraw_enrol (s : State) (c : Option Nat) (r n : Nat) : (s.budDraw c r n).enrol = s.enrol := by unfold State.budDraw State.updMeter; cases c <;> simp
@[simp] theorem State.budDraw_pairs (s : State) (c : Option Nat) (r n : Nat) : (s.budDraw c r n).pairs = s.pairs := by unfold State.budDraw State.updMeter; cases c <;> simp
@[simp] theorem State.budDraw_fabric (s : State) (c : Option Nat) (r n : Nat) : (s.budDraw c r n).fabric = s.fabric := by unfold State.budDraw State.updMeter; cases c <;> simp
@[simp] theorem State.budDraw_flt (s : State) (c : Option Nat) (r n : Nat) : (s.budDraw c r n).flt = s.flt := by unfold State.budDraw State.updMeter; cases c <;> simp
@[simp] theorem State.budDraw_sys (s : State) (c : Option Nat) (r n : Nat) : (s.budDraw c r n).sys = s.sys := by unfold State.budDraw State.updMeter; cases c <;> simp
@[simp] theorem State.budDraw_dbg (s : State) (c : Option Nat) (r n : Nat) : (s.budDraw c r n).dbg = s.dbg := by unfold State.budDraw State.updMeter; cases c <;> simp
@[simp] theorem State.budDraw_answer (s : State) (c : Option Nat) (r n : Nat) : (s.budDraw c r n).answer = s.answer := by unfold State.budDraw State.updMeter; cases c <;> simp
@[simp] theorem State.budDraw_freeUses (s : State) (c : Option Nat) (r n : Nat) : (s.budDraw c r n).freeUses = s.freeUses := by unfold State.budDraw State.updMeter; cases c <;> simp
@[simp] theorem State.budStarve_pending (s : State) (c : Option Nat) (r : Nat) : (s.budStarve c r).pending = s.pending := by unfold State.budStarve State.updMeter; cases c <;> simp
@[simp] theorem State.budStarve_regs (s : State) (c : Option Nat) (r : Nat) : (s.budStarve c r).regs = s.regs := by unfold State.budStarve State.updMeter; cases c <;> simp
@[simp] theorem State.budStarve_mem (s : State) (c : Option Nat) (r : Nat) : (s.budStarve c r).mem = s.mem := by unfold State.budStarve State.updMeter; cases c <;> simp
@[simp] theorem State.budStarve_inflight (s : State) (c : Option Nat) (r : Nat) : (s.budStarve c r).inflight = s.inflight := by unfold State.budStarve State.updMeter; cases c <;> simp
@[simp] theorem State.budStarve_slot (s : State) (c : Option Nat) (r : Nat) : (s.budStarve c r).slot = s.slot := by unfold State.budStarve State.updMeter; cases c <;> simp
@[simp] theorem State.budStarve_now (s : State) (c : Option Nat) (r : Nat) : (s.budStarve c r).now = s.now := by unfold State.budStarve State.updMeter; cases c <;> simp
@[simp] theorem State.budStarve_prevAng (s : State) (c : Option Nat) (r : Nat) : (s.budStarve c r).prevAng = s.prevAng := by unfold State.budStarve State.updMeter; cases c <;> simp
@[simp] theorem State.budStarve_d2dUp (s : State) (c : Option Nat) (r : Nat) : (s.budStarve c r).d2dUp = s.d2dUp := by unfold State.budStarve State.updMeter; cases c <;> simp
@[simp] theorem State.budStarve_whl (s : State) (c : Option Nat) (r : Nat) : (s.budStarve c r).whl = s.whl := by unfold State.budStarve State.updMeter; cases c <;> simp
@[simp] theorem State.budStarve_echo (s : State) (c : Option Nat) (r : Nat) : (s.budStarve c r).echo = s.echo := by unfold State.budStarve State.updMeter; cases c <;> simp
@[simp] theorem State.budStarve_obs (s : State) (c : Option Nat) (r : Nat) : (s.budStarve c r).obs = s.obs := by unfold State.budStarve State.updMeter; cases c <;> simp
@[simp] theorem State.budStarve_sync (s : State) (c : Option Nat) (r : Nat) : (s.budStarve c r).sync = s.sync := by unfold State.budStarve State.updMeter; cases c <;> simp
@[simp] theorem State.budStarve_calq (s : State) (c : Option Nat) (r : Nat) : (s.budStarve c r).calq = s.calq := by unfold State.budStarve State.updMeter; cases c <;> simp
@[simp] theorem State.budStarve_stage (s : State) (c : Option Nat) (r : Nat) : (s.budStarve c r).stage = s.stage := by unfold State.budStarve State.updMeter; cases c <;> simp
@[simp] theorem State.budStarve_aborts (s : State) (c : Option Nat) (r : Nat) : (s.budStarve c r).aborts = s.aborts := by unfold State.budStarve State.updMeter; cases c <;> simp
@[simp] theorem State.budStarve_calEnt (s : State) (c : Option Nat) (r : Nat) : (s.budStarve c r).calEnt = s.calEnt := by unfold State.budStarve State.updMeter; cases c <;> simp
@[simp] theorem State.budStarve_walked (s : State) (c : Option Nat) (r : Nat) : (s.budStarve c r).walked = s.walked := by unfold State.budStarve State.updMeter; cases c <;> simp
@[simp] theorem State.budStarve_outCh (s : State) (c : Option Nat) (r : Nat) : (s.budStarve c r).outCh = s.outCh := by unfold State.budStarve State.updMeter; cases c <;> simp
@[simp] theorem State.budStarve_cyc (s : State) (c : Option Nat) (r : Nat) : (s.budStarve c r).cyc = s.cyc := by unfold State.budStarve State.updMeter; cases c <;> simp
@[simp] theorem State.budStarve_threads (s : State) (c : Option Nat) (r : Nat) : (s.budStarve c r).threads = s.threads := by unfold State.budStarve State.updMeter; cases c <;> simp
@[simp] theorem State.budStarve_trimB (s : State) (c : Option Nat) (r : Nat) : (s.budStarve c r).trimB = s.trimB := by unfold State.budStarve State.updMeter; cases c <;> simp
@[simp] theorem State.budStarve_frameNo (s : State) (c : Option Nat) (r : Nat) : (s.budStarve c r).frameNo = s.frameNo := by unfold State.budStarve State.updMeter; cases c <;> simp
@[simp] theorem State.budStarve_budFrame (s : State) (c : Option Nat) (r : Nat) : (s.budStarve c r).budFrame = s.budFrame := by unfold State.budStarve State.updMeter; cases c <;> simp
@[simp] theorem State.budStarve_irq (s : State) (c : Option Nat) (r : Nat) : (s.budStarve c r).irq = s.irq := by unfold State.budStarve State.updMeter; cases c <;> simp
@[simp] theorem State.budStarve_tmr (s : State) (c : Option Nat) (r : Nat) : (s.budStarve c r).tmr = s.tmr := by unfold State.budStarve State.updMeter; cases c <;> simp
@[simp] theorem State.budStarve_inj (s : State) (c : Option Nat) (r : Nat) : (s.budStarve c r).inj = s.inj := by unfold State.budStarve State.updMeter; cases c <;> simp
@[simp] theorem State.budStarve_drive (s : State) (c : Option Nat) (r : Nat) : (s.budStarve c r).drive = s.drive := by unfold State.budStarve State.updMeter; cases c <;> simp
@[simp] theorem State.budStarve_pwm (s : State) (c : Option Nat) (r : Nat) : (s.budStarve c r).pwm = s.pwm := by unfold State.budStarve State.updMeter; cases c <;> simp
@[simp] theorem State.budStarve_rampAt (s : State) (c : Option Nat) (r : Nat) : (s.budStarve c r).rampAt = s.rampAt := by unfold State.budStarve State.updMeter; cases c <;> simp
@[simp] theorem State.budStarve_fadc (s : State) (c : Option Nat) (r : Nat) : (s.budStarve c r).fadc = s.fadc := by unfold State.budStarve State.updMeter; cases c <;> simp
@[simp] theorem State.budStarve_padc (s : State) (c : Option Nat) (r : Nat) : (s.budStarve c r).padc = s.padc := by unfold State.budStarve State.updMeter; cases c <;> simp
@[simp] theorem State.budStarve_faWatch (s : State) (c : Option Nat) (r : Nat) : (s.budStarve c r).faWatch = s.faWatch := by unfold State.budStarve State.updMeter; cases c <;> simp
@[simp] theorem State.budStarve_paWatch (s : State) (c : Option Nat) (r : Nat) : (s.budStarve c r).paWatch = s.paWatch := by unfold State.budStarve State.updMeter; cases c <;> simp
@[simp] theorem State.budStarve_mains (s : State) (c : Option Nat) (r : Nat) : (s.budStarve c r).mains = s.mains := by unfold State.budStarve State.updMeter; cases c <;> simp
@[simp] theorem State.budStarve_cmb (s : State) (c : Option Nat) (r : Nat) : (s.budStarve c r).cmb = s.cmb := by unfold State.budStarve State.updMeter; cases c <;> simp
@[simp] theorem State.budStarve_chn (s : State) (c : Option Nat) (r : Nat) : (s.budStarve c r).chn = s.chn := by unfold State.budStarve State.updMeter; cases c <;> simp
@[simp] theorem State.budStarve_eth (s : State) (c : Option Nat) (r : Nat) : (s.budStarve c r).eth = s.eth := by unfold State.budStarve State.updMeter; cases c <;> simp
@[simp] theorem State.budStarve_can (s : State) (c : Option Nat) (r : Nat) : (s.budStarve c r).can = s.can := by unfold State.budStarve State.updMeter; cases c <;> simp
@[simp] theorem State.budStarve_spi (s : State) (c : Option Nat) (r : Nat) : (s.budStarve c r).spi = s.spi := by unfold State.budStarve State.updMeter; cases c <;> simp
@[simp] theorem State.budStarve_lkt (s : State) (c : Option Nat) (r : Nat) : (s.budStarve c r).lkt = s.lkt := by unfold State.budStarve State.updMeter; cases c <;> simp
@[simp] theorem State.budStarve_boot (s : State) (c : Option Nat) (r : Nat) : (s.budStarve c r).boot = s.boot := by unfold State.budStarve State.updMeter; cases c <;> simp
@[simp] theorem State.budStarve_enrol (s : State) (c : Option Nat) (r : Nat) : (s.budStarve c r).enrol = s.enrol := by unfold State.budStarve State.updMeter; cases c <;> simp
@[simp] theorem State.budStarve_pairs (s : State) (c : Option Nat) (r : Nat) : (s.budStarve c r).pairs = s.pairs := by unfold State.budStarve State.updMeter; cases c <;> simp
@[simp] theorem State.budStarve_fabric (s : State) (c : Option Nat) (r : Nat) : (s.budStarve c r).fabric = s.fabric := by unfold State.budStarve State.updMeter; cases c <;> simp
@[simp] theorem State.budStarve_flt (s : State) (c : Option Nat) (r : Nat) : (s.budStarve c r).flt = s.flt := by unfold State.budStarve State.updMeter; cases c <;> simp
@[simp] theorem State.budStarve_sys (s : State) (c : Option Nat) (r : Nat) : (s.budStarve c r).sys = s.sys := by unfold State.budStarve State.updMeter; cases c <;> simp
@[simp] theorem State.budStarve_dbg (s : State) (c : Option Nat) (r : Nat) : (s.budStarve c r).dbg = s.dbg := by unfold State.budStarve State.updMeter; cases c <;> simp
@[simp] theorem State.budStarve_answer (s : State) (c : Option Nat) (r : Nat) : (s.budStarve c r).answer = s.answer := by unfold State.budStarve State.updMeter; cases c <;> simp
@[simp] theorem State.budStarve_freeUses (s : State) (c : Option Nat) (r : Nat) : (s.budStarve c r).freeUses = s.freeUses := by unfold State.budStarve State.updMeter; cases c <;> simp
@[simp] theorem State.updPair_pending (s : State) (t : Nat) (f : Pair → Pair) : (s.updPair t f).pending = s.pending := by simp only [State.updPair]
@[simp] theorem State.updPair_regs (s : State) (t : Nat) (f : Pair → Pair) : (s.updPair t f).regs = s.regs := by simp only [State.updPair]
@[simp] theorem State.updPair_mem (s : State) (t : Nat) (f : Pair → Pair) : (s.updPair t f).mem = s.mem := by simp only [State.updPair]
@[simp] theorem State.updPair_inflight (s : State) (t : Nat) (f : Pair → Pair) : (s.updPair t f).inflight = s.inflight := by simp only [State.updPair]
@[simp] theorem State.updPair_slot (s : State) (t : Nat) (f : Pair → Pair) : (s.updPair t f).slot = s.slot := by simp only [State.updPair]
@[simp] theorem State.updPair_now (s : State) (t : Nat) (f : Pair → Pair) : (s.updPair t f).now = s.now := by simp only [State.updPair]
@[simp] theorem State.updPair_prevAng (s : State) (t : Nat) (f : Pair → Pair) : (s.updPair t f).prevAng = s.prevAng := by simp only [State.updPair]
@[simp] theorem State.updPair_d2dUp (s : State) (t : Nat) (f : Pair → Pair) : (s.updPair t f).d2dUp = s.d2dUp := by simp only [State.updPair]
@[simp] theorem State.updPair_whl (s : State) (t : Nat) (f : Pair → Pair) : (s.updPair t f).whl = s.whl := by simp only [State.updPair]
@[simp] theorem State.updPair_echo (s : State) (t : Nat) (f : Pair → Pair) : (s.updPair t f).echo = s.echo := by simp only [State.updPair]
@[simp] theorem State.updPair_obs (s : State) (t : Nat) (f : Pair → Pair) : (s.updPair t f).obs = s.obs := by simp only [State.updPair]
@[simp] theorem State.updPair_sync (s : State) (t : Nat) (f : Pair → Pair) : (s.updPair t f).sync = s.sync := by simp only [State.updPair]
@[simp] theorem State.updPair_calq (s : State) (t : Nat) (f : Pair → Pair) : (s.updPair t f).calq = s.calq := by simp only [State.updPair]
@[simp] theorem State.updPair_stage (s : State) (t : Nat) (f : Pair → Pair) : (s.updPair t f).stage = s.stage := by simp only [State.updPair]
@[simp] theorem State.updPair_aborts (s : State) (t : Nat) (f : Pair → Pair) : (s.updPair t f).aborts = s.aborts := by simp only [State.updPair]
@[simp] theorem State.updPair_calEnt (s : State) (t : Nat) (f : Pair → Pair) : (s.updPair t f).calEnt = s.calEnt := by simp only [State.updPair]
@[simp] theorem State.updPair_walked (s : State) (t : Nat) (f : Pair → Pair) : (s.updPair t f).walked = s.walked := by simp only [State.updPair]
@[simp] theorem State.updPair_outCh (s : State) (t : Nat) (f : Pair → Pair) : (s.updPair t f).outCh = s.outCh := by simp only [State.updPair]
@[simp] theorem State.updPair_cyc (s : State) (t : Nat) (f : Pair → Pair) : (s.updPair t f).cyc = s.cyc := by simp only [State.updPair]
@[simp] theorem State.updPair_threads (s : State) (t : Nat) (f : Pair → Pair) : (s.updPair t f).threads = s.threads := by simp only [State.updPair]
@[simp] theorem State.updPair_trimB (s : State) (t : Nat) (f : Pair → Pair) : (s.updPair t f).trimB = s.trimB := by simp only [State.updPair]
@[simp] theorem State.updPair_meters (s : State) (t : Nat) (f : Pair → Pair) : (s.updPair t f).meters = s.meters := by simp only [State.updPair]
@[simp] theorem State.updPair_frameNo (s : State) (t : Nat) (f : Pair → Pair) : (s.updPair t f).frameNo = s.frameNo := by simp only [State.updPair]
@[simp] theorem State.updPair_budFrame (s : State) (t : Nat) (f : Pair → Pair) : (s.updPair t f).budFrame = s.budFrame := by simp only [State.updPair]
@[simp] theorem State.updPair_irq (s : State) (t : Nat) (f : Pair → Pair) : (s.updPair t f).irq = s.irq := by simp only [State.updPair]
@[simp] theorem State.updPair_tmr (s : State) (t : Nat) (f : Pair → Pair) : (s.updPair t f).tmr = s.tmr := by simp only [State.updPair]
@[simp] theorem State.updPair_inj (s : State) (t : Nat) (f : Pair → Pair) : (s.updPair t f).inj = s.inj := by simp only [State.updPair]
@[simp] theorem State.updPair_drive (s : State) (t : Nat) (f : Pair → Pair) : (s.updPair t f).drive = s.drive := by simp only [State.updPair]
@[simp] theorem State.updPair_pwm (s : State) (t : Nat) (f : Pair → Pair) : (s.updPair t f).pwm = s.pwm := by simp only [State.updPair]
@[simp] theorem State.updPair_rampAt (s : State) (t : Nat) (f : Pair → Pair) : (s.updPair t f).rampAt = s.rampAt := by simp only [State.updPair]
@[simp] theorem State.updPair_fadc (s : State) (t : Nat) (f : Pair → Pair) : (s.updPair t f).fadc = s.fadc := by simp only [State.updPair]
@[simp] theorem State.updPair_padc (s : State) (t : Nat) (f : Pair → Pair) : (s.updPair t f).padc = s.padc := by simp only [State.updPair]
@[simp] theorem State.updPair_faWatch (s : State) (t : Nat) (f : Pair → Pair) : (s.updPair t f).faWatch = s.faWatch := by simp only [State.updPair]
@[simp] theorem State.updPair_paWatch (s : State) (t : Nat) (f : Pair → Pair) : (s.updPair t f).paWatch = s.paWatch := by simp only [State.updPair]
@[simp] theorem State.updPair_mains (s : State) (t : Nat) (f : Pair → Pair) : (s.updPair t f).mains = s.mains := by simp only [State.updPair]
@[simp] theorem State.updPair_cmb (s : State) (t : Nat) (f : Pair → Pair) : (s.updPair t f).cmb = s.cmb := by simp only [State.updPair]
@[simp] theorem State.updPair_chn (s : State) (t : Nat) (f : Pair → Pair) : (s.updPair t f).chn = s.chn := by simp only [State.updPair]
@[simp] theorem State.updPair_eth (s : State) (t : Nat) (f : Pair → Pair) : (s.updPair t f).eth = s.eth := by simp only [State.updPair]
@[simp] theorem State.updPair_can (s : State) (t : Nat) (f : Pair → Pair) : (s.updPair t f).can = s.can := by simp only [State.updPair]
@[simp] theorem State.updPair_spi (s : State) (t : Nat) (f : Pair → Pair) : (s.updPair t f).spi = s.spi := by simp only [State.updPair]
@[simp] theorem State.updPair_lkt (s : State) (t : Nat) (f : Pair → Pair) : (s.updPair t f).lkt = s.lkt := by simp only [State.updPair]
@[simp] theorem State.updPair_boot (s : State) (t : Nat) (f : Pair → Pair) : (s.updPair t f).boot = s.boot := by simp only [State.updPair]
@[simp] theorem State.updPair_enrol (s : State) (t : Nat) (f : Pair → Pair) : (s.updPair t f).enrol = s.enrol := by simp only [State.updPair]
@[simp] theorem State.updPair_fabric (s : State) (t : Nat) (f : Pair → Pair) : (s.updPair t f).fabric = s.fabric := by simp only [State.updPair]
@[simp] theorem State.updPair_flt (s : State) (t : Nat) (f : Pair → Pair) : (s.updPair t f).flt = s.flt := by simp only [State.updPair]
@[simp] theorem State.updPair_sys (s : State) (t : Nat) (f : Pair → Pair) : (s.updPair t f).sys = s.sys := by simp only [State.updPair]
@[simp] theorem State.updPair_dbg (s : State) (t : Nat) (f : Pair → Pair) : (s.updPair t f).dbg = s.dbg := by simp only [State.updPair]
@[simp] theorem State.updPair_answer (s : State) (t : Nat) (f : Pair → Pair) : (s.updPair t f).answer = s.answer := by simp only [State.updPair]
@[simp] theorem State.updPair_freeUses (s : State) (t : Nat) (f : Pair → Pair) : (s.updPair t f).freeUses = s.freeUses := by simp only [State.updPair]
@[simp] theorem State.useStep_pending (s : State) (t : Nat) : (s.useStep t).pending = s.pending := by simp only [State.useStep, State.updPair]
@[simp] theorem State.useStep_regs (s : State) (t : Nat) : (s.useStep t).regs = s.regs := by simp only [State.useStep, State.updPair]
@[simp] theorem State.useStep_mem (s : State) (t : Nat) : (s.useStep t).mem = s.mem := by simp only [State.useStep, State.updPair]
@[simp] theorem State.useStep_inflight (s : State) (t : Nat) : (s.useStep t).inflight = s.inflight := by simp only [State.useStep, State.updPair]
@[simp] theorem State.useStep_slot (s : State) (t : Nat) : (s.useStep t).slot = s.slot := by simp only [State.useStep, State.updPair]
@[simp] theorem State.useStep_now (s : State) (t : Nat) : (s.useStep t).now = s.now := by simp only [State.useStep, State.updPair]
@[simp] theorem State.useStep_prevAng (s : State) (t : Nat) : (s.useStep t).prevAng = s.prevAng := by simp only [State.useStep, State.updPair]
@[simp] theorem State.useStep_d2dUp (s : State) (t : Nat) : (s.useStep t).d2dUp = s.d2dUp := by simp only [State.useStep, State.updPair]
@[simp] theorem State.useStep_whl (s : State) (t : Nat) : (s.useStep t).whl = s.whl := by simp only [State.useStep, State.updPair]
@[simp] theorem State.useStep_echo (s : State) (t : Nat) : (s.useStep t).echo = s.echo := by simp only [State.useStep, State.updPair]
@[simp] theorem State.useStep_obs (s : State) (t : Nat) : (s.useStep t).obs = s.obs := by simp only [State.useStep, State.updPair]
@[simp] theorem State.useStep_sync (s : State) (t : Nat) : (s.useStep t).sync = s.sync := by simp only [State.useStep, State.updPair]
@[simp] theorem State.useStep_calq (s : State) (t : Nat) : (s.useStep t).calq = s.calq := by simp only [State.useStep, State.updPair]
@[simp] theorem State.useStep_stage (s : State) (t : Nat) : (s.useStep t).stage = s.stage := by simp only [State.useStep, State.updPair]
@[simp] theorem State.useStep_aborts (s : State) (t : Nat) : (s.useStep t).aborts = s.aborts := by simp only [State.useStep, State.updPair]
@[simp] theorem State.useStep_calEnt (s : State) (t : Nat) : (s.useStep t).calEnt = s.calEnt := by simp only [State.useStep, State.updPair]
@[simp] theorem State.useStep_walked (s : State) (t : Nat) : (s.useStep t).walked = s.walked := by simp only [State.useStep, State.updPair]
@[simp] theorem State.useStep_outCh (s : State) (t : Nat) : (s.useStep t).outCh = s.outCh := by simp only [State.useStep, State.updPair]
@[simp] theorem State.useStep_cyc (s : State) (t : Nat) : (s.useStep t).cyc = s.cyc := by simp only [State.useStep, State.updPair]
@[simp] theorem State.useStep_threads (s : State) (t : Nat) : (s.useStep t).threads = s.threads := by simp only [State.useStep, State.updPair]
@[simp] theorem State.useStep_trimB (s : State) (t : Nat) : (s.useStep t).trimB = s.trimB := by simp only [State.useStep, State.updPair]
@[simp] theorem State.useStep_meters (s : State) (t : Nat) : (s.useStep t).meters = s.meters := by simp only [State.useStep, State.updPair]
@[simp] theorem State.useStep_frameNo (s : State) (t : Nat) : (s.useStep t).frameNo = s.frameNo := by simp only [State.useStep, State.updPair]
@[simp] theorem State.useStep_budFrame (s : State) (t : Nat) : (s.useStep t).budFrame = s.budFrame := by simp only [State.useStep, State.updPair]
@[simp] theorem State.useStep_irq (s : State) (t : Nat) : (s.useStep t).irq = s.irq := by simp only [State.useStep, State.updPair]
@[simp] theorem State.useStep_tmr (s : State) (t : Nat) : (s.useStep t).tmr = s.tmr := by simp only [State.useStep, State.updPair]
@[simp] theorem State.useStep_inj (s : State) (t : Nat) : (s.useStep t).inj = s.inj := by simp only [State.useStep, State.updPair]
@[simp] theorem State.useStep_drive (s : State) (t : Nat) : (s.useStep t).drive = s.drive := by simp only [State.useStep, State.updPair]
@[simp] theorem State.useStep_pwm (s : State) (t : Nat) : (s.useStep t).pwm = s.pwm := by simp only [State.useStep, State.updPair]
@[simp] theorem State.useStep_rampAt (s : State) (t : Nat) : (s.useStep t).rampAt = s.rampAt := by simp only [State.useStep, State.updPair]
@[simp] theorem State.useStep_fadc (s : State) (t : Nat) : (s.useStep t).fadc = s.fadc := by simp only [State.useStep, State.updPair]
@[simp] theorem State.useStep_padc (s : State) (t : Nat) : (s.useStep t).padc = s.padc := by simp only [State.useStep, State.updPair]
@[simp] theorem State.useStep_faWatch (s : State) (t : Nat) : (s.useStep t).faWatch = s.faWatch := by simp only [State.useStep, State.updPair]
@[simp] theorem State.useStep_paWatch (s : State) (t : Nat) : (s.useStep t).paWatch = s.paWatch := by simp only [State.useStep, State.updPair]
@[simp] theorem State.useStep_mains (s : State) (t : Nat) : (s.useStep t).mains = s.mains := by simp only [State.useStep, State.updPair]
@[simp] theorem State.useStep_cmb (s : State) (t : Nat) : (s.useStep t).cmb = s.cmb := by simp only [State.useStep, State.updPair]
@[simp] theorem State.useStep_chn (s : State) (t : Nat) : (s.useStep t).chn = s.chn := by simp only [State.useStep, State.updPair]
@[simp] theorem State.useStep_eth (s : State) (t : Nat) : (s.useStep t).eth = s.eth := by simp only [State.useStep, State.updPair]
@[simp] theorem State.useStep_can (s : State) (t : Nat) : (s.useStep t).can = s.can := by simp only [State.useStep, State.updPair]
@[simp] theorem State.useStep_spi (s : State) (t : Nat) : (s.useStep t).spi = s.spi := by simp only [State.useStep, State.updPair]
@[simp] theorem State.useStep_lkt (s : State) (t : Nat) : (s.useStep t).lkt = s.lkt := by simp only [State.useStep, State.updPair]
@[simp] theorem State.useStep_boot (s : State) (t : Nat) : (s.useStep t).boot = s.boot := by simp only [State.useStep, State.updPair]
@[simp] theorem State.useStep_enrol (s : State) (t : Nat) : (s.useStep t).enrol = s.enrol := by simp only [State.useStep, State.updPair]
@[simp] theorem State.useStep_fabric (s : State) (t : Nat) : (s.useStep t).fabric = s.fabric := by simp only [State.useStep, State.updPair]
@[simp] theorem State.useStep_flt (s : State) (t : Nat) : (s.useStep t).flt = s.flt := by simp only [State.useStep, State.updPair]
@[simp] theorem State.useStep_sys (s : State) (t : Nat) : (s.useStep t).sys = s.sys := by simp only [State.useStep, State.updPair]
@[simp] theorem State.useStep_dbg (s : State) (t : Nat) : (s.useStep t).dbg = s.dbg := by simp only [State.useStep, State.updPair]
@[simp] theorem State.useStep_answer (s : State) (t : Nat) : (s.useStep t).answer = s.answer := by simp only [State.useStep, State.updPair]
@[simp] theorem State.useStep_freeUses (s : State) (t : Nat) : (s.useStep t).freeUses = s.freeUses := by simp only [State.useStep, State.updPair]
@[simp] theorem State.updThr_pending (s : State) (n : Nat) (f : ThreadSt → ThreadSt) : (s.updThr n f).pending = s.pending := by simp only [State.updThr]
@[simp] theorem State.updThr_regs (s : State) (n : Nat) (f : ThreadSt → ThreadSt) : (s.updThr n f).regs = s.regs := by simp only [State.updThr]
@[simp] theorem State.updThr_mem (s : State) (n : Nat) (f : ThreadSt → ThreadSt) : (s.updThr n f).mem = s.mem := by simp only [State.updThr]
@[simp] theorem State.updThr_inflight (s : State) (n : Nat) (f : ThreadSt → ThreadSt) : (s.updThr n f).inflight = s.inflight := by simp only [State.updThr]
@[simp] theorem State.updThr_slot (s : State) (n : Nat) (f : ThreadSt → ThreadSt) : (s.updThr n f).slot = s.slot := by simp only [State.updThr]
@[simp] theorem State.updThr_now (s : State) (n : Nat) (f : ThreadSt → ThreadSt) : (s.updThr n f).now = s.now := by simp only [State.updThr]
@[simp] theorem State.updThr_prevAng (s : State) (n : Nat) (f : ThreadSt → ThreadSt) : (s.updThr n f).prevAng = s.prevAng := by simp only [State.updThr]
@[simp] theorem State.updThr_d2dUp (s : State) (n : Nat) (f : ThreadSt → ThreadSt) : (s.updThr n f).d2dUp = s.d2dUp := by simp only [State.updThr]
@[simp] theorem State.updThr_whl (s : State) (n : Nat) (f : ThreadSt → ThreadSt) : (s.updThr n f).whl = s.whl := by simp only [State.updThr]
@[simp] theorem State.updThr_echo (s : State) (n : Nat) (f : ThreadSt → ThreadSt) : (s.updThr n f).echo = s.echo := by simp only [State.updThr]
@[simp] theorem State.updThr_obs (s : State) (n : Nat) (f : ThreadSt → ThreadSt) : (s.updThr n f).obs = s.obs := by simp only [State.updThr]
@[simp] theorem State.updThr_sync (s : State) (n : Nat) (f : ThreadSt → ThreadSt) : (s.updThr n f).sync = s.sync := by simp only [State.updThr]
@[simp] theorem State.updThr_calq (s : State) (n : Nat) (f : ThreadSt → ThreadSt) : (s.updThr n f).calq = s.calq := by simp only [State.updThr]
@[simp] theorem State.updThr_stage (s : State) (n : Nat) (f : ThreadSt → ThreadSt) : (s.updThr n f).stage = s.stage := by simp only [State.updThr]
@[simp] theorem State.updThr_aborts (s : State) (n : Nat) (f : ThreadSt → ThreadSt) : (s.updThr n f).aborts = s.aborts := by simp only [State.updThr]
@[simp] theorem State.updThr_calEnt (s : State) (n : Nat) (f : ThreadSt → ThreadSt) : (s.updThr n f).calEnt = s.calEnt := by simp only [State.updThr]
@[simp] theorem State.updThr_walked (s : State) (n : Nat) (f : ThreadSt → ThreadSt) : (s.updThr n f).walked = s.walked := by simp only [State.updThr]
@[simp] theorem State.updThr_outCh (s : State) (n : Nat) (f : ThreadSt → ThreadSt) : (s.updThr n f).outCh = s.outCh := by simp only [State.updThr]
@[simp] theorem State.updThr_cyc (s : State) (n : Nat) (f : ThreadSt → ThreadSt) : (s.updThr n f).cyc = s.cyc := by simp only [State.updThr]
@[simp] theorem State.updThr_trimB (s : State) (n : Nat) (f : ThreadSt → ThreadSt) : (s.updThr n f).trimB = s.trimB := by simp only [State.updThr]
@[simp] theorem State.updThr_meters (s : State) (n : Nat) (f : ThreadSt → ThreadSt) : (s.updThr n f).meters = s.meters := by simp only [State.updThr]
@[simp] theorem State.updThr_frameNo (s : State) (n : Nat) (f : ThreadSt → ThreadSt) : (s.updThr n f).frameNo = s.frameNo := by simp only [State.updThr]
@[simp] theorem State.updThr_budFrame (s : State) (n : Nat) (f : ThreadSt → ThreadSt) : (s.updThr n f).budFrame = s.budFrame := by simp only [State.updThr]
@[simp] theorem State.updThr_irq (s : State) (n : Nat) (f : ThreadSt → ThreadSt) : (s.updThr n f).irq = s.irq := by simp only [State.updThr]
@[simp] theorem State.updThr_tmr (s : State) (n : Nat) (f : ThreadSt → ThreadSt) : (s.updThr n f).tmr = s.tmr := by simp only [State.updThr]
@[simp] theorem State.updThr_inj (s : State) (n : Nat) (f : ThreadSt → ThreadSt) : (s.updThr n f).inj = s.inj := by simp only [State.updThr]
@[simp] theorem State.updThr_drive (s : State) (n : Nat) (f : ThreadSt → ThreadSt) : (s.updThr n f).drive = s.drive := by simp only [State.updThr]
@[simp] theorem State.updThr_pwm (s : State) (n : Nat) (f : ThreadSt → ThreadSt) : (s.updThr n f).pwm = s.pwm := by simp only [State.updThr]
@[simp] theorem State.updThr_rampAt (s : State) (n : Nat) (f : ThreadSt → ThreadSt) : (s.updThr n f).rampAt = s.rampAt := by simp only [State.updThr]
@[simp] theorem State.updThr_fadc (s : State) (n : Nat) (f : ThreadSt → ThreadSt) : (s.updThr n f).fadc = s.fadc := by simp only [State.updThr]
@[simp] theorem State.updThr_padc (s : State) (n : Nat) (f : ThreadSt → ThreadSt) : (s.updThr n f).padc = s.padc := by simp only [State.updThr]
@[simp] theorem State.updThr_faWatch (s : State) (n : Nat) (f : ThreadSt → ThreadSt) : (s.updThr n f).faWatch = s.faWatch := by simp only [State.updThr]
@[simp] theorem State.updThr_paWatch (s : State) (n : Nat) (f : ThreadSt → ThreadSt) : (s.updThr n f).paWatch = s.paWatch := by simp only [State.updThr]
@[simp] theorem State.updThr_mains (s : State) (n : Nat) (f : ThreadSt → ThreadSt) : (s.updThr n f).mains = s.mains := by simp only [State.updThr]
@[simp] theorem State.updThr_cmb (s : State) (n : Nat) (f : ThreadSt → ThreadSt) : (s.updThr n f).cmb = s.cmb := by simp only [State.updThr]
@[simp] theorem State.updThr_chn (s : State) (n : Nat) (f : ThreadSt → ThreadSt) : (s.updThr n f).chn = s.chn := by simp only [State.updThr]
@[simp] theorem State.updThr_eth (s : State) (n : Nat) (f : ThreadSt → ThreadSt) : (s.updThr n f).eth = s.eth := by simp only [State.updThr]
@[simp] theorem State.updThr_can (s : State) (n : Nat) (f : ThreadSt → ThreadSt) : (s.updThr n f).can = s.can := by simp only [State.updThr]
@[simp] theorem State.updThr_spi (s : State) (n : Nat) (f : ThreadSt → ThreadSt) : (s.updThr n f).spi = s.spi := by simp only [State.updThr]
@[simp] theorem State.updThr_lkt (s : State) (n : Nat) (f : ThreadSt → ThreadSt) : (s.updThr n f).lkt = s.lkt := by simp only [State.updThr]
@[simp] theorem State.updThr_boot (s : State) (n : Nat) (f : ThreadSt → ThreadSt) : (s.updThr n f).boot = s.boot := by simp only [State.updThr]
@[simp] theorem State.updThr_enrol (s : State) (n : Nat) (f : ThreadSt → ThreadSt) : (s.updThr n f).enrol = s.enrol := by simp only [State.updThr]
@[simp] theorem State.updThr_pairs (s : State) (n : Nat) (f : ThreadSt → ThreadSt) : (s.updThr n f).pairs = s.pairs := by simp only [State.updThr]
@[simp] theorem State.updThr_fabric (s : State) (n : Nat) (f : ThreadSt → ThreadSt) : (s.updThr n f).fabric = s.fabric := by simp only [State.updThr]
@[simp] theorem State.updThr_flt (s : State) (n : Nat) (f : ThreadSt → ThreadSt) : (s.updThr n f).flt = s.flt := by simp only [State.updThr]
@[simp] theorem State.updThr_sys (s : State) (n : Nat) (f : ThreadSt → ThreadSt) : (s.updThr n f).sys = s.sys := by simp only [State.updThr]
@[simp] theorem State.updThr_dbg (s : State) (n : Nat) (f : ThreadSt → ThreadSt) : (s.updThr n f).dbg = s.dbg := by simp only [State.updThr]
@[simp] theorem State.updThr_answer (s : State) (n : Nat) (f : ThreadSt → ThreadSt) : (s.updThr n f).answer = s.answer := by simp only [State.updThr]
@[simp] theorem State.updThr_freeUses (s : State) (n : Nat) (f : ThreadSt → ThreadSt) : (s.updThr n f).freeUses = s.freeUses := by simp only [State.updThr]

@[simp] theorem State.budDraw_reg (s : State) (c : Option Nat) (r n k : Nat) : (s.budDraw c r n).reg k = s.reg k := by
  simp [State.reg]

@[simp] theorem State.useStep_reg (s : State) (t k : Nat) : (s.useStep t).reg k = s.reg k := by simp [State.reg]

/-! ### Issue -/

/-- No load into the named registers is outstanding: nothing settles. -/
theorem State.settle_none (s : State) (t : Fin 4) (rs : List Nat) (h : ∀ d ∈ (s.pair t).loads, d.1 ∉ rs) :
    s.settle t rs = s := by
  have hf : (s.pair t).loads.filter (fun d => rs.contains d.1) = [] := by
    rw [List.filter_eq_nil_iff]; intro d hd; simpa using h d hd
  have hg : (s.pair t).loads.filter (fun d => !rs.contains d.1) = (s.pair t).loads := by
    rw [List.filter_eq_self]; intro d hd; simpa using h d hd
  have hv : vupd s.pairs t (fun x => { x with loads := x.loads.filter fun d => !rs.contains d.1 }) = s.pairs := by
    apply vupd_self
    show ({ s.pair t with loads := (s.pair t).loads.filter fun d => !rs.contains d.1 } : Pair) = s.pair t
    rw [hg]
  unfold State.settle State.settleWhere State.updPair
  rw [hf, List.foldl_nil, hv]

theorem State.eccRead_clean (s : State) (m : Mem) (x n : Nat) (h : s.flt.armed = none) : s.eccRead m x n .clean = (s, false) := by
  simp [State.eccRead, State.injected, h]

theorem State.issued_flt (s : State) (a : Agent) (sl b : Nat) : (s.issued a sl b).flt = s.flt := by
  cases a <;> simp [State.issued]

/-- Where the agent can issue the instruction, it takes its effect in the issued state. -/
theorem State.issueIns_run (s : State) (a : Agent) (x : Form) (f : Effect)
    (h : s.canIssue a x.g x.f x.slots (f.beats s)) (hp : x.illegal a = false) :
    s.issueIns a x f = f.run (s.issued a x.slots (f.beats s)) := by
  obtain ⟨harm, h⟩ := h
  cases a with
  | pair t e =>
    obtain ⟨rfl, hact, hf, hl, -, hb⟩ := h
    have hs : s.settle t (x.g.map BitVec.toNat ++ x.f.map fun r => 32 + r.toNat) = s := by
      apply State.settle_none
      intro d hd hm
      rcases List.mem_append.1 hm with hm | hm
      · exact (hl d hd).1 hm
      · exact (hl d hd).2 hm
    have hi := State.issued_flt s (.pair t .clean) x.slots (f.beats s)
    simp only [State.issueIns, State.issuePair, hact, hs, hp, hf, hb, Bool.not_true, Bool.false_eq_true, if_false]
    have : ∀ (u : State) pc, u.flt.armed = none → u.fetchPair t pc .clean = (u, false) := by
      intro u pc hu
      unfold State.fetchPair
      split
      · exact u.eccRead_clean _ _ _ hu
      · split
        · exact u.eccRead_clean _ _ _ hu
        all_goals rfl
    have harm' : (s.issued (.pair t .clean) x.slots (f.beats s)).flt.armed = none := by rw [hi]; exact harm
    have he := this _ (s.ppc t).toNat harm'
    simp only [State.issued] at he ⊢
    rw [he]
    rfl
  | thread n e =>
    obtain ⟨rfl, hst, hu, hf, -, hb1, hb2⟩ := h
    have hi := State.issued_flt s (.thread n .clean) x.slots (f.beats s)
    have harm' : (s.issued (.thread n .clean) x.slots (f.beats s)).flt.armed = none := by rw [hi]; exact harm
    have hpc : (s.issued (.thread n .clean) x.slots (f.beats s)).thPc n = s.thPc n := by
      simp [State.issued, State.thPc, State.thr]
    have hfe : (s.issued (.thread n .clean) x.slots (f.beats s)).thMayFetch n (s.thPc n) = true := by
      rw [← hf]
      have ht : (s.issued (.thread n .clean) x.slots (f.beats s)).reg (AEN_TWIN n) = s.reg (AEN_TWIN n) := by
        simp only [State.issued, State.count]
        rw [State.reg_setFld_ne _ _ _ (by simp only [AEN_TWIN, AEN_TISS]; omega)]
        simp
      unfold State.thMayFetch State.fld
      rw [ht]
    simp only [State.issueIns, State.issueThread, hst, hu, hp, hb1, hb2, Bool.not_true, Bool.false_eq_true, if_false, ne_eq,
      not_true_eq_false, decide_false, Bool.or_self, Bool.and_self]
    simp only [State.issued] at harm' hpc hfe ⊢
    rw [hpc, hfe]
    simp only [Bool.not_true, Bool.false_eq_true, if_false]
    rw [State.eccRead_clean _ _ _ _ harm']
    rfl

/-! ### What the issue and the completion change -/

theorem State.issued_reg (s : State) (a : Agent) (sl b k : Nat) (h : k ∉ ownKeys a) : (s.issued a sl b).reg k = s.reg k := by
  cases a with
  | pair t e => simp [State.issued]
  | thread n e =>
    simp only [ownKeys, List.mem_singleton] at h
    simp only [State.issued, State.count]
    rw [State.reg_setFld_ne _ _ _ h]; simp

/-- A general register is no register the issue itself changes. -/
theorem gKey_own (a : Agent) (r : BitVec 5) (h : isPair a = true ∨ r.toNat < 16) : gKeyOf a r ∉ ownKeys a := by
  cases a with
  | pair t e => simp only [ownKeys, gKeyOf, List.mem_singleton, gKey, pcKey]; have := r.isLt; omega
  | thread n e => simp only [ownKeys, gKeyOf, List.mem_singleton, AEN_TG, AEN_TISS]; have := r.isLt; have := n.isLt; omega

theorem State.gr_eq (s : State) (a : Agent) (r : BitVec 5) : s.gr a r = if r = 0 then 0 else s.reg (gKeyOf a r) := by
  have : r.toNat = 0 ↔ r = 0 := by simp [BitVec.toNat_eq]
  cases a <;> simp only [State.gr, State.pg, State.tg, gKeyOf, this]

theorem State.setGr_eq (s : State) (a : Agent) (r : BitVec 5) (v : Word) : s.setGr a r v = if r = 0 then s else s.setReg (gKeyOf a r) v := by
  have : r.toNat = 0 ↔ r = 0 := by simp [BitVec.toNat_eq]
  cases a <;> simp only [State.setGr, State.setPg, State.setTg, gKeyOf, this]

theorem State.issued_gr (s : State) (a : Agent) (sl b : Nat) (r : BitVec 5) (h : isPair a = true ∨ r.toNat < 16) :
    (s.issued a sl b).gr a r = s.gr a r := by
  rw [State.gr_eq, State.gr_eq, State.issued_reg _ _ _ _ _ (gKey_own a r h)]

@[simp] theorem State.pair_setReg (s : State) (k) (v) (t) : (s.setReg k v).pair t = s.pair t := rfl
@[simp] theorem State.thr_setReg (s : State) (k) (v) (t) : (s.setReg k v).thr t = s.thr t := rfl

theorem State.pair_updPair_same (s : State) (t : Nat) (f) (h : t < 4) : (s.updPair t f).pair t = f (s.pair t) := by
  simp only [State.pair, State.updPair, vat_vupd_same _ _ h]
theorem State.pair_updPair_ne (s : State) (t u : Nat) (f) (h : u ≠ t) : (s.updPair t f).pair u = s.pair u := by
  simp only [State.pair, State.updPair, vat_vupd_ne _ _ h]
theorem State.thr_updThr_same (s : State) (t : Nat) (f) (h : t < 64) : (s.updThr t f).thr t = f (s.thr t) := by
  simp only [State.thr, State.updThr, vat_vupd_same _ _ h]
theorem State.thr_updThr_ne (s : State) (t u : Nat) (f) (h : u ≠ t) : (s.updThr t f).thr u = s.thr u := by
  simp only [State.thr, State.updThr, vat_vupd_ne _ _ h]


/-- Nothing but registers, meters, pairs and threads differs. -/
def Shape (s t : State) : Prop := t = { s with regs := t.regs, meters := t.meters, pairs := t.pairs, threads := t.threads }
theorem Shape.trans {s t u : State} (h1 : Shape s t) (h2 : Shape t u) : Shape s u := by
  unfold Shape at *
  rw [h2, h1]
theorem Shape.setReg (s : State) (k v) : Shape s (s.setReg k v) := by unfold Shape State.setReg; rfl
theorem Shape.budDraw (s : State) (c r n) : Shape s (s.budDraw c r n) := by
  unfold Shape State.budDraw State.updMeter; cases c <;> rfl
theorem Shape.updPair (s : State) (t f) : Shape s (s.updPair t f) := by unfold Shape State.updPair; rfl
theorem Shape.updThr (s : State) (t f) : Shape s (s.updThr t f) := by unfold Shape State.updThr; rfl
theorem Shape.issued (s : State) (a sl b) : Shape s (s.issued a sl b) := by
  cases a with
  | pair t e => exact (Shape.budDraw ..).trans (Shape.updPair ..)
  | thread n e => exact ((Shape.budDraw ..).trans (Shape.budDraw ..)).trans (Shape.setReg ..)
theorem Shape.retireIns (s : State) (a) : Shape s (s.retireIns a) := by
  cases a with
  | pair t e => exact (Shape.setReg ..).trans (Shape.updPair ..)
  | thread n e => exact Shape.updThr ..

theorem State.retireIns_reg (s : State) (a : Agent) (k : Nat) (h : k ∉ ownKeys a) : (s.retireIns a).reg k = s.reg k := by
  cases a with
  | pair t e =>
    simp only [ownKeys, List.mem_singleton] at h
    have : ∀ (u : State), (u.updPair t fun x => { x with instrs := x.instrs + 1 }).reg k = u.reg k := by intro u; simp [State.reg]
    simp only [State.retireIns, State.retirePair, this, State.setPpc]
    rw [State.reg_setReg_ne _ _ h]
  | thread n e => simp [State.retireIns, State.setThPc, State.reg]

@[simp] theorem State.pair_budDraw (s : State) (c r n t) : (s.budDraw c r n).pair t = s.pair t := by simp [State.pair]
@[simp] theorem State.thr_budDraw (s : State) (c r n t) : (s.budDraw c r n).thr t = s.thr t := by simp [State.thr]
@[simp] theorem State.pair_updThr (s : State) (n f t) : (s.updThr n f).pair t = s.pair t := by simp [State.pair]
@[simp] theorem State.thr_updPair (s : State) (n f t) : (s.updPair n f).thr t = s.thr t := by simp [State.thr]
@[simp] theorem State.reg_updPair (s : State) (n f t) : (s.updPair n f).reg t = s.reg t := by simp [State.reg]
@[simp] theorem State.reg_updThr (s : State) (n f t) : (s.updThr n f).reg t = s.reg t := by simp [State.reg]
@[simp] theorem State.pair_count (s : State) (k f n t) : (s.count k f n).pair t = s.pair t := rfl
@[simp] theorem State.thr_count (s : State) (k f n t) : (s.count k f n).thr t = s.thr t := rfl

/-- Where the effect changes no more than the registers `ks`, the instruction changes no more than them. -/
theorem State.onlyWrites_retire (s u : State) (a : Agent) (sl b : Nat) (ks : List Nat) (hs : Shape (s.issued a sl b) u)
    (hm : u.meters = (s.issued a sl b).meters) (hp : u.pairs = (s.issued a sl b).pairs) (ht : u.threads = (s.issued a sl b).threads)
    (hr : ∀ k, k ∉ ks → u.reg k = (s.issued a sl b).reg k) :
    s.onlyWrites (u.retireIns a) a sl b ks := by
  have hpp : ∀ t, u.pair t = (s.issued a sl b).pair t := by intro t; simp [State.pair, hp]
  have htt : ∀ t, u.thr t = (s.issued a sl b).thr t := by intro t; simp [State.thr, ht]
  refine ⟨((Shape.issued ..).trans hs).trans (Shape.retireIns ..), ?_, ?_, ?_, ?_, ?_, ?_⟩
  · intro k h1 h2; rw [State.retireIns_reg _ _ _ h2, hr k h1, State.issued_reg _ _ _ _ _ h2]
  · rw [← hm]; cases a <;> simp [State.retireIns, State.retirePair, State.setPpc, State.setThPc]
  · intro p h
    cases a with
    | pair t e =>
      have hne : p.val ≠ t.val := fun hh => h e (by rw [Fin.ext hh])
      simp [State.retireIns, State.retirePair, State.setPpc, State.pair_updPair_ne _ _ _ _ hne, hpp, State.issued, State.useStep]
    | thread n e => simp [State.retireIns, State.setThPc, hpp, State.issued]
  · rintro p e rfl
    simp [State.retireIns, State.retirePair, State.setPpc, State.pair_updPair_same, hpp, State.issued, State.useStep]
  · intro n h
    cases a with
    | pair t e => simp [State.retireIns, State.retirePair, State.setPpc, htt, State.issued, State.useStep]
    | thread m e =>
      have hne : n.val ≠ m.val := fun hh => h e (by rw [Fin.ext hh])
      simp [State.retireIns, State.setThPc, State.thr_updThr_ne _ _ _ _ hne, htt, State.issued]
  · intro n
    cases a with
    | pair t e => simp [State.retireIns, State.retirePair, State.setPpc, htt, State.issued, State.useStep]
    | thread m e =>
      by_cases hne : n.val = m.val
      · simp [State.retireIns, State.setThPc, hne, State.thr_updThr_same, htt, State.issued]
      · simp [State.retireIns, State.setThPc, State.thr_updThr_ne _ _ _ _ hne, htt, State.issued]

theorem State.pcOf_retireIns (s u : State) (a : Agent) (sl b : Nat) (hp : u.threads = (s.issued a sl b).threads)
    (hr : ∀ t e, a = .pair t e → u.reg (pcKey t) = s.reg (pcKey t)) : (u.retireIns a).pcOf a = s.pcOf a + 4 := by
  cases a with
  | pair t e =>
    simp [State.retireIns, State.retirePair, State.pcOf, State.ppc, State.setPpc, hr t e rfl]
  | thread n e =>
    have : u.thr n = s.thr n := by simp only [State.thr, hp]; simp [State.issued]
    simp [State.retireIns, State.pcOf, State.setThPc, State.thr_updThr_same, this]

/-- What writing one general register and completing does, from the issued state on. -/
theorem State.setGr_retire_spec (s : State) (a : Agent) (sl b : Nat) (rd : BitVec 5) (w : Word) (hr : isPair a = true ∨ rd.toNat < 16) :
    ((((s.issued a sl b).setGr a rd w).retireIns a).gr a rd = if rd = 0 then 0 else w)
      ∧ (((s.issued a sl b).setGr a rd w).retireIns a).pcOf a = s.pcOf a + 4
      ∧ s.onlyWrites (((s.issued a sl b).setGr a rd w).retireIns a) a sl b (if rd = 0 then [] else [gKeyOf a rd]) := by
  rw [State.setGr_eq]
  have hk := gKey_own a rd hr
  by_cases h0 : rd = 0
  · simp only [h0, if_true]
    refine ⟨?_, ?_, ?_⟩
    · rw [State.gr_eq]; simp
    · apply State.pcOf_retireIns (sl := sl) (b := b) (hp := rfl)
      rintro t e rfl; simp [State.issued]
    · exact State.onlyWrites_retire _ _ _ _ _ _ rfl rfl rfl rfl (fun _ _ => rfl)
  · simp only [h0, if_false]
    refine ⟨?_, ?_, ?_⟩
    · rw [State.gr_eq, if_neg h0, State.retireIns_reg _ _ _ hk]; simp
    · refine State.pcOf_retireIns s _ a sl b (by simp) ?_
      rintro t e rfl
      rw [State.reg_setReg_ne]
      · simp [State.issued]
      · simpa [ownKeys] using (Ne.symm (by simpa [ownKeys] using hk))
    · refine State.onlyWrites_retire _ _ _ _ _ _ (Shape.setReg ..) (by simp) (by simp) (by simp) ?_
      intro k hk2
      have hk3 : k ≠ gKeyOf a rd := by simpa using hk2
      exact State.reg_setReg_ne _ _ hk3

/-- Everything an instruction that computes one general register does. -/
theorem State.toReg_spec (s : State) (a : Agent) (x : Form) (rd : BitVec 5) (v : State → Word) (hx : x.f = []) (hs : x.slots = 1)
    (h : s.canIssue a x.g [] 1 0) (hd : rd ∈ x.g) (hprof : x.prof = .both ∨ (x.prof = .onlyP ∧ isPair a = true))
    (w : Word) (hw : v (s.issued a 1 0) = w) :
    ∃ t, Host.Outcome.next (s.toReg a x rd v) = (Host.Outcome.next t : Host.Outcome State Fault Refusal)
      ∧ t.gr a rd = (if rd = 0 then 0 else w)
      ∧ t.pcOf a = s.pcOf a + 4 ∧ s.onlyWrites t a 1 0 (if rd = 0 then [] else [gKeyOf a rd]) := by
  have hg : ∀ r ∈ x.g, isPair a = true ∨ r.toNat < 16 := by
    intro r hr
    cases a with
    | pair t e => left; rfl
    | thread n e => right; exact h.2.2.2.2.2.1 r hr
  have hill : x.illegal a = false := by
    cases a with
    | pair t e =>
      rcases hprof with hp | ⟨hp, -⟩ <;> simp [Form.illegal, hx, hp]
    | thread n e =>
      rcases hprof with hp | ⟨-, hp⟩
      · simp only [Form.illegal, hp]
        rw [Bool.or_eq_false_iff]
        refine ⟨by decide, ?_⟩
        rw [List.any_eq_false]
        intro r hr; have := h.2.2.2.2.2.1 r hr; simp; omega
      · simp [isPair] at hp
  have hrun := State.issueIns_run s a x { run := fun u => (u.setGr a rd (v u)).retireIns a } (by rw [hx, hs]; exact h) hill
  refine ⟨_, rfl, ?_⟩
  unfold State.toReg
  rw [hrun, hs]
  simp only []
  rw [hw]
  exact State.setGr_retire_spec s a 1 0 rd w (hg rd hd)

/-- Where a thread can issue an angle instruction, it takes its effect in the issued state. -/
theorem State.angIns_run (s : State) (n : Fin 64) (x : Form) (f : State → Nat → State) (b : Nat)
    (h : s.canIssue (.thread n .clean) x.g [] x.slots b) (hx : x.f = []) :
    s.angIns (.thread n .clean) x f b = f (s.issued (.thread n .clean) x.slots b) n := by
  unfold State.angIns
  rw [State.issueIns_run]
  · exact ⟨h.1, rfl, h.2.2.1, h.2.2.2.1, h.2.2.2.2.1, h.2.2.2.2.2.1, h.2.2.2.2.2.2⟩
  · simp only [Form.illegal]
    rw [Bool.or_eq_false_iff]
    refine ⟨by decide, ?_⟩
    rw [List.any_eq_false]
    intro r hr; have := h.2.2.2.2.2.1 r hr; simp; omega

end Sys2Proof.Machine
end

