-- ==== Sys2Proof/WellFormed.lean ====
section
/-! DEFINITION. Which commands the outside world can send: what the types of the operands leave open. Meanings are total: an
ill-formed command has no effect that a well-formed one could not have had. -/

namespace Sys2Proof

/-- Payload bytes that a DLC of a CAN frame names (R542): more than 8 only in a CAN FD frame. -/
def payloadBytes (fdf : Bool) (dlc : BitVec 4) : Nat :=
  let n := dlc.toNat
  if n ≤ 8 then n
  else if !fdf then 8
  else if n = 9 then 12 else if n = 10 then 16 else if n = 11 then 20 else if n = 12 then 24 else if n = 13 then 32
  else if n = 14 then 48 else 64

/-- A CAN frame: an 11-bit identifier unless extended, no remote frame in CAN FD, and the payload that its DLC names. -/
def canFrameOk (id : BitVec 29) (ide fdf rtr : Bool) (dlc : BitVec 4) (data : List Byte) : Bool :=
  (ide || decide (id.toNat < 2 ^ 11)) && !(fdf && rtr) && data.length == (if rtr then 0 else payloadBytes fdf dlc)

/-- The command is one the outside world can send. -/
def Instr.wf : Instr → Bool
  | .crossingDelivery src dst _ => src != dst
  | .stuck src dst => src != dst
  | .actionFire i => decide (i < 131072)
  | .injEndDispatch i => decide (i < 131072)
  | .pulseEnd i => decide (i < 131072)
  | .deferredStart i => decide (i < 131072)
  | .mramScrubRead word _ => decide (word.toNat < 786432)
  | .canReceive _ id ide fdf _ rtr dlc data => canFrameOk id ide fdf rtr dlc data
  | .spiWrite _ _ data _ _ => decide (1 ≤ data.length ∧ data.length ≤ 16)
  | .spiQput _ data _ => decide (1 ≤ data.length ∧ data.length ≤ 16)
  | .rload _ data _ => decide (1 ≤ data.length ∧ data.length ≤ 16)
  | _ => true

end Sys2Proof
end

section
/-! PROOFS. The state after power-on: what the reset values of the thread and enable registers (R279, R211) and
of the pairs' control registers (R236) are, and the two obligations about `State.reset`. -/

namespace Sys2Proof.Machine

/-! ### Rows -/

/-- The row found for an offset is one of the list's, and it holds the offset. -/
theorem mem_and_index_of_rowFind {l : List Row} {o i j : Nat} {r : Row} (h : rowFind l o = some (r, i, j)) :
    r ∈ l ∧ r.index o = some (i, j) := by
  induction l with
  | nil => simp [rowFind] at h
  | cons x xs ih =>
    cases hx : x.index o with
    | some ij =>
      have hxr : (x, ij) = (r, i, j) := by simpa [rowFind, hx] using h
      obtain ⟨rfl, rfl⟩ := Prod.mk.inj hxr
      exact ⟨List.mem_cons_self, hx⟩
    | none =>
      have hxs : rowFind xs o = some (r, i, j) := by simpa [rowFind, hx] using h
      obtain ⟨hmem, hidx⟩ := ih hxs
      exact ⟨List.mem_cons_of_mem _ hmem, hidx⟩

/-- A row without a second array dimension holds the offsets of its instances and no other. -/
theorem Row.offset_of_index {r : Row} {o i j : Nat} (hs : r.s2 = 4) (hc : r.c2 = 1) (h : r.index o = some (i, j)) :
    i < r.c1 ∧ o = r.off + r.s1 * i := by
  unfold Row.index at h
  split at h
  · cases h
  · next hlo =>
    rw [hs, hc] at h
    simp only [Option.ite_none_right_eq_some, Option.some.injEq, Prod.mk.injEq] at h
    obtain ⟨⟨hi, hmod, hlt⟩, rfl, -⟩ := h
    have hdiv := Nat.div_add_mod (o - r.off) r.s1
    exact ⟨hi, by omega⟩

/-! ### Reset values of the register blocks -/

/-- A register of a block resets to 0 where its row does, outside the registers whose reset value no row gives: the challenge of
R589, SUP of the banks (R353) and DBG_CTRL.EN (R630). -/
theorem resetOf_eq_zero_of_row {k : Nat} (hlo : 0x40000000 ≤ k) (hhi : k < 0x40180000) (hhmk : blkOf k ≠ blkHMK)
    (hinj : k ≠ INJ_BANK 2 ∧ k ≠ INJ_BANK 3) (hdbg : k ≠ DBG_CTRL)
    (h : ∀ r i j, rowFind (blockRows (blkOf k)) (k % 0x10000) = some (r, i, j) → r.rst = 0) : resetOf k = 0 := by
  unfold resetOf
  rw [if_neg (by omega), if_pos hhi, if_neg (fun hc => hhmk hc.1), if_neg (by tauto), if_neg hdbg]
  split
  · next r i j hrow => rw [h r i j hrow]; rfl
  · rfl

/-- TWIN is the one row of block AEN whose reset value is not 0 (R279). -/
theorem aenRow_rst : ∀ r ∈ blockRows blkAEN,
    r.rst = 0 ∨ (r.off = 0x101c ∧ r.s1 = 0x40 ∧ r.c1 = 64 ∧ r.s2 = 4 ∧ r.c2 = 1) := by decide

/-- Every register of block AEN but the TWIN registers of the threads resets to 0 (R279). -/
theorem resetOf_aen {k : Nat} (hlo : 0x40080000 ≤ k) (hhi : k < 0x40090000) (htwin : ∀ n < 64, k ≠ AEN_TWIN n) :
    resetOf k = 0 := by
  have hblk : blkOf k = blkAEN := by unfold blkOf blkAEN; omega
  refine resetOf_eq_zero_of_row (by omega) (by omega) (by simp [hblk]) (by unfold INJ_BANK; omega) (by unfold DBG_CTRL; omega)
    fun r i j hrow => ?_
  rw [hblk] at hrow
  obtain ⟨hmem, hidx⟩ := mem_and_index_of_rowFind hrow
  obtain hzero | ⟨hoff, hs1, hc1, hs2, hc2⟩ := aenRow_rst r hmem
  · exact hzero
  · obtain ⟨hi, hko⟩ := Row.offset_of_index hs2 hc2 hidx
    rw [hoff, hs1] at hko
    exact absurd (by unfold AEN_TWIN; omega) (htwin i (hc1 ▸ hi))

theorem resetOf_AEN_TSTAT (n : Fin 64) : resetOf (AEN_TSTAT n) = 0 := by
  apply resetOf_aen <;> simp only [AEN_TSTAT, AEN_TWIN] <;> omega

theorem resetOf_AEN_TG (n : Fin 64) {r : Nat} (hr : r ≤ 15) : resetOf (AEN_TG n r) = 0 := by
  apply resetOf_aen <;> simp only [AEN_TG, AEN_TWIN] <;> omega

/-! ### Reset values of the pairs' control registers -/

/-- The control registers of a pair (R236): STATUS, COREID and ISAVER have reset values, the others 0. -/
theorem resetOf_csrKey (t : Nat) {c : Nat} (hc : c < 960) :
    resetOf (csrKey t c) =
      if c = csSTATUS then 2 else if c = csCOREID then BitVec.ofNat 32 t else if c = csISAVER then 0x00010000 else 0 := by
  have hoff : (csrKey t c - 0x100000000) % 0x1000 = 0x100 + 4 * c := by unfold csrKey; omega
  have hpair : (csrKey t c - 0x100000000) / 0x1000 = t := by unfold csrKey; omega
  have hplace (d : Nat) : 0x100 + 4 * c = 0x100 + 4 * d ↔ c = d := by omega
  unfold resetOf coreReset
  rw [if_neg (by unfold csrKey; omega), if_neg (by unfold csrKey; omega), if_neg (by unfold csrKey; omega), hoff, hpair]
  exact if_congr (hplace 0) rfl (if_congr (hplace 11) rfl (if_congr (hplace 12) rfl rfl))

/-! ### The state after power-on -/

@[simp] theorem State.reset_reg (k : Nat) : State.reset.reg k = resetOf k := rfl

theorem State.reset_canonical : State.reset.canonical := ⟨rfl, State.reset_memory_wf⟩

@[simp] theorem Fld.get_zero (f : Fld) : f.get 0#32 = 0 := by simp [Fld.get]

theorem State.reset_csr (p : Fin 4) : State.reset.csr p csCOREID = BitVec.ofNat 32 p
    ∧ State.reset.csr p csISAVER = 0x00010000 ∧ State.reset.csr p csSTATUS = 2 :=
  ⟨resetOf_csrKey p (by decide), resetOf_csrKey p (by decide), resetOf_csrKey p (by decide)⟩

theorem State.reset_thread (n : Fin 64) : State.reset.thState n = 0 ∧ State.reset.pend n = 0
    ∧ ∀ r, 1 ≤ r → r ≤ 15 → State.reset.tg n r = 0 := by
  refine ⟨?_, ?_, fun r _ hr => ?_⟩
  · simp [State.thState, State.fld, resetOf_AEN_TSTAT]
  · simp [State.pend, State.fld, resetOf_AEN_TSTAT]
  · simp [State.tg, resetOf_AEN_TG n hr]

/-- Every output channel is disabled (R211). -/
theorem State.reset_outputsDisabled : State.reset.reg OUT_ENI = 0 ∧ State.reset.reg OUT_ENG = 0 ∧ State.reset.reg OUT_ENA = 0 :=
  ⟨rfl, rfl, rfl⟩

end Sys2Proof.Machine

open Sys2Proof.Machine

/-- Settles O16: no register is listed at reset, so each reads its reset value, and those of R236 and R258 are the ones named. -/
theorem resetValues : Obligations.ResetValues :=
  have ⟨hENI, hENG, hENA⟩ := State.reset_outputsDisabled
  ⟨State.reset_reg, State.reset_canonical, State.reset_csr, State.reset_thread, rfl, rfl, rfl, rfl, hENI, hENG, hENA, rfl⟩

/-- Settles O17: both tables are empty, and the empty table is in canonical form. -/
theorem resetIsCanonical : Obligations.ResetIsCanonical :=
  ⟨State.reset_canonical, rfl, rfl⟩

end

section
/-! PROOFS. The two tables of the state, registers and memory, keep their one canonical form (log 13). A state changes its
tables through the shared operations alone (`setReg`, `wr8` and what is built of them) and through the resets, which drop
entries; each operation of the model gets one lemma that says it keeps the form, `State.canonical.<operation>`, so that the
proof about an operation is the chain of the operations it is built of. -/

namespace Sys2Proof.Machine

/-! ### Tables -/

/-- Fewer entries of a canonical table are a canonical table. -/
theorem tabWfFrom_filter {α : Type} [DecidableEq α] {d : Nat → α} (p : Nat × α → Bool) {l : List (Nat × α)}
    {lo : Option Nat} (h : tabWfFrom d lo l = true) : tabWfFrom d lo (l.filter p) = true := by
  induction l generalizing lo with
  | nil => rfl
  | cons e t ih =>
    simp only [tabWfFrom, Bool.and_eq_true] at h
    obtain ⟨hhead, htail⟩ := h
    rw [List.filter_cons]
    split
    · simp only [tabWfFrom, Bool.and_eq_true]
      exact ⟨hhead, ih htail⟩
    · exact ih (tabWfFrom_trans d t lo e.1 hhead.1 htail)

theorem tabWf_filter {α : Type} [DecidableEq α] {d : Nat → α} (p : Nat × α → Bool) {l : List (Nat × α)}
    (h : tabWf d l = true) : tabWf d (l.filter p) = true := tabWfFrom_filter p h

section
variable {s : State}

theorem State.canonical.regs (h : s.canonical) : tabWf resetOf s.regs = true := h.1

theorem State.canonical.mem (h : s.canonical) : Memory.wf s.mem = true := h.2

/-- Only the two tables count. -/
theorem State.canonical.ofTables {t : State} (h : s.canonical) (hr : t.regs = s.regs) (hm : t.mem = s.mem) : t.canonical := by
  rw [State.canonical, hr, hm]; exact h

theorem State.canonical.ite {c : Prop} [Decidable c] {a b : State} (ha : a.canonical) (hb : b.canonical) :
    (if c then a else b).canonical := by
  split
  · exact ha
  · exact hb

theorem State.canonical.iteFst {α : Type} {c : Prop} [Decidable c] {a b : State × α} (ha : a.1.canonical) (hb : b.1.canonical) :
    (if c then a else b).1.canonical := by
  split
  · exact ha
  · exact hb

theorem State.canonical.pair {α : Type} {x : α} (h : s.canonical) : (s, x).1.canonical := h

theorem State.canonical.mapFst {α β : Type} {r : State × α} {x : β} (h : r.1.canonical) : (r.1, x).1.canonical := h

theorem State.canonical.foldl {α : Type} {f : State → α → State} {l : List α} (h : s.canonical)
    (hf : ∀ t x, t.canonical → (f t x).canonical) : (l.foldl f s).canonical := by
  induction l generalizing s with
  | nil => exact h
  | cons x xs ih => exact ih (hf s x h)

theorem State.canonical.setReg {k : Nat} {v : Word} (h : s.canonical) : (s.setReg k v).canonical :=
  ⟨s.setReg_wf k v h.regs, h.mem⟩

theorem State.canonical.wr8 {a : Nat} {b : Byte} (h : s.canonical) : (s.wr8 a b).canonical :=
  ⟨h.regs, s.wr8_wf a b h.mem⟩

/-- Whatever state the outcome answers is in canonical form. -/
def AnswersCanonical (o : Host.Outcome State Fault Refusal) : Prop := ∀ t, o = .next t → t.canonical

theorem AnswersCanonical.next (h : s.canonical) : AnswersCanonical (.next s) := by
  rintro t ⟨⟩; exact h

theorem AnswersCanonical.ite {c : Prop} [Decidable c] {a b : Host.Outcome State Fault Refusal} (ha : AnswersCanonical a)
    (hb : AnswersCanonical b) : AnswersCanonical (if c then a else b) := by
  split
  · exact ha
  · exact hb

/-! ### Shared operations -/

theorem State.canonical.setFld {k : Nat} {f : Fld} {v : Nat} (h : s.canonical) : (s.setFld k f v).canonical := h.setReg

theorem State.canonical.setBit {k i : Nat} {b : Bool} (h : s.canonical) : (s.setBit k i b).canonical := h.setReg

theorem State.canonical.count {k : Nat} {f : Fld} {n : Nat} (h : s.canonical) : (s.count k f n).canonical := h.setFld

theorem State.canonical.wrBytes {a : Nat} {l : List Byte} (h : s.canonical) : (s.wrBytes a l).canonical := by
  induction l generalizing a s with
  | nil => exact h
  | cons b t ih => exact ih h.wr8

theorem State.canonical.wr32 {a : Nat} {w : Word} (h : s.canonical) : (s.wr32 a w).canonical := h.wrBytes

theorem State.canonical.launch {src dst : Island} {b : Body} (h : s.canonical) : (s.launch src dst b).canonical :=
  .ofTables h rfl rfl

theorem State.canonical.goodFrame {toHv : Bool} (h : s.canonical) : (s.goodFrame toHv).canonical := .ofTables h rfl rfl

theorem State.canonical.ackItem {src dst : Island} (h : s.canonical) : (s.ackItem src dst).canonical := by
  unfold State.ackItem
  extract_lets s1
  have h1 : s1.canonical := .ofTables h rfl rfl
  exact .ite h1.goodFrame (.ite h1.goodFrame h1)

theorem State.canonical.raise {evt bit : Nat} (h : s.canonical) : (s.raise evt bit).canonical := h.setBit.launch

theorem State.canonical.sendFault {blk unit kind cls detail : Nat} (h : s.canonical) :
    (s.sendFault blk unit kind cls detail).canonical :=
  h.launch

theorem State.canonical.sendFaultFrom {isl : Island} {blk unit kind cls detail : Nat} (h : s.canonical) :
    (s.sendFaultFrom isl blk unit kind cls detail).canonical :=
  h.launch

theorem State.canonical.refuseWrite {addr : Nat} (h : s.canonical) : (s.refuseWrite addr).canonical := by
  -- The definition is opened under an equation, so that the kernel compares the constant and its body, not two applications.
  have unfolded : ∀ f, f = @State.refuseWrite → (f s addr).canonical := by
    intro f hf
    delta State.refuseWrite at hf
    subst hf
    beta_reduce
    split
    · exact h
    · extract_lets s1
      have h1 : s1.canonical := by
        unfold s1
        split
        · exact h
        · exact h.setBit
        · exact h.setBit
      exact h1.setFld.sendFault
  exact unfolded _ rfl

theorem State.canonical.writeWith {addr : Nat} {w : Word} {locked legal : Bool} {act : State → State} (h : s.canonical)
    (hact : ∀ t, t.canonical → (act t).canonical) :
    (s.writeWith addr w locked legal act).canonical := by
  have unfolded : ∀ f, f = @State.writeWith → (f s addr w locked legal act).canonical := by
    intro f hf
    delta State.writeWith at hf
    subst hf
    beta_reduce
    split
    · exact h
    · exact .ite (hact _ h.setReg) h.refuseWrite
  exact unfolded _ rfl

theorem State.canonical.useFree (h : s.canonical) : s.useFree.canonical := .ofTables h rfl rfl

theorem State.canonical.respond {w : Word} {err : Bool} (h : s.canonical) : (s.respond w err).canonical := .ofTables h rfl rfl

/-! ### Budgets -/

theorem State.canonical.updMeter {a r : Nat} {f : Meter → Meter} (h : s.canonical) : (s.updMeter a r f).canonical := by
  simpa only [State.canonical, State.updMeter] using h

theorem State.canonical.budDraw {acct : Option Nat} {r n : Nat} (h : s.canonical) : (s.budDraw acct r n).canonical := by
  unfold State.budDraw
  split
  · exact h
  · exact h.updMeter

theorem State.canonical.budStarve {acct : Option Nat} {r : Nat} (h : s.canonical) : (s.budStarve acct r).canonical := by
  unfold State.budStarve
  split
  · exact h
  · exact h.updMeter

theorem State.canonical.budDrop {acct : Option Nat} (h : s.canonical) : (s.budDrop acct).canonical := by
  unfold State.budDrop
  split
  · exact h
  · exact h.count.raise

theorem State.canonical.budClearCounts {n : Nat} (h : s.canonical) : (s.budClearCounts n).canonical := by
  induction n with
  | zero => exact h
  | succ n ih => exact ih.setFld.setReg

theorem State.canonical.budWrite {addr : Nat} {w : Word} (h : s.canonical) : (s.budWrite addr w).canonical := by
  unfold State.budWrite
  exact h.writeWith fun _ ht => .ite (.ite (.setReg (.ite ht.budClearCounts ht)) (.ite ht.budClearCounts ht))
    (.ite ht.setReg ht)

theorem State.canonical.monitorPeak {i : Island} (h : s.canonical) : (s.monitorPeak i).canonical := .ite h.setFld h

theorem State.canonical.refillMeters {i : Island} (h : s.canonical) : (s.refillMeters i).canonical := by
  simpa only [State.canonical, State.refillMeters] using h

theorem State.canonical.closeFrame {i : Island} (h : s.canonical) : (s.closeFrame i).canonical := by
  unfold State.closeFrame
  extract_lets _ _ s1 s2
  have h1 : s1.canonical := h.monitorPeak.launch
  have h2 : s2.canonical := h1.refillMeters
  simpa only [State.canonical] using h2

theorem State.canonical.countOverrun {a res : Nat} {enf : Bool} (h : s.canonical) : (s.countOverrun a res enf).canonical := by
  unfold State.countOverrun
  extract_lets _ s1 _ s2 s3 _ _ s4
  have h1 : s1.canonical := h.raise
  have h2 : s2.canonical := h1.count.count.setFld
  have h3 : s3.canonical := h2.setBit
  have h4 : s4.canonical := .ofTables h3 rfl rfl
  exact .ite h1.setFld (.ite h4.raise.sendFault h4)

theorem State.canonical.endRuns {n : Nat} (h : s.canonical) : (s.endRuns n).canonical := by
  induction n with
  | zero => exact h
  | succ n ih => exact .ite ih ih.setFld

theorem State.canonical.openBudFrame {n : Nat} (h : s.canonical) : (s.openBudFrame n).canonical := by
  unfold State.openBudFrame
  extract_lets x
  have hx : x.canonical := h.setReg.setReg
  exact .ofTables hx rfl rfl

theorem State.canonical.takeReport {frame : Nat} {entries : List (Nat × Nat × Bool)} (h : s.canonical) :
    (s.takeReport frame entries).canonical := by
  unfold State.takeReport
  extract_lets s1 s2 _ s3
  have h1 : s1.canonical := .ite h.openBudFrame (.ite (.openBudFrame (.ite h.endRuns h)) h)
  have h2 : s2.canonical := .foldl h1 fun _ _ ht => ht.countOverrun
  have h3 : s3.canonical := .ofTables h2 rfl rfl
  exact .ite h3.endRuns h3

theorem execBudgetOverrunReport_canonical {src : Island} (h : s.canonical) :
    AnswersCanonical (execBudgetOverrunReport src s) := by
  unfold execBudgetOverrunReport
  split
  · exact .next h.ackItem.takeReport
  · exact .next h

/-! ### Hardware events -/

theorem State.canonical.setPend {n k : Nat} (h : s.canonical) : (s.setPend n k).canonical := h.setBit

theorem State.canonical.setPendWhere {k : Nat} {p : Nat → Bool} {n : Nat} (h : s.canonical) :
    (s.setPendWhere k p n).canonical := by
  induction n with
  | zero => exact h
  | succ n ih => exact .ite ih.setPend ih

theorem State.canonical.setPendAll {k : Nat} (h : s.canonical) : (s.setPendAll k).canonical := h.setPendWhere

theorem State.canonical.hwEvent {sel : Nat} (h : s.canonical) : (s.hwEvent sel).canonical :=
  .foldl h fun _ _ ht => ht.setPendWhere

theorem State.canonical.syncQueue {q : Nat} (h : s.canonical) : (s.syncQueue q).canonical :=
  .ite h (.foldl h fun _ _ ht => ht.setPendWhere)

theorem State.canonical.syncThread {n : Nat} (h : s.canonical) : (s.syncThread n).canonical :=
  .foldl h fun _ _ ht => .ite ht.setPend ht

theorem State.canonical.pulseLine {src : Island} {k : Nat} (h : s.canonical) : (s.pulseLine src k).canonical :=
  h.launch.launch.launch.launch.launch.launch

theorem State.canonical.pulseSelected {src : Island} {sel : Nat} (h : s.canonical) : (s.pulseSelected src sel).canonical :=
  .foldl h fun _ _ ht => .ite ht.pulseLine ht

/-! ### Queues -/

theorem State.canonical.qRefuse {n : Nat} (h : s.canonical) : (s.qRefuse n).canonical := h.count.raise

theorem State.canonical.qput {n : Nat} {e : List Byte} (h : s.canonical) : (s.qput n e).1.canonical :=
  .iteFst h.qRefuse (.iteFst h.qRefuse h.wrBytes.setFld.setFld.syncQueue)

theorem State.canonical.qputFor {acct : Option Nat} {n : Nat} {e : List Byte} (h : s.canonical) :
    (s.qputFor acct n e).1.canonical :=
  .iteFst h.budDraw.qput h.budStarve.qRefuse.budDrop

theorem State.canonical.qpop {n k : Nat} (h : s.canonical) : (s.qpop n k).canonical := h.setFld.setFld

theorem State.canonical.queueWrite {addr : Nat} {w : Word} (h : s.canonical) : (s.queueWrite addr w).canonical :=
  h.writeWith fun _ ht => .ite ht.setReg.setReg.setReg (.ite ht.qpop ht)

theorem State.canonical.portWrite {addr : Nat} {w : Word} (h : s.canonical) : (s.portWrite addr w).canonical :=
  h.writeWith fun _ hu => .ite hu.qput.setFld hu

/-! ### Trims -/

theorem State.canonical.setTrimBase {i : Nat} {w : Word} (h : s.canonical) : (s.setTrimBase i w).canonical :=
  .ofTables h rfl rfl

theorem State.canonical.trimShow {i : Nat} {v : Word} (h : s.canonical) : (s.trimShow i v).canonical := h.setReg.setFld.setFld

theorem State.canonical.trimUpdate {i : Nat} (h : s.canonical) : (s.trimUpdate i).canonical := h.trimShow

theorem State.canonical.trimWriteHw {i : Nat} {v : Word} (h : s.canonical) : (s.trimWriteHw i v).canonical :=
  h.setReg.setFld.trimUpdate

theorem State.canonical.trimWritePolicy {m : Master} {i : Nat} {v : Word} (h : s.canonical) :
    (s.trimWritePolicy m i v).canonical := by
  unfold State.trimWritePolicy
  extract_lets s1
  have h1 : s1.canonical := h.setReg.setFld
  refine .trimUpdate ?_
  split
  · exact h1.setFld
  · exact h1
  · exact h1
  · exact h1
  · exact h1

theorem State.canonical.trimBoundary {n : Nat} (h : s.canonical) : (s.trimBoundary n).canonical := by
  induction n with
  | zero => exact h
  | succ n ih => exact ih.setTrimBase.trimUpdate

theorem State.canonical.envelopeWrite {addr : Nat} {w : Word} (h : s.canonical) : (s.envelopeWrite addr w).1.canonical :=
  .iteFst h.sendFault (h.writeWith fun _ ht => ht.setTrimBase.trimShow)

theorem State.canonical.elockWrite {w : Word} (h : s.canonical) : (s.elockWrite w).canonical := .ite h.setFld h

/-! ### Interrupts -/

theorem State.canonical.takeIrq {n : Nat} {count pend : Bool} (h : s.canonical) : (s.takeIrq n count pend).canonical :=
  .ite (.setBit (.ite h.count h)) (.ite h.count h)

theorem State.canonical.claimRead {m : Master} {t : Nat} (h : s.canonical) : (s.claimRead m t).1.canonical := by
  unfold State.claimRead
  extract_lets _ _ s1 s2
  have h1 : s1.canonical := h.setBit.setBit
  have h2 : s2.canonical := .ite h1 h1.setFld
  exact .iteFst h.sendFault (.iteFst h (.ofTables h2 rfl rfl))

theorem State.canonical.completeSource {n : Nat} (h : s.canonical) : (s.completeSource n).canonical := by
  unfold State.completeSource
  extract_lets s1 _ s2
  have h1 : s1.canonical := h.setBit
  have h2 : s2.canonical := .ofTables h1 rfl rfl
  exact .ite h2.launch h2

theorem State.canonical.showAssert {x : Nat} (h : s.canonical) : (s.showAssert x).canonical := h.setBit

theorem State.canonical.extSend {x : Nat} (h : s.canonical) : (s.extSend x).canonical := h.setBit.launch

theorem State.canonical.extEnable {x : Nat} {was : Bool} (h : s.canonical) : (s.extEnable x was).canonical :=
  .ite (.ite h.extSend h) (.ite h.setBit h)

theorem State.canonical.extDone {x : Nat} (h : s.canonical) : (s.extDone x).canonical := .ite (.ite h.launch h.setBit) h

theorem State.canonical.extLevel {x : Nat} {lv : Bool} (h : s.canonical) : (s.extLevel x lv).canonical := by
  unfold State.extLevel
  extract_lets _ _ _ _ s1 s2 s3
  have h1 : s1.canonical := .ofTables h rfl rfl
  have h2 : s2.canonical := h1.showAssert
  have h3 : s3.canonical := h2.pulseSelected
  exact .ite (.ite h3 (.ite h3.launch h3.extSend)) h2

theorem State.canonical.irqWrite {m : Master} {addr : Nat} {w : Word} (h : s.canonical) : (s.irqWrite m addr w).canonical := by
  unfold State.irqWrite
  extract_lets
  exact h.writeWith fun _ ht => .ite ht.setFld (.ite ht.setReg (.ite (.foldl ht fun _ _ hu => .ite hu.setFld hu)
    (.ite ht.setReg.completeSource (.ite ht.showAssert.extEnable (.ite ht.takeIrq ht)))))

theorem execIrqMessage_canonical {src : Island} (h : s.canonical) : AnswersCanonical (execIrqMessage src s) := by
  unfold execIrqMessage
  split
  · exact .next h.ackItem.takeIrq
  · exact .next h

theorem execExtintResend_canonical (h : s.canonical) : AnswersCanonical (execExtintResend s) := by
  unfold execExtintResend
  split
  · exact .next h.ackItem.extDone
  · exact .next h

/-! ### Timers -/

theorem State.canonical.updTmr {n : Nat} {f : Tmr → Tmr} (h : s.canonical) : (s.updTmr n f).canonical := by
  simpa only [State.canonical, State.updTmr] using h

theorem State.canonical.tmrStep {n : Nat} (h : s.canonical) : (s.tmrStep n).canonical := by
  unfold State.tmrStep
  extract_lets _ _ _ s1 s2
  have h1 : s1.canonical := h.setReg.updTmr
  have h2 : s2.canonical := .ite h1.updTmr h1
  exact .ite h2.updTmr h2

theorem State.canonical.tmrStart {n : Nat} (h : s.canonical) : (s.tmrStart n).canonical := .ite h h.setBit.updTmr

theorem State.canonical.tmrStop {n : Nat} (h : s.canonical) : (s.tmrStop n).canonical := h.setBit.updTmr

theorem State.canonical.tmrCapture {n : Nat} {v : Word} (h : s.canonical) : (s.tmrCapture n v).canonical := h.setReg.raise

theorem State.canonical.tmrEdge {src other : Nat} (h : s.canonical) : (s.tmrEdge src other).canonical :=
  .foldl h fun _ _ ht => .ite ht.updTmr (.ite ht.updTmr ht)

theorem State.canonical.tmrWrite {addr : Nat} {w : Word} (h : s.canonical) : (s.tmrWrite addr w).canonical := by
  unfold State.tmrWrite
  extract_lets
  exact h.writeWith fun _ ht => .ite (.foldl ht fun _ _ hu => .ite hu.tmrStart hu) (.ite
    (.foldl ht fun _ _ hu => .ite hu.tmrStop hu) (.ite ht.updTmr (.ite ht.updTmr ht)))

theorem execTimerCapture_canonical {n : Fin 16} (h : s.canonical) : AnswersCanonical (execTimerCapture n s) := by
  unfold execTimerCapture
  extract_lets
  refine .ite (.next h) (.ite (.next h.tmrCapture) ?_)
  split
  · exact .next h.updTmr.tmrCapture
  · exact .next h

/-! ### Comparators -/

theorem State.canonical.cmpEdge {n : Nat} {rising : Bool} (h : s.canonical) : (s.cmpEdge n rising).canonical :=
  .ite h.setBit.raise.count.setBit.pulseSelected.launch.tmrEdge h.setBit.raise.count.tmrEdge

theorem State.canonical.takeRamp {k : Nat} {start : Bool} (h : s.canonical) : (s.takeRamp k start).canonical := by
  unfold State.takeRamp
  refine .foldl h fun _ _ ht => .ite ?_ ht
  extract_lets x
  have hx : x.canonical := ht.setBit
  simpa only [State.canonical] using hx

theorem State.canonical.cmpWrite {addr : Nat} {w : Word} (h : s.canonical) : (s.cmpWrite addr w).canonical :=
  h.writeWith fun _ ht => .ite (.ite ht.setBit.setReg (.ite ht.setBit.setBit.setBit ht)) ht

theorem execRampStart_canonical (h : s.canonical) : AnswersCanonical (execRampStart s) := by
  unfold execRampStart
  split
  · exact .next h.ackItem.takeRamp
  · exact .next h

/-! ### Ethernet -/

theorem State.canonical.updEth {f : Eth → Eth} (h : s.canonical) : (s.updEth f).canonical := .ofTables h rfl rfl

theorem State.canonical.ethTick (h : s.canonical) : s.ethTick.canonical := h.updEth

theorem State.canonical.runEth (h : s.canonical) : s.runEth.canonical := .ite h.ethTick h

theorem State.canonical.ethCapture (h : s.canonical) : s.ethCapture.canonical := h.setReg.setReg.setReg.raise

theorem State.canonical.ethTrigger {k : Nat} (h : s.canonical) : (s.ethTrigger k).canonical := .ite h.ethCapture h

theorem State.canonical.ethComplete {addr w1 : Word} {status : Nat} {stamp : Option Nat} (h : s.canonical) :
    (s.ethComplete addr w1 status stamp).canonical :=
  h.qputFor.raise

theorem State.canonical.ethDrop {evt : Nat} (h : s.canonical) : (s.ethDrop evt).canonical := .raise (.ite h.count h.count)

theorem State.canonical.ethPause {l : List Byte} (h : s.canonical) : (s.ethPause l).canonical := by
  unfold State.ethPause
  split
  · exact .ite h.updEth h
  · exact h

theorem State.canonical.ethAccept {l : List Byte} (h : s.canonical) : (s.ethAccept l).canonical :=
  h.qpop.wrBytes.updEth.qputFor.raise

theorem State.canonical.ethArrive {l : List Byte} {good : Bool} (h : s.canonical) : (s.ethArrive l good).canonical := by
  unfold State.ethArrive
  extract_lets _ _ s1 s2
  have h1 : s1.canonical := h.updEth
  have h2 : s2.canonical := h1.ethPause
  exact .ite h1.ethDrop (.ite h2.ethDrop (.ite h2.ethDrop (.ite h2.ethDrop
    (.ite h2.budDraw.ethAccept h2.budStarve.budDrop.count))))

theorem State.canonical.ethSet {sec ns : Nat} (h : s.canonical) : (s.ethSet sec ns).canonical := h.updEth

theorem State.canonical.ethWrite {addr : Nat} {w : Word} (h : s.canonical) : (s.ethWrite addr w).canonical := by
  unfold State.ethWrite
  refine h.writeWith fun _ ht => ?_
  extract_lets
  exact .ite (.setFld (.setFld (.ite ht ht.updEth))) (.ite ht.updEth (.ite ht.ethSet (.ite ht.ethSet (.ite ht.ethSet (.ite
    (.ite ht.updEth ht) ht)))))

theorem execEthTransmit_canonical (h : s.canonical) : AnswersCanonical (execEthTransmit s) := by
  unfold execEthTransmit
  extract_lets _ _ _ _ _ s1
  have h1 : s1.canonical := h.qpop
  exact .ite (.next h) (.next (.ite h1.ethComplete.raise (.ite h1.ethComplete h1.budDraw.updEth)))

theorem execEthTxComplete_canonical (h : s.canonical) : AnswersCanonical (execEthTxComplete s) := by
  unfold execEthTxComplete
  split
  · exact .next h
  · exact .next h.updEth.ethComplete

/-! ### CAN -/

theorem State.canonical.updCan {k : Nat} {f : Can → Can} (h : s.canonical) : (s.updCan k f).canonical := by
  simpa only [State.canonical, State.updCan] using h

theorem State.canonical.canDrop {k : Nat} (h : s.canonical) : (s.canDrop k).canonical := h.count

theorem State.canonical.canArrive {k id : Nat} {ide fdf brs rtr : Bool} {dlc : Nat} {data : List Byte} (h : s.canonical) :
    (s.canArrive k id ide fdf brs rtr dlc data).canonical := by
  unfold State.canArrive
  extract_lets _ _ _ s1
  have h1 : s1.canonical := h.updCan
  refine .ite h1.canDrop.raise ?_
  split
  · exact h1
  · extract_lets s2
    have h2 : s2.canonical := h1.updCan
    exact .ite h2.canDrop (.ite h2.budStarve.budDrop.canDrop (.raise (.foldl h2.budDraw fun _ _ ht => ht.qput)))

theorem State.canonical.canSend {k : Nat} (h : s.canonical) : (s.canSend k).canonical :=
  .ite h (.ite h.qpop.count.raise.sendFault h.qpop.raise)

theorem State.canonical.canCountFrom {old : Word} (h : s.canonical) : (s.canCountFrom old).canonical :=
  .foldl h fun _ _ ht => .ite ht ht.updCan

theorem State.canonical.canWrite {addr : Nat} {w : Word} (h : s.canonical) : (s.canWrite addr w).canonical := by
  unfold State.canWrite
  extract_lets
  exact h.writeWith fun _ ht => .ite ht.canCountFrom.setFld.setFld (.ite ht.updCan (.ite ht.updCan ht))

/-! ### Learned tables -/

theorem State.canonical.updObs {f : Obs → Obs} (h : s.canonical) : (s.updObs f).canonical := .ofTables h rfl rfl

theorem State.canonical.updSync {f : Sync → Sync} (h : s.canonical) : (s.updSync f).canonical := .ofTables h rfl rfl

theorem State.canonical.setHalf {key i v : Nat} (h : s.canonical) : (s.setHalf key i v).canonical := h.setFld

theorem State.canonical.updLearn {n : Nat} {f : Learn → Learn} (h : s.canonical) : (s.updLearn n f).canonical := h.updObs

theorem State.canonical.countDiscard (h : s.canonical) : s.countDiscard.canonical := h.count.raise

theorem State.canonical.dropPass {n : Nat} (h : s.canonical) : (s.dropPass n).canonical := .ite h.updLearn.countDiscard h

theorem State.canonical.spoilPass {n : Nat} (h : s.canonical) : (s.spoilPass n).canonical := h.updLearn

theorem State.canonical.coastCheck (h : s.canonical) : s.coastCheck.canonical :=
  .setFld (.ite (.foldl h fun _ _ ht => ht.dropPass) h)

theorem State.canonical.coastTick (h : s.canonical) : s.coastTick.canonical := .ite h h.coastCheck

theorem State.canonical.fuelled (h : s.canonical) : s.fuelled.canonical := h.updObs.coastCheck

theorem State.canonical.judgeFactors {n : Nat} {r : Rat} (h : s.canonical) : (s.judgeFactors n r).canonical := by
  unfold State.judgeFactors
  extract_lets _ s1
  have h1 : s1.canonical := .ite h.setFld h
  exact .ite h1.setBit.raise (.ite h1.setBit.raise h1)

theorem State.canonical.passEnd {n tEnd : Nat} {ivls : List PassIvl} (h : s.canonical) : (s.passEnd n tEnd ivls).canonical := by
  unfold State.passEnd
  extract_lets _ _ s1 s2
  have h1 : s1.canonical := h.updLearn
  have h2 : s2.canonical := .ite h1.count h1
  split
  · exact h2
  · exact .judgeFactors (.foldl h2 fun _ _ ht => ht.setHalf)

theorem State.canonical.learnInterval {n slot k len next tEnd : Nat} {touched endPaste : Bool} (h : s.canonical) :
    (s.learnInterval n slot k len next tEnd touched endPaste).canonical := by
  unfold State.learnInterval
  extract_lets
  refine .ite h.dropPass ?_
  split
  · exact .ite h.updLearn h
  · exact .ite h.updLearn (.updLearn (.ite h.updLearn.countDiscard h.passEnd))

theorem State.canonical.factTouched {n : Nat} (h : s.canonical) : (s.factTouched n).canonical := h.setBit.updLearn

theorem State.canonical.clearFactors {n : Nat} (h : s.canonical) : (s.clearFactors n).canonical :=
  .factTouched (.foldl h fun _ _ ht => ht.setReg)

theorem State.canonical.torsUpdate {is : List TorsIvl} {u : Rat} (h : s.canonical) : (s.torsUpdate is u).canonical := by
  unfold State.torsUpdate
  extract_lets _ _ s1 s2
  have h1 : s1.canonical := .foldl h fun _ _ ht => ht.setHalf
  have h2 : s2.canonical := h1.updObs
  exact .ite h2.setFld h2

theorem State.canonical.torsCycleEnd (h : s.canonical) : s.torsCycleEnd.canonical := by
  unfold State.torsCycleEnd
  extract_lets _ _ _ _ next
  have hnext : next.canonical := h.updObs
  split
  · exact hnext
  · exact .ite (.ite hnext.countDiscard hnext.torsUpdate) hnext

theorem State.canonical.torsInterval {newCycle : Bool} {i : TorsIvl} {touched : Bool} (h : s.canonical) :
    (s.torsInterval newCycle i touched).canonical :=
  .updObs (.ite h.torsCycleEnd h)

theorem State.canonical.torsTouched (h : s.canonical) : s.torsTouched.canonical := h.setFld.updObs

theorem State.canonical.clearTorsional (h : s.canonical) : s.clearTorsional.canonical :=
  .torsTouched (.foldl h fun _ _ ht => ht.setReg)

theorem State.canonical.learnLost (h : s.canonical) : s.learnLost.canonical := .updObs (.foldl h fun _ _ ht => ht.dropPass)

/-! ### Output channels -/

theorem State.canonical.updOut {c : Nat} {f : OutCh → OutCh} (h : s.canonical) : (s.updOut c f).canonical := by
  simpa only [State.canonical, State.updOut] using h

theorem State.canonical.setPin {n : Nat} {b : Bool} (h : s.canonical) : (s.setPin n b).canonical :=
  .ite h.setBit.fuelled h.setBit

theorem State.canonical.pinIdle {n : Nat} (h : s.canonical) : (s.pinIdle n).canonical := h.setPin

theorem State.canonical.putRecord {a : Action} {st : Nat} {start : Word} {dur : Nat} (h : s.canonical) :
    (s.putRecord a st start dur).canonical :=
  .ite (.ite h.budDraw.qput h.budDraw.qput.count.raise) h

theorem State.canonical.countStatus {st : Nat} (h : s.canonical) : (s.countStatus st).canonical :=
  .ite h.count.raise (.ite h.count.raise (.ite h.count.raise h))

theorem State.canonical.retire {a : Action} {st : Nat} {start : Word} {dur : Nat} (h : s.canonical) :
    (s.retire a st start dur).canonical := by
  unfold State.retire
  extract_lets s1 s2 s3 s4
  have h1 : s1.canonical := .ofTables h rfl rfl
  have h2 : s2.canonical := h1.setFld.countStatus
  have h3 : s3.canonical := .ite h2.raise h2
  have h4 : s4.canonical := .ite h3.setPend h3
  exact h4.putRecord

theorem State.canonical.retirePending {p : Action → Bool} {st : Nat} (h : s.canonical) : (s.retirePending p st).canonical :=
  .foldl h fun _ _ ht => .ite ht.retire ht

theorem State.canonical.updStage {i : Nat} {f : Action → Action} (h : s.canonical) : (s.updStage i f).canonical :=
  .ofTables h rfl rfl

theorem State.canonical.softStart {n : Nat} (h : s.canonical) : (s.softStart n).canonical := h.updOut.setBit.setBit.raise

theorem State.canonical.endEdge {a : Action} {te : Nat} {fast : Bool} (h : s.canonical) : (s.endEdge a te fast).canonical :=
  .ite h.launch.setBit.updOut (.ite h.setBit.updOut h.pinIdle.updOut)

theorem State.canonical.naturalEnd {a : Action} (h : s.canonical) : (s.naturalEnd a).canonical :=
  .ite (.retire (.softStart (.ite h.raise h))) (.retire (.endEdge (.ite h.raise h)))

theorem State.canonical.endPulse {a : Action} {st : Nat} {fast : Bool} (h : s.canonical) : (s.endPulse a st fast).canonical :=
  .ite (.ite h.endEdge.retire h.updStage) (.ite h.softStart.retire h.endEdge.retire)

theorem State.canonical.endActive {p : Action → Bool} {st : Nat} {fast : Bool} (h : s.canonical) :
    (s.endActive p st fast).canonical :=
  .foldl h fun _ _ ht => .ite ht.endPulse ht

theorem State.canonical.startPulse {a : Action} {late : Bool} (h : s.canonical) : (s.startPulse a late).canonical :=
  .ite h.updStage.launch.setBit.fuelled (.ite h.updStage.setBit h.updStage.setPin)

theorem State.canonical.dropAction {a : Action} (h : s.canonical) : (s.dropAction a).canonical := .retire (.ite h.launch h)

theorem State.canonical.fireSingle {a : Action} {late : Bool} (h : s.canonical) : (s.fireSingle a late).canonical := by
  unfold State.fireSingle
  extract_lets _ _ r
  have hr : r.1.canonical := h.qput
  exact .ite h.setPin.retire (.ite h.launch.retire (.ite (.ite hr.retire hr.retire) h.pulseLine.retire))

theorem State.canonical.fireAction {a : Action} (h : s.canonical) : (s.fireAction a).canonical :=
  .ite h.updStage.raise (.ite h.dropAction (.ite h.startPulse h.fireSingle))

theorem State.canonical.deferredStart {a : Action} (h : s.canonical) : (s.deferredStart a).canonical :=
  .ite h.updStage.dropAction h.updStage.startPulse

theorem State.canonical.noteEnds (h : s.canonical) : s.noteEnds.canonical := .ofTables h rfl rfl

theorem State.canonical.updCyc {n : Nat} {f : CycCh → CycCh} (h : s.canonical) : (s.updCyc n f).canonical := by
  simpa only [State.canonical, State.updCyc] using h

theorem State.canonical.cycSet {n : Nat} (h : s.canonical) : (s.cycSet n).canonical := h.updCyc.setPin

theorem State.canonical.cycClr {n : Nat} (h : s.canonical) : (s.cycClr n).canonical := h.updCyc.pinIdle

theorem State.canonical.cycJump {n : Nat} (h : s.canonical) : (s.cycJump n).canonical :=
  .ite h.cycSet.updCyc (.ite h.cycSet (.ite h.cycClr h))

theorem State.canonical.outJump {old : BitVec 56} (h : s.canonical) : (s.outJump old).canonical :=
  .foldl (.ofTables h rfl rfl) fun _ _ ht => ht.cycJump

theorem State.canonical.safeEnd (h : s.canonical) : s.safeEnd.canonical := by
  unfold State.safeEnd
  extract_lets s1 s2 x
  have h1 : s1.canonical := h.endActive.retirePending
  have h2 : s2.canonical := .foldl h1 fun _ _ ht => .ite ht.pinIdle.updCyc ht
  have hx : x.canonical := h2.launch
  exact .ofTables hx rfl rfl

theorem State.canonical.disableChannel {c : Nat} (h : s.canonical) : (s.disableChannel c).canonical :=
  .ite h.endActive.retirePending.pinIdle.updCyc h.endActive.retirePending

theorem State.canonical.disableBits {old : Word} {key base n : Nat} (h : s.canonical) :
    (s.disableBits old key base n).canonical :=
  .foldl h fun _ _ ht => .ite ht.disableChannel ht

theorem State.canonical.disableSamples {f : Nat} (h : s.canonical) : (s.disableSamples f).canonical := h.retirePending

theorem State.canonical.disableCalendar (h : s.canonical) : s.disableCalendar.canonical :=
  .retirePending (.foldl h fun _ _ ht => ht.disableChannel)

theorem State.canonical.injLinkLoss (h : s.canonical) : s.injLinkLoss.canonical := by
  unfold State.injLinkLoss
  extract_lets _ s1
  have h1 : s1.canonical := h.setReg.retirePending
  exact .foldl h1 fun _ _ ht => .ite (.ite ht.setBit.updOut.retire ht.setBit.updStage) ht

theorem State.canonical.injRefused {ch : Nat} (h : s.canonical) : (s.injRefused ch).canonical := by
  unfold State.injRefused
  split
  · exact h
  · exact h.setBit.retire

theorem State.canonical.abortDone {st : Nat} (h : s.canonical) : (s.abortDone st).1.canonical := .iteFst h.raise h

theorem State.canonical.abortHandle {hd : Word} (h : s.canonical) : (s.abortHandle hd).1.canonical := by
  unfold State.abortHandle
  extract_lets
  split
  · exact .iteFst h.retire (.iteFst h (.iteFst h.naturalEnd.abortDone h.endPulse))
  · exact .iteFst h.abortDone h

theorem State.canonical.outWrite {addr : Nat} {w : Word} (h : s.canonical) : (s.outWrite addr w).canonical := by
  unfold State.outWrite
  extract_lets
  exact h.writeWith fun _ ht => .ite ht.disableBits (.ite ht.disableBits (.ite (.foldl ht fun _ _ hu => .ite hu
    (.ite hu.disableChannel (.ite hu.updCyc hu))) (.ite (.ite (.ite ht ht.pinIdle) (.ite ht.updCyc (.ite ht.updCyc ht))) ht)))

theorem execActionFire_canonical {i : Nat} (h : s.canonical) : AnswersCanonical (execActionFire i s) := by
  unfold execActionFire
  split
  · exact .next (.ite h.fireAction h)
  · exact .next h

theorem execInjEndDispatch_canonical {i : Nat} (h : s.canonical) : AnswersCanonical (execInjEndDispatch i s) := by
  unfold execInjEndDispatch
  split
  · exact .ite (.next h) (.ite (.next (.ite h.naturalEnd h)) (.ite (.ite (.next (.ite h.updOut.retire h)) (.next
      (.ite h.endEdge.retire h))) (.next h)))
  · exact .next h

theorem execPulseEnd_canonical {i : Nat} (h : s.canonical) : AnswersCanonical (execPulseEnd i s) := by
  unfold execPulseEnd
  split
  · exact .next (.ite h.naturalEnd h)
  · exact .next h

theorem execDeferredStart_canonical {i : Nat} (h : s.canonical) : AnswersCanonical (execDeferredStart i s) := by
  unfold execDeferredStart
  split
  · exact .next (.ite h.deferredStart h)
  · exact .next h

theorem execSoftShutdownEnd_canonical {n : Fin 24} (h : s.canonical) : AnswersCanonical (execSoftShutdownEnd n s) := by
  unfold execSoftShutdownEnd
  split
  · exact .ite (.next h.updOut.setBit) (.next h)
  · exact .next h

theorem execCycReturnDelayed_canonical {n : Fin 16} (h : s.canonical) : AnswersCanonical (execCycReturnDelayed n s) := by
  unfold execCycReturnDelayed
  split
  · exact .next (.ite h.updCyc.pinIdle h)
  · exact .next h

theorem execAbortArrival_canonical (h : s.canonical) : AnswersCanonical (execAbortArrival s) := by
  unfold execAbortArrival
  split
  · exact .next h
  · exact .next (.setReg (.abortHandle (.ofTables h rfl rfl)))

/-! ### The calendar -/

theorem State.canonical.refusePost {st : Nat} (h : s.canonical) : (s.refusePost st).canonical := h.count.raise

theorem State.canonical.post {w0 w1 w2 w3 : Word} {poster : Nat} (h : s.canonical) :
    (s.post w0 w1 w2 w3 poster).1.canonical := by
  unfold State.post
  extract_lets _ _ _ e _ x s1 s2 s3 s4
  have hx : x.canonical := h.useFree
  have h1 : s1.canonical := .ofTables hx rfl rfl
  have h2 : s2.canonical := h1.budDraw.wrBytes
  have h3 : s3.canonical := h2.setFld
  have h4 : s4.canonical := .ite h3.setFld h3
  split
  · exact h.refusePost
  · exact h4

theorem State.canonical.releaseWaits (h : s.canonical) : s.releaseWaits.canonical := h.count.raise

theorem State.canonical.release {a : Action} (h : s.canonical) : (s.release a).canonical := by
  unfold State.release
  extract_lets x
  have hx : x.canonical := h.budDraw
  exact .ofTables hx rfl rfl

theorem State.canonical.calendarFull (h : s.canonical) : s.calendarFull.canonical := by
  unfold State.calendarFull
  extract_lets _ _ s1 s2
  have h1 : s1.canonical := .foldl h fun _ _ ht => ht.retire
  have h2 : s2.canonical := .ite h1 h1.raise
  simpa only [State.canonical] using h2

theorem State.canonical.calWrite {addr : Nat} {w : Word} (h : s.canonical) : (s.calWrite addr w).canonical := by
  unfold State.calWrite
  extract_lets
  exact h.writeWith fun _ ht => .ite (.ite ht.disableCalendar ht) (.ite (.ite (.setReg (.ite ht.setReg.setReg.setReg ht))
    (.ite ht.setReg.setReg.setReg ht)) (.ite ht.post.setReg (.ite (.ofTables ht rfl rfl) ht)))

theorem execBucketWalk_canonical (h : s.canonical) : AnswersCanonical (execBucketWalk s) := by
  unfold execBucketWalk
  split
  · exact .next (.ite (.ofTables h rfl rfl) h)
  · exact .next h

theorem execActionRelease_canonical (h : s.canonical) : AnswersCanonical (execActionRelease s) := by
  unfold execActionRelease
  split
  · exact .next h
  · exact .ite (.next h.releaseWaits) (.ite (.next h.budStarve.releaseWaits) (.next h.release))

/-! ### What combustion records grant -/

theorem State.canonical.updCmb {f : Cmb → Cmb} (h : s.canonical) : (s.updCmb f).canonical := .ofTables h rfl rfl

theorem State.canonical.updStr {c : Nat} {f : CmbStr → CmbStr} (h : s.canonical) : (s.updStr c f).canonical := h.updCmb

theorem State.canonical.setCoast {b : Bool} (h : s.canonical) : (s.setCoast b).canonical :=
  .ite h.setFld.setFld.coastCheck h.setFld.setFld.coastCheck.raise

theorem State.canonical.coastFollow (h : s.canonical) : s.coastFollow.canonical := .ite h.setCoast h

theorem State.canonical.coastCount (h : s.canonical) : s.coastCount.canonical := .ite h.setCoast h

/-! ### The combustion datapath at a loss of the angle -/

theorem State.canonical.cmbShow (h : s.canonical) : s.cmbShow.canonical := h.setReg

theorem State.canonical.abandonStr {c : Nat} (h : s.canonical) : (s.abandonStr c).canonical := by
  unfold State.abandonStr
  extract_lets _ _ _ s1 s2
  have h1 : s1.canonical := h.updCmb.updStr
  have h2 : s2.canonical := h1.count.raise.cmbShow
  exact .ite h (.ite h2.setCoast h2)

theorem State.canonical.abandonAll (h : s.canonical) : s.abandonAll.canonical := .foldl h fun _ _ ht => ht.abandonStr

/-! ### The observer -/

theorem State.canonical.updWhl {n : Nat} {f : Whl → Whl} (h : s.canonical) : (s.updWhl n f).canonical := by
  simpa only [State.canonical, State.updWhl] using h

theorem State.canonical.setTooth {n : Nat} {t : Tooth} (h : s.canonical) : (s.setTooth n t).canonical := h.updObs

theorem State.canonical.takePrediction {n p : Nat} (h : s.canonical) : (s.takePrediction n p).canonical := h.updWhl.setReg

theorem State.canonical.dropPrediction {n : Nat} (h : s.canonical) : (s.dropPrediction n).canonical := h.updWhl.setReg

theorem State.canonical.withdraw (h : s.canonical) : s.withdraw.canonical := h.dropPrediction.updObs.setFld

theorem State.canonical.issue (h : s.canonical) : s.issue.canonical := by
  unfold State.issue
  extract_lets
  split
  · split
    · exact h
    · exact h.takePrediction.updObs.setFld

theorem State.canonical.newRate (h : s.canonical) : s.newRate.canonical := by
  unfold State.newRate
  split
  · exact h.setReg
  · exact h

theorem State.canonical.addNoFuel {old : Word} (h : s.canonical) : (s.addNoFuel old).canonical := .ite h.updObs h

theorem State.canonical.runAngle (h : s.canonical) : s.runAngle.canonical := .ite h.updObs.addNoFuel h

theorem State.canonical.jumpTo {target : Word} (h : s.canonical) : (s.jumpTo target).canonical := by
  unfold State.jumpTo
  extract_lets _ _ s1 s2 s3 s4
  have h1 : s1.canonical := h.updObs
  have h2 : s2.canonical := h1.addNoFuel.setFld
  have h3 : s3.canonical := .ite h2.setFld h2
  have h4 : s4.canonical := .ite h3.raise.hwEvent h3
  exact h4.outJump

theorem State.canonical.toothAt {target : Word} (h : s.canonical) : (s.toothAt target).canonical := .ite h.jumpTo h

theorem State.canonical.endInterval {len : Rat} {t : Nat} {endPaste : Bool} (h : s.canonical) :
    (s.endInterval len t endPaste).canonical := by
  unfold State.endInterval
  extract_lets
  split
  exact h.updObs.learnInterval.torsInterval.setTooth

theorem State.canonical.pasteTooth (h : s.canonical) : s.pasteTooth.canonical := by
  unfold State.pasteTooth
  split
  · exact h.endInterval.updObs.raise.hwEvent.setPendAll
  · exact h

theorem State.canonical.steer (h : s.canonical) : s.steer.canonical := .updObs (.ite h.setReg h)

theorem State.canonical.takeTooth {stamp : Nat} (h : s.canonical) : (s.takeTooth stamp).canonical := by
  unfold State.takeTooth
  extract_lets s1 s2
  have h1 : s1.canonical := by
    unfold s1
    split
    · exact h.endInterval
    · exact h.setTooth
  have h2 : s2.canonical := h1.updObs
  exact h2.toothAt.steer.issue.newRate.setFld

theorem State.canonical.windowPaste (h : s.canonical) : s.windowPaste.canonical := h.pasteTooth.updWhl.issue.newRate.setFld

theorem State.canonical.placeAt {n : Nat} {t : Tooth} {stamp : Nat} (h : s.canonical) : (s.placeAt n t stamp).canonical := by
  unfold State.placeAt
  extract_lets
  split
  exact h.setTooth.updObs.setFld.issue.newRate

theorem State.canonical.addHalfCycle (h : s.canonical) : s.addHalfCycle.canonical := h.updObs

theorem State.canonical.unplace (h : s.canonical) : s.unplace.canonical := h.setFld.setFld.setReg.learnLost

theorem State.canonical.changeSource {n : Nat} (h : s.canonical) : (s.changeSource n).canonical := h.withdraw.setFld.setTooth

theorem execProvisionalPrediction_canonical (h : s.canonical) : AnswersCanonical (execProvisionalPrediction s) := by
  unfold execProvisionalPrediction
  extract_lets
  split
  · split
    · split
      · refine .ite ?_ (.next h)
        extract_lets
        split
        · exact .next h.updObs.setReg
        · exact .next h
      · exact .next h

/-! ### Echo generators -/

theorem State.canonical.updEcho {k : Nat} {f : Echo → Echo} (h : s.canonical) : (s.updEcho k f).canonical := by
  simpa only [State.canonical, State.updEcho] using h

theorem State.canonical.detect {n : Nat} {b : Bool} (h : s.canonical) : (s.detect n b).canonical := h.updWhl

theorem State.canonical.echoLevel {k : Nat} {b : Bool} (h : s.canonical) : (s.echoLevel k b).canonical := by
  unfold State.echoLevel
  extract_lets s1 s2 s3
  have h1 : s1.canonical := h.updEcho
  have h2 : s2.canonical := .ite h1.setPin h1
  have h3 : s3.canonical := .foldl h2 fun _ _ ht => .ite ht.detect ht
  exact .ite h3 h3.updEcho

theorem State.canonical.echoPulse {k : Nat} (h : s.canonical) : (s.echoPulse k).canonical := h.echoLevel.updEcho

theorem State.canonical.echoRawEdge {k : Nat} (h : s.canonical) : (s.echoRawEdge k).canonical :=
  .ite h.echoLevel.updEcho.raise h.echoPulse

theorem State.canonical.echoRaw {n : Nat} (h : s.canonical) : (s.echoRaw n).canonical :=
  .foldl h fun _ _ ht => .ite ht.echoRawEdge ht

theorem State.canonical.echoFollowLow (h : s.canonical) : s.echoFollowLow.canonical :=
  .foldl h fun _ _ ht => .ite ht.echoLevel.updEcho ht

theorem State.canonical.echoFollowFrom (h : s.canonical) : s.echoFollowFrom.canonical :=
  .foldl h fun _ _ ht => .ite ht.updEcho ht

theorem State.canonical.echoStep {k : Nat} (h : s.canonical) : (s.echoStep k).canonical := by
  unfold State.echoStep
  split
  · exact h
  · split
    · exact h
    · extract_lets _ s1
      have h1 : s1.canonical := h.updEcho
      refine .ite h ?_
      split
      · exact .ite h1.echoLevel.updEcho h1.echoLevel
      · exact h1.echoLevel
      · exact h1.echoPulse
      · exact h1.echoLevel

theorem State.canonical.runSynth {k : Nat} (h : s.canonical) : (s.runSynth k).canonical := .ite h.updEcho h

theorem State.canonical.ownPin {k : Nat} (h : s.canonical) : (s.ownPin k).canonical := .ite h.disableChannel.setPin h

theorem State.canonical.echoEnable {k : Nat} (h : s.canonical) : (s.echoEnable k).canonical :=
  .ownPin (.ite h.updEcho.updEcho h.updEcho)

theorem State.canonical.echoDisable {k : Nat} (h : s.canonical) : (s.echoDisable k).canonical :=
  .ite h.updEcho.echoLevel.updEcho h.updEcho

theorem execEchoPulseEnd_canonical {k : Fin 2} (h : s.canonical) : AnswersCanonical (execEchoPulseEnd k s) := by
  unfold execEchoPulseEnd
  extract_lets
  split
  · exact .next (.ite h.echoLevel.updEcho h)
  · exact .next (.ite h.echoPulse h)
  · exact .next h

/-! ### Loupe's packets -/

theorem State.canonical.updDbg {f : Dbg → Dbg} (h : s.canonical) : (s.updDbg f).canonical := .ofTables h rfl rfl

theorem State.canonical.showFill (h : s.canonical) : s.showFill.canonical := h.setFld

theorem State.canonical.tracePut {on : Bool} {p : List Byte} (h : s.canonical) : (s.tracePut on p).canonical := by
  unfold State.tracePut
  refine .ite h ?_
  split
  · exact h.updDbg
  · exact .ite h.updDbg h.updDbg.showFill

theorem State.canonical.tracePc {t : Nat} {target : Word} (h : s.canonical) : (s.tracePc t target).canonical := h.tracePut

theorem State.canonical.traceThr {n kind pc : Nat} (h : s.canonical) : (s.traceThr n kind pc).canonical := h.tracePut

theorem State.canonical.traceFlt {m : BitVec 64} (h : s.canonical) : (s.traceFlt m).canonical := h.tracePut

theorem State.canonical.traceUser {w : Word} (h : s.canonical) : (s.traceUser w).canonical := h.tracePut

/-! ### Synchronisation -/

theorem State.canonical.secReset (h : s.canonical) : s.secReset.canonical := h.updSync.setFld.setFld

theorem State.canonical.leaveFull {cause : Nat} (h : s.canonical) : (s.leaveFull cause).canonical :=
  h.setFld.setFld.setFld.setReg.safeEnd.echoFollowLow.abandonAll

theorem State.canonical.leavePlaced (h : s.canonical) : s.leavePlaced.canonical :=
  h.updSync.unplace.withdraw.secReset.setFld.setFld.setFld

theorem State.canonical.enterSync {old new cause : Nat} (h : s.canonical) : (s.enterSync old new cause).canonical := by
  unfold State.enterSync
  extract_lets s1 s2 s3 s4 s1'
  have h1 : s1.canonical := h.raise.setFld
  have h2 : s2.canonical := h1.setFld
  have h3 : s3.canonical := h2.updSync
  have h4 : s4.canonical := h3.updObs.abandonAll
  have hs1' : s1'.canonical := h.raise.updSync
  exact .ite (.ite h4.calendarFull.echoFollowFrom.trimBoundary h1) (.ite h.raise (.ite h.updSync (.ite h.count.raise.sendFault
    (.ite (.ite hs1'.sendFault hs1') h))))

theorem State.canonical.traceSync (h : s.canonical) : s.traceSync.canonical := h.tracePut

theorem State.canonical.goSync {new cause : Nat} (h : s.canonical) : (s.goSync new cause).canonical := by
  unfold State.goSync
  extract_lets _ _ s1 s2 s3
  have h1 : s1.canonical := .ite h.leaveFull h
  have h2 : s2.canonical := .ite h1.leavePlaced h1
  have h3 : s3.canonical := h2.setFld
  exact .ite h h3.enterSync.coastCheck.setPendAll.traceSync

theorem State.canonical.seek {n : Nat} {t : Option Nat} (h : s.canonical) : (s.seek n t).canonical := by
  unfold State.seek
  extract_lets s1
  have h1 : s1.canonical := h.goSync.updSync
  split
  · exact h1.updSync
  · exact h1

theorem State.canonical.place {n i rev t : Nat} (h : s.canonical) : (s.place n i rev t).canonical := h.updSync.placeAt.goSync

theorem State.canonical.resolvePhase {add byCmd : Bool} (h : s.canonical) : (s.resolvePhase add byCmd).canonical :=
  .goSync (.updSync (.ite h.addHalfCycle h))

theorem State.canonical.hold {teeth : Nat} (h : s.canonical) : (s.hold teeth).canonical := h.goSync.setFld

theorem State.canonical.switchSource (h : s.canonical) : s.switchSource.canonical := h.changeSource.updSync.secReset.raise.hold

theorem State.canonical.failPlaced {cause : Nat} {t : Option Nat} (h : s.canonical) : (s.failPlaced cause t).canonical :=
  .ite h.seek h.goSync

theorem State.canonical.badTooth {skip : Bool} {t : Option Nat} (h : s.canonical) : (s.badTooth skip t).canonical :=
  .ite h.hold (.ite (.ite h.switchSource h.goSync) h.seek)

theorem State.canonical.newRevolution (h : s.canonical) : s.newRevolution.canonical := .ite h.setFld h

theorem State.canonical.placedTooth {n t : Nat} (h : s.canonical) : (s.placedTooth n t).canonical := by
  unfold State.placedTooth
  extract_lets _ s1 _ s2 s3 _ s4
  have h1 : s1.canonical := .ite h.pasteTooth.raise.newRevolution h
  have h2 : s2.canonical := h1.takeTooth.newRevolution
  have h3 : s3.canonical := .ite h2.count h2
  have h4 : s4.canonical := .ite h3.setFld h3
  exact .ite h4.failPlaced (.ite h4.badTooth (.ite h4.goSync h4))

theorem State.canonical.seekTooth {n t : Nat} (h : s.canonical) : (s.seekTooth n t).canonical := by
  unfold State.seekTooth
  extract_lets _ s1
  have h1 : s1.canonical := h.updSync
  refine .ite (.ite h.place h) ?_
  split
  · exact h1.place
  · exact h1

theorem State.canonical.sourceTooth {n t : Nat} {rev : Bool} (h : s.canonical) : (s.sourceTooth n t rev).canonical := by
  unfold State.sourceTooth
  extract_lets _ s1 _ s2
  have h1 : s1.canonical := h.updSync
  have h2 : s2.canonical := h1.updSync
  exact .ite (.ite h1.updSync (.ite h2.seek h2)) (.ite h1.goSync (.ite (.ite h1.seek h1.raise) (.ite (.ite h1.seek h1)
    (.ite h1.seekTooth h1.placedTooth))))

theorem State.canonical.sourceEarly (h : s.canonical) : s.sourceEarly.canonical := .ite (.ite h.count.failPlaced h.count) h

theorem State.canonical.sourceMissing (h : s.canonical) : s.sourceMissing.canonical :=
  h.windowPaste.newRevolution.count.badTooth

theorem State.canonical.sourceStall (h : s.canonical) : s.sourceStall.canonical := by
  unfold State.sourceStall
  extract_lets s1
  have h1 : s1.canonical := h.raise
  exact .ite h1.updSync.withdraw (.ite (.ite h1.switchSource h1.goSync) h1.goSync)

theorem State.canonical.camError (h : s.canonical) : s.camError.canonical := h.count.raise

theorem State.canonical.camCrank {both m0 m1 r0 r1 : Bool} (h : s.canonical) : (s.camCrank both m0 m1 r0 r1).canonical :=
  .ite (.ite h.updSync.resolvePhase h.updSync) (.ite h.camError.updSync.goSync h.camError.updSync)

theorem State.canonical.camPlaced {both m0 m1 r0 : Bool} (h : s.canonical) : (s.camPlaced both m0 m1 r0).canonical :=
  .ite h.updSync (.ite h.goSync (.ite (.ite h.updSync.goSync h.updSync) h.camError))

theorem State.canonical.camEdge {e : Edge} (h : s.canonical) : (s.camEdge e).canonical :=
  .ite h (.ite (.ite h.updSync h) (.ite (.ite h.updSync.camCrank h.updSync.camPlaced) h))

theorem State.canonical.secLose (h : s.canonical) : s.secLose.canonical := .ite h.updSync.setFld.raise.sendFault h.updSync

theorem State.canonical.secDeliver {n : Nat} {e : Edge} {prev : Option Nat} (h : s.canonical) :
    (s.secDeliver n e prev).canonical := by
  unfold State.secDeliver
  extract_lets _ s1
  have h1 : s1.canonical := h.updSync
  split
  · split
    · exact h1.setFld.updSync
    · exact h1
  · split
    · extract_lets s1
      have h1 : s1.canonical := by
        unfold s1
        split
        · exact h.learnInterval
        · exact h
      exact h1.updSync

theorem State.canonical.secJudge {w : Word} {i : Nat} (h : s.canonical) : (s.secJudge w i).canonical := by
  unfold State.secJudge
  extract_lets _ s1 s2 s2'
  have h1 : s1.canonical := h.setReg
  have h2 : s2.canonical := h1.updSync
  have hs2' : s2'.canonical := h1.updSync
  exact .ite (.ite h2.setFld h2) (.ite hs2'.secLose hs2')

theorem State.canonical.syncCommand {w : Word} (h : s.canonical) : (s.syncCommand w).canonical := by
  unfold State.syncCommand
  extract_lets s1
  have h1 : s1.canonical := h.goSync
  exact .ite (.ite h1.refuseWrite h1) (.ite h.resolvePhase (.ite h.resolvePhase (.ite h.seek (.ite h.switchSource h))))

theorem State.canonical.obsEnabled (h : s.canonical) : s.obsEnabled.canonical := h.setFld.updSync

theorem State.canonical.obsDisabled (h : s.canonical) : s.obsDisabled.canonical := h.goSync.withdraw

theorem State.canonical.obsWrite {addr : Nat} {w : Word} (h : s.canonical) : (s.obsWrite addr w).canonical := by
  unfold State.obsWrite
  extract_lets
  refine h.writeWith fun _ ht => .ite (.ite ht.obsEnabled (.ite ht.obsDisabled ht)) (.ite ht.coastCheck (.ite ?_
    (.ite ht.syncCommand (.ite ht.torsTouched (.ite ht.factTouched ht)))))
  extract_lets t1 t2
  have ht1 : t1.canonical := .foldl ht fun _ _ hu => .ite hu.clearFactors hu
  have ht2 : t2.canonical := .ite ht1.clearTorsional ht1
  exact .ite ht2.setReg ht2

theorem execCamEdge_canonical (h : s.canonical) : AnswersCanonical (execCamEdge s) := by
  unfold execCamEdge
  split
  · exact .next h
  · exact .next h.updSync.camEdge

theorem execSecondaryTooth_canonical (h : s.canonical) : AnswersCanonical (execSecondaryTooth s) := by
  unfold execSecondaryTooth
  split
  · exact .next h
  · exact .next h.updSync.secJudge

theorem State.canonical.obsAngRead (h : s.canonical) : (s.obsAngRead).1.canonical := h.setReg

/-! ### Calendar time -/

theorem State.canonical.updLkt {f : Lkt → Lkt} (h : s.canonical) : (s.updLkt f).canonical := .ofTables h rfl rfl

theorem State.canonical.calAdd {d : Int} (h : s.canonical) : (s.calAdd d).canonical := h.updLkt

theorem State.canonical.calTick (h : s.canonical) : s.calTick.canonical := h.calAdd

theorem State.canonical.calRtc (h : s.canonical) : s.calRtc.canonical := h.calAdd

theorem State.canonical.verifyFailed (h : s.canonical) : s.verifyFailed.canonical := h.raise.sendFault

/-! ### The chain -/

theorem State.canonical.updChn {f : Chn → Chn} (h : s.canonical) : (s.updChn f).canonical := .ofTables h rfl rfl

theorem State.canonical.updPort {p : Nat} {f : ChnPort → ChnPort} (h : s.canonical) : (s.updPort p f).canonical := h.updChn

theorem State.canonical.chnShow (h : s.canonical) : s.chnShow.canonical := h.setReg

theorem State.canonical.updMember {u : Nat} {f : ChnMember → ChnMember} (h : s.canonical) : (s.updMember u f).canonical :=
  h.updChn

theorem State.canonical.sendOn {p : Nat} {l : List Byte} (h : s.canonical) : (s.sendOn p l).canonical := h.updPort

theorem State.canonical.originate {typ : Nat} {body : List Byte} (h : s.canonical) : (s.originate typ body).canonical :=
  .foldl h.updChn fun _ _ ht => .ite ht.sendOn ht

theorem State.canonical.forward {p : Nat} {l : List Byte} {res : Nat} (h : s.canonical) : (s.forward p l res).canonical :=
  .ite h.updPort h

theorem State.canonical.discard {p : Nat} (h : s.canonical) : (s.discard p).canonical := h.updPort.count.raise

theorem State.canonical.tagFail {u : Nat} (h : s.canonical) : (s.tagFail u).canonical := h.count.raise.sendFault

theorem State.canonical.checkAngle {e : Int} {ldr : Nat} (h : s.canonical) : (s.checkAngle e ldr).canonical := by
  unfold State.checkAngle
  extract_lets _ s1 s2
  have h1 : s1.canonical := h.updChn
  have h2 : s2.canonical := .ite h1.setFld.raise.sendFault (.ite h1.setFld.raise h1)
  exact .ite h2.setFld.raise.sendFault h2

theorem State.canonical.ringTooth {ref rate : Word} (h : s.canonical) : (s.ringTooth ref rate).canonical := h.toothAt.setReg

theorem State.canonical.ringPlace {ref rate : Word} (h : s.canonical) : (s.ringPlace ref rate).canonical :=
  h.updObs.setReg.setFld.goSync

theorem State.canonical.ringMessage {sync sgen : Nat} {ref rate : Word} (h : s.canonical) :
    (s.ringMessage sync sgen ref rate).canonical := by
  unfold State.ringMessage
  extract_lets
  exact .ite (.ite h.goSync.updChn h) (.ite (.ite h.ringPlace.updChn h.updChn) (.ite
    (.ite h.useFree.goSync h.ringTooth.goSync) h))

theorem State.canonical.useReference {u : Nat} {f : ChnFrame} {change : Bool} (h : s.canonical) :
    (s.useReference u f change).canonical := by
  unfold State.useReference
  extract_lets _ _ _ s1 s2 _ _ _ s3
  have h1 : s1.canonical := h.setReg
  have h2 : s2.canonical := by
    unfold s2
    split
    · exact .ite h1.setReg (.ite h1.setReg.checkAngle.updObs h1.setReg.checkAngle)
    · exact h1
  have h3 : s3.canonical := h2.ringMessage
  exact .ite h2 h3.updChn

theorem State.canonical.useAngle {u : Nat} {f : ChnFrame} (h : s.canonical) : (s.useAngle u f).canonical :=
  .ite h (.ite h.updChn.setFld.setFld.setFld h.updChn.setFld.setFld.setFld.useReference)

theorem State.canonical.dataDrop (h : s.canonical) : s.dataDrop.canonical := h.count.raise

theorem State.canonical.useData {l : List Byte} (h : s.canonical) : (s.useData l).canonical :=
  .ite h (.ite h.dataDrop (.ite h.qput h.qput.dataDrop))

theorem State.canonical.changeMember {u quota : Nat} {add : Bool} (h : s.canonical) : (s.changeMember u quota add).canonical :=
  .ite h (.ite (.ite h h.updChn.chnShow) h.updChn.chnShow)

theorem State.canonical.useFrame {u : Nat} {f : ChnFrame} (h : s.canonical) : (s.useFrame u f).canonical :=
  .ite h.updMember (.ite h.useAngle (.ite h.useData (.ite h.changeMember h)))

theorem State.canonical.takeTag {p : Nat} {m : ChnMember} {sf : Word} {tag : List Byte} (h : s.canonical) :
    (s.takeTag p m sf tag).canonical :=
  .ite h (.ite h.tagFail (.ite (.foldl h fun _ _ ht => ht.useFrame) h))

theorem State.canonical.ringFrame {p typ : Nat} {l : List Byte} {res : Nat} (h : s.canonical) :
    (s.ringFrame p typ l res).canonical := by
  unfold State.ringFrame
  extract_lets s1
  have h1 : s1.canonical := h.forward
  refine .ite h (.ite h.discard (.ite h ?_))
  split
  · exact h1
  · refine .ite ?_ h1.updMember
    extract_lets s2 s3
    have h2 : s2.canonical := h1.updMember
    have h3 : s3.canonical := by
      unfold s3
      split
      · exact h2.takeTag
      · exact h2
    exact h3.updMember

theorem State.canonical.countBetter {sit g : Nat} (h : s.canonical) : (s.countBetter sit g).canonical := h.updChn

theorem State.canonical.election (h : s.canonical) : s.election.canonical := by
  unfold State.election
  extract_lets s0 s1 _ _ s2 s3
  have h0 : s0.canonical := .ite h.setFld.updChn h
  have h1 : s1.canonical := by
    unfold s1
    split
    · exact h0.countBetter
    · exact h0
  have h2 : s2.canonical := h1.updChn
  have h3 : s3.canonical := .ite h2 h2.raise
  exact .ite h1 (.ite h3.setFld.setFld.raise h3)

theorem State.canonical.startAuth {p : Nat} (h : s.canonical) : (s.startAuth p).canonical := h.updPort.useFree.chnShow

theorem State.canonical.linkRefused {p : Nat} (h : s.canonical) : (s.linkRefused p).canonical :=
  h.startAuth.updPort.count.raise.sendFault

theorem State.canonical.sendItem {p : Nat} {isKey : Bool} {item : Nat} {data : List Byte} (h : s.canonical) :
    (s.sendItem p isKey item data).canonical :=
  h.updPort

theorem State.canonical.offerItem {p : Nat} {isKey : Bool} {item : Nat} {data : List Byte} (h : s.canonical) :
    (s.offerItem p isKey item data).canonical :=
  h.sendItem.updPort

theorem State.canonical.abortAuth {p reason : Nat} (h : s.canonical) : (s.abortAuth p reason).canonical :=
  h.sendItem.linkRefused

theorem State.canonical.takeHello {p : Nat} {d : List Byte} (h : s.canonical) : (s.takeHello p d).canonical := by
  unfold State.takeHello
  extract_lets _ _ s1 s2 s3
  have h1 : s1.canonical := h.updPort
  have h2 : s2.canonical := h1.offerItem
  have h3 : s3.canonical := .ite h2.offerItem h2
  exact .ite h.abortAuth (.ite h h3.offerItem)

theorem State.canonical.sendKey {p : Nat} {pair : List Byte} (h : s.canonical) : (s.sendKey p pair).canonical :=
  h.offerItem.offerItem.offerItem

theorem State.canonical.takeOffer {p : Nat} {d : List Byte} (h : s.canonical) : (s.takeOffer p d).canonical := by
  unfold State.takeOffer
  extract_lets
  split
  · exact .ite h.verifyFailed.abortAuth (.ite h.verifyFailed.abortAuth h.updPort.sendKey)
  · exact h.abortAuth

theorem State.canonical.announce {u quota : Nat} {add : Bool} (h : s.canonical) : (s.announce u quota add).canonical := h.updChn

theorem State.canonical.takeMac {p : Nat} {d : List Byte} (h : s.canonical) : (s.takeMac p d).canonical := by
  unfold State.takeMac
  extract_lets
  split
  · refine .ite h.abortAuth ?_
    extract_lets
    refine .ite h.updPort (.ite (.ite h.changeMember.announce.updPort h.abortAuth) ?_)
    split
    · exact h.abortAuth
    · exact h.updChn.chnShow.updPort
  · exact h.abortAuth

theorem State.canonical.takeItem {p : Nat} {isKey : Bool} {item : Nat} {d : List Byte} (h : s.canonical) :
    (s.takeItem p isKey item d).canonical := by
  unfold State.takeItem
  exact .ite (.ite h.updPort (.ite h.updPort h.takeMac)) (.ite h.takeHello (.ite h.updPort (.ite h.updPort h.takeOffer)))

theorem State.canonical.authFrame {p : Nat} {isKey : Bool} {l : List Byte} (h : s.canonical) :
    (s.authFrame p isKey l).canonical := by
  unfold State.authFrame
  extract_lets _ _ _ _ _ _ _ _ s1 _ s2
  have h1 : s1.canonical := h.updPort
  have h2 : s2.canonical := h1.updPort.sendItem
  exact .ite h (.ite h.discard (.ite h (.ite h.discard (.ite h.updPort (.ite h.linkRefused (.ite h (.ite h1 h2.takeItem)))))))

theorem State.canonical.ringMissing (h : s.canonical) : s.ringMissing.canonical :=
  .ite h (.ite (.ite h.updChn h) (.ite (.ite h.useFree.goSync (.ite h.goSync h)) h))

theorem State.canonical.ageChain (h : s.canonical) : s.ageChain.canonical := .ite h.updChn.setFld h.updChn

theorem State.canonical.joinLinks (h : s.canonical) : s.joinLinks.canonical :=
  .foldl h fun _ _ ht => .ite ht.updPort.chnShow.raise ht

theorem State.canonical.sendDreq {p : Nat} (h : s.canonical) : (s.sendDreq p).canonical := h.sendOn.updPort

theorem State.canonical.sendHello {p : Nat} (h : s.canonical) : (s.sendHello p).canonical := .ite h.sendItem.updPort h

theorem State.canonical.sendMemb (h : s.canonical) : s.sendMemb.canonical := .updChn (.foldl h fun _ _ ht => ht.originate)

theorem State.canonical.superframe (h : s.canonical) : s.superframe.canonical := by
  unfold State.superframe
  extract_lets s1 _ _ s2 s3 s4 s5
  have h1 : s1.canonical := h.ageChain.ringMissing.joinLinks.election
  have h2 : s2.canonical := h1.updChn
  have h3 : s3.canonical := h2.originate.sendMemb
  have h4 : s4.canonical := .ite h3.originate h3
  have h5 : s5.canonical := h4.sendHello.sendHello
  exact .ite (.foldl h5 fun _ _ ht => .ite ht.sendDreq ht) h5

theorem State.canonical.chnApply (h : s.canonical) : s.chnApply.canonical :=
  .chnShow (.setFld (.setFld (.foldl h fun _ _ ht => .ite ht ht.updPort)))

theorem State.canonical.chnWrite {addr : Nat} {w : Word} (h : s.canonical) : (s.chnWrite addr w).canonical :=
  h.writeWith fun _ ht => .ite ht.chnApply (.ite (.ite ht.setFld ht) (.ite ht.obsDisabled ht))

theorem execTagTimeout_canonical {unit : BitVec 18} {p : Fin 2} (h : s.canonical) :
    AnswersCanonical (execTagTimeout unit p s) := by
  unfold execTagTimeout
  split
  · exact .next h
  · exact .next (.ite h.updMember.tagFail h)

theorem execDrspFrame_canonical {p : Fin 2} {bytes : List Byte} {elapsed : Word} (h : s.canonical) :
    AnswersCanonical (execDrspFrame p bytes elapsed s) := by
  unfold execDrspFrame
  extract_lets
  refine .next (.ite h (.ite h.discard (.ite h ?_)))
  split
  · exact .ite h.updPort.setReg h
  · exact h

theorem execDreqTimeout_canonical {p : Fin 2} (h : s.canonical) : AnswersCanonical (execDreqTimeout p s) := by
  unfold execDreqTimeout
  split
  · exact .next (.ite h.sendDreq h)
  · exact .next h

theorem execAuthItemResend_canonical {p : Fin 2} (h : s.canonical) : AnswersCanonical (execAuthItemResend p s) := by
  unfold execAuthItemResend
  split
  · exact .next h.sendItem.updPort
  · exact .next h

theorem execAuthTimeout_canonical {p : Fin 2} (h : s.canonical) : AnswersCanonical (execAuthTimeout p s) := by
  unfold execAuthTimeout
  split
  · exact .next (.ite h.abortAuth h)
  · exact .next h

theorem execLinkHoldoffEnd_canonical {p : Fin 2} (h : s.canonical) : AnswersCanonical (execLinkHoldoffEnd p s) := by
  unfold execLinkHoldoffEnd
  split
  · exact .next (.ite h.updPort.startAuth h)
  · exact .next h

theorem execMemberTimeout_canonical {unit : BitVec 18} (h : s.canonical) : AnswersCanonical (execMemberTimeout unit s) := by
  unfold execMemberTimeout
  split
  · exact .next (.ite h.changeMember.announce h)
  · exact .next h

theorem execPortDown_canonical {p : Fin 2} (h : s.canonical) : AnswersCanonical (execPortDown p s) := by
  unfold execPortDown
  extract_lets s1
  have h1 : s1.canonical := h.updPort.chnShow.raise.sendFault
  exact .ite (.next h) (.next (.ite h1 h1.raise.sendFault))

/-! ### Combustion -/

theorem State.canonical.openWin {c : Nat} {work : Bool} {tdc : Word} (h : s.canonical) : (s.openWin c work tdc).canonical :=
  .cmbShow (.ite h.updStr h.updStr)

theorem State.canonical.closeWin {c : Nat} {work : Bool} (h : s.canonical) : (s.closeWin c work).canonical := by
  unfold State.closeWin
  extract_lets
  refine .ite ?_ ?_
  · split
    · exact .ite h.updStr.updCmb.cmbShow h
    · exact h
  · split
    · exact .ite h.updStr.updCmb.cmbShow h
    · exact h

theorem State.canonical.cmbTake {c : Nat} {res angle slot : Word} (h : s.canonical) : (s.cmbTake c res angle slot).canonical :=
  .ite h (.ite h.count.raise.sendFault (.ite h.updStr.count.raise h.updStr))

theorem State.canonical.ruleWrite {r : Nat} {acc : Int} (h : s.canonical) : (s.ruleWrite r acc).canonical :=
  .ite h.setReg.trimWriteHw.raise h.setReg.trimWriteHw

theorem State.canonical.ruleEval {r : Nat} {m : Word} (h : s.canonical) : (s.ruleEval r m).canonical := h.ruleWrite

theorem State.canonical.runRules {cyl : Nat} {work : Bool} {o : CmbOut} (h : s.canonical) : (s.runRules cyl work o).canonical :=
  .foldl h fun _ _ ht => .ite ht.ruleEval ht

theorem State.canonical.putCmbRecord {key : Nat} {ws : List Word} (h : s.canonical) : (s.putCmbRecord key ws).canonical := by
  unfold State.putCmbRecord
  extract_lets s1 _ _ _ _ s2
  have h1 : s1.canonical := .foldl h fun _ _ ht => ht.setReg
  have h2 : s2.canonical := .ite h1 h1.budStarve.budDrop
  exact .ite h1 (.ite (.foldl h1.budDraw fun _ _ ht => ht.qput) h2.count.raise.sendFault)

theorem State.canonical.raiseIf {b : Bool} {evt bit : Nat} (h : s.canonical) : (s.raiseIf b evt bit).canonical := .ite h.raise h

theorem State.canonical.misfireRun {c : Nat} {misf : Bool} (h : s.canonical) : (s.misfireRun c misf).canonical :=
  .ite h.setFld.updStr (.ite h.count.updStr.raise.sendFault h.count)

theorem State.canonical.processComb (h : s.canonical) : s.processComb.canonical := by
  unfold State.processComb
  split
  · exact h
  · extract_lets _ _ s1 s2 s3 s4
    have h1 : s1.canonical := h.useFree.updCmb.updStr.cmbShow
    have h2 : s2.canonical := h1.putCmbRecord
    have h3 : s3.canonical := h2.raise.raiseIf.raiseIf.raiseIf.raiseIf.raiseIf.raiseIf
    have h4 : s4.canonical := .ite h3.misfireRun h3.count
    exact h4.runRules.coastFollow

theorem State.canonical.dithWrite {d : Nat} (h : s.canonical) : (s.dithWrite d).canonical := h.setFld

theorem State.canonical.dithRestart {d : Nat} (h : s.canonical) : (s.dithRestart d).canonical := h.updCmb

theorem State.canonical.dithEval {d : Nat} (h : s.canonical) : (s.dithEval d).canonical :=
  h.setReg.setFld.dithWrite.raise.dithRestart

theorem State.canonical.dithTake {c : Nat} {imep : Word} {d : Nat} (h : s.canonical) : (s.dithTake c imep d).canonical :=
  .ite h (.ite h.updCmb.dithEval h.updCmb)

theorem State.canonical.processWork (h : s.canonical) : s.processWork.canonical := by
  unfold State.processWork
  split
  · exact h
  · extract_lets _ s1 s2 s3 s4 s5
    have h1 : s1.canonical := h.useFree.updCmb
    have h2 : s2.canonical := h1.putCmbRecord
    have h3 : s3.canonical := h2.raise.raiseIf.raiseIf
    have h4 : s4.canonical := .ite h3 h3.count
    have h5 : s5.canonical := h4.runRules
    exact .ite (.foldl h5 fun _ _ hu => hu.dithTake) h5

theorem State.canonical.cmbApply (h : s.canonical) : s.cmbApply.canonical := by
  unfold State.cmbApply
  extract_lets _ s1
  have h1 : s1.canonical := .foldl h fun _ _ ht => .ite ht.abandonStr (.ite ht.updStr ht)
  exact h1.setFld.setFld.coastCount

theorem State.canonical.cmbWrite {addr : Nat} {w : Word} (h : s.canonical) : (s.cmbWrite addr w).canonical := by
  unfold State.cmbWrite
  extract_lets
  exact h.writeWith fun _ ht => .ite ht.cmbApply (.ite ht.coastCount (.ite ht.ruleWrite (.ite ht.dithRestart.dithWrite ht)))

theorem execCmbSample_canonical (h : s.canonical) : AnswersCanonical (execCmbSample s) := by
  unfold execCmbSample
  split
  · exact .next h.ackItem.cmbTake
  · exact .next h

/-! ### Memories -/

theorem State.canonical.eccMessage {m : Mem} {kind cls inj addr : Nat} (h : s.canonical) :
    (s.eccMessage m kind cls inj addr).canonical :=
  h.launch

theorem State.canonical.eccCorrected {m : Mem} {addr : Nat} (h : s.canonical) : (s.eccCorrected m addr).canonical := by
  unfold State.eccCorrected
  extract_lets s1
  have h1 : s1.canonical := by
    unfold s1
    split
    · exact h.count.raise
    · exact h.count.raise
    · exact h.count.raise
    · exact h.count.raise
    · exact h
    · exact h
  exact h1.eccMessage

theorem State.canonical.eccUncorrectable {m : Mem} {addr : Nat} {test : Bool} (h : s.canonical) :
    (s.eccUncorrectable m addr test).canonical := by
  unfold State.eccUncorrectable
  extract_lets s1
  have h1 : s1.canonical := h.count.raise
  split
  · exact h.count.raise.eccMessage
  · exact h.count.raise.eccMessage
  · exact .ite h1.eccMessage h1
  · exact .ite h1.eccMessage h1
  · exact .ite h.eccMessage h
  · exact .ite h.eccMessage h

theorem State.canonical.endInjection {syn result : Nat} (h : s.canonical) : (s.endInjection syn result).canonical :=
  .setFld (.setFld (.setFld (.setFld (.ofTables h rfl rfl))))

theorem State.canonical.eccRead {m : Mem} {addr len : Nat} {o : Ecc} (h : s.canonical) :
    (s.eccRead m addr len o).1.canonical := by
  unfold State.eccRead
  extract_lets
  refine .iteFst (.iteFst h.endInjection.eccMessage h.endInjection.eccUncorrectable) ?_
  split
  · exact h
  · exact h.eccCorrected
  · exact h.eccUncorrectable

theorem State.canonical.eccStore {m : Mem} {addr len : Nat} {o : Ecc} (h : s.canonical) : (s.eccStore m addr len o).canonical :=
  .ite h.eccRead h

theorem State.canonical.scrubRewrite {bad : Bool} {o : Ecc} (h : s.canonical) : (s.scrubRewrite bad o).canonical := by
  unfold State.scrubRewrite
  split
  · exact .ite h h.budDraw
  · exact h
  · exact h

/-! ### DMA -/

theorem State.canonical.updFabric {f : Fabric → Fabric} (h : s.canonical) : (s.updFabric f).canonical := .ofTables h rfl rfl

theorem State.canonical.lineStart {by_ : Option Nat} {ecc : Ecc} (h : s.canonical) : (s.lineStart by_ ecc).canonical :=
  h.eccRead.setFld.updFabric

theorem State.canonical.lineEnd {l : LineWrite} {ok : Bool} (h : s.canonical) : (s.lineEnd l ok).canonical :=
  .raise (.updFabric (.setFld (.setFld (.ite h (.ite h.wrBytes h.wrBytes.useFree)))))

theorem State.canonical.updDma {c : Nat} {f : Dma → Dma} (h : s.canonical) : (s.updDma c f).canonical := h.updFabric

theorem State.canonical.dmaError {c cause : Nat} (h : s.canonical) : (s.dmaError c cause).canonical :=
  h.setFld.setFld.raise.sendFault

theorem State.canonical.dmaFetch {c a : Nat} {ecc : Ecc} (h : s.canonical) : (s.dmaFetch c a ecc).1.canonical := by
  unfold State.dmaFetch
  extract_lets s1 r _ s2
  have h1 : s1.canonical := h.setReg
  have hr : r.1.canonical := h1.budDraw.eccRead
  have h2 : s2.canonical := hr.updDma.setReg
  exact .iteFst h1.dmaError (.iteFst hr.dmaError (.iteFst h2 h2.dmaError))

theorem State.canonical.dmaRun {c a : Nat} {ecc : Ecc} (h : s.canonical) : (s.dmaRun c a ecc).canonical :=
  .ite h.dmaFetch.setFld h.dmaFetch

theorem State.canonical.dmaStart {c : Nat} {ecc : Ecc} (h : s.canonical) : (s.dmaStart c ecc).canonical :=
  .ite h.setFld.setFld.dmaFetch.setFld h.setFld.setFld.dmaFetch

theorem State.canonical.dmaStop {c : Nat} (h : s.canonical) : (s.dmaStop c).canonical := h.setFld.setFld

theorem State.canonical.dmaTrigger {c : Nat} {ecc : Ecc} (h : s.canonical) : (s.dmaTrigger c ecc).canonical :=
  .ite h.dmaRun (.ite (.ite h.setFld h.count.raise) h)

theorem State.canonical.dmaLine {k : Nat} (h : s.canonical) : (s.dmaLine k).canonical :=
  .foldl h fun _ _ ht => .ite ht.dmaTrigger ht

theorem State.canonical.dmaWait {c a : Nat} (h : s.canonical) : (s.dmaWait c a).canonical :=
  .ite h.setFld.setReg.setFld.dmaRun h.setFld.setReg

theorem State.canonical.dmaComplete {c : Nat} (h : s.canonical) : (s.dmaComplete c).canonical := by
  unfold State.dmaComplete
  extract_lets _ s1
  have h1 : s1.canonical := .ite h.raise h
  exact .ite h1.dmaWait (.ite h1.dmaRun h1.dmaWait)

theorem State.canonical.queWrite {by_ : Option Nat} {addr : Nat} {w : Word} {ecc : Ecc} (h : s.canonical) :
    (s.queWrite by_ addr w ecc).canonical := by
  unfold State.queWrite
  extract_lets
  exact h.writeWith fun _ ht => .ite ht.lineStart (.ite (.ite ht.setReg.setReg ht) (.ite (.ite (.ite ht.dmaStop ht) (.ite
    (.ite ht.dmaStart (.ite ht.dmaStop ht.dmaTrigger)) ht)) ht))

theorem execMramLineWriteDone_canonical {ok : Bool} (h : s.canonical) : AnswersCanonical (execMramLineWriteDone ok s) := by
  unfold execMramLineWriteDone
  split
  · exact .next h
  · exact .ite (.next h.budDraw.lineEnd) (.next h.budStarve)

/-! ### Fast conversions -/

theorem State.canonical.updFadc {f : Nat} {g : Fadc → Fadc} (h : s.canonical) : (s.updFadc f g).canonical := by
  simpa only [State.canonical, State.updFadc] using h

theorem State.canonical.regStart {f : Nat} (h : s.canonical) : (s.regStart f).canonical := h.setBit.updFadc

theorem State.canonical.jinjStart {f : Nat} (h : s.canonical) : (s.jinjStart f).canonical := h.setBit.updFadc

theorem State.canonical.trigDropped {f : Nat} (h : s.canonical) : (s.trigDropped f).canonical := h.count.raise

theorem State.canonical.regTrigger {f : Nat} (h : s.canonical) : (s.regTrigger f).canonical :=
  .ite h (.ite h.regStart (.ite h.trigDropped h.setBit))

theorem State.canonical.jinjTrigger {f : Nat} (h : s.canonical) : (s.jinjTrigger f).canonical :=
  .ite h (.ite h.jinjStart (.ite h.trigDropped h.setBit))

theorem State.canonical.regDone {f : Nat} (h : s.canonical) : (s.regDone f).canonical :=
  .ite h.setBit.raise.pulseSelected.setBit.regStart h.setBit.raise.pulseSelected

theorem State.canonical.jinjDone {f : Nat} (h : s.canonical) : (s.jinjDone f).canonical :=
  .ite h.setBit.raise.setBit.jinjStart h.setBit.raise

theorem State.canonical.beginConv {f : Nat} {c : Conv} {req : Option Nat} (h : s.canonical) : (s.beginConv f c req).canonical :=
  .updFadc (.ite h.count.raise h)

theorem State.canonical.takeSample {input slot : Nat} {w2 w3 : Word} (h : s.canonical) :
    (s.takeSample input slot w2 w3).canonical :=
  .beginConv (.foldl h fun _ _ ht => ht.updFadc)

theorem State.canonical.nextConv {f : Nat} (h : s.canonical) : (s.nextConv f).canonical := by
  unfold State.nextConv
  extract_lets _ _ _ _ starved _ _ s0
  have hstarved : starved.canonical := h.budStarve
  have h0 : s0.canonical := .ite hstarved h
  refine .ite h.budDraw.beginConv.updFadc (.ite h.budDraw.beginConv.updFadc ?_)
  split
  · exact h0.beginConv.updFadc
  · exact .ite h0.updFadc (.ite hstarved h.budDraw.beginConv.updFadc)

theorem State.canonical.faWatched {n : Nat} {out : Bool} (h : s.canonical) : (s.faWatched n out).canonical := by
  unfold State.faWatched
  extract_lets _ _ s1
  have h1 : s1.canonical := by simpa only [State.canonical, s1] using h
  exact .ite h1.raise.sendFault h1

theorem State.canonical.samplePut {q : Nat} {e : List Byte} (h : s.canonical) : (s.samplePut q e).canonical :=
  .ite h.qputFor h.qputFor.raise

theorem State.canonical.deliverSample {c : Conv} {res angle slot : Word} (h : s.canonical) :
    (s.deliverSample c res angle slot).canonical :=
  .ite (.samplePut (.ite h.launch h)) (.ite h.launch h)

theorem State.canonical.deliverMissing {f n : Nat} (h : s.canonical) : (s.deliverMissing f n).canonical := by
  induction n generalizing s with
  | zero => exact h
  | succ n ih =>
    rw [State.deliverMissing]
    split
    · exact .ite (ih h.updFadc.deliverSample) h
    · exact h

theorem State.canonical.fcalFinish {f : Nat} {pairs : List (Nat × Int × Int)} (h : s.canonical) :
    (s.fcalFinish f pairs).canonical := by
  unfold State.fcalFinish
  extract_lets _ s1
  have h1 : s1.canonical := h.setBit.updFadc
  exact .ite (.raise (.foldl h1 fun _ _ ht => ht.setFld.setFld)) h1.raise.sendFault

theorem State.canonical.fcalStep {f raw : Nat} (h : s.canonical) : (s.fcalStep f raw).canonical := by
  unfold State.fcalStep
  split
  · exact h
  · exact .ite h.updFadc (.ite h.fcalFinish h.updFadc)

theorem State.canonical.convDone {f : Nat} {c : Conv} {raw : Nat} {outside : Bool} (h : s.canonical) :
    (s.convDone f c raw outside).canonical := by
  unfold State.convDone
  extract_lets _ _ _ _ _ _ _ _ _ s1 s2 s3 s4 _ _ _ s5 _ _ _ s6 s6'
  have h1 : s1.canonical := h.updFadc
  have h2 : s2.canonical := .ite h1.count.raise h1
  have h3 : s3.canonical := h2.setReg
  have h4 : s4.canonical := .ite h3 h3.faWatched
  have h5 : s5.canonical := .ite (.ofTables h4 rfl rfl) h4
  have h6 : s6.canonical := .ite h5.setReg.samplePut h5.setReg
  have hs6' : s6'.canonical := .ite h5.setReg.samplePut h5.setReg
  exact .ite h2.fcalStep (.ite h5.deliverSample (.ite (.ite h6.jinjDone h6) (.ite (.ite hs6'.regDone hs6') h5)))

theorem State.canonical.runFadc (h : s.canonical) : s.runFadc.canonical := by
  simpa only [State.canonical, State.runFadc] using h

theorem State.canonical.fadcDisable {f : Nat} (h : s.canonical) : (s.fadcDisable f).canonical :=
  .updFadc (.foldl h.disableSamples fun _ _ ht => ht.setBit)

theorem State.canonical.fadcEnable {f : Nat} (h : s.canonical) : (s.fadcEnable f).canonical := by
  unfold State.fadcEnable
  extract_lets s1
  have h1 : s1.canonical := h.updFadc
  simpa only [State.canonical] using h1

theorem State.canonical.fcalStart {f : Nat} (h : s.canonical) : (s.fcalStart f).canonical := h.setBit.updFadc

theorem State.canonical.fadcWrite {addr : Nat} {w : Word} (h : s.canonical) : (s.fadcWrite addr w).canonical := by
  unfold State.fadcWrite
  refine h.writeWith fun _ ht => .ite (.foldl ht fun _ _ hu => .ite hu.fadcDisable (.ite hu.fadcEnable hu)) (.ite
    (.foldl ht fun _ _ hu => ?_) ht)
  extract_lets u1 u2
  have hu1 : u1.canonical := .ite hu.regTrigger hu
  have hu2 : u2.canonical := .ite hu1.jinjTrigger hu1
  exact .ite hu2.fcalStart hu2

theorem State.canonical.fadcLine {k : Nat} (h : s.canonical) : (s.fadcLine k).canonical :=
  .foldl h fun _ _ ht => .ite (.jinjTrigger (.ite ht.regTrigger ht)) (.ite ht.regTrigger ht)

theorem State.canonical.takeMissing {input : Nat} {angle : Word} {slot : Nat} {w2 w3 : Word} (h : s.canonical) :
    (s.takeMissing input angle slot w2 w3).canonical :=
  h.updFadc.deliverMissing

theorem execFadcSampleDispatch_canonical (h : s.canonical) : AnswersCanonical (execFadcSampleDispatch s) := by
  unfold execFadcSampleDispatch
  split
  · exact .next h.ackItem.takeSample
  · exact .next h.ackItem.takeMissing
  · exact .next h

theorem execFadcConversionDone_canonical {f : Fin 4} {raw : BitVec 16} {outside : Bool} (h : s.canonical) :
    AnswersCanonical (execFadcConversionDone f raw outside s) := by
  unfold execFadcConversionDone
  split
  · exact .ite (.next h.updFadc.convDone.deliverMissing) (.next h)
  · exact .next h

/-! ### The Locket -/

theorem State.canonical.lktShow (h : s.canonical) : s.lktShow.canonical := by
  unfold State.lktShow
  extract_lets _ s1 _ _ s2
  have h1 : s1.canonical := h.setFld.setFld.setFld
  have h2 : s2.canonical := .ite h1.setReg.setReg h1.setReg.setReg
  split <;> exact h2.setReg.setReg

theorem State.canonical.updArea {area : Bool} {f : LktArea → LktArea} (h : s.canonical) : (s.updArea area f).canonical :=
  h.updLkt

theorem State.canonical.putSlot {area : Bool} {typ : Nat} {bytes : List Byte} {counts : Bool} (h : s.canonical) :
    (s.putSlot area typ bytes counts).canonical :=
  h.wrBytes.updArea

theorem State.canonical.putRec {r : LktRec} (h : s.canonical) : (s.putRec r).canonical := h.putSlot

theorem State.canonical.askSeal {area early : Bool} (h : s.canonical) : (s.askSeal area early).canonical :=
  .ite h h.updLkt.lktShow

theorem State.canonical.fullBlock {area : Bool} (h : s.canonical) : (s.fullBlock area).canonical := by
  unfold State.fullBlock
  split
  · exact .ite h.askSeal h
  · exact h

theorem State.canonical.putCopy {r : LktRec} {bytes : List Byte} (h : s.canonical) : (s.putCopy r bytes).canonical :=
  .fullBlock (.updLkt (.putSlot (.ite h.putRec h)))

theorem State.canonical.noteRing {slot seq : Nat} (h : s.canonical) : (s.noteRing slot seq).canonical := h.updLkt

theorem State.canonical.afterRing {r : LktRec} {bytes : List Byte} (h : s.canonical) : (s.afterRing r bytes).canonical := by
  unfold State.afterRing
  extract_lets _ s1 s2
  have h1 : s1.canonical := .ite h.putCopy (.ite h.count.setFld.raise h)
  have h2 : s2.canonical := .ite h1.raise.sendFault (.ite h1.raise h1)
  exact h2.fullBlock

theorem State.canonical.putRing {r : LktRec} (h : s.canonical) : (s.putRing r).canonical := h.putSlot.noteRing.afterRing.lktShow

theorem State.canonical.putAny {r : LktRec} (h : s.canonical) : (s.putAny r).canonical :=
  .ite (.lktShow (.ite h.putRec.raise h.putRec)) h.putRing

theorem State.canonical.sealNow {area : Bool} (h : s.canonical) : (s.sealNow area).canonical := by
  unfold State.sealNow
  split
  · exact h.putAny.putAny
  · exact h

theorem State.canonical.lktDrop (h : s.canonical) : s.lktDrop.canonical := .ite h.count h.count.updLkt

theorem State.canonical.lktQueue {r : LktRec} (h : s.canonical) : (s.lktQueue r).canonical := .ite h.lktDrop h.updLkt.lktShow

theorem State.canonical.lktSend {r : LktRec} (h : s.canonical) : (s.lktSend r).canonical := h.updLkt

theorem State.canonical.popQueue (h : s.canonical) : s.popQueue.canonical := .ite h.updLkt.lktShow.updLkt h.updLkt.lktShow

theorem State.canonical.startRec {r : LktRec} (h : s.canonical) : (s.startRec r).canonical :=
  .ite h.budDraw.putAny h.budDraw.wrBytes.updLkt

theorem State.canonical.finishRec (h : s.canonical) : s.finishRec.canonical := by
  unfold State.finishRec
  extract_lets
  split
  · exact h
  · exact h.updLkt.putSlot.noteRing.afterRing.lktShow

theorem State.canonical.lktNext (h : s.canonical) : s.lktNext.canonical := by
  unfold State.lktNext
  extract_lets
  refine .ite h ?_
  split
  · exact h.updLkt.updLkt.startRec
  · exact .ite h.askSeal h.popQueue.updLkt.startRec
  · exact h

theorem State.canonical.flushQueue {n : Nat} (h : s.canonical) : (s.flushQueue n).canonical := by
  induction n generalizing s with
  | zero => exact h
  | succ n ih =>
    rw [State.flushQueue]
    split
    · exact h
    · exact ih h.updLkt.putRing

theorem State.canonical.lktCommit {rail : Nat} (h : s.canonical) : (s.lktCommit rail).canonical :=
  h.setFld.updLkt.finishRec.flushQueue.putRing.updLkt.lktShow

theorem State.canonical.eraseSlots {area : Bool} {p : Nat → Bool} (h : s.canonical) : (s.eraseSlots area p).canonical :=
  ⟨h.regs, tabWf_filter _ h.mem⟩

theorem State.canonical.doClear {b : List Byte} {from_ to_ : Nat} (h : s.canonical) : (s.doClear b from_ to_).canonical := by
  unfold State.doClear
  extract_lets _ t s1 s2 _ s3
  have ht : t.canonical := h.eraseSlots
  have h1 : s1.canonical := .ite ht.updLkt h
  have h2 : s2.canonical := .ite h1.eraseSlots.updArea.setFld h1
  have h3 : s3.canonical := .ite h2 h2.putCopy
  exact h3.putRing.raise.setFld

theorem State.canonical.lktFind (h : s.canonical) : s.lktFind.canonical := by
  unfold State.lktFind
  extract_lets _ _ s1
  have h1 : s1.canonical := by
    unfold s1
    split
    · exact h.useFree.updArea
    · exact h.updLkt
  split
  · exact h1
  · exact h1.updLkt

theorem State.canonical.restoreTime {head : Option (List Byte)} (h : s.canonical) : (s.restoreTime head).canonical :=
  h.updLkt.setFld

theorem State.canonical.lktScan (h : s.canonical) : s.lktScan.canonical := by
  unfold State.lktScan
  extract_lets _ head s1 s2 _ s3 s4 s5 s6 s7
  have h1 : s1.canonical := h.lktFind
  have h2 : s2.canonical := by
    unfold s2
    split
    · exact h1.doClear
    · exact h1
  have h3 : s3.canonical := by
    unfold s3
    clear_value s2
    cases head with
    | some _ => exact .ite h2.putRing.count.raise.sendFault h2
    | none => exact h2
  have h4 : s4.canonical := h3.sealNow
  have h5 : s5.canonical := h4.putAny
  have h6 : s6.canonical := h5.sealNow
  have h7 : s7.canonical := h6.restoreTime
  exact h7.updLkt.setFld.lktShow

theorem State.canonical.timeEntry {cause old : Nat} (h : s.canonical) : (s.timeEntry cause old).canonical := h.lktSend

theorem State.canonical.timeStep (h : s.canonical) : s.timeStep.canonical := h.calAdd.setFld.updLkt.timeEntry

theorem State.canonical.newChallenge (h : s.canonical) : s.newChallenge.canonical := .useFree (.foldl h fun _ _ ht => ht.setReg)

theorem State.canonical.refuseRequest {result : Nat} (h : s.canonical) : (s.refuseRequest result).canonical :=
  h.setFld.raise.verifyFailed

theorem State.canonical.beginClear {scope : Nat} {nonce : List Byte} (h : s.canonical) : (s.beginClear scope nonce).canonical :=
  h.finishRec.sealNow.putAny.putSlot.noteRing.updLkt.setFld.lktShow

theorem State.canonical.authorised (h : s.canonical) : s.authorised.canonical := by
  unfold State.authorised
  extract_lets _ _ _ t _ t1 _ t2
  have ht : t.canonical := h.newChallenge
  have ht1 : t1.canonical := ht.setFld.raise
  have ht2 : t2.canonical := ht1.updLkt.setFld
  exact .ite h.refuseRequest (.ite ht.refuseRequest (.ite ht.refuseRequest (.ite ht.refuseRequest
    (.ite ht1.beginClear ht2.raise.timeEntry))))

theorem State.canonical.userPut {pin : Bool} (h : s.canonical) : (s.userPut pin).canonical := h.lktQueue.setFld

theorem State.canonical.lktWrite {addr : Nat} {w : Word} (h : s.canonical) : (s.lktWrite addr w).canonical := by
  unfold State.lktWrite
  exact h.writeWith fun _ ht => .ite (.ite (.askSeal (.ite ht.askSeal ht)) (.ite ht.askSeal ht)) (.ite (.ite ht.userPut ht)
    (.ite (.ite ht.updLkt.setFld ht) (.ite (.ite ht.authorised ht) (.ite ht.updLkt.setFld (.ite (.ite ht.timeStep ht) ht)))))

theorem State.canonical.tseclRead (h : s.canonical) : (s.tseclRead).1.canonical := h.setFld.setFld

theorem execLocketEntry_canonical (h : s.canonical) : AnswersCanonical (execLocketEntry s) := by
  unfold execLocketEntry
  split
  · exact .next h
  · exact .next h.updLkt.lktQueue

theorem execSealSigned_canonical (h : s.canonical) : AnswersCanonical (execSealSigned s) := by
  unfold execSealSigned
  split
  · exact .next h
  · exact .next h.updLkt.lktShow

theorem execPinnedSealTimeout_canonical (h : s.canonical) : AnswersCanonical (execPinnedSealTimeout s) := by
  unfold execPinnedSealTimeout
  split
  · exact .next (.ite h.updLkt.askSeal h)
  · exact .next h

theorem execVdone_canonical (h : s.canonical) : AnswersCanonical (execVdone s) := by
  unfold execVdone
  split
  · exact .next h
  · exact .next h.updLkt.setFld.setFld.setFld.raise

theorem execClrdone_canonical (h : s.canonical) : AnswersCanonical (execClrdone s) := by
  unfold execClrdone
  split
  · exact .next h
  · exact .next h.updLkt.doClear.lktShow

/-! ### The Hallmark -/

theorem State.canonical.acceptEnrol {b : List Byte} (h : s.canonical) : (s.acceptEnrol b).canonical :=
  .lktSend (.raise (.setFld (.setFld (.setFld (.setFld (.ofTables h rfl rfl))))))

theorem State.canonical.enrolGo (h : s.canonical) : s.enrolGo.canonical := by
  unfold State.enrolGo
  extract_lets _ _ s1 s2
  have h1 : s1.canonical := h.newChallenge.setFld
  have h2 : s2.canonical := h1.raise
  exact .ite h.raise (.ite h1.acceptEnrol (.ite h2.verifyFailed h2))

theorem State.canonical.raiseRollback {cal : Bool} {v : Nat} (h : s.canonical) : (s.raiseRollback cal v).canonical :=
  h.setFld.raise.lktSend

theorem State.canonical.hmkWrite {addr : Nat} {w : Word} (h : s.canonical) : (s.hmkWrite addr w).canonical :=
  h.writeWith fun _ ht => .ite ht.raiseRollback (.ite (.ite ht.enrolGo ht) ht)

/-! ### Precision conversions -/

theorem State.canonical.updPadc {c : Nat} {g : Padc → Padc} (h : s.canonical) : (s.updPadc c g).canonical := by
  simpa only [State.canonical, State.updPadc] using h

theorem State.canonical.paWatched {c k : Nat} {out : Bool} (h : s.canonical) : (s.paWatched c k out).canonical := by
  unfold State.paWatched
  extract_lets _ _ s1
  have h1 : s1.canonical := by simpa only [State.canonical, s1] using h
  exact .ite h1.raise.sendFault h1

theorem State.canonical.padcDeliver {c k : Nat} {code : Int} {inv ovr : Bool} (h : s.canonical) :
    (s.padcDeliver c k code inv ovr).canonical := by
  unfold State.padcDeliver
  extract_lets _ _ s1 s2 s3 r
  have h1 : s1.canonical := h.setReg.setReg.raise
  have h2 : s2.canonical := .ite h1.count.raise h1
  have h3 : s3.canonical := .ite h2.count h2.paWatched
  have hr : r.1.canonical := h3.qputFor
  exact .ite (.ite hr hr.raise) h3

theorem State.canonical.padcForce {c : Nat} (h : s.canonical) : (s.padcForce c).canonical := h.updPadc

theorem State.canonical.crossBegin (h : s.canonical) : s.crossBegin.canonical := by
  unfold State.crossBegin
  extract_lets s1
  have h1 : s1.canonical := .foldl h.setFld fun _ _ ht => ht.updPadc
  exact .ite (.ofTables h1 rfl rfl) h

theorem State.canonical.padcNext {c : Nat} (h : s.canonical) : (s.padcNext c).canonical :=
  .ite h.updPadc.crossBegin (.ite h.updPadc h.updPadc)

theorem State.canonical.scanDone {c : Nat} (h : s.canonical) : (s.scanDone c).canonical :=
  .ite h (.ite h.updPadc.updPadc h.updPadc)

theorem State.canonical.listPeriod {c : Nat} {raw : BitVec 24} {sat : Bool} (h : s.canonical) :
    (s.listPeriod c raw sat).canonical := by
  unfold State.listPeriod
  extract_lets _ _ _ _ _ _ _ s1 s2 _ s3
  have h1 : s1.canonical := h.updPadc
  have h2 : s2.canonical := .ite h1.padcDeliver.updPadc h1
  have h3 : s3.canonical := h2.updPadc
  exact .ite (.ite h3.raise.scanDone h3) h2

theorem State.canonical.pcalFinish {c : Nat} {l : List Int} (h : s.canonical) : (s.pcalFinish c l).canonical :=
  .ite h.setBit.updPadc.setFld.setFld.raise h.setBit.updPadc.raise.sendFault

theorem State.canonical.calPeriod {c : Nat} {raw : BitVec 24} (h : s.canonical) : (s.calPeriod c raw).canonical :=
  .ite h.pcalFinish h.updPadc

theorem State.canonical.crossFail {detail : Nat} (h : s.canonical) : (s.crossFail detail).canonical := h.count.raise.sendFault

theorem State.canonical.crossFinish {w0 w1 : Int} (h : s.canonical) : (s.crossFinish w0 w1).canonical := by
  unfold State.crossFinish
  extract_lets s1 _ s2 s3 _ _ s4
  have h1 : s1.canonical := .foldl h.setFld fun _ _ ht => ht.updPadc
  have h2 : s2.canonical := h1.setFld
  have h3 : s3.canonical := .ite h2.crossFail h2
  have h4 : s4.canonical := h3.setFld.setFld
  exact .ite h3 (.ite h3.setFld.useFree.crossFail (.ite h4.crossFail h4))

theorem State.canonical.crossPeriod {c : Nat} {raw : BitVec 24} (h : s.canonical) : (s.crossPeriod c raw).canonical := by
  unfold State.crossPeriod
  extract_lets _ _ s1
  have h1 : s1.canonical := h.updPadc
  refine .ite h (.ite h.updPadc ?_)
  split
  · exact h1.crossFinish
  · exact h1

theorem State.canonical.padcPeriodEnd {c : Nat} {raw : BitVec 24} {sat : Bool} (h : s.canonical) :
    (s.padcPeriodEnd c raw sat).canonical := by
  unfold State.padcPeriodEnd
  extract_lets _ s1 s1'
  have h1 : s1.canonical := .ite h.padcDeliver h
  have hs1' : s1'.canonical := h.calPeriod.padcForce
  refine .ite h1.updPadc ?_
  split
  · exact h
  · exact h
  · exact h.listPeriod.padcForce.padcNext
  · exact .ite hs1'.padcNext hs1'
  · exact h.crossPeriod

theorem State.canonical.padcEnable {c : Nat} (h : s.canonical) : (s.padcEnable c).canonical := by
  unfold State.padcEnable
  extract_lets s1
  have h1 : s1.canonical := h.updPadc
  simpa only [State.canonical] using h1

theorem State.canonical.padcDisable {c : Nat} (h : s.canonical) : (s.padcDisable c).canonical :=
  .ite h.setBit.updPadc.updPadc h.setBit.updPadc

theorem State.canonical.padcWrite {addr : Nat} {w : Word} (h : s.canonical) : (s.padcWrite addr w).canonical := by
  unfold State.padcWrite
  exact h.writeWith fun _ ht => .ite (.foldl ht fun _ _ hu => .ite hu.padcDisable (.ite hu.padcEnable hu)) (.ite
    (.foldl ht fun _ _ hu => .ite hu.setBit.updPadc hu) ht)

theorem State.canonical.gridLost (h : s.canonical) : s.gridLost.canonical := by
  unfold State.gridLost
  extract_lets x
  have hx : x.canonical := h.setFld.setReg
  exact .sendFault (.raise (.ofTables hx rfl rfl))

theorem State.canonical.gridInterval {d : Nat} (h : s.canonical) : (s.gridInterval d).canonical := by
  unfold State.gridInterval
  extract_lets _ _ _ _ x _ s1
  have hx : x.canonical := h.setReg
  have h1 : s1.canonical := .ofTables h rfl rfl
  exact .ite (.ite h.gridLost (.ofTables hx rfl rfl)) (.ite (.ofTables h rfl rfl) (.ite h1.setFld.setReg.raise h1))

theorem execGridzEdge_canonical (h : s.canonical) : AnswersCanonical (execGridzEdge s) := by
  unfold execGridzEdge
  extract_lets
  split
  · exact .next (.ofTables h rfl rfl)
  · exact .ite (.next h) (.next (.gridInterval (.ofTables h rfl rfl)))

theorem execGridloss_canonical (h : s.canonical) : AnswersCanonical (execGridloss s) := by
  unfold execGridloss
  split
  · exact .next (.ite h.gridLost h)
  · exact .next h

theorem execStaleInput_canonical {fast : Bool} {n : Fin 48} (h : s.canonical) : AnswersCanonical (execStaleInput fast n s) := by
  unfold execStaleInput
  extract_lets
  exact .ite (.ite (.next (.sendFault (.raise (by simpa only [State.canonical] using h)))) (.next h)) (.ite (.next (.sendFault
    (.raise (by simpa only [State.canonical] using h)))) (.next h))

/-! ### Injection -/

theorem State.canonical.updInj {n : Nat} {f : InjCh → InjCh} (h : s.canonical) : (s.updInj n f).canonical := by
  simpa only [State.canonical, State.updInj] using h

theorem State.canonical.setGates {n : Nat} {on : Bool} (h : s.canonical) : (s.setGates n on).canonical :=
  .ite h.setBit.setBit h.setBit

theorem State.canonical.setLs {n : Nat} {on : Bool} (h : s.canonical) : (s.setLs n on).canonical := h.setGates.updInj

theorem State.canonical.hsUpdate {b : Nat} (h : s.canonical) : (s.hsUpdate b).canonical :=
  .ite (.foldl h.setBit fun _ _ ht => .ite ht.setLs.updInj ht) h.setBit

theorem State.canonical.alrt {cause : Nat} {isU isLink : Bool} (h : s.canonical) : (s.alrt cause isU isLink).canonical :=
  .raise (.setFld (.setFld (.ofTables h rfl rfl)))

theorem State.canonical.alrtOff (h : s.canonical) : s.alrtOff.canonical := .setFld (.ofTables h rfl rfl)

theorem State.canonical.injFault {bit unit cls : Nat} (h : s.canonical) : (s.injFault bit unit cls).canonical :=
  h.raise.sendFault.alrt

theorem State.canonical.injChFault {n bit cls fst : Nat} (h : s.canonical) : (s.injChFault n bit cls fst).canonical :=
  h.injFault.setBit

theorem State.canonical.report {kind n : Nat} {valid : Bool} {cause delay filt tend : Nat} {trim : Option (Nat × Nat)}
    (h : s.canonical) :
    (s.report kind n valid cause delay filt tend trim).canonical :=
  h.launch

theorem State.canonical.disableCause (h : s.canonical) : (s.disableCause).1.canonical := h.useFree

theorem State.canonical.adapt {n key t : Nat} (h : s.canonical) : (s.adapt n key t).1.canonical :=
  .iteFst (.iteFst h.raise.setBit h.setReg) h

theorem State.canonical.openInvalid {n : Nat} (h : s.canonical) : (s.openInvalid n).canonical := .ite h.setBit.report h

theorem State.canonical.closeInvalid {n : Nat} (h : s.canonical) : (s.closeInvalid n).canonical := .ite h.setBit.report h

theorem State.canonical.search {n : Nat} (h : s.canonical) : (s.search n).canonical := by
  unfold State.search
  extract_lets
  split
  · exact .ite (.ite h.updInj h.updInj) (.ite (.ite h.updInj h.updInj) h)
  · exact h

theorem State.canonical.pulseOff {n slot : Nat} {natural latch : Bool} (h : s.canonical) :
    (s.pulseOff n slot natural latch).canonical :=
  .hsUpdate (.ite h.openInvalid.setLs.updInj.setBit h.openInvalid.setLs.updInj)

theorem State.canonical.forceEnd {n cause : Nat} {latch : Bool} (h : s.canonical) : (s.forceEnd n cause latch).canonical :=
  .ite h.report.pulseOff h.updInj

theorem State.canonical.dropWait {n kind cause : Nat} {st : InjSt} (h : s.canonical) : (s.dropWait n kind cause st).canonical :=
  .ite h.report.updInj.setBit h.report.updInj

theorem State.canonical.latchChannel {n cause : Nat} (h : s.canonical) : (s.latchChannel n cause).canonical := by
  unfold State.latchChannel
  split
  · exact h
  · exact h.dropWait
  · exact h.forceEnd
  · exact h.forceEnd
  · exact h.forceEnd
  · exact h.forceEnd
  · exact h.forceEnd
  · exact h.closeInvalid.setGates.updInj.setBit
  · exact h.closeInvalid.setGates.updInj.setBit
  · exact h.closeInvalid.setGates.updInj.setBit

theorem State.canonical.latchBank {b cause : Nat} (h : s.canonical) : (s.latchBank b cause).canonical :=
  .foldl h fun _ _ ht => ht.latchChannel

theorem State.canonical.injDisable {n : Nat} (h : s.canonical) : (s.injDisable n).canonical := by
  unfold State.injDisable
  extract_lets f
  have hf : f.1.canonical := h.disableCause
  split
  · exact hf.dropWait
  · exact hf.forceEnd
  · exact hf.forceEnd
  · exact hf.forceEnd
  · exact hf.forceEnd
  · exact hf.forceEnd
  · exact h.updInj
  · exact h.updInj
  · exact h.updInj
  · exact h.updInj

theorem State.canonical.beginPulse {n ts : Nat} (h : s.canonical) : (s.beginPulse n ts).canonical := h.updInj.setLs.hsUpdate

theorem State.canonical.injStart {n p ts tmin : Nat} (h : s.canonical) : (s.injStart n p ts tmin).canonical := by
  unfold State.injStart
  extract_lets _ s0 s1 s2 s3
  have h0 : s0.canonical := h.updInj
  have h1 : s1.canonical := h.closeInvalid
  have h2 : s2.canonical := .ite h1.setGates h1
  have h3 : s3.canonical := h2.updInj
  refine .ite h0.raise.report (.ite h0.injChFault.raise.report ?_)
  split
  · exact .ite h3.updInj h3.beginPulse
  · exact .ite h3.updInj h3.beginPulse
  · exact .ite h3.updInj h3.beginPulse
  · exact h
  · exact h
  · exact h
  · exact h
  · exact h
  · exact h
  · exact h

theorem State.canonical.injEnd {n te : Nat} {natural : Bool} (h : s.canonical) : (s.injEnd n te natural).canonical :=
  .ite h.pulseOff h

theorem State.canonical.takeStart {n p ts tmin : Nat} (h : s.canonical) : (s.takeStart n p ts tmin).canonical :=
  .ite h.injStart h.updInj

theorem State.canonical.takeEnd {n te : Nat} {natural : Bool} (h : s.canonical) : (s.takeEnd n te natural).canonical :=
  .ite h (.ite h.updInj h.injEnd)

theorem State.canonical.injDue {n : Nat} (h : s.canonical) : (s.injDue n).canonical := by
  unfold State.injDue
  extract_lets s1 s2
  have h1 : s1.canonical := by
    unfold s1
    split
    · exact .ite h.report.pulseOff h
    · exact h
  have h2 : s2.canonical := by
    unfold s2
    split
    · exact .ite h1.injEnd h1
    · exact h1
  split
  · exact .ite h2.updInj.injStart h2
  · exact h2

theorem State.canonical.runInj (h : s.canonical) : s.runInj.canonical := .foldl h fun _ _ ht => ht.injDue

theorem State.canonical.regulate {n : Nat} (h : s.canonical) : (s.regulate n).canonical := by
  unfold State.regulate
  extract_lets _ _ _ _ _ s1 s2
  have h1 : s1.canonical := h.updInj
  have h2 : s2.canonical := .ite h1.setLs.updInj (.ite h1.setLs.updInj h1)
  split
  · exact h2.hsUpdate
  · exact h2.hsUpdate
  · exact h2.hsUpdate
  · exact h
  · exact h
  · exact h
  · exact h
  · exact h
  · exact h
  · exact h

theorem State.canonical.injSample {n code : Nat} (h : s.canonical) : (s.injSample n code).canonical :=
  h.setReg.updInj.search.regulate

theorem State.canonical.boostOver {n : Nat} (h : s.canonical) : (s.boostOver n).canonical := h.openInvalid.updInj.hsUpdate

theorem State.canonical.clearLatch {n : Nat} (h : s.canonical) : (s.clearLatch n).canonical := .ite h.updInj.setBit h

theorem State.canonical.injWrite {addr : Nat} {w : Word} (h : s.canonical) : (s.injWrite addr w).canonical := by
  unfold State.injWrite
  refine h.writeWith fun _ ht => .ite (.ite (.foldl ht.setFld.setFld fun _ _ hu => .ite hu.injDisable hu) ht) (.ite (.ite (.ite
    (.ofTables ht rfl rfl) ht.alrtOff) ht) (.ite (.foldl ht fun _ _ hu => .ite hu.clearLatch hu) (.ite (.ite ?_ ht) ht)))
  extract_lets x
  have hx : x.canonical := ht.setFld
  exact .ofTables hx rfl rfl

theorem State.canonical.injLost (h : s.canonical) : s.injLost.canonical := by
  unfold State.injLost
  extract_lets s1
  have h1 : s1.canonical := .foldl h fun _ _ ht => .ite (.ite ht.pulseOff ht.updInj) (.ite ht.updInj ht.updInj)
  exact .alrt (by simpa only [State.canonical] using h1)

theorem State.canonical.driveEnded {ch tend : Nat} (h : s.canonical) : (s.driveEnded ch tend).canonical := by
  unfold State.driveEnded
  split
  · exact h
  · exact h.setBit.updOut.retire

theorem State.canonical.takeReportOf {kind ch slot : Nat} {valid : Bool} {cause delay filt tend : Nat} {queue : Option Nat}
    {trim : Option (Nat × Nat)} (h : s.canonical) :
    (s.takeReportOf kind ch slot valid cause delay filt tend queue trim).canonical := by
  unfold State.takeReportOf
  extract_lets s1 s2
  have h1 : s1.canonical := .ite h.driveEnded (.ite h.injRefused h)
  have h2 : s2.canonical := by
    unfold s2
    split
    · exact h1.trimWriteHw
    · exact h1
  split
  · exact h2.qputFor
  · exact h2

theorem execInjStartCommand_canonical (h : s.canonical) : AnswersCanonical (execInjStartCommand s) := by
  unfold execInjStartCommand
  split
  · exact .next h.ackItem.takeStart
  · exact .next h

theorem execInjEndCommand_canonical (h : s.canonical) : AnswersCanonical (execInjEndCommand s) := by
  unfold execInjEndCommand
  split
  · exact .next h.ackItem.takeEnd
  · exact .next h

theorem execTbmaxExpiry_canonical {n : Fin 12} (h : s.canonical) : AnswersCanonical (execTbmaxExpiry n s) := by
  unfold execTbmaxExpiry
  extract_lets
  exact .ite (.ite (.next h.injChFault.boostOver) (.next h.injChFault.boostOver.forceEnd)) (.next h)

theorem execInjCloseEnd_canonical {n : Fin 12} (h : s.canonical) : AnswersCanonical (execInjCloseEnd n s) := by
  unfold execInjCloseEnd
  extract_lets
  exact .ite (.next h) (.ite (.next h.closeInvalid.setGates.updInj) (.ite (.next h.closeInvalid.setGates.updInj) (.next h)))

theorem execOvercurrent_canonical {n : Fin 12} (h : s.canonical) : AnswersCanonical (execOvercurrent n s) := by
  unfold execOvercurrent
  extract_lets _ s1 s2 s3
  have h1 : s1.canonical := h.injChFault.closeInvalid
  have h2 : s2.canonical := .ite h1.report.pulseOff (.ite h1.dropWait.setGates h1.setGates)
  have h3 : s3.canonical := .ite h2.updInj h2
  exact .ite (.next h) (.next h3.updInj.setBit)

theorem execOpenDetected_canonical {n : Fin 12} (h : s.canonical) : AnswersCanonical (execOpenDetected n s) := by
  unfold execOpenDetected
  extract_lets
  split
  · exact .next h.updInj.raise.adapt.report
  · exact .next h

theorem execCloseDetected_canonical {n : Fin 12} (h : s.canonical) : AnswersCanonical (execCloseDetected n s) := by
  unfold execCloseDetected
  extract_lets
  split
  · exact .next h.updInj.raise.adapt.report
  · exact .next h

theorem execDriveReport_canonical (h : s.canonical) : AnswersCanonical (execDriveReport s) := by
  unfold execDriveReport
  split
  · exact .next h.ackItem.takeReportOf
  · exact .next h

theorem execVhvov_canonical {k : Fin 2} {v : BitVec 10} (h : s.canonical) : AnswersCanonical (execVhvov k v s) := by
  unfold execVhvov
  extract_lets s1
  have h1 : s1.canonical := h.setFld
  exact .next (.ite (.injFault (.ofTables h1 rfl rfl)) h1)

theorem execVhvovRelease_canonical {k : Fin 2} {v : BitVec 10} (h : s.canonical) :
    AnswersCanonical (execVhvovRelease k v s) := by
  unfold execVhvovRelease
  extract_lets s1
  have h1 : s1.canonical := h.setFld
  exact .next (.ite (.ofTables h1 rfl rfl) h1)

theorem State.canonical.diagBank {b : Nat} {short : BitVec 4} {opn between : BitVec 12} (h : s.canonical) :
    (s.diagBank b short opn between).canonical := by
  unfold State.diagBank
  extract_lets s1
  have h1 : s1.canonical := h.setReg
  exact .ite h1.setFld.injFault.latchBank (.foldl h1 fun _ _ ht => .ite ht.setFld.injFault ht.setFld)

theorem execDiagdone_canonical {short : BitVec 4} {opn between : BitVec 12} (h : s.canonical) :
    AnswersCanonical (execDiagdone short opn between s) := by
  unfold execDiagdone
  extract_lets s1 x
  have h1 : s1.canonical := .foldl h fun _ _ ht => .ite ht.diagBank ht
  have hx : x.canonical := h1.setFld
  exact .ite (.next (.raise (.ofTables hx rfl rfl))) (.next h)

/-! ### PWM pairs -/

theorem State.canonical.updPwm {n : Nat} {f : Pwm → Pwm} (h : s.canonical) : (s.updPwm n f).canonical := by
  simpa only [State.canonical, State.updPwm] using h

theorem State.canonical.pwmTurnOn {n : Nat} {high : Bool} (h : s.canonical) : (s.pwmTurnOn n high).canonical :=
  .ite h.updPwm.launch h.updPwm

theorem State.canonical.pwmLowOff {n : Nat} (h : s.canonical) : (s.pwmLowOff n).canonical := .ite h.updPwm.launch h.updPwm

theorem State.canonical.pwmBothOff {n : Nat} (h : s.canonical) : (s.pwmBothOff n).canonical := h.pwmLowOff.updPwm

theorem State.canonical.pwmFollow {n : Nat} (h : s.canonical) : (s.pwmFollow n).canonical := by
  unfold State.pwmFollow
  extract_lets _ s1 s2
  have h1 : s1.canonical := h.updPwm
  have h2 : s2.canonical := .ite h1.pwmLowOff h1
  refine .ite (.ite h2.pwmTurnOn ?_) h2.updPwm
  split
  · exact .ite h2 h2.updPwm
  · exact h2.updPwm

theorem State.canonical.pwmDue {n : Nat} (h : s.canonical) : (s.pwmDue n).canonical := by
  unfold State.pwmDue
  split
  · exact .ite h.pwmTurnOn h
  · exact h

theorem State.canonical.runPwm (h : s.canonical) : s.runPwm.canonical := .foldl h fun _ _ ht => ht.pwmDue

theorem State.canonical.pwmFlag {n flag evt : Nat} (h : s.canonical) : (s.pwmFlag n flag evt).canonical := h.setBit.raise

theorem State.canonical.pwmRequest {n : Nat} {active : Bool} (h : s.canonical) : (s.pwmRequest n active).canonical :=
  .ite h (.pwmFollow (.updPwm (.ite h.pwmFlag.count h)))

theorem State.canonical.loadShadows {n : Nat} (h : s.canonical) : (s.loadShadows n).canonical := by
  unfold State.loadShadows
  extract_lets _ _ _ _ s1 s2 _ _ s3
  have h1 : s1.canonical := .ite h.setFld h
  have h2 : s2.canonical := .ite h1.setFld h1
  have h3 : s3.canonical := .ite h2.pwmFlag h2
  exact h3.setFld.updPwm

theorem State.canonical.boundaryLoads {n : Nat} (h : s.canonical) : (s.boundaryLoads n).canonical :=
  .ite h.setFld.updPwm (.ite h.setFld.setFld.setFld.setFld.updPwm h.loadShadows)

theorem State.canonical.periodEvent {n : Nat} (h : s.canonical) : (s.periodEvent n).canonical := .ite h.updPwm.raise h.updPwm

theorem State.canonical.boostBoundary {k : Nat} {below : Bool} (h : s.canonical) : (s.boostBoundary k below).canonical := by
  unfold State.boostBoundary
  extract_lets _ _ s1 s2
  have h1 : s1.canonical := h.pwmLowOff.updPwm
  have h2 : s2.canonical := h1.count
  exact .ite h1.pwmFollow (.ite (.ite h1.updPwm h1.pwmTurnOn) (.ite h2.pwmFlag h2))

theorem State.canonical.pwmBoundary {n : Nat} {below : Bool} (h : s.canonical) : (s.pwmBoundary n below).canonical := by
  unfold State.pwmBoundary
  extract_lets s1
  have h1 : s1.canonical := h.boundaryLoads.updPwm.periodEvent
  exact .ite h1.boostBoundary h1.pwmRequest

theorem State.canonical.pwmEnable {n : Nat} (h : s.canonical) : (s.pwmEnable n).canonical :=
  .ite h.setReg.updPwm.pwmBoundary h.setReg.updPwm.pwmBoundary.pwmFollow

theorem State.canonical.pwmDisable {n : Nat} (h : s.canonical) : (s.pwmDisable n).canonical := by
  unfold State.pwmDisable
  extract_lets _ s1 s2 s3 s4
  have h1 : s1.canonical := h.pwmBothOff
  have h2 : s2.canonical := .ite h1.setFld h1
  have h3 : s3.canonical := .ite h2.setFld h2
  have h4 : s4.canonical := h3.setFld.setFld
  exact h4.updPwm

theorem State.canonical.pwmSafe {n : Nat} (h : s.canonical) : (s.pwmSafe n).canonical := .ite h.setFld.updPwm.raise h

theorem State.canonical.pwmSafeMask {m : Nat} (h : s.canonical) : (s.pwmSafeMask m).canonical :=
  .foldl h fun _ _ ht => .ite ht.pwmSafe ht

theorem State.canonical.pwmLost (h : s.canonical) : s.pwmLost.canonical := h.pwmSafeMask.pwmBothOff.pwmBothOff

theorem State.canonical.commutate {n : Nat} (h : s.canonical) : (s.commutate n).canonical :=
  .ite h.setFld (.ite h.setFld.pwmBothOff h.setFld.pwmFollow)

theorem State.canonical.commutateLine {k : Nat} (h : s.canonical) : (s.commutateLine k).canonical :=
  .foldl h fun _ _ ht => .ite ht.commutate ht

theorem State.canonical.pwmApply {w : Word} (h : s.canonical) : (s.pwmApply w).canonical :=
  .foldl h.setFld.setFld fun _ _ ht => .ite ht.pwmDisable (.ite ht.pwmEnable ht)

theorem State.canonical.pwmWrite {addr : Nat} {w : Word} (h : s.canonical) : (s.pwmWrite addr w).canonical := by
  unfold State.pwmWrite
  extract_lets
  exact h.writeWith fun _ ht => .ite (.ite ht.pwmApply ht) (.ite ht.pwmSafeMask (.ite
    (.foldl ht fun _ _ hu => .ite hu.updPwm hu) (.ite (.foldl ht fun _ _ hu => .ite hu.commutate hu) (.ite ht (.ite ht.updPwm
    (.ite ht.updPwm (.ite (.ite ht.setFld ht) ht)))))))

theorem execSwNodeCrossing_canonical {n : Fin 10} (h : s.canonical) : AnswersCanonical (execSwNodeCrossing n s) := by
  unfold execSwNodeCrossing
  extract_lets
  split
  · exact .next h.setFld.updPwm.pwmDue
  · exact .next h

theorem execNodeTimeout_canonical {n : Fin 10} (h : s.canonical) : AnswersCanonical (execNodeTimeout n s) := by
  unfold execNodeTimeout
  extract_lets
  split
  · exact .ite (.next h.pwmTurnOn.pwmFlag.count.setFld) (.next h)
  · exact .next h

theorem State.canonical.boostOff {k : Nat} (h : s.canonical) : (s.boostOff k).canonical := .ite h.pwmLowOff.updPwm h.pwmLowOff

/-! ### Threads -/

theorem State.canonical.updThr {n : Nat} {f : ThreadSt → ThreadSt} (h : s.canonical) : (s.updThr n f).canonical := by
  simpa only [State.canonical, State.updThr] using h

theorem State.canonical.aenShow (h : s.canonical) : s.aenShow.canonical := h.setFld.setFld.setFld.setFld

theorem State.canonical.setTh {n st : Nat} (h : s.canonical) : (s.setTh n st).canonical :=
  .aenShow (.ite h.setFld h.setFld.setFld)

theorem State.canonical.setTg {n r : Nat} {v : Word} (h : s.canonical) : (s.setTg n r v).canonical := .ite h h.setReg

theorem State.canonical.setThPc {n : Nat} {pc : Word} (h : s.canonical) : (s.setThPc n pc).canonical := h.updThr

theorem State.canonical.stall {n : Nat} (h : s.canonical) : (s.stall n).canonical :=
  .ite h.setTh.raise h.setTh.raise.count.updThr

theorem State.canonical.releaseStalled (h : s.canonical) : s.releaseStalled.canonical :=
  .hwEvent (.foldl h fun _ _ ht => .ite ht.updThr.setPend.setTh ht.updThr)

theorem State.canonical.waitDone {n kind mask : Nat} {rd : BitVec 5} (h : s.canonical) :
    (s.waitDone n kind mask rd).canonical :=
  .ite h.setTg.setFld.syncThread h.setTg

theorem State.canonical.thStart {n : Nat} (h : s.canonical) : (s.thStart n).canonical :=
  h.setReg.setThPc.setReg.setReg.setTh.syncThread

theorem State.canonical.thEnd {n : Nat} (h : s.canonical) : (s.thEnd n).canonical := .ite h h.setFld.setTh.traceThr

theorem State.canonical.thRetarget {n : Nat} (h : s.canonical) : (s.thRetarget n).canonical :=
  .ite h.setThPc.setFld.setTh h.setFld

theorem State.canonical.thSignal {n sig : Nat} (h : s.canonical) : (s.thSignal n sig).canonical :=
  .foldl h fun _ _ ht => .ite ht.setPend ht

theorem State.canonical.thCommand {n op sig : Nat} (h : s.canonical) : (s.thCommand n op sig).canonical :=
  .ite h.thStart (.ite h.thEnd (.ite h.thRetarget h.thSignal))

theorem State.canonical.engineOff {e : Nat} (h : s.canonical) : (s.engineOff e).canonical := .foldl h fun _ _ ht => ht.thEnd

theorem State.canonical.aenWrite {addr : Nat} {w : Word} (h : s.canonical) : (s.aenWrite addr w).canonical := by
  unfold State.aenWrite
  extract_lets
  exact h.writeWith fun _ ht => .ite (.ite (.engineOff (.ite ht.engineOff ht)) (.ite ht.engineOff ht)) (.ite
    (.ite ht.setReg ht) (.ite (.ite (.ite ht ht.setThPc) (.ite ht.thCommand (.ite ht.syncThread ht))) (.ite ht.setReg ht)))

theorem State.canonical.codeWrite {e off : Nat} {bytes : List Byte} (h : s.canonical) : (s.codeWrite e off bytes).1.canonical :=
  .iteFst h.setReg.raise.sendFault h.wrBytes

/-! ### The fault collector -/

theorem State.canonical.spiWrite {addr : Nat} {w : Word} (h : s.canonical) : (s.spiWrite addr w).canonical :=
  h.writeWith fun _ ht => .ite ht.setReg ht

theorem State.canonical.fltShow (h : s.canonical) : s.fltShow.canonical := h.setFld

theorem State.canonical.applySafe {level : Nat} (h : s.canonical) : (s.applySafe level).canonical := by
  unfold State.applySafe
  extract_lets t s1 s2
  have ht : t.canonical := h.outWrite
  have h1 : s1.canonical := .ite (.ite ht.pwmSafeMask ht) h
  have h2 : s2.canonical := .ite h1.outWrite.outWrite h1
  exact .ite h2.calWrite.aenWrite h2

theorem State.canonical.restartPair {t : Nat} (h : s.canonical) : (s.restartPair t).canonical :=
  .setReg (.setBit (.setBit (by simpa only [State.canonical] using h)))

theorem State.canonical.blockReset {blk unit kind : Nat} (h : s.canonical) : (s.blockReset blk unit kind).canonical := by
  unfold State.blockReset
  exact .ite h.aenWrite (.ite h.fadcWrite (.ite h.padcWrite (.ite h.cmbWrite (.ite h.chnWrite (.ite h.canWrite (.ite h.ethWrite
    (.ite h.spiWrite (.ite h.dmaStop h))))))))

theorem State.canonical.askReset {cause detail : Nat} (h : s.canonical) : (s.askReset cause detail).canonical :=
  .ofTables h rfl rfl

theorem State.canonical.applyAction {action : Nat} {m : BitVec 64} (h : s.canonical) : (s.applyAction action m).canonical :=
  .ite h.blockReset (.ite (.ite h.restartPair h) (.ite h.askReset h))

theorem State.canonical.logCopy {c : LktRec} {now : Bool} (h : s.canonical) : (s.logCopy c now).canonical :=
  .ite h.finishRec.putRing h.lktQueue

theorem State.canonical.keepLast {m : BitVec 64} (h : s.canonical) : (s.keepLast m).canonical := h.setReg.setReg

theorem State.canonical.keepFirst {m : BitVec 64} (h : s.canonical) : (s.keepFirst m).canonical := h.setReg.setReg

theorem State.canonical.classEffect {cls blk : Nat} (h : s.canonical) : (s.classEffect cls blk).canonical :=
  .ite h.setBit.count.raise (.ite h.setBit.count.raise h.count.raise)

theorem State.canonical.shadShow (h : s.canonical) : s.shadShow.canonical := h.setReg

theorem State.canonical.startShadow {blk dep n : Nat} (h : s.canonical) : (s.startShadow blk dep n).canonical :=
  .ite h (.shadShow (.ofTables h rfl rfl))

theorem State.canonical.decidePrimary {m : BitVec 64} (h : s.canonical) : (s.decidePrimary m).canonical := by
  unfold State.decidePrimary
  extract_lets _ _ _ _ _ _ s1 s2 _ s3 s4 s5
  have h1 : s1.canonical := .classEffect (.ite h.keepFirst h)
  have h2 : s2.canonical := h1.fltShow
  have h3 : s3.canonical := .ite h2.logCopy h2
  have h4 : s4.canonical := h3.applySafe.applyAction
  have h5 : s5.canonical := .ite h4.raise h4
  exact h5.startShadow.keepLast.traceFlt

theorem State.canonical.decideSecondary {m : BitVec 64} (h : s.canonical) : (s.decideSecondary m).canonical :=
  h.count.raise.logCopy.keepLast.traceFlt

theorem State.canonical.decideInjection {m : BitVec 64} (h : s.canonical) : (s.decideInjection m).canonical :=
  h.count.raise.logCopy.keepLast.traceFlt

theorem State.canonical.decideMsg {m : BitVec 64} (h : s.canonical) : (s.decideMsg m).canonical :=
  .ite h.decideSecondary (.ite h.decideInjection h.decidePrimary)

theorem execFaultDecision_canonical {src : Island} (h : s.canonical) : AnswersCanonical (execFaultDecision src s) := by
  unfold execFaultDecision
  split
  · exact .next h.ackItem.decideMsg
  · exact .next h

theorem State.canonical.shadowPulse (h : s.canonical) : s.shadowPulse.canonical := .ofTables h rfl rfl

theorem State.canonical.injArm (h : s.canonical) : s.injArm.canonical :=
  .ite (.setFld (.ofTables h rfl rfl)) (.setFld (.ofTables h rfl rfl))

theorem State.canonical.fltWrite {addr : Nat} {w : Word} (h : s.canonical) : (s.fltWrite addr w).canonical := by
  unfold State.fltWrite
  extract_lets
  exact h.writeWith fun _ ht => .ite ht.fltShow (.ite (.ite ht.setReg.setFld.setFld ht) (.ite ht.injArm ht))

theorem execInjto_canonical (h : s.canonical) : AnswersCanonical (execInjto s) := by
  unfold execInjto
  split
  · exact .next h
  · exact .next (.ite h.endInjection.raise h)

/-! ### Supplies, resets, clocks and sleep -/

theorem State.canonical.updSys {f : Sys → Sys} (h : s.canonical) : (s.updSys f).canonical := .ofTables h rfl rfl

theorem State.canonical.keepParts (h : s.canonical) : s.keepParts.canonical := h.setFld.setFld.setFld.setFld.setFld

theorem State.canonical.powerOn {cause detail : Nat} (h : s.canonical) : (s.powerOn cause detail).canonical :=
  .setReg (.keepParts ⟨tabWf_filter _ h.regs, tabWf_filter _ h.mem⟩)

theorem State.canonical.resetLogic (h : s.canonical) : s.resetLogic.canonical := ⟨tabWf_filter _ h.regs, tabWf_filter _ h.mem⟩

theorem State.canonical.debugEntry {en : Bool} {cause t : Nat} (h : s.canonical) : (s.debugEntry en cause t).canonical :=
  h.lktSend

theorem State.canonical.resetEntry (h : s.canonical) : s.resetEntry.canonical := h.setFld.debugEntry.newChallenge

theorem State.canonical.systemReset {cause detail : Nat} (h : s.canonical) : (s.systemReset cause detail).canonical :=
  .ite h (.ite h.count h.count.setFld.setFld.resetLogic.keepParts.resetEntry)

theorem State.canonical.endReset (h : s.canonical) : s.endReset.canonical := h.updSys.useFree

theorem State.canonical.rtcTick (h : s.canonical) : s.rtcTick.canonical := .ite h.updSys h.updSys.calRtc

theorem State.canonical.runRtc (h : s.canonical) : s.runRtc.canonical := .ite h.updSys.rtcTick h.updSys

theorem State.canonical.rtclRead (h : s.canonical) : (s.rtclRead).1.canonical := h.setFld

theorem State.canonical.goSleep {active : Word} (h : s.canonical) : (s.goSleep active).canonical :=
  .ite h (.ite h.raise h.updSys)

theorem State.canonical.abortEntry (h : s.canonical) : s.abortEntry.canonical := h.updSys.raise

theorem State.canonical.wakeTim {n : Nat} (h : s.canonical) : (s.wakeTim n).canonical :=
  .ite (.ite h.waitDone.traceThr.setTh h.waitDone.traceThr.stall) h

theorem State.canonical.restart (h : s.canonical) : s.restart.canonical := by
  unfold State.restart
  extract_lets s1 s2 s3
  have h1 : s1.canonical := .ofTables h rfl rfl
  have h2 : s2.canonical := h1.updSys.setBit.setBit.setReg
  have h3 : s3.canonical := h2.updPort.updPort.chnShow
  exact .foldl h3 fun _ _ ht => ht.wakeTim

theorem State.canonical.showWarn {rail : Nat} (h : s.canonical) : (s.showWarn rail).canonical := h.setBit

theorem State.canonical.warnMessage {rail : Nat} (h : s.canonical) : (s.warnMessage rail).canonical := h.decideMsg

theorem State.canonical.warnSafe (h : s.canonical) : s.warnSafe.canonical := .ite h.applySafe.setFld.setFld h.applySafe

theorem State.canonical.warnSequence {rail : Nat} (h : s.canonical) : (s.warnSequence rail).canonical :=
  h.warnMessage.lktCommit.warnSafe.systemReset.updSys

theorem State.canonical.clockFailed {code : Nat} (h : s.canonical) : (s.clockFailed code).canonical :=
  .ite h.setReg.setFld h.setBit

theorem State.canonical.clockSequence {code : Nat} (h : s.canonical) : (s.clockSequence code).canonical :=
  h.decideMsg.applySafe.lktCommit.systemReset.clockFailed.updSys

theorem State.canonical.sysWrite {active : Word} {addr : Nat} {w : Word} (h : s.canonical) :
    (s.sysWrite active addr w).canonical := by
  unfold State.sysWrite
  extract_lets
  exact h.writeWith fun _ ht => .ite (.ite ht.systemReset ht) (.ite (.ite ht.goSleep ht) (.ite ht.setFld ht))

theorem execSupplyWarning_canonical {rail : Fin 5} (h : s.canonical) : AnswersCanonical (execSupplyWarning rail s) := by
  unfold execSupplyWarning
  extract_lets s1 s2
  have h1 : s1.canonical := h.showWarn
  have h2 : s2.canonical := by
    unfold s2
    split
    · exact h1
    · exact h1.abortEntry
    · exact h1.restart
  exact .ite (.next h1) (.next h2.warnSequence)

theorem execSystemReset_canonical (h : s.canonical) : AnswersCanonical (execSystemReset s) := by
  unfold execSystemReset
  split
  · exact .next h.updSys.systemReset
  · exact .next h

theorem execSleepEnter_canonical (h : s.canonical) : AnswersCanonical (execSleepEnter s) := by
  unfold execSleepEnter
  extract_lets x s1
  have hx : x.canonical := h.setBit.setBit
  have h1 : s1.canonical := .ofTables hx rfl rfl
  exact .ite (.next h1.updSys) (.next h)

theorem execWakeUp_canonical {src : Word} (h : s.canonical) : AnswersCanonical (execWakeUp src s) := by
  unfold execWakeUp
  extract_lets
  refine .ite (.next h) (.next ?_)
  split
  · exact h
  · exact h.abortEntry
  · exact h.restart.setReg.raise

theorem execLinkloss_canonical (h : s.canonical) : AnswersCanonical (execLinkloss s) := by
  unfold execLinkloss
  extract_lets x s1
  have hx : x.canonical := h.injLinkLoss
  have h1 : s1.canonical := .ofTables hx rfl rfl
  exact .ite (.next h1.sendFault) (.next h)

theorem execLinkRetrain_canonical (h : s.canonical) : AnswersCanonical (execLinkRetrain s) := by
  unfold execLinkRetrain
  extract_lets _ s1 s2 s3 s4
  have h1 : s1.canonical := .ofTables h rfl rfl
  have h2 : s2.canonical := h1.setFld.setFld.setFld
  have h3 : s3.canonical := .foldl h2 fun _ _ ht => .ite ht.injDisable ht
  have h4 : s4.canonical := .foldl h3 fun _ _ ht => .ite ht.pwmDisable ht
  exact .ite (.next h) (.next h4.setFld.goodFrame.goodFrame)

/-! ### Core pairs -/

theorem State.canonical.updPair {t : Nat} {f : Pair → Pair} (h : s.canonical) : (s.updPair t f).canonical := by
  simpa only [State.canonical, State.updPair] using h

theorem State.canonical.setPg {t r : Nat} {v : Word} (h : s.canonical) : (s.setPg t r v).canonical := .ite h h.setReg

theorem State.canonical.setPpc {t : Nat} {v : Word} (h : s.canonical) : (s.setPpc t v).canonical := h.setReg

theorem State.canonical.setCsr {t c : Nat} {v : Word} (h : s.canonical) : (s.setCsr t c v).canonical := h.setReg

theorem State.canonical.putLoad {t : Nat} {d : Nat × Word} (h : s.canonical) : (s.putLoad t d).canonical :=
  .ite h.setPg h.setReg

theorem State.canonical.settleWhere {t : Nat} {p : Nat → Bool} (h : s.canonical) : (s.settleWhere t p).canonical :=
  .updPair (.foldl h fun _ _ hu => hu.putLoad)

theorem State.canonical.settleAll {t : Nat} (h : s.canonical) : (s.settleAll t).canonical := h.settleWhere

theorem State.canonical.settle {t : Nat} {rs : List Nat} (h : s.canonical) : (s.settle t rs).canonical := h.settleWhere

theorem State.canonical.finishLoad {t : Nat} (h : s.canonical) : (s.finishLoad t).canonical := by
  unfold State.finishLoad
  split
  · exact h
  · exact h.putLoad.updPair

theorem State.canonical.addLoad {t d : Nat} {v : Word} (h : s.canonical) : (s.addLoad t d v).canonical :=
  .updPair (.ite h.finishLoad h)

theorem State.canonical.frameHalt {t : Nat} (h : s.canonical) : (s.frameHalt t).canonical := h.updPair.sendFault

theorem State.canonical.toHandler {t cause : Nat} {eval off : Word} (h : s.canonical) :
    (s.toHandler t cause eval off).canonical :=
  h.setCsr.setCsr.setCsr.setPpc.tracePc

theorem State.canonical.pairEnter {t : Nat} {epc : Word} {cause : Nat} {eval : Word} {irq : Bool} (h : s.canonical) :
    (s.pairEnter t epc cause eval irq).canonical := by
  unfold State.pairEnter
  extract_lets s1 s2 s3 s4
  have h1 : s1.canonical := h.settle
  have h2 : s2.canonical := h1.wrBytes
  have h3 : s3.canonical := h2.setFld.setCsr
  have h4 : s4.canonical := .ite h3.setFld h3
  exact .ite h.frameHalt h4.toHandler

theorem State.canonical.pairTrap {t cause : Nat} {eval : Word} (h : s.canonical) : (s.pairTrap t cause eval).canonical :=
  h.pairEnter

theorem State.canonical.pairExit {t : Nat} (h : s.canonical) : (s.pairExit t).canonical := by
  unfold State.pairExit
  extract_lets s0 _ _ s1 s2 s3
  have h0 : s0.canonical := h.settle
  have h1 : s1.canonical := h0.setCsr.setCsr.setCsr.setCsr
  have h2 : s2.canonical := h1.setPg.setPg.setPg
  have h3 : s3.canonical := h2.setFld.setFld
  exact .ite h.frameHalt (.ite h.setFld.toHandler h3.setPpc.tracePc)

/-! ### The debug block -/

theorem State.canonical.haltPair {t : Nat} {byBrk : Bool} (h : s.canonical) : (s.haltPair t byBrk).canonical :=
  h.setBit.setBit.raise

theorem State.canonical.resumePair {t : Nat} (h : s.canonical) : (s.resumePair t).canonical := .ite h.setBit.setBit.updPair h

theorem State.canonical.stepPair {t : Nat} (h : s.canonical) : (s.stepPair t).canonical := .ite h.updPair h

theorem State.canonical.eachPair {w : Word} {f : State → Nat → State} (h : s.canonical) (hf : ∀ t x0, t.canonical →
    (f t x0).canonical) :
    (s.eachPair w f).canonical :=
  .foldl h fun _ _ hu => .ite (hf _ _ hu) hu

theorem State.canonical.resumeThread {n : Nat} (h : s.canonical) : (s.resumeThread n).canonical := .ite h.setThPc.setTh h

theorem State.canonical.releaseHalts (h : s.canonical) : s.releaseHalts.canonical :=
  .foldl (h.eachPair fun _ _ ht => ht.resumePair) fun _ _ ht => ht.resumeThread

theorem State.canonical.enableChanged {old t : Nat} (h : s.canonical) : (s.enableChanged old t).canonical :=
  .ite h (.ite h.debugEntry.releaseHalts h.debugEntry)

theorem State.canonical.dbgWrite {by_ : Option Nat} {addr : Nat} {w : Word} (h : s.canonical) :
    (s.dbgWrite by_ addr w).canonical := by
  unfold State.dbgWrite
  extract_lets
  exact h.writeWith fun _ ht => .ite ht.enableChanged (.ite (.ite (ht.eachPair fun _ _ hu => hu.settleAll.haltPair) ht) (.ite
    (ht.eachPair fun _ _ ht => ht.resumePair) (.ite (ht.eachPair fun _ _ ht => ht.stepPair) (.ite ht.resumeThread
    (.ite ht.traceUser ht)))))

/-! ### Wheels -/

theorem State.canonical.setWhlState {n : Nat} {f : Whl → Whl} (h : s.canonical) : (s.setWhlState n f).canonical :=
  h.updWhl.setBit

theorem State.canonical.logTooth {n kind t : Nat} {rev : Bool} {ref pred : Option Nat} {slotIx : Nat} (h : s.canonical) :
    (s.logTooth n kind t rev ref pred slotIx).canonical :=
  .ite (.ite (.qputFor (.ite h.useFree h)) (.count (.qputFor (.ite h.useFree h)))) h

theorem State.canonical.earlyEdge {n : Nat} {e : Edge} (h : s.canonical) : (s.earlyEdge n e).canonical :=
  .ite h.count.raise.logTooth.spoilPass.sourceEarly h.count.raise.logTooth.spoilPass

theorem State.canonical.classEdge {n : Nat} {e : Edge} (h : s.canonical) : (s.classEdge n e).canonical := by
  unfold State.classEdge
  extract_lets _ keep
  have hkeep : keep.canonical := .ite h.updWhl h.updWhl
  refine .ite ?_ hkeep
  split
  · exact .ite h.earlyEdge (.ite h hkeep)
  · exact hkeep

theorem State.canonical.selectedEdge {n : Nat} {e : Edge} (h : s.canonical) : (s.selectedEdge n e).canonical :=
  .ite h (.ite h.count.raise.spoilPass h.updWhl.echoRaw.classEdge)

theorem State.canonical.wheelTakes {n : Nat} {e : Edge} (h : s.canonical) : (s.wheelTakes n e).canonical := by
  unfold State.wheelTakes
  extract_lets _ _ _ s1 s2 s3
  have h1 : s1.canonical := h.setWhlState
  have h2 : s2.canonical := .ite h1.setReg h1
  have h3 : s3.canonical := .ite h2.setReg h2
  exact h3.setReg.setBit

theorem State.canonical.deliver {n : Nat} {e : Edge} (h : s.canonical) : (s.deliver n e).canonical := by
  unfold State.deliver
  extract_lets _ s1 s2
  have h1 : s1.canonical := h.wheelTakes.hwEvent
  have h2 : s2.canonical := .ite h1.setPendAll.sourceTooth (.ite h1.secDeliver (.ite h1.updSync h1))
  exact h2.logTooth

theorem State.canonical.enableWheel {n : Nat} (h : s.canonical) : (s.enableWheel n).canonical := h.setWhlState.setReg.setReg

theorem State.canonical.disableWheel {n : Nat} (h : s.canonical) : (s.disableWheel n).canonical := by
  unfold State.disableWheel
  extract_lets _ s0 s1
  have h0 : s0.canonical := h.dropPass
  have h1 : s1.canonical := .ite h0.goSync.withdraw (.ite h0.secReset h0)
  exact h1.setWhlState.setReg

theorem State.canonical.whlWrite {addr : Nat} {w : Word} (h : s.canonical) : (s.whlWrite addr w).canonical := by
  unfold State.whlWrite
  extract_lets
  exact h.writeWith fun _ ht => .ite (.foldl ht fun _ _ hu => .ite hu.enableWheel (.ite hu.disableWheel hu)) (.ite
    (.foldl ht fun _ _ hu => .ite hu.setReg hu) (.ite (.ite ht.echoEnable (.ite ht.echoDisable (.ite ht.echoLevel ht))) ht))

theorem execVrHalfWave_canonical {n : Fin 6} {positive : Bool} {peak : Nat} (h : s.canonical) :
    AnswersCanonical (execVrHalfWave n positive peak s) := by
  unfold execVrHalfWave
  extract_lets _ _ _ _ _ s1 s2
  have h1 : s1.canonical := h.updWhl.setFld
  have h2 : s2.canonical := .ite h1.raise h1
  exact .ite (.next h) (.ite (.next h1) (.ite (.next h2.detect) (.next h2.updWhl)))

theorem execDirectionPulseEnd_canonical {n : Fin 6} (h : s.canonical) : AnswersCanonical (execDirectionPulseEnd n s) := by
  unfold execDirectionPulseEnd
  extract_lets
  split
  · exact .next h
  · exact .ite (.next h) (.next h.setBit.updWhl.deliver)

theorem execToothDelivery_canonical {n : Fin 6} (h : s.canonical) : AnswersCanonical (execToothDelivery n s) := by
  unfold execToothDelivery
  split
  · exact .next h.deliver
  · exact .next h

theorem execWindowClose_canonical {n : Fin 6} (h : s.canonical) : AnswersCanonical (execWindowClose n s) := by
  unfold execWindowClose
  extract_lets _ s1
  have h1 : s1.canonical := h.count.raise.logTooth
  split
  · exact .ite (.next (.ite h1.updWhl (.ite h1.sourceMissing h1))) (.next h)
  · exact .next h

theorem execWheelTimeout_canonical {n : Fin 6} (h : s.canonical) : AnswersCanonical (execWheelTimeout n s) := by
  unfold execWheelTimeout
  extract_lets _ _ s1 s2
  have h1 : s1.canonical := h.raise.logTooth
  have h2 : s2.canonical := h1.setWhlState.setReg
  exact .ite (.next (.ite h2.sourceStall (.ite h2.secLose.secReset h2))) (.next h)

theorem State.canonical.slotlRead (h : s.canonical) : (s.slotlRead).1.canonical := h.setReg

/-! ### The bus -/

theorem State.canonical.busError {a : Nat} (h : s.canonical) : (s.busError a).canonical := h.sendFault

theorem State.canonical.readObs {a : Nat} (h : s.canonical) : (s.readObs a).1.canonical :=
  .iteFst h.obsAngRead (.iteFst h (.iteFst h h))

theorem State.canonical.readWhl {a : Nat} (h : s.canonical) : (s.readWhl a).1.canonical :=
  .iteFst h.slotlRead (.iteFst h (.iteFst h h))

theorem State.canonical.readRegister {m : Master} {a : Nat} (h : s.canonical) : (s.readRegister m a).1.canonical := by
  have unfolded : ∀ f, f = @State.readRegister → (f s m a).1.canonical := by
    intro f hf
    delta State.readRegister at hf
    subst hf
    beta_reduce
    split
    · exact .iteFst (.mapFst h.rtclRead) (.pair h)
    · exact .iteFst h.claimRead (.pair h)
    · exact .mapFst h.readWhl
    · exact .mapFst h.readObs
    · exact .pair h
    · exact .pair h
    · exact .pair h
    · exact .pair h
    · exact .pair h
    · exact .iteFst (.mapFst h.tseclRead) (.pair h)
    · exact .pair h
    · exact .pair h
  exact unfolded _ rfl

theorem State.canonical.writeAen {m : Master} {a : Nat} {w : Word} (h : s.canonical) : (s.writeAen m a w).1.canonical := by
  unfold State.writeAen
  extract_lets
  exact .iteFst h.elockWrite (.iteFst (.iteFst h.trimWritePolicy h) (.iteFst (.iteFst h.envelopeWrite h) h.aenWrite))

theorem State.canonical.writeRegion {m : Master} {a : Nat} {w : Word} (h : s.canonical) : (s.writeRegion m a w).1.canonical :=
  .iteFst (h.writeWith fun _ ht => ht) h.sendFault

theorem State.canonical.writeQue {m : Master} {a : Nat} {w : Word} {ecc : Ecc} (h : s.canonical) :
    (s.writeQue m a w ecc).1.canonical :=
  .iteFst h.writeRegion (.iteFst h.queueWrite (.iteFst h.portWrite h.queWrite))

theorem State.canonical.writeRegister {m : Master} {a : Nat} {w : Word} {ecc : Ecc} (h : s.canonical) :
    (s.writeRegister m a w ecc).1.canonical := by
  unfold State.writeRegister
  split
  · exact h.sysWrite
  · exact h.fltWrite
  · exact h.budWrite
  · exact h.irqWrite
  · exact h.tmrWrite
  · exact h.whlWrite
  · exact h.obsWrite
  · exact h.calWrite
  · exact h.writeAen
  · exact h.outWrite
  · exact h.injWrite
  · exact h.pwmWrite
  · exact h.cmpWrite
  · exact h.fadcWrite
  · exact h.padcWrite
  · exact h.cmbWrite
  · exact h.chnWrite
  · exact h.ethWrite
  · exact h.canWrite
  · exact h.spiWrite
  · exact h.lktWrite
  · exact h.hmkWrite
  · exact h.writeQue
  · exact h.dbgWrite

theorem State.canonical.busRead {m : Master} {a n : Nat} {ecc : Ecc} (h : s.canonical) : (s.busRead m a n ecc).1.canonical := by
  have unfolded : ∀ f, f = @State.busRead → (f s m a n ecc).1.canonical := by
    intro f hf
    delta State.busRead at hf
    subst hf
    beta_reduce
    split
    · exact .pair h
    · next x _ =>
      have hr : (s.eccRead x a n ecc).1.canonical := h.eccRead
      generalize s.eccRead x a n ecc = r at hr ⊢
      exact .iteFst (.pair hr) (.pair hr)
    · have hr : (s.readRegister m a).1.canonical := h.readRegister
      generalize s.readRegister m a = r at hr ⊢
      exact .iteFst (.pair hr) (.pair h.busError)
    · exact .pair h.busError
  exact unfolded _ rfl

theorem State.canonical.busWrite {m : Master} {a : Nat} {bytes : List Byte} {ecc : Ecc} (h : s.canonical) :
    (s.busWrite m a bytes ecc).1.canonical := by
  have hr : (s.writeRegister m a (BitVec.ofNat 32 (ofBytes bytes)) ecc).1.canonical := h.writeRegister
  have unfolded : ∀ f, f = @State.busWrite → (f s m a bytes ecc).1.canonical := by
    intro f hf
    delta State.busWrite at hf
    subst hf
    beta_reduce
    generalize s.writeRegister m a (BitVec.ofNat 32 (ofBytes bytes)) ecc = r at hr ⊢
    split
    · exact .iteFst (.pair h.busError) (.pair h.eccStore.wrBytes)
    · exact .pair h.eccStore.wrBytes
    · exact .iteFst (.pair h.codeWrite) (.pair h.eccStore.codeWrite)
    · exact .iteFst (.mapFst hr) (.pair h.busError)
    all_goals exact .pair h.busError
  exact unfolded _ rfl

theorem State.canonical.dmaMoved {c : Nat} (h : s.canonical) : (s.dmaMoved c).canonical :=
  .ite h.updDma.setReg.dmaComplete h.updDma.setReg

theorem execDmaElementDone_canonical {c : Fin 16} {src dst : Ecc} (h : s.canonical) :
    AnswersCanonical (execDmaElementDone c src dst s) := by
  unfold execDmaElementDone
  extract_lets _ _ _ s1 r q
  have h1 : s1.canonical := h.budDraw
  have hr : r.1.canonical := h1.busRead
  have hq : q.1.canonical := hr.busWrite
  refine .ite (.next h) (.ite (.next h.budStarve) ?_)
  split
  · exact .next hr.dmaError
  · exact .next hr.dmaError
  · split
    · exact .next hq.dmaMoved
    · exact .next hq.dmaError
    · exact .next hq.dmaError

/-! ### Crossings and reports -/

theorem State.canonical.noteApply {k : Nat} {v : Option (Word × Bool)} (h : s.canonical) : (s.noteApply k v).canonical :=
  .ofTables h rfl rfl

theorem State.canonical.applyMessage {r : ApplyReg} (h : s.canonical) : (s.applyMessage r).canonical := by
  unfold State.applyMessage
  extract_lets s1 s2
  have h1 : s1.canonical := .foldl h fun _ _ ht => ht.raise
  have h2 : s2.canonical := h1.sendFault
  exact .ite h2.alrt (.ite h2.alrt h2)

theorem State.canonical.applyCheck {r : ApplyReg} (h : s.canonical) : (s.applyCheck r).canonical := by
  unfold State.applyCheck
  extract_lets
  refine .ite h.noteApply ?_
  split
  · exact .ite h.noteApply (.ite h h.noteApply.applyMessage)
  · exact h.noteApply

theorem State.canonical.pulseAt {i : Island} (h : s.canonical) : (s.pulseAt i).canonical := by
  unfold State.pulseAt
  extract_lets t
  have ht : t.canonical := h.shadowPulse
  split
  · exact h.closeFrame
  · exact h.closeFrame.releaseStalled
  · exact h.closeFrame
  · exact .foldl h.closeFrame fun _ _ ht => ht.applyCheck
  · simpa only [State.canonical] using ht
  · exact .foldl h fun _ _ ht => ht.applyCheck
  · exact .foldl h fun _ _ ht => ht.applyCheck
  · exact h
  · exact h

theorem execFramePulseAtMeter_canonical {i : Island} (h : s.canonical) : AnswersCanonical (execFramePulseAtMeter i s) := by
  unfold execFramePulseAtMeter
  split
  · exact .next h.ackItem.pulseAt
  · exact .next h

theorem State.canonical.lineAt {i : Island} {k : Nat} (h : s.canonical) : (s.lineAt i k).canonical := by
  unfold State.lineAt
  split
  · exact h.hwEvent
  · exact h.dmaLine
  · exact h.fadcLine
  · exact .foldl h fun _ _ ht => .ite (.tmrCapture (.ite ht.tmrStart ht)) (.ite ht.tmrStart ht)
  · exact h.commutateLine
  · exact h.ethTrigger
  · exact h
  · exact h
  · exact h

theorem State.canonical.arrive {i : Island} {b : Body} (h : s.canonical) : (s.arrive i b).canonical := by
  unfold State.arrive
  split
  · exact h.decideMsg
  · exact h.takeIrq
  · exact h.extDone
  · exact h.lineAt
  · exact h.hwEvent
  · exact h.takeStart
  · exact h.takeEnd
  · exact h.takeReportOf
  · exact h.takeSample
  · exact h.takeMissing
  · exact h.cmbTake
  · exact h.pwmSafeMask
  · exact h.takeRamp
  · exact h.pulseAt
  · exact h.takeReport

theorem execCrossingDelivery_canonical {src dst : Island} {good : Bool} (h : s.canonical) :
    AnswersCanonical (execCrossingDelivery src dst good s) := by
  unfold execCrossingDelivery
  split
  · exact .next h
  · exact .next (.ite h.ackItem.arrive h.sendFaultFrom)

/-! ### Boot -/

theorem State.canonical.ctlWrite {c : CtlRec} (h : s.canonical) : (s.ctlWrite c).canonical := h.wrBytes

theorem State.canonical.chooseSlot {cal : Bool} (h : s.canonical) : (s.chooseSlot cal).1.canonical :=
  .iteFst (.iteFst h.ctlWrite h.ctlWrite) h

theorem State.canonical.loadEntry {kind : Nat} {l : List Word} (h : s.canonical) : (s.loadEntry kind l).canonical :=
  .ite h.envelopeWrite.envelopeWrite.envelopeWrite h.fltWrite.fltWrite.fltWrite

theorem State.canonical.loadSect {b : Nat} {x : Sect} (h : s.canonical) : (s.loadSect b x).canonical :=
  .ite h.wrBytes (.ite h.setPpc (.foldl h fun _ _ ht => ht.loadEntry))

theorem State.canonical.loadImage {b : Nat} {p : Sect → Bool} (h : s.canonical) : (s.loadImage b p).canonical :=
  .foldl h fun _ _ ht => ht.loadSect

theorem State.canonical.releasePair {t : Nat} (h : s.canonical) : (s.releasePair t).canonical := h.setCsr.updPair

theorem State.canonical.noteBoot {i c : Nat} (h : s.canonical) : (s.noteBoot i c).canonical := .ofTables h rfl rfl

theorem State.canonical.enterRecovery {detail : Nat} (h : s.canonical) : (s.enterRecovery detail).canonical :=
  .sendFault (.setBit (.ofTables h rfl rfl))

theorem State.canonical.bootSlots {i c reverts : Nat} (h : s.canonical) : (s.bootSlots i c reverts).canonical := by
  unfold State.bootSlots
  extract_lets s1 s2 s3 s4 s5
  have h1 : s1.canonical := h.noteBoot.loadImage.loadImage
  have h2 : s2.canonical := h1.setFld.setFld
  have h3 : s3.canonical := h2.setBit.setBit
  have h4 : s4.canonical := .foldl h3 fun _ _ ht => ht.lktSend
  have h5 : s5.canonical := h4.lktSend
  exact .foldl h5 fun _ _ ht => ht.releasePair

theorem State.canonical.runBoot (h : s.canonical) : s.runBoot.canonical := by
  unfold State.runBoot
  extract_lets _ s0 r q
  have h0 : s0.canonical := ⟨h.regs, tabWf_filter _ h.mem⟩
  have hr : r.1.canonical := h0.chooseSlot
  have hq : q.1.canonical := hr.chooseSlot
  split
  · exact hr.enterRecovery
  · split
    · exact hq.enterRecovery
    · exact hq.bootSlots

/-! ### Instructions of a core pair -/

theorem State.canonical.setGr {a : Agent} {r : BitVec 5} {v : Word} (h : s.canonical) : (s.setGr a r v).canonical := by
  unfold State.setGr
  split
  · exact h.setPg
  · exact h.setTg

theorem State.canonical.setFr {a : Agent} {r : BitVec 5} {v : Word} (h : s.canonical) : (s.setFr a r v).canonical := by
  unfold State.setFr
  split
  · exact h.setReg
  · exact h

theorem State.canonical.retirePair {t : Nat} (h : s.canonical) : (s.retirePair t).canonical := h.updPair

theorem State.canonical.retireIns {a : Agent} (h : s.canonical) : (s.retireIns a).canonical := by
  unfold State.retireIns
  split
  · exact h.setPpc.retirePair
  · exact h.setThPc

theorem State.canonical.branchTo {a : Agent} {target : Word} (h : s.canonical) : (s.branchTo a target).canonical := by
  unfold State.branchTo
  split
  · exact h.setPpc.retirePair.tracePc
  · exact h.setThPc

theorem State.canonical.threadTrap {n code : Nat} {eval : Word} (h : s.canonical) : (s.threadTrap n code eval).canonical :=
  h.setReg.setReg.setReg.setTh.raise.traceThr.sendFault

theorem State.canonical.takeExc {a : Agent} {code : Nat} {eval : Word} (h : s.canonical) :
    (s.takeExc a code eval).canonical := by
  unfold State.takeExc
  split
  · exact h.pairTrap
  · exact h.threadTrap

theorem State.canonical.useStep {t : Nat} (h : s.canonical) : (s.useStep t).canonical := h.updPair

theorem State.canonical.fetchPair {t pc : Nat} {e : Ecc} (h : s.canonical) : (s.fetchPair t pc e).1.canonical := by
  unfold State.fetchPair
  refine .iteFst h.eccRead ?_
  split
  · exact h.eccRead
  · exact h
  · exact h
  · exact h

theorem State.canonical.badFetch {t pc : Nat} (h : s.canonical) : (s.badFetch t pc).canonical :=
  .ite h.updPair.sendFault h.pairTrap

theorem State.canonical.issuePair {t : Fin 4} {e : Ecc} {x : Form} {f : Effect} (h : s.canonical) (hf : ∀ t, t.canonical →
    (f.run t).canonical) :
    (s.issuePair t e x f).canonical := by
  unfold State.issuePair
  extract_lets s0 _ _ r
  have h0 : s0.canonical := h.settle
  have hr : r.1.canonical := h0.budDraw.useStep.fetchPair
  exact .ite h (.ite h0.useStep.pairTrap (.ite h0.budStarve (.ite hr.badFetch (.ite hr.pairTrap (hf _ hr)))))

theorem State.canonical.thStarve {n slots beats : Nat} (h : s.canonical) : (s.thStarve n slots beats).canonical :=
  .stall (.ite (.ite h h.budStarve) (.budStarve (.ite h h.budStarve)))

theorem State.canonical.issueThread {n : Fin 64} {e : Ecc} {x : Form} {f : Effect} (h : s.canonical) (hf : ∀ t, t.canonical →
    (f.run t).canonical) :
    (s.issueThread n e x f).canonical := by
  unfold State.issueThread
  extract_lets _ _ s1 _ r
  have h1 : s1.canonical := h.budDraw.budDraw.count
  have hr : r.1.canonical := h1.eccRead
  exact .ite h (.ite h.thStarve (.ite h1.threadTrap (.ite hr.threadTrap (.ite hr.threadTrap (hf _ hr)))))

theorem State.canonical.issueIns {a : Agent} {x : Form} {f : Effect} (h : s.canonical) (hf : ∀ t, t.canonical →
    (f.run t).canonical) :
    (s.issueIns a x f).canonical := by
  unfold State.issueIns
  split
  · exact h.issuePair hf
  · exact h.issueThread hf

theorem State.canonical.toReg {a : Agent} {x : Form} {rd : BitVec 5} {v : State → Word} (h : s.canonical) :
    (s.toReg a x rd v).canonical :=
  h.issueIns fun _ hu => hu.setGr.retireIns

theorem State.canonical.regReg {a : Agent} {op fn : Nat} {p : Profile} {rd rs1 rs2 : BitVec 5} {f : Word → Word → Word}
    (h : s.canonical) :
    (s.regReg a op fn p rd rs1 rs2 f).canonical :=
  h.toReg

theorem State.canonical.regImm {a : Agent} {op : Nat} {rd rs1 : BitVec 5} {imm : BitVec 16} {f : Word → Word}
    (h : s.canonical) :
    (s.regImm a op rd rs1 imm f).canonical :=
  h.toReg

theorem State.canonical.shiftImm {a : Agent} {fn : Nat} {rd rs1 amount : BitVec 5} {f : Word → Nat → Word} (h : s.canonical) :
    (s.shiftImm a fn rd rs1 amount f).canonical :=
  h.toReg

theorem State.canonical.loadPair {t : Fin 4} {x n : Nat} {ecc : Ecc} (h : s.canonical) : (s.loadPair t x n ecc).1.canonical :=
  .iteFst h (.iteFst h (.iteFst h.eccRead h.busRead))

theorem State.canonical.loadThread {k : Fin 64} {x n : Nat} {ecc : Ecc} (h : s.canonical) :
    (s.loadThread k x n ecc).1.canonical :=
  .iteFst h (.iteFst h h.eccRead)

theorem State.canonical.loadAt {a : Agent} {x n : Nat} {ecc : Ecc} (h : s.canonical) : (s.loadAt a x n ecc).1.canonical := by
  unfold State.loadAt
  split
  · exact h.loadPair
  · exact h.loadThread

theorem State.canonical.loaded {a : Agent} {d : Nat} {v : Word} (h : s.canonical) : (s.loaded a d v).canonical := by
  unfold State.loaded
  split
  · exact h.addLoad
  · exact h.setTg

theorem State.canonical.loadIns {a : Agent} {x : Form} {d : Nat} {rs1 : BitVec 5} {imm : BitVec 16} {n : Nat} {ecc : Ecc}
    {ext : Nat → Word} (h : s.canonical) :
    (s.loadIns a x d rs1 imm n ecc ext).canonical := by
  unfold State.loadIns
  refine h.issueIns fun _ hu => ?_
  dsimp only
  split
  · exact hu.loadAt.loaded.retireIns
  · exact hu.loadAt.takeExc

theorem State.canonical.storePair {t : Fin 4} {x : Nat} {bytes : List Byte} {ecc : Ecc} (h : s.canonical) :
    (s.storePair t x bytes ecc).1.canonical :=
  .iteFst h (.iteFst h (.iteFst h.eccStore.wrBytes h.busWrite))

theorem State.canonical.storeThread {k : Fin 64} {x : Nat} {bytes : List Byte} {ecc : Ecc} (h : s.canonical) :
    (s.storeThread k x bytes ecc).1.canonical :=
  .iteFst h (.iteFst h h.eccStore.wrBytes)

theorem State.canonical.storeAt {a : Agent} {x n : Nat} {v : Word} {ecc : Ecc} (h : s.canonical) :
    (s.storeAt a x n v ecc).1.canonical := by
  unfold State.storeAt
  split
  · exact h.storePair
  · exact h.storeThread

theorem State.canonical.storeIns {a : Agent} {x : Form} {rs1 : BitVec 5} {imm : BitVec 16} {n : Nat} {ecc : Ecc}
    {v : State → Word} (h : s.canonical) :
    (s.storeIns a x rs1 imm n ecc v).canonical := by
  unfold State.storeIns
  refine h.issueIns fun _ hu => ?_
  dsimp only
  split
  · exact hu.storeAt.retireIns
  · exact hu.storeAt.takeExc

theorem State.canonical.loadG {a : Agent} {op : Nat} {rd rs1 : BitVec 5} {imm : BitVec 16} {n : Nat} {ecc : Ecc}
    {ext : Nat → Word} (h : s.canonical) :
    (s.loadG a op rd rs1 imm n ecc ext).canonical :=
  h.loadIns

theorem State.canonical.storeG {a : Agent} {op : Nat} {rt rs1 : BitVec 5} {imm : BitVec 16} {n : Nat} {ecc : Ecc}
    (h : s.canonical) :
    (s.storeG a op rt rs1 imm n ecc).canonical :=
  h.storeIns

theorem State.canonical.atomicAt {t : Fin 4} {x : Nat} {ecc : Ecc} {upd : Word → Option Word} (h : s.canonical) :
    (s.atomicAt t x ecc upd).1.canonical := by
  unfold State.atomicAt
  extract_lets r
  have hr : r.1.canonical := h.eccRead
  refine .iteFst h (.iteFst h (.iteFst h (.iteFst h.busError (.iteFst hr ?_))))
  split
  · exact hr.wrBytes
  · exact hr

theorem State.canonical.atomicIns {a : Agent} {fn : Nat} {rd rs1 rs2 : BitVec 5} {ecc : Ecc}
    {f : Word → Word → Word → Option Word} (h : s.canonical) :
    (s.atomicIns a fn rd rs1 rs2 ecc f).canonical := by
  unfold State.atomicIns
  refine h.issueIns fun _ hu => ?_
  dsimp only
  split
  · split
    · exact hu.atomicAt.loaded.retireIns
    · exact hu.atomicAt.takeExc
  · exact hu

theorem State.canonical.angIns {a : Agent} {x : Form} {f : State → Nat → State} {beats : Nat} (h : s.canonical)
    (hf : ∀ t x0, t.canonical → (f t x0).canonical) :
    (s.angIns a x f beats).canonical := by
  unfold State.angIns
  refine h.issueIns fun _ hu => ?_
  split
  · exact hu
  · exact hf _ _ hu

theorem State.canonical.waitIns {n kind : Nat} {target : Word} {mask : Nat} {rd : BitVec 5} {done : Bool} (h : s.canonical) :
    (s.waitIns n kind target mask rd done).canonical :=
  .ite h.setThPc.setFld (.ite h.setThPc.waitDone h.setThPc.setReg.updThr.setTh.setFld)

theorem State.canonical.template {n k : Nat} {ecc : Ecc} (h : s.canonical) : (s.template n k ecc).1.canonical := h.eccRead

theorem State.canonical.postIns {a : Agent} {op : Nat} {rd rs1 rs2 : BitVec 5} {k : BitVec 11} {ecc : Ecc}
    {f : State → List Word → List Word × Bool} (h : s.canonical) :
    (s.postIns a op rd rs1 rs2 k ecc f).canonical := by
  unfold State.postIns
  refine h.angIns fun _ _ hu => ?_
  extract_lets r _ _ p
  have hr : r.1.canonical := hu.template
  have hp : p.1.canonical := .iteFst hr.refusePost hr.post
  exact .ite hr.takeExc hp.setTg.traceThr.retireIns

theorem execQput_canonical {a : Agent} {rd rs1 q : BitVec 5} {ecc : Ecc} (h : s.canonical) :
    AnswersCanonical (execQput a rd rs1 q ecc s) := by
  unfold execQput
  refine .next (h.angIns fun _ _ hu => ?_)
  extract_lets _ r p
  have hr : r.1.canonical := hu.eccRead
  have hp : p.1.canonical := hr.qput
  exact .ite hu.takeExc (.ite hu.takeExc (.ite hr.takeExc hp.setTg.retireIns))

theorem execQget_canonical {a : Agent} {rd rs1 q : BitVec 5} (h : s.canonical) : AnswersCanonical (execQget a rd rs1 q s) := by
  unfold execQget
  refine .next (h.angIns fun _ _ hu => ?_)
  extract_lets _ v
  have hv : v.canonical := hu.wrBytes.qpop
  exact .ite hu.takeExc (.ite hu.takeExc (.ite hu.setTg.retireIns hv.setTg.retireIns))

theorem State.canonical.branchIns {a : Agent} {op : Nat} {rt rs1 : BitVec 5} {imm : BitVec 16} {f : Word → Word → Bool}
    (h : s.canonical) :
    (s.branchIns a op rt rs1 imm f).canonical :=
  h.issueIns fun _ hu => .ite hu.branchTo hu.retireIns

theorem State.canonical.privIns {a : Agent} {fn : Nat} {f : State → Nat → State} (h : s.canonical) (hf : ∀ t x0, t.canonical →
    (f t x0).canonical) :
    (s.privIns a fn f).canonical := by
  unfold State.privIns
  refine h.issueIns fun _ hu => ?_
  split
  · exact .ite (hf _ _ hu) hu.takeExc
  · exact hu

theorem execFence_canonical {a : Agent} (h : s.canonical) : AnswersCanonical (execFence a s) := by
  unfold execFence
  refine .next (h.issueIns fun _ hu => ?_)
  split
  · exact hu.settleAll.retireIns
  · exact hu

theorem execEcall_canonical {a : Agent} (h : s.canonical) : AnswersCanonical (execEcall a s) := by
  unfold execEcall
  refine .next (h.issueIns fun _ hu => ?_)
  split
  · exact hu.takeExc
  · exact hu

theorem execBrk_canonical {a : Agent} (h : s.canonical) : AnswersCanonical (execBrk a s) := by
  unfold execBrk
  refine .next (h.issueIns fun _ hu => ?_)
  split
  · exact .ite hu.settleAll.haltPair hu.takeExc
  · exact .ite hu.setTh.raise hu.takeExc

theorem State.canonical.csrRead {t c : Nat} (h : s.canonical) : (s.csrRead t c).1.canonical :=
  .iteFst h.setCsr (.iteFst h.setCsr (.iteFst h (.iteFst h h)))

theorem execCsrr_canonical {a : Agent} {rd : BitVec 5} {num : BitVec 16} (h : s.canonical) :
    AnswersCanonical (execCsrr a rd num s) := by
  unfold execCsrr
  extract_lets
  refine .next (h.issueIns fun _ hu => ?_)
  split
  · exact .ite hu.csrRead.setGr.retireIns hu.takeExc
  · exact hu.takeExc
  · exact hu

theorem execCsrw_canonical {a : Agent} {rs1 : BitVec 5} {num : BitVec 16} (h : s.canonical) :
    AnswersCanonical (execCsrw a rs1 num s) := by
  unfold execCsrw
  extract_lets
  refine .next (h.issueIns fun _ hu => ?_)
  extract_lets
  split
  · exact .ite hu.takeExc (.ite hu.setCsr.retireIns hu.takeExc)
  · exact hu.takeExc
  · exact hu

theorem State.canonical.addFlags {a : Agent} {fl : Nat} (h : s.canonical) : (s.addFlags a fl).canonical := by
  unfold State.addFlags
  split
  · exact h.setCsr
  · exact h

theorem State.canonical.toF {a : Agent} {x : Form} {rd : BitVec 5} {v : State → Word × Nat} (h : s.canonical) :
    (s.toF a x rd v).canonical :=
  h.issueIns fun _ hu => hu.setFr.addFlags.retireIns

theorem State.canonical.toG {a : Agent} {x : Form} {rd : BitVec 5} {v : State → Word × Nat} (h : s.canonical) :
    (s.toG a x rd v).canonical :=
  h.issueIns fun _ hu => hu.setGr.addFlags.retireIns

theorem State.canonical.fp2 {a : Agent} {fn : Nat} {rd rs1 rs2 : BitVec 5} {f : Nat → Word → Word → Word × Nat}
    (h : s.canonical) :
    (s.fp2 a fn rd rs1 rs2 f).canonical :=
  h.toF

theorem State.canonical.fp1 {a : Agent} {fn : Nat} {rd rs1 : BitVec 5} {f : Nat → Word → Word × Nat} (h : s.canonical) :
    (s.fp1 a fn rd rs1 f).canonical :=
  h.toF

theorem State.canonical.fpG {a : Agent} {fn : Nat} {rd rs1 : BitVec 5} {f : Nat → Word → Word × Nat} (h : s.canonical) :
    (s.fpG a fn rd rs1 f).canonical :=
  h.toG

theorem State.canonical.fpOfG {a : Agent} {fn : Nat} {rd rs1 : BitVec 5} {f : Nat → Word → Word × Nat} (h : s.canonical) :
    (s.fpOfG a fn rd rs1 f).canonical :=
  h.toF

theorem State.canonical.fpCmp {a : Agent} {fn : Nat} {rd rs1 rs2 : BitVec 5} {f : Word → Word → Word × Nat} (h : s.canonical) :
    (s.fpCmp a fn rd rs1 rs2 f).canonical :=
  h.toG

/-! ### Loupe -/

theorem State.canonical.lanes {l : List (List Byte)} (h : s.canonical) : (s.lanes l).canonical := h.updDbg

theorem State.canonical.loupeAnswer {tag status : Nat} {data addr : Word} {after : List (List Byte)} (h : s.canonical) :
    (s.loupeAnswer tag status data addr after).canonical :=
  .ite h.lanes.raise.sendFault h.lanes

theorem State.canonical.loupeBad (h : s.canonical) : s.loupeBad.canonical := h.updDbg.count.raise

theorem State.canonical.loupeFrame {tag : Nat} {addr : Word} {good idle : Bool} {act : State → State} (h : s.canonical)
    (hact : ∀ t, t.canonical → (act t).canonical) :
    (s.loupeFrame tag addr good idle act).canonical :=
  .ite h.lanes (.ite h.loupeBad (.ite (hact _ h.updDbg) h.updDbg.loupeAnswer))

theorem State.canonical.loupeWindowRead {a : Nat} {ecc : Ecc} (h : s.canonical) : (s.loupeWindowRead a ecc).1.canonical :=
  .iteFst h (.iteFst h.eccRead h.eccRead)

theorem State.canonical.loupeRead {a : Nat} {ecc : Ecc} (h : s.canonical) : (s.loupeRead a ecc).1.canonical :=
  .iteFst h.loupeWindowRead h.busRead

theorem State.canonical.loupeWrite {a : Nat} {w : Word} {ecc : Ecc} (h : s.canonical) : (s.loupeWrite a w ecc).1.canonical :=
  .iteFst (.iteFst h.wr32 h) h.busWrite

theorem execTraceResume_canonical (h : s.canonical) : AnswersCanonical (execTraceResume s) := by
  unfold execTraceResume
  extract_lets
  split
  · exact .next h
  · exact .next h.lanes.updDbg.showFill.count.raise

/-! ### SPI -/

theorem State.canonical.spiEnd {code : Nat} (h : s.canonical) : (s.spiEnd code).canonical := by
  unfold State.spiEnd
  extract_lets _ s1 s2
  have h1 : s1.canonical := h.setReg
  have h2 : s2.canonical := by
    unfold s2
    split
    · exact h1.raise
    · exact h1
  exact .ite h2.count h2.count.sendFault

theorem State.canonical.spiDo {f : SpiForm} {act : State → State × Nat} (h : s.canonical) (hact : ∀ t, t.canonical →
    (act t).1.canonical) :
    (s.spiDo f act).canonical :=
  .ite h (.ite h.spiEnd (.spiEnd (hact _ h)))

theorem State.canonical.spiCharge {a : Nat} (h : s.canonical) : (s.spiCharge a).canonical := .ite h.budDraw h

theorem State.canonical.spiReads {a : Nat} {ecc : Ecc} {n : Nat} (h : s.canonical) : (s.spiReads a ecc n).1.canonical := by
  induction n generalizing a s with
  | zero => exact h
  | succ n ih =>
    rw [State.spiReads]
    extract_lets q
    have hq : q.1.canonical := ih h.spiCharge.busRead
    split
    · exact hq
    · exact h.spiCharge.busRead
    · exact h.spiCharge.busRead

theorem State.canonical.spiWrites {a : Nat} {ecc : Ecc} {l : List Word} (h : s.canonical) :
    (s.spiWrites a ecc l).1.canonical := by
  induction l generalizing a s with
  | nil => exact h
  | cons w t ih =>
    rw [State.spiWrites]
    split
    · exact ih h.spiCharge.busWrite
    · exact h.spiCharge.busWrite
    · exact h.spiCharge.busWrite

theorem State.canonical.spiRead {w off n : Nat} {ecc : Ecc} (h : s.canonical) : (s.spiRead w off n ecc).1.canonical := by
  unfold State.spiRead
  split
  · refine .iteFst h ?_
    extract_lets r x
    have hr : r.1.canonical := h.spiReads
    have hx : x.canonical := hr
    exact .iteFst (.ofTables hx rfl rfl) hr
  · exact h

theorem State.canonical.spiPut {w off : Nat} {l : List Word} {ecc : Ecc} (h : s.canonical) :
    (s.spiPut w off l ecc).1.canonical := by
  unfold State.spiPut
  split
  · exact .iteFst h h.spiWrites
  · exact h

theorem State.canonical.spiQput {q : Nat} {l : List Word} (h : s.canonical) : (s.spiQput q l).1.canonical :=
  .iteFst h (.iteFst h h.qputFor)

theorem State.canonical.spiQget {q : Nat} (h : s.canonical) : (s.spiQget q).1.canonical := by
  unfold State.spiQget
  extract_lets _ s1 x
  have hx : x.canonical := h.spiCharge.qpop
  clear_value x
  refine .iteFst (.pair h) (.iteFst (.pair h) ?_)
  exact .pair (.ofTables hx rfl rfl)

theorem State.canonical.spiLoad {off : Nat} {l : List Word} (h : s.canonical) : (s.spiLoad off l).1.canonical :=
  .iteFst h.wrBytes h

theorem State.canonical.spiAdopt {cal : Bool} (h : s.canonical) : (s.spiAdopt cal).canonical := h.wrBytes.ctlWrite.askReset

theorem State.canonical.spiCommit {typ : Nat} (h : s.canonical) : (s.spiCommit typ).1.canonical :=
  .iteFst h (.iteFst h.spiAdopt h)

/-! ### A slot of time -/

theorem State.canonical.tickAngle (h : s.canonical) : s.tickAngle.canonical := by
  unfold State.tickAngle
  extract_lets s1 s2 s3
  have h1 : s1.canonical := .ofTables h rfl rfl
  have h2 : s2.canonical := h1.runAngle
  have h3 : s3.canonical := .ofTables h2 rfl rfl
  exact h3.noteEnds.coastTick.runSynth.runSynth

theorem State.canonical.tickIslands (h : s.canonical) : s.tickIslands.canonical := h.updSys.runFadc.runEth

theorem State.canonical.tickGuard (h : s.canonical) : s.tickGuard.canonical := by
  unfold State.tickGuard
  extract_lets s1 s2
  have h1 : s1.canonical := h.runRtc
  have h2 : s2.canonical := .ite h1.calTick h1
  split
  · exact .ite h2.updSys h2
  · exact h2

theorem State.canonical.tick (h : s.canonical) : s.tick.canonical := by
  unfold State.tick
  extract_lets s0 s1
  have h0 : s0.canonical := .ite h.tickAngle.tickIslands h
  have h1 : s1.canonical := .ofTables h0 rfl rfl
  exact .tickGuard (.ite h1 h1.runInj.runPwm)

/-! ### A step -/

/-- Whatever state a command answers is in canonical form again. -/
theorem exec_canonical (i : Instr) (h : s.canonical) : AnswersCanonical (exec i s) := by
  cases i with
  | registerWrite => exact .next (.ite h.busWrite h.busError)
  | crossingDelivery => exact execCrossingDelivery_canonical h
  | stuck => exact .next (.ite h.sendFaultFrom h)
  | keepalive => exact .next (.ite h.goodFrame h)
  | linkLossHv | referenceLoss => exact .next (.ite h.injLost.pwmLost h)
  | linkloss => exact execLinkloss_canonical h
  | linkRetrain => exact execLinkRetrain_canonical h
  | budgetFramePulse => exact .ite (.next (.foldl h.updFabric fun _ _ ht => ht.launch)) (.next h)
  | framePulseAtMeter => exact execFramePulseAtMeter_canonical h
  | budgetOverrunReport => exact execBudgetOverrunReport_canonical h
  | vsysHvHold => exact .next ⟨tabWf_filter _ h.regs, h.mem⟩
  | porstAssert | railResetCrossing => exact .next h.powerOn
  | porRelease => exact .ite (.next h.setFld.setFld.setBit.endReset.resetEntry) (.next h)
  | supplyWarning => exact execSupplyWarning_canonical h
  | systemReset => exact execSystemReset_canonical h
  | systemResetEnd => exact .next (.ite h.endReset h)
  | resetHoldEnd => exact .next (.ite h.setFld.endReset (.ite h.setFld.updSys h))
  | rstnInput => exact .next (.ite h h.systemReset)
  | sysRst | alarmArm | sleepGo => exact .next h.sysWrite
  | crystalValid => exact .next h.setBit.setFld
  | pllLock => exact .next (.ite h.setBit h)
  | clkfail => exact .ite (.next h) (.ite (.next h.decideMsg.clockFailed.systemReset.updSys) (.next h.clockSequence))
  | rtcf => exact .next h.setBit.setBit.raise
  | alarmMatch => exact .next (.ite h.updSys.raise h)
  | sleepEnter => exact execSleepEnter_canonical h
  | wakeUp => exact execWakeUp_canonical h
  | vrHalfWave => exact execVrHalfWave_canonical h
  | hallThresholdCrossing => exact .next (.ite h.detect h)
  | edgeFilterPass => exact .ite (.next h) (.next (.ite h.setBit.updWhl.selectedEdge h.setBit.updWhl))
  | directionPulseEnd => exact execDirectionPulseEnd_canonical h
  | toothDelivery => exact execToothDelivery_canonical h
  | windowClose => exact execWindowClose_canonical h
  | wheelTimeout => exact execWheelTimeout_canonical h
  | camEdge => exact execCamEdge_canonical h
  | camloss => exact .next (.ite h.updSync.raise h)
  | secondaryTooth => exact execSecondaryTooth_canonical h
  | provisionalPrediction => exact execProvisionalPrediction_canonical h
  | ceil => exact .next (.ite h.setFld.raise.hwEvent h)
  | cycleBoundary => exact .next (.ite h.trimBoundary.updObs.coastCheck h)
  | wheelEnable | wheelDisable | whlClrCnt | echoEnable | echoDisable => exact .next h.whlWrite
  | whlSlotlRead => exact .next h.slotlRead.respond
  | echoPulseEnd => exact execEchoPulseEnd_canonical h
  | followEdge => exact .next h.echoStep
  | echoRampStep => exact .next (.ite h.setFld h)
  | obsEnable | obsDisable | obsClrFact | obsClrTors | obsClrJmax | reseek | phaseKeep | phaseAdd | swapSource | dropSync =>
    exact .next h.obsWrite
  | obsAngRead => exact .next h.obsAngRead.respond
  | policyPost | policyAbort | calendarDisable | calClrCnt | calClrBmax => exact .next h.calWrite
  | abortArrival => exact execAbortArrival_canonical h
  | bucketWalk => exact execBucketWalk_canonical h
  | actionRelease => exact execActionRelease_canonical h
  | actionFire => exact execActionFire_canonical h
  | injEndDispatch => exact execInjEndDispatch_canonical h
  | pulseEnd => exact execPulseEnd_canonical h
  | deferredStart => exact execDeferredStart_canonical h
  | softShutdownEnd => exact execSoftShutdownEnd_canonical h
  | cycCompare => exact .next (.ite (.ite h.cycClr h) (.ite h.cycSet h))
  | cycReturnDelayed => exact execCycReturnDelayed_canonical h
  | channelDisable => exact .next h.outWrite
  | add | sub | and | or | xor | sll | srl | sra | slt | sltu | min | max | minu | maxu | mul | mulsh | muluh | divs | divu
  | mods | modu => exact .next h.regReg
  | addi | andi | ori | xori | slti | sltiu => exact .next h.regImm
  | lui => exact .next h.toReg
  | slli | srli | srai => exact .next h.shiftImm
  | lw | lh | lhu | lb | lbu => exact .next h.loadG
  | sw | sh | sb => exact .next h.storeG
  | flw => exact .next h.loadIns
  | fsw => exact .next h.storeIns
  | loadComplete => exact .next h.finishLoad
  | aswp | aadd | aadds | aand | aorr | acas => exact .next h.atomicIns
  | beq | bne | blt | bge | bltu | bgeu => exact .next h.branchIns
  | jal | jalr => exact .next (h.issueIns fun _ hu => hu.setGr.branchTo)
  | fence => exact execFence_canonical h
  | ecall => exact execEcall_canonical h
  | eret => exact .next (h.privIns fun _ _ hu => hu.retirePair.pairExit)
  | wfi => exact .next (h.privIns fun _ _ hu => hu.retireIns.updPair)
  | wfiWake => exact .next (.ite h h.updPair)
  | brk => exact execBrk_canonical h
  | csrr => exact execCsrr_canonical h
  | csrw => exact execCsrw_canonical h
  | fadd | fsub | fmul | fdiv | fmin | fmax | fminn | fmaxn | fcpys => exact .next h.fp2
  | fsqrt | fabs | fneg => exact .next h.fp1
  | fcmp | fcmps => exact .next h.fpCmp
  | ftype | ftoi | ftoiz | ftoiu | fmvgf => exact .next h.fpG
  | fitof | futof | fmvfg => exact .next h.fpOfG
  | fmac | fmsc | fscl => exact .next h.toF
  | waitAng | waitTim => exact .next (h.angIns fun _ _ hu => hu.waitIns)
  | waitEvt => exact .next (h.angIns fun _ _ hu => .ite hu.setTg.retireIns hu.waitIns)
  | waitWake => exact .ite (.next (.ite h.waitDone.traceThr.setTh h.waitDone.traceThr.stall)) (.next h)
  | postAction | pulse | samp => exact .next h.postIns
  | cancl => exact .next (h.angIns fun _ _ hu => hu.abortHandle.setTg.retireIns)
  | trimRead => exact .next (h.angIns fun _ _ hu => .ite hu.takeExc hu.setTg.retireIns)
  | qput => exact execQput_canonical h
  | qget => exact execQget_canonical h
  | syncq | angq => exact .next (h.angIns fun _ _ hu => hu.setTg.retireIns)
  | sigt => exact .next (h.angIns fun _ _ hu => .retireIns (.ite hu.setPend.setTg hu.setTg))
  | tend => exact .next (h.angIns fun _ _ hu => hu.thEnd)
  | interruptEntry => exact .next (.ite h.pairEnter h)
  | threadStart | threadKill | threadRetarget | threadSignal | engineDisable | aenClrEcc => exact .next h.aenWrite
  | codeWindowWrite => exact .next h.codeWrite
  | lockstep => exact .next (.ite h (.sendFault (by simpa only [State.canonical] using h)))
  | pairRestartDone => exact .ite (.next h.loadImage.releasePair) (.next h)
  | sramScrubRead => exact .next (.ite h.eccRead.setFld h.eccRead)
  | mramScrubRead => exact .ite (.next h) (.next (.ite h.eccRead.scrubRewrite.setFld h.eccRead.scrubRewrite))
  | mramLineWrite | queClrEcc | dmaStart | dmaStop | dmaSoft => exact .next h.queWrite
  | mramLineWriteDone => exact execMramLineWriteDone_canonical h
  | queuePutPort => exact .next h.portWrite
  | queuePop | queueBaseWrite => exact .next h.queueWrite
  | dmaTrigger => exact .next (.ite h.dmaTrigger h)
  | dmaElementDone => exact execDmaElementDone_canonical h
  | trimRequestWrite => exact .next h.trimWritePolicy
  | envelopeWrite => exact .next h.envelopeWrite
  | elockWrite => exact .next h.elockWrite
  | bootRom => exact .next (.ite h.runBoot h)
  | irqMessage => exact execIrqMessage_canonical h
  | irqClaim => exact .next h.claimRead.respond
  | irqComplete | irqPendingClear | irqMaskSet | irqMaskClear | irqCounterClear | irqDoorbell | extintEnable | extintDisable =>
    exact .next h.irqWrite
  | holdoffEnd => exact .next h.setFld
  | extintLevelChange => exact .next (.ite h h.extLevel)
  | extintResend => exact execExtintResend_canonical h
  | timerStep => exact .next (.ite h.tmrStep h)
  | timerMatch => exact .ite (.next h.updTmr.raise.pulseSelected.launch) (.next h)
  | timerWrap => exact .ite (.next (.ite h.updTmr.raise.pulseSelected.tmrStop h.updTmr.raise.pulseSelected)) (.next h)
  | linkedStep => exact .ite (.next (.ite h.updTmr.tmrStep h.updTmr)) (.next h)
  | tmrStart | tmrStop | timerCountLoad | timerCompareWrite => exact .next h.tmrWrite
  | timerTriggerStart => exact .next (.foldl h fun _ _ ht => .ite ht.tmrStart ht)
  | timerCapture => exact execTimerCapture_canonical h
  | injCtrlWrite | injDiagGo | injFclr | alrtRel => exact .next h.injWrite
  | injStartCommand => exact execInjStartCommand_canonical h
  | injEndCommand => exact execInjEndCommand_canonical h
  | injRegulation => exact .next h.injSample
  | injBoostDone => exact .next (.ite h.boostOver h)
  | injShiftedStart => exact .ite (.next h.updInj.beginPulse.count.setFld.injFault.report) (.next h)
  | bcancel => exact .ite (.next h.count.injFault.dropWait) (.next h)
  | tbmaxExpiry => exact execTbmaxExpiry_canonical h
  | tpkEnd => exact .ite (.ite (.next h.setLs.updInj.hsUpdate) (.next h.updInj)) (.next h)
  | injTransEnd => exact .next (.ite h.setLs.updInj h)
  | injDecayEnd => exact .ite (.next h) (.ite (.next h.setGates.updInj) (.next (.ite h.updInj h)))
  | injCloseEnd => exact execInjCloseEnd_canonical h
  | overcurrent => exact execOvercurrent_canonical h
  | dutyLimit => exact .ite (.next (.ite h.injChFault.setFld.forceEnd h.injChFault.setFld)) (.next h)
  | openDetected => exact execOpenDetected_canonical h
  | closeDetected => exact execCloseDetected_canonical h
  | driveReport => exact execDriveReport_canonical h
  | hsopen | hsshort => exact .next (.ite h.injFault.latchBank h)
  | vhvuv => exact .next (.ite h.setFld.injFault h.setFld)
  | vhvov => exact execVhvov_canonical h
  | bstfb => exact .next (.ite h.setFld.setFld.injFault h.setFld.setFld)
  | diagdone => exact execDiagdone_canonical h
  | alrtPulseEnd => exact .ite (.next (.ite h.alrtOff (.ofTables h rfl rfl))) (.next h)
  | pwmCtrlWrite | pwmCommit | pwmCmut | pwmSafecmd | pwmResume => exact .next h.pwmWrite
  | pwmBoundary => exact .next (.ite h.pwmBoundary h)
  | pwmTransition => exact .next (.ite h.pwmRequest h)
  | swNodeCrossing => exact execSwNodeCrossing_canonical h
  | nodeTimeout => exact execNodeTimeout_canonical h
  | commutation => exact .next h.commutateLine
  | boostTrip => exact .ite (.next (.boostOff (.foldl h fun _ _ ht => .ite ht.setBit ht))) (.next h)
  | bmaxd => exact .ite (.next h.boostOff.pwmFlag.count) (.next h)
  | srOff => exact .next (.ite h.updPwm h)
  | rampStart => exact execRampStart_canonical h
  | cmpFilteredEdge => exact .next (.ite h.cmpEdge h)
  | cmpEnable | cmpDisable => exact .next h.cmpWrite
  | cmpForceEnd => exact .ite (.next (.ite h.setBit.cmpEdge h.setBit)) (.next h)
  | fadcSampleDispatch => exact execFadcSampleDispatch_canonical h
  | fadcNextConversion => exact .next (.ite h.nextConv h)
  | fadcConversionDone => exact execFadcConversionDone_canonical h
  | fadcRegularTrigger => exact .next (.foldl h fun _ _ ht => .ite ht.regTrigger ht)
  | fadcInjectedTrigger => exact .next (.foldl h fun _ _ ht => .ite ht.jinjTrigger ht)
  | fadcRsw | fadcJsw | fadcScal | fadcDisable => exact .next h.fadcWrite
  | padcPeriodEnd => exact .next h.padcPeriodEnd
  | padcScal | padcDisable => exact .next h.padcWrite
  | gridzEdge => exact execGridzEdge_canonical h
  | gridloss => exact execGridloss_canonical h
  | staleInput => exact execStaleInput_canonical h
  | cmbCtrlWrite | cmbRuleEnable | cmbDitherEnable => exact .next h.cmbWrite
  | cmbSample => exact execCmbSample_canonical h
  | cmbWindowOpen => exact .next (.ite h.openWin h)
  | cmbWindowClose => exact .next h.closeWin
  | cmbRecord => exact .next h.processComb
  | cmbWorkRecord => exact .next h.processWork
  | budClrCnt | budClrPeak | budMonselWrite => exact .next h.budWrite
  | superframeStart => exact .next h.superframe
  | statusFrame | angleFrame | dataFrame | membFrame => exact .next h.ringFrame
  | tagTimeout => exact execTagTimeout_canonical h
  | dataChannelSend => exact .ite (.next h) (.ite (.next h.budStarve) (.next h.budDraw.qpop.updChn.originate))
  | dreqFrame => exact .next (.ite h (.ite h.discard (.ite h h.sendOn)))
  | drspFrame => exact execDrspFrame_canonical h
  | dreqTimeout => exact execDreqTimeout_canonical h
  | authFrame | keyFrame => exact .next h.authFrame
  | authItemResend => exact execAuthItemResend_canonical h
  | authTimeout => exact execAuthTimeout_canonical h
  | linkHoldoffEnd => exact execLinkHoldoffEnd_canonical h
  | ringOfOne => exact .next (.ite h.updChn.chnShow h)
  | memberTimeout => exact execMemberTimeout_canonical h
  | portDown => exact execPortDown_canonical h
  | portRetrain => exact .next (.ite h.updPort.startAuth.raise h)
  | chnCtrlWrite | clrfar => exact .next h.chnWrite
  | ethReceive => exact .next (.ite h.ethArrive h)
  | ethTransmit => exact execEthTransmit_canonical h
  | ethTxComplete => exact execEthTxComplete_canonical h
  | ethStep => exact .next h.ethWrite
  | pcapLatch => exact .next h.ethTrigger
  | canReceive => exact .next (.ite h.canArrive h)
  | canTransmit => exact .next (.ite h.canSend h)
  | busoff => exact .next (.ite h.setFld.raise.sendFault h)
  | canAutoRecovery => exact .next (.ite h.setFld.updCan h)
  | canRec => exact .next h.canWrite
  | spiRead => exact .next (h.spiDo fun _ ht => ht.spiRead)
  | spiWrite => exact .next (h.spiDo fun _ ht => ht.spiPut)
  | spiQput => exact .next (h.spiDo fun _ ht => ht.spiQput)
  | spiQget => exact .next (h.spiDo fun _ ht => .iteFst ht.spiQget ht)
  | spiNop => exact .next (h.spiDo fun _ ht => ht)
  | rload => exact .next (h.spiDo fun _ ht => ht.spiLoad)
  | rcommit => exact .next (h.spiDo fun _ ht => ht.spiCommit)
  | spiTout => exact .next (.ite h.spiEnd h)
  | faultDecision => exact execFaultDecision_canonical h
  | shadowEnd => exact .next (.shadShow (.ofTables h rfl rfl))
  | fltUpendClear | fltArm | fltLock | fltClrCnt | fltInjArm | fltInjDisarm => exact .next h.fltWrite
  | injto => exact execInjto_canonical h
  | locketEntry => exact execLocketEntry_canonical h
  | locketRecordWrite => exact .next h.lktNext
  | locketRecordDone => exact .next h.finishRec
  | sealSigned => exact execSealSigned_canonical h
  | sealRing | pseal | userPut | verifyBlock | authorisedRequest | timeStep | timeAdjust => exact .next h.lktWrite
  | pinnedSealTimeout => exact execPinnedSealTimeout_canonical h
  | locketScanDone => exact .next (.ite h.lktScan h)
  | vdone => exact execVdone_canonical h
  | clrdone => exact execClrdone_canonical h
  | tloss => exact .next (.ite h.setFld.raise h)
  | lktTseclRead => exact .next h.tseclRead.respond
  | enrolment | rollbackRaise => exact .next h.hmkWrite
  | rngerr => exact .next h.setFld.raise
  | loupeNop | resync | loupeUnusedOp => exact .next (h.loupeFrame fun _ ht => ht.loupeAnswer)
  | loupeRead => exact .next (h.loupeFrame fun _ ht => ht.loupeRead.loupeAnswer)
  | loupeWrite => exact .next (h.loupeFrame fun _ ht => ht.loupeWrite.loupeAnswer)
  | loupeSync => exact .next h.lanes.updDbg.showFill
  | traceResume => exact execTraceResume_canonical h
  | dbgEnableWrite | dbgHalt | dbgRes | dbgStep | dbgTres | dbgUtrc => exact .next h.dbgWrite
  | dutySubWindow => exact .next (.ite h.updInj.setFld h.updInj)
  | vhvovRelease => exact execVhvovRelease_canonical h
  | autoNegotiationWord => exact .next (.ite h h.setReg.raise)
  | ethStale => exact .next (.ite h.updEth.raise.sendFault h)
  | filterStale => exact .next (.ite h.updCan.raise.sendFault h)
  | triggerPoint => exact .ite (.ite (.next h.updPwm.pulseSelected) (.next h.updPwm)) (.next h)
  | illegal => exact .next (.ite h (h.issueIns fun _ hu => hu.takeExc))

/-- The command at the front of the queue, or one slot of time. -/
theorem step_canonical (h : s.canonical) : AnswersCanonical (Sys2Proof.Machine.step s) := by
  rw [Sys2Proof.Machine.step]
  split
  · exact .next h.tick
  · exact exec_canonical _ (.ofTables h rfl rfl)

end
end Sys2Proof.Machine

open Sys2Proof.Machine

/-- Settles O18: each operation of the model keeps the canonical form of the tables, so each command and each slot does. -/
theorem stepsKeepCanonicalForm : Obligations.StepsKeepCanonicalForm :=
  fun _ t h ht => step_canonical h t ht

end

section
/-! PROOFS. Crossings and their faults (R23 to R26); the frames, the loss and the training of the die-to-die link (R30 to
R34). -/

namespace Sys2Proof.Machine

/-! ### States that differ in their registers alone -/

/-- `t` is `s` but for its registers. -/
def State.RegsDiffer (s t : State) : Prop := t = { s with regs := t.regs }

theorem State.RegsDiffer.refl (s : State) : s.RegsDiffer s := rfl

theorem State.RegsDiffer.setReg (s : State) (k : Nat) (v : Word) : s.RegsDiffer (s.setReg k v) := rfl

theorem State.RegsDiffer.trans {s t u : State} (h : s.RegsDiffer t) (h' : t.RegsDiffer u) : s.RegsDiffer u :=
  Eq.trans h' (by rw [h])

/-! ### Pending bits (R239, R266) -/

/-- A pending bit of a thread is a bit of its status register. -/
theorem State.testBit_pend (s : State) (n : Nat) {b : Nat} (hb : b < 16) :
    (s.pend n).testBit b = bitOf (s.reg (AEN_TSTAT n)) (16 + b) := by
  simp [State.pend, State.fld, Fld.get_testBit, AEN_TSTAT_PEND, hb, bitOf]

theorem State.testBit_pend_setPend (s : State) (m n : Nat) {k b : Nat} (hk : k < 16) (hb : b < 16) :
    ((s.setPend m k).pend n).testBit b = ((s.pend n).testBit b || (decide (n = m) && decide (b = k))) := by
  rw [State.testBit_pend _ _ hb, State.testBit_pend _ _ hb, State.setPend]
  by_cases hn : n = m
  · subst hn
    rw [State.reg_setBit_same]
    by_cases hbk : b = k
    · subst hbk; simp [bitOf_withBit_same _ _ _ (show 16 + b < 32 by omega)]
    · rw [bitOf_withBit_ne _ _ (by omega)]; simp [hbk]
  · rw [State.reg_setBit_ne _ _ _ (by simp only [AEN_TSTAT]; omega)]
    simp [hn]

/-- The state of a thread lies apart from its pending bits. -/
theorem State.thState_setPend (s : State) (m n k : Nat) : (s.setPend m k).thState n = s.thState n := by
  simp only [State.thState, State.fld, State.setPend, State.reg_setBit]
  split
  · next h => rw [← h, Fld.get_withBit_ne _ _ _ _ (Or.inr (show 0 + 3 ≤ 16 + k by omega))]
  · rfl

theorem State.RegsDiffer.setPendWhere (s : State) (k : Nat) (p : Nat → Bool) (n : Nat) :
    s.RegsDiffer (s.setPendWhere k p n) := by
  induction n with
  | zero => exact .refl s
  | succ n ih =>
    rw [State.setPendWhere]
    split
    · exact ih.trans (.setReg _ _ _)
    · exact ih

theorem State.testBit_pend_setPendWhere (s : State) {k b : Nat} (p : Nat → Bool) (m n : Nat) (hk : k < 16) (hb : b < 16) :
    ((s.setPendWhere k p m).pend n).testBit b = ((s.pend n).testBit b || (decide (n < m) && p n && decide (b = k))) := by
  induction m with
  | zero => simp [State.setPendWhere]
  | succ m ih =>
    rw [State.setPendWhere]
    by_cases hn : n = m
    · subst hn
      split
      · next hp =>
        rw [State.testBit_pend_setPend _ _ _ hk hb, ih]
        simp [hp]
      · next hp =>
        rw [ih]
        simp [hp]
    · have hlt : decide (n < m + 1) = decide (n < m) := by
        rw [decide_eq_decide]
        omega
      split
      · rw [State.testBit_pend_setPend _ _ _ hk hb, ih, hlt]
        simp [hn]
      · rw [ih, hlt]

theorem State.thState_setPendWhere (s : State) (k : Nat) (p : Nat → Bool) (m n : Nat) :
    (s.setPendWhere k p m).thState n = s.thState n := by
  induction m with
  | zero => rfl
  | succ m ih =>
    rw [State.setPendWhere]
    split
    · rw [State.thState_setPend, ih]
    · exact ih

theorem State.reg_setPendWhere_ne (s : State) {j : Nat} (k : Nat) (p : Nat → Bool) (m : Nat)
    (h : ∀ n, n < m → j ≠ AEN_TSTAT n) : (s.setPendWhere k p m).reg j = s.reg j := by
  induction m with
  | zero => rfl
  | succ m ih =>
    have hm := ih fun n hn => h n (by omega)
    rw [State.setPendWhere]
    split
    · rw [State.setPend, State.reg_setBit_ne _ _ _ (h m (by omega)), hm]
    · exact hm

/-- HW event selector `i` of thread `n` names event `sel` (R266). -/
def State.selects (s : State) (sel i n : Nat) : Bool := (s.reg (AEN_TEVS n)).toNat / 2 ^ (8 * i) % 256 == sel

/-- What a hardware event sets, one HW bit after the other. -/
theorem State.hwEvent_eq (s : State) (sel : Nat) :
    s.hwEvent sel = (((s.setPendWhere (pdHW + 0) (s.selects sel 0) 64).setPendWhere
      (pdHW + 1) (s.selects sel 1) 64).setPendWhere
      (pdHW + 2) (s.selects sel 2) 64).setPendWhere (pdHW + 3) (s.selects sel 3) 64 := by
  rw [State.hwEvent, show List.range 4 = [0, 1, 2, 3] from rfl]
  rfl

theorem State.RegsDiffer.hwEvent (s : State) (sel : Nat) : s.RegsDiffer (s.hwEvent sel) :=
  ((setPendWhere _ _ _ _).trans (setPendWhere _ _ _ _)).trans ((setPendWhere _ _ _ _).trans (setPendWhere _ _ _ _))

theorem State.testBit_pend_hwEvent (s : State) (sel : Nat) (n : Fin 64) {b : Nat} (hb : b < 16) :
    ((s.hwEvent sel).pend n).testBit b = ((s.pend n).testBit b || (decide (8 ≤ b ∧ b < 12)
      && decide ((s.reg (AEN_TEVS n)).toNat / 2 ^ (8 * (b - 8)) % 256 = sel))) := by
  rw [State.hwEvent_eq]
  have hset : ∀ (t : State) (i : Nat) (p : Nat → Bool), i < 4 → ((t.setPendWhere (pdHW + i) p 64).pend n).testBit b
      = ((t.pend n).testBit b || (p n && decide (b = pdHW + i))) := fun t i p hi => by
    simpa using t.testBit_pend_setPendWhere p 64 n (show 8 + i < 16 by omega) hb
  rw [hset _ _ _ (by omega), hset _ _ _ (by omega), hset _ _ _ (by omega), hset _ _ _ (by omega)]
  by_cases h : 8 ≤ b ∧ b < 12
  · obtain rfl | rfl | rfl | rfl : b = 8 ∨ b = 9 ∨ b = 10 ∨ b = 11 := by omega
    all_goals simp [State.selects, ← beq_eq_decide]
  · have hne : b ≠ 8 ∧ b ≠ 9 ∧ b ≠ 10 ∧ b ≠ 11 := by omega
    simp [h, hne]

theorem State.thState_hwEvent (s : State) (sel n : Nat) : (s.hwEvent sel).thState n = s.thState n := by
  simp only [State.hwEvent_eq, State.thState_setPendWhere]

theorem State.reg_hwEvent_ne (s : State) (sel : Nat) {j : Nat} (h : ∀ n : Fin 64, j ≠ AEN_TSTAT n) :
    (s.hwEvent sel).reg j = s.reg j := by
  have hlt : ∀ n, n < 64 → j ≠ AEN_TSTAT n := fun n hn => h ⟨n, hn⟩
  simp only [State.hwEvent_eq, State.reg_setPendWhere_ne _ _ _ _ hlt]

/-! ### Items of a crossing (R23, R24) -/

theorem State.nextItem_of_none {s : State} {src dst : Island} (h : firstItem src dst s.inflight = none) :
    s.nextItem src dst = none := by
  rw [State.nextItem, h, ite_self]

theorem State.firstItem_of_nextItem {s : State} {src dst : Island} {b : Body} (h : s.nextItem src dst = some b) :
    firstItem src dst s.inflight = some b := by
  rw [State.nextItem] at h
  split at h
  · cases h
  · exact h

/-- Away from the die-to-die link an acknowledgement takes the item off its crossing and does nothing else. -/
theorem State.ackItem_eq {s : State} {src dst : Island} (hs : src ≠ .drive) (hd : dst ≠ .drive) :
    s.ackItem src dst = { s with inflight := dropFirstItem src dst s.inflight } := by
  simp [State.ackItem, hs, hd]

/-- R23, R26: a hardware event arrives. -/
theorem crossingDelivery_hwEvent (src dst : Island) (s : State) (sel : Nat) (h : s.nextItem src dst = some (.hwEvent sel))
    (hs : src ≠ .drive) (hd : dst ≠ .drive) :
    ∃ t, exec (.crossingDelivery src dst true) s = .next t
      ∧ t = { s with regs := t.regs, inflight := dropFirstItem src dst s.inflight }
      ∧ (∀ n : Fin 64, ∀ b, b < 16 → (t.pend n).testBit b = ((s.pend n).testBit b
          || (decide (8 ≤ b ∧ b < 12) && decide ((s.reg (AEN_TEVS n)).toNat / 2 ^ (8 * (b - 8)) % 256 = sel))))
      ∧ ∀ k, (∀ n : Fin 64, k ≠ AEN_TSTAT n) → t.reg k = s.reg k := by
  refine ⟨({ s with inflight := dropFirstItem src dst s.inflight } : State).hwEvent sel, ?_, ?_, ?_, ?_⟩
  · change execCrossingDelivery src dst true s = _
    rw [execCrossingDelivery, h]
    change Host.Outcome.next ((s.ackItem src dst).hwEvent sel) = _
    rw [State.ackItem_eq hs hd]
  · exact State.RegsDiffer.hwEvent _ sel
  · exact fun n b hb => State.testBit_pend_hwEvent _ sel n hb
  · exact fun k hk => State.reg_hwEvent_ne _ sel hk

theorem State.onlySends_sendFaultFrom (s : State) (isl : Island) (blk unit kind cls detail : Nat) :
    s.onlySends (s.sendFaultFrom isl blk unit kind cls detail) []
      [⟨isl, .guard, .fault (faultWord blk unit kind cls 0 detail)⟩] :=
  ⟨rfl, fun _ _ => rfl⟩

/-- R25, R26: an item that arrives with an illegal code, or not at all, stays with its source and is reported. -/
theorem crossing_faults (src dst : Island) (s : State) (b : Body) (h : s.nextItem src dst = some b) :
    (∃ t, exec (.crossingDelivery src dst false) s = .next t
      ∧ s.onlySends t [] [⟨dst, .guard, .fault (faultWord blkCROSS (islandCode dst) 0x09 clsU 0 (islandCode src))⟩])
    ∧ (∃ t, exec (.stuck src dst) s = .next t
      ∧ s.onlySends t [] [⟨dst, .guard, .fault (faultWord blkCROSS (islandCode dst) 0x08 clsU 0 (islandCode src))⟩]) := by
  refine ⟨⟨_, ?_, State.onlySends_sendFaultFrom ..⟩, ⟨_, ?_, State.onlySends_sendFaultFrom ..⟩⟩
  · change execCrossingDelivery src dst false s = _
    rw [execCrossingDelivery, h]
    rfl
  · change execStuck src dst s = _
    rw [execStuck, State.firstItem_of_nextItem h]
    rfl

/-- R23, R25: with nothing on the crossing nothing happens. -/
theorem crossing_empty (src dst : Island) (s : State) (good : Bool) (h : firstItem src dst s.inflight = none) :
    exec (.crossingDelivery src dst good) s = .next s ∧ exec (.stuck src dst) s = .next s := by
  constructor
  · change execCrossingDelivery src dst good s = _
    rw [execCrossingDelivery, State.nextItem_of_none h]
  · change execStuck src dst s = _
    rw [execStuck, h]
    rfl

/-! ### Loops over channels -/

/-- A loop that treats each channel once: what it leaves of the view of channel `n` is what its turn of `n` leaves, begun in a
state with the view unchanged, where no other turn changes it. -/
theorem exists_turn_of_foldl {V : Type} (view : State → V) {f : State → Nat → State} {l : List Nat} {n : Nat} (s : State)
    (hn : n ∈ l) (hl : l.Nodup) (hother : ∀ t m, m ∈ l → m ≠ n → view (f t m) = view t) :
    ∃ u, view u = view s ∧ view (l.foldl f s) = view (f u n) := by
  induction l generalizing s with
  | nil => cases hn
  | cons m t ih =>
    obtain ⟨hm, ht⟩ := List.nodup_cons.mp hl
    rw [List.foldl_cons]
    rcases List.mem_cons.mp hn with rfl | hnt
    · refine ⟨s, rfl, ?_⟩
      exact List.foldlRecOn t f (motive := fun u => view u = view (f s n)) rfl fun u hu k hk =>
        (hother u k (List.mem_cons_of_mem _ hk) (by rintro rfl; exact hm hk)).trans hu
    · obtain ⟨u, hu, hf⟩ := ih (f s m) hnt ht fun u k hk => hother u k (List.mem_cons_of_mem _ hk)
      exact ⟨u, hu.trans (hother s m List.mem_cons_self (by rintro rfl; exact hm hnt)), hf⟩

/-! ### What the switches of the drive leave alone -/

/-- The registers in which the drive island shows its switches: INJ_STAT, PWM_EVT and the registers of one channel or pair. -/
abbrev switchReg (k : Nat) : Prop := k = INJ_STAT ∨ (0x400A0100 ≤ k ∧ k < 0x400B0000) ∨ k = PWM_EVT ∨ 0x400B0100 ≤ k

theorem switchReg_INJ_FST {n : Nat} (h : n < 12) : switchReg (INJ_FST n) := by
  simp only [switchReg, INJ_FST]; omega

theorem switchReg_PWM_PER (n : Nat) : switchReg (PWM_PER n) := by simp only [switchReg, PWM_PER]; omega

theorem switchReg_PWM_DUT (n : Nat) : switchReg (PWM_DUT n) := by simp only [switchReg, PWM_DUT]; omega

theorem switchReg_PWM_CNT (n : Nat) : switchReg (PWM_CNT n) := by simp only [switchReg, PWM_CNT]; omega

/-- `t` is `s` as far as memory, time, the link, the loss state of the drive and the registers that show no switch go. -/
structure State.SwitchFrame (s t : State) : Prop where
  mem : t.mem = s.mem
  now : t.now = s.now
  sys : t.sys = s.sys
  d2dUp : t.d2dUp = s.d2dUp
  drive : t.drive = s.drive
  reg : ∀ k, ¬ switchReg k → t.reg k = s.reg k

namespace State.SwitchFrame

variable {s t : State}

theorem refl (s : State) : s.SwitchFrame s := ⟨rfl, rfl, rfl, rfl, rfl, fun _ _ => rfl⟩

theorem setReg {k : Nat} {v : Word} (hk : switchReg k) (h : s.SwitchFrame t) : s.SwitchFrame (t.setReg k v) :=
  ⟨h.mem, h.now, h.sys, h.d2dUp, h.drive, fun j hj =>
    (State.reg_setReg_ne _ _ (by rintro rfl; exact hj hk)).trans (h.reg j hj)⟩

theorem updInj {n : Nat} {f : InjCh → InjCh} (h : s.SwitchFrame t) : s.SwitchFrame (t.updInj n f) :=
  ⟨h.mem, h.now, h.sys, h.d2dUp, h.drive, h.reg⟩

theorem updPwm {n : Nat} {f : Pwm → Pwm} (h : s.SwitchFrame t) : s.SwitchFrame (t.updPwm n f) :=
  ⟨h.mem, h.now, h.sys, h.d2dUp, h.drive, h.reg⟩

theorem launch {i j : Island} {b : Body} (h : s.SwitchFrame t) : s.SwitchFrame (t.launch i j b) :=
  ⟨h.mem, h.now, h.sys, h.d2dUp, h.drive, h.reg⟩

theorem useFree (h : s.SwitchFrame t) : s.SwitchFrame t.useFree := ⟨h.mem, h.now, h.sys, h.d2dUp, h.drive, h.reg⟩

theorem ite {c : Prop} [Decidable c] {u : State} (ht : s.SwitchFrame t) (hu : s.SwitchFrame u) :
    s.SwitchFrame (if c then t else u) := by
  split
  · exact ht
  · exact hu

theorem foldl {f : State → Nat → State} {l : List Nat} (h : s.SwitchFrame t)
    (hf : ∀ u n, n ∈ l → s.SwitchFrame u → s.SwitchFrame (f u n)) : s.SwitchFrame (l.foldl f t) :=
  List.foldlRecOn l f h fun u hu n hn => hf u n hn hu

theorem openInvalid {n : Nat} (hn : n < 12) (h : s.SwitchFrame t) : s.SwitchFrame (t.openInvalid n) :=
  .ite (h.setReg (switchReg_INJ_FST hn)).launch h

theorem setGates {n : Nat} {on : Bool} (h : s.SwitchFrame t) : s.SwitchFrame (t.setGates n on) :=
  .ite ((h.setReg (.inl rfl)).setReg (.inl rfl)) (h.setReg (.inl rfl))

theorem setLs {n : Nat} {on : Bool} (h : s.SwitchFrame t) : s.SwitchFrame (t.setLs n on) := h.setGates.updInj

theorem hsUpdate {b : Nat} (h : s.SwitchFrame t) : s.SwitchFrame (t.hsUpdate b) :=
  .ite ((h.setReg (.inl rfl)).foldl fun _ _ _ hu => .ite hu.setLs.updInj hu) (h.setReg (.inl rfl))

theorem pulseOff {n slot : Nat} {natural latch : Bool} (hn : n < 12) (h : s.SwitchFrame t) :
    s.SwitchFrame (t.pulseOff n slot natural latch) :=
  .hsUpdate (.ite (.setReg (.inl rfl) (h.openInvalid hn).setLs.updInj) (h.openInvalid hn).setLs.updInj)

theorem forceEnd {n cause : Nat} {latch : Bool} (hn : n < 12) (h : s.SwitchFrame t) :
    s.SwitchFrame (t.forceEnd n cause latch) :=
  .ite (h.launch.pulseOff hn) h.updInj

theorem dropWait {n kind cause : Nat} {st : InjSt} (h : s.SwitchFrame t) : s.SwitchFrame (t.dropWait n kind cause st) :=
  .ite (.setReg (.inl rfl) h.launch.updInj) h.launch.updInj

theorem injDisable {n : Nat} (hn : n < 12) (h : s.SwitchFrame t) : s.SwitchFrame (t.injDisable n) := by
  unfold State.injDisable
  extract_lets f
  have hf : s.SwitchFrame f.1 := h.useFree
  split
  · exact hf.dropWait
  iterate 5 exact hf.forceEnd hn
  all_goals exact h.updInj

theorem pwmBothOff {n : Nat} (h : s.SwitchFrame t) : s.SwitchFrame (t.pwmBothOff n) :=
  .updPwm (.ite h.updPwm.launch h.updPwm)

theorem pwmDisable {n : Nat} (h : s.SwitchFrame t) : s.SwitchFrame (t.pwmDisable n) := by
  unfold State.pwmDisable
  extract_lets p s1 s2 s3 s4
  have h1 : s.SwitchFrame s1 := h.pwmBothOff
  have h2 : s.SwitchFrame s2 := .ite (h1.setReg (switchReg_PWM_PER n)) h1
  have h3 : s.SwitchFrame s3 := .ite (h2.setReg (switchReg_PWM_DUT n)) h2
  have h4 : s.SwitchFrame s4 := .setReg (switchReg_PWM_CNT n) (.setReg (switchReg_PWM_CNT n) h3)
  exact h4.updPwm

theorem pwmSafe {n : Nat} (h : s.SwitchFrame t) : s.SwitchFrame (t.pwmSafe n) :=
  .ite (.launch (.setReg (.inr (.inr (.inl rfl))) (.updPwm (.setReg (switchReg_PWM_CNT n) h)))) h

theorem pwmLost (h : s.SwitchFrame t) : s.SwitchFrame t.pwmLost :=
  (h.foldl fun _ _ _ hu => .ite hu.pwmSafe hu).pwmBothOff.pwmBothOff

end State.SwitchFrame

/-! ### The course of a pulse -/

/-- What decides the course of channel `n`'s pulse: its state and its minimum-duration end. -/
def State.course (s : State) (n : Nat) : InjSt × Nat := ((s.injOf n).st, (s.injOf n).tmin)

theorem State.course_congr {s t : State} {n : Nat} (h : t.injOf n = s.injOf n) : t.course n = s.course n := by
  rw [State.course, h, State.course]

theorem State.st_of_course {s t : State} {n : Nat} (h : t.course n = s.course n) : (t.injOf n).st = (s.injOf n).st := by
  rw [State.course, State.course, Prod.mk.injEq] at h
  exact h.1

theorem State.tmin_of_course {s t : State} {n : Nat} (h : t.course n = s.course n) : (t.injOf n).tmin = (s.injOf n).tmin := by
  rw [State.course, State.course, Prod.mk.injEq] at h
  exact h.2

theorem State.injOf_updInj_same {s : State} {n : Nat} {f : InjCh → InjCh} (hn : n < 12) :
    (s.updInj n f).injOf n = f (s.injOf n) := vat_vupd_same _ f hn

theorem State.injOf_updInj_ne {s : State} {n k : Nat} {f : InjCh → InjCh} (h : k ≠ n) :
    (s.updInj n f).injOf k = s.injOf k := vat_vupd_ne _ f h

theorem State.course_updInj_ne {s : State} {n k : Nat} {f : InjCh → InjCh} (h : k ≠ n) :
    (s.updInj n f).course k = s.course k := State.course_congr (State.injOf_updInj_ne h)

/-- A change of a channel that keeps its state and its minimum-duration end keeps the course of every channel. -/
theorem State.course_updInj {s : State} {n k : Nat} {f : InjCh → InjCh} (hk : k < 12)
    (hf : ∀ c, (f c).st = c.st ∧ (f c).tmin = c.tmin) : (s.updInj n f).course k = s.course k := by
  by_cases h : k = n
  · subst h
    obtain ⟨hst, htmin⟩ := hf (s.injOf k)
    rw [State.course, State.injOf_updInj_same hk, hst, htmin, State.course]
  · exact State.course_updInj_ne h

theorem State.course_openInvalid (s : State) (n k : Nat) : (s.openInvalid n).course k = s.course k := by
  unfold State.openInvalid
  extract_lets
  split <;> rfl

theorem State.course_setGates (s : State) (n k : Nat) (on : Bool) : (s.setGates n on).course k = s.course k := by
  unfold State.setGates
  extract_lets
  split <;> rfl

theorem State.course_setLs (s : State) (n : Nat) (on : Bool) {k : Nat} (hk : k < 12) :
    (s.setLs n on).course k = s.course k := by
  rw [State.setLs, State.course_updInj hk fun c => by split <;> exact ⟨rfl, rfl⟩, State.course_setGates]

theorem State.course_hsUpdate (s : State) (b : Nat) {k : Nat} (hk : k < 12) : (s.hsUpdate b).course k = s.course k := by
  unfold State.hsUpdate
  extract_lets on s1
  split
  · refine List.foldlRecOn _ _ (motive := fun t : State => t.course k = s.course k) rfl fun t ht m _ => ?_
    split
    · exact (State.course_updInj (f := fun c => { c with shed := false }) hk fun _ => ⟨rfl, rfl⟩).trans
        ((State.course_setLs _ _ _ hk).trans ht)
    · exact ht
  · rfl

/-- The end of one pulse leaves every other channel's course alone. -/
theorem State.course_pulseOff_ne (s : State) {n k : Nat} (slot : Nat) (natural latch : Bool) (hk : k < 12) (h : k ≠ n) :
    (s.pulseOff n slot natural latch).course k = s.course k := by
  unfold State.pulseOff
  extract_lets s1
  have h1 : s1.course k = s.course k := by
    rw [State.course_updInj_ne h, State.course_setLs _ _ _ hk, State.course_openInvalid]
  rw [State.course_hsUpdate _ _ hk]
  split
  · exact h1
  · exact h1

theorem State.course_pulseOff (s : State) {n : Nat} (slot : Nat) (natural latch : Bool) (hn : n < 12) :
    ((s.pulseOff n slot natural latch).course n).1 = if latch then .latched else .decay := by
  unfold State.pulseOff
  extract_lets s1
  have h1 : (s1.course n).1 = if latch then .latched else .decay := by
    rw [State.course, State.injOf_updInj_same hn]
  have hshown : (if latch then s1.setBit INJ_STAT (16 + n) true else s1).course n = s1.course n := by split <;> rfl
  rw [State.course_hsUpdate _ _ hn, hshown, h1]

theorem State.pulsing_eq_of_course {s t : State} {n : Nat} (h : t.course n = s.course n) : t.pulsing n = s.pulsing n := by
  rw [State.pulsing, State.pulsing, State.st_of_course h]

/-! ### The loss at the high-voltage die (R31, R32) -/

/-- What the loss does to channel `n`: a pulse past its minimum-duration end is over and any other ends then; a start that
waits is off. -/
def State.lostTurn (t : State) (n : Nat) : State :=
  if t.pulsing n then
    (if (t.injOf n).tmin ≤ t.now then t.pulseOff n t.now false false
     else t.updInj n fun c => { c with endCmd := some (c.tmin - c.shift, false) })
  else if (t.injOf n).st == .waitb then t.updInj n fun c => { c with st := .off, armed := none, endCmd := none }
  else t.updInj n fun c => { c with armed := none }

/-- The channels after the loss, before the drive island notes it. -/
def State.lostChannels (s : State) : State := (List.range 12).foldl (fun t n => t.lostTurn n) s

theorem State.injLost_eq (s : State) :
    s.injLost = ({ s.lostChannels with drive := { s.lostChannels.drive with lost := true } } : State).alrt 31 false true := by
  simp only [State.injLost, State.lostChannels, State.lostTurn]

theorem State.SwitchFrame.lostTurn {s t : State} {n : Nat} (hn : n < 12) (h : s.SwitchFrame t) : s.SwitchFrame (t.lostTurn n) :=
  .ite (.ite (h.pulseOff hn) h.updInj) (.ite h.updInj h.updInj)

theorem State.SwitchFrame.lostChannels (s : State) : s.SwitchFrame s.lostChannels :=
  .foldl (.refl s) fun _ _ hn hu => hu.lostTurn (List.mem_range.mp hn)

theorem State.course_lostTurn_ne (t : State) {n k : Nat} (hk : k < 12) (h : k ≠ n) : (t.lostTurn n).course k = t.course k := by
  unfold State.lostTurn
  split
  · split
    · exact State.course_pulseOff_ne _ _ _ _ hk h
    · exact State.course_updInj_ne h
  · split
    · exact State.course_updInj_ne h
    · exact State.course_updInj_ne h

theorem State.pulsing_lostTurn {t : State} {n : Nat} (hn : n < 12) (hp : t.pulsing n = true) (ht : (t.injOf n).tmin ≤ t.now) :
    (t.lostTurn n).pulsing n = false := by
  have hst : ((t.lostTurn n).injOf n).st = .decay := by
    rw [State.lostTurn, if_pos hp, if_pos ht]
    exact t.course_pulseOff t.now false false hn
  rw [State.pulsing, hst]

theorem State.st_lostTurn_waitb {t : State} {n : Nat} (hn : n < 12) (hw : (t.injOf n).st = .waitb) :
    ((t.lostTurn n).injOf n).st = .off := by
  have hp : t.pulsing n = false := by rw [State.pulsing, hw]
  rw [State.lostTurn, if_neg (by simp [hp]), if_pos (by simp [hw]), State.injOf_updInj_same hn]

/-- What the loss makes of channel `n` is what its own turn makes of it. -/
theorem State.exists_lostTurn (s : State) {n : Nat} (hn : n < 12) :
    ∃ u : State, u.course n = s.course n ∧ u.now = s.now ∧ s.lostChannels.course n = (u.lostTurn n).course n := by
  obtain ⟨u, hu, hf⟩ := exists_turn_of_foldl (fun t => (t.course n, t.now)) (f := fun t n => t.lostTurn n) s
    (List.mem_range.mpr hn)
    List.nodup_range fun t m hm hmn => by
      rw [State.course_lostTurn_ne _ hn hmn.symm, (State.SwitchFrame.lostTurn (List.mem_range.mp hm) (.refl t)).now]
  obtain ⟨hc, hnow⟩ := Prod.mk.inj hu
  exact ⟨u, hc, hnow, (Prod.mk.inj hf).1⟩

theorem State.lostChannels_pulsing {s : State} {n : Nat} (hn : n < 12) (hp : s.pulsing n = true)
    (ht : (s.injOf n).tmin ≤ s.now) :
    s.lostChannels.pulsing n = false := by
  obtain ⟨u, hc, hnow, hl⟩ := s.exists_lostTurn hn
  rw [State.pulsing_eq_of_course hl]
  exact State.pulsing_lostTurn hn ((State.pulsing_eq_of_course hc).trans hp) (by rwa [State.tmin_of_course hc, hnow])

theorem State.lostChannels_waitb {s : State} {n : Nat} (hn : n < 12) (hw : (s.injOf n).st = .waitb) :
    (s.lostChannels.injOf n).st = .off := by
  obtain ⟨u, hc, -, hl⟩ := s.exists_lostTurn hn
  rw [State.st_of_course hl]
  exact State.st_lostTurn_waitb hn ((State.st_of_course hc).trans hw)

/-! ### The PWM pairs at the loss (R32, R404) -/

theorem State.pwmOf_updPwm_same {s : State} {n : Nat} {f : Pwm → Pwm} (hn : n < 10) :
    (s.updPwm n f).pwmOf n = f (s.pwmOf n) := vat_vupd_same _ f hn

theorem State.pwmOf_updPwm_ne {s : State} {n k : Nat} {f : Pwm → Pwm} (h : k ≠ n) :
    (s.updPwm n f).pwmOf k = s.pwmOf k := vat_vupd_ne _ f h

theorem State.reg_updPwm (s : State) (n : Nat) (f : Pwm → Pwm) (k : Nat) : (s.updPwm n f).reg k = s.reg k := rfl

theorem State.pwmOf_pwmLowOff (s : State) {n : Nat} (k : Nat) :
    (s.pwmLowOff n).pwmOf k = (s.updPwm n fun p => { p with l := false }).pwmOf k := by
  unfold State.pwmLowOff
  extract_lets
  split <;> rfl

theorem State.pwmOf_pwmBothOff_same (s : State) {n : Nat} (hn : n < 10) :
    ((s.pwmBothOff n).pwmOf n).h = false ∧ ((s.pwmBothOff n).pwmOf n).l = false := by
  rw [State.pwmBothOff, State.pwmOf_updPwm_same hn, State.pwmOf_pwmLowOff, State.pwmOf_updPwm_same hn]
  exact ⟨rfl, rfl⟩

theorem State.pwmOf_pwmBothOff_ne (s : State) {n k : Nat} (h : k ≠ n) : (s.pwmBothOff n).pwmOf k = s.pwmOf k := by
  rw [State.pwmBothOff, State.pwmOf_updPwm_ne h, State.pwmOf_pwmLowOff, State.pwmOf_updPwm_ne h]

theorem State.reg_pwmBothOff (s : State) (n k : Nat) : (s.pwmBothOff n).reg k = s.reg k := by
  unfold State.pwmBothOff State.pwmLowOff
  extract_lets
  split <;> rfl

theorem State.inj_pwmLost (s : State) : s.pwmLost.inj = s.inj := by
  have hboth : ∀ (t : State) (n : Nat), (t.pwmBothOff n).inj = t.inj := fun t n => by
    unfold State.pwmBothOff State.pwmLowOff
    extract_lets
    split <;> rfl
  rw [State.pwmLost, hboth, hboth]
  refine List.foldlRecOn _ _ (motive := fun t : State => t.inj = s.inj) rfl fun t ht n _ => ?_
  split
  · unfold State.pwmSafe
    split <;> exact ht
  · exact ht

theorem State.reg_pwmSafe_ne (s : State) {n k : Nat} (hk : k ≠ PWM_CNT n) (he : k ≠ PWM_EVT) :
    (s.pwmSafe n).reg k = s.reg k := by
  unfold State.pwmSafe
  split
  · rw [State.raise, State.reg_launch, State.reg_setBit_ne _ _ _ he, State.reg_updPwm, State.reg_setFld_ne _ _ _ hk]
  · rfl

theorem State.pwmSafe_safe {s : State} {n : Nat} (h : s.pwmOn n = true) : (s.pwmSafe n).fld (PWM_CNT n) PWM_CNT_SAFE = 1 := by
  have hcnt : (s.pwmSafe n).reg (PWM_CNT n) = (s.setFld (PWM_CNT n) PWM_CNT_SAFE 1).reg (PWM_CNT n) := by
    rw [State.pwmSafe, if_pos h, State.raise, State.reg_launch,
      State.reg_setBit_ne _ _ _ (by simp only [PWM_CNT, PWM_EVT]; omega),
      State.reg_updPwm]
  rw [State.fld, hcnt]
  exact State.fld_setFld_same _ _ _ _ (by decide)

/-- Each enabled pair among 0 to 7 is on its way to the safe state. -/
theorem State.pwmLost_safe {s : State} {n : Nat} (hn : n < 8) (h : s.pwmOn n = true) :
    s.pwmLost.fld (PWM_CNT n) PWM_CNT_SAFE = 1 := by
  obtain ⟨u, hu, hf⟩ := exists_turn_of_foldl (fun t => (t.reg (PWM_CNT n), t.reg PWM_APPLIED))
    (f := fun t m => if (255).testBit m then t.pwmSafe m else t) s (List.mem_range.mpr hn) List.nodup_range fun t m hm hmn => by
      split
      · rw [State.reg_pwmSafe_ne _ (by simp only [PWM_CNT]; omega) (by simp only [PWM_CNT, PWM_EVT]; omega),
          State.reg_pwmSafe_ne _ (by simp only [PWM_CNT, PWM_APPLIED]; omega) (by decide)]
      · rfl
  have hon : u.pwmOn n = true := by
    rw [State.pwmOn, State.bit, (Prod.mk.inj hu).2]
    exact h
  have hbit : (255).testBit n = true := by
    have : ∀ m, m < 8 → (255).testBit m = true := by decide
    exact this n hn
  have hcnt : s.pwmLost.reg (PWM_CNT n) = (u.pwmSafe n).reg (PWM_CNT n) := by
    rw [State.pwmLost, State.reg_pwmBothOff, State.reg_pwmBothOff, State.pwmSafeMask]
    simpa [hbit] using (Prod.mk.inj hf).1
  rw [State.fld, hcnt]
  exact State.pwmSafe_safe hon

theorem State.pwmLost_boost (s : State) {n : Nat} (hn : n = 8 ∨ n = 9) :
    (s.pwmLost.pwmOf n).h = false ∧ (s.pwmLost.pwmOf n).l = false := by
  rcases hn with rfl | rfl
  · rw [State.pwmLost, State.pwmOf_pwmBothOff_ne _ (by decide)]
    exact State.pwmOf_pwmBothOff_same _ (by decide)
  · exact State.pwmOf_pwmBothOff_same _ (by decide)

/-! ### ALRT_N (R385) -/

theorem State.alrt_shown (s : State) {cause : Nat} (isU isLink : Bool) (hc : cause < 32) :
    (s.alrt cause isU isLink).fld INJ_ALRT INJ_ALRT_LOW = 1
      ∧ (s.alrt cause isU isLink).fld INJ_ALRT INJ_ALRT_CAUSE = cause := by
  have hreg : ∃ w, (s.alrt cause isU isLink).reg INJ_ALRT = INJ_ALRT_CAUSE.set (INJ_ALRT_LOW.set w 1) cause := by
    refine ⟨s.reg INJ_ALRT, ?_⟩
    unfold State.alrt
    extract_lets s1
    rw [State.raise, State.reg_launch, State.reg_setBit_ne _ _ _ (by decide), State.reg_setFld_same, State.reg_setFld_same]
    rfl
  obtain ⟨w, hw⟩ := hreg
  rw [State.fld, State.fld, hw]
  constructor
  · rw [Fld.get_set_ne _ _ _ _ (by decide), Fld.get_set_same _ _ _ (by decide)]
    rfl
  · rw [Fld.get_set_same _ _ _ (by decide)]
    exact Nat.mod_eq_of_lt hc

theorem State.reg_alrt_ne (s : State) {cause k : Nat} (isU isLink : Bool) (hk : k ≠ INJ_ALRT) (he : k ≠ INJ_EVT) :
    (s.alrt cause isU isLink).reg k = s.reg k := by
  unfold State.alrt
  extract_lets s1
  rw [State.raise, State.reg_launch, State.reg_setBit_ne _ _ _ he, State.reg_setFld_ne _ _ _ hk, State.reg_setFld_ne _ _ _ hk]
  rfl

theorem State.injLost_frame (s : State) :
    s.injLost.inj = s.lostChannels.inj ∧ s.injLost.mem = s.lostChannels.mem ∧ s.injLost.drive.lost = true
      ∧ ∀ k, k ≠ INJ_ALRT → k ≠ INJ_EVT → s.injLost.reg k = s.lostChannels.reg k := by
  rw [State.injLost_eq]
  generalize s.lostChannels = c
  exact ⟨rfl, rfl, rfl, fun k hk he => State.reg_alrt_ne _ _ _ hk he⟩

/-- R32: the high-voltage die after its own declaration of the loss. -/
theorem State.hvLost_of_lost (s : State) : s.hvLost s.injLost.pwmLost := by
  have hframe : s.injLost.SwitchFrame s.injLost.pwmLost := .pwmLost (.refl _)
  have hchan : s.SwitchFrame s.lostChannels := .lostChannels s
  obtain ⟨hlinj, hlmem, hllost, hlreg⟩ := s.injLost_frame
  have hinj : ∀ n, s.injLost.pwmLost.injOf n = s.lostChannels.injOf n := fun n => by
    rw [State.injOf, State.inj_pwmLost, hlinj, State.injOf]
  have halrt : s.injLost.pwmLost.reg INJ_ALRT = s.injLost.reg INJ_ALRT := hframe.reg _ (by decide)
  refine ⟨?_, fun n hn hp ht => ?_, fun n hn hw => ?_, fun n hn hon => ?_, fun n hn => State.pwmLost_boost _ hn, ?_, ?_, ?_⟩
  · rw [hframe.drive, hllost]
  · rw [State.pulsing_eq_of_course (State.course_congr (hinj n))]
    exact State.lostChannels_pulsing hn hp ht
  · rw [hinj]
    exact State.lostChannels_waitb hn hw
  · refine State.pwmLost_safe hn ?_
    rw [State.pwmOn, State.bit, hlreg _ (by decide) (by decide), hchan.reg PWM_APPLIED (by decide)]
    exact hon
  · rw [State.fld, halrt, State.injLost_eq]
    exact (State.alrt_shown _ _ _ (by decide)).1
  · rw [State.fld, halrt, State.injLost_eq]
    exact (State.alrt_shown _ _ _ (by decide)).2
  · rw [hframe.mem, hlmem, hchan.mem]

/-! ### Frames and training (R30, R34) -/

theorem State.reg_goodFrame (s : State) (toHv : Bool) (k : Nat) : (s.goodFrame toHv).reg k = s.reg k := rfl

/-- R30, R31: a keep-alive frame that arrives whole over a trained link renews the time of the last good frame. -/
theorem keepalive_renews (s : State) (hv good : Bool) :
    ∃ t, exec (.keepalive hv good) s = .next t ∧ t = { s with sys := t.sys }
      ∧ t.sys.goodHv = (if s.d2dUp && good && hv then s.now else s.sys.goodHv)
      ∧ t.sys.goodLog = (if s.d2dUp && good && !hv then s.now else s.sys.goodLog) := by
  refine ⟨_, rfl, ?_⟩
  by_cases h : (s.d2dUp && good) = true
  · rw [if_pos h, h]
    cases hv <;> exact ⟨rfl, rfl, rfl⟩
  · rw [if_neg h, Bool.eq_false_iff.mpr h]
    exact ⟨rfl, rfl, rfl⟩

/-- R31, R32: the high-voltage die declares the loss. -/
theorem lossAtHv (s : State) (hl : s.drive.lost = false) (hm : s.sys.mode ≠ .sleep) :
    (s.sys.goodHv + 1024 ≤ s.now → ∃ t, exec .linkLossHv s = .next t ∧ s.hvLost t)
    ∧ (s.now < s.sys.goodHv + 1024 → exec .linkLossHv s = .next s)
    ∧ ∃ t, exec .referenceLoss s = .next t ∧ s.hvLost t := by
  have hmode : (s.sys.mode != .sleep) = true := by simpa using hm
  refine ⟨fun h => ⟨_, ?_, s.hvLost_of_lost⟩, fun h => ?_, ⟨_, ?_, s.hvLost_of_lost⟩⟩
  · change execLinkLossHv s = _
    rw [execLinkLossHv, if_pos (by simp [hl, hmode, State.frameLoss, h])]
  · change execLinkLossHv s = _
    rw [execLinkLossHv, if_neg (by simp [State.frameLoss, h])]
  · change execReferenceLoss s = _
    rw [execReferenceLoss, if_pos (by simp [hl, hmode])]

/-- The state in which training begins: the link is up and every enable bit is off (R34). -/
def State.trained (s : State) : State :=
  ((({ s with d2dUp := true, drive := { s.drive with lost := false } } : State).setFld INJ_CTRL INJ_CTRL_EN 0).setFld
    INJ_APPLIED INJ_APPLIED_EN 0).setFld PWM_CTRL PWM_CTRL_EN 0

/-- Training has also disabled the channels and pairs that were in force. -/
def State.disabledAll (s : State) : State :=
  (List.range 10).foldl (fun t n => if s.pwmOn n then t.pwmDisable n else t)
    ((List.range 12).foldl (fun t n => if s.bit INJ_APPLIED n then t.injDisable n else t) s.trained)

theorem State.SwitchFrame.disabledAll (s : State) : s.trained.SwitchFrame s.disabledAll :=
  .foldl (.foldl (.refl _) fun _ _ hn hu => .ite (hu.injDisable (List.mem_range.mp hn)) hu)
    fun _ _ _ hu => .ite hu.pwmDisable hu

theorem execLinkRetrain_eq {s : State} (hp : s.sys.por = false) (hr : s.sys.rst = false) (hm : s.sys.mode ≠ .sleep)
    (hl : s.linkOk = false) :
    exec .linkRetrain s = .next (((s.disabledAll.setFld PWM_APPLIED PWM_APPLIED_EN 0).goodFrame true).goodFrame false) := by
  change execLinkRetrain s = _
  rw [execLinkRetrain, if_neg (by simp [hp, hr, hl, hm])]
  rfl

/-- R34: training brings the link up with every injection channel and PWM pair disabled. -/
theorem linkRetrain_trains (s : State) (hp : s.sys.por = false) (hr : s.sys.rst = false) (hm : s.sys.mode ≠ .sleep)
    (hl : s.linkOk = false) :
    ∃ t, exec .linkRetrain s = .next t ∧ t.linkOk = true
      ∧ t.fld INJ_CTRL INJ_CTRL_EN = 0 ∧ t.fld INJ_APPLIED INJ_APPLIED_EN = 0 ∧ t.fld PWM_CTRL PWM_CTRL_EN = 0
      ∧ t.fld PWM_APPLIED PWM_APPLIED_EN = 0 ∧ t.sys.goodHv = s.now ∧ t.sys.goodLog = s.now ∧ t.mem = s.mem := by
  refine ⟨_, execLinkRetrain_eq hp hr hm hl, ?_⟩
  have hframe := State.SwitchFrame.disabledAll s
  have hzero : ∀ (w : Word) (f : Fld), f.lo + f.w ≤ 32 → f.get (f.set w 0) = 0 :=
    fun w f hf => by simp [Fld.get_set_same _ _ _ hf]
  have hinj : s.disabledAll.fld INJ_CTRL INJ_CTRL_EN = 0 := by
    rw [State.fld, hframe.reg _ (by decide), State.trained, State.reg_setFld_ne _ _ _ (by decide),
      State.reg_setFld_ne _ _ _ (by decide), State.reg_setFld_same]
    exact hzero _ _ (by decide)
  have happ : s.disabledAll.fld INJ_APPLIED INJ_APPLIED_EN = 0 := by
    rw [State.fld, hframe.reg _ (by decide), State.trained, State.reg_setFld_ne _ _ _ (by decide),
      State.reg_setFld_same]
    exact hzero _ _ (by decide)
  have hpwm : s.disabledAll.fld PWM_CTRL PWM_CTRL_EN = 0 := by
    rw [State.fld, hframe.reg _ (by decide), State.trained, State.reg_setFld_same]
    exact hzero _ _ (by decide)
  have hup : s.disabledAll.linkOk = true := by
    rw [State.linkOk, hframe.d2dUp, hframe.drive]
    rfl
  have hnow : s.disabledAll.now = s.now := hframe.now
  have hmem : s.disabledAll.mem = s.mem := hframe.mem
  generalize s.disabledAll = u at hinj happ hpwm hup hnow hmem
  refine ⟨hup, ?_, ?_, ?_, ?_, hnow, hnow, hmem⟩ <;> rw [State.fld, State.reg_goodFrame, State.reg_goodFrame]
  · rw [State.reg_setFld_ne _ _ _ (by decide)]
    exact hinj
  · rw [State.reg_setFld_ne _ _ _ (by decide)]
    exact happ
  · rw [State.reg_setFld_ne _ _ _ (by decide)]
    exact hpwm
  · rw [State.reg_setFld_same]
    exact hzero _ _ (by decide)

/-! ### What a retirement leaves alone (R177, R203, R209) -/

/-- The registers of CAL, AEN and QUE, in which a retirement leaves its counts, events, pending bits and its record. -/
abbrev retireReg (k : Nat) : Prop := (0x40070000 ≤ k ∧ k < 0x40090000) ∨ 0x40160000 ≤ k

/-- `t` is `s` as far as the released actions and the registers outside CAL, AEN and QUE go. -/
structure State.RetireFrame (s t : State) : Prop where
  stage : t.stage = s.stage
  reg : ∀ k, ¬ retireReg k → t.reg k = s.reg k

namespace State.RetireFrame

variable {s t : State}

theorem refl (s : State) : s.RetireFrame s := ⟨rfl, fun _ _ => rfl⟩

theorem setReg {k : Nat} {v : Word} (hk : retireReg k) (h : s.RetireFrame t) : s.RetireFrame (t.setReg k v) :=
  ⟨h.stage, fun j hj => (State.reg_setReg_ne _ _ (by rintro rfl; exact hj hk)).trans (h.reg j hj)⟩

theorem launch {i j : Island} {b : Body} (h : s.RetireFrame t) : s.RetireFrame (t.launch i j b) := ⟨h.stage, h.reg⟩

theorem raise {evt bit : Nat} (hk : retireReg evt) (h : s.RetireFrame t) : s.RetireFrame (t.raise evt bit) :=
  (h.setReg hk).launch

theorem count {k n : Nat} {f : Fld} (hk : retireReg k) (h : s.RetireFrame t) : s.RetireFrame (t.count k f n) := h.setReg hk

theorem ite {c : Prop} [Decidable c] {u : State} (ht : s.RetireFrame t) (hu : s.RetireFrame u) :
    s.RetireFrame (if c then t else u) := by
  split
  · exact ht
  · exact hu

theorem budDraw {acct : Option Nat} {r n : Nat} (h : s.RetireFrame t) : s.RetireFrame (t.budDraw acct r n) :=
  ⟨(State.budDraw_stage _ _ _ _).trans h.stage, fun k hk => (State.budDraw_reg _ _ _ _ _).trans (h.reg k hk)⟩

theorem wrBytes {a : Nat} {l : List Byte} (h : s.RetireFrame t) : s.RetireFrame (t.wrBytes a l) := by
  induction l generalizing a t with
  | nil => exact h
  | cons b l ih => exact ih (a := a + 1) (t := t.wr8 a b) ⟨h.stage, h.reg⟩

theorem setPend {n k : Nat} (hn : n < 64) (h : s.RetireFrame t) : s.RetireFrame (t.setPend n k) :=
  h.setReg (by simp only [retireReg, AEN_TSTAT]; omega)

theorem setPendWhere {k n : Nat} {p : Nat → Bool} (hn : n ≤ 64) (h : s.RetireFrame t) :
    s.RetireFrame (t.setPendWhere k p n) := by
  induction n with
  | zero => exact h
  | succ n ih => exact .ite ((ih (by omega)).setPend (by omega)) (ih (by omega))

theorem syncQueue {q : Nat} (h : s.RetireFrame t) : s.RetireFrame (t.syncQueue q) :=
  .ite h (List.foldlRecOn _ _ (motive := fun u : State => s.RetireFrame u) h fun _ hu _ _ => hu.setPendWhere (by omega))

theorem qRefuse {q : Nat} (h : s.RetireFrame t) : s.RetireFrame (t.qRefuse q) :=
  (h.count (by simp only [retireReg, QUE_QDROP]; omega)).raise (by decide)

theorem qput {q : Nat} {e : List Byte} (h : s.RetireFrame t) : s.RetireFrame (t.qput q e).1 := by
  unfold State.qput
  split
  · exact h.qRefuse
  · split
    · exact h.qRefuse
    · exact .syncQueue (.setReg (by simp only [retireReg, QUE_QCNT]; omega)
        (.setReg (by simp only [retireReg, QUE_QHEAD]; omega) h.wrBytes))

theorem putRecord {a : Action} {st dur : Nat} {start : Word} (h : s.RetireFrame t) :
    s.RetireFrame (t.putRecord a st start dur) := by
  unfold State.putRecord
  extract_lets r
  have hr : s.RetireFrame r.1 := h.budDraw.qput
  exact .ite (.ite hr ((hr.count (by decide)).raise (by decide))) h

theorem countStatus {st : Nat} (h : s.RetireFrame t) : s.RetireFrame (t.countStatus st) := by
  have hstep : ∀ f bit, s.RetireFrame ((t.count CAL_CNT0 f 1).raise CAL_EVT bit) := fun _ _ =>
    (h.count (by decide)).raise (by decide)
  exact .ite (hstep _ _) (.ite (hstep _ _) (.ite (hstep _ _) h))

end State.RetireFrame

/-- A retired action is no longer among the released ones; every other action is. -/
theorem State.retire_frame (s : State) (a : Action) (st : Nat) (start : Word) (dur : Nat) :
    (s.retire a st start dur).stage = s.stage.filter (fun b => b.idx != a.idx)
      ∧ ∀ k, ¬ retireReg k → (s.retire a st start dur).reg k = s.reg k := by
  unfold State.retire
  extract_lets s1 s2 s3 s4
  have h2 : s1.RetireFrame s2 := .countStatus (.setReg (by decide) (.refl s1))
  have h3 : s1.RetireFrame s3 := .ite (h2.raise (by decide)) h2
  have h4 : s1.RetireFrame s4 := by
    unfold s4
    split
    · next h => exact h3.setPend h.1
    · exact h3
  exact ⟨h4.putRecord.stage, h4.putRecord.reg⟩

/-! ### Link loss at the angle island (R33) -/

/-- The loop of `retirePending`, over any actions: those that satisfy `p` and are pending retire. -/
def State.retireEach (p : Action → Bool) (st : Nat) (l : List Action) (t : State) : State :=
  l.foldl (fun t a => if p a && (a.place == .waiting || a.place == .held) then t.retire a st 0 0 else t) t

/-- A pending action that satisfies `p` is gone once the loop has come to it. -/
theorem State.retireEach_frame (p : Action → Bool) (st : Nat) (l : List Action) (t : State) :
    (∀ a ∈ (State.retireEach p st l t).stage,
      a ∈ t.stage ∧ (a ∈ l → ¬ (p a && (a.place == .waiting || a.place == .held)) = true))
    ∧ ∀ k, ¬ retireReg k → (State.retireEach p st l t).reg k = t.reg k := by
  induction l generalizing t with
  | nil => exact ⟨fun a ha => ⟨ha, by simp⟩, fun _ _ => rfl⟩
  | cons b l ih =>
    rw [State.retireEach, List.foldl_cons, ← State.retireEach]
    split
    · obtain ⟨hstage, hreg⟩ := t.retire_frame b st 0 0
      obtain ⟨ihstage, ihreg⟩ := ih (t.retire b st 0 0)
      refine ⟨fun a ha => ?_, fun k hk => (ihreg k hk).trans (hreg k hk)⟩
      obtain ⟨hat, hal⟩ := ihstage a ha
      rw [hstage, List.mem_filter] at hat
      refine ⟨hat.1, fun hab => ?_⟩
      rcases List.mem_cons.mp hab with rfl | hal'
      · simp at hat
      · exact hal hal'
    · next hb =>
      obtain ⟨ihstage, ihreg⟩ := ih t
      refine ⟨fun a ha => ?_, ihreg⟩
      obtain ⟨hat, hal⟩ := ihstage a ha
      refine ⟨hat, fun hab => ?_⟩
      rcases List.mem_cons.mp hab with rfl | hal'
      · exact hb
      · exact hal hal'

theorem State.retirePending_frame (s : State) (p : Action → Bool) (st : Nat) :
    (∀ a ∈ (s.retirePending p st).stage, ¬ (p a && (a.place == .waiting || a.place == .held)) = true)
    ∧ ∀ k, ¬ retireReg k → (s.retirePending p st).reg k = s.reg k := by
  obtain ⟨hstage, hreg⟩ := State.retireEach_frame p st (s.stage ++ s.calq) s
  refine ⟨fun a ha => ?_, hreg⟩
  obtain ⟨hs, hp⟩ := hstage a ha
  exact hp (List.mem_append_left _ hs)

/-! ### Link loss at the angle island (R33) -/

/-- An action ends without a command to the drive island. -/
def Action.EndsLocally (a : Action) : Prop := a.place = .ending ∧ a.endLocal = true

/-- What the loss at time `now` does to a released action: an injection pulse past its minimum-duration end retires, any other
ends by itself. -/
def State.lossTurn (now : Nat) (t : State) (a : Action) : State :=
  if a.kind == kINJ && (a.place == .active || a.place == .ending) then
    let t1 := t.setBit OUT_ACTI a.chan false
    if a.tmin ≤ now then (t1.updOut a.chan fun c => { c with lastEnd := some now }).retire a stCANCELLED a.startW (now - a.ts)
    else t1.updStage a.idx fun b => { b with place := .ending, endSt := stCANCELLED, endLocal := true }
  else t

/-- The state in which the loss comes to the pulses: injection is disabled and its pending actions are retired (R33). -/
def State.lossBegun (s : State) : State := (s.setReg OUT_ENI 0).retirePending (fun a => a.kind == kINJ) stCANCELLED

theorem State.injLinkLoss_eq (s : State) :
    s.injLinkLoss = s.lossBegun.stage.foldl (fun t a => t.lossTurn s.now a) s.lossBegun := by
  simp only [State.injLinkLoss, State.lossBegun, State.lossTurn]

/-- After its turn an injection pulse is gone or ends by itself. -/
theorem State.mem_lossTurn_stage {now : Nat} {t : State} {a b : Action} (hb : b ∈ (t.lossTurn now a).stage) :
    b.EndsLocally ∨ (b ∈ t.stage ∧ (b = a → ¬ (a.kind == kINJ && (a.place == .active || a.place == .ending)) = true)) := by
  unfold State.lossTurn at hb
  extract_lets t1 at hb
  split at hb
  · split at hb
    · rw [(State.retire_frame ..).1, List.mem_filter] at hb
      obtain ⟨hmem, hidx⟩ := hb
      exact .inr ⟨hmem, by rintro rfl; simp at hidx⟩
    · rw [State.updStage, List.mem_map] at hb
      obtain ⟨c, hc, hcb⟩ := hb
      split at hcb
      · subst hcb
        exact .inl ⟨rfl, rfl⟩
      · next hne =>
        subst hcb
        exact .inr ⟨hc, fun h => absurd (congrArg Action.idx h) hne⟩
  · next hp => exact .inr ⟨hb, fun _ => hp⟩

theorem State.reg_updOut (s : State) (c : Nat) (f : OutCh → OutCh) (k : Nat) : (s.updOut c f).reg k = s.reg k := by
  simp only [State.reg, State.updOut]

theorem State.reg_updStage (s : State) (i : Nat) (f : Action → Action) (k : Nat) : (s.updStage i f).reg k = s.reg k := rfl

theorem State.reg_lossTurn (now : Nat) (t : State) (a : Action) {k : Nat} (hk : ¬ retireReg k) (ho : k ≠ OUT_ACTI) :
    (t.lossTurn now a).reg k = t.reg k := by
  unfold State.lossTurn
  extract_lets t1
  have h1 : t1.reg k = t.reg k := State.reg_setBit_ne _ _ _ ho
  split
  · split
    · rw [(State.retire_frame ..).2 k hk, State.reg_updOut, h1]
    · rw [State.reg_updStage, h1]
  · rfl

/-- The loop leaves no injection pulse that needs a command to end, where it comes to every one that does not end by itself. -/
theorem State.lossTurns_endLocally (now : Nat) (l : List Action) (t : State)
    (ht : ∀ b ∈ t.stage, b.kind = kINJ → b.EndsLocally ∨ b ∈ l)
    (hl : ∀ a ∈ l, a.kind = kINJ → (a.place == .active || a.place == .ending) = true) :
    ∀ b ∈ (l.foldl (fun t a => t.lossTurn now a) t).stage, b.kind = kINJ → b.EndsLocally := by
  induction l generalizing t with
  | nil => exact fun b hb hk => (ht b hb hk).resolve_right (by simp)
  | cons a l ih =>
    rw [List.foldl_cons]
    refine ih _ (fun b hb hk => ?_) fun c hc => hl c (List.mem_cons_of_mem _ hc)
    rcases State.mem_lossTurn_stage hb with hlocal | ⟨hbt, hba⟩
    · exact .inl hlocal
    · refine (ht b hbt hk).imp_right fun hmem => (List.mem_cons.mp hmem).resolve_left ?_
      rintro rfl
      exact hba rfl (by simp [hk, hl b List.mem_cons_self hk])

theorem State.injLinkLoss_spec (s : State) :
    (∀ a ∈ s.injLinkLoss.stage, a.kind = kINJ → a.EndsLocally) ∧ s.injLinkLoss.reg OUT_ENI = 0 := by
  obtain ⟨hstage, hreg⟩ := (s.setReg OUT_ENI 0).retirePending_frame (fun a => a.kind == kINJ) stCANCELLED
  rw [State.injLinkLoss_eq]
  constructor
  · refine State.lossTurns_endLocally _ _ _ (fun b hb _ => .inr hb) fun a ha hk => ?_
    have hplace := hstage a ha
    cases hp : a.place with
    | waiting | held => exact absurd (by simp [hk, hp]) hplace
    | active | ending => rfl
  · refine List.foldlRecOn _ _ (motive := fun t : State => t.reg OUT_ENI = 0) ?_ fun t ht a _ => ?_
    · exact (hreg _ (by decide)).trans (State.reg_setReg_same _ _ _)
    · exact (State.reg_lossTurn _ _ _ (by decide) (by decide)).trans ht

/-- R31, R33: the logic die declares the loss of the link. -/
theorem linkloss_declared (s : State) (hup : s.d2dUp = true) (hm : s.sys.mode ≠ .sleep) (ht : s.sys.goodLog + 1024 ≤ s.now) :
    ∃ t, exec .linkloss s = .next t ∧ t.d2dUp = false ∧ t.reg OUT_ENI = 0 ∧ faultItem blkD2D 0 0x10 clsU 0 ∈ t.inflight
      ∧ ∀ a ∈ t.stage, a.kind = 0 → a.place = .ending ∧ a.endLocal = true := by
  obtain ⟨hstage, heni⟩ := s.injLinkLoss_spec
  refine ⟨({ s.injLinkLoss with d2dUp := false } : State).sendFault blkD2D 0 0x10 clsU 0, ?_, rfl, heni, ?_, hstage⟩
  · change execLinkloss s = _
    rw [execLinkloss, if_pos (by simp [hup, State.frameLoss, hm, ht])]
  · exact List.mem_append_right _ List.mem_cons_self

end Sys2Proof.Machine

open Sys2Proof.Machine

/-- Settles O19: each command is run on its own, the pulses and the released actions one turn of a loop after the other. -/
theorem crossingsAndLink : Obligations.CrossingsAndLink :=
  ⟨⟨crossingDelivery_hwEvent, crossing_faults, crossing_empty⟩,
    keepalive_renews, lossAtHv, linkloss_declared, linkRetrain_trains⟩

end

section
/-! PROOFS. Budget frames: their pulses, the refill of the meters, the release of stalled threads, overrun reports, and the
command registers of BUD (R29, R503 to R506, R509). -/

namespace Sys2Proof.Machine

/-! ### Frame pulses leave (R29) -/

/-- Items launched in a row stand behind every earlier item, in their order. -/
theorem State.foldl_launch (s : State) (src : Island) (b : Body) (l : List Island) :
    l.foldl (fun t i => t.launch src i b) s = { s with inflight := s.inflight ++ l.map fun i => ⟨src, i, b⟩ } := by
  induction l generalizing s with
  | nil => simp
  | cons i l ih => rw [List.foldl_cons, ih, List.map_cons, State.launch_inflight, List.append_assoc, List.singleton_append]; rfl

/-- The islands the budget frame pulse serves: the drive island across the die-to-die link. -/
def State.pulseDests (s : State) : List Island :=
  [.fabric, .angle, .link, .converter, .guard, .combustion] ++ if s.linkOk then [.drive] else []

/-- R29: the budget frame pulse leaves 4,096 fabric clocks after the last one, and not before. -/
theorem budgetFramePulse_leaves (s : State) (hm : s.sys.mode ≠ .sleep) :
    (s.fabric.pulseAt + 4096 ≤ s.now → ∃ t, exec .budgetFramePulse s = .next t
      ∧ t.fabric.pulseAt = s.now ∧ t.regs = s.regs ∧ t.mem = s.mem
      ∧ t.inflight = s.inflight ++ s.pulseDests.map fun i => ⟨Island.fabric, i, .pulse⟩)
    ∧ (s.now < s.fabric.pulseAt + 4096 → exec .budgetFramePulse s = .next s) := by
  refine ⟨fun h => ⟨s.pulseDests.foldl (fun t i => t.launch .fabric i .pulse)
    (s.updFabric fun x => { x with pulseAt := s.now }), ?_, ?_⟩, fun h => ?_⟩
  · change execBudgetFramePulse s = _
    rw [execBudgetFramePulse, if_pos (by simp [hm, h])]
    rfl
  · rw [State.foldl_launch]
    exact ⟨rfl, rfl, rfl, rfl⟩
  · change execBudgetFramePulse s = _
    rw [execBudgetFramePulse, if_neg (by simp [h])]

/-! ### A frame closes at a meter (R503, R504) -/

theorem State.reg_monitorPeak_ne (s : State) (i : Island) {k : Nat} (hk : k ≠ BUD_MONPEAK) :
    (s.monitorPeak i).reg k = s.reg k := by
  unfold State.monitorPeak
  extract_lets r u
  split
  · exact State.reg_setFld_ne _ _ _ hk
  · rfl

theorem State.meters_monitorPeak (s : State) (i : Island) : (s.monitorPeak i).meters = s.meters := by
  unfold State.monitorPeak
  extract_lets r u
  split <;> rfl

theorem State.mem_monitorPeak (s : State) (i : Island) : (s.monitorPeak i).mem = s.mem := by
  unfold State.monitorPeak
  extract_lets r u
  split <;> rfl

/-- The state whose meters an island refills at the close of a frame: its report is on the way. -/
def State.frameReported (s : State) (i : Island) : State :=
  (s.monitorPeak i).launch i .guard
    (.budReport (vat s.frameNo (islandCode i)) ((List.range 48).filterMap fun a => s.overrunOf i a))

theorem State.closeFrame_eq (s : State) (i : Island) :
    s.closeFrame i = { (s.frameReported i).refillMeters i with
      frameNo := vset ((s.frameReported i).refillMeters i).frameNo (islandCode i) (vat s.frameNo (islandCode i) + 1) } := rfl

theorem State.reg_closeFrame_ne (s : State) (i : Island) {k : Nat} (hk : k ≠ BUD_MONPEAK) :
    (s.closeFrame i).reg k = s.reg k := by
  have h : (s.closeFrame i).reg k = (s.monitorPeak i).reg k := by
    simp only [State.reg, State.closeFrame, State.refillMeters, State.launch_regs]
  rw [h, State.reg_monitorPeak_ne _ _ hk]

theorem State.mem_closeFrame (s : State) (i : Island) : (s.closeFrame i).mem = s.mem := by
  have h : (s.closeFrame i).mem = (s.monitorPeak i).mem := by simp only [State.closeFrame, State.refillMeters, State.launch_mem]
  rw [h, State.mem_monitorPeak]

/-- What a meter is refilled to does not depend on the peak shown. -/
theorem State.refilled_congr {s t : State} (a r : Nat) (h : ∀ k, k ≠ BUD_MONPEAK → t.reg k = s.reg k) :
    t.refilled a r = s.refilled a r := by
  have hcfg := h (BUD_ACFG a) (by simp only [BUD_ACFG, BUD_MONPEAK]; omega)
  have hlim := h (BUD_LIM a r) (by simp only [BUD_LIM, BUD_MONPEAK]; omega)
  rw [State.refilled, State.refilled]
  simp only [State.fld, hcfg, hlim]
  rfl

theorem State.meter_closeFrame (s : State) (i : Island) {a r : Nat} (ha : a < 48) (hr : r < 5) :
    (s.closeFrame i).meter a r = if meterIsland r = i then s.refilled a r else s.meter a r := by
  have hlt : 5 * a + r < 240 := by omega
  have hmod : (5 * a + r) % 5 = r := by omega
  have hdiv : (5 * a + r) / 5 = a := by omega
  have hmeters : (s.frameReported i).meters = s.meters := s.meters_monitorPeak i
  have hfill : (s.frameReported i).refilled a r = s.refilled a r :=
    State.refilled_congr a r fun k hk => s.reg_monitorPeak_ne i hk
  rw [State.closeFrame_eq, State.meter, vat_lt _ hlt, State.meter, vat_lt _ hlt]
  simp only [State.refillMeters, Vector.getElem_ofFn, hmod, hdiv, hfill, hmeters]
  rfl

/-! ### Stalled threads are released (R258, R273) -/

theorem State.reg_aenShow_ne (s : State) {k : Nat} (hk : k ≠ AEN_STAT) : s.aenShow.reg k = s.reg k := by
  rw [State.aenShow, State.reg_setFld_ne _ _ _ hk, State.reg_setFld_ne _ _ _ hk, State.reg_setFld_ne _ _ _ hk,
    State.reg_setFld_ne _ _ _ hk]

theorem State.reg_setTh_ne (s : State) {n st k : Nat} (hk : k ≠ AEN_TSTAT n) (hs : k ≠ AEN_STAT) :
    (s.setTh n st).reg k = s.reg k := by
  unfold State.setTh
  extract_lets s1
  have h1 : s1.reg k = s.reg k := State.reg_setFld_ne _ _ _ hk
  rw [State.reg_aenShow_ne _ hs]
  split
  · exact h1
  · rw [State.reg_setFld_ne _ _ _ hk, h1]

/-- A thread that leaves its wait has the new state, no kind of wait, and its other fields. -/
theorem State.reg_setTh_same (s : State) (n : Nat) {st : Nat} (h : st ≠ thWAIT) :
    (s.setTh n st).reg (AEN_TSTAT n) = AEN_TSTAT_WKIND.set (AEN_TSTAT_STATE.set (s.reg (AEN_TSTAT n)) st) 0 := by
  unfold State.setTh
  extract_lets s1
  have h1 : s1.reg (AEN_TSTAT n) = AEN_TSTAT_STATE.set (s.reg (AEN_TSTAT n)) st := State.reg_setFld_same _ _ _ _
  rw [State.reg_aenShow_ne _ (by simp only [AEN_TSTAT, AEN_STAT]; omega), if_neg h, State.reg_setFld_same, h1]

theorem State.thState_setTh_same (s : State) (n : Nat) {st : Nat} (h : st ≠ thWAIT) (hst : st < 8) :
    (s.setTh n st).thState n = st := by
  rw [State.thState, State.fld, State.reg_setTh_same _ _ h, Fld.get_set_ne _ _ _ _ (by decide),
    Fld.get_set_same _ _ _ (by decide)]
  exact Nat.mod_eq_of_lt hst

theorem State.pend_setTh_same (s : State) (n : Nat) {st : Nat} (h : st ≠ thWAIT) : (s.setTh n st).pend n = s.pend n := by
  rw [State.pend, State.fld, State.reg_setTh_same _ _ h, Fld.get_set_ne _ _ _ _ (by decide), Fld.get_set_ne _ _ _ _ (by decide)]
  rfl

theorem State.RegsDiffer.setPend (s : State) (n k : Nat) : s.RegsDiffer (s.setPend n k) := setReg s _ _

theorem State.RegsDiffer.setTh (s : State) (n st : Nat) : s.RegsDiffer (s.setTh n st) := by
  have hshow : ∀ t : State, t.RegsDiffer t.aenShow := fun t =>
    (((RegsDiffer.setReg t _ _).trans (.setReg _ _ _)).trans (.setReg _ _ _)).trans (.setReg _ _ _)
  unfold State.setTh
  extract_lets s1
  have h1 : s.RegsDiffer s1 := .setReg s _ _
  refine RegsDiffer.trans ?_ (hshow _)
  split
  · exact h1
  · exact h1.trans (.setReg _ _ _)

/-- What the frame pulse does to thread `n`. -/
def State.releaseTurn (t : State) (n : Nat) : State :=
  let u := t.updThr n fun x => { x with counted := false }
  if u.thState n = thSTALL then (u.setPend n pdBUDGET).setTh n thREADY else u

theorem State.releaseStalled_eq (s : State) :
    s.releaseStalled = ((List.range 64).foldl (fun t n => t.releaseTurn n) s).hwEvent 0x48 := by
  simp only [State.releaseStalled, State.releaseTurn]

theorem State.thState_updThr (s : State) (n m : Nat) (f : ThreadSt → ThreadSt) : (s.updThr n f).thState m = s.thState m := by
  rw [State.thState, State.fld, State.reg_updThr, ← State.fld, ← State.thState]

theorem State.releaseTurn_of_stall {t : State} {n : Nat} (h : t.thState n = thSTALL) :
    (t.releaseTurn n).thState n = thREADY ∧ ((t.releaseTurn n).pend n).testBit pdBUDGET = true := by
  rw [State.releaseTurn, State.thState_updThr, if_pos h]
  refine ⟨State.thState_setTh_same _ _ (by decide) (by decide), ?_⟩
  rw [State.pend_setTh_same _ _ (by decide), State.testBit_pend_setPend _ _ _ (by decide) (by decide)]
  simp

theorem State.releaseTurn_of_not_stall {t : State} {n : Nat} (h : t.thState n ≠ thSTALL) :
    (t.releaseTurn n).thState n = t.thState n := by
  rw [State.releaseTurn, State.thState_updThr, if_neg h, State.thState_updThr]

theorem State.reg_releaseTurn_ne (t : State) {n k : Nat} (hk : k ≠ AEN_TSTAT n) (hs : k ≠ AEN_STAT) :
    (t.releaseTurn n).reg k = t.reg k := by
  unfold State.releaseTurn
  extract_lets u
  have hu : u.reg k = t.reg k := State.reg_updThr _ _ _ _
  split
  · rw [State.reg_setTh_ne _ hk hs, State.setPend, State.reg_setBit_ne _ _ _ hk, hu]
  · exact hu

theorem State.releaseTurn_frame (t : State) (n : Nat) :
    (t.releaseTurn n).meters = t.meters ∧ (t.releaseTurn n).mem = t.mem := by
  unfold State.releaseTurn
  extract_lets u
  have hu : u.meters = t.meters ∧ u.mem = t.mem := ⟨State.updThr_meters _ _ _, State.updThr_mem _ _ _⟩
  clear_value u
  split
  · rw [(RegsDiffer.setPend u n pdBUDGET).trans (RegsDiffer.setTh _ n thREADY)]
    exact hu
  · exact hu

/-- What the frame pulse makes of thread `n` is what its own turn makes of it. -/
theorem State.exists_releaseTurn (s : State) (n : Fin 64) :
    ∃ u : State, u.thState n = s.thState n ∧ s.releaseStalled.thState n = (u.releaseTurn n).thState n
      ∧ ∀ b, b < 16 → ((u.releaseTurn n).pend n).testBit b = true → (s.releaseStalled.pend n).testBit b = true := by
  obtain ⟨u, hu, hf⟩ := exists_turn_of_foldl (fun t => t.reg (AEN_TSTAT n)) (f := fun t m => t.releaseTurn m) s
    (List.mem_range.mpr n.isLt) List.nodup_range fun t m _ hmn =>
      State.reg_releaseTurn_ne _ (by simp only [AEN_TSTAT]; omega) (by simp only [AEN_TSTAT, AEN_STAT]; omega)
  refine ⟨u, ?_, ?_, fun b hb h => ?_⟩
  · rw [State.thState, State.fld, hu, ← State.fld, ← State.thState]
  · rw [State.releaseStalled_eq, State.thState_hwEvent, State.thState, State.fld, hf, ← State.fld, ← State.thState]
  · rw [State.releaseStalled_eq, State.testBit_pend_hwEvent _ _ _ hb, State.testBit_pend _ _ hb, hf,
      ← State.testBit_pend _ _ hb, h, Bool.true_or]

theorem State.releaseStalled_frame (s : State) : s.releaseStalled.meters = s.meters ∧ s.releaseStalled.mem = s.mem := by
  rw [State.releaseStalled_eq, RegsDiffer.hwEvent]
  exact List.foldlRecOn _ _ (motive := fun t : State => t.meters = s.meters ∧ t.mem = s.mem) ⟨rfl, rfl⟩ fun t ht n _ =>
    ⟨(t.releaseTurn_frame n).1.trans ht.1, (t.releaseTurn_frame n).2.trans ht.2⟩

/-- R503, R504, R273: the frame pulse arrives at the angle island's meter. -/
theorem framePulse_atAngle (s : State) (h : s.nextItem .fabric .angle = some .pulse) :
    ∃ t, exec (.framePulseAtMeter .angle) s = .next t
      ∧ (∀ a, a < 48 → t.meter a 1 = s.refilled a 1) ∧ (∀ a r, a < 48 → r < 5 → r ≠ 1 → t.meter a r = s.meter a r)
      ∧ (∀ n : Fin 64, s.thState n = 3 → t.thState n = 1 ∧ (t.pend n).testBit 3 = true)
      ∧ (∀ n : Fin 64, s.thState n ≠ 3 → t.thState n = s.thState n) ∧ t.mem = s.mem := by
  let u : State := { s with inflight := dropFirstItem .fabric .angle s.inflight }
  have hstate : ∀ n, (u.closeFrame .angle).thState n = s.thState n := fun n => by
    rw [State.thState, State.fld, State.reg_closeFrame_ne _ _ (by simp only [AEN_TSTAT, BUD_MONPEAK]; omega)]
    rfl
  have hmeter : ∀ a r, a < 48 → r < 5 → (u.closeFrame .angle).releaseStalled.meter a r
      = if meterIsland r = .angle then s.refilled a r else s.meter a r := fun a r ha hr => by
    rw [State.meter, (State.releaseStalled_frame _).1, ← State.meter, State.meter_closeFrame _ _ ha hr]
    rfl
  refine ⟨(u.closeFrame .angle).releaseStalled, ?_, fun a ha => ?_, fun a r ha hr hr1 => ?_, fun n hn => ?_, fun n hn => ?_, ?_⟩
  · change execFramePulseAtMeter .angle s = _
    rw [execFramePulseAtMeter, h]
    change Host.Outcome.next ((s.ackItem .fabric .angle).closeFrame .angle).releaseStalled = _
    rw [State.ackItem_eq (by decide) (by decide)]
  · rw [hmeter a 1 ha (by decide), if_pos (by decide)]
  · rw [hmeter a r ha hr, if_neg]
    obtain rfl | rfl | rfl | rfl : r = 0 ∨ r = 2 ∨ r = 3 ∨ r = 4 := by omega
    all_goals decide
  · obtain ⟨v, hv, hst, hpend⟩ := (u.closeFrame .angle).exists_releaseTurn n
    obtain ⟨hready, hbit⟩ := State.releaseTurn_of_stall (hv.trans ((hstate n).trans hn))
    exact ⟨hst.trans hready, hpend 3 (by decide) hbit⟩
  · obtain ⟨v, hv, hst, -⟩ := (u.closeFrame .angle).exists_releaseTurn n
    have hvn : v.thState n = s.thState n := hv.trans (hstate n)
    rw [hst, State.releaseTurn_of_not_stall (by rw [hvn]; exact hn), hvn]
  · rw [(State.releaseStalled_frame _).2, State.mem_closeFrame]

/-! ### Overrun reports (R505, R506) -/

theorem capAt_eq_min (top n : Nat) : capAt top n = min top n := by
  rw [capAt]
  split <;> omega

/-- A counting field steps up and stays at its largest value. -/
theorem State.fld_count (s : State) (k n : Nat) (f : Fld) (h : f.lo + f.w ≤ 32) :
    (s.count k f n).fld k f = min (2 ^ f.w - 1) (s.fld k f + n) := by
  rw [State.count, State.fld_setFld_same _ _ _ _ h, capAt_eq_min]
  have hpos : 0 < 2 ^ f.w := Nat.two_pow_pos _
  exact Nat.mod_eq_of_lt (by omega)

theorem State.fld_count_ne (s : State) (k n : Nat) (f g : Fld) (h : f.lo + f.w ≤ g.lo ∨ g.lo + g.w ≤ f.lo) :
    (s.count k f n).fld k g = s.fld k g := State.fld_setFld_ne _ _ _ _ _ h

/-- The register of the overrun summary that holds the bit of an account. -/
def ovrSum (a : Nat) : Nat := if a < 32 then BUD_OVRSUM0 else BUD_OVRSUM1

theorem ovrSum_ne {a k : Nat} (h0 : k ≠ BUD_OVRSUM0) (h1 : k ≠ BUD_OVRSUM1) : k ≠ ovrSum a := by
  rw [ovrSum]
  split
  · exact h0
  · exact h1

/-- The counts of an account after its first overrun in a frame. -/
def State.overrunCounted (s : State) (a res : Nat) : State :=
  ((s.count (BUD_OVR a) BUD_OVR_FRAMES 1).count (BUD_OVR a) BUD_OVR_RUN 1).setFld (BUD_OVR a) BUD_OVR_RES res

theorem State.overrunCounted_frames (s : State) (a res : Nat) :
    (s.overrunCounted a res).fld (BUD_OVR a) BUD_OVR_FRAMES
      = min (2 ^ BUD_OVR_FRAMES.w - 1) (s.fld (BUD_OVR a) BUD_OVR_FRAMES + 1) := by
  rw [State.overrunCounted, State.fld_setFld_ne _ _ _ _ _ (by decide), State.fld_count_ne _ _ _ _ _ (by decide),
    State.fld_count _ _ _ _ (by decide)]

theorem State.overrunCounted_run (s : State) (a res : Nat) :
    (s.overrunCounted a res).fld (BUD_OVR a) BUD_OVR_RUN = min (2 ^ BUD_OVR_RUN.w - 1) (s.fld (BUD_OVR a) BUD_OVR_RUN + 1) := by
  rw [State.overrunCounted, State.fld_setFld_ne _ _ _ _ _ (by decide), State.fld_count _ _ _ _ (by decide),
    State.fld_count_ne _ _ _ _ _ (by decide)]

theorem State.reg_overrunCounted_ne (s : State) {a k : Nat} (res : Nat) (hk : k ≠ BUD_OVR a) :
    (s.overrunCounted a res).reg k = s.reg k := by
  rw [State.overrunCounted, State.reg_setFld_ne _ _ _ hk, State.count, State.reg_setFld_ne _ _ _ hk, State.count,
    State.reg_setFld_ne _ _ _ hk]

/-- The state in which an account's first overrun of a frame is counted and noted, before the report of a persistent one. -/
def State.overrunNoted (s : State) (a res : Nat) (enf : Bool) : State :=
  let t := ((s.raise BUD_EVT (if enf then BUD_EVT_OVR else BUD_EVT_WATCH)).overrunCounted a res).setBit (ovrSum a) (a % 32) true
  { t with budFrame := { s.budFrame with overs := (a, res) :: s.budFrame.overs } }

/-- A first overrun in a frame is counted and noted; a persistent one is reported as well. -/
theorem State.countOverrun_cases {s : State} {a : Nat} (res : Nat) (enf : Bool) (h : ∀ p ∈ s.budFrame.overs, p.1 ≠ a) :
    s.countOverrun a res enf = s.overrunNoted a res enf
      ∨ s.countOverrun a res enf = ((s.overrunNoted a res enf).raise BUD_EVT BUD_EVT_PERS).sendFault blkBUD 0 0x10 clsC a := by
  have hagain : (s.budFrame.overs.any fun p => p.1 == a) = false := by
    rw [List.any_eq_false]
    exact fun p hp => by simpa using h p hp
  unfold State.countOverrun
  extract_lets again s1 run s2 s3 pers s4
  rw [if_neg (by simp [again, hagain])]
  exact (ite_eq_or_eq _ _ _).symm

/-- What a first overrun of a frame leaves in the registers and in the frame being collected. -/
structure State.OverrunShown (s t : State) (a : Nat) (enf : Bool) : Prop where
  frames : t.fld (BUD_OVR a) BUD_OVR_FRAMES = min (2 ^ BUD_OVR_FRAMES.w - 1) (s.fld (BUD_OVR a) BUD_OVR_FRAMES + 1)
  run : t.fld (BUD_OVR a) BUD_OVR_RUN = min (2 ^ BUD_OVR_RUN.w - 1) (s.fld (BUD_OVR a) BUD_OVR_RUN + 1)
  sum : t.bit (ovrSum a) (a % 32) = true
  evt : t.bit BUD_EVT (if enf then BUD_EVT_OVR else BUD_EVT_WATCH) = true
  reports : t.budFrame.reports = s.budFrame.reports
  others : ∀ b, b ≠ a → t.reg (BUD_OVR b) = s.reg (BUD_OVR b)

theorem BUD_OVR_ne_sum (a b : Nat) : BUD_OVR b ≠ ovrSum a :=
  ovrSum_ne (by simp only [BUD_OVR, BUD_OVRSUM0]; omega) (by simp only [BUD_OVR, BUD_OVRSUM1]; omega)

theorem BUD_OVR_ne_evt (b : Nat) : BUD_OVR b ≠ BUD_EVT := by simp only [BUD_OVR, BUD_EVT]; omega

theorem State.reg_raise_ne (s : State) {evt k : Nat} (bit : Nat) (hk : k ≠ evt) : (s.raise evt bit).reg k = s.reg k := by
  rw [State.raise, State.reg_launch, State.reg_setBit_ne _ _ _ hk]

theorem State.reg_overrunNoted (s : State) (a res : Nat) (enf : Bool) (k : Nat) :
    (s.overrunNoted a res enf).reg k
      = (((s.raise BUD_EVT (if enf then BUD_EVT_OVR else BUD_EVT_WATCH)).overrunCounted a res).setBit
        (ovrSum a) (a % 32) true).reg k := by
  simp only [State.reg, State.overrunNoted]

theorem State.overrunShown_noted (s : State) (a res : Nat) (enf : Bool) : s.OverrunShown (s.overrunNoted a res enf) a enf := by
  have hevt : ∀ b, (s.raise BUD_EVT (if enf then BUD_EVT_OVR else BUD_EVT_WATCH)).reg (BUD_OVR b) = s.reg (BUD_OVR b) :=
    fun b => State.reg_raise_ne _ _ (BUD_OVR_ne_evt b)
  have hsum : BUD_EVT ≠ ovrSum a := ovrSum_ne (by decide) (by decide)
  refine ⟨?_, ?_, ?_, ?_, rfl, fun b hb => ?_⟩
  · rw [State.fld, State.reg_overrunNoted, State.reg_setBit_ne _ _ _ (BUD_OVR_ne_sum a a), ← State.fld,
      State.overrunCounted_frames, State.fld, hevt, State.fld]
  · rw [State.fld, State.reg_overrunNoted, State.reg_setBit_ne _ _ _ (BUD_OVR_ne_sum a a), ← State.fld,
      State.overrunCounted_run, State.fld, hevt, State.fld]
  · rw [State.bit, State.reg_overrunNoted, ← State.bit, State.bit_setBit_same _ _ _ _ (Nat.mod_lt _ (by decide))]
  · rw [State.bit, State.reg_overrunNoted, State.reg_setBit_ne _ _ _ hsum,
      State.reg_overrunCounted_ne _ _ (BUD_OVR_ne_evt a).symm, State.raise, State.reg_launch, ← State.bit,
      State.bit_setBit_same _ _ _ _ (by cases enf <;> decide)]
  · rw [State.reg_overrunNoted, State.reg_setBit_ne _ _ _ (BUD_OVR_ne_sum a b),
      State.reg_overrunCounted_ne _ _ (by simp only [BUD_OVR]; omega), hevt]

/-- The report of a persistent overrun takes nothing back. -/
theorem State.OverrunShown.persistent {s t : State} {a : Nat} {enf : Bool} (h : s.OverrunShown t a enf) (b : Nat) :
    s.OverrunShown ((t.raise BUD_EVT BUD_EVT_PERS).sendFault blkBUD 0 0x10 clsC b) a enf := by
  have hreg : ∀ k, k ≠ BUD_EVT → ((t.raise BUD_EVT BUD_EVT_PERS).sendFault blkBUD 0 0x10 clsC b).reg k = t.reg k :=
    fun k hk => by rw [State.sendFault, State.reg_launch, State.reg_raise_ne _ _ hk]
  refine ⟨?_, ?_, ?_, ?_, h.reports, fun c hc => (hreg _ (BUD_OVR_ne_evt c)).trans (h.others c hc)⟩
  · rw [State.fld, hreg _ (BUD_OVR_ne_evt a), ← State.fld, h.frames]
  · rw [State.fld, hreg _ (BUD_OVR_ne_evt a), ← State.fld, h.run]
  · rw [State.bit, hreg _ (ovrSum_ne (by decide) (by decide)).symm, ← State.bit, h.sum]
  · have hbit : (if enf then BUD_EVT_OVR else BUD_EVT_WATCH) ≠ BUD_EVT_PERS := by cases enf <;> decide
    rw [State.bit, State.sendFault, State.reg_launch, State.raise, State.reg_launch, State.reg_setBit_same,
      bitOf_withBit_ne _ _ hbit, ← State.bit, h.evt]

theorem State.overrunShown_countOverrun {s : State} {a : Nat} (res : Nat) (enf : Bool) (h : ∀ p ∈ s.budFrame.overs, p.1 ≠ a) :
    s.OverrunShown (s.countOverrun a res enf) a enf := by
  rcases State.countOverrun_cases res enf h with hc | hc
  · rw [hc]
    exact s.overrunShown_noted a res enf
  · rw [hc]
    exact (s.overrunShown_noted a res enf).persistent a

/-- A report with one entry, while the frame it belongs to is being collected and does not end with it. -/
theorem State.takeReport_single (s : State) (e : Nat × Nat × Bool) (h : s.budFrame.reports = 1)
    (ht : (s.countOverrun e.1 e.2.1 e.2.2).budFrame.reports = 1) :
    (s.takeReport s.budFrame.num [e]).budFrame.reports = 2
      ∧ ∀ k, (s.takeReport s.budFrame.num [e]).reg k = (s.countOverrun e.1 e.2.1 e.2.2).reg k := by
  unfold State.takeReport
  extract_lets s1 s2 _ s3
  have h1 : s1 = s := by
    unfold s1
    rw [if_neg (by omega), if_neg (by omega)]
  have h2 : s2 = s.countOverrun e.1 e.2.1 e.2.2 := by
    unfold s2
    rw [h1, List.foldl_cons, List.foldl_nil]
  have h3 : s3.budFrame.reports = 2 := by
    change s2.budFrame.reports + 1 = 2
    rw [h2, ht]
  rw [if_neg (by omega)]
  exact ⟨h3, fun k => by rw [← h2]; rfl⟩

/-- R505, R506: a meter's overrun report reaches the guard island. -/
theorem overrunReport_counts (s : State) (a res : Nat) (enf : Bool) (_ : a < 48)
    (hitem : s.nextItem .angle .guard = some (.budReport (s.budFrame.num) [(a, res, enf)])) (hrep : s.budFrame.reports = 1)
    (hnew : ∀ p ∈ s.budFrame.overs, p.1 ≠ a) :
    ∃ t, exec (.budgetOverrunReport .angle) s = .next t
      ∧ t.fld (BUD_OVR a) BUD_OVR_FRAMES = min (2 ^ BUD_OVR_FRAMES.w - 1) (s.fld (BUD_OVR a) BUD_OVR_FRAMES + 1)
      ∧ t.fld (BUD_OVR a) BUD_OVR_RUN = min (2 ^ BUD_OVR_RUN.w - 1) (s.fld (BUD_OVR a) BUD_OVR_RUN + 1)
      ∧ t.bit (if a < 32 then BUD_OVRSUM0 else BUD_OVRSUM1) (a % 32) = true
      ∧ t.bit BUD_EVT (if enf then BUD_EVT_OVR else BUD_EVT_WATCH) = true ∧ t.budFrame.reports = 2
      ∧ ∀ b, b < 48 → b ≠ a → t.reg (BUD_OVR b) = s.reg (BUD_OVR b) := by
  let u : State := { s with inflight := dropFirstItem .angle .guard s.inflight }
  have hshown : u.OverrunShown (u.countOverrun a res enf) a enf := State.overrunShown_countOverrun res enf hnew
  obtain ⟨hreports, hreg⟩ := u.takeReport_single (a, res, enf) hrep (hshown.reports.trans hrep)
  refine ⟨u.takeReport s.budFrame.num [(a, res, enf)], ?_, ?_⟩
  · change execBudgetOverrunReport .angle s = _
    rw [execBudgetOverrunReport, hitem]
    change Host.Outcome.next ((s.ackItem .angle .guard).takeReport _ _) = _
    rw [State.ackItem_eq (by decide) (by decide)]
  · refine ⟨?_, ?_, ?_, ?_, hreports, fun b _ hb => (hreg _).trans (hshown.others b hb)⟩
    · rw [State.fld, hreg]
      exact hshown.frames
    · rw [State.fld, hreg]
      exact hshown.run
    · rw [State.bit, hreg]
      exact hshown.sum
    · rw [State.bit, hreg]
      exact hshown.evt

/-! ### The registers of BUD (R13, R509) -/

/-- A legal write: the register takes its new word, and the block does what the write means. -/
theorem State.writeWith_of_legal {s : State} {addr : Nat} {w : Word} {locked legal : Bool} {act : State → State} {r : Row}
    {i j : Nat} (hrow : rowFind (blockRows (blkOf addr)) (addr % 0x10000) = some (r, i, j))
    (hflds : fieldsLegal r.flds w = true) (hlock : locked = false) (hlegal : legal = true) :
    s.writeWith addr w locked legal act = act (s.setReg addr (mergeFields r.flds (s.reg addr) w)) := by
  have hok : (fieldsLegal r.flds w && (!locked || rwcSame r.flds (s.reg addr) w) && legal) = true := by
    simp [hflds, hlock, hlegal]
  have unfolded : ∀ f, f = @State.writeWith →
      f s addr w locked legal act = act (s.setReg addr (mergeFields r.flds (s.reg addr) w)) := by
    intro f hf
    delta State.writeWith at hf
    subst hf
    beta_reduce
    rw [hrow]
    exact if_pos hok
  exact unfolded _ rfl

/-- Below the bindings and the accounts no rule of R498 or R499 bears on a write. -/
theorem budLegal_of_low {s : State} {addr : Nat} {w : Word} (h : addr % 0x10000 < 0x40) : budLegal s addr w = true := by
  have unfolded : ∀ f, f = @budLegal → f s addr w = true := by
    intro f hf
    delta budLegal at hf
    subst hf
    beta_reduce
    split
    · rfl
    · rw [if_neg (by omega), if_neg (by omega)]
  exact unfolded _ rfl

/-- The row of BUD_CLR: two command bits, which the register does not keep. -/
def budClrRow : Row :=
  { off := 0x14, s1 := 0x4, c1 := 1, s2 := 0x4, c2 := 1, rst := 0x0, werr := .bit 4, lock := .none,
    flds := [⟨BUD_CLR_CNT, .wo, .any⟩, ⟨BUD_CLR_PEAK, .wo, .any⟩] }

theorem rowFind_BUD_CLR : rowFind (blockRows (blkOf BUD_CLR)) (BUD_CLR % 0x10000) = some (budClrRow, 0, 0) := by decide

/-- The row of BUD_MONSEL. -/
def budMonselRow : Row :=
  { off := 0xc, s1 := 0x4, c1 := 1, s2 := 0x4, c2 := 1, rst := 0x0, werr := .bit 3, lock := .none,
    flds := [⟨BUD_MONSEL_ACCT, .rw, .u 0 47⟩, ⟨BUD_MONSEL_RES, .rw, .u 0 4⟩] }

theorem rowFind_BUD_MONSEL : rowFind (blockRows (blkOf BUD_MONSEL)) (BUD_MONSEL % 0x10000) = some (budMonselRow, 0, 0) := by
  decide

/-- What a write of BUD_CLR does (R509). -/
def State.budClr (t : State) (w : Word) : State :=
  let t1 := if bitOf w 0 then t.budClearCounts 48 else t
  if bitOf w 1 then t1.setReg BUD_MONPEAK 0 else t1

theorem State.budWrite_BUD_CLR (s : State) (w : Word) : s.budWrite BUD_CLR w = (s.setReg BUD_CLR (s.reg BUD_CLR)).budClr w := by
  have hlow : BUD_CLR % 0x10000 < 0x40 := by decide
  rw [State.budWrite, State.writeWith_of_legal rowFind_BUD_CLR rfl rfl (budLegal_of_low hlow), if_pos rfl]
  rfl

/-- Clearing the counts takes the frames and the drops of the accounts below `n`, and nothing else. -/
theorem State.reg_budClearCounts (s : State) (n k : Nat) :
    (∀ a, a < n → k ≠ BUD_OVR a ∧ k ≠ BUD_DROP a) → (s.budClearCounts n).reg k = s.reg k := by
  induction n with
  | zero => exact fun _ => rfl
  | succ n ih =>
    intro h
    obtain ⟨hovr, hdrop⟩ := h n (by omega)
    rw [State.budClearCounts, State.reg_setReg_ne _ _ hdrop, State.reg_setFld_ne _ _ _ hovr, ih fun a ha => h a (by omega)]

theorem State.budClearCounts_cleared (s : State) {a n : Nat} (ha : a < n) :
    (s.budClearCounts n).reg (BUD_OVR a) = BUD_OVR_FRAMES.set (s.reg (BUD_OVR a)) 0
      ∧ (s.budClearCounts n).reg (BUD_DROP a) = 0 := by
  induction n with
  | zero => omega
  | succ n ih =>
    rw [State.budClearCounts, State.reg_setReg_ne _ _ (show BUD_OVR a ≠ BUD_DROP n by simp only [BUD_OVR, BUD_DROP]; omega)]
    by_cases h : a = n
    · subst h
      rw [State.reg_setFld_same, State.reg_setReg_same, State.reg_budClearCounts]
      · exact ⟨rfl, rfl⟩
      · intro b hb
        simp only [BUD_OVR, BUD_DROP]
        omega
    · obtain ⟨hovr, hdrop⟩ := ih (by omega)
      rw [State.reg_setFld_ne _ _ _ (by simp only [BUD_OVR]; omega), State.reg_setReg_ne _ _ (by simp only [BUD_DROP]; omega),
        State.reg_setFld_ne _ _ _ (by simp only [BUD_OVR, BUD_DROP]; omega)]
      exact ⟨hovr, hdrop⟩

theorem State.RegsDiffer.budClearCounts (s : State) (n : Nat) : s.RegsDiffer (s.budClearCounts n) := by
  induction n with
  | zero => exact .refl s
  | succ n ih => exact (ih.trans (.setReg _ _ _)).trans (.setReg _ _ _)

/-- A register written with the word it holds. -/
theorem State.reg_setReg_self (s : State) (k j : Nat) : (s.setReg k (s.reg k)).reg j = s.reg j := by
  rw [State.reg_setReg]
  split
  · next h => rw [h]
  · rfl

/-- R509: the count registers are cleared by their command bit. -/
theorem budClrCnt_clears (s : State) :
    ∃ t, exec .budClrCnt s = .next t
      ∧ (∀ a, a < 48 → t.fld (BUD_OVR a) BUD_OVR_FRAMES = 0 ∧ t.fld (BUD_OVR a) BUD_OVR_RUN = s.fld (BUD_OVR a) BUD_OVR_RUN
          ∧ t.reg (BUD_DROP a) = 0)
      ∧ t = { s with regs := t.regs } ∧ ∀ k, (∀ a, a < 48 → k ≠ BUD_OVR a ∧ k ≠ BUD_DROP a) → t.reg k = s.reg k := by
  refine ⟨(s.setReg BUD_CLR (s.reg BUD_CLR)).budClearCounts 48, ?_, fun a ha => ?_,
    (State.RegsDiffer.setReg _ _ _).trans (.budClearCounts _ _), fun k hk => ?_⟩
  · change Host.Outcome.next (s.budWrite BUD_CLR 1) = _
    rw [State.budWrite_BUD_CLR, State.budClr, if_neg (by decide), if_pos (by decide)]
  · obtain ⟨hovr, hdrop⟩ := (s.setReg BUD_CLR (s.reg BUD_CLR)).budClearCounts_cleared ha
    rw [State.fld, State.fld, hovr, State.reg_setReg_self, Fld.get_set_same _ _ _ (by decide),
      Fld.get_set_ne _ _ _ _ (by decide)]
    exact ⟨Nat.zero_mod _, rfl, hdrop⟩
  · rw [State.reg_budClearCounts _ _ _ hk, State.reg_setReg_self]

/-- R509: the peak register is cleared by its command bit. -/
theorem budClrPeak_clears (s : State) :
    ∃ t, exec .budClrPeak s = .next t ∧ t.reg BUD_MONPEAK = 0 ∧ s.onlyRegs t [BUD_MONPEAK] := by
  refine ⟨(s.setReg BUD_CLR (s.reg BUD_CLR)).setReg BUD_MONPEAK 0, ?_, State.reg_setReg_same _ _ _, rfl, fun k hk => ?_⟩
  · change Host.Outcome.next (s.budWrite BUD_CLR 2) = _
    rw [State.budWrite_BUD_CLR, State.budClr, if_pos (by decide), if_neg (by decide)]
  · rw [State.reg_setReg_ne _ _ (by simpa using hk), State.reg_setReg_self]

/-- R509: BUD_MONSEL takes the account and the resource to be monitored and restarts the peak. -/
theorem budMonselWrite_selects (s : State) (w : Word) (ha : BUD_MONSEL_ACCT.get w ≤ 47) (hr : BUD_MONSEL_RES.get w ≤ 4) :
    ∃ t, exec (.budMonselWrite w) s = .next t
      ∧ t.fld BUD_MONSEL BUD_MONSEL_ACCT = BUD_MONSEL_ACCT.get w ∧ t.fld BUD_MONSEL BUD_MONSEL_RES = BUD_MONSEL_RES.get w
      ∧ t.reg BUD_MONPEAK = 0 ∧ s.onlyRegs t [BUD_MONSEL, BUD_MONPEAK] := by
  let v := BUD_MONSEL_RES.set (BUD_MONSEL_ACCT.set (s.reg BUD_MONSEL) (BUD_MONSEL_ACCT.get w)) (BUD_MONSEL_RES.get w)
  have hmod : ∀ f : Fld, f.get w % 2 ^ f.w = f.get w := fun f => Nat.mod_mod _ _
  refine ⟨(s.setReg BUD_MONSEL v).setReg BUD_MONPEAK 0, ?_, ?_, ?_, State.reg_setReg_same _ _ _, rfl, fun k hk => ?_⟩
  · change Host.Outcome.next (s.budWrite BUD_MONSEL w) = _
    have hlow : BUD_MONSEL % 0x10000 < 0x40 := by decide
    have hflds : fieldsLegal budMonselRow.flds w = true := by simp [fieldsLegal, budMonselRow, Rng.ok, ha, hr]
    rw [State.budWrite, State.writeWith_of_legal rowFind_BUD_MONSEL hflds rfl (budLegal_of_low hlow),
      if_neg (by decide), if_pos rfl]
    rfl
  · rw [State.fld, State.reg_setReg_ne _ _ (by decide), State.reg_setReg_same, Fld.get_set_ne _ _ _ _ (by decide),
      Fld.get_set_same _ _ _ (by decide), hmod]
  · rw [State.fld, State.reg_setReg_ne _ _ (by decide), State.reg_setReg_same, Fld.get_set_same _ _ _ (by decide), hmod]
  · simp only [List.mem_cons, List.not_mem_nil, or_false, not_or] at hk
    rw [State.reg_setReg_ne _ _ hk.2, State.reg_setReg_ne _ _ hk.1]

end Sys2Proof.Machine

open Sys2Proof.Machine

/-- Settles O20: each command is run on its own; the threads are released one turn of a loop after the other. -/
theorem budgetFrames : Obligations.BudgetFrames :=
  ⟨budgetFramePulse_leaves, framePulse_atAngle, overrunReport_counts, budClrCnt_clears, budClrPeak_clears,
    budMonselWrite_selects⟩

end

section
/-! PROOFS. Resets, supplies, clocks, the alarm and sleep (R50, R59, R609 to R625): first what a decision of the fault collector,
a safe state and a Locket commit leave alone, then the resets, then the clocks, the alarm and the sleep. -/

namespace Sys2Proof.Machine

/-! ### What a decision, a safe state and a commit leave alone -/

/-- `t` is `s` as far as time and the supervisor's mode and resets go. -/
structure State.RunFrame (s t : State) : Prop where
  now : t.now = s.now
  slot : t.slot = s.slot
  por : t.sys.por = s.sys.por
  rst : t.sys.rst = s.sys.rst
  mode : t.sys.mode = s.sys.mode

namespace State.RunFrame

variable {s t : State}

theorem refl (s : State) : s.RunFrame s := ⟨rfl, rfl, rfl, rfl, rfl⟩

/-- Only time and the supervisor count. -/
theorem of_eq {u : State} (h : s.RunFrame t) (hnow : u.now = t.now) (hslot : u.slot = t.slot) (hsys : u.sys = t.sys) :
    s.RunFrame u :=
  ⟨hnow.trans h.now, hslot.trans h.slot, hsys ▸ h.por, hsys ▸ h.rst, hsys ▸ h.mode⟩

theorem ite {c : Prop} [Decidable c] {u : State} (ht : s.RunFrame t) (hu : s.RunFrame u) : s.RunFrame (if c then t else u) := by
  split
  · exact ht
  · exact hu

theorem foldl {α : Type} {f : State → α → State} {l : List α} (h : s.RunFrame t)
    (hf : ∀ u x, s.RunFrame u → s.RunFrame (f u x)) : s.RunFrame (l.foldl f t) :=
  List.foldlRecOn l f h fun u hu x _ => hf u x hu

theorem setReg {k : Nat} {v : Word} (h : s.RunFrame t) : s.RunFrame (t.setReg k v) := h.of_eq rfl rfl rfl

theorem setFld {k v : Nat} {f : Fld} (h : s.RunFrame t) : s.RunFrame (t.setFld k f v) := h.setReg

theorem setBit {k i : Nat} {b : Bool} (h : s.RunFrame t) : s.RunFrame (t.setBit k i b) := h.setReg

theorem count {k n : Nat} {f : Fld} (h : s.RunFrame t) : s.RunFrame (t.count k f n) := h.setFld

theorem launch {i j : Island} {b : Body} (h : s.RunFrame t) : s.RunFrame (t.launch i j b) := h.of_eq rfl rfl rfl

theorem raise {evt bit : Nat} (h : s.RunFrame t) : s.RunFrame (t.raise evt bit) := h.setBit.launch

theorem sendFault {blk unit kind cls detail : Nat} (h : s.RunFrame t) : s.RunFrame (t.sendFault blk unit kind cls detail) :=
  h.launch

theorem wrBytes {a : Nat} {l : List Byte} (h : s.RunFrame t) : s.RunFrame (t.wrBytes a l) := by
  induction l generalizing a t with
  | nil => exact h
  | cons b l ih => exact ih (a := a + 1) (h.of_eq (u := t.wr8 a b) rfl rfl rfl)

theorem useFree (h : s.RunFrame t) : s.RunFrame t.useFree := h.of_eq rfl rfl rfl

theorem refuseWrite {addr : Nat} (h : s.RunFrame t) : s.RunFrame (t.refuseWrite addr) := by
  have unfolded : ∀ f, f = @State.refuseWrite → s.RunFrame (f t addr) := by
    intro f hf
    delta State.refuseWrite at hf
    subst hf
    beta_reduce
    split
    · exact h
    · extract_lets s1
      have h1 : s.RunFrame s1 := by
        unfold s1
        split
        · exact h
        · exact h.setBit
        · exact h.setBit
      exact h1.setFld.sendFault
  exact unfolded _ rfl

theorem writeWith {addr : Nat} {w : Word} {locked legal : Bool} {act : State → State} (h : s.RunFrame t)
    (hact : ∀ u, s.RunFrame u → s.RunFrame (act u)) : s.RunFrame (t.writeWith addr w locked legal act) := by
  have unfolded : ∀ f, f = @State.writeWith → s.RunFrame (f t addr w locked legal act) := by
    intro f hf
    delta State.writeWith at hf
    subst hf
    beta_reduce
    split
    · exact h
    · exact .ite (hact _ h.setReg) h.refuseWrite
  exact unfolded _ rfl

/-! #### Locket -/

theorem updLkt {f : Lkt → Lkt} (h : s.RunFrame t) : s.RunFrame (t.updLkt f) := h.of_eq rfl rfl rfl

theorem lktSend {r : LktRec} (h : s.RunFrame t) : s.RunFrame (t.lktSend r) := h.updLkt

theorem lktShow (h : s.RunFrame t) : s.RunFrame t.lktShow := by
  unfold State.lktShow
  extract_lets _ s1 _ _ s2
  have h1 : s.RunFrame s1 := h.setFld.setFld.setFld
  have h2 : s.RunFrame s2 := .ite h1.setReg.setReg h1.setReg.setReg
  split <;> exact h2.setReg.setReg

theorem updArea {area : Bool} {f : LktArea → LktArea} (h : s.RunFrame t) : s.RunFrame (t.updArea area f) := h.updLkt

theorem putSlot {area counts : Bool} {typ : Nat} {bytes : List Byte} (h : s.RunFrame t) :
    s.RunFrame (t.putSlot area typ bytes counts) := by
  unfold State.putSlot
  exact h.wrBytes.updArea

theorem askSeal {area early : Bool} (h : s.RunFrame t) : s.RunFrame (t.askSeal area early) := .ite h h.updLkt.lktShow

theorem fullBlock {area : Bool} (h : s.RunFrame t) : s.RunFrame (t.fullBlock area) := by
  unfold State.fullBlock
  split
  · exact .ite h.askSeal h
  · exact h

theorem putCopy {r : LktRec} {bytes : List Byte} (h : s.RunFrame t) : s.RunFrame (t.putCopy r bytes) :=
  .fullBlock (.updLkt (.putSlot (.ite h.putSlot h)))

theorem noteRing {slot seq : Nat} (h : s.RunFrame t) : s.RunFrame (t.noteRing slot seq) := h.updLkt

theorem afterRing {r : LktRec} {bytes : List Byte} (h : s.RunFrame t) : s.RunFrame (t.afterRing r bytes) := by
  unfold State.afterRing
  extract_lets _ s1 s2
  have h1 : s.RunFrame s1 := .ite h.putCopy (.ite h.count.setFld.raise h)
  have h2 : s.RunFrame s2 := .ite h1.raise.sendFault (.ite h1.raise h1)
  exact h2.fullBlock

theorem putRing {r : LktRec} (h : s.RunFrame t) : s.RunFrame (t.putRing r) := h.putSlot.noteRing.afterRing.lktShow

theorem lktDrop (h : s.RunFrame t) : s.RunFrame t.lktDrop := .ite h.count h.count.updLkt

theorem lktQueue {r : LktRec} (h : s.RunFrame t) : s.RunFrame (t.lktQueue r) := .ite h.lktDrop h.updLkt.lktShow

theorem finishRec (h : s.RunFrame t) : s.RunFrame t.finishRec := by
  unfold State.finishRec
  split
  · exact h
  · exact h.updLkt.putSlot.noteRing.afterRing.lktShow

theorem flushQueue {n : Nat} (h : s.RunFrame t) : s.RunFrame (t.flushQueue n) := by
  induction n generalizing t with
  | zero => exact h
  | succ n ih =>
    rw [State.flushQueue]
    split
    · exact h
    · exact ih h.updLkt.putRing

theorem lktCommit {rail : Nat} (h : s.RunFrame t) : s.RunFrame (t.lktCommit rail) := by
  unfold State.lktCommit
  extract_lets s1 s2
  have h1 : s.RunFrame s1 := h.setFld.updLkt
  have h2 : s.RunFrame s2 := h1.finishRec.flushQueue
  exact h2.putRing.updLkt.lktShow

/-! #### Threads and Loupe's trace -/

theorem tracePut {on : Bool} {p : List Byte} (h : s.RunFrame t) : s.RunFrame (t.tracePut on p) := by
  have hdbg : ∀ f, s.RunFrame (t.updDbg f) := fun _ => h.of_eq rfl rfl rfl
  unfold State.tracePut
  refine .ite h ?_
  split
  · exact hdbg _
  · exact .ite (hdbg _) (hdbg _).setFld

theorem updThr {n : Nat} {f : ThreadSt → ThreadSt} (h : s.RunFrame t) : s.RunFrame (t.updThr n f) :=
  h.of_eq (State.updThr_now _ _ _) (State.updThr_slot _ _ _) (State.updThr_sys _ _ _)

theorem aenShow (h : s.RunFrame t) : s.RunFrame t.aenShow := h.setFld.setFld.setFld.setFld

theorem setTh {n st : Nat} (h : s.RunFrame t) : s.RunFrame (t.setTh n st) := .aenShow (.ite h.setFld h.setFld.setFld)

theorem setTg {n r : Nat} {v : Word} (h : s.RunFrame t) : s.RunFrame (t.setTg n r v) := .ite h h.setReg

theorem setPend {n k : Nat} (h : s.RunFrame t) : s.RunFrame (t.setPend n k) := h.setBit

theorem setPendWhere {k n : Nat} {p : Nat → Bool} (h : s.RunFrame t) : s.RunFrame (t.setPendWhere k p n) := by
  induction n with
  | zero => exact h
  | succ n ih => exact .ite ih.setPend ih

theorem stall {n : Nat} (h : s.RunFrame t) : s.RunFrame (t.stall n) :=
  .ite h.setTh.raise h.setTh.raise.count.updThr

theorem thEnd {n : Nat} (h : s.RunFrame t) : s.RunFrame (t.thEnd n) := .ite h h.setFld.setTh.tracePut

theorem engineOff {e : Nat} (h : s.RunFrame t) : s.RunFrame (t.engineOff e) := h.foldl fun _ _ hu => hu.thEnd

theorem aenCtrl {w : Word} (h : s.RunFrame t) : s.RunFrame (t.aenWrite AEN_CTRL w) := by
  unfold State.aenWrite
  extract_lets
  refine h.writeWith fun _ hu => ?_
  rw [if_pos rfl]
  exact .ite (.engineOff (.ite hu.engineOff hu)) (.ite hu.engineOff hu)

/-! #### Output channels and the calendar -/

theorem budDraw {acct : Option Nat} {r n : Nat} (h : s.RunFrame t) : s.RunFrame (t.budDraw acct r n) :=
  h.of_eq (State.budDraw_now _ _ _ _) (State.budDraw_slot _ _ _ _) (State.budDraw_sys _ _ _ _)

theorem syncQueue {q : Nat} (h : s.RunFrame t) : s.RunFrame (t.syncQueue q) := .ite h (h.foldl fun _ _ hu => hu.setPendWhere)

theorem qRefuse {q : Nat} (h : s.RunFrame t) : s.RunFrame (t.qRefuse q) := h.count.raise

theorem qput {q : Nat} {e : List Byte} (h : s.RunFrame t) : s.RunFrame (t.qput q e).1 := by
  unfold State.qput
  split
  · exact h.qRefuse
  · split
    · exact h.qRefuse
    · exact h.wrBytes.setFld.setFld.syncQueue

theorem putRecord {a : Action} {st dur : Nat} {start : Word} (h : s.RunFrame t) : s.RunFrame (t.putRecord a st start dur) :=
  .ite (.ite h.budDraw.qput h.budDraw.qput.count.raise) h

theorem countStatus {st : Nat} (h : s.RunFrame t) : s.RunFrame (t.countStatus st) :=
  .ite h.count.raise (.ite h.count.raise (.ite h.count.raise h))

theorem retire {a : Action} {st dur : Nat} {start : Word} (h : s.RunFrame t) : s.RunFrame (t.retire a st start dur) := by
  unfold State.retire
  extract_lets s1 s2 s3 s4
  have h1 : s.RunFrame s1 := h.of_eq rfl rfl rfl
  have h2 : s.RunFrame s2 := h1.setFld.countStatus
  have h3 : s.RunFrame s3 := .ite h2.raise h2
  have h4 : s.RunFrame s4 := .ite h3.setPend h3
  exact h4.putRecord

theorem retirePending {p : Action → Bool} {st : Nat} (h : s.RunFrame t) : s.RunFrame (t.retirePending p st) :=
  h.foldl fun _ _ hu => .ite hu.retire hu

theorem updStage {i : Nat} {f : Action → Action} (h : s.RunFrame t) : s.RunFrame (t.updStage i f) := h.of_eq rfl rfl rfl

theorem updOut {c : Nat} {f : OutCh → OutCh} (h : s.RunFrame t) : s.RunFrame (t.updOut c f) := by
  refine h.of_eq ?_ ?_ ?_ <;> simp only [State.updOut]

theorem updCyc {n : Nat} {f : CycCh → CycCh} (h : s.RunFrame t) : s.RunFrame (t.updCyc n f) := by
  refine h.of_eq ?_ ?_ ?_ <;> simp only [State.updCyc]

theorem updObs {f : Obs → Obs} (h : s.RunFrame t) : s.RunFrame (t.updObs f) := h.of_eq rfl rfl rfl

theorem fuelled (h : s.RunFrame t) : s.RunFrame t.fuelled :=
  .setFld (.ite (h.updObs.foldl fun _ _ hu => .ite hu.updObs.count.raise hu) h.updObs)

theorem setPin {n : Nat} {b : Bool} (h : s.RunFrame t) : s.RunFrame (t.setPin n b) := .ite h.setBit.fuelled h.setBit

theorem softStart {n : Nat} (h : s.RunFrame t) : s.RunFrame (t.softStart n) := h.updOut.setBit.setBit.raise

theorem endEdge {a : Action} {te : Nat} {fast : Bool} (h : s.RunFrame t) : s.RunFrame (t.endEdge a te fast) :=
  .ite h.launch.setBit.updOut (.ite h.setBit.updOut h.setPin.updOut)

theorem endPulse {a : Action} {st : Nat} {fast : Bool} (h : s.RunFrame t) : s.RunFrame (t.endPulse a st fast) :=
  .ite (.ite h.endEdge.retire h.updStage) (.ite h.softStart.retire h.endEdge.retire)

theorem endActive {p : Action → Bool} {st : Nat} {fast : Bool} (h : s.RunFrame t) : s.RunFrame (t.endActive p st fast) :=
  h.foldl fun _ _ hu => .ite hu.endPulse hu

theorem disableChannel {c : Nat} (h : s.RunFrame t) : s.RunFrame (t.disableChannel c) :=
  .ite h.endActive.retirePending.setPin.updCyc h.endActive.retirePending

theorem disableBits {old : Word} {key base n : Nat} (h : s.RunFrame t) : s.RunFrame (t.disableBits old key base n) :=
  h.foldl fun _ _ hu => .ite hu.disableChannel hu

theorem outWrite {addr : Nat} {w : Word} (h : s.RunFrame t) : s.RunFrame (t.outWrite addr w) := by
  unfold State.outWrite
  extract_lets
  exact h.writeWith fun _ hu => .ite hu.disableBits (.ite hu.disableBits (.ite (hu.foldl fun _ _ hv => .ite hv
    (.ite hv.disableChannel (.ite hv.updCyc hv))) (.ite (.ite (.ite hu hu.setPin) (.ite hu.updCyc (.ite hu.updCyc hu))) hu)))

theorem calCtrl {w : Word} (h : s.RunFrame t) : s.RunFrame (t.calWrite CAL_CTRL w) := by
  unfold State.calWrite
  extract_lets
  refine h.writeWith fun u hu => ?_
  rw [if_pos rfl]
  exact .ite (.retirePending (hu.foldl fun _ _ hv => hv.disableChannel)) hu

/-! #### The fault collector -/

theorem updPwm {n : Nat} {f : Pwm → Pwm} (h : s.RunFrame t) : s.RunFrame (t.updPwm n f) := h.of_eq rfl rfl rfl

theorem pwmSafeMask {m : Nat} (h : s.RunFrame t) : s.RunFrame (t.pwmSafeMask m) :=
  h.foldl fun _ _ hu => .ite (.ite hu.setFld.updPwm.raise hu) hu

theorem applySafe {level : Nat} (h : s.RunFrame t) : s.RunFrame (t.applySafe level) := by
  unfold State.applySafe
  extract_lets t0 s1 s2
  have h0 : s.RunFrame t0 := h.outWrite
  have h1 : s.RunFrame s1 := .ite (.ite h0.pwmSafeMask h0) h
  have h2 : s.RunFrame s2 := .ite h1.outWrite.outWrite h1
  exact .ite h2.calCtrl.aenCtrl h2

theorem askReset {cause detail : Nat} (h : s.RunFrame t) : s.RunFrame (t.askReset cause detail) :=
  ⟨h.now, h.slot, h.por, h.rst, h.mode⟩

theorem logCopy {c : LktRec} {now : Bool} (h : s.RunFrame t) : s.RunFrame (t.logCopy c now) := .ite h.finishRec.putRing h.lktQueue

theorem keepLast {m : BitVec 64} (h : s.RunFrame t) : s.RunFrame (t.keepLast m) := h.setReg.setReg

theorem keepFirst {m : BitVec 64} (h : s.RunFrame t) : s.RunFrame (t.keepFirst m) := h.setReg.setReg

theorem classEffect {cls blk : Nat} (h : s.RunFrame t) : s.RunFrame (t.classEffect cls blk) :=
  .ite h.setBit.count.raise (.ite h.setBit.count.raise h.count.raise)

theorem startShadow {blk dep n : Nat} (h : s.RunFrame t) : s.RunFrame (t.startShadow blk dep n) :=
  .ite h (.setReg (h.of_eq rfl rfl rfl))

/-- No enable is cleared and no pair restarted for a message of SYS (R557). -/
theorem applyAction {action : Nat} {m : BitVec 64} (hm : msgBlk m = blkSYS) (h : s.RunFrame t) :
    s.RunFrame (t.applyAction action m) := by
  have hblk : t.blockReset (msgBlk m) (msgUnit m) (msgKind m) = t := by rw [hm]; rfl
  unfold State.applyAction
  rw [hblk, hm]
  exact .ite h (.ite h (.ite h.askReset h))

theorem decidePrimary {m : BitVec 64} (hm : msgBlk m = blkSYS) (h : s.RunFrame t) : s.RunFrame (t.decidePrimary m) := by
  unfold State.decidePrimary
  extract_lets _ _ _ _ _ _ s1 s2 _ s3 s4 s5
  have h1 : s.RunFrame s1 := .classEffect (.ite h.keepFirst h)
  have h2 : s.RunFrame s2 := h1.setFld
  have h3 : s.RunFrame s3 := .ite h2.logCopy h2
  have h4 : s.RunFrame s4 := h3.applySafe.applyAction hm
  have h5 : s.RunFrame s5 := .ite h4.raise h4
  exact h5.startShadow.keepLast.tracePut

/-- The decision of a message of SYS. -/
theorem decideMsg {m : BitVec 64} (hm : msgBlk m = blkSYS) (h : s.RunFrame t) : s.RunFrame (t.decideMsg m) :=
  .ite h.count.raise.logCopy.keepLast.tracePut (.ite h.count.raise.logCopy.keepLast.tracePut (h.decidePrimary hm))

end State.RunFrame

/-! ### What a reset keeps (R614) -/

/-- A table without the entries of some keys. -/
theorem tabGet_filter {α : Type} (d : Nat → α) (p : Nat → Bool) (l : List (Nat × α)) (k : Nat) :
    tabGet d (l.filter fun e => p e.1) k = if p k then tabGet d l k else d k := by
  have hfind : tabFind (l.filter fun e => p e.1) k = if p k then tabFind l k else none := by
    induction l with
    | nil => simp [tabFind]
    | cons e t ih =>
      rw [List.filter_cons]
      by_cases hk : e.1 = k
      · subst hk
        by_cases hp : p e.1 = true
        · simp [hp, tabFind]
        · simpa [hp, tabFind] using ih
      · by_cases hp : p e.1 = true
        · simpa [hp, tabFind, hk] using ih
        · simpa [hp, tabFind, hk] using ih
  rw [tabGet, hfind, tabGet]
  by_cases hp : p k = true
  · rw [if_pos hp, if_pos hp]
  · rw [if_neg hp, if_neg hp]

theorem State.RegsDiffer.setFld (s : State) (k v : Nat) (f : Fld) : s.RegsDiffer (s.setFld k f v) := setReg s _ _

theorem State.RegsDiffer.keepParts (s : State) : s.RegsDiffer s.keepParts :=
  ((((setFld s _ _ _).trans (setFld _ _ _ _)).trans (setFld _ _ _ _)).trans (setFld _ _ _ _)).trans (setFld _ _ _ _)

theorem State.reg_keepParts_ne (s : State) {k : Nat} (hf : k ≠ FLT_CNT1) (hh : k ≠ HMK_STAT) (hs : k ≠ SYS_STAT) :
    s.keepParts.reg k = s.reg k := by
  rw [State.keepParts, State.reg_setFld_ne _ _ _ hs, State.reg_setFld_ne _ _ _ hh, State.reg_setFld_ne _ _ _ hh,
    State.reg_setFld_ne _ _ _ hf, State.reg_setFld_ne _ _ _ hf]

/-- Registers that are at their reset value stay there, but for HMK_STAT. -/
theorem State.reg_keepParts_reset {s : State} {k : Nat} (h : s.reg k = resetOf k) (hh : k ≠ HMK_STAT) :
    s.keepParts.reg k = resetOf k := by
  by_cases hf : k = FLT_CNT1
  · subst hf
    rw [State.keepParts, State.reg_setFld_ne _ _ _ (by decide), State.reg_setFld_ne _ _ _ (by decide),
      State.reg_setFld_ne _ _ _ (by decide), State.reg_setFld_same, State.reg_setFld_same, h]
    rfl
  · by_cases hs : k = SYS_STAT
    · subst hs
      rw [State.keepParts, State.reg_setFld_same, State.reg_setFld_ne _ _ _ (by decide), State.reg_setFld_ne _ _ _ (by decide),
        State.reg_setFld_ne _ _ _ (by decide), State.reg_setFld_ne _ _ _ (by decide), h]
      rfl
    · rw [s.reg_keepParts_ne hf hh hs, h]

/-- The enrolment outlives a reset. -/
theorem State.keepParts_enr (s : State) : s.keepParts.fld HMK_STAT HMK_STAT_ENR = s.fld HMK_STAT HMK_STAT_ENR := by
  rw [State.fld, State.keepParts, State.reg_setFld_ne _ _ _ (by decide), State.reg_setFld_same, State.reg_setFld_same,
    State.reg_setFld_ne _ _ _ (by decide), State.reg_setFld_ne _ _ _ (by decide), Fld.get_set_ne _ _ _ _ (by decide),
    Fld.get_set_ne _ _ _ _ (by decide), State.fld]

/-! ### Power-on reset (R609, R614) -/

/-- What is left of a state at power-on: MRAM, the registers of the Hallmark store, the enrolment. -/
def State.storesAlone (s : State) : State :=
  { State.reset with
    pending := s.pending
    mem := s.mem.filter fun c => inMram c.1
    regs := s.regs.filter fun r => hallmarkReg r.1
    enrol := s.enrol
    freeUses := s.freeUses }

theorem State.powerOn_eq (s : State) (cause detail : Nat) :
    s.powerOn cause detail = s.storesAlone.keepParts.setReg SYS_RCAUSE (BitVec.ofNat 32 (cause + 16 * detail)) := rfl

theorem State.reg_storesAlone (s : State) (k : Nat) :
    s.storesAlone.reg k = if hallmarkReg k then s.reg k else resetOf k := tabGet_filter resetOf hallmarkReg s.regs k

/-- R609, R614: a power-on reset keeps MRAM and the enrolment alone. -/
theorem State.powerOn_resets (s : State) (cause detail : Nat) :
    (s.powerOn cause detail).reg SYS_RCAUSE = BitVec.ofNat 32 (cause + 16 * detail) ∧ (s.powerOn cause detail).sys.por = true
      ∧ (s.powerOn cause detail).enrol = s.enrol ∧ s.cleared (s.powerOn cause detail) hallmarkReg [SYS_RCAUSE, HMK_STAT] := by
  rw [State.powerOn_eq]
  refine ⟨State.reg_setReg_same _ _ _, rfl, rfl, fun k => tabGet_filter memDefault inMram s.mem k, fun k hk => ?_, rfl, rfl, rfl,
    rfl⟩
  simp only [List.mem_cons, List.not_mem_nil, or_false, not_or] at hk
  rw [State.reg_setReg_ne _ _ hk.1]
  split
  · next hkept =>
    rw [State.reg_keepParts_ne _ (by rintro rfl; exact absurd hkept (by decide)) hk.2
      (by rintro rfl; exact absurd hkept (by decide)), State.reg_storesAlone, if_pos hkept]
  · next hlost => exact State.reg_keepParts_reset (by rw [State.reg_storesAlone, if_neg hlost]) hk.2

/-! ### What every reset sets (R573, R589, R630) -/

/-- Registers written one after the other: only they change. -/
theorem State.foldl_setReg_spec (key : Nat → Nat) (val : Nat → Word) (l : List Nat) (s : State) :
    s.RegsDiffer (l.foldl (fun t i => t.setReg (key i) (val i)) s)
      ∧ ∀ k, (∀ i ∈ l, k ≠ key i) → (l.foldl (fun t i => t.setReg (key i) (val i)) s).reg k = s.reg k := by
  induction l generalizing s with
  | nil => exact ⟨.refl s, fun _ _ => rfl⟩
  | cons i l ih =>
    obtain ⟨hdiff, hreg⟩ := ih (s.setReg (key i) (val i))
    refine ⟨(State.RegsDiffer.setReg s _ _).trans hdiff, fun k hk => ?_⟩
    exact (hreg k fun j hj => hk j (List.mem_cons_of_mem _ hj)).trans (State.reg_setReg_ne _ _ (hk i List.mem_cons_self))

/-- A new challenge changes its four registers and the count of free values. -/
theorem State.newChallenge_spec (s : State) :
    s.newChallenge = { s with regs := s.newChallenge.regs, freeUses := s.freeUses + 1 }
      ∧ ∀ k, (∀ i, i < 4 → k ≠ HMK_CHAL i) → s.newChallenge.reg k = s.reg k := by
  let word i := BitVec.ofNat 32 (field (s.random 16) (4 * i) 4)
  have heq : s.newChallenge = ((List.range 4).foldl (fun t i => t.setReg (HMK_CHAL i) (word i)) s).useFree := rfl
  obtain ⟨hdiff, hreg⟩ := State.foldl_setReg_spec HMK_CHAL word (List.range 4) s
  rw [heq]
  generalize (List.range 4).foldl (fun t i => t.setReg (HMK_CHAL i) (word i)) s = t at hdiff hreg
  constructor
  · rw [hdiff]
    rfl
  · exact fun k hk => hreg k fun i hi => hk i (List.mem_range.mp hi)

theorem State.reg_debugEntry (s : State) (en : Bool) (cause t k : Nat) : (s.debugEntry en cause t).reg k = s.reg k := rfl

/-- Beside its registers only Locket's queue and the count of free values change. -/
theorem State.resetEntry_eq (s : State) :
    ∃ r l, s.resetEntry = { s with regs := r, lkt := l, freeUses := s.freeUses + 1 } := by
  rw [State.resetEntry, (State.newChallenge_spec _).1]
  exact ⟨_, _, rfl⟩

theorem State.reg_resetEntry_ne (s : State) {k : Nat} (hd : k ≠ DBG_CTRL) (hc : ∀ i, i < 4 → k ≠ HMK_CHAL i) :
    s.resetEntry.reg k = s.reg k := by
  rw [State.resetEntry, (State.newChallenge_spec _).2 _ hc, State.reg_debugEntry, State.reg_setFld_ne _ _ _ hd]

/-- Loupe is open where there is no enrolment (R630). -/
theorem State.resetEntry_loupe (s : State) : s.resetEntry.bit DBG_CTRL 0 = decide (s.fld HMK_STAT HMK_STAT_ENR = 0) := by
  have hreg : s.resetEntry.reg DBG_CTRL = DBG_CTRL_EN.set (s.reg DBG_CTRL) (b2n (s.fld HMK_STAT HMK_STAT_ENR == 0)) := by
    rw [State.resetEntry, (State.newChallenge_spec _).2 _ fun i hi => by simp only [DBG_CTRL, HMK_CHAL]; omega,
      State.reg_debugEntry, State.reg_setFld_same]
  rw [State.bit, hreg, bitOf, Fld.set_getLsbD _ _ _ _ (by decide), if_pos (by decide), beq_eq_decide]
  cases decide (s.fld HMK_STAT HMK_STAT_ENR = 0) <;> rfl

/-! ### System reset (R611, R612, R614, R616) -/

theorem State.reg_resetLogic (s : State) (k : Nat) : s.resetLogic.reg k = if keptReg k then s.reg k else resetOf k :=
  tabGet_filter resetOf keptReg s.regs k

/-- The state in which a system reset takes effect: its cause is recorded. -/
def State.causeRecorded (s : State) (cause detail : Nat) : State :=
  ((s.count SYS_RCAUSE SYS_RCAUSE_COUNT 1).setFld SYS_RCAUSE SYS_RCAUSE_CAUSE cause).setFld SYS_RCAUSE SYS_RCAUSE_DETAIL detail

theorem State.systemReset_eq {s : State} (hp : s.sys.por = false) (hr : s.sys.rst = false) (cause detail : Nat) :
    s.systemReset cause detail = (s.causeRecorded cause detail).resetLogic.keepParts.resetEntry := by
  rw [State.systemReset, if_neg (by simp [hp])]
  exact if_neg (by simp [hr])

theorem State.reg_causeRecorded_ne (s : State) (cause detail : Nat) {k : Nat} (hk : k ≠ SYS_RCAUSE) :
    (s.causeRecorded cause detail).reg k = s.reg k := by
  rw [State.causeRecorded, State.reg_setFld_ne _ _ _ hk, State.reg_setFld_ne _ _ _ hk, State.count, State.reg_setFld_ne _ _ _ hk]

theorem State.causeRecorded_shows (s : State) (cause detail : Nat) :
    (s.causeRecorded cause detail).fld SYS_RCAUSE SYS_RCAUSE_CAUSE = cause % 16
      ∧ (s.causeRecorded cause detail).fld SYS_RCAUSE SYS_RCAUSE_DETAIL = detail % 8
      ∧ (s.causeRecorded cause detail).fld SYS_RCAUSE SYS_RCAUSE_COUNT = min 255 (s.fld SYS_RCAUSE SYS_RCAUSE_COUNT + 1) := by
  refine ⟨?_, State.fld_setFld_same _ _ _ _ (by decide), ?_⟩
  · exact (State.fld_setFld_ne _ _ _ _ _ (by decide)).trans (State.fld_setFld_same _ _ _ _ (by decide))
  · exact (State.fld_setFld_ne _ _ _ _ _ (by decide)).trans ((State.fld_setFld_ne _ _ _ _ _ (by decide)).trans
      (State.fld_count _ _ _ _ (by decide)))

theorem State.RegsDiffer.causeRecorded (s : State) (cause detail : Nat) : s.RegsDiffer (s.causeRecorded cause detail) :=
  ((setFld s _ _ _).trans (setFld _ _ _ _)).trans (setFld _ _ _ _)

theorem State.RegsDiffer.resetLogic {s t : State} (h : s.RegsDiffer t) : s.resetLogic.RegsDiffer t.resetLogic := by
  rw [State.RegsDiffer, h]
  rfl

/-- Beside its registers, Locket's queue and the count of free values a system reset leaves the reset logic die. -/
theorem State.systemReset_frame {s : State} (hp : s.sys.por = false) (hr : s.sys.rst = false) (cause detail : Nat) :
    ∃ r l f, s.systemReset cause detail = { s.resetLogic with regs := r, lkt := l, freeUses := f } := by
  have hdiff := (State.RegsDiffer.causeRecorded s cause detail).resetLogic.trans (.keepParts _)
  obtain ⟨r, l, heq⟩ := (s.causeRecorded cause detail).resetLogic.keepParts.resetEntry_eq
  rw [State.systemReset_eq hp hr, heq, hdiff]
  exact ⟨r, l, _, rfl⟩

/-- What the entries of a reset leave of the registers. -/
theorem State.reg_systemReset {s : State} (hp : s.sys.por = false) (hr : s.sys.rst = false) (cause detail : Nat) {k : Nat}
    (hk : k ∉ [DBG_CTRL, HMK_CHAL 0, HMK_CHAL 1, HMK_CHAL 2, HMK_CHAL 3, FLT_CNT1, HMK_STAT, SYS_STAT]) :
    (s.systemReset cause detail).reg k = if keptReg k then (s.causeRecorded cause detail).reg k else resetOf k := by
  simp only [List.mem_cons, List.not_mem_nil, or_false, not_or] at hk
  obtain ⟨hdbg, hc0, hc1, hc2, hc3, hflt, hhmk, hstat⟩ := hk
  have hchal : ∀ i, i < 4 → k ≠ HMK_CHAL i := fun i hi => by
    obtain rfl | rfl | rfl | rfl : i = 0 ∨ i = 1 ∨ i = 2 ∨ i = 3 := by omega
    all_goals assumption
  rw [State.systemReset_eq hp hr, State.reg_resetEntry_ne _ hdbg hchal, State.reg_keepParts_ne _ hflt hhmk hstat,
    State.reg_resetLogic]

theorem State.systemReset_cleared {s : State} (hp : s.sys.por = false) (hr : s.sys.rst = false) (cause detail : Nat) :
    s.cleared (s.systemReset cause detail) keptReg
      [SYS_RCAUSE, DBG_CTRL, HMK_CHAL 0, HMK_CHAL 1, HMK_CHAL 2, HMK_CHAL 3, FLT_CNT1, HMK_STAT, SYS_STAT] := by
  obtain ⟨r, l, f, heq⟩ := State.systemReset_frame hp hr cause detail
  refine ⟨fun k => ?_, fun k hk => ?_, ?_, ?_, ?_, ?_⟩
  · rw [heq]
    exact tabGet_filter memDefault inMram s.mem k
  · rw [List.mem_cons, not_or] at hk
    rw [State.reg_systemReset hp hr _ _ hk.2, State.reg_causeRecorded_ne _ _ _ hk.1]
  all_goals
    rw [heq]
    rfl

theorem State.systemReset_loupe {s : State} (hp : s.sys.por = false) (hr : s.sys.rst = false) (cause detail : Nat) :
    (s.systemReset cause detail).bit DBG_CTRL 0 = decide (s.fld HMK_STAT HMK_STAT_ENR = 0) := by
  rw [State.systemReset_eq hp hr, State.resetEntry_loupe, State.keepParts_enr, State.fld, State.reg_resetLogic,
    if_pos (by decide), State.reg_causeRecorded_ne _ _ _ (by decide), State.fld]

/-- R611, R612, R614: a system reset is issued. -/
theorem State.systemReset_wasReset {s : State} (hp : s.sys.por = false) (hr : s.sys.rst = false) (cause detail : Nat) :
    s.wasReset (s.systemReset cause detail) cause detail := by
  obtain ⟨r, l, f, heq⟩ := State.systemReset_frame hp hr cause detail
  have hfld : ∀ f, (s.systemReset cause detail).fld SYS_RCAUSE f = (s.causeRecorded cause detail).fld SYS_RCAUSE f := fun f => by
    rw [State.fld, State.reg_systemReset hp hr _ _ (by decide), if_pos (by decide), State.fld]
  obtain ⟨hcause, hdetail, hcount⟩ := s.causeRecorded_shows cause detail
  refine ⟨?_, ?_, ?_, (hfld _).trans hcause, (hfld _).trans hdetail, (hfld _).trans hcount, State.systemReset_cleared hp hr _ _,
    ?_, ?_, ?_, ?_, State.systemReset_loupe hp hr _ _⟩
  all_goals
    rw [heq]
    rfl

/-! ### The end of a power-on reset (R59, R614) -/

/-- RST_N stays low for 100 to 110 µs after the end of a reset (R614, R627). -/
theorem State.endReset_spec (s : State) : ∃ x, s.now + 40000 ≤ x ∧ x ≤ s.now + 44000
    ∧ s.endReset = { s with sys := { s.sys with por := false, rst := false, hold := 0, rstn := some x }
                            freeUses := s.freeUses + 1 } := by
  refine ⟨s.now + 40000 + s.freeVal 0x61400 % 4001, by omega, ?_, rfl⟩
  have := Nat.mod_lt (s.freeVal 0x61400) (show 0 < 4001 by decide)
  omega

/-- R609, R614: PORST_N, and a rail below its reset threshold. -/
theorem powerOnResets (s : State) :
    (∃ t, exec .porstAssert s = .next t ∧ t.reg SYS_RCAUSE = 2 ∧ t.sys.por = true
        ∧ t.enrol = s.enrol ∧ s.cleared t hallmarkReg [SYS_RCAUSE, HMK_STAT])
      ∧ ∀ rail : Fin 5, ∃ t, exec (.railResetCrossing rail) s = .next t
        ∧ t.reg SYS_RCAUSE = BitVec.ofNat 32 (1 + 16 * rail) ∧ t.sys.por = true
        ∧ t.enrol = s.enrol ∧ s.cleared t hallmarkReg [SYS_RCAUSE, HMK_STAT] :=
  ⟨⟨_, rfl, s.powerOn_resets 2 0⟩, fun rail => ⟨_, rfl, s.powerOn_resets 1 rail⟩⟩

/-- The state of rails and RTC as the release of power-on reset shows it (R59). -/
def State.railsGood (s : State) (warn : BitVec 5) : State :=
  ((s.setFld SYS_STAT SYS_STAT_GOOD 31).setFld SYS_STAT SYS_STAT_WARN warn.toNat).setBit SYS_CLK SYS_CLK_RTCOK
    (!s.bit SYS_CLK SYS_CLK_RTCRC)

theorem State.railsGood_shows (s : State) (warn : BitVec 5) :
    (s.railsGood warn).fld SYS_STAT SYS_STAT_GOOD = 31 ∧ (s.railsGood warn).fld SYS_STAT SYS_STAT_WARN = warn.toNat := by
  have hstat : (s.railsGood warn).reg SYS_STAT
      = SYS_STAT_WARN.set (SYS_STAT_GOOD.set (s.reg SYS_STAT) 31) warn.toNat := by
    rw [State.railsGood, State.reg_setBit_ne _ _ _ (by decide), State.reg_setFld_same, State.reg_setFld_same]
  rw [State.fld, State.fld, hstat]
  constructor
  · rw [Fld.get_set_ne _ _ _ _ (by decide), Fld.get_set_same _ _ _ (by decide)]
    rfl
  · rw [Fld.get_set_same _ _ _ (by decide)]
    exact Nat.mod_eq_of_lt warn.isLt

/-- R59: the release of power-on reset. -/
theorem porRelease_starts (s : State) (warn : BitVec 5) (hpor : s.sys.por = true) :
    ∃ t, exec (.porRelease warn) s = .next t
      ∧ t.sys.por = false ∧ t.fld SYS_STAT SYS_STAT_GOOD = 31 ∧ t.fld SYS_STAT SYS_STAT_WARN = warn.toNat
      ∧ (∃ x, t.sys.rstn = some x ∧ s.now + 40000 ≤ x ∧ x ≤ s.now + 44000)
      ∧ t.bit DBG_CTRL 0 = decide (s.fld HMK_STAT HMK_STAT_ENR = 0) ∧ t.mem = s.mem := by
  obtain ⟨x, hlo, hhi, hend⟩ := (s.railsGood warn).endReset_spec
  obtain ⟨r, l, hentry⟩ := (s.railsGood warn).endReset.resetEntry_eq
  obtain ⟨hgood, hwarn⟩ := s.railsGood_shows warn
  have hreg : ∀ k, (s.railsGood warn).endReset.reg k = (s.railsGood warn).reg k := fun k => by rw [hend]; rfl
  have hstat : (s.railsGood warn).endReset.resetEntry.reg SYS_STAT = (s.railsGood warn).reg SYS_STAT := by
    rw [State.reg_resetEntry_ne _ (by decide) fun i _ => by simp only [SYS_STAT, HMK_CHAL]; omega, hreg]
  have henr : (s.railsGood warn).endReset.fld HMK_STAT HMK_STAT_ENR = s.fld HMK_STAT HMK_STAT_ENR := by
    rw [State.fld, hreg, State.railsGood, State.reg_setBit_ne _ _ _ (by decide), State.reg_setFld_ne _ _ _ (by decide),
      State.reg_setFld_ne _ _ _ (by decide), State.fld]
  refine ⟨(s.railsGood warn).endReset.resetEntry, ?_, ?_, ?_, ?_, ⟨x, ?_, hlo, hhi⟩, ?_, ?_⟩
  · change execPorRelease warn s = _
    rw [execPorRelease, if_pos hpor]
    rfl
  · rw [hentry, hend]
  · rw [State.fld, hstat]
    exact hgood
  · rw [State.fld, hstat]
    exact hwarn
  · rw [hentry, hend]
  · rw [State.resetEntry_loupe, henr]
  · rw [hentry, hend]
    rfl

/-! ### Supply warning (R610, R613) -/

/-- What a reset that the hardware itself issues leaves of the output enables, the engines and the calendar. -/
theorem State.wasReset.stopped {s t : State} {cause detail : Nat} (h : s.wasReset t cause detail) :
    t.reg OUT_ENI = 0 ∧ t.reg OUT_ENG = 0 ∧ t.reg OUT_ENA = 0 ∧ t.reg AEN_CTRL = 0 ∧ t.calq = [] ∧ t.stage = [] := by
  obtain ⟨-, -, -, -, -, -, ⟨-, hreg, -, hcalq, hstage, -⟩, -⟩ := h
  exact ⟨hreg _ (by decide), hreg _ (by decide), hreg _ (by decide), hreg _ (by decide), hcalq, hstage⟩

theorem msgBlk_sys (unit kind cls inj detail : Nat) : msgBlk (faultWord blkSYS unit kind cls inj detail) = blkSYS := by
  simp only [msgBlk, faultWord, blkSYS, BitVec.toNat_ofNat]
  omega

/-- The state in which the reset of a supply warning is issued (R610). -/
def State.warned (s : State) (rail : Nat) : State := (((s.showWarn rail).warnMessage rail).lktCommit rail).warnSafe

theorem State.RunFrame.warned (s : State) (rail : Nat) : s.RunFrame (s.warned rail) := by
  have hmsg : s.RunFrame ((s.showWarn rail).warnMessage rail) := (RunFrame.refl s).setBit.decideMsg (msgBlk_sys _ _ _ _ _)
  have hsafe := (hmsg.lktCommit (rail := rail)).applySafe (level := 3)
  exact .ite hsafe.setFld.setFld hsafe

theorem supplyWarning_inReset (s : State) (rail : Fin 5) (h : s.sys.por = true ∨ s.sys.rst = true) :
    ∃ t, exec (.supplyWarning rail) s = .next t ∧ t.bit SYS_STAT (8 + rail) = true ∧ s.onlyRegs t [SYS_STAT] := by
  refine ⟨s.showWarn rail, ?_, State.bit_setBit_same _ _ _ _ (by omega), rfl, fun k hk => ?_⟩
  · change execSupplyWarning rail s = _
    rw [execSupplyWarning, if_pos (by simpa using h)]
  · exact State.reg_setBit_ne _ _ _ (by simpa using hk)

theorem supplyWarning_resets (s : State) (rail : Fin 5) (hp : s.sys.por = false) (hr : s.sys.rst = false)
    (hm : s.sys.mode = .run) :
    ∃ t, exec (.supplyWarning rail) s = .next t
      ∧ t.sys.rst = true ∧ t.sys.rstAt = s.now ∧ t.sys.hold = 1 ∧ t.fld SYS_RCAUSE SYS_RCAUSE_CAUSE = 3
      ∧ t.fld SYS_RCAUSE SYS_RCAUSE_DETAIL = rail ∧ t.reg OUT_ENI = 0 ∧ t.reg OUT_ENG = 0 ∧ t.reg OUT_ENA = 0
      ∧ t.reg AEN_CTRL = 0 ∧ t.calq = [] ∧ t.stage = [] := by
  have hframe := State.RunFrame.warned s rail
  have hreset : (s.warned rail).wasReset _ 3 rail := State.systemReset_wasReset (hframe.por.trans hp) (hframe.rst.trans hr) 3 rail
  have hstopped := hreset.stopped
  obtain ⟨hrst, hat, -, hcause, hdetail, -⟩ := hreset
  refine ⟨((s.warned rail).systemReset 3 rail).updSys fun y => { y with hold := 1 }, ?_, hrst, hat.trans hframe.now, rfl, hcause,
    hdetail.trans (Nat.mod_eq_of_lt (by omega)), hstopped⟩
  change execSupplyWarning rail s = _
  rw [execSupplyWarning, if_neg (by simp [hp, hr]), hm]
  rfl

/-! ### The other causes of a reset (R614) -/

/-- A reset of a state that differs from `s` in the supervisor, or in registers that read the same, is a reset of `s`. -/
theorem State.wasReset.congr {s u t : State} {cause detail : Nat} (h : u.wasReset t cause detail)
    (hu : u = { s with regs := u.regs, sys := u.sys }) (hreg : ∀ k, u.reg k = s.reg k) : s.wasReset t cause detail := by
  obtain ⟨hrst, hat, hnow, hcause, hdetail, hcount, hclr, hinj, hdrive, hpwm, hout, hdbg⟩ := h
  obtain ⟨hmem, hregs, hinf, hcalq, hstage, hpend⟩ := hclr
  have hfld : ∀ k f, u.fld k f = s.fld k f := fun k f => by rw [State.fld, hreg, State.fld]
  rw [hfld] at hcount hdbg
  rw [hu] at hat hnow hpend hinj hdrive hpwm hout
  refine ⟨hrst, hat, hnow, hcause, hdetail, hcount, ⟨fun k => ?_, fun k hk => ?_, hinf, hcalq, hstage, hpend⟩, hinj, hdrive,
    hpwm, hout, hdbg⟩
  · rw [hmem, hu]
    rfl
  · rw [hregs k hk, hreg]

/-! #### A refused write (R13, R552) -/

/-- What a refusal leaves once its bit of WERR is marked. -/
theorem State.writeRefused_of_marked {s u : State} {addr : Nat} (unit : Nat) (hu : s.RegsDiffer u)
    (hreg : ∀ k, k ≠ werrKey (blkOf addr) → u.reg k = s.reg k) :
    s.writeRefused ((u.setFld (werraKey (blkOf addr)) ⟨0, 16⟩ (addr % 0x10000)).sendFault (blkOf addr) unit 0x01 clsC
      (addr % 0x10000)) addr := by
  have hdiff := hu.trans (.setFld u (werraKey (blkOf addr)) (addr % 0x10000) ⟨0, 16⟩)
  have hoff := State.fld_setFld_same u (werraKey (blkOf addr)) ⟨0, 16⟩ (addr % 0x10000) (by decide)
  have hrest : ∀ k, k ≠ werraKey (blkOf addr) →
      (u.setFld (werraKey (blkOf addr)) ⟨0, 16⟩ (addr % 0x10000)).reg k = u.reg k := fun k hk => State.reg_setFld_ne _ _ _ hk
  generalize u.setFld (werraKey (blkOf addr)) ⟨0, 16⟩ (addr % 0x10000) = v at hdiff hoff hrest
  have hinf : v.inflight = s.inflight := by rw [hdiff]
  rw [State.sendFault]
  refine ⟨?_, ⟨unit, ?_⟩, ?_, fun k hk hka => ?_⟩
  · rw [hdiff]
    rfl
  · rw [State.launch_inflight, hinf]
    rfl
  · rw [State.fld, State.reg_launch]
    have hmod : addr % 0x10000 % 2 ^ 16 = addr % 0x10000 := by omega
    exact hoff.trans hmod
  · rw [State.reg_launch, hrest k hka, hreg k hk]

/-- A refused write, at an address that holds a register. -/
theorem State.refuseWrite_refused {s : State} {addr : Nat} {r : Row} {i j : Nat}
    (hrow : rowFind (blockRows (blkOf addr)) (addr % 0x10000) = some (r, i, j)) : s.writeRefused (s.refuseWrite addr) addr := by
  have unfolded : ∀ f, f = @State.refuseWrite → s.writeRefused (f s addr) addr := by
    intro f hf
    delta State.refuseWrite at hf
    subst hf
    beta_reduce
    rw [hrow]
    dsimp only
    refine State.writeRefused_of_marked _ ?_ fun k hk => ?_
    · split
      · exact .refl s
      · exact .setReg _ _ _
      · exact .setReg _ _ _
    · split
      · rfl
      · exact State.reg_setBit_ne _ _ _ hk
      · exact State.reg_setBit_ne _ _ _ hk
  exact unfolded _ rfl

/-- A write that breaks a condition of its chapter is refused. -/
theorem State.writeWith_of_illegal {s : State} {addr : Nat} {w : Word} {locked legal : Bool} {act : State → State} {r : Row}
    {i j : Nat} (hrow : rowFind (blockRows (blkOf addr)) (addr % 0x10000) = some (r, i, j)) (hlegal : legal = false) :
    s.writeWith addr w locked legal act = s.refuseWrite addr := by
  have unfolded : ∀ f, f = @State.writeWith → f s addr w locked legal act = s.refuseWrite addr := by
    intro f hf
    delta State.writeWith at hf
    subst hf
    beta_reduce
    rw [hrow]
    exact if_neg (by simp [hlegal])
  exact unfolded _ rfl

/-! #### Writes of SYS_RST -/

theorem bitOf_of_get {w : Word} {i : Nat} (h : (bitFld i).get w = 1) : bitOf w i = true := by
  have hbit := Fld.get_testBit (bitFld i) w 0
  rw [h] at hbit
  simpa [bitOf] using hbit.symm

/-- The row of SYS_RST: two command fields, which the register does not keep. -/
def sysRstRow : Row :=
  { off := 0x18, s1 := 0x4, c1 := 1, s2 := 0x4, c2 := 1, rst := 0x0, werr := .bit 1, lock := .none,
    flds := [⟨SYS_RST_GO, .wo, .any⟩, ⟨SYS_RST_KEY, .wo, .any⟩] }

theorem rowFind_SYS_RST : rowFind (blockRows (blkOf SYS_RST)) (SYS_RST % 0x10000) = some (sysRstRow, 0, 0) := by decide

theorem State.sysLegal_SYS_RST (s : State) {w : Word} (hgo : SYS_RST_GO.get w = 1) :
    s.sysLegal SYS_RST w = (SYS_RST_KEY.get w == 0x5A) := by
  rw [State.sysLegal, if_neg (by decide), if_pos rfl, if_pos hgo]

theorem sysRst_resets {s : State} (hp : s.sys.por = false) (hr : s.sys.rst = false) (w : Word) (hgo : SYS_RST_GO.get w = 1)
    (hkey : SYS_RST_KEY.get w = 0x5A) : ∃ t, exec (.sysRst w) s = .next t ∧ s.wasReset t 5 0 := by
  have hlegal : s.sysLegal SYS_RST w = true := by rw [s.sysLegal_SYS_RST hgo, hkey]; rfl
  let u := s.setReg SYS_RST (s.reg SYS_RST)
  refine ⟨u.systemReset 5 0, ?_, (State.systemReset_wasReset (s := u) hp hr 5 0).congr rfl (s.reg_setReg_self SYS_RST)⟩
  change Host.Outcome.next (s.sysWrite 0 SYS_RST w) = _
  rw [State.sysWrite, if_neg (by decide), State.writeWith_of_legal rowFind_SYS_RST rfl rfl hlegal, if_pos rfl,
    if_pos (bitOf_of_get hgo)]
  rfl

theorem sysRst_refused (s : State) (w : Word) (hgo : SYS_RST_GO.get w = 1) (hkey : SYS_RST_KEY.get w ≠ 0x5A) :
    ∃ t, exec (.sysRst w) s = .next t ∧ s.writeRefused t SYS_RST := by
  have hlegal : s.sysLegal SYS_RST w = false := by rw [s.sysLegal_SYS_RST hgo]; simpa using hkey
  refine ⟨s.refuseWrite SYS_RST, ?_, State.refuseWrite_refused rowFind_SYS_RST⟩
  change Host.Outcome.next (s.sysWrite 0 SYS_RST w) = _
  rw [State.sysWrite, if_neg (by decide), State.writeWith_of_illegal rowFind_SYS_RST hlegal]

/-- R614: the causes of a system reset. -/
theorem systemReset_causes (s : State) (hp : s.sys.por = false) (hr : s.sys.rst = false) :
    (∀ c d, s.sys.ask = some (c, d) → ∃ t, exec .systemReset s = .next t ∧ t.sys.ask = none ∧ s.wasReset t c d)
    ∧ (∀ w, SYS_RST_GO.get w = 1 → SYS_RST_KEY.get w = 0x5A → ∃ t, exec (.sysRst w) s = .next t ∧ s.wasReset t 5 0)
    ∧ (∀ w, SYS_RST_GO.get w = 1 → SYS_RST_KEY.get w ≠ 0x5A →
      ∃ t, exec (.sysRst w) s = .next t ∧ s.writeRefused t SYS_RST)
    ∧ (s.sys.rstn = none → ∃ t, exec .rstnInput s = .next t ∧ s.wasReset t 6 0) := by
  refine ⟨fun c d hask => ?_, sysRst_resets hp hr, sysRst_refused s, fun hrstn => ?_⟩
  · let u := s.updSys fun y => { y with ask := none }
    obtain ⟨r, l, f, heq⟩ := State.systemReset_frame (s := u) hp hr c d
    refine ⟨u.systemReset c d, ?_, ?_, (State.systemReset_wasReset (s := u) hp hr c d).congr rfl fun _ => rfl⟩
    · change execSystemReset s = _
      rw [execSystemReset, hask]
    · rw [heq]
      rfl
  · refine ⟨s.systemReset 6 0, ?_, State.systemReset_wasReset hp hr 6 0⟩
    change Host.Outcome.next (if s.rstnLow then s else s.systemReset 6 0) = _
    rw [if_neg (by simp [State.rstnLow, hp, hr, hrstn])]

/-! #### The end of a reset (R613, R614) -/

theorem systemReset_ends (s : State) (hr : s.sys.rst = true) :
    (s.sys.hold = 0 → s.sys.rstAt + 4000 ≤ s.now → ∃ t, exec .systemResetEnd s = .next t
      ∧ t.sys.rst = false ∧ (∃ x, t.sys.rstn = some x ∧ s.now + 40000 ≤ x ∧ x ≤ s.now + 44000)
      ∧ t.regs = s.regs ∧ t.mem = s.mem)
    ∧ (s.now < s.sys.rstAt + 4000 → exec .systemResetEnd s = .next s)
    ∧ (s.sys.hold = 1 → ∃ t, exec .resetHoldEnd s = .next t
      ∧ t.sys.rst = false ∧ t.fld SYS_STAT SYS_STAT_WARN = 0 ∧ (∀ k, k ≠ SYS_STAT → t.reg k = s.reg k)
      ∧ t.mem = s.mem) := by
  refine ⟨fun hhold htime => ?_, fun htime => ?_, fun hhold => ?_⟩
  · obtain ⟨x, hlo, hhi, hend⟩ := s.endReset_spec
    refine ⟨s.endReset, ?_, ?_, ⟨x, ?_, hlo, hhi⟩, ?_, ?_⟩
    · change execSystemResetEnd s = _
      rw [execSystemResetEnd, if_pos (by simp [hr, hhold, htime])]
    all_goals rw [hend]
  · change execSystemResetEnd s = _
    rw [execSystemResetEnd, if_neg (by simp [htime])]
  · let u := s.setFld SYS_STAT SYS_STAT_WARN 0
    obtain ⟨x, -, -, hend⟩ := u.endReset_spec
    have hreg : ∀ k, u.endReset.reg k = u.reg k := fun k => by rw [hend]; rfl
    refine ⟨u.endReset, ?_, ?_, ?_, fun k hk => ?_, ?_⟩
    · change execResetHoldEnd s = _
      rw [execResetHoldEnd, if_pos (by simp [hr, hhold])]
    · rw [hend]
    · rw [State.fld, hreg]
      exact State.fld_setFld_same _ _ _ _ (by decide)
    · rw [hreg]
      exact State.reg_setFld_ne _ _ _ hk
    · rw [hend]
      rfl

/-! ### The high-voltage die below 5.0 V (R50) -/

theorem vsysHvHold_resets (s : State) : ∃ t, exec .vsysHvHold s = .next t ∧ t.d2dUp = false
    ∧ (∀ k, t.reg k = if 0x400A0000 ≤ k ∧ k < 0x400C0000 then resetOf k else s.reg k)
    ∧ (∀ n, n < 12 → (t.injOf n).st = .off) ∧ (∀ n, n < 10 → (t.pwmOf n).h = false ∧ (t.pwmOf n).l = false)
    ∧ t = { s with regs := t.regs, inj := t.inj, drive := t.drive, pwm := t.pwm, d2dUp := false } := by
  refine ⟨_, rfl, rfl, fun k => ?_, fun n hn => ?_, fun n hn => ?_, rfl⟩
  · refine (tabGet_filter resetOf (fun k => !(0x400A0000 ≤ k && k < 0x400C0000)) s.regs k).trans ?_
    by_cases hk : 0x400A0000 ≤ k ∧ k < 0x400C0000
    · rw [if_neg (by simp [hk]), if_pos hk]
    · rw [if_pos (by simp; omega), if_neg hk]
      rfl
  · have hinj : vat State.reset.inj n = {} := by rw [vat_lt _ hn]; exact Vector.getElem_replicate _
    rw [State.injOf, hinj]
  · have hpwm : vat State.reset.pwm n = {} := by rw [vat_lt _ hn]; exact Vector.getElem_replicate _
    rw [State.pwmOf, hpwm]
    exact ⟨rfl, rfl⟩

/-! ### Clocks (R617 to R620) -/

theorem crystalValid_shows (s : State) : ∃ t, exec .crystalValid s = .next t ∧ t.bit SYS_CLK 0 = true
    ∧ t.fld LKT_TSECH LKT_TSECH_XTAL = 1 ∧ s.onlyRegs t [SYS_CLK, LKT_TSECH] := by
  refine ⟨_, rfl, ?_, State.fld_setFld_same _ _ _ _ (by decide), rfl, fun k hk => ?_⟩
  · rw [State.bit, State.reg_setFld_ne _ _ _ (by decide), ← State.bit, State.bit_setBit_same _ _ _ _ (by decide)]
  · simp only [List.mem_cons, List.not_mem_nil, or_false, not_or] at hk
    rw [State.reg_setFld_ne _ _ _ hk.2, State.reg_setBit_ne _ _ _ hk.1]

theorem pllLock_shows (s : State) (p : Fin 3) :
    (s.bit SYS_CLK 0 = true → ∃ t, exec (.pllLock p) s = .next t
      ∧ t.bit SYS_CLK (1 + p) = true ∧ (∀ b, b ≠ 1 + p.val → t.bit SYS_CLK b = s.bit SYS_CLK b) ∧ s.onlyRegs t [SYS_CLK])
    ∧ (s.bit SYS_CLK 0 = false → exec (.pllLock p) s = .next s) := by
  refine ⟨fun hx => ⟨s.setBit SYS_CLK (1 + p) true, ?_, State.bit_setBit_same _ _ _ _ (by omega), fun b hb => ?_, rfl,
    fun k hk => State.reg_setBit_ne _ _ _ (by simpa using hk)⟩, fun hx => ?_⟩
  · change Host.Outcome.next (if s.bit SYS_CLK 0 then _ else s) = _
    rw [if_pos hx]
  · rw [State.bit, State.reg_setBit_same, bitOf_withBit_ne _ _ hb, State.bit]
  · change Host.Outcome.next (if s.bit SYS_CLK 0 then _ else s) = _
    rw [if_neg (by simp [hx])]

/-- The state in which the reset of a clock failure is issued (R619). -/
def State.clockWarned (s : State) (code : Nat) : State :=
  ((s.decideMsg (faultWord blkSYS 0 0x11 clsF 0 code)).applySafe 3).lktCommit code

theorem State.RunFrame.clockWarned (s : State) (code : Nat) : s.RunFrame (s.clockWarned code) :=
  ((RunFrame.refl s).decideMsg (msgBlk_sys _ _ _ _ _)).applySafe.lktCommit

/-- A failed clock is shown as such; without the crystal nothing is locked (R617). -/
theorem State.clockFailed_shows (s : State) (c : Fin 4) :
    (s.clockFailed c).bit SYS_CLK c = false ∧ (c = 0 → ∀ b, b < 4 → (s.clockFailed c).bit SYS_CLK b = false) := by
  have hcrystal : ∀ b, b < 4 → (s.clockFailed 0).bit SYS_CLK b = false := fun b hb => by
    have hmask : (0xFFFFFFF0 : Word).getLsbD b = false := by
      obtain rfl | rfl | rfl | rfl : b = 0 ∨ b = 1 ∨ b = 2 ∨ b = 3 := by omega
      all_goals rfl
    rw [State.bit, State.clockFailed, if_pos rfl, State.reg_setFld_ne _ _ _ (by decide), State.reg_setReg_same, bitOf,
      BitVec.getLsbD_and, hmask, Bool.and_false]
  by_cases hc : c = 0
  · subst hc
    exact ⟨hcrystal 0 (by decide), fun _ => hcrystal⟩
  · refine ⟨?_, fun h => absurd h hc⟩
    rw [State.clockFailed, if_neg fun h : c.val = 0 => hc (Fin.ext h), State.bit_setBit_same _ _ _ _ (by omega)]

theorem State.reg_clockFailed_ne (s : State) (code : Nat) {k : Nat} (hc : k ≠ SYS_CLK) (ht : k ≠ LKT_TSECH) :
    (s.clockFailed code).reg k = s.reg k := by
  unfold State.clockFailed
  split
  · rw [State.reg_setFld_ne _ _ _ ht, State.reg_setReg_ne _ _ hc]
  · exact State.reg_setBit_ne _ _ _ hc

theorem State.RegsDiffer.clockFailed (s : State) (code : Nat) : s.RegsDiffer (s.clockFailed code) := by
  unfold State.clockFailed
  split
  · exact (setReg s _ _).trans (setFld _ _ _ _)
  · exact setReg s _ _

/-- R618, R619: the failure of a watched clock resets the unit. -/
theorem clkfail_resets (s : State) (c : Fin 4) (hp : s.sys.por = false) (hr : s.sys.rst = false) (hm : s.sys.mode = .run) :
    ∃ t, exec (.clkfail c) s = .next t ∧ t.sys.rst = true ∧ t.sys.rstAt = s.now ∧ t.sys.hold = 2
      ∧ t.fld SYS_RCAUSE SYS_RCAUSE_CAUSE = 7 ∧ t.fld SYS_RCAUSE SYS_RCAUSE_DETAIL = c
      ∧ t.bit SYS_CLK c = false ∧ (c = 0 → ∀ b, b < 4 → t.bit SYS_CLK b = false) ∧ t.reg AEN_CTRL = 0 := by
  have hframe := State.RunFrame.clockWarned s c
  have hreset : (s.clockWarned c).wasReset _ 7 c :=
    State.systemReset_wasReset (hframe.por.trans hp) (hframe.rst.trans hr) 7 c
  obtain ⟨-, -, -, haen, -, -⟩ := hreset.stopped
  obtain ⟨hrst, hat, -, hcause, hdetail, -⟩ := hreset
  obtain ⟨hown, hall⟩ := ((s.clockWarned c).systemReset 7 c).clockFailed_shows c
  refine ⟨(((s.clockWarned c).systemReset 7 c).clockFailed c).updSys fun y => { y with hold := 2 }, ?_, ?_⟩
  · change execClkfail c s = _
    rw [execClkfail, if_neg (by simp [hp, hm]), if_neg (by simp [hr])]
    rfl
  generalize (s.clockWarned c).systemReset 7 c = u at *
  have hsys : (u.clockFailed c).sys = u.sys := by rw [State.RegsDiffer.clockFailed u c]
  have hreg : ∀ k, k ≠ SYS_CLK → k ≠ LKT_TSECH →
      ((u.clockFailed c).updSys fun y => { y with hold := 2 }).reg k = u.reg k :=
    fun k hc ht => u.reg_clockFailed_ne c hc ht
  refine ⟨(congrArg Sys.rst hsys).trans hrst, (congrArg Sys.rstAt hsys).trans (hat.trans hframe.now), rfl, ?_, ?_, hown, hall, ?_⟩
  · rw [State.fld, hreg _ (by decide) (by decide)]
    exact hcause
  · rw [State.fld, hreg _ (by decide) (by decide)]
    exact hdetail.trans (Nat.mod_eq_of_lt (by omega))
  · rw [hreg _ (by decide) (by decide)]
    exact haen

theorem State.bit_raise (s : State) (evt : Nat) {bit : Nat} (h : bit < 32) : (s.raise evt bit).bit evt bit = true := by
  rw [State.bit, State.raise, State.reg_launch, ← State.bit, State.bit_setBit_same _ _ _ _ h]

/-- An event whose register is among `ks`, behind changes of registers of `ks` alone. -/
theorem State.onlySends_raise {s u : State} {ks : List Nat} {evt : Nat} (bit : Nat) (hevt : evt ∈ ks) (hu : s.RegsDiffer u)
    (hreg : ∀ k, k ∉ ks → u.reg k = s.reg k) : s.onlySends (u.raise evt bit) ks [evtItem evt bit] := by
  refine ⟨?_, fun k hk => (State.reg_raise_ne _ _ (by rintro rfl; exact hk hevt)).trans (hreg k hk)⟩
  have hset : s.RegsDiffer (u.setBit evt bit true) := hu.trans (.setReg _ _ _)
  rw [State.raise]
  generalize u.setBit evt bit true = v at hset
  rw [hset]
  rfl

/-- R620: the RTC falls back to the RC oscillator. -/
theorem rtcf_fallsBack (s : State) : ∃ t, exec .rtcf s = .next t ∧ t.bit SYS_CLK 5 = true ∧ t.bit SYS_CLK 4 = false
    ∧ t.bit SYS_EVT 2 = true ∧ s.onlySends t [SYS_CLK, SYS_EVT] [evtItem SYS_EVT 2] := by
  refine ⟨((s.setBit SYS_CLK SYS_CLK_RTCRC true).setBit SYS_CLK SYS_CLK_RTCOK false).raise SYS_EVT SYS_EVT_RTCF, rfl, ?_, ?_,
    State.bit_raise _ _ (by decide),
    State.onlySends_raise 2 (by decide) ((State.RegsDiffer.setReg s _ _).trans (.setReg _ _ _)) fun k hk => ?_⟩
  · rw [State.bit, State.reg_raise_ne _ _ (by decide), State.reg_setBit_same, State.reg_setBit_same,
      bitOf_withBit_ne _ _ (by decide), bitOf_withBit_same _ _ _ (by decide)]
  · rw [State.bit, State.reg_raise_ne _ _ (by decide), State.reg_setBit_same, bitOf_withBit_same _ _ _ (by decide)]
  · simp only [List.mem_cons, List.not_mem_nil, or_false, not_or] at hk
    rw [State.reg_setBit_ne _ _ _ hk.1, State.reg_setBit_ne _ _ _ hk.1]

/-! ### The alarm (R621) -/

/-- The row of SYS_ALMH: the upper half of the armed value, and whether one is armed. -/
def sysAlmhRow : Row :=
  { off := 0x38, s1 := 0x4, c1 := 1, s2 := 0x4, c2 := 1, rst := 0x0, werr := .bit 4, lock := .none,
    flds := [⟨SYS_ALMH_ALM, .rw, .any⟩, ⟨SYS_ALMH_ARMED, .ro, .any⟩] }

theorem rowFind_SYS_ALMH : rowFind (blockRows (blkOf SYS_ALMH)) (SYS_ALMH % 0x10000) = some (sysAlmhRow, 0, 0) := by decide

/-- The value that a write of `w` to SYS_ALMH arms. -/
def State.alarmOf (s : State) (w : Word) : Nat := (s.reg SYS_ALML).toNat + 2 ^ 32 * (w.toNat % 65536)

theorem SYS_ALMH_ALM_get (w : Word) : SYS_ALMH_ALM.get w = w.toNat % 65536 := by simp [Fld.get]

theorem State.sysLegal_SYS_ALMH (s : State) (w : Word) :
    s.sysLegal SYS_ALMH w = (s.alarmOf w == 0 || decide (s.sys.rtc.toNat < s.alarmOf w)) := by
  rw [State.sysLegal, if_neg (by decide), if_neg (by decide), if_neg (by decide), if_pos rfl, SYS_ALMH_ALM_get, State.alarmOf]

/-- The state with the upper half written, before ARMED follows. -/
def State.alarmWritten (s : State) (w : Word) : State := s.setReg SYS_ALMH (SYS_ALMH_ALM.set (s.reg SYS_ALMH) (SYS_ALMH_ALM.get w))

theorem State.alarmAt_alarmWritten (s : State) (w : Word) : (s.alarmWritten w).alarmAt = s.alarmOf w := by
  have hmod : w.toNat % 65536 % 2 ^ 16 = w.toNat % 65536 := by omega
  rw [State.alarmAt, State.fld, State.alarmWritten, State.reg_setReg_ne _ _ (by decide), State.reg_setReg_same,
    Fld.get_set_same _ _ _ (by decide), SYS_ALMH_ALM_get, State.alarmOf, hmod]

theorem State.alarmAt_setArmed (s : State) (v : Nat) : (s.setFld SYS_ALMH SYS_ALMH_ARMED v).alarmAt = s.alarmAt := by
  rw [State.alarmAt, State.reg_setFld_ne _ _ _ (by decide), State.fld_setFld_ne _ _ _ _ _ (by decide), State.alarmAt]

/-- R621: a write of SYS_ALMH arms a value that lies ahead, disarms with 0, and is refused otherwise. -/
theorem alarmArm_arms (s : State) (w : Word) :
    (s.alarmOf w = 0 ∨ s.sys.rtc.toNat < s.alarmOf w → ∃ t, exec (.alarmArm w) s = .next t ∧ t.alarmAt = s.alarmOf w
      ∧ t.fld SYS_ALMH SYS_ALMH_ARMED = (if s.alarmOf w = 0 then 0 else 1) ∧ s.onlyRegs t [SYS_ALMH])
    ∧ (s.alarmOf w ≠ 0 → s.alarmOf w ≤ s.sys.rtc.toNat →
      ∃ t, exec (.alarmArm w) s = .next t ∧ s.writeRefused t SYS_ALMH) := by
  have hat := s.alarmAt_alarmWritten w
  refine ⟨fun hv => ?_, fun hv hle => ?_⟩
  · have hlegal : s.sysLegal SYS_ALMH w = true := by rw [s.sysLegal_SYS_ALMH]; simpa using hv
    refine ⟨(s.alarmWritten w).setFld SYS_ALMH SYS_ALMH_ARMED (b2n ((s.alarmWritten w).alarmAt != 0)), ?_, ?_, ?_, rfl,
      fun k hk => ?_⟩
    · change Host.Outcome.next (s.sysWrite 0 SYS_ALMH w) = _
      rw [State.sysWrite, if_neg (by decide), State.writeWith_of_legal rowFind_SYS_ALMH rfl rfl hlegal, if_neg (by decide),
        if_neg (by decide), if_pos rfl]
      rfl
    · rw [State.alarmAt_setArmed, hat]
    · rw [State.fld_setFld_same _ _ _ _ (by decide), hat]
      by_cases h0 : s.alarmOf w = 0
      · rw [if_pos h0, h0]
        rfl
      · rw [if_neg h0, bne_iff_ne.mpr h0]
        rfl
    · have hne : k ≠ SYS_ALMH := by simpa using hk
      rw [State.reg_setFld_ne _ _ _ hne, State.alarmWritten, State.reg_setReg_ne _ _ hne]
  · have hlegal : s.sysLegal SYS_ALMH w = false := by
      rw [s.sysLegal_SYS_ALMH, Bool.or_eq_false_iff]
      exact ⟨by simpa using hv, by simpa using hle⟩
    refine ⟨s.refuseWrite SYS_ALMH, ?_, State.refuseWrite_refused rowFind_SYS_ALMH⟩
    change Host.Outcome.next (s.sysWrite 0 SYS_ALMH w) = _
    rw [State.sysWrite, if_neg (by decide), State.writeWith_of_illegal rowFind_SYS_ALMH hlegal]

theorem alarmMatch_due (s : State) :
    (s.sys.alarm = true → ∃ t, exec .alarmMatch s = .next t ∧ t.bit SYS_EVT 1 = true
      ∧ t.sys = { s.sys with alarm := false } ∧ t.mem = s.mem ∧ t.inflight = s.inflight ++ [evtItem SYS_EVT 1]
      ∧ ∀ k, k ≠ SYS_EVT → t.reg k = s.reg k)
    ∧ (s.sys.alarm = false → exec .alarmMatch s = .next s) := by
  let u := s.updSys fun y => { y with alarm := false }
  refine ⟨fun ha => ⟨u.raise SYS_EVT SYS_EVT_ALARM, ?_, State.bit_raise _ _ (by decide), rfl, rfl, rfl,
    fun k hk => State.reg_raise_ne u _ hk⟩, fun ha => ?_⟩
  · change execAlarmMatch s = _
    rw [execAlarmMatch, if_pos ha]
  · change execAlarmMatch s = _
    rw [execAlarmMatch, if_neg (by simp [ha])]

/-! ### Entry into sleep (R622) -/

/-- The row of SYS_SLEEP: a command bit, which the register does not keep. -/
def sysSleepRow : Row :=
  { off := 0x20, s1 := 0x4, c1 := 1, s2 := 0x4, c2 := 1, rst := 0x0, werr := .bit 2, lock := .none,
    flds := [⟨SYS_SLEEP_GO, .wo, .any⟩] }

theorem rowFind_SYS_SLEEP : rowFind (blockRows (blkOf SYS_SLEEP)) (SYS_SLEEP % 0x10000) = some (sysSleepRow, 0, 0) := by decide

theorem State.sysLegal_SYS_SLEEP (s : State) : s.sysLegal SYS_SLEEP 1 = s.sleepLegal := by
  rw [State.sysLegal, if_neg (by decide), if_neg (by decide), if_pos rfl]
  rfl

/-- The state in which a legal GO takes effect. -/
def State.sleepAsked (s : State) : State := s.setReg SYS_SLEEP (s.reg SYS_SLEEP)

theorem State.reg_sleepAsked (s : State) (k : Nat) : s.sleepAsked.reg k = s.reg k := s.reg_setReg_self SYS_SLEEP k

theorem execSleepGo_of_legal {s : State} (active : Word) (h : s.sleepLegal = true) :
    exec (.sleepGo active) s = .next (s.sleepAsked.goSleep active) := by
  change Host.Outcome.next (s.sysWrite active SYS_SLEEP 1) = _
  rw [State.sysWrite, if_neg (by decide), State.writeWith_of_legal rowFind_SYS_SLEEP rfl rfl (s.sysLegal_SYS_SLEEP.trans h),
    if_neg (by decide), if_pos rfl, if_pos (by decide)]
  rfl

theorem sleepGo_enters (s : State) (active : Word) (hm : s.sys.mode = .run) :
    (s.sleepLegal = true → active &&& s.reg SYS_WAKE = 0 → ∃ t, exec (.sleepGo active) s = .next t
      ∧ t.sys = { s.sys with mode := .entry } ∧ t.mem = s.mem ∧ t.inflight = s.inflight ∧ ∀ k, t.reg k = s.reg k)
    ∧ (s.sleepLegal = true → active &&& s.reg SYS_WAKE ≠ 0 → ∃ t, exec (.sleepGo active) s = .next t
      ∧ t.bit SYS_EVT 3 = true ∧ s.onlySends t [SYS_EVT] [evtItem SYS_EVT 3])
    ∧ (s.sleepLegal = false → ∃ t, exec (.sleepGo active) s = .next t ∧ s.writeRefused t SYS_SLEEP) := by
  have hmode : ¬ s.sleepAsked.sys.mode ≠ .run := not_not.mpr hm
  refine ⟨fun hl hw => ?_, fun hl hw => ?_, fun hl => ?_⟩
  · refine ⟨s.sleepAsked.updSys fun y => { y with mode := .entry }, ?_, rfl, rfl, rfl, s.reg_sleepAsked⟩
    rw [execSleepGo_of_legal active hl, State.goSleep, if_neg hmode, if_neg (by rw [s.reg_sleepAsked]; exact not_not.mpr hw)]
  · refine ⟨s.sleepAsked.raise SYS_EVT SYS_EVT_SLPABT, ?_, State.bit_raise _ _ (by decide),
      State.onlySends_raise 3 (by decide) (.setReg _ _ _) fun k _ => s.reg_sleepAsked k⟩
    rw [execSleepGo_of_legal active hl, State.goSleep, if_neg hmode, if_pos (by rw [s.reg_sleepAsked]; exact hw)]
  · refine ⟨s.refuseWrite SYS_SLEEP, ?_, State.refuseWrite_refused rowFind_SYS_SLEEP⟩
    change Host.Outcome.next (s.sysWrite active SYS_SLEEP 1) = _
    rw [State.sysWrite, if_neg (by decide), State.writeWith_of_illegal rowFind_SYS_SLEEP (s.sysLegal_SYS_SLEEP.trans hl)]

theorem sleepEnter_begins (s : State) (hm : s.sys.mode = .entry) :
    (s.sleepDrained = true → ∃ t, exec .sleepEnter s = .next t ∧ t.sys = { s.sys with mode := .sleep, slept := s.now }
      ∧ t.d2dUp = false ∧ t.bit SYS_CLK 1 = false ∧ t.bit SYS_CLK 2 = false ∧ t.mem = s.mem
      ∧ ∀ k, k ≠ SYS_CLK → t.reg k = s.reg k)
    ∧ (s.sleepDrained = false → exec .sleepEnter s = .next s) := by
  refine ⟨fun hd => ?_, fun hd => ?_⟩
  · let u := (s.setBit SYS_CLK SYS_CLK_MLOCK false).setBit SYS_CLK SYS_CLK_LLOCK false
    refine ⟨({ u with d2dUp := false } : State).updSys fun y => { y with mode := .sleep, slept := s.now }, ?_, rfl, rfl, ?_,
      State.bit_setBit_same _ _ _ _ (by decide), rfl, fun k hk => ?_⟩
    · change execSleepEnter s = _
      rw [execSleepEnter, if_pos (by simp [hm, hd])]
    · change u.bit SYS_CLK 1 = false
      rw [State.bit, State.reg_setBit_same, bitOf_withBit_ne _ _ (by decide), State.reg_setBit_same,
        bitOf_withBit_same _ _ _ (by decide)]
    · exact (State.reg_setBit_ne _ _ _ hk).trans (State.reg_setBit_ne _ _ _ hk)
  · change execSleepEnter s = _
    rw [execSleepEnter, if_neg (by simp [hd])]

/-! ### Waking (R622 to R625) -/

/-- Thread `n` as its wait for a time completes: rd holds the slot counter, and the wake is traced. -/
def State.timeWaited (s : State) (n : Nat) : State :=
  (s.setTg n (s.thr n).waitRd.toNat s.slotW).traceThr n 0 (s.thPc n)

theorem State.wakeTim_of_waiting {s : State} {n : Nat} (hs : s.thState n = thWAIT)
    (hk : s.fld (AEN_TSTAT n) AEN_TSTAT_WKIND = wkTIM) :
    s.wakeTim n = if (s.timeWaited n).budHas ((s.timeWaited n).thAcct n) resISSUE 1 then (s.timeWaited n).setTh n thREADY
      else (s.timeWaited n).stall n := by
  rw [State.wakeTim, if_pos ⟨hs, hk⟩]
  rfl

theorem State.wakeTim_of_not_waiting {s : State} {n : Nat}
    (h : ¬ (s.thState n = thWAIT ∧ s.fld (AEN_TSTAT n) AEN_TSTAT_WKIND = wkTIM)) : s.wakeTim n = s := if_neg h

theorem State.reg_tracePut_ne (s : State) (on : Bool) (p : List Byte) {k : Nat} (hk : k ≠ DBG_STAT) :
    (s.tracePut on p).reg k = s.reg k := by
  unfold State.tracePut
  split
  · rfl
  · split
    · rfl
    · split
      · rfl
      · exact State.reg_setFld_ne _ _ _ hk

theorem State.reg_stall_ne (s : State) {n k : Nat} (ht : k ≠ AEN_TSTAT n) (hs : k ≠ AEN_STAT) (he : k ≠ AEN_EVT)
    (hb : k ≠ AEN_TBST n) : (s.stall n).reg k = s.reg k := by
  have hraised : ∀ bit, ((s.setTh n thSTALL).raise AEN_EVT bit).reg k = s.reg k := fun bit => by
    rw [State.reg_raise_ne _ _ he, State.reg_setTh_ne _ ht hs]
  unfold State.stall
  extract_lets s1
  split
  · exact hraised _
  · rw [State.reg_updThr, State.count, State.reg_setFld_ne _ _ _ hb]
    exact hraised _

theorem State.thState_stall (s : State) (n : Nat) : (s.stall n).thState n = thSTALL := by
  have hevt : AEN_TSTAT n ≠ AEN_EVT := by simp only [AEN_TSTAT, AEN_EVT]; omega
  have hbst : AEN_TSTAT n ≠ AEN_TBST n := by simp only [AEN_TSTAT, AEN_TBST]; omega
  have hraised : ∀ bit, ((s.setTh n thSTALL).raise AEN_EVT bit).thState n = thSTALL := fun bit => by
    rw [State.thState, State.fld, State.reg_raise_ne _ _ hevt, ← State.fld, ← State.thState,
      State.thState_setTh_same _ _ (by decide) (by decide)]
  unfold State.stall
  extract_lets s1
  split
  · exact hraised _
  · rw [State.thState_updThr, State.thState, State.fld, State.count, State.reg_setFld_ne _ _ _ hbst]
    exact hraised _

/-- Register `k` is none of those that the wake of thread `n` can change. -/
structure WakeApart (n k : Nat) : Prop where
  tg : ∀ r, r < 32 → k ≠ AEN_TG n r
  tstat : k ≠ AEN_TSTAT n
  stat : k ≠ AEN_STAT
  evt : k ≠ AEN_EVT
  tbst : k ≠ AEN_TBST n
  dbg : k ≠ DBG_STAT

theorem State.reg_timeWaited_ne (s : State) {n k : Nat} (h : WakeApart n k) : (s.timeWaited n).reg k = s.reg k := by
  rw [State.timeWaited, State.traceThr, State.reg_tracePut_ne _ _ _ h.dbg, State.setTg]
  split
  · rfl
  · exact State.reg_setReg_ne _ _ (h.tg _ (BitVec.isLt _))

theorem State.reg_wakeTim_ne (s : State) {n k : Nat} (h : WakeApart n k) : (s.wakeTim n).reg k = s.reg k := by
  by_cases hw : s.thState n = thWAIT ∧ s.fld (AEN_TSTAT n) AEN_TSTAT_WKIND = wkTIM
  · rw [State.wakeTim_of_waiting hw.1 hw.2]
    split
    · rw [State.reg_setTh_ne _ h.tstat h.stat, s.reg_timeWaited_ne h]
    · rw [State.reg_stall_ne _ h.tstat h.stat h.evt h.tbst, s.reg_timeWaited_ne h]
  · rw [State.wakeTim_of_not_waiting hw]

/-- A thread that waited for a time waits no longer. -/
theorem State.wakeTim_wakes {s : State} {n : Nat} (hs : s.thState n = thWAIT)
    (hk : s.fld (AEN_TSTAT n) AEN_TSTAT_WKIND = wkTIM) : (s.wakeTim n).thState n ≠ 2 := by
  rw [State.wakeTim_of_waiting hs hk]
  split
  · rw [State.thState_setTh_same _ _ (by decide) (by decide)]
    decide
  · rw [State.thState_stall]
    decide

theorem State.RunFrame.wakeTim {s t : State} {n : Nat} (h : s.RunFrame t) : s.RunFrame (t.wakeTim n) := by
  have hwaited : s.RunFrame (t.timeWaited n) := .tracePut h.setTg
  by_cases hw : t.thState n = thWAIT ∧ t.fld (AEN_TSTAT n) AEN_TSTAT_WKIND = wkTIM
  · rw [State.wakeTim_of_waiting hw.1 hw.2]
    exact .ite hwaited.setTh hwaited.stall
  · rw [State.wakeTim_of_not_waiting hw]
    exact h

/-- The unit as its clocks run again, before the threads wake (R623, R624). -/
def State.clocksRelocked (s : State) : State :=
  let s1 : State := { s with slot := s.slot + BitVec.ofNat 48 ((s.now - s.sys.slept) / 8 * 8) }
  let s2 : State := (((s1.updSys fun y => { y with mode := .run }).setBit SYS_CLK SYS_CLK_MLOCK true).setBit SYS_CLK SYS_CLK_LLOCK
    true).setReg ETH_STAT 0
  ((s2.updPort 0 fun _ => {}).updPort 1 fun _ => {}).chnShow

theorem State.restart_eq (s : State) : s.restart = (List.range 64).foldl State.wakeTim s.clocksRelocked := rfl

theorem State.reg_clocksRelocked_ne (s : State) {k : Nat} (hc : k ≠ SYS_CLK) (he : k ≠ ETH_STAT) (hp : k ≠ CHN_PSTAT) :
    s.clocksRelocked.reg k = s.reg k := by
  unfold State.clocksRelocked
  extract_lets s1 s2
  have h2 : s2.reg k = s.reg k := by
    unfold s2
    rw [State.reg_setReg_ne _ _ he, State.reg_setBit_ne _ _ _ hc, State.reg_setBit_ne _ _ _ hc]
    rfl
  rw [State.chnShow, State.reg_setReg_ne _ _ hp]
  exact h2

theorem State.clocksRelocked_clk (s : State) :
    s.clocksRelocked.reg SYS_CLK = withBit (withBit (s.reg SYS_CLK) SYS_CLK_MLOCK true) SYS_CLK_LLOCK true := by
  unfold State.clocksRelocked
  extract_lets s1 s2
  have h2 : s2.reg SYS_CLK = withBit (withBit (s.reg SYS_CLK) SYS_CLK_MLOCK true) SYS_CLK_LLOCK true := by
    unfold s2
    rw [State.reg_setReg_ne _ _ (by decide), State.reg_setBit_same, State.reg_setBit_same]
    rfl
  rw [State.chnShow, State.reg_setReg_ne _ _ (by decide)]
  exact h2

theorem State.RunFrame.restart (s : State) : s.clocksRelocked.RunFrame s.restart :=
  (RunFrame.refl _).foldl fun _ _ hu => hu.wakeTim

/-- The threads' wakes leave the clocks alone. -/
theorem State.restart_clk (s : State) : s.restart.reg SYS_CLK = s.clocksRelocked.reg SYS_CLK := by
  rw [State.restart_eq]
  refine List.foldlRecOn _ _ (motive := fun t : State => t.reg SYS_CLK = s.clocksRelocked.reg SYS_CLK) rfl fun t ht n _ => ?_
  refine (t.reg_wakeTim_ne ⟨fun r _ => ?_, ?_, by decide, by decide, ?_, by decide⟩).trans ht
  · simp only [SYS_CLK, AEN_TG]; omega
  · simp only [SYS_CLK, AEN_TSTAT]; omega
  · simp only [SYS_CLK, AEN_TBST]; omega

/-- R624: a thread that waited for a time has been woken. -/
theorem State.restart_wakes {s : State} (n : Fin 64) (hs : s.thState n = 2) (hk : s.fld (AEN_TSTAT n) AEN_TSTAT_WKIND = 2) :
    s.restart.thState n ≠ 2 := by
  have hlocked : s.clocksRelocked.reg (AEN_TSTAT n) = s.reg (AEN_TSTAT n) := by
    apply State.reg_clocksRelocked_ne
    all_goals simp only [AEN_TSTAT, SYS_CLK, ETH_STAT, CHN_PSTAT]; omega
  obtain ⟨u, hu, hf⟩ := exists_turn_of_foldl (fun t => t.reg (AEN_TSTAT n)) (f := State.wakeTim) s.clocksRelocked
    (List.mem_range.mpr n.isLt) List.nodup_range fun t m hm hmn => by
      have hm64 := List.mem_range.mp hm
      refine t.reg_wakeTim_ne ⟨fun r hr => ?_, ?_, ?_, ?_, ?_, ?_⟩
      · simp only [AEN_TSTAT, AEN_TG]; omega
      · simp only [AEN_TSTAT]; omega
      · simp only [AEN_TSTAT, AEN_STAT]; omega
      · simp only [AEN_TSTAT, AEN_EVT]; omega
      · simp only [AEN_TSTAT, AEN_TBST]; omega
      · simp only [AEN_TSTAT, DBG_STAT]; omega
  have hsame : ∀ f, u.fld (AEN_TSTAT n) f = s.fld (AEN_TSTAT n) f := fun f => by rw [State.fld, hu, hlocked, State.fld]
  have hwoken := State.wakeTim_wakes (s := u) (n := n) ((hsame _).trans hs) ((hsame _).trans hk)
  rwa [State.thState, State.fld, State.restart_eq, hf, ← State.fld, ← State.thState]

theorem wakeUp_not_enabled (s : State) (src : Word) (h : src &&& s.reg SYS_WAKE = 0) : exec (.wakeUp src) s = .next s := by
  change execWakeUp src s = _
  rw [execWakeUp, if_pos h]

theorem wakeUp_inEntry (s : State) (src : Word) (h : src &&& s.reg SYS_WAKE ≠ 0) (hm : s.sys.mode = .entry) :
    ∃ t, exec (.wakeUp src) s = .next t ∧ t.sys = { s.sys with mode := .run } ∧ t.bit SYS_EVT 3 = true ∧ t.mem = s.mem := by
  refine ⟨s.abortEntry, ?_, rfl, State.bit_raise _ _ (by decide), rfl⟩
  change execWakeUp src s = _
  rw [execWakeUp, if_neg h, hm]

theorem wakeUp_fromSleep (s : State) (src : Word) (h : src &&& s.reg SYS_WAKE ≠ 0) (hm : s.sys.mode = .sleep) :
    ∃ t, exec (.wakeUp src) s = .next t
      ∧ t.sys.mode = .run ∧ t.reg SYS_WSRC = src &&& s.reg SYS_WAKE ∧ t.bit SYS_EVT 0 = true
      ∧ t.bit SYS_CLK 1 = true ∧ t.bit SYS_CLK 2 = true
      ∧ t.slot = s.slot + BitVec.ofNat 48 ((s.now - s.sys.slept) / 8 * 8)
      ∧ ∀ n : Fin 64, s.thState n = 2 → s.fld (AEN_TSTAT n) AEN_TSTAT_WKIND = 2 → t.thState n ≠ 2 := by
  have hframe := State.RunFrame.restart s
  have hclk := s.restart_clk.trans s.clocksRelocked_clk
  have hwakes := State.restart_wakes (s := s)
  have hmode : s.clocksRelocked.sys.mode = .run := rfl
  have hslot : s.clocksRelocked.slot = s.slot + BitVec.ofNat 48 ((s.now - s.sys.slept) / 8 * 8) := rfl
  refine ⟨(s.restart.setReg SYS_WSRC (src &&& s.reg SYS_WAKE)).raise SYS_EVT SYS_EVT_WAKE, ?_, ?_⟩
  · change execWakeUp src s = _
    rw [execWakeUp, if_neg h, hm]
  generalize s.restart = u at *
  have hreg : ∀ k, k ≠ SYS_WSRC → k ≠ SYS_EVT →
      ((u.setReg SYS_WSRC (src &&& s.reg SYS_WAKE)).raise SYS_EVT SYS_EVT_WAKE).reg k = u.reg k := fun k hk he => by
    rw [State.reg_raise_ne _ _ he, State.reg_setReg_ne _ _ hk]
  refine ⟨hframe.mode.trans hmode, ?_, State.bit_raise _ _ (by decide), ?_, ?_, hframe.slot.trans hslot, fun n hs hk => ?_⟩
  · rw [State.reg_raise_ne _ _ (by decide), State.reg_setReg_same]
  · rw [State.bit, hreg _ (by decide) (by decide), hclk, bitOf_withBit_ne _ _ (by decide), bitOf_withBit_same _ _ _ (by decide)]
  · rw [State.bit, hreg _ (by decide) (by decide), hclk, bitOf_withBit_same _ _ _ (by decide)]
  · have hstat : ∀ k, k = SYS_WSRC ∨ k = SYS_EVT → AEN_TSTAT n ≠ k := by
      rintro k (rfl | rfl)
      · simp only [AEN_TSTAT, SYS_WSRC]; omega
      · simp only [AEN_TSTAT, SYS_EVT]; omega
    rw [State.thState, State.fld, hreg _ (hstat _ (.inl rfl)) (hstat _ (.inr rfl))]
    exact hwakes n hs hk

end Sys2Proof.Machine

open Sys2Proof.Machine

/-- Settles O21: each command is run on its own; the collector's decision, the safe state and the Locket commit before a reset
leave the time and the resets in progress alone, and the threads wake one turn of a loop after the other. -/
theorem resetsClocksAndSleep : Obligations.ResetsClocksAndSleep :=
  ⟨⟨powerOnResets, porRelease_starts,
      fun s rail => ⟨supplyWarning_inReset s rail, supplyWarning_resets s rail⟩,
      systemReset_causes, systemReset_ends, vsysHvHold_resets⟩,
    crystalValid_shows, pllLock_shows, clkfail_resets, rtcf_fallsBack, alarmArm_arms, alarmMatch_due, sleepGo_enters,
    sleepEnter_begins, fun s src => ⟨wakeUp_not_enabled s src, wakeUp_inEntry s src, wakeUp_fromSleep s src⟩⟩

end

section
/-! PROOFS. One slot of time (log 12): what the clocks change, and what they leave alone. -/

namespace Sys2Proof.Machine

/-! ### The observer's own bookkeeping (R127, R128) -/

/-- `t` is `s` but for the observer's part, items in flight and registers of block OBS. -/
structure State.ObsFrame (s t : State) : Prop where
  eq : t = { s with regs := t.regs, obs := t.obs, inflight := t.inflight }
  reg : ∀ k, k < 0x40060000 ∨ 0x40070000 ≤ k → t.reg k = s.reg k

namespace State.ObsFrame

variable {s t u : State}

theorem refl (s : State) : s.ObsFrame s := ⟨rfl, fun _ _ => rfl⟩

theorem trans (h : s.ObsFrame t) (h' : t.ObsFrame u) : s.ObsFrame u :=
  ⟨Eq.trans h'.eq (by rw [h.eq]), fun k hk => (h'.reg k hk).trans (h.reg k hk)⟩

theorem setReg {k : Nat} {v : Word} (h : s.ObsFrame t) (hk : 0x40060000 ≤ k ∧ k < 0x40070000 := by decide) :
    s.ObsFrame (t.setReg k v) :=
  h.trans ⟨rfl, fun _ hj => State.reg_setReg_ne _ _ (by omega)⟩

theorem launch {i j : Island} {b : Body} (h : s.ObsFrame t) : s.ObsFrame (t.launch i j b) := h.trans ⟨rfl, fun _ _ => rfl⟩

theorem updObs {f : Obs → Obs} (h : s.ObsFrame t) : s.ObsFrame (t.updObs f) := h.trans ⟨rfl, fun _ _ => rfl⟩

theorem ite {c : Prop} [Decidable c] (ht : s.ObsFrame t) (hu : s.ObsFrame u) : s.ObsFrame (if c then t else u) := by
  split
  · exact ht
  · exact hu

theorem countDiscard (h : s.ObsFrame t) : s.ObsFrame t.countDiscard := (h.setReg.setReg).launch

theorem dropPass {n : Nat} (h : s.ObsFrame t) : s.ObsFrame (t.dropPass n) := .ite h.updObs.countDiscard h

theorem dropPasses (h : s.ObsFrame t) : s.ObsFrame ((List.range 6).foldl State.dropPass t) :=
  List.foldlRecOn _ _ h fun _ hv _ _ => hv.dropPass

theorem coastCheck (h : s.ObsFrame t) : s.ObsFrame t.coastCheck := .setReg (.ite h.dropPasses h)

theorem coastTick (h : s.ObsFrame t) : s.ObsFrame t.coastTick := .ite h h.coastCheck

theorem fuelled (h : s.ObsFrame t) : s.ObsFrame t.fuelled := h.updObs.coastCheck

theorem addNoFuel {w : Word} (h : s.ObsFrame t) : s.ObsFrame (t.addNoFuel w) := .ite h.updObs h

theorem runAngle (h : s.ObsFrame t) : s.ObsFrame t.runAngle := .ite h.updObs.addNoFuel h

end State.ObsFrame

/-! ### What a slot leaves alone -/

/-- `t` is `s` as far as the queue of commands, memory, the threads and the clocks go. -/
structure State.ClockFrame (s t : State) : Prop where
  pending : t.pending = s.pending
  mem : t.mem = s.mem
  threads : t.threads = s.threads
  now : t.now = s.now
  slot : t.slot = s.slot
  clocks : t.sys.clocks = s.sys.clocks
  prevAng : t.prevAng = s.prevAng

namespace State.ClockFrame

variable {s t u : State}

theorem refl (s : State) : s.ClockFrame s := ⟨rfl, rfl, rfl, rfl, rfl, rfl, rfl⟩

theorem trans (h : s.ClockFrame t) (h' : t.ClockFrame u) : s.ClockFrame u :=
  ⟨h'.pending.trans h.pending, h'.mem.trans h.mem, h'.threads.trans h.threads, h'.now.trans h.now, h'.slot.trans h.slot,
    h'.clocks.trans h.clocks, h'.prevAng.trans h.prevAng⟩

theorem ite {c : Prop} [Decidable c] (ht : s.ClockFrame t) (hu : s.ClockFrame u) : s.ClockFrame (if c then t else u) := by
  split
  · exact ht
  · exact hu

theorem foldl {f : State → Nat → State} {l : List Nat} (h : s.ClockFrame t) (hf : ∀ v n, s.ClockFrame v → s.ClockFrame (f v n)) :
    s.ClockFrame (l.foldl f t) :=
  List.foldlRecOn l f h fun v hv n _ => hf v n hv

/-- A change of anything else. -/
theorem same (h : s.ClockFrame t) (hpending : u.pending = t.pending := by rfl) (hmem : u.mem = t.mem := by rfl)
    (hthreads : u.threads = t.threads := by rfl) (hnow : u.now = t.now := by rfl) (hslot : u.slot = t.slot := by rfl)
    (hclocks : u.sys.clocks = t.sys.clocks := by rfl) (hprev : u.prevAng = t.prevAng := by rfl) : s.ClockFrame u :=
  h.trans ⟨hpending, hmem, hthreads, hnow, hslot, hclocks, hprev⟩

theorem ofObs (h : s.ClockFrame t) (ho : t.ObsFrame u) : s.ClockFrame u := by
  rw [ho.eq]
  exact h.same

theorem setReg {k : Nat} {v : Word} (h : s.ClockFrame t) : s.ClockFrame (t.setReg k v) := h.same

theorem launch {i j : Island} {b : Body} (h : s.ClockFrame t) : s.ClockFrame (t.launch i j b) := h.same

theorem raise {evt bit : Nat} (h : s.ClockFrame t) : s.ClockFrame (t.raise evt bit) := h.setReg.launch

/-! #### The angle island -/

theorem noteEnds (h : s.ClockFrame t) : s.ClockFrame t.noteEnds := h.same

theorem runSynth {k : Nat} (h : s.ClockFrame t) : s.ClockFrame (t.runSynth k) := .ite h.same h

/-! #### The converters and the Ethernet clock (R438, R541) -/

theorem runFadc (h : s.ClockFrame t) : s.ClockFrame t.runFadc := h.same

theorem updEth {f : Eth → Eth} (h : s.ClockFrame t) : s.ClockFrame (t.updEth f) := h.same

theorem ethTick (h : s.ClockFrame t) : s.ClockFrame t.ethTick := h.updEth

theorem runEth (h : s.ClockFrame t) : s.ClockFrame t.runEth := .ite h.ethTick h

/-! #### The drive (R370) -/

theorem updInj {n : Nat} {f : InjCh → InjCh} (h : s.ClockFrame t) : s.ClockFrame (t.updInj n f) := h.same

theorem setGates {n : Nat} {on : Bool} (h : s.ClockFrame t) : s.ClockFrame (t.setGates n on) := .ite h.setReg.setReg h.setReg

theorem setLs {n : Nat} {on : Bool} (h : s.ClockFrame t) : s.ClockFrame (t.setLs n on) := h.setGates.updInj

theorem hsUpdate {b : Nat} (h : s.ClockFrame t) : s.ClockFrame (t.hsUpdate b) :=
  .ite (h.setReg.foldl fun _ _ hv => .ite hv.setLs.updInj hv) h.setReg

theorem openInvalid {n : Nat} (h : s.ClockFrame t) : s.ClockFrame (t.openInvalid n) := .ite h.setReg.launch h

theorem closeInvalid {n : Nat} (h : s.ClockFrame t) : s.ClockFrame (t.closeInvalid n) := .ite h.setReg.launch h

theorem pulseOff {n slot : Nat} {natural latch : Bool} (h : s.ClockFrame t) :
    s.ClockFrame (t.pulseOff n slot natural latch) :=
  .hsUpdate (.ite h.openInvalid.setLs.updInj.setReg h.openInvalid.setLs.updInj)

theorem alrt {cause : Nat} {isU isLink : Bool} (h : s.ClockFrame t) : s.ClockFrame (t.alrt cause isU isLink) := by
  unfold State.alrt
  extract_lets _ s1
  have h1 : s.ClockFrame s1 := h.same
  exact h1.setReg.setReg.raise

theorem injChFault {n bit cls fst : Nat} (h : s.ClockFrame t) : s.ClockFrame (t.injChFault n bit cls fst) :=
  h.raise.launch.alrt.setReg

theorem beginPulse {n ts : Nat} (h : s.ClockFrame t) : s.ClockFrame (t.beginPulse n ts) := h.updInj.setLs.hsUpdate

theorem injStart {n p ts tmin : Nat} (h : s.ClockFrame t) : s.ClockFrame (t.injStart n p ts tmin) := by
  unfold State.injStart
  extract_lets t0 s0 s1 s2 s3
  have h0 : s.ClockFrame s0 := h.updInj
  have h1 : s.ClockFrame s1 := h.closeInvalid
  have h2 : s.ClockFrame s2 := .ite h1.setGates h1
  have h3 : s.ClockFrame s3 := h2.updInj
  refine .ite h0.raise.launch (.ite h0.injChFault.raise.launch ?_)
  split
  iterate 3 exact .ite h3.updInj h3.beginPulse
  all_goals exact h

theorem injDue {n : Nat} (h : s.ClockFrame t) : s.ClockFrame (t.injDue n) := by
  unfold State.injDue
  extract_lets s1 s2
  have h1 : s.ClockFrame s1 := by
    unfold s1
    split
    · exact .ite h.launch.pulseOff h
    · exact h
  have h2 : s.ClockFrame s2 := by
    unfold s2
    split
    · exact .ite (.ite h1.pulseOff h1) h1
    · exact h1
  split
  · exact .ite h2.updInj.injStart h2
  · exact h2

theorem runInj (h : s.ClockFrame t) : s.ClockFrame t.runInj := h.foldl fun _ _ hv => hv.injDue

theorem updPwm {n : Nat} {f : Pwm → Pwm} (h : s.ClockFrame t) : s.ClockFrame (t.updPwm n f) := h.same

theorem pwmDue {n : Nat} (h : s.ClockFrame t) : s.ClockFrame (t.pwmDue n) := by
  unfold State.pwmDue
  split
  · exact .ite (.ite h.updPwm.launch h.updPwm) h
  · exact h

theorem runPwm (h : s.ClockFrame t) : s.ClockFrame t.runPwm := h.foldl fun _ _ hv => hv.pwmDue

/-! #### The guard and timer islands (R599, R614, R620) -/

theorem updLkt {f : Lkt → Lkt} (h : s.ClockFrame t) : s.ClockFrame (t.updLkt f) := h.same

theorem calAdd {d : Int} (h : s.ClockFrame t) : s.ClockFrame (t.calAdd d) := h.updLkt

theorem calTick (h : s.ClockFrame t) : s.ClockFrame t.calTick := h.calAdd

theorem calRtc (h : s.ClockFrame t) : s.ClockFrame t.calRtc := h.calAdd

theorem updSys {f : Sys → Sys} (h : s.ClockFrame t) (hf : ∀ y, (f y).clocks = y.clocks := by exact fun _ => rfl) :
    s.ClockFrame (t.updSys f) :=
  ⟨h.pending, h.mem, h.threads, h.now, h.slot, (hf t.sys).trans h.clocks, h.prevAng⟩

theorem rtcTick (h : s.ClockFrame t) : s.ClockFrame t.rtcTick := .ite h.updSys h.updSys.calRtc

theorem runRtc (h : s.ClockFrame t) : s.ClockFrame t.runRtc := .ite h.updSys.rtcTick h.updSys

theorem tickGuard (h : s.ClockFrame t) : s.ClockFrame t.tickGuard := by
  unfold State.tickGuard
  extract_lets s1 s2
  have h2 : s.ClockFrame s2 := .ite h.runRtc.calTick h.runRtc
  split
  · exact .ite h2.updSys h2
  · exact h2

end State.ClockFrame

/-! ### What the clocks change (R70, R236) -/

/-- The angle island's slot: the slot counter steps on (R70). -/
theorem State.tickAngle_frame (s : State) :
    ({ s with prevAng := s.angW, slot := s.slot + 1 } : State).ClockFrame s.tickAngle := by
  unfold State.tickAngle
  extract_lets s1 s2 s3
  have h2 : s1.ClockFrame s2 := (ClockFrame.refl s1).ofObs (.runAngle (.refl s1))
  have h3 : ({ s with prevAng := s.angW, slot := s.slot + 1 } : State).ClockFrame s3 :=
    ⟨h2.pending, h2.mem, h2.threads, h2.now, congrArg (· + 1) h2.slot, h2.clocks, h2.prevAng⟩
  exact (h3.noteEnds.ofObs (.coastTick (.refl _))).runSynth.runSynth

/-- The other islands' slot: the core clocks step on by two (R236). -/
theorem State.tickIslands_frame (s : State) : (s.updSys fun y => { y with clocks := y.clocks + 2 }).ClockFrame s.tickIslands := by
  unfold State.tickIslands
  generalize (s.updSys fun y => { y with clocks := y.clocks + 2 }) = u
  exact (ClockFrame.refl u).runFadc.runEth

/-- The state once the islands of the logic die have had their slot. -/
def State.islandsTicked (s : State) : State := if s.islandsRun then s.tickAngle.tickIslands else s

theorem State.tick_frame (s : State) : ({ s.islandsTicked with now := s.islandsTicked.now + 1 } : State).ClockFrame s.tick :=
  .tickGuard (.ite (.refl _) (.runPwm (.runInj (.refl _))))

end Sys2Proof.Machine

open Sys2Proof.Machine

/-- Settles O15: what comes due on the drive, the RTC and the observer's bookkeeping leave the clocks alone. -/
theorem idleSlot : Obligations.IdleSlot := by
  intro s hpending
  have htick := s.tick_frame
  refine ⟨s.tick, by rw [step, hpending], ?_⟩
  by_cases hrun : s.islandsRun = true
  · have hticked : s.islandsTicked = s.tickAngle.tickIslands := if_pos hrun
    have hangle := s.tickAngle_frame
    have hislands := s.tickAngle.tickIslands_frame
    rw [hticked] at htick
    refine ⟨?_, ?_, fun _ => ⟨?_, ?_, ?_⟩, fun h => absurd (hrun.symm.trans h) (by decide)⟩
    · exact htick.pending.trans (hislands.pending.trans (hangle.pending.trans hpending))
    · exact htick.now.trans (congrArg (· + 1) (hislands.now.trans hangle.now))
    · exact htick.slot.trans (hislands.slot.trans hangle.slot)
    · exact htick.clocks.trans (hislands.clocks.trans (congrArg (· + 2) hangle.clocks))
    · exact htick.prevAng.trans (hislands.prevAng.trans hangle.prevAng)
  · have hticked : s.islandsTicked = s := if_neg hrun
    rw [hticked] at htick
    exact ⟨htick.pending.trans hpending, htick.now, fun h => absurd h hrun,
      fun _ => ⟨htick.slot, htick.clocks, htick.threads, htick.mem⟩⟩

end

section
/-! PROOFS. What the outputs, the calendar, the threads' pending bits, the log and the observer's tables leave of the wheels and
the echo generators when a tooth, a jump of the angle or a change of the sync state reaches them. -/

namespace Sys2Proof.Machine

/-- The registers of block WHL. -/
abbrev whlReg (k : Nat) : Prop := 0x40050000 ≤ k ∧ k < 0x40060000

/-- An account that a binding names. -/
theorem State.binding_lt (s : State) (x : Nat) : ∀ a, s.binding x = some a → a < 64 := by
  intro a ha
  unfold State.binding at ha
  split at ha
  · cases ha
    exact Nat.mod_lt _ (by decide)
  · cases ha

/-- `t` is `s` but for memory, items in flight, the observer, synchronisation, the calendar and its outputs, trims, meters,
the combustion datapath, the trace buffer, and registers outside block WHL. -/
structure State.OutFrame (s t : State) : Prop where
  eq : t = { s with
    regs := t.regs, mem := t.mem, inflight := t.inflight, obs := t.obs, sync := t.sync, calq := t.calq, stage := t.stage,
    calEnt := t.calEnt, walked := t.walked, outCh := t.outCh, cyc := t.cyc, trimB := t.trimB, meters := t.meters,
    cmb := t.cmb, dbg := t.dbg, freeUses := t.freeUses }
  reg : ∀ k, whlReg k → t.reg k = s.reg k

namespace State.OutFrame

variable {s t u : State}

theorem refl (s : State) : s.OutFrame s := ⟨rfl, fun _ _ => rfl⟩

theorem trans (h : s.OutFrame t) (h' : t.OutFrame u) : s.OutFrame u :=
  ⟨Eq.trans h'.eq (by rw [h.eq]), fun k hk => (h'.reg k hk).trans (h.reg k hk)⟩

theorem ite {c : Prop} [Decidable c] (ht : s.OutFrame t) (hu : s.OutFrame u) : s.OutFrame (if c then t else u) := by
  split
  · exact ht
  · exact hu

theorem foldl {α : Type} {f : State → α → State} {l : List α} (h : s.OutFrame t)
    (hf : ∀ v x, s.OutFrame v → s.OutFrame (f v x)) : s.OutFrame (l.foldl f t) :=
  List.foldlRecOn l f h fun v hv x _ => hf v x hv

theorem ofObs (h : s.OutFrame t) (ho : t.ObsFrame u) : s.OutFrame u := by
  refine h.trans ⟨?_, fun k hk => ho.reg k (.inl hk.2)⟩
  rw [ho.eq]

/-! #### Shared operations -/

theorem setReg {k : Nat} {v : Word} (h : s.OutFrame t) (hk : ¬ whlReg k := by decide) : s.OutFrame (t.setReg k v) :=
  h.trans ⟨rfl, fun _ hj => State.reg_setReg_ne _ _ (by rintro rfl; exact hk hj)⟩

theorem launch {i j : Island} {b : Body} (h : s.OutFrame t) : s.OutFrame (t.launch i j b) := h.trans ⟨rfl, fun _ _ => rfl⟩

theorem raise {evt bit : Nat} (h : s.OutFrame t) (hk : ¬ whlReg evt := by decide) : s.OutFrame (t.raise evt bit) :=
  (h.setReg hk).launch

theorem wrBytes {a : Nat} {l : List Byte} (h : s.OutFrame t) : s.OutFrame (t.wrBytes a l) := by
  induction l generalizing a t with
  | nil => exact h
  | cons b l ih => exact ih (a := a + 1) (h.trans (u := t.wr8 a b) ⟨rfl, fun _ _ => rfl⟩)

theorem useFree (h : s.OutFrame t) : s.OutFrame t.useFree := h.trans ⟨rfl, fun _ _ => rfl⟩

theorem updMeter {a r : Nat} {f : Meter → Meter} (h : s.OutFrame t) : s.OutFrame (t.updMeter a r f) :=
  h.trans ⟨by simp only [State.updMeter], fun _ _ => by simp only [State.reg, State.updMeter]⟩

theorem budDraw {acct : Option Nat} {r n : Nat} (h : s.OutFrame t) : s.OutFrame (t.budDraw acct r n) := by
  cases acct with
  | none => exact h
  | some a => exact h.updMeter

theorem budStarve {acct : Option Nat} {r : Nat} (h : s.OutFrame t) : s.OutFrame (t.budStarve acct r) := by
  cases acct with
  | none => exact h
  | some a => exact h.updMeter

/-! #### Threads and queues -/

theorem setPend {n k : Nat} (h : s.OutFrame t) : s.OutFrame (t.setPend n k) :=
  h.setReg (by simp only [whlReg, AEN_TSTAT]; omega)

theorem setPendWhere {k n : Nat} {p : Nat → Bool} (h : s.OutFrame t) : s.OutFrame (t.setPendWhere k p n) := by
  induction n with
  | zero => exact h
  | succ n ih => exact .ite ih.setPend ih

theorem setPendAll {k : Nat} (h : s.OutFrame t) : s.OutFrame (t.setPendAll k) := h.setPendWhere

theorem hwEvent {sel : Nat} (h : s.OutFrame t) : s.OutFrame (t.hwEvent sel) := h.foldl fun _ _ hv => hv.setPendWhere

theorem syncQueue {q : Nat} (h : s.OutFrame t) : s.OutFrame (t.syncQueue q) := .ite h (h.foldl fun _ _ hv => hv.setPendWhere)

theorem qRefuse {q : Nat} (h : s.OutFrame t) : s.OutFrame (t.qRefuse q) :=
  (h.setReg (by simp only [whlReg, QUE_QDROP]; omega)).raise

theorem qput {q : Nat} {e : List Byte} (h : s.OutFrame t) : s.OutFrame (t.qput q e).1 := by
  unfold State.qput
  split
  · exact h.qRefuse
  · split
    · exact h.qRefuse
    · exact .syncQueue (.setReg (.setReg h.wrBytes (by simp only [whlReg, QUE_QHEAD]; omega))
        (by simp only [whlReg, QUE_QCNT]; omega))

theorem budDrop {acct : Option Nat} (h : s.OutFrame t) (hacct : ∀ a, acct = some a → a < 64) : s.OutFrame (t.budDrop acct) := by
  cases acct with
  | none => exact h
  | some a =>
    have hkey : ¬ whlReg (BUD_DROP a) := by
      have := hacct a rfl
      simp only [whlReg, BUD_DROP]
      omega
    exact (h.setReg hkey).raise

theorem qputFor {acct : Option Nat} {n : Nat} {e : List Byte} (h : s.OutFrame t) (hacct : ∀ a, acct = some a → a < 64) :
    s.OutFrame (t.qputFor acct n e).1 := by
  unfold State.qputFor
  split
  · exact h.budDraw.qput
  · exact h.budStarve.qRefuse.budDrop hacct

/-! #### Learned tables (R125 to R133) -/

theorem updObs {f : Obs → Obs} (h : s.OutFrame t) : s.OutFrame (t.updObs f) := h.trans ⟨rfl, fun _ _ => rfl⟩

theorem updSync {f : Sync → Sync} (h : s.OutFrame t) : s.OutFrame (t.updSync f) := h.trans ⟨rfl, fun _ _ => rfl⟩

theorem setHalf {key i v : Nat} (h : s.OutFrame t) (hk : 0x40060000 ≤ key) : s.OutFrame (t.setHalf key i v) :=
  h.setReg (by simp only [whlReg]; omega)

theorem coastCheck (h : s.OutFrame t) : s.OutFrame t.coastCheck := h.ofObs (.coastCheck (.refl t))

theorem countDiscard (h : s.OutFrame t) : s.OutFrame t.countDiscard := h.ofObs (.countDiscard (.refl t))

theorem dropPass {n : Nat} (h : s.OutFrame t) : s.OutFrame (t.dropPass n) := h.ofObs (.dropPass (.refl t))

theorem judgeFactors {n : Nat} {r : Rat} (h : s.OutFrame t) : s.OutFrame (t.judgeFactors n r) := by
  unfold State.judgeFactors
  extract_lets _ s1
  have h1 : s.OutFrame s1 := .ite h.setReg h
  exact .ite h1.setReg.raise (.ite h1.setReg.raise h1)

theorem passEnd {n tEnd : Nat} {ivls : List PassIvl} (h : s.OutFrame t) : s.OutFrame (t.passEnd n tEnd ivls) := by
  unfold State.passEnd
  extract_lets _ _ s1 s2
  have h1 : s.OutFrame s1 := h.updObs
  have h2 : s.OutFrame s2 := .ite h1.setReg h1
  split
  · exact h2
  · exact .judgeFactors (h2.foldl fun _ _ hv => hv.setHalf (by simp only [OBS_FACT]; omega))

theorem learnInterval {n slot k len next tEnd : Nat} {touched endPaste : Bool} (h : s.OutFrame t) :
    s.OutFrame (t.learnInterval n slot k len next tEnd touched endPaste) := by
  unfold State.learnInterval
  extract_lets
  refine .ite h.dropPass ?_
  split
  · exact .ite h.updObs h
  · exact .ite h.updObs (.updObs (.ite h.updObs.countDiscard h.passEnd))

theorem torsUpdate {is : List TorsIvl} {r : Rat} (h : s.OutFrame t) : s.OutFrame (t.torsUpdate is r) := by
  unfold State.torsUpdate
  extract_lets _ _ s1 s2
  have h1 : s.OutFrame s1 := h.foldl fun _ _ hv => hv.setHalf (by decide)
  exact .ite h1.updObs.setReg h1.updObs

theorem torsCycleEnd (h : s.OutFrame t) : s.OutFrame t.torsCycleEnd := by
  unfold State.torsCycleEnd
  extract_lets _ _ _ _ next
  have hnext : s.OutFrame next := h.updObs
  split
  · exact hnext
  · exact .ite (.ite hnext.countDiscard hnext.torsUpdate) hnext

theorem torsInterval {newCycle : Bool} {i : TorsIvl} {touched : Bool} (h : s.OutFrame t) :
    s.OutFrame (t.torsInterval newCycle i touched) :=
  .updObs (.ite h.torsCycleEnd h)

theorem setTooth {n : Nat} {x : Tooth} (h : s.OutFrame t) : s.OutFrame (t.setTooth n x) := by
  unfold State.setTooth
  exact h.updObs

theorem endInterval {len : Rat} {x : Nat} {endPaste : Bool} (h : s.OutFrame t) : s.OutFrame (t.endInterval len x endPaste) :=
  h.updObs.learnInterval.torsInterval.setTooth

theorem pasteTooth (h : s.OutFrame t) : s.OutFrame t.pasteTooth := by
  unfold State.pasteTooth
  split
  · exact h.endInterval.updObs.raise.hwEvent.setPendAll
  · exact h

theorem steer (h : s.OutFrame t) : s.OutFrame t.steer := by
  unfold State.steer
  extract_lets
  exact .updObs (.ite h.setReg h)

theorem newRate (h : s.OutFrame t) : s.OutFrame t.newRate := by
  unfold State.newRate
  split
  · exact h.setReg
  · exact h

theorem newRevolution (h : s.OutFrame t) : s.OutFrame t.newRevolution := .ite h.setReg h

theorem learnLost (h : s.OutFrame t) : s.OutFrame t.learnLost := .updObs (h.foldl fun _ _ hv => hv.dropPass)

theorem unplace (h : s.OutFrame t) : s.OutFrame t.unplace := h.setReg.setReg.setReg.learnLost

theorem secReset (h : s.OutFrame t) : s.OutFrame t.secReset := h.updSync.setReg.setReg

/-! #### Outputs (R163, R177, R186, R194 to R196) -/

theorem updStage {i : Nat} {f : Action → Action} (h : s.OutFrame t) : s.OutFrame (t.updStage i f) := h.trans ⟨rfl, fun _ _ => rfl⟩

theorem updOut {c : Nat} {f : OutCh → OutCh} (h : s.OutFrame t) : s.OutFrame (t.updOut c f) :=
  h.trans ⟨by simp only [State.updOut], fun _ _ => State.reg_updOut ..⟩

theorem updCyc {n : Nat} {f : CycCh → CycCh} (h : s.OutFrame t) : s.OutFrame (t.updCyc n f) :=
  h.trans ⟨by simp only [State.updCyc], fun _ _ => by simp only [State.reg, State.updCyc]⟩

theorem setPin {n : Nat} {b : Bool} (h : s.OutFrame t) : s.OutFrame (t.setPin n b) :=
  .ite (h.setReg.ofObs (.fuelled (.refl _))) h.setReg

theorem putRecord {a : Action} {st dur : Nat} {start : Word} (h : s.OutFrame t) : s.OutFrame (t.putRecord a st start dur) :=
  .ite (.ite h.budDraw.qput h.budDraw.qput.setReg.raise) h

theorem countStatus {st : Nat} (h : s.OutFrame t) : s.OutFrame (t.countStatus st) :=
  .ite h.setReg.raise (.ite h.setReg.raise (.ite h.setReg.raise h))

theorem retire {a : Action} {st dur : Nat} {start : Word} (h : s.OutFrame t) : s.OutFrame (t.retire a st start dur) := by
  unfold State.retire
  extract_lets s1 s2 s3 s4
  have h1 : s.OutFrame s1 := h.trans ⟨rfl, fun _ _ => rfl⟩
  have h2 : s.OutFrame s2 := h1.setReg.countStatus
  have h3 : s.OutFrame s3 := .ite h2.raise h2
  have h4 : s.OutFrame s4 := .ite h3.setPend h3
  exact h4.putRecord

theorem retirePending {p : Action → Bool} {st : Nat} (h : s.OutFrame t) : s.OutFrame (t.retirePending p st) :=
  h.foldl fun _ _ hv => .ite hv.retire hv

theorem softStart {n : Nat} (h : s.OutFrame t) : s.OutFrame (t.softStart n) := h.updOut.setReg.setReg.raise

theorem endEdge {a : Action} {te : Nat} {fast : Bool} (h : s.OutFrame t) : s.OutFrame (t.endEdge a te fast) :=
  .ite h.launch.setReg.updOut (.ite h.setReg.updOut h.setPin.updOut)

theorem endPulse {a : Action} {st : Nat} {fast : Bool} (h : s.OutFrame t) : s.OutFrame (t.endPulse a st fast) :=
  .ite (.ite h.endEdge.retire h.updStage) (.ite h.softStart.retire h.endEdge.retire)

theorem endActive {p : Action → Bool} {st : Nat} {fast : Bool} (h : s.OutFrame t) : s.OutFrame (t.endActive p st fast) :=
  h.foldl fun _ _ hv => .ite hv.endPulse hv

theorem disableChannel {c : Nat} (h : s.OutFrame t) : s.OutFrame (t.disableChannel c) :=
  .ite h.endActive.retirePending.setPin.updCyc h.endActive.retirePending

theorem safeEnd (h : s.OutFrame t) : s.OutFrame t.safeEnd := by
  unfold State.safeEnd
  extract_lets s1 s2 x
  have h1 : s.OutFrame s1 := h.endActive.retirePending
  have h2 : s.OutFrame s2 := h1.foldl fun _ _ hv => .ite hv.setPin.updCyc hv
  have hx : s.OutFrame x := h2.launch
  exact hx.trans ⟨rfl, fun _ _ => rfl⟩

theorem cycJump {n : Nat} (h : s.OutFrame t) : s.OutFrame (t.cycJump n) :=
  .ite h.updCyc.setPin.updCyc (.ite h.updCyc.setPin (.ite h.updCyc.setPin h))

theorem outJump {old : BitVec 56} (h : s.OutFrame t) : s.OutFrame (t.outJump old) :=
  foldl (h.trans ⟨rfl, fun _ _ => rfl⟩) fun _ _ hv => hv.cycJump

theorem jumpTo {w : Word} (h : s.OutFrame t) : s.OutFrame (t.jumpTo w) := by
  unfold State.jumpTo
  extract_lets _ _ s1 s2 s3 s4
  have h2 : s.OutFrame s2 := setReg (h.ofObs (.addNoFuel (.updObs (.refl t))))
  have h3 : s.OutFrame s3 := .ite h2.setReg h2
  have h4 : s.OutFrame s4 := .ite h3.raise.hwEvent h3
  exact h4.outJump

theorem toothAt {w : Word} (h : s.OutFrame t) : s.OutFrame (t.toothAt w) := .ite h.jumpTo h

/-! #### The calendar, the trims and the combustion datapath at a change of the sync state (R140, R303, R469) -/

theorem calendarFull (h : s.OutFrame t) : s.OutFrame t.calendarFull := by
  unfold State.calendarFull
  extract_lets _ _ s1 s2
  have h1 : s.OutFrame s1 := h.foldl fun _ _ hv => hv.retire
  have h2 : s.OutFrame s2 := .ite h1 h1.raise
  exact h2.trans ⟨rfl, fun _ _ => rfl⟩

theorem trimBoundary {n : Nat} (h : s.OutFrame t) : s.OutFrame (t.trimBoundary n) := by
  induction n with
  | zero => exact h
  | succ n ih =>
    have hbase : s.OutFrame ((t.trimBoundary n).setTrimBase n ((t.trimBoundary n).reg (AEN_TRM n))) :=
      ih.trans ⟨rfl, fun _ _ => rfl⟩
    exact .setReg (.setReg (hbase.setReg (by simp only [whlReg, AEN_TRM]; omega)) (by simp only [whlReg, AEN_TRS]; omega))
      (by simp only [whlReg, AEN_TRS]; omega)

theorem updCmb {f : Cmb → Cmb} (h : s.OutFrame t) : s.OutFrame (t.updCmb f) := h.trans ⟨rfl, fun _ _ => rfl⟩

theorem setCoast {b : Bool} (h : s.OutFrame t) : s.OutFrame (t.setCoast b) :=
  .ite h.setReg.setReg.coastCheck h.setReg.setReg.coastCheck.raise

theorem abandonStr {c : Nat} (h : s.OutFrame t) : s.OutFrame (t.abandonStr c) := by
  unfold State.abandonStr
  extract_lets _ _ _ s1 s2
  have h1 : s.OutFrame s1 := h.updCmb.updCmb
  have h2 : s.OutFrame s2 := .setReg (.raise (h1.setReg (by simp only [whlReg, CMB_SCNT]; omega)))
  exact .ite h (.ite h2.setCoast h2)

theorem abandonAll (h : s.OutFrame t) : s.OutFrame t.abandonAll := h.foldl fun _ _ hv => hv.abandonStr

theorem tracePut {on : Bool} {p : List Byte} (h : s.OutFrame t) : s.OutFrame (t.tracePut on p) := by
  have hdbg : ∀ f, s.OutFrame (t.updDbg f) := fun _ => h.trans ⟨rfl, fun _ _ => rfl⟩
  unfold State.tracePut
  refine .ite h ?_
  split
  · exact hdbg _
  · exact .ite (hdbg _) (hdbg _).setReg

theorem secDeliver {n : Nat} {e : Edge} {prev : Option Nat} (h : s.OutFrame t) : s.OutFrame (t.secDeliver n e prev) := by
  unfold State.secDeliver
  extract_lets _ s1
  split
  · split
    · exact h.updSync.setReg.updSync
    · exact h.updSync
  · split
    extract_lets s1
    have h1 : s.OutFrame s1 := by
      unfold s1
      split
      · exact h.learnInterval
      · exact h
    exact h1.updSync

end State.OutFrame

end Sys2Proof.Machine

end

section
/-! PROOFS. The echo generators (R90 to R96): what a level change does to the generator, its pin and the wheels that listen to it. -/

namespace Sys2Proof.Machine

/-! ### Wheels and generators after an update of one of them -/

theorem State.whlOf_updWhl_same (s : State) {n : Nat} (f : Whl → Whl) (h : n < 6) : (s.updWhl n f).whlOf n = f (s.whlOf n) :=
  vat_vupd_same s.whl f h

theorem State.whlOf_updWhl_ne (s : State) {n m : Nat} (f : Whl → Whl) (h : m ≠ n) : (s.updWhl n f).whlOf m = s.whlOf m :=
  vat_vupd_ne s.whl f h

theorem State.echoOf_updEcho_same (s : State) {k : Nat} (f : Echo → Echo) (h : k < 2) :
    (s.updEcho k f).echoOf k = f (s.echoOf k) :=
  vat_vupd_same s.echo f h

theorem State.echoOf_updEcho_ne (s : State) {k j : Nat} (f : Echo → Echo) (h : j ≠ k) : (s.updEcho k f).echoOf j = s.echoOf j :=
  vat_vupd_ne s.echo f h

@[simp] theorem State.whlOf_updEcho (s : State) (k : Nat) (f : Echo → Echo) (m : Nat) : (s.updEcho k f).whlOf m = s.whlOf m := rfl

@[simp] theorem State.whlOf_setReg (s : State) (k : Nat) (v : Word) (m : Nat) : (s.setReg k v).whlOf m = s.whlOf m := rfl

@[simp] theorem State.whlOf_setFld (s : State) (k : Nat) (f : Fld) (v m : Nat) : (s.setFld k f v).whlOf m = s.whlOf m := rfl

@[simp] theorem State.whlOf_setBit (s : State) (k i : Nat) (b : Bool) (m : Nat) : (s.setBit k i b).whlOf m = s.whlOf m := rfl

@[simp] theorem State.whlOf_raise (s : State) (evt bit m : Nat) : (s.raise evt bit).whlOf m = s.whlOf m := rfl

@[simp] theorem State.whlOf_updObs (s : State) (f : Obs → Obs) (m : Nat) : (s.updObs f).whlOf m = s.whlOf m := rfl

@[simp] theorem State.reg_updWhl (s : State) (n : Nat) (f : Whl → Whl) (k : Nat) : (s.updWhl n f).reg k = s.reg k := rfl

@[simp] theorem State.reg_updEcho (s : State) (k : Nat) (f : Echo → Echo) (j : Nat) : (s.updEcho k f).reg j = s.reg j := rfl

theorem State.whlOf_detect_same (s : State) {n : Nat} (b : Bool) (h : n < 6) :
    (s.detect n b).whlOf n
      = if (s.whlOf n).det = b then s.whlOf n else { s.whlOf n with det := b, detAt := s.now, detAng := s.angW } :=
  s.whlOf_updWhl_same _ h

theorem State.whlOf_detect_ne (s : State) {n m : Nat} (b : Bool) (h : m ≠ n) : (s.detect n b).whlOf m = s.whlOf m :=
  s.whlOf_updWhl_ne _ h

theorem State.det_detect (s : State) {n : Nat} (b : Bool) (h : n < 6) : ((s.detect n b).whlOf n).det = b := by
  rw [s.whlOf_detect_same b h]
  split
  · assumption
  · rfl

/-! ### The pin -/

theorem State.setPin_frame (s : State) (n : Nat) (b : Bool) : (s.setBit OUT_LVLA n b).ObsFrame (s.setPin n b) :=
  .ite (.fuelled (.refl _)) (.refl _)

theorem State.reg_setPin (s : State) (n : Nat) (b : Bool) {j : Nat} (hj : j < 0x40060000) : (s.setPin n b).reg j = s.reg j := by
  rw [(s.setPin_frame n b).reg j (.inl hj), State.reg_setBit_ne _ _ _ (by simp only [OUT_LVLA]; omega)]

theorem State.bit_setPin (s : State) {n : Nat} (b : Bool) (h : n < 32) : (s.setPin n b).bit OUT_LVLA n = b := by
  rw [State.bit, (s.setPin_frame n b).reg _ (.inr (by decide)), ← State.bit, State.bit_setBit_same _ _ _ _ h]

/-! ### A level change in its two parts (R66, R90) -/

/-- The level of generator `k` and its pin. -/
def State.echoDriven (s : State) (k : Nat) (b : Bool) : State :=
  let s1 := s.updEcho k fun e => { e with level := b }
  if s.echoPinned k then s1.setPin (s.fld (WHL_ECFG k) WHL_ECFG_PIN) (b != (s.fld (WHL_ECFG k) WHL_ECFG_INV == 1)) else s1

/-- The turn of wheel `n` to see the level of generator `k`. -/
def State.wheelSees (k : Nat) (b : Bool) (t : State) (n : Nat) : State :=
  if t.fld (WHL_CFG n) WHL_CFG_SRC = k + 1 then t.detect n b else t

/-- The wheels see the level of generator `k`. -/
def State.wheelsSee (s : State) (k : Nat) (b : Bool) : State := (List.range 6).foldl (State.wheelSees k b) s

theorem State.echoLevel_eq (s : State) (k : Nat) (b : Bool) :
    s.echoLevel k b = if b then (s.echoDriven k b).wheelsSee k b
      else ((s.echoDriven k b).wheelsSee k b).updEcho k fun e => { e with closing := false } := rfl

theorem State.wheelSees_eq (k : Nat) (b : Bool) (s : State) (n : Nat) :
    State.wheelSees k b s n = { s with whl := (State.wheelSees k b s n).whl } := by
  unfold State.wheelSees
  split <;> rfl

theorem State.wheelsSee_eq (s : State) (k : Nat) (b : Bool) : s.wheelsSee k b = { s with whl := (s.wheelsSee k b).whl } := by
  have turns : ∀ (l : List Nat) (t : State),
      l.foldl (State.wheelSees k b) t = { t with whl := (l.foldl (State.wheelSees k b) t).whl } := by
    intro l
    induction l with
    | nil => exact fun _ => rfl
    | cons n l ih =>
      intro t
      rw [List.foldl_cons, ih, t.wheelSees_eq k b n]
  exact turns _ s

theorem State.echoOf_wheelsSee (s : State) (k : Nat) (b : Bool) (j : Nat) : (s.wheelsSee k b).echoOf j = s.echoOf j := by
  rw [s.wheelsSee_eq]
  rfl

theorem State.reg_wheelsSee (s : State) (k : Nat) (b : Bool) (j : Nat) : (s.wheelsSee k b).reg j = s.reg j := by
  rw [s.wheelsSee_eq]
  rfl

/-- A wheel that listens to the generator has its level. -/
theorem State.det_wheelsSee (s : State) {k m : Nat} (b : Bool) (hm : m < 6) (hsrc : s.fld (WHL_CFG m) WHL_CFG_SRC = k + 1) :
    ((s.wheelsSee k b).whlOf m).det = b := by
  obtain ⟨u, hu, ht⟩ := exists_turn_of_foldl (fun t => (t.whlOf m, t.reg (WHL_CFG m))) (f := State.wheelSees k b) s
    (List.mem_range.mpr hm) List.nodup_range fun t n _ hn => by
      unfold State.wheelSees
      split
      · rw [t.whlOf_detect_ne b hn.symm]
        rfl
      · rfl
  obtain ⟨-, hreg⟩ := Prod.mk.inj hu
  obtain ⟨hwhl, -⟩ := Prod.mk.inj ht
  have hsees : State.wheelSees k b u m = u.detect m b := if_pos (by rw [State.fld, hreg]; exact hsrc)
  rw [State.wheelsSee, hwhl, hsees, u.det_detect b hm]

/-! ### What a level change leaves alone -/

/-- A wheel but for the level at its input. -/
def Whl.beyondLevel (h : Whl) : Whl := { h with det := false, detAt := 0, detAng := 0 }

/-- `t` is `s` but for generators, the levels at the wheels' inputs, the observer's bookkeeping, WHL_EVT and registers from block
OBS on. -/
structure State.LevelFrame (s t : State) : Prop where
  eq : t = { s with regs := t.regs, inflight := t.inflight, whl := t.whl, echo := t.echo, obs := t.obs }
  reg : ∀ j, j < 0x40060000 ∧ j ≠ WHL_EVT → t.reg j = s.reg j
  whl : ∀ m, (t.whlOf m).beyondLevel = (s.whlOf m).beyondLevel

namespace State.LevelFrame

variable {s t u : State}

theorem refl (s : State) : s.LevelFrame s := ⟨rfl, fun _ _ => rfl, fun _ => rfl⟩

theorem trans (h : s.LevelFrame t) (h' : t.LevelFrame u) : s.LevelFrame u :=
  ⟨Eq.trans h'.eq (by rw [h.eq]), fun k hk => (h'.reg k hk).trans (h.reg k hk), fun m => (h'.whl m).trans (h.whl m)⟩

theorem ite {c : Prop} [Decidable c] (ht : s.LevelFrame t) (hu : s.LevelFrame u) : s.LevelFrame (if c then t else u) := by
  split
  · exact ht
  · exact hu

theorem foldl {f : State → Nat → State} {l : List Nat} (h : s.LevelFrame t)
    (hf : ∀ v n, s.LevelFrame v → s.LevelFrame (f v n)) : s.LevelFrame (l.foldl f t) :=
  List.foldlRecOn l f h fun v hv n _ => hf v n hv

theorem updEcho {k : Nat} {f : Echo → Echo} (h : s.LevelFrame t) : s.LevelFrame (t.updEcho k f) :=
  h.trans ⟨rfl, fun _ _ => rfl, fun _ => rfl⟩

theorem raise {bit : Nat} (h : s.LevelFrame t) : s.LevelFrame (t.raise WHL_EVT bit) :=
  h.trans ⟨rfl, fun _ hj => State.reg_raise_ne _ _ hj.2, fun _ => rfl⟩

theorem setPin {n : Nat} {b : Bool} (h : s.LevelFrame t) : s.LevelFrame (t.setPin n b) := by
  have hpin := t.setPin_frame n b
  refine h.trans ⟨?_, fun j hj => t.reg_setPin n b hj.1, fun m => ?_⟩
  · rw [hpin.eq]
    rfl
  · rw [hpin.eq]
    rfl

theorem detect {n : Nat} {b : Bool} (h : s.LevelFrame t) : s.LevelFrame (t.detect n b) := by
  refine h.trans ⟨rfl, fun _ _ => rfl, fun m => ?_⟩
  by_cases hn : m = n
  · subst hn
    by_cases hm : m < 6
    · rw [t.whlOf_detect_same b hm]
      split <;> rfl
    · have hout : ∀ v : State, v.whlOf m = default := fun v => by simp [State.whlOf, vat, hm]
      rw [hout, hout]
  · rw [t.whlOf_detect_ne b hn]

theorem wheelsSee {k : Nat} {b : Bool} (h : s.LevelFrame t) : s.LevelFrame (t.wheelsSee k b) :=
  h.foldl fun _ _ hv => .ite hv.detect hv

theorem echoDriven {k : Nat} {b : Bool} (h : s.LevelFrame t) : s.LevelFrame (t.echoDriven k b) :=
  .ite h.updEcho.setPin h.updEcho

theorem echoLevel {k : Nat} {b : Bool} (h : s.LevelFrame t) : s.LevelFrame (t.echoLevel k b) :=
  .ite h.echoDriven.wheelsSee h.echoDriven.wheelsSee.updEcho

theorem echoPulse {k : Nat} (h : s.LevelFrame t) : s.LevelFrame (t.echoPulse k) := h.echoLevel.updEcho

theorem echoRawEdge {k : Nat} (h : s.LevelFrame t) : s.LevelFrame (t.echoRawEdge k) := .ite h.echoLevel.updEcho.raise h.echoPulse

theorem echoRaw {n : Nat} (h : s.LevelFrame t) : s.LevelFrame (t.echoRaw n) := h.foldl fun _ _ hv => .ite hv.echoRawEdge hv

theorem echoFollowLow (h : s.LevelFrame t) : s.LevelFrame t.echoFollowLow := h.foldl fun _ _ hv => .ite hv.echoLevel.updEcho hv

theorem echoFollowFrom (h : s.LevelFrame t) : s.LevelFrame t.echoFollowFrom := h.foldl fun _ _ hv => .ite hv.updEcho hv

end State.LevelFrame

/-! ### The generator, its pin and its wheels after a level change -/

theorem State.echoOf_setPin (s : State) (n : Nat) (b : Bool) (k : Nat) : (s.setPin n b).echoOf k = s.echoOf k := by
  rw [(s.setPin_frame n b).eq]
  rfl

theorem State.echoOf_echoDriven (s : State) (k : Nat) (b : Bool) (j : Nat) :
    (s.echoDriven k b).echoOf j = (s.updEcho k fun e => { e with level := b }).echoOf j := by
  unfold State.echoDriven
  extract_lets s1
  split
  · exact s1.echoOf_setPin _ _ _
  · rfl

theorem State.echoOf_echoLevel_same (s : State) {k : Nat} (b : Bool) (h : k < 2) :
    (s.echoLevel k b).echoOf k = { s.echoOf k with level := b, closing := b && (s.echoOf k).closing } := by
  have hsees : ((s.echoDriven k b).wheelsSee k b).echoOf k = { s.echoOf k with level := b } := by
    rw [State.echoOf_wheelsSee, State.echoOf_echoDriven, State.echoOf_updEcho_same _ _ h]
  rw [State.echoLevel_eq]
  cases b with
  | false => exact (State.echoOf_updEcho_same _ _ h).trans (by rw [hsees]; rfl)
  | true => exact hsees

theorem State.echoOf_echoLevel_ne (s : State) {k j : Nat} (b : Bool) (h : j ≠ k) : (s.echoLevel k b).echoOf j = s.echoOf j := by
  have hsees : ((s.echoDriven k b).wheelsSee k b).echoOf j = s.echoOf j := by
    rw [State.echoOf_wheelsSee, State.echoOf_echoDriven, State.echoOf_updEcho_ne _ _ h]
  rw [State.echoLevel_eq]
  cases b with
  | false => exact (State.echoOf_updEcho_ne _ _ h).trans hsees
  | true => exact hsees

theorem State.reg_echoLevel (s : State) (k : Nat) (b : Bool) (j : Nat) : (s.echoLevel k b).reg j = (s.echoDriven k b).reg j := by
  rw [State.echoLevel_eq]
  cases b with
  | false => exact State.reg_wheelsSee _ _ _ _
  | true => exact State.reg_wheelsSee _ _ _ _

theorem State.bit_echoLevel (s : State) {k : Nat} (b : Bool) (h : s.echoPinned k = true) :
    (s.echoLevel k b).bit OUT_LVLA (s.fld (WHL_ECFG k) WHL_ECFG_PIN) = (b != (s.fld (WHL_ECFG k) WHL_ECFG_INV == 1)) := by
  rw [State.bit, State.reg_echoLevel, ← State.bit, State.echoDriven, if_pos h]
  exact State.bit_setPin _ _ (Nat.lt_trans (Nat.mod_lt _ (by decide)) (by decide : 2 ^ 4 < 32))

theorem State.echoLevel_of_unpinned (s : State) {k : Nat} (b : Bool) (h : s.echoPinned k = false) :
    s.echoLevel k b = { s with echo := (s.echoLevel k b).echo, whl := (s.echoLevel k b).whl } := by
  have hdriven : s.echoDriven k b = s.updEcho k fun e => { e with level := b } := by rw [State.echoDriven, h]; rfl
  rw [State.echoLevel_eq, hdriven, State.wheelsSee_eq]
  cases b <;> rfl

theorem State.det_echoLevel (s : State) {k m : Nat} (b : Bool) (hm : m < 6) (hsrc : s.fld (WHL_CFG m) WHL_CFG_SRC = k + 1) :
    ((s.echoLevel k b).whlOf m).det = b := by
  have hframe : s.LevelFrame (s.echoDriven k b) := .echoDriven (.refl s)
  have hdet : (((s.echoDriven k b).wheelsSee k b).whlOf m).det = b :=
    State.det_wheelsSee _ b hm (by rw [State.fld, hframe.reg _ (by simp only [WHL_CFG, WHL_EVT]; omega)]; exact hsrc)
  rw [State.echoLevel_eq]
  cases b with
  | false => exact hdet
  | true => exact hdet

/-! ### A pulse of programmed width (R91, R92) -/

theorem State.echoOf_echoPulse (s : State) {k : Nat} (h : k < 2) :
    (s.echoPulse k).echoOf k
      = { s.echoOf k with level := true, fallAt := some (s.now + 16 * s.fld (WHL_EWID k) WHL_EWID_WIDTH), riseAt := none } := by
  rw [State.echoPulse, State.echoOf_updEcho_same _ _ h, s.echoOf_echoLevel_same _ h]
  rfl

end Sys2Proof.Machine

end

section
/-! PROOFS. Echo generators: pulses, slips, enables (R90 to R95). -/

namespace Sys2Proof.Machine

/-! ### The write of a register whose RWC fields repeat (R11, R13) -/

/-- The bits a legal write of a register of RW and RWC fields takes. -/
def writtenBits (fs : List FRow) : Word := fs.foldr (fun f acc => f.fld.mask ||| acc) 0

/-- `old` with the bits of a mask taken from `w`. -/
def maskedWrite (m old w : Word) : Word := (old &&& ~~~m) ||| (w &&& m)

theorem maskedWrite_getLsbD (m old w : Word) {i : Nat} (hi : i < 32) :
    (maskedWrite m old w).getLsbD i = if m.getLsbD i then w.getLsbD i else old.getLsbD i := by
  simp only [maskedWrite, BitVec.getLsbD_or, BitVec.getLsbD_and, BitVec.getLsbD_not, hi, decide_true, Bool.true_and]
  cases m.getLsbD i <;> simp

/-- A field whose bits are all taken has the value written. -/
theorem Fld.get_maskedWrite {f : Fld} {m : Word} (old w : Word) (hm : ∀ i, i < f.w → m.getLsbD (f.lo + i) = true) :
    f.get (maskedWrite m old w) = f.get w := by
  apply Nat.eq_of_testBit_eq
  intro i
  rw [Fld.get_testBit, Fld.get_testBit]
  by_cases hi : i < f.w
  · have h32 : f.lo + i < 32 := BitVec.lt_of_getLsbD (hm i hi)
    rw [maskedWrite_getLsbD _ _ _ h32, hm i hi, if_pos rfl]
  · simp [hi]

theorem Fld.set_get (f : Fld) (r w : Word) : f.set r (f.get w) = maskedWrite f.mask r w := by
  ext i hi
  rw [← BitVec.getLsbD_eq_getElem, ← BitVec.getLsbD_eq_getElem, Fld.set_getLsbD _ _ _ _ hi, maskedWrite_getLsbD _ _ _ hi,
    Fld.mask_getLsbD, Fld.get_testBit]
  by_cases hin : f.lo ≤ i ∧ i < f.lo + f.w
  · have hlo : f.lo + (i - f.lo) = i := by omega
    have hw : i - f.lo < f.w := by omega
    simp [hin, hi, hlo, hw]
  · have hout : (decide (f.lo ≤ i) && decide (i < f.lo + f.w)) = false := by simpa using hin
    simp [hin, hi, hout]

/-- A register of RW and RWC fields after a legal write. -/
theorem mergeFields_of_writable {fs : List FRow} (h : ∀ f ∈ fs, f.acc = .rw ∨ f.acc = .rwc) (old w : Word) :
    mergeFields fs old w = maskedWrite (writtenBits fs) old w := by
  induction fs generalizing old with
  | nil =>
    change old = (old &&& ~~~0#32) ||| (w &&& 0#32)
    rw [BitVec.not_zero, BitVec.and_allOnes, BitVec.and_zero, BitVec.or_zero]
  | cons f fs ih =>
    have hf : mergeFields (f :: fs) old w = mergeFields fs (f.fld.set old (f.fld.get w)) w := by
      rcases h f List.mem_cons_self with hacc | hacc <;> simp [mergeFields, hacc]
    rw [hf, ih (fun g hg => h g (List.mem_cons_of_mem _ hg)), Fld.set_get]
    ext i hi
    simp only [maskedWrite, writtenBits, List.foldr_cons, BitVec.getElem_or, BitVec.getElem_and, BitVec.getElem_not]
    cases old[i] <;> cases w[i] <;> cases f.fld.mask[i] <;> simp

/-- The lock on RWC fields does not hold up a write that repeats them. -/
theorem State.writeWith_of_rwcSame {s : State} {addr : Nat} {w : Word} {locked legal : Bool} {act : State → State} {r : Row}
    {i j : Nat} (hrow : rowFind (blockRows (blkOf addr)) (addr % 0x10000) = some (r, i, j))
    (hsame : rwcSame r.flds (s.reg addr) w = true) :
    s.writeWith addr w locked legal act = s.writeWith addr w false legal act := by
  have unfolded : ∀ f, f = @State.writeWith → f s addr w locked legal act = f s addr w false legal act := by
    intro f hf
    delta State.writeWith at hf
    subst hf
    beta_reduce
    rw [hrow]
    simp only [hsame, Bool.or_true]
  exact unfolded _ rfl

/-! ### The row of WHL_ECFG -/

/-- The row of WHL_ECFG. -/
def rowECFG : Row :=
  { off := 0x40, s1 := 0x20, c1 := 2, s2 := 0x4, c2 := 1, rst := 0x800000, werr := .inst 2, lock := .echo,
    flds := [⟨WHL_ECFG_EN, .rw, .any⟩, ⟨WHL_ECFG_MODE, .rwc, .u 0 2⟩,
      ⟨WHL_ECFG_SRC, .rwc, .u 0 5⟩, ⟨WHL_ECFG_PIN, .rwc, .any⟩,
      ⟨WHL_ECFG_INV, .rw, .any⟩, ⟨WHL_ECFG_SHARE, .rwc, .any⟩,
      ⟨WHL_ECFG_NOPIN, .rwc, .any⟩, ⟨WHL_ECFG_DUTY, .rw, .u 1 255⟩] }

theorem rowFind_ECFG (k : Fin 2) :
    rowFind (blockRows (blkOf (WHL_ECFG k))) (WHL_ECFG k % 0x10000) = some (rowECFG, k.val, 0) := by
  fin_cases k <;> decide

theorem writtenBits_ECFG : writtenBits rowECFG.flds = 0x00FF7F77 := by decide

/-- WHL_ECFG after a legal write. -/
def ecfgWritten (old w : Word) : Word := maskedWrite 0x00FF7F77 old w

theorem ecfgWritten_eq (old w : Word) : ecfgWritten old w = (old &&& 0xFF008088) ||| (w &&& 0x00FF7F77) := rfl

theorem mergeFields_ECFG (old w : Word) : mergeFields rowECFG.flds old w = ecfgWritten old w := by
  rw [mergeFields_of_writable (by decide), writtenBits_ECFG]
  rfl

theorem fieldsLegal_ECFG {w : Word} (hmode : WHL_ECFG_MODE.get w ≤ 2) (hsrc : WHL_ECFG_SRC.get w ≤ 5)
    (hduty : 1 ≤ WHL_ECFG_DUTY.get w) : fieldsLegal rowECFG.flds w = true := by
  have hmax : WHL_ECFG_DUTY.get w < 2 ^ 8 := Nat.mod_lt _ (by decide)
  simp [fieldsLegal, rowECFG, Rng.ok]
  omega

/-- What a legal write of WHL_ECFG does besides taking the word, by EN before and after. -/
def State.ecfgAct (s : State) (k : Nat) (t : State) : State :=
  if s.fld (WHL_ECFG k) WHL_ECFG_EN = 0 ∧ t.fld (WHL_ECFG k) WHL_ECFG_EN = 1 then t.echoEnable k
  else if s.fld (WHL_ECFG k) WHL_ECFG_EN = 1 ∧ t.fld (WHL_ECFG k) WHL_ECFG_EN = 0 then t.echoDisable k
  else if t.echoPinned k then t.echoLevel k (t.echoOf k).level else t

theorem State.whlWrite_ECFG (s : State) (k : Fin 2) (w : Word) :
    s.whlWrite (WHL_ECFG k) w
      = s.writeWith (WHL_ECFG k) w (s.fld (WHL_ECFG k) WHL_ECFG_EN == 1) (s.ecfgLegal k w) (s.ecfgAct k) := by
  fin_cases k <;> rfl

theorem State.whlWrite_ECFG_illegal {s : State} {k : Fin 2} {w : Word} (h : s.ecfgLegal k w = false) :
    s.writeRefused (s.whlWrite (WHL_ECFG k) w) (WHL_ECFG k) := by
  rw [s.whlWrite_ECFG, State.writeWith_of_illegal (rowFind_ECFG k) h]
  exact State.refuseWrite_refused (rowFind_ECFG k)

/-- A legal write of WHL_ECFG: free, or with the RWC fields repeated. -/
theorem State.whlWrite_ECFG_legal {s : State} {k : Fin 2} {w : Word} (hlegal : s.ecfgLegal k w = true)
    (hmode : WHL_ECFG_MODE.get w ≤ 2) (hsrc : WHL_ECFG_SRC.get w ≤ 5) (hduty : 1 ≤ WHL_ECFG_DUTY.get w)
    (hlock : s.fld (WHL_ECFG k) WHL_ECFG_EN = 0 ∨ rwcSame rowECFG.flds (s.reg (WHL_ECFG k)) w = true) :
    s.whlWrite (WHL_ECFG k) w = s.ecfgAct k (s.setReg (WHL_ECFG k) (ecfgWritten (s.reg (WHL_ECFG k)) w)) := by
  have hfields := fieldsLegal_ECFG hmode hsrc hduty
  have hfree : s.whlWrite (WHL_ECFG k) w = s.writeWith (WHL_ECFG k) w false (s.ecfgLegal k w) (s.ecfgAct k) := by
    rw [s.whlWrite_ECFG]
    rcases hlock with hen | hsame
    · rw [hen]
      rfl
    · exact State.writeWith_of_rwcSame (rowFind_ECFG k) hsame
  rw [hfree, State.writeWith_of_legal (rowFind_ECFG k) hfields rfl hlegal, mergeFields_ECFG]

/-! ### Enabling (R90, R94) -/

theorem State.echoOf_ownPin (s : State) (k j : Nat) : (s.ownPin k).echoOf j = s.echoOf j := by
  have hoff : ∀ c, s.OutFrame (s.disableChannel c) := fun c => .disableChannel (.refl s)
  unfold State.ownPin
  split
  · extract_lets p
    rw [State.echoOf_setPin, (hoff (36 + p)).eq]
    rfl
  · rfl

theorem State.reg_ownPin (s : State) (k : Nat) {j : Nat} (hj : whlReg j) : (s.ownPin k).reg j = s.reg j := by
  unfold State.ownPin
  split
  · extract_lets p
    have hoff : s.OutFrame (s.disableChannel (36 + p)) := .disableChannel (.refl s)
    rw [State.reg_setPin _ _ _ hj.2, hoff.reg j hj]
  · rfl

theorem State.ownPin_of_unpinned {s : State} {k : Nat} (h : s.echoPinned k = false) : s.ownPin k = s := by
  rw [State.ownPin, h]
  rfl

/-- The generator's pin takes its level. -/
theorem State.bit_ownPin {s : State} {k : Nat} (h : s.echoPinned k = true) :
    (s.ownPin k).bit OUT_LVLA (s.fld (WHL_ECFG k) WHL_ECFG_PIN)
      = ((s.echoOf k).level != (s.fld (WHL_ECFG k) WHL_ECFG_INV == 1)) := by
  rw [State.ownPin, if_pos h]
  exact State.bit_setPin _ _ (Nat.lt_trans (Nat.mod_lt _ (by decide)) (by decide : 2 ^ 4 < 32))

/-- The generators as one comes to be enabled, before its pin is owned. -/
def State.echoFresh (s : State) (k : Nat) : State :=
  let s1 := s.updEcho k fun _ => { upTo := if s.echoIn k 1 then s.angW else BitVec.ofNat 32 (2 ^ 32 - 1) }
  if k = 0 ∧ s.echoIn 0 2 ∧ s.synthOf 1 = 0 then s1.updEcho 1 fun e => { e with upTo := BitVec.ofNat 32 (2 ^ 32 - 1) } else s1

theorem State.echoEnable_eq (s : State) (k : Nat) : s.echoEnable k = (s.echoFresh k).ownPin k := rfl

theorem State.echoFresh_eq (s : State) (k : Nat) : s.echoFresh k = { s with echo := (s.echoFresh k).echo } := by
  unfold State.echoFresh
  extract_lets s1
  split <;> rfl

theorem State.echoOf_echoFresh (s : State) {k : Nat} (h : k < 2) :
    (s.echoFresh k).echoOf k = { upTo := if s.echoIn k 1 then s.angW else BitVec.ofNat 32 (2 ^ 32 - 1) } := by
  unfold State.echoFresh
  extract_lets s1
  have h1 : s1.echoOf k = { upTo := if s.echoIn k 1 then s.angW else BitVec.ofNat 32 (2 ^ 32 - 1) } := State.echoOf_updEcho_same _ _ h
  split
  next hk => exact (State.echoOf_updEcho_ne _ _ (by omega)).trans h1
  · exact h1

theorem State.reg_echoFresh (s : State) (k j : Nat) : (s.echoFresh k).reg j = s.reg j := by
  rw [s.echoFresh_eq]
  rfl

theorem State.echoPinned_of_en {s : State} {k : Nat} (hen : s.fld (WHL_ECFG k) WHL_ECFG_EN = 1) :
    s.echoPinned k = (s.fld (WHL_ECFG k) WHL_ECFG_NOPIN == 0) := by
  rw [State.echoPinned, State.echoOn, hen]
  rfl

theorem State.echoIn_of_en {s : State} {k : Nat} (m : Nat) (hen : s.fld (WHL_ECFG k) WHL_ECFG_EN = 1) :
    s.echoIn k m = (s.fld (WHL_ECFG k) WHL_ECFG_MODE == m) := by
  rw [State.echoIn, State.echoOn, hen]
  rfl

/-- What a generator that comes to be enabled has (R90, R94). -/
theorem State.echoEnable_sets {s : State} {k : Nat} (hk : k < 2) (hen : s.fld (WHL_ECFG k) WHL_ECFG_EN = 1) :
    (∀ j, whlReg j → (s.echoEnable k).reg j = s.reg j)
      ∧ (s.echoEnable k).echoOf k
          = { upTo := if s.fld (WHL_ECFG k) WHL_ECFG_MODE = 1 then s.angW else BitVec.ofNat 32 (2 ^ 32 - 1) }
      ∧ (s.fld (WHL_ECFG k) WHL_ECFG_NOPIN = 0 → (s.echoEnable k).bit OUT_LVLA (s.fld (WHL_ECFG k) WHL_ECFG_PIN)
          = (s.fld (WHL_ECFG k) WHL_ECFG_INV == 1))
      ∧ (s.fld (WHL_ECFG k) WHL_ECFG_NOPIN = 1 → s.echoEnable k = { s with echo := (s.echoEnable k).echo }) := by
  have hfld : ∀ f, (s.echoFresh k).fld (WHL_ECFG k) f = s.fld (WHL_ECFG k) f := fun f => by
    rw [State.fld, s.reg_echoFresh, State.fld]
  have hpinned : (s.echoFresh k).echoPinned k = (s.fld (WHL_ECFG k) WHL_ECFG_NOPIN == 0) := by
    rw [State.echoPinned_of_en ((hfld _).trans hen), hfld]
  rw [State.echoEnable_eq]
  refine ⟨fun j hj => ?_, ?_, fun hno => ?_, fun hno => ?_⟩
  · rw [State.reg_ownPin _ _ hj, State.reg_echoFresh]
  · rw [State.echoOf_ownPin, State.echoOf_echoFresh _ hk, State.echoIn_of_en _ hen]
    simp
  · have hbit := State.bit_ownPin (s := s.echoFresh k) (k := k) (by rw [hpinned, hno]; rfl)
    rw [hfld, hfld, State.echoOf_echoFresh _ hk] at hbit
    simpa using hbit
  · rw [State.ownPin_of_unpinned (by rw [hpinned, hno]; rfl)]
    exact s.echoFresh_eq k

/-- R90, R94: WHL_ECFG written with EN set. -/
theorem State.whlWrite_enables {s : State} {k : Fin 2} {w : Word} (hoff : s.fld (WHL_ECFG k) WHL_ECFG_EN = 0)
    (hon : WHL_ECFG_EN.get w = 1) (hlegal : s.ecfgLegal k w = true) (hmode : WHL_ECFG_MODE.get w ≤ 2)
    (hsrc : WHL_ECFG_SRC.get w ≤ 5) (hduty : 1 ≤ WHL_ECFG_DUTY.get w) :
    ∃ t, s.whlWrite (WHL_ECFG k) w = t
      ∧ t.reg (WHL_ECFG k) = (s.reg (WHL_ECFG k) &&& 0xFF008088) ||| (w &&& 0x00FF7F77)
      ∧ (t.echoOf k).level = false ∧ (t.echoOf k).fallAt = none ∧ (t.echoOf k).syn = 0
      ∧ (WHL_ECFG_MODE.get w = 1 → (t.echoOf k).upTo = s.angW)
      ∧ (WHL_ECFG_NOPIN.get w = 0 → t.bit OUT_LVLA (WHL_ECFG_PIN.get w) = (WHL_ECFG_INV.get w == 1))
      ∧ (WHL_ECFG_NOPIN.get w = 1 → s.onlyRegs { t with echo := s.echo } [WHL_ECFG k]) := by
  let s0 := s.setReg (WHL_ECFG k) (ecfgWritten (s.reg (WHL_ECFG k)) w)
  have hfld : ∀ f : Fld, (∀ i, i < f.w → (0x00FF7F77 : Word).getLsbD (f.lo + i) = true) → s0.fld (WHL_ECFG k) f = f.get w :=
    fun f hf => by rw [State.fld, State.reg_setReg_same, ecfgWritten, Fld.get_maskedWrite _ _ hf]
  have hen : s0.fld (WHL_ECFG k) WHL_ECFG_EN = 1 := (hfld WHL_ECFG_EN (by decide)).trans hon
  have hact : s.whlWrite (WHL_ECFG k) w = s0.echoEnable k := by
    rw [State.whlWrite_ECFG_legal hlegal hmode hsrc hduty (.inl hoff)]
    exact if_pos ⟨hoff, hen⟩
  obtain ⟨hreg, hecho, hpin, hno⟩ := State.echoEnable_sets k.isLt hen
  have hecfg : whlReg (WHL_ECFG k) := by simp only [whlReg, WHL_ECFG]; omega
  rw [hfld WHL_ECFG_MODE (by decide)] at hecho
  rw [hfld WHL_ECFG_NOPIN (by decide), hfld WHL_ECFG_PIN (by decide), hfld WHL_ECFG_INV (by decide)] at hpin
  rw [hfld WHL_ECFG_NOPIN (by decide)] at hno
  refine ⟨s0.echoEnable k, hact, ?_, ?_, ?_, ?_, fun hm => ?_, hpin, fun h => ⟨?_, fun j hj => ?_⟩⟩
  · rw [hreg _ hecfg, State.reg_setReg_same, ecfgWritten_eq]
  · rw [hecho]
  · rw [hecho]
  · rw [hecho]
  · rw [hecho, if_pos hm]
    rfl
  · rw [hno h]
    rfl
  · change (s0.echoEnable k).reg j = s.reg j
    rw [hno h]
    exact State.reg_setReg_ne _ _ (by simpa using hj)

/-! ### Disabling (R94, R95) -/

/-- ECHO1 on the synthetic angle of a disabled generator rests at its idle level. -/
def State.sharedRests (s : State) : State := (s.echoLevel 1 false).updEcho 1 fun e => { e with fallAt := none }

theorem State.echoDisable_eq (s : State) (k : Nat) :
    s.echoDisable k = if k = 0 ∧ s.synthOf 1 = 0 ∧ s.echoIn 1 2
      then (s.updEcho k fun e => { e with closing := e.level, riseAt := none }).sharedRests
      else s.updEcho k fun e => { e with closing := e.level, riseAt := none } := rfl

theorem State.echoOf_sharedRests_zero (s : State) : s.sharedRests.echoOf 0 = s.echoOf 0 := by
  rw [State.sharedRests, State.echoOf_updEcho_ne _ _ (by decide), s.echoOf_echoLevel_ne _ (by decide)]

theorem State.level_sharedRests (s : State) : (s.sharedRests.echoOf 1).level = false := by
  rw [State.sharedRests, State.echoOf_updEcho_same _ _ (by decide), s.echoOf_echoLevel_same _ (by decide)]

theorem State.LevelFrame.echoDisable {s t : State} {k : Nat} (h : s.LevelFrame t) : s.LevelFrame (t.echoDisable k) := by
  rw [t.echoDisable_eq]
  exact .ite h.updEcho.echoLevel.updEcho h.updEcho

theorem State.echoOf_echoDisable (s : State) {k : Nat} (h : k < 2) :
    (s.echoDisable k).echoOf k = { s.echoOf k with closing := (s.echoOf k).level, riseAt := none } := by
  have hclosing := s.echoOf_updEcho_same (fun e => { e with closing := e.level, riseAt := none }) h
  rw [s.echoDisable_eq]
  split
  next hk =>
    obtain ⟨rfl, -⟩ := hk
    exact (State.echoOf_sharedRests_zero _).trans hclosing
  · exact hclosing

theorem State.synthOf_one (s : State) : s.synthOf 1 = 0 ↔ s.fld (WHL_ECFG 1) WHL_ECFG_SHARE = 1 := by
  simp [State.synthOf]

/-- A write that repeats WHL_ECFG but for EN repeats its RWC fields. -/
theorem rwcSame_ECFG_clearEn (old : Word) : rwcSame rowECFG.flds old (old &&& 0xFFFFFFFE) = true := by
  have hkeep : ∀ f : Fld, 0 < f.lo → f.get (old &&& 0xFFFFFFFE) = f.get old := fun f hf =>
    f.get_withBit_ne old 0 false (.inl hf)
  simp only [rwcSame, rowECFG, List.all_cons, List.all_nil, Bool.true_and, Bool.and_true, Bool.and_eq_true, beq_iff_eq]
  refine ⟨?_, ?_, ?_, ?_, ?_⟩ <;> exact hkeep _ (by decide)

theorem get_en_clearEn (old : Word) : WHL_ECFG_EN.get (old &&& 0xFFFFFFFE) = 0 := by
  apply Nat.eq_of_testBit_eq
  intro i
  rw [Fld.get_testBit, Nat.zero_testBit, BitVec.getLsbD_and]
  by_cases hi : i < 1
  · obtain rfl : i = 0 := by omega
    simp
  · simp [hi]

/-- R94, R95: WHL_ECFG written with EN cleared and nothing else changed. -/
theorem State.whlWrite_disables {s : State} {k : Fin 2} {w : Word} (hon : s.fld (WHL_ECFG k) WHL_ECFG_EN = 1)
    (hw : w = s.reg (WHL_ECFG k) &&& 0xFFFFFFFE) (hlegal : s.ecfgLegal k w = true) (hmode : WHL_ECFG_MODE.get w ≤ 2)
    (hsrc : WHL_ECFG_SRC.get w ≤ 5) (hduty : 1 ≤ WHL_ECFG_DUTY.get w) :
    ∃ t, s.whlWrite (WHL_ECFG k) w = t ∧ t.fld (WHL_ECFG k) WHL_ECFG_EN = 0
      ∧ t.echoOf k = { s.echoOf k with closing := (s.echoOf k).level, riseAt := none }
      ∧ (k = 1 ∨ s.fld (WHL_ECFG 1) WHL_ECFG_SHARE = 0 → s.onlyRegs { t with echo := s.echo } [WHL_ECFG k])
      ∧ (k = 0 → s.fld (WHL_ECFG 1) WHL_ECFG_SHARE = 1 → s.echoIn 1 2 = true → (t.echoOf 1).level = false) := by
  let s0 := s.setReg (WHL_ECFG k) (ecfgWritten (s.reg (WHL_ECFG k)) w)
  have hen : s0.fld (WHL_ECFG k) WHL_ECFG_EN = 0 := by
    rw [State.fld, State.reg_setReg_same, ecfgWritten, Fld.get_maskedWrite _ _ (by decide), hw, get_en_clearEn]
  have hact : s.whlWrite (WHL_ECFG k) w = s0.echoDisable k := by
    rw [State.whlWrite_ECFG_legal hlegal hmode hsrc hduty (.inr (hw ▸ rwcSame_ECFG_clearEn _)), State.ecfgAct,
      if_neg (by rw [hon]; simp), if_pos ⟨hon, hen⟩]
  have hframe : s0.LevelFrame (s0.echoDisable k) := .echoDisable (.refl s0)
  have hother : k = 0 → ∀ f, s0.fld (WHL_ECFG 1) f = s.fld (WHL_ECFG 1) f := by
    rintro rfl f
    exact congrArg f.get (State.reg_setReg_ne _ _ (by decide))
  refine ⟨s0.echoDisable k, hact, ?_, s0.echoOf_echoDisable k.isLt, fun hsolo => ?_, ?_⟩
  · rw [State.fld, hframe.reg _ (by simp only [WHL_ECFG, WHL_EVT]; omega)]
    exact hen
  · have halone : ¬((k : Nat) = 0 ∧ s0.synthOf 1 = 0 ∧ s0.echoIn 1 2) := by
      rintro ⟨hk, hshare, -⟩
      have hk0 : k = 0 := Fin.ext hk
      rw [s0.synthOf_one, hother hk0] at hshare
      rcases hsolo with h1 | h0
      · rw [hk0] at h1
        cases h1
      · rw [h0] at hshare
        cases hshare
    rw [s0.echoDisable_eq, if_neg halone]
    exact ⟨rfl, fun j hj => State.reg_setReg_ne _ _ (by simpa using hj)⟩
  · rintro rfl hshare hin
    have hshare0 : s0.synthOf 1 = 0 := s0.synthOf_one.mpr ((hother rfl _).trans hshare)
    have hin0 : s0.echoIn 1 2 = true := by
      rw [← hin, State.echoIn, State.echoIn, State.echoOn, State.echoOn, hother rfl, hother rfl]
      rfl
    rw [s0.echoDisable_eq, if_pos ⟨rfl, hshare0, hin0⟩]
    exact State.level_sharedRests _

/-! ### The end of a pulse (R91) -/

/-- A pulse that runs ends at its time. -/
theorem execEchoPulseEnd_falls {s : State} {k : Fin 2} {x : Nat} (hx : (s.echoOf k).fallAt = some x) :
    (s.now < x → exec (.echoPulseEnd k) s = .next s)
    ∧ (x ≤ s.now → ∃ t, exec (.echoPulseEnd k) s = .next t ∧ (t.echoOf k).level = false ∧ (t.echoOf k).fallAt = none
      ∧ (s.echoPinned k = true → t.bit OUT_LVLA (s.fld (WHL_ECFG k) WHL_ECFG_PIN) = (s.fld (WHL_ECFG k) WHL_ECFG_INV == 1))
      ∧ (s.echoPinned k = false → t = { s with echo := t.echo, whl := t.whl })) := by
  have hexec : exec (.echoPulseEnd k) s
      = .next (if x ≤ s.now then (s.echoLevel k false).updEcho k fun e => { e with fallAt := none } else s) := by
    change execEchoPulseEnd k s = _
    rw [execEchoPulseEnd, hx]
  rw [hexec]
  refine ⟨fun h => by rw [if_neg (by omega)], fun h => ?_⟩
  rw [if_pos h]
  refine ⟨_, rfl, ?_, ?_, fun hp => ?_, fun hp => ?_⟩
  · rw [State.echoOf_updEcho_same _ _ k.isLt, s.echoOf_echoLevel_same _ k.isLt]
  · rw [State.echoOf_updEcho_same _ _ k.isLt]
  · rw [State.bit, State.reg_updEcho, ← State.bit, s.bit_echoLevel false hp, Bool.false_bne]
  · rw [s.echoLevel_of_unpinned false hp]
    rfl

/-- A pulse that an edge truncated starts anew at its time. -/
theorem execEchoPulseEnd_rises {s : State} {k : Fin 2} {x : Nat} (hfall : (s.echoOf k).fallAt = none)
    (hx : (s.echoOf k).riseAt = some x) :
    (s.now < x → exec (.echoPulseEnd k) s = .next s)
    ∧ (x ≤ s.now → ∃ t, exec (.echoPulseEnd k) s = .next t ∧ (t.echoOf k).level = true
      ∧ (t.echoOf k).riseAt = none ∧ (t.echoOf k).fallAt = some (s.now + 16 * s.fld (WHL_EWID k) WHL_EWID_WIDTH)
      ∧ ∀ m : Fin 6, s.fld (WHL_CFG m) WHL_CFG_SRC = k + 1 → (t.whlOf m).det = true) := by
  have hexec : exec (.echoPulseEnd k) s = .next (if x ≤ s.now then s.echoPulse k else s) := by
    change execEchoPulseEnd k s = _
    rw [execEchoPulseEnd, hfall, hx]
  rw [hexec]
  refine ⟨fun h => by rw [if_neg (by omega)], fun h => ?_⟩
  rw [if_pos h]
  refine ⟨s.echoPulse k, rfl, ?_⟩
  rw [s.echoOf_echoPulse k.isLt]
  exact ⟨rfl, rfl, rfl, fun m hm => s.det_echoLevel true m.isLt hm⟩

/-! ### Pattern edges (R92, R93) -/

/-- The level after an edge of a pattern. -/
def EchoEdge.levelAfter : EchoEdge → Bool
  | .rise _ => true
  | .level b => b
  | .pulse => true
  | .fall => false

/-- The edge `e` of generator `k` at angle word `at'` takes place, the angle being `w` (R92, R93). -/
def State.echoTakes (s : State) (k : Nat) (w at' : Word) (e : EchoEdge) : State :=
  let s1 := s.updEcho k fun x => { x with upTo := at' }
  match e with
  | .rise f =>
    let fallW := at' + BitVec.ofNat 32 f
    if wReached w fallW
    then (s1.echoLevel k true).updEcho k fun x => { x with upTo := fallW, fallAt := some (s.now + 16) }
    else s1.echoLevel k true
  | .level b => s1.echoLevel k b
  | .pulse => s1.echoPulse k
  | .fall => s1.echoLevel k false

theorem State.echoStep_eq {s : State} {k : Nat} {w : Word} {e : Nat × EchoEdge} (hw : s.echoAngle k = some w)
    (he : nextEdge (s.echoEdges k) (s.echoOf k).upTo = some e) (hopen : (s.echoOf k).closing = false) :
    s.echoStep k = if wReached w ((s.echoOf k).upTo + BitVec.ofNat 32 e.1)
      then s.echoTakes k w ((s.echoOf k).upTo + BitVec.ofNat 32 e.1) e.2 else s := by
  have hstep : s.echoStep k = if !wReached w ((s.echoOf k).upTo + BitVec.ofNat 32 e.1) || ((s.echoOf k).closing && !e.2.ends) then s
      else s.echoTakes k w ((s.echoOf k).upTo + BitVec.ofNat 32 e.1) e.2 := by
    rw [State.echoStep, hw]
    dsimp only
    rw [he]
    rfl
  rw [hstep, hopen]
  cases wReached w ((s.echoOf k).upTo + BitVec.ofNat 32 e.1) <;> rfl

theorem State.LevelFrame.echoTakes {s t : State} {k : Nat} {w at' : Word} {e : EchoEdge} (h : s.LevelFrame t) :
    s.LevelFrame (t.echoTakes k w at' e) := by
  cases e with
  | rise f => exact .ite h.updEcho.echoLevel.updEcho h.updEcho.echoLevel
  | level b => exact h.updEcho.echoLevel
  | pulse => exact h.updEcho.echoPulse
  | fall => exact h.updEcho.echoLevel (b := false)

/-- What generator `k` has once an edge has taken place. -/
theorem State.echoTakes_sets (s : State) {k : Nat} (w at' : Word) (e : EchoEdge) (h : k < 2) :
    ((s.echoTakes k w at' e).echoOf k).level = e.levelAfter
      ∧ (∀ f, e = .rise f → wReached w (at' + BitVec.ofNat 32 f) = true →
          ((s.echoTakes k w at' e).echoOf k).fallAt = some (s.now + 16)
            ∧ ((s.echoTakes k w at' e).echoOf k).upTo = at' + BitVec.ofNat 32 f)
      ∧ (e = .fall ∨ e = .pulse → ((s.echoTakes k w at' e).echoOf k).upTo = at') := by
  have hlevel : ∀ b, ((s.updEcho k fun x => { x with upTo := at' }).echoLevel k b).echoOf k
      = { s.echoOf k with upTo := at', level := b, closing := b && (s.echoOf k).closing } := fun b => by
    rw [State.echoOf_echoLevel_same _ _ h, State.echoOf_updEcho_same _ _ h]
  cases e with
  | rise f =>
    have htakes : s.echoTakes k w at' (.rise f) = if wReached w (at' + BitVec.ofNat 32 f)
        then ((s.updEcho k fun x => { x with upTo := at' }).echoLevel k true).updEcho k
          fun x => { x with upTo := at' + BitVec.ofNat 32 f, fallAt := some (s.now + 16) }
        else (s.updEcho k fun x => { x with upTo := at' }).echoLevel k true := rfl
    rw [htakes]
    refine ⟨?_, fun f' hf hreached => ?_, by simp⟩
    · split
      · rw [State.echoOf_updEcho_same _ _ h, hlevel]
        rfl
      · rw [hlevel]
        rfl
    · cases hf
      rw [if_pos hreached, State.echoOf_updEcho_same _ _ h]
      exact ⟨rfl, rfl⟩
  | level b => exact ⟨congrArg Echo.level (hlevel b), by simp, by simp⟩
  | pulse =>
    have hpulse := (s.updEcho k fun x => { x with upTo := at' }).echoOf_echoPulse h
    rw [State.echoOf_updEcho_same _ _ h] at hpulse
    exact ⟨congrArg Echo.level hpulse, by simp, fun _ => congrArg Echo.upTo hpulse⟩
  | fall => exact ⟨congrArg Echo.level (hlevel false), by simp, fun _ => congrArg Echo.upTo (hlevel false)⟩

/-- The next edge of the pattern takes place once the angle has reached it. -/
theorem execFollowEdge_takes {s : State} {k : Fin 2} {w : Word} {e : Nat × EchoEdge} (hw : s.echoAngle k = some w)
    (he : nextEdge (s.echoEdges k) (s.echoOf k).upTo = some e) (hopen : (s.echoOf k).closing = false) :
    let at' := (s.echoOf k).upTo + BitVec.ofNat 32 e.1
    (wReached w at' = false → exec (.followEdge k) s = .next s)
    ∧ (wReached w at' = true → ∃ t, exec (.followEdge k) s = .next t
      ∧ (t.echoOf k).level = e.2.levelAfter
      ∧ (∀ f, e.2 = .rise f → wReached w (at' + BitVec.ofNat 32 f) = true →
          (t.echoOf k).fallAt = some (s.now + 16) ∧ (t.echoOf k).upTo = at' + BitVec.ofNat 32 f)
      ∧ (e.2 = .fall ∨ e.2 = .pulse → (t.echoOf k).upTo = at')
      ∧ t.mem = s.mem ∧ t.calq = s.calq ∧ t.stage = s.stage) := by
  intro at'
  have hexec : exec (.followEdge k) s = .next (if wReached w at' then s.echoTakes k w at' e.2 else s) :=
    congrArg Host.Outcome.next (State.echoStep_eq hw he hopen)
  have hframe : s.LevelFrame (s.echoTakes k w at' e.2) := .echoTakes (.refl s)
  obtain ⟨hlevel, hrise, hupTo⟩ := s.echoTakes_sets w at' e.2 k.isLt
  rw [hexec]
  refine ⟨fun hw => by rw [hw]; rfl, fun hw => ⟨s.echoTakes k w at' e.2, by rw [hw]; rfl, hlevel, hrise, hupTo, ?_, ?_, ?_⟩⟩
  all_goals rw [hframe.eq]

/-! ### Ramp steps (R94) -/

theorem execEchoRampStep_of_synth {s : State} {k : Fin 2} (hin : s.echoIn k 2 = true) (hown : s.synthOf k = k) :
    ∃ t, exec (.echoRampStep k) s = .next t
      ∧ t.fld (WHL_ESPDA k) WHL_ESPDA_PERIOD
          = rampStep (s.fld (WHL_ESPDA k) WHL_ESPDA_PERIOD) (s.fld (WHL_ESPD k) WHL_ESPD_PERIOD)
              (s.fld (WHL_ERAMP k) WHL_ERAMP_RAMP)
      ∧ s.onlyRegs t [WHL_ESPDA k] := by
  let p := rampStep (s.fld (WHL_ESPDA k) WHL_ESPDA_PERIOD) (s.fld (WHL_ESPD k) WHL_ESPD_PERIOD) (s.fld (WHL_ERAMP k) WHL_ERAMP_RAMP)
  have hp : p < 2 ^ 32 := by
    have hcur : s.fld (WHL_ESPDA k) WHL_ESPDA_PERIOD < 2 ^ 32 := Nat.mod_lt _ (by decide)
    have htarget : s.fld (WHL_ESPD k) WHL_ESPD_PERIOD < 2 ^ 32 := Nat.mod_lt _ (by decide)
    unfold p rampStep
    split
    · exact htarget
    · split <;> omega
  have hexec : exec (.echoRampStep k) s = .next (s.setFld (WHL_ESPDA k) WHL_ESPDA_PERIOD p) := by
    change execEchoRampStep k s = _
    rw [execEchoRampStep, hin, hown, beq_self_eq_true]
    rfl
  refine ⟨_, hexec, ?_, rfl, fun j hj => State.reg_setFld_ne _ _ _ (by simpa using hj)⟩
  rw [State.fld_setFld_same _ _ _ _ (by decide), Nat.mod_eq_of_lt hp]

theorem execEchoRampStep_of_not_synth {s : State} {k : Fin 2} (h : s.echoIn k 2 = false ∨ s.synthOf k ≠ k) :
    exec (.echoRampStep k) s = .next s := by
  have hcond : (s.echoIn k 2 && s.synthOf k == k.val) = false := by
    rcases h with h | h
    · rw [h, Bool.false_and]
    · rw [beq_false_of_ne h, Bool.and_false]
  change execEchoRampStep k s = _
  rw [execEchoRampStep, hcond]
  rfl

end Sys2Proof.Machine

open Sys2Proof.Machine

/-- Settles O24: a level change reaches the generator, its pin and the wheels that listen to it, and nothing else. -/
theorem echoGenerators : Obligations.EchoGenerators := by
  refine ⟨fun k w s hoff hon => ⟨fun hlegal => ⟨_, rfl, State.whlWrite_ECFG_illegal hlegal⟩, fun hlegal hmode hsrc hduty => ?_⟩,
    fun k w s hon hw hlegal hmode hsrc hduty => ?_,
    fun k s => ⟨fun x hx => execEchoPulseEnd_falls hx, fun x hfall hx => execEchoPulseEnd_rises hfall hx⟩,
    fun k s => ⟨fun hnone => ?_, fun w hw e he hopen => ?_⟩,
    fun k s => ⟨execEchoRampStep_of_synth, execEchoRampStep_of_not_synth⟩⟩
  · obtain ⟨t, rfl, ht⟩ := State.whlWrite_enables hoff hon hlegal hmode hsrc hduty
    exact ⟨_, rfl, ht⟩
  · obtain ⟨t, rfl, ht⟩ := State.whlWrite_disables hon hw hlegal hmode hsrc hduty
    exact ⟨_, rfl, ht⟩
  · change Host.Outcome.next (s.echoStep k) = _
    rw [State.echoStep, hnone]
  · obtain ⟨hbefore, hafter⟩ := execFollowEdge_takes hw he hopen
    refine ⟨hbefore, fun hreached => ?_⟩
    obtain ⟨t, hexec, hlevel, hrest⟩ := hafter hreached
    refine ⟨t, hexec, ?_, hrest⟩
    rw [hlevel]
    cases e.2 <;> rfl

end

section
/-! PROOFS. An echo fed back to an enabled wheel: why `WheelCommands` fails (R67, R93, R163). -/

namespace Sys2Proof.Machine

/-! ### The input level of a wheel where the unit leaves FULL for STOP -/

theorem State.OutFrame.whlOf_eq {s t : State} (h : s.OutFrame t) (m : Nat) : t.whlOf m = s.whlOf m := by
  rw [h.eq]
  rfl

theorem State.OutFrame.echoIn_eq {s t : State} (h : s.OutFrame t) (k mode : Nat) (hk : k < 2) : t.echoIn k mode = s.echoIn k mode := by
  have hreg : t.reg (WHL_ECFG k) = s.reg (WHL_ECFG k) := h.reg _ (by simp only [whlReg, WHL_ECFG]; omega)
  have hecho : t.echoOf k = s.echoOf k := by
    rw [h.eq]
    rfl
  simp only [State.echoIn, State.echoOn, State.fld, hreg, hecho]

theorem State.det_updWhl (s : State) {m : Nat} (n : Nat) {f : Whl → Whl} (hm : m < 6) (hf : ∀ h, (f h).det = h.det) :
    ((s.updWhl n f).whlOf m).det = (s.whlOf m).det := by
  by_cases hn : m = n
  · rw [← hn, s.whlOf_updWhl_same f hm, hf]
  · rw [s.whlOf_updWhl_ne f hn]

theorem State.det_withdraw (s : State) {m : Nat} (hm : m < 6) : (s.withdraw.whlOf m).det = (s.whlOf m).det := by
  rw [State.withdraw, State.whlOf_setFld, State.whlOf_updObs, State.dropPrediction, State.whlOf_setReg, State.det_updWhl _ _ hm]
  intro
  rfl

theorem State.det_leavePlaced (s : State) {m : Nat} (hm : m < 6) : (s.leavePlaced.whlOf m).det = (s.whlOf m).det := by
  unfold State.leavePlaced
  extract_lets s1
  have hbefore : s.OutFrame s1.unplace := .unplace (.updSync (.refl s))
  have hafter : s1.unplace.withdraw.OutFrame (((s1.unplace.withdraw.secReset.setFld OBS_STATE OBS_STATE_HOLDN 0).setFld OBS_STATE
    OBS_STATE_PHASE 0).setFld OBS_SCNT OBS_SCNT_EARLYREV 0) := .setReg (.setReg (.setReg (.secReset (.refl _))))
  rw [hafter.whlOf_eq, State.det_withdraw _ hm, hbefore.whlOf_eq]

/-- With ECHO0 alone in FOLLOW, a wheel that listens to it sees it fall. -/
theorem State.det_echoFollowLow {s : State} {m : Nat} (hm : m < 6) (hsrc : s.fld (WHL_CFG m) WHL_CFG_SRC = 1)
    (hin : s.echoIn 0 1 = true) (hother : s.echoIn 1 1 = false) : (s.echoFollowLow.whlOf m).det = false := by
  let low := (s.echoLevel 0 false).updEcho 0 fun e => { e with fallAt := none, riseAt := none }
  have hframe : s.LevelFrame low := .updEcho (.echoLevel (.refl s))
  have hecho : low.echoOf 1 = s.echoOf 1 := (State.echoOf_updEcho_ne _ _ (by decide)).trans (s.echoOf_echoLevel_ne _ (by decide))
  have hrest : low.echoIn 1 1 = false := by
    rw [← hother]
    simp only [State.echoIn, State.echoOn, State.fld, hecho, hframe.reg (WHL_ECFG 1) (by decide)]
  have hlow : s.echoFollowLow = low := by
    rw [State.echoFollowLow, List.foldl_cons, hin, if_pos rfl, List.foldl_cons, List.foldl_nil]
    exact if_neg (Bool.eq_false_iff.mp hrest)
  rw [hlow, State.whlOf_updEcho, s.det_echoLevel false hm hsrc]

theorem State.goSync_stop {s : State} (h : s.syncSt = syncFULL) (cause : Nat) :
    s.goSync syncSTOP cause
      = ((((s.leaveFull cause).leavePlaced.setFld OBS_STATE OBS_STATE_SYNC syncSTOP).coastCheck).setPendAll pdSYNC).traceSync := by
  unfold State.goSync
  rw [h]
  rfl

theorem State.det_goSync_stop {s : State} {m : Nat} (hm : m < 6) (hfull : s.syncSt = syncFULL)
    (hsrc : s.fld (WHL_CFG m) WHL_CFG_SRC = 1) (hin : s.echoIn 0 1 = true) (hother : s.echoIn 1 1 = false) (cause : Nat) :
    ((s.goSync syncSTOP cause).whlOf m).det = false := by
  have hsafe : s.OutFrame (((((s.setFld OBS_SCAUSE OBS_SCAUSE_CAUSE cause).setFld OBS_SCAUSE OBS_SCAUSE_FROM s.syncSt).setFld OBS_SCAUSE
    OBS_SCAUSE_WHEEL s.srcWheel).setReg OBS_SLOSTA s.angW).safeEnd) := .safeEnd (.setReg (.setReg (.setReg (.setReg (.refl s)))))
  have hfollow : ((s.leaveFull cause).whlOf m).det = false := by
    rw [State.leaveFull, (State.OutFrame.abandonAll (.refl _)).whlOf_eq]
    refine State.det_echoFollowLow hm ?_ ((hsafe.echoIn_eq _ _ (by decide)).trans hin)
      ((hsafe.echoIn_eq _ _ (by decide)).trans hother)
    rw [State.fld, hsafe.reg _ (by simp only [whlReg, WHL_CFG]; omega)]
    exact hsrc
  have hafter : (s.leaveFull cause).leavePlaced.OutFrame
      ((((s.leaveFull cause).leavePlaced.setFld OBS_STATE OBS_STATE_SYNC syncSTOP).coastCheck).setPendAll pdSYNC).traceSync :=
    .tracePut (.setPendAll (.coastCheck (.setReg (.refl _))))
  rw [State.goSync_stop hfull, hafter.whlOf_eq, State.det_leavePlaced _ hm, hfollow]

theorem State.det_disableWheel {s : State} {m n : Nat} (hm : m < 6) (hn : m ≠ n) (hsource : s.isSource n = true) :
    ((s.disableWheel n).whlOf m).det = (((s.dropPass n).goSync syncSTOP caDISABLED).whlOf m).det := by
  unfold State.disableWheel
  extract_lets _ s0 s1
  have h1 : s1 = (s0.goSync syncSTOP caDISABLED).withdraw := if_pos hsource
  rw [State.whlOf_setReg, State.setWhlState, State.whlOf_setBit, State.whlOf_updWhl_ne _ _ hn, h1, State.det_withdraw _ hm]

/-! ### The counterexample -/

/-- Wheels 0 and 1 are enabled. Wheel 0 is the source of an observer in FULL, whose FOLLOW echo 0 is high and is the input of wheel 1. -/
def loopedBack : State :=
  { State.reset with
    regs := [(WHL_CTRL, 3), (WHL_ECFG 0, 0x00804003), (WHL_CFG 1, 0x120), (WHL_TEETH 1, 2), (OBS_CFG, 1), (OBS_STATE, 3)]
    whl := vset State.reset.whl 1 { st := .free, det := true }
    echo := vset State.reset.echo 0 { level := true } }

theorem loopedBack_tablesLegal : ((List.range 6).all fun n => !bitOf 2 n || loopedBack.tableLegal n) = true := by decide

theorem loopedBack_detects : (loopedBack.whlOf 1).det = true := by decide

/-- Its source is disabled; the echo falls, and wheel 1 sees it fall. -/
theorem loopedBack_whlWrite_detects : ((loopedBack.whlWrite WHL_CTRL 2).whlOf 1).det = false := by
  have hdisable : loopedBack.whlWrite WHL_CTRL 2 = (loopedBack.setReg WHL_CTRL 2).disableWheel 0 := rfl
  rw [hdisable, State.det_disableWheel (by decide) (by decide) (by decide)]
  exact State.det_goSync_stop (by decide) (by decide) (by decide) (by decide) (by decide) _

end Sys2Proof.Machine

open Sys2Proof.Machine

/-- Refutes O23: where the source wheel is disabled, a FOLLOW echo that is high falls (R93, R163), and a wheel that stays enabled with
that echo as its input sees the fall, though the statement has it unchanged. -/
theorem not_wheelCommands : ¬ Obligations.WheelCommands := by
  intro h
  obtain ⟨-, hwrite, -⟩ := h
  obtain ⟨⟨t, ht, -, -, hsame, -⟩, -⟩ := hwrite 2 loopedBack loopedBack_tablesLegal
  obtain rfl : loopedBack.whlWrite WHL_CTRL 2 = t := Host.Outcome.next.inj ht
  have hwheel := hsame 1 (by decide) (by decide) (by decide)
  have hdet := loopedBack_whlWrite_detects
  rw [hwheel, loopedBack_detects] at hdet
  cases hdet

end

section
/-! PROOFS. What a wheel keeps of its last tooth while the tooth reaches the observer, synchronisation and the echo generators. -/

namespace Sys2Proof.Machine

/-- The registers of block WHL that show the last teeth: WHL_STAT, and WHL_LAST of each wheel. -/
abbrev toothReg (k : Nat) : Prop := k = WHL_STAT ∨ 0x40050120 ≤ k ∧ k < 0x400502A0 ∧ k % 0x40 = 0x20

theorem toothReg_last {n : Nat} (h : n < 6) : toothReg (WHL_LAST n) := by
  simp only [toothReg, WHL_LAST]
  omega

/-- What the wheels keep of their last teeth is in `t` what it is in `s`. -/
structure State.ToothFrame (s t : State) : Prop where
  reg : ∀ k, toothReg k → t.reg k = s.reg k
  delivered : ∀ m, m < 6 → (t.whlOf m).delivered = (s.whlOf m).delivered
  dirPend : ∀ m, m < 6 → (t.whlOf m).dirPend = (s.whlOf m).dirPend

namespace State.ToothFrame

variable {s t u : State}

theorem refl (s : State) : s.ToothFrame s := ⟨fun _ _ => rfl, fun _ _ => rfl, fun _ _ => rfl⟩

theorem trans (h : s.ToothFrame t) (h' : t.ToothFrame u) : s.ToothFrame u :=
  ⟨fun k hk => (h'.reg k hk).trans (h.reg k hk), fun m hm => (h'.delivered m hm).trans (h.delivered m hm),
    fun m hm => (h'.dirPend m hm).trans (h.dirPend m hm)⟩

theorem ite {c : Prop} [Decidable c] (ht : s.ToothFrame t) (hu : s.ToothFrame u) : s.ToothFrame (if c then t else u) := by
  split
  · exact ht
  · exact hu

theorem foldl {α : Type} {f : State → α → State} {l : List α} (h : s.ToothFrame t)
    (hf : ∀ v x, s.ToothFrame v → s.ToothFrame (f v x)) : s.ToothFrame (l.foldl f t) :=
  List.foldlRecOn l f h fun v hv x _ => hf v x hv

/-- Whatever leaves the wheels alone keeps their last teeth. -/
theorem out (h : s.ToothFrame t) (ho : t.OutFrame u) : s.ToothFrame u := by
  refine h.trans ⟨fun k hk => ho.reg k ?_, fun m _ => by rw [ho.whlOf_eq], fun m _ => by rw [ho.whlOf_eq]⟩
  simp only [toothReg, WHL_STAT] at hk
  simp only [whlReg]
  omega

theorem setReg {k : Nat} {v : Word} (h : s.ToothFrame t) (hk : ¬ toothReg k := by decide) : s.ToothFrame (t.setReg k v) :=
  h.trans ⟨fun _ hj => State.reg_setReg_ne _ _ (by rintro rfl; exact hk hj), fun _ _ => rfl, fun _ _ => rfl⟩

theorem raise {evt bit : Nat} (h : s.ToothFrame t) (hk : ¬ toothReg evt := by decide) : s.ToothFrame (t.raise evt bit) :=
  (h.setReg hk).trans ⟨fun _ _ => rfl, fun _ _ => rfl, fun _ _ => rfl⟩

theorem updWhl {n : Nat} {f : Whl → Whl} (h : s.ToothFrame t) (hd : ∀ w, (f w).delivered = w.delivered)
    (hp : ∀ w, (f w).dirPend = w.dirPend) : s.ToothFrame (t.updWhl n f) := by
  have hwhl : ∀ m, m < 6 → (t.updWhl n f).whlOf m = t.whlOf m ∨ (t.updWhl n f).whlOf m = f (t.whlOf m) := fun m hm => by
    by_cases hn : m = n
    · rw [← hn]
      exact .inr (t.whlOf_updWhl_same f hm)
    · exact .inl (t.whlOf_updWhl_ne f hn)
  refine h.trans ⟨fun _ _ => rfl, fun m hm => ?_, fun m hm => ?_⟩
  · rcases hwhl m hm with hw | hw <;> rw [hw]
    exact hd _
  · rcases hwhl m hm with hw | hw <;> rw [hw]
    exact hp _

/-- A change of levels keeps the wheels' last teeth. -/
theorem level (h : s.ToothFrame t) (hl : t.LevelFrame u) : s.ToothFrame u := by
  refine h.trans ⟨fun k hk => hl.reg k ?_, fun m _ => (congrArg Whl.delivered (hl.whl m) :), fun m _ => (congrArg Whl.dirPend (hl.whl m) :)⟩
  simp only [toothReg, WHL_STAT] at hk
  simp only [WHL_EVT]
  omega

/-! #### The observer's prediction (R78, R105) -/

theorem pred_not_toothReg (n : Nat) : ¬ toothReg (WHL_PRED n) := by
  simp only [toothReg, WHL_PRED, WHL_STAT]
  omega

theorem takePrediction {n p : Nat} (h : s.ToothFrame t) : s.ToothFrame (t.takePrediction n p) := by
  unfold State.takePrediction
  exact setReg (.updWhl h (by intro; rfl) (by intro; rfl)) (pred_not_toothReg n)

theorem dropPrediction {n : Nat} (h : s.ToothFrame t) : s.ToothFrame (t.dropPrediction n) := by
  unfold State.dropPrediction
  exact setReg (.updWhl h (by intro; rfl) (by intro; rfl)) (pred_not_toothReg n)

theorem withdraw (h : s.ToothFrame t) : s.ToothFrame t.withdraw := h.dropPrediction.out (.setReg (.updObs (.refl _)))

theorem issue (h : s.ToothFrame t) : s.ToothFrame t.issue := by
  unfold State.issue
  extract_lets n
  split
  split
  · exact h
  · exact h.takePrediction.out (.setReg (.updObs (.refl _)))

/-! #### Teeth of the source and its placement (R104 to R117) -/

theorem takeTooth {x : Nat} (h : s.ToothFrame t) : s.ToothFrame (t.takeTooth x) := by
  unfold State.takeTooth
  extract_lets s1 s2
  have h1 : s.ToothFrame s1 := by
    unfold s1
    split
    · exact h.out (.endInterval (.refl t))
    · exact h.out (.setTooth (.refl t))
  have h2 : s.ToothFrame (s2.toothAt (s2.corrected s2.obs.th0)).steer := h1.out (.steer (.toothAt (.updObs (.refl s1))))
  exact h2.issue.out (.setReg (.newRate (.refl _)))

theorem placeAt {n x : Nat} {p : Tooth} (h : s.ToothFrame t) : s.ToothFrame (t.placeAt n p x) := by
  unfold State.placeAt
  extract_lets
  split
  exact (h.out (.setReg (.updObs (.setTooth (.refl t))))).issue.out (.newRate (.refl _))

theorem changeSource {n : Nat} (h : s.ToothFrame t) : s.ToothFrame (t.changeSource n) :=
  h.withdraw.out (.setTooth (.setReg (.refl _)))

/-! #### The sync state (R138 to R166) -/

theorem leaveFull {cause : Nat} (h : s.ToothFrame t) : s.ToothFrame (t.leaveFull cause) := by
  have hsafe : s.ToothFrame (((((t.setFld OBS_SCAUSE OBS_SCAUSE_CAUSE cause).setFld OBS_SCAUSE OBS_SCAUSE_FROM t.syncSt).setFld OBS_SCAUSE
    OBS_SCAUSE_WHEEL t.srcWheel).setReg OBS_SLOSTA t.angW).safeEnd) := h.out (.safeEnd (.setReg (.setReg (.setReg (.setReg (.refl t))))))
  exact (hsafe.level (.echoFollowLow (.refl _))).out (.abandonAll (.refl _))

theorem leavePlaced (h : s.ToothFrame t) : s.ToothFrame t.leavePlaced :=
  (h.out (.unplace (.updSync (.refl t)))).withdraw.out (.setReg (.setReg (.setReg (.secReset (.refl _)))))

theorem enterSync {old new cause : Nat} (h : s.ToothFrame t) : s.ToothFrame (t.enterSync old new cause) := by
  unfold State.enterSync
  extract_lets s1 s2 s3 s4 s1'
  have h1 : t.OutFrame s1 := .setReg (.raise (.refl t))
  have h4 : t.OutFrame s4.calendarFull := .calendarFull (.abandonAll (.updObs (.updSync h1.setReg)))
  have hfull : s.ToothFrame (s4.calendarFull.echoFollowFrom.trimBoundary 512) :=
    ((h.out h4).level (.echoFollowFrom (.refl _))).out (.trimBoundary (.refl _))
  have hs1' : t.OutFrame s1' := .updSync (.raise (.refl t))
  exact .ite (.ite hfull (h.out h1)) (.ite (h.out (.raise (.refl t))) (.ite (h.out (.updSync (.refl t)))
    (.ite (h.out (.launch (.raise (.setReg (.refl t))))) (.ite (.ite (h.out hs1'.launch) (h.out hs1')) h))))

theorem goSync {new cause : Nat} (h : s.ToothFrame t) : s.ToothFrame (t.goSync new cause) := by
  unfold State.goSync
  extract_lets _ _ s1 s2 s3
  have h1 : s.ToothFrame s1 := .ite h.leaveFull h
  have h2 : s.ToothFrame s2 := .ite h1.leavePlaced h1
  have h3 : s.ToothFrame s3 := h2.setReg
  exact .ite h (h3.enterSync.out (.tracePut (.setPendAll (.coastCheck (.refl _)))))

theorem updSync {f : Sync → Sync} (h : s.ToothFrame t) : s.ToothFrame (t.updSync f) := h.out (.updSync (.refl t))

theorem seek {n : Nat} {x : Option Nat} (h : s.ToothFrame t) : s.ToothFrame (t.seek n x) := by
  unfold State.seek
  extract_lets s1
  have h1 : s.ToothFrame s1 := h.goSync.updSync
  split
  · exact h1.updSync
  · exact h1

theorem place {n i rev x : Nat} (h : s.ToothFrame t) : s.ToothFrame (t.place n i rev x) := h.updSync.placeAt.goSync

theorem hold {teeth : Nat} (h : s.ToothFrame t) : s.ToothFrame (t.hold teeth) := h.goSync.setReg

theorem switchSource (h : s.ToothFrame t) : s.ToothFrame t.switchSource :=
  (h.changeSource.out (.raise (.secReset (.updSync (.refl _))))).hold

theorem failPlaced {cause : Nat} {x : Option Nat} (h : s.ToothFrame t) : s.ToothFrame (t.failPlaced cause x) :=
  .ite h.seek h.goSync

theorem badTooth {skip : Bool} {x : Option Nat} (h : s.ToothFrame t) : s.ToothFrame (t.badTooth skip x) :=
  .ite h.hold (.ite (.ite h.switchSource h.goSync) h.seek)

theorem placedTooth {n x : Nat} (h : s.ToothFrame t) : s.ToothFrame (t.placedTooth n x) := by
  unfold State.placedTooth
  extract_lets _ s1 _ s2 s3 _ s4
  have h1 : s.ToothFrame s1 := .ite (h.out (.newRevolution (.raise (.pasteTooth (.refl t))))) h
  have h2 : s.ToothFrame s2 := h1.takeTooth.out (.newRevolution (.refl _))
  have h3 : s.ToothFrame s3 := .ite h2.setReg h2
  have h4 : s.ToothFrame s4 := .ite h3.setReg h3
  exact .ite h4.failPlaced (.ite h4.badTooth (.ite h4.goSync h4))

theorem seekTooth {n x : Nat} (h : s.ToothFrame t) : s.ToothFrame (t.seekTooth n x) := by
  unfold State.seekTooth
  extract_lets _ s1
  have h1 : s.ToothFrame s1 := h.updSync
  refine .ite (.ite h.place h) ?_
  split
  · exact h1.place
  · exact h1

theorem sourceTooth {n x : Nat} {rev : Bool} (h : s.ToothFrame t) : s.ToothFrame (t.sourceTooth n x rev) := by
  unfold State.sourceTooth
  extract_lets _ s1 _ s2
  have h1 : s.ToothFrame s1 := h.updSync
  have h2 : s.ToothFrame s2 := h1.updSync
  exact .ite (.ite h1.updSync (.ite h2.seek h2)) (.ite h1.goSync (.ite (.ite h1.seek h1.raise) (.ite (.ite h1.seek h1)
    (.ite h1.seekTooth h1.placedTooth))))

theorem sourceEarly (h : s.ToothFrame t) : s.ToothFrame t.sourceEarly := by
  have h1 : s.ToothFrame (t.count OBS_SCNT OBS_SCNT_EARLYREV 1) := h.setReg
  exact .ite (.ite h1.failPlaced h1) h

/-! #### The tooth log and early edges (R78, R88) -/

theorem cnt_not_toothReg (n : Nat) : ¬ toothReg (WHL_CNT n) := by
  simp only [toothReg, WHL_CNT, WHL_STAT]
  omega

theorem logTooth {n kind x : Nat} {rev : Bool} {ref pred : Option Nat} {slotIx : Nat} (h : s.ToothFrame t) :
    s.ToothFrame (t.logTooth n kind x rev ref pred slotIx) := by
  unfold State.logTooth
  extract_lets _ _ e r
  have hr : s.ToothFrame r.1 := h.out (.qputFor (.ite (.useFree (.refl t)) (.refl t)) (t.binding_lt 1))
  exact .ite (.ite hr (hr.setReg (cnt_not_toothReg n))) h

theorem spoilPass {n : Nat} (h : s.ToothFrame t) : s.ToothFrame (t.spoilPass n) := by
  unfold State.spoilPass State.updLearn
  exact h.out (.updObs (.refl t))

theorem earlyEdge {n : Nat} {e : Edge} (h : s.ToothFrame t) : s.ToothFrame (t.earlyEdge n e) := by
  unfold State.earlyEdge
  extract_lets _ s1
  have hcounted : s.ToothFrame ((t.count (WHL_CNT n) WHL_CNT_EARLY 1).raise WHL_EVT (WHL_EVT_EARLY n)) :=
    .raise (h.setReg (cnt_not_toothReg n))
  have h1 : s.ToothFrame s1 := hcounted.logTooth.spoilPass
  exact .ite h1.sourceEarly h1

end State.ToothFrame

end Sys2Proof.Machine

end

section
/-! PROOFS. Wheel edges: half-waves, thresholds, the filter, direction pulses (R62 to R65, R67, R71, R73, R78). -/

namespace Sys2Proof.Machine

/-! ### A half-wave of a VR input (R62 to R64) -/

/-- Wheel `n` has seen the peak of a half-wave, and no more than that, its crossing and AMP. -/
structure State.HalfWaveSeen (s : State) (n : Fin 6) (pos : Bool) (peak : Nat) (t : State) : Prop where
  eq : t = { s with regs := t.regs, whl := t.whl, inflight := t.inflight }
  pk : t.fld (WHL_PK n) (if pos then WHL_PK_PPK else WHL_PK_NPK) = min 511 peak
  peak : (if pos then (t.whlOf n).peakP else (t.whlOf n).peakN) = peak
  others : ∀ m : Fin 6, m ≠ n → t.whlOf m = s.whlOf m
  reg : ∀ k, k ≠ WHL_PK n → k ≠ WHL_EVT → t.reg k = s.reg k

/-- The peak of a half-wave is remembered. -/
def State.peakNoted (s : State) (n : Nat) (pos : Bool) (peak : Nat) : State :=
  (s.updWhl n fun h => if pos then { h with peakP := peak } else { h with peakN := peak }).setFld (WHL_PK n)
    (if pos then WHL_PK_PPK else WHL_PK_NPK) (capAt 511 peak)

theorem State.reg_peakNoted_ne (s : State) (n : Nat) (pos : Bool) (peak : Nat) {k : Nat} (h : k ≠ WHL_PK n) :
    (s.peakNoted n pos peak).reg k = s.reg k :=
  State.reg_setFld_ne _ _ _ h

theorem State.whlOf_peakNoted (s : State) {n : Nat} (pos : Bool) (peak : Nat) (h : n < 6) :
    (s.peakNoted n pos peak).whlOf n = if pos then { s.whlOf n with peakP := peak } else { s.whlOf n with peakN := peak } := by
  rw [State.peakNoted, State.whlOf_setFld, s.whlOf_updWhl_same _ h]

theorem State.whlOf_peakNoted_ne (s : State) {n m : Nat} (pos : Bool) (peak : Nat) (h : m ≠ n) :
    (s.peakNoted n pos peak).whlOf m = s.whlOf m := by
  rw [State.peakNoted, State.whlOf_setFld, s.whlOf_updWhl_ne _ h]

theorem State.det_peakNoted (s : State) {n : Nat} (pos : Bool) (peak : Nat) (h : n < 6) :
    ((s.peakNoted n pos peak).whlOf n).det = (s.whlOf n).det := by
  rw [s.whlOf_peakNoted pos peak h]
  split <;> rfl

namespace State.HalfWaveSeen

variable {s t : State} {n : Fin 6} {pos : Bool} {peak : Nat}

theorem peakNoted (s : State) (n : Fin 6) (pos : Bool) (peak : Nat) : s.HalfWaveSeen n pos peak (s.peakNoted n pos peak) := by
  refine ⟨rfl, ?_, ?_, fun m hm => s.whlOf_peakNoted_ne pos peak (fun h => hm (Fin.ext h)), fun k hk _ => s.reg_peakNoted_ne n pos peak hk⟩
  · have hpeak : capAt 511 peak < 512 := by
      rw [capAt_eq_min]
      omega
    rw [← capAt_eq_min]
    cases pos <;> exact (State.fld_setFld_same _ _ _ _ (by decide)).trans (Nat.mod_eq_of_lt hpeak)
  · rw [s.whlOf_peakNoted pos peak n.isLt]
    cases pos <;> rfl

theorem raise {bit : Nat} (h : s.HalfWaveSeen n pos peak t) : s.HalfWaveSeen n pos peak (t.raise WHL_EVT bit) := by
  have hpk : WHL_PK n ≠ WHL_EVT := by
    simp only [WHL_PK, WHL_EVT]
    omega
  refine ⟨Eq.trans rfl (by rw [h.eq]; rfl), ?_, h.peak, h.others, fun k hk he => (State.reg_raise_ne _ _ he).trans (h.reg k hk he)⟩
  rw [State.fld, State.reg_raise_ne _ _ hpk]
  exact h.pk

theorem updWhl {f : Whl → Whl} (h : s.HalfWaveSeen n pos peak t) (hp : ∀ w, (f w).peakP = w.peakP)
    (hn : ∀ w, (f w).peakN = w.peakN) : s.HalfWaveSeen n pos peak (t.updWhl n f) := by
  refine ⟨Eq.trans rfl (by rw [h.eq]; rfl), h.pk, ?_, fun m hm => ?_, h.reg⟩
  · rw [t.whlOf_updWhl_same f n.isLt, hp, hn]
    exact h.peak
  · rw [t.whlOf_updWhl_ne f (fun he => hm (Fin.ext he))]
    exact h.others m hm

end State.HalfWaveSeen

/-- The half-wave arms: its peak has the floor and the fraction of the one before, and EDGE selects its crossing. -/
def State.vrArms (s : State) (n : Nat) (pos : Bool) (peak : Nat) : Bool :=
  decide (s.fld (WHL_VR n) WHL_VR_FLOOR ≤ peak)
    && decide (s.fld (WHL_VR n) WHL_VR_FRAC * (if pos then (s.whlOf n).peakP else (s.whlOf n).peakN) ≤ 16 * peak)
    && (if pos then s.fld (WHL_CFG n) WHL_CFG_EDGE == 2 || s.fld (WHL_CFG n) WHL_CFG_EDGE == 3
      else s.fld (WHL_CFG n) WHL_CFG_EDGE == 1 || s.fld (WHL_CFG n) WHL_CFG_EDGE == 3)

/-- AMP where the peak of an arming half-wave is below twice FLOOR. -/
def State.ampChecked (s : State) (n : Nat) (peak : Nat) (t : State) : State :=
  if peak < 2 * s.fld (WHL_VR n) WHL_VR_FLOOR then t.raise WHL_EVT (WHL_EVT_AMP n) else t

/-- What the crossing of an arming half-wave makes of its wheel: with both edges a level, otherwise a level and an edge. -/
def State.crossed (s : State) (n : Nat) (pos : Bool) (h : Whl) : Whl :=
  if s.fld (WHL_CFG n) WHL_CFG_EDGE = 3 then (if h.det = !pos then h else { h with det := !pos, detAt := s.now, detAng := s.angW })
  else { h with det := !pos, detAt := s.now, detAng := s.angW, vrEdge := true }

theorem State.det_crossed (s : State) (n : Nat) (pos : Bool) (h : Whl) : (s.crossed n pos h).det = !pos := by
  unfold State.crossed
  split
  · split
    · assumption
    · rfl
  · rfl

theorem State.crossed_of_turning (s : State) (n : Nat) {pos : Bool} {h : Whl} (hdet : h.det = pos) :
    (s.crossed n pos h).detAt = s.now ∧ (s.crossed n pos h).detAng = s.angW := by
  have hturns : h.det ≠ !pos := by
    rw [hdet]
    cases pos <;> decide
  rw [State.crossed, if_neg hturns]
  split <;> exact ⟨rfl, rfl⟩

theorem State.peaks_crossed (s : State) (n : Nat) (pos : Bool) (h : Whl) :
    (s.crossed n pos h).peakP = h.peakP ∧ (s.crossed n pos h).peakN = h.peakN := by
  unfold State.crossed
  split
  · split <;> exact ⟨rfl, rfl⟩
  · exact ⟨rfl, rfl⟩

theorem exec_vrHalfWave {s : State} {n : Fin 6} (pos : Bool) (peak : Nat) (hmode : s.fld (WHL_CFG n) WHL_CFG_MODE = 0)
    (hsrc : s.fld (WHL_CFG n) WHL_CFG_SRC = 0) :
    exec (.vrHalfWave n pos peak) s = .next (if s.vrArms n pos peak
      then (s.ampChecked n peak (s.peakNoted n pos peak)).updWhl n (s.crossed n pos) else s.peakNoted n pos peak) := by
  have hexec : exec (.vrHalfWave n pos peak) s = if !s.vrArms n pos peak then .next (s.peakNoted n pos peak)
      else if s.fld (WHL_CFG n) WHL_CFG_EDGE = 3 then .next ((s.ampChecked n peak (s.peakNoted n pos peak)).detect n (!pos))
      else .next ((s.ampChecked n peak (s.peakNoted n pos peak)).updWhl n fun h =>
        { h with det := !pos, detAt := s.now, detAng := s.angW, vrEdge := true }) :=
    if_neg (by rw [hmode, hsrc]; decide)
  have hclock : (s.ampChecked n peak (s.peakNoted n pos peak)).now = s.now
      ∧ (s.ampChecked n peak (s.peakNoted n pos peak)).angW = s.angW := by
    unfold State.ampChecked
    split <;> exact ⟨rfl, rfl⟩
  rw [hexec]
  cases s.vrArms n pos peak with
  | false => rfl
  | true =>
    by_cases hedge : s.fld (WHL_CFG n) WHL_CFG_EDGE = 3
    · have hcross : s.crossed n pos = fun h => if h.det = !pos then h else { h with det := !pos, detAt := s.now, detAng := s.angW } := by
        funext h
        exact if_pos hedge
      rw [hcross, State.detect, hclock.1, hclock.2]
      simp [hedge]
    · have hcross : s.crossed n pos = fun h => { h with det := !pos, detAt := s.now, detAng := s.angW, vrEdge := true } := by
        funext h
        exact if_neg hedge
      rw [hcross]
      simp [hedge]

theorem State.halfWaveSeen_ampChecked {s t : State} {n : Fin 6} {pos : Bool} {peak : Nat} (h : s.HalfWaveSeen n pos peak t) :
    s.HalfWaveSeen n pos peak (s.ampChecked n peak t) := by
  unfold State.ampChecked
  split
  · exact h.raise
  · exact h

theorem State.whlOf_ampChecked (s : State) (n peak : Nat) (t : State) (m : Nat) : (s.ampChecked n peak t).whlOf m = t.whlOf m := by
  unfold State.ampChecked
  split <;> rfl

/-- R62 to R64: a half-wave of a VR input. -/
theorem execVrHalfWave_seen {s : State} {n : Fin 6} (pos : Bool) (peak : Nat) (hmode : s.fld (WHL_CFG n) WHL_CFG_MODE = 0)
    (hsrc : s.fld (WHL_CFG n) WHL_CFG_SRC = 0) :
    ∃ t, exec (.vrHalfWave n pos peak) s = .next t ∧ s.HalfWaveSeen n pos peak t
      ∧ (s.vrArms n pos peak = false → t = s.peakNoted n pos peak)
      ∧ (s.vrArms n pos peak = true → (t.whlOf n).det = !pos
          ∧ ((s.whlOf n).det = pos → (t.whlOf n).detAt = s.now ∧ (t.whlOf n).detAng = s.angW)
          ∧ (peak < 2 * s.fld (WHL_VR n) WHL_VR_FLOOR → t.bit WHL_EVT (WHL_EVT_AMP n) = true
              ∧ t.inflight = s.inflight ++ [evtItem WHL_EVT (WHL_EVT_AMP n)])) := by
  have hnoted := State.HalfWaveSeen.peakNoted s n pos peak
  refine ⟨_, exec_vrHalfWave pos peak hmode hsrc, ?_, fun harms => if_neg (by rw [harms]; decide), fun harms => ?_⟩
  · split
    · exact (State.halfWaveSeen_ampChecked hnoted).updWhl (fun w => (s.peaks_crossed n pos w).1) fun w => (s.peaks_crossed n pos w).2
    · exact hnoted
  · rw [if_pos harms]
    have hwhl : ((s.ampChecked n peak (s.peakNoted n pos peak)).updWhl n (s.crossed n pos)).whlOf n
        = s.crossed n pos ((s.peakNoted n pos peak).whlOf n) := by
      rw [State.whlOf_updWhl_same _ _ n.isLt, State.whlOf_ampChecked]
    rw [hwhl]
    refine ⟨s.det_crossed n pos _, fun hdet => ?_, fun hamp => ?_⟩
    · exact s.crossed_of_turning n ((s.det_peakNoted pos peak n.isLt).trans hdet)
    · have hchecked : s.ampChecked n peak (s.peakNoted n pos peak) = (s.peakNoted n pos peak).raise WHL_EVT (WHL_EVT_AMP n) :=
        if_pos hamp
      rw [hchecked]
      have hbit : WHL_EVT_AMP n < 32 := by
        simp only [WHL_EVT_AMP]
        omega
      refine ⟨?_, rfl⟩
      rw [State.bit, State.reg_updWhl, ← State.bit, State.bit_raise _ _ hbit]

/-- A peak below the floor or the fraction does not arm. -/
theorem State.vrArms_of_low {s : State} {n : Nat} {pos : Bool} {peak : Nat}
    (h : peak < s.fld (WHL_VR n) WHL_VR_FLOOR
      ∨ 16 * peak < s.fld (WHL_VR n) WHL_VR_FRAC * (if pos then (s.whlOf n).peakP else (s.whlOf n).peakN)) :
    s.vrArms n pos peak = false := by
  unfold State.vrArms
  rcases h with h | h
  · rw [decide_eq_false (Nat.not_le.mpr h)]
    rfl
  · rw [decide_eq_false (p := _ ≤ 16 * peak) (Nat.not_le.mpr h), Bool.and_false]
    rfl

theorem State.vrArms_of_high {s : State} {n : Nat} {pos : Bool} {peak : Nat}
    (hedge : s.fld (WHL_CFG n) WHL_CFG_EDGE = 3 ∨ s.fld (WHL_CFG n) WHL_CFG_EDGE = (if pos then 2 else 1))
    (hfloor : s.fld (WHL_VR n) WHL_VR_FLOOR ≤ peak)
    (hfrac : s.fld (WHL_VR n) WHL_VR_FRAC * (if pos then (s.whlOf n).peakP else (s.whlOf n).peakN) ≤ 16 * peak) :
    s.vrArms n pos peak = true := by
  unfold State.vrArms
  rw [decide_eq_true hfloor, decide_eq_true hfrac]
  rcases hedge with he | he <;> rw [he] <;> cases pos <;> rfl

/-! ### A Hall input (R65) -/

theorem exec_hallThresholdCrossing {s : State} {n : Fin 6} (up : Bool) (hmode : s.fld (WHL_CFG n) WHL_CFG_MODE = 1)
    (hsrc : s.fld (WHL_CFG n) WHL_CFG_SRC = 0) : exec (.hallThresholdCrossing n up) s = .next (s.detect n up) :=
  congrArg Host.Outcome.next (if_pos ⟨hmode, hsrc⟩)

theorem exec_hallThresholdCrossing_other {s : State} {n : Fin 6} (up : Bool)
    (h : s.fld (WHL_CFG n) WHL_CFG_MODE ≠ 1 ∨ s.fld (WHL_CFG n) WHL_CFG_SRC ≠ 0) :
    exec (.hallThresholdCrossing n up) s = .next s :=
  congrArg Host.Outcome.next (if_neg (not_and_or.mpr h))

/-! ### The filter (R67) -/

/-- The edge that the filter passes. -/
def State.filteredEdge (s : State) (n : Nat) : Edge :=
  { stamp := (s.whlOf n).detAt, angle := (s.whlOf n).detAng, level := (s.whlOf n).det }

/-- The detected level of wheel `n` is the filtered one. -/
def State.levelFiltered (s : State) (n : Nat) : State :=
  (s.setBit WHL_STAT n (s.whlOf n).det).updWhl n fun h => { h with vrEdge := false }

theorem State.whlOf_levelFiltered (s : State) {n : Nat} (h : n < 6) :
    (s.levelFiltered n).whlOf n = { s.whlOf n with vrEdge := false } := by
  rw [State.levelFiltered, State.whlOf_updWhl_same _ _ h, State.whlOf_setBit]

theorem State.bit_levelFiltered (s : State) {n : Nat} (h : n < 6) : (s.levelFiltered n).bit WHL_STAT n = (s.whlOf n).det := by
  rw [State.levelFiltered, State.bit, State.reg_updWhl, ← State.bit, State.bit_setBit_same _ _ _ _ (by omega)]

theorem State.reg_levelFiltered_ne (s : State) (n : Nat) {k : Nat} (h : k ≠ WHL_STAT) : (s.levelFiltered n).reg k = s.reg k := by
  rw [State.levelFiltered, State.reg_updWhl, State.reg_setBit_ne _ _ _ h]

theorem State.onlyRegs_levelFiltered (s : State) (n : Nat) : s.onlyRegs { s.levelFiltered n with whl := s.whl } [WHL_STAT] :=
  ⟨rfl, fun _ hk => s.reg_levelFiltered_ne n (by simpa using hk)⟩

theorem exec_edgeFilterPass_early {s : State} {n : Fin 6} (h : s.filterPasses n = false) :
    exec (.edgeFilterPass n) s = .next s := if_pos (by rw [h]; rfl)

theorem exec_edgeFilterPass_selected {s : State} {n : Fin 6} (h : s.filterPasses n = true)
    (hsel : edgeSelected (s.fld (WHL_CFG n) WHL_CFG_EDGE) (s.whlOf n).det = true) :
    exec (.edgeFilterPass n) s = .next ((s.levelFiltered n).selectedEdge n (s.filteredEdge n)) := by
  change execEdgeFilterPass n s = _
  rw [execEdgeFilterPass, h]
  dsimp only
  rw [hsel]
  rfl

theorem exec_edgeFilterPass_opposite {s : State} {n : Fin 6} (h : s.filterPasses n = true)
    (hsel : edgeSelected (s.fld (WHL_CFG n) WHL_CFG_EDGE) (s.whlOf n).det = false) (hdir : (s.whlOf n).dirPend = none) :
    exec (.edgeFilterPass n) s = .next (s.levelFiltered n) := by
  change execEdgeFilterPass n s = _
  rw [execEdgeFilterPass, h]
  dsimp only
  rw [hsel, hdir]
  rfl

/-! ### An edge that EDGE selects (R71, R78) -/

theorem State.selectedEdge_disabled {s : State} {n : Nat} {e : Edge} (h : (s.whlOf n).st = .disabled) : s.selectedEdge n e = s := by
  rw [State.selectedEdge]
  exact if_pos h

/-- An overrun. -/
theorem State.selectedEdge_soon {s : State} {n a : Nat} {e : Edge} (h : (s.whlOf n).st ≠ .disabled)
    (ha : (s.whlOf n).lastAcc = some a) (hsoon : e.stamp < a + 256) :
    s.selectedEdge n e = ((s.count (WHL_CNT n) WHL_CNT_OVR 1).raise WHL_EVT (WHL_EVT_OVR n)).spoilPass n := by
  rw [State.selectedEdge, if_neg h, ha]
  exact if_pos (decide_eq_true (by omega))

/-- An accepted edge. -/
theorem State.selectedEdge_accepted {s : State} {n : Nat} {e : Edge} (h : (s.whlOf n).st ≠ .disabled)
    (hlate : ¬ ∃ a, (s.whlOf n).lastAcc = some a ∧ e.stamp < a + 256) :
    s.selectedEdge n e = ((s.updWhl n fun h => { h with lastAcc := some e.stamp }).echoRaw n).classEdge n e := by
  rw [State.selectedEdge, if_neg h]
  cases ha : (s.whlOf n).lastAcc with
  | none => rfl
  | some a =>
    have hafter : ¬ e.stamp - a < 256 := fun hlt => hlate ⟨a, ha, by omega⟩
    exact if_neg (by simpa using hafter)

/-- The edge waits: for its opposite edge with DIREN, otherwise for its delivery. -/
def State.edgeKept (s : State) (n : Nat) (e : Edge) : State :=
  if s.fld (WHL_CFG n) WHL_CFG_DIREN = 1 then s.updWhl n fun h => { h with dirPend := some e }
  else s.updWhl n fun h => { h with await := some e }

theorem State.reg_edgeKept (s : State) (n : Nat) (e : Edge) (k : Nat) : (s.edgeKept n e).reg k = s.reg k := by
  unfold State.edgeKept
  split <;> rfl

theorem State.whlOf_edgeKept (s : State) {n : Nat} (e : Edge) (h : n < 6) :
    (s.edgeKept n e).whlOf n = if s.fld (WHL_CFG n) WHL_CFG_DIREN = 1 then { s.whlOf n with dirPend := some e }
      else { s.whlOf n with await := some e } := by
  unfold State.edgeKept
  split
  · exact s.whlOf_updWhl_same _ h
  · exact s.whlOf_updWhl_same _ h

/-- The state table of R78: an edge is kept, EARLY, or beyond a window that has not been closed yet. -/
theorem State.classEdge_cases (s : State) (n : Nat) (e : Edge) :
    s.classEdge n e = s.edgeKept n e ∨ s.classEdge n e = s.earlyEdge n e ∨ s.classEdge n e = s := by
  unfold State.classEdge
  extract_lets _ keep
  split
  · split
    · split
      · exact .inr (.inl rfl)
      · split
        · exact .inr (.inr rfl)
        · exact .inl rfl
    · exact .inl rfl
  · exact .inl rfl

theorem State.classEdge_of_free {s : State} {n : Nat} {e : Edge} (h : (s.whlOf n).st = .free) :
    s.classEdge n e = s.edgeKept n e := by
  rw [State.classEdge]
  exact if_neg (by rw [h]; simp)

/-- No edge changes what the levels and the last teeth show in WHL_STAT. -/
theorem State.reg_STAT_selectedEdge (s : State) (n : Nat) (e : Edge) : (s.selectedEdge n e).reg WHL_STAT = s.reg WHL_STAT := by
  have hstat : toothReg WHL_STAT := .inl rfl
  have hcnt : s.ToothFrame (((s.count (WHL_CNT n) WHL_CNT_OVR 1).raise WHL_EVT (WHL_EVT_OVR n)).spoilPass n) :=
    .spoilPass (.raise (.setReg (.refl s) (State.ToothFrame.cnt_not_toothReg n)))
  have hclass : ∀ u : State, (u.classEdge n e).reg WHL_STAT = u.reg WHL_STAT := fun u => by
    rcases u.classEdge_cases n e with h | h | h <;> rw [h]
    · exact u.reg_edgeKept n e _
    · exact (State.ToothFrame.earlyEdge (.refl u)).reg _ hstat
  by_cases hst : (s.whlOf n).st = .disabled
  · rw [State.selectedEdge_disabled hst]
  · by_cases hsoon : ∃ a, (s.whlOf n).lastAcc = some a ∧ e.stamp < a + 256
    · obtain ⟨a, ha, hlt⟩ := hsoon
      rw [State.selectedEdge_soon hst ha hlt]
      exact hcnt.reg _ hstat
    · rw [State.selectedEdge_accepted hst hsoon, hclass]
      exact (State.LevelFrame.echoRaw (.refl _)).reg _ (by decide)

/-- An edge accepted on a free wheel. -/
theorem State.whlOf_selectedEdge_free {s : State} {n : Nat} {e : Edge} (hn : n < 6) (h : (s.whlOf n).st = .free)
    (hlate : ¬ ∃ a, (s.whlOf n).lastAcc = some a ∧ e.stamp < a + 256) :
    ((s.selectedEdge n e).whlOf n).lastAcc = some e.stamp
      ∧ (if s.fld (WHL_CFG n) WHL_CFG_DIREN = 1 then ((s.selectedEdge n e).whlOf n).dirPend
          else ((s.selectedEdge n e).whlOf n).await) = some e := by
  let s1 := s.updWhl n fun h => { h with lastAcc := some e.stamp }
  have hs1 : s1.whlOf n = { s.whlOf n with lastAcc := some e.stamp } := s.whlOf_updWhl_same _ hn
  have hraw : s1.LevelFrame (s1.echoRaw n) := .echoRaw (.refl s1)
  have hst : ((s1.echoRaw n).whlOf n).st = .free :=
    (congrArg Whl.st (hraw.whl n) :).trans ((congrArg Whl.st hs1 :).trans h)
  have hacc : ((s1.echoRaw n).whlOf n).lastAcc = some e.stamp :=
    (congrArg Whl.lastAcc (hraw.whl n) :).trans (congrArg Whl.lastAcc hs1 :)
  have hcfg : (s1.echoRaw n).fld (WHL_CFG n) WHL_CFG_DIREN = s.fld (WHL_CFG n) WHL_CFG_DIREN :=
    congrArg WHL_CFG_DIREN.get (hraw.reg _ (by simp only [WHL_CFG, WHL_EVT]; omega))
  rw [State.selectedEdge_accepted (by rw [h]; decide) hlate, State.classEdge_of_free hst, State.whlOf_edgeKept _ _ hn, hcfg]
  split
  · exact ⟨hacc, rfl⟩
  · exact ⟨hacc, rfl⟩

theorem State.whlOf_spoilPass (s : State) (n m : Nat) : (s.spoilPass n).whlOf m = s.whlOf m := rfl

theorem State.reg_spoilPass (s : State) (n k : Nat) : (s.spoilPass n).reg k = s.reg k := rfl

/-- An overrun leaves the wheel's edges alone, and is counted. -/
theorem State.overrun_shown {s : State} {n : Nat} {e : Edge} (hn : n < 6) (h : (s.whlOf n).st ≠ .disabled)
    (hsoon : ∃ a, (s.whlOf n).lastAcc = some a ∧ e.stamp < a + 256) :
    (s.selectedEdge n e).whlOf n = s.whlOf n
      ∧ (s.selectedEdge n e).fld (WHL_CNT n) WHL_CNT_OVR = min 255 (s.fld (WHL_CNT n) WHL_CNT_OVR + 1)
      ∧ (s.selectedEdge n e).bit WHL_EVT (WHL_EVT_OVR n) = true := by
  obtain ⟨a, ha, hlt⟩ := hsoon
  have hne : WHL_CNT n ≠ WHL_EVT := by
    simp only [WHL_CNT, WHL_EVT]
    omega
  have hbit : WHL_EVT_OVR n < 32 := by
    simp only [WHL_EVT_OVR]
    omega
  rw [State.selectedEdge_soon h ha hlt]
  refine ⟨?_, ?_, ?_⟩
  · rw [State.whlOf_spoilPass, State.whlOf_raise, State.count, State.whlOf_setFld]
  · rw [State.fld, State.reg_spoilPass, State.reg_raise_ne _ _ hne, ← State.fld]
    exact s.fld_count _ _ _ (by decide)
  · rw [State.bit, State.reg_spoilPass, ← State.bit, State.bit_raise _ _ hbit]

/-! ### The end of a direction pulse (R73, R78) -/

theorem State.whlOf_setWhlState_same (s : State) {n : Nat} (f : Whl → Whl) (h : n < 6) :
    (s.setWhlState n f).whlOf n = f (s.whlOf n) := by
  rw [State.setWhlState, State.whlOf_setBit, s.whlOf_updWhl_same f h]

/-- A delivery counts the stamp and leaves nothing that waits for its opposite edge. -/
theorem State.whlOf_wheelTakes (s : State) {n : Nat} (e : Edge) (h : n < 6) :
    ((s.wheelTakes n e).whlOf n).delivered = (s.whlOf n).delivered + 1 ∧ ((s.wheelTakes n e).whlOf n).dirPend = none := by
  unfold State.wheelTakes
  extract_lets _ period speedP s1 s2 s3
  have h1 : (s1.whlOf n).delivered = (s.whlOf n).delivered + 1 ∧ (s1.whlOf n).dirPend = none := by
    unfold s1
    rw [s.whlOf_setWhlState_same _ h]
    exact ⟨rfl, rfl⟩
  have h2 : s2.whlOf n = s1.whlOf n := by
    unfold s2
    split
    · rw [State.whlOf_setReg]
    · rfl
  have h3 : s3.whlOf n = s2.whlOf n := by
    unfold s3
    split
    · rw [State.whlOf_setReg]
    · rfl
  rw [State.whlOf_setBit, State.whlOf_setReg, h3, h2]
  exact h1

theorem State.stamp_wheelTakes (s : State) {n : Nat} (e : Edge) (h : n < 6) :
    (s.wheelTakes n e).reg (WHL_LAST n) = s.slotAt e.stamp ∧ (s.wheelTakes n e).bit WHL_STAT (16 + n) = e.rev := by
  have hne : WHL_LAST n ≠ WHL_STAT := by
    simp only [WHL_LAST, WHL_STAT]
    omega
  unfold State.wheelTakes
  extract_lets _ _ _ s1 s2 s3
  refine ⟨?_, State.bit_setBit_same _ _ _ _ (by omega)⟩
  rw [State.reg_setBit_ne _ _ _ hne, State.reg_setReg_same]

/-- What comes after the wheel's own part of a delivery keeps that part. -/
theorem State.deliver_frame (s : State) (n : Nat) (e : Edge) : (s.wheelTakes n e).ToothFrame (s.deliver n e) := by
  unfold State.deliver
  extract_lets _ s1 s2
  have h1 : (s.wheelTakes n e).ToothFrame s1 := .out (.refl _) (.hwEvent (.refl _))
  have hsource : (s.wheelTakes n e).ToothFrame ((s1.setPendAll pdTOOTH).sourceTooth n e.stamp e.rev) :=
    (h1.out (.setPendAll (.refl s1))).sourceTooth
  have h2 : (s.wheelTakes n e).ToothFrame s2 := .ite hsource (.ite (h1.out (.secDeliver (.refl s1))) (.ite h1.updSync h1))
  exact h2.logTooth

/-- What a delivery leaves of the wheel's last tooth. -/
theorem State.deliver_sets (s : State) {n : Nat} (e : Edge) (h : n < 6) :
    ((s.deliver n e).whlOf n).dirPend = none ∧ (s.deliver n e).bit WHL_STAT (16 + n) = e.rev
      ∧ ((s.deliver n e).whlOf n).delivered = (s.whlOf n).delivered + 1
      ∧ (s.deliver n e).reg (WHL_LAST n) = s.slotAt e.stamp := by
  have hframe := s.deliver_frame n e
  obtain ⟨hdelivered, hdir⟩ := s.whlOf_wheelTakes e h
  obtain ⟨hlast, hrev⟩ := s.stamp_wheelTakes e h
  refine ⟨(hframe.dirPend n h).trans hdir, ?_, (hframe.delivered n h).trans hdelivered,
    (hframe.reg _ (toothReg_last h)).trans hlast⟩
  rw [State.bit, hframe.reg _ (.inl rfl)]
  exact hrev

/-- The wheel as the opposite edge ends its pulse: the level is filtered and nothing waits. -/
def State.pulseEnded (s : State) (n : Nat) : State :=
  (s.setBit WHL_STAT n (s.whlOf n).det).updWhl n fun h => { h with dirPend := none }

/-- The edge that waited, with the direction that the width of its pulse gives. -/
def State.taggedEdge (s : State) (n : Nat) (e : Edge) : Edge :=
  { e with rev := decide (16 * s.fld (WHL_DIR n) WHL_DIR_THR ≤ (s.whlOf n).detAt - e.stamp) }

theorem exec_directionPulseEnd_early {s : State} {n : Fin 6}
    (h : s.filterPasses n = false ∨ edgeSelected (s.fld (WHL_CFG n) WHL_CFG_EDGE) (s.whlOf n).det = true) :
    exec (.directionPulseEnd n) s = .next s := by
  have hcond : (!s.filterPasses n || edgeSelected (s.fld (WHL_CFG n) WHL_CFG_EDGE) (s.whlOf n).det) = true := by
    rcases h with h | h
    · rw [h]
      rfl
    · rw [h, Bool.or_true]
  change execDirectionPulseEnd n s = _
  rw [execDirectionPulseEnd]
  dsimp only
  split
  · rfl
  · exact if_pos hcond

theorem exec_directionPulseEnd {s : State} {n : Fin 6} {e : Edge} (he : (s.whlOf n).dirPend = some e) (h : s.filterPasses n = true)
    (hsel : edgeSelected (s.fld (WHL_CFG n) WHL_CFG_EDGE) (s.whlOf n).det = false) :
    exec (.directionPulseEnd n) s = .next ((s.pulseEnded n).deliver n (s.taggedEdge n e)) := by
  change execDirectionPulseEnd n s = _
  rw [execDirectionPulseEnd]
  dsimp only
  rw [he, h, hsel]
  rfl

theorem State.delivered_pulseEnded (s : State) {n : Nat} (h : n < 6) :
    ((s.pulseEnded n).whlOf n).delivered = (s.whlOf n).delivered :=
  (congrArg Whl.delivered (State.whlOf_updWhl_same _ _ h) :)

end Sys2Proof.Machine

open Sys2Proof.Machine

/-- Settles O22: what an edge does at the input, past the filter, and once its direction is known. -/
theorem wheelEdges : Obligations.WheelEdges := by
  refine ⟨fun n pos peak s => ⟨fun hother => if_pos hother, fun hmode hsrc => ?_⟩,
    fun n up s => ⟨exec_hallThresholdCrossing_other up, fun hmode hsrc => ?_⟩, fun n s => ?_,
    fun n e s he => ⟨exec_directionPulseEnd_early, fun hpass hsel => ?_⟩⟩
  case refine_1 =>
    obtain ⟨t, hexec, hseen, hlow, harmed⟩ := execVrHalfWave_seen pos peak hmode hsrc
    refine ⟨t, hexec, hseen.eq, hseen.pk, hseen.peak, hseen.others, hseen.reg, fun hpeak => ?_,
      fun hedge hfloor hfrac => harmed (State.vrArms_of_high hedge hfloor hfrac)⟩
    rw [hlow (State.vrArms_of_low hpeak), s.det_peakNoted pos peak n.isLt, s.reg_peakNoted_ne n pos peak
      (by simp only [WHL_PK, WHL_EVT]; omega)]
    exact ⟨rfl, rfl, rfl⟩
  case refine_2 =>
    exact ⟨s.detect n up, exec_hallThresholdCrossing up hmode hsrc, rfl, s.whlOf_detect_same up n.isLt,
      fun m hm => s.whlOf_detect_ne up fun h => hm (Fin.ext h)⟩
  case refine_3 =>
    intro sel soon
    have hwhl := s.whlOf_levelFiltered n.isLt
    have hst : ((s.levelFiltered n).whlOf n).st = (s.whlOf n).st := (congrArg Whl.st hwhl :)
    have hacc : ((s.levelFiltered n).whlOf n).lastAcc = (s.whlOf n).lastAcc := (congrArg Whl.lastAcc hwhl :)
    have hfld : ∀ k f, k ≠ WHL_STAT → (s.levelFiltered n).fld k f = s.fld k f := fun k f hk =>
      congrArg f.get (s.reg_levelFiltered_ne n hk)
    refine ⟨exec_edgeFilterPass_early, fun hpass hsel => ⟨_, exec_edgeFilterPass_selected hpass hsel, ?_, fun hon hsoon => ?_,
      fun hfree hlate => ?_, fun hoff => ?_⟩, fun hpass hsel hdir => ⟨_, exec_edgeFilterPass_opposite hpass hsel hdir,
      s.bit_levelFiltered n.isLt, hwhl, s.onlyRegs_levelFiltered n⟩⟩
    · rw [State.bit, State.reg_STAT_selectedEdge]
      exact s.bit_levelFiltered n.isLt
    · obtain ⟨hsame, hcount, hevt⟩ := State.overrun_shown (e := s.filteredEdge n) n.isLt (by rwa [hst]) (by rwa [hacc])
      rw [hfld _ _ (by simp only [WHL_CNT, WHL_STAT]; omega)] at hcount
      rw [hsame, hwhl]
      exact ⟨rfl, rfl, hcount, hevt⟩
    · obtain ⟨htaken, hkept⟩ := State.whlOf_selectedEdge_free (e := s.filteredEdge n) n.isLt (hst.trans hfree) (by rwa [hacc])
      rw [hfld _ _ (by simp only [WHL_CFG, WHL_STAT]; omega)] at hkept
      exact ⟨htaken, hkept⟩
    · rw [State.selectedEdge_disabled (hst.trans hoff)]
      exact ⟨hwhl, s.onlyRegs_levelFiltered n⟩
  case refine_4 =>
    obtain ⟨hdir, hrev, hdelivered, hlast⟩ := (s.pulseEnded n).deliver_sets (s.taggedEdge n e) n.isLt
    exact ⟨_, exec_directionPulseEnd he hpass hsel, hdir, hrev, hdelivered.trans (by rw [s.delivered_pulseEnded n.isLt]), hlast⟩

end

section
/-! PROOFS. The angle observer (R103 to R138, R303): provisional predictions, the ceiling, the cycle boundary, and the commands of
OBS_ANG, OBS_CLR and OBS_CFG. -/

namespace Sys2Proof.Machine

/-! ### The provisional prediction (R108, R113) -/

/-- A rate held between 1 and the largest word (R112). -/
theorem capAt_atLeastOne {top : Nat} (n : Nat) (h : 1 ≤ top) : capAt top (if n = 0 then 1 else n) = max 1 (min top n) := by
  rw [capAt_eq_min]
  split <;> omega

/-- The tooth s+ after the last one, and the pitches to it (R106). -/
def State.toothPlus (s : State) : Tooth × Nat := s.nextTooth s.srcWheel s.lastTooth

/-- The tooth s++ after s+, and the pitches to it (R106). -/
def State.toothPlusPlus (s : State) : Tooth × Nat := s.nextTooth s.srcWheel s.toothPlus.1

/-- The prediction for the interval from s+ to s++ as though s+ had arrived in this slot, the last tooth at `r` (R113). -/
def State.provisional (s : State) (r : Nat) : Option Nat :=
  predict (({
      len := ((s.now - r : Nat) : Rat), a := s.spanFactor s.srcWheel s.lastTooth.slot s.toothPlus.2,
      w := s.torsFactor s.lastTooth s.toothPlus.1 } : Ivl) :: s.obs.hist)
    (s.spanFactor s.srcWheel s.toothPlus.1.slot s.toothPlusPlus.2) (s.torsFactor s.toothPlus.1 s.toothPlusPlus.1)
    (s.fld OBS_PCFG OBS_PCFG_SLIM)

/-- The interval just ended is enough of a history (R108). -/
theorem State.exists_provisional (s : State) (r : Nat) : ∃ q, s.provisional r = some q := ⟨_, rfl⟩

/-- Nothing happens while a provisional prediction is in force, while there is no last tooth or no history to form one from, and before
the angle has reached s+. -/
theorem exec_provisionalPrediction_idle {s : State} (h : s.obs.prov ≠ none ∨ s.obs.tRef = none ∨ s.obs.hist = []
    ∨ wReached s.angW (s.corrected s.toothPlus.1.th) = false) : exec .provisionalPrediction s = .next s := by
  change execProvisionalPrediction s = _
  unfold execProvisionalPrediction
  dsimp only
  split
  · next htref hhist hprov =>
    have hword : wReached s.angW (s.corrected s.toothPlus.1.th) = false := by
      simpa only [htref, hhist, hprov, ne_eq, not_true_eq_false, reduceCtorEq, false_or] using h
    change (if s.placed && s.fld OBS_CFG OBS_CFG_EN == 1 && wReached s.angW (s.corrected s.toothPlus.1.th) then _ else _) = _
    rw [hword, Bool.and_false]
    exact if_neg Bool.false_ne_true
  · rfl

/-- R113: the observer goes on at the rate of the provisional prediction. -/
theorem exec_provisionalPrediction {s : State} {r q : Nat} (htref : s.obs.tRef = some r) (hprov : s.obs.prov = none)
    (hhist : s.obs.hist ≠ []) (hplaced : s.placed = true) (hen : s.fld OBS_CFG OBS_CFG_EN = 1)
    (hword : wReached s.angW (s.corrected s.toothPlus.1.th) = true) (hq : s.provisional r = some q) :
    exec .provisionalPrediction s = .next ((s.updObs fun o => { o with prov := some q }).setReg OBS_RATE (BitVec.ofNat 32
      (max 1 (min (2 ^ 32 - 1) (roundDivN ((s.toothPlusPlus.1.th - s.toothPlus.1.th).toNat * 2 ^ 24 * 256) q))))) := by
  obtain ⟨i, l, hl⟩ := List.exists_cons_of_ne_nil hhist
  unfold State.toothPlus at hword
  unfold State.provisional State.toothPlusPlus State.toothPlus at hq
  unfold State.toothPlusPlus State.toothPlus
  change execProvisionalPrediction s = _
  unfold execProvisionalPrediction
  dsimp only
  rw [htref, hprov, hl]
  dsimp only
  rw [hplaced, hen, hword, if_pos (by rfl), ← hl, hq, ← capAt_atLeastOne _ (by decide)]

theorem State.onlyRegs_setReg_updObs (s : State) (f : Obs → Obs) (k : Nat) (v : Word) :
    s.onlyRegs { (s.updObs f).setReg k v with obs := s.obs } [k] :=
  ⟨rfl, fun j hj => State.reg_setReg_ne (s.updObs f) v (by simpa using hj)⟩

theorem provisionalPrediction_continues {s : State} {r : Nat} (htref : s.obs.tRef = some r) (hprov : s.obs.prov = none)
    (hhist : s.obs.hist ≠ []) (hplaced : s.placed = true) (hen : s.fld OBS_CFG OBS_CFG_EN = 1)
    (hword : wReached s.angW (s.corrected s.toothPlus.1.th) = true) :
    ∃ t, exec .provisionalPrediction s = .next t ∧ ∃ q, s.provisional r = some q ∧ t.obs = { s.obs with prov := some q }
      ∧ t.reg OBS_RATE = BitVec.ofNat 32
        (max 1 (min (2 ^ 32 - 1) (roundDivN ((s.toothPlusPlus.1.th - s.toothPlus.1.th).toNat * 2 ^ 24 * 256) q)))
      ∧ s.onlyRegs { t with obs := s.obs } [OBS_RATE] := by
  obtain ⟨q, hq⟩ := s.exists_provisional r
  exact ⟨_, exec_provisionalPrediction htref hprov hhist hplaced hen hword hq, q, hq, State.setReg_obs _ _ _,
    State.reg_setReg_same _ _ _, s.onlyRegs_setReg_updObs _ _ _⟩

/-! ### The ceiling (R114) -/

/-- The angle reaches the ceiling: flag, event and the threads that wait for it. -/
def State.ceilingHeld (s : State) : State := ((s.setFld OBS_FLAGS OBS_FLAGS_CEIL 1).raise OBS_EVT OBS_EVT_CEIL_bit).hwEvent 0x0A

theorem exec_ceil_held {s : State} (hplaced : s.placed = true) (hen : s.fld OBS_CFG OBS_CFG_EN = 1) (hang : s.angW = s.ceiling)
    (hceil : s.fld OBS_FLAGS OBS_FLAGS_CEIL = 0) : exec .ceil s = .next s.ceilingHeld := by
  change execCeil s = _
  rw [execCeil, hplaced, hen, hang, hceil, beq_self_eq_true s.ceiling]
  rfl

/-- Nothing happens off the ceiling, and nothing once the flag is set. -/
theorem exec_ceil_idle {s : State} (h : s.placed = false ∨ s.angW ≠ s.ceiling ∨ s.fld OBS_FLAGS OBS_FLAGS_CEIL = 1) :
    exec .ceil s = .next s := by
  refine congrArg Host.Outcome.next (if_neg ?_)
  rcases h with hplaced | hang | hceil
  · simp [hplaced]
  · simp [hang]
  · simp [hceil]

theorem State.ceilingHeld_eq (s : State) :
    s.ceilingHeld = { s with regs := s.ceilingHeld.regs, inflight := s.inflight ++ [evtItem OBS_EVT 3] } :=
  State.RegsDiffer.hwEvent ((s.setFld OBS_FLAGS OBS_FLAGS_CEIL 1).raise OBS_EVT OBS_EVT_CEIL_bit) 0x0A

theorem State.reg_ceilingHeld (s : State) {k : Nat} (hk : ∀ n : Fin 64, k ≠ AEN_TSTAT n) :
    s.ceilingHeld.reg k = ((s.setFld OBS_FLAGS OBS_FLAGS_CEIL 1).raise OBS_EVT OBS_EVT_CEIL_bit).reg k :=
  State.reg_hwEvent_ne _ _ hk

/-- The registers below block AEN are no thread's status. -/
theorem AEN_TSTAT_ne_of_lt {k : Nat} (hk : k < 0x40080000) (n : Nat) : k ≠ AEN_TSTAT n := by
  simp only [AEN_TSTAT]
  omega

theorem ceil_holds {s : State} (hplaced : s.placed = true) (hen : s.fld OBS_CFG OBS_CFG_EN = 1) (hang : s.angW = s.ceiling)
    (hceil : s.fld OBS_FLAGS OBS_FLAGS_CEIL = 0) :
    ∃ t, exec .ceil s = .next t ∧ t.fld OBS_FLAGS OBS_FLAGS_CEIL = 1 ∧ t.bit OBS_EVT 3 = true
      ∧ t = { s with regs := t.regs, inflight := s.inflight ++ [evtItem OBS_EVT 3] }
      ∧ (∀ n : Fin 64, t.thState n = s.thState n)
      ∧ ∀ k, k ≠ OBS_FLAGS → k ≠ OBS_EVT → (∀ n : Fin 64, k ≠ AEN_TSTAT n) → t.reg k = s.reg k := by
  refine ⟨_, exec_ceil_held hplaced hen hang hceil, ?_, ?_, s.ceilingHeld_eq, fun n => ?_, fun k hflags hevt htstat => ?_⟩
  · rw [State.fld, s.reg_ceilingHeld fun n => AEN_TSTAT_ne_of_lt (by decide) n, State.reg_raise_ne _ _ (by decide),
      State.reg_setFld_same]
    exact Fld.get_set_same _ _ _ (by decide)
  · rw [State.bit, s.reg_ceilingHeld fun n => AEN_TSTAT_ne_of_lt (by decide) n]
    exact State.bit_raise _ _ (by decide)
  · have hreg : ((s.setFld OBS_FLAGS OBS_FLAGS_CEIL 1).raise OBS_EVT OBS_EVT_CEIL_bit).reg (AEN_TSTAT n) = s.reg (AEN_TSTAT n) := by
      rw [State.reg_raise_ne _ _ (by simp only [AEN_TSTAT, OBS_EVT]; omega),
        State.reg_setFld_ne _ _ _ (by simp only [AEN_TSTAT, OBS_FLAGS]; omega)]
    rw [State.ceilingHeld, State.thState_hwEvent]
    exact congrArg AEN_TSTAT_STATE.get hreg
  · rw [s.reg_ceilingHeld htstat, State.reg_raise_ne _ _ hevt, State.reg_setFld_ne _ _ _ hflags]

/-! ### What the observer holds beside its learning (R126 to R130) -/

/-- The observer's part of `t` is that of `s` but for the learning of the wheels. -/
def State.LearnDiffers (s t : State) : Prop := t.obs = { s.obs with learn := t.obs.learn }

theorem State.LearnDiffers.refl (s : State) : s.LearnDiffers s := rfl

theorem State.LearnDiffers.trans {s t u : State} (h : s.LearnDiffers t) (h' : t.LearnDiffers u) : s.LearnDiffers u :=
  Eq.trans h' (by rw [h])

theorem State.LearnDiffers.updLearn (s : State) (n : Nat) (f : Learn → Learn) : s.LearnDiffers (s.updLearn n f) := rfl

theorem State.LearnDiffers.dropPass (s : State) (n : Nat) : s.LearnDiffers (s.dropPass n) := by
  unfold State.dropPass
  split
  · exact .updLearn s n _
  · exact .refl s

theorem State.LearnDiffers.coastCheck (s : State) : s.LearnDiffers s.coastCheck := by
  unfold State.coastCheck
  extract_lets c s1
  have h1 : s.LearnDiffers s1 := by
    unfold s1
    split
    · exact List.foldlRecOn _ _ (.refl s) fun t ht n _ => ht.trans (.dropPass t n)
    · exact .refl s
  exact h1

/-! ### The cycle boundary (R303) -/

theorem State.reg_trimUpdate_same (s : State) (i : Nat) : (s.trimUpdate i).reg (AEN_TRM i) = BitVec.ofInt 32 (s.trimEval i) := by
  have hshow : AEN_TRM i ≠ AEN_TRS i := by simp only [AEN_TRM, AEN_TRS]; omega
  rw [State.trimUpdate, State.trimShow, State.reg_setFld_ne _ _ _ hshow, State.reg_setFld_ne _ _ _ hshow, State.reg_setReg_same]

theorem State.reg_trimUpdate_ne (s : State) {i k : Nat} (hm : k ≠ AEN_TRM i) (hs : k ≠ AEN_TRS i) :
    (s.trimUpdate i).reg k = s.reg k := by
  rw [State.trimUpdate, State.trimShow, State.reg_setFld_ne _ _ _ hs, State.reg_setFld_ne _ _ _ hs, State.reg_setReg_ne _ _ hm]

/-- A boundary changes registers and the trims' bases alone. -/
theorem State.trimBoundary_eq (s : State) (n : Nat) :
    s.trimBoundary n = { s with regs := (s.trimBoundary n).regs, trimB := (s.trimBoundary n).trimB } := by
  induction n with
  | zero => rfl
  | succ n ih =>
    rw [State.trimBoundary]
    generalize s.trimBoundary n = t at ih
    rw [ih]
    rfl

theorem State.reg_trimBoundary_ne (s : State) {k n : Nat} (h : ∀ i, i < n → k ≠ AEN_TRM i ∧ k ≠ AEN_TRS i) :
    (s.trimBoundary n).reg k = s.reg k := by
  induction n with
  | zero => rfl
  | succ n ih =>
    obtain ⟨hm, hs⟩ := h n (by omega)
    rw [State.trimBoundary, State.reg_trimUpdate_ne _ hm hs]
    exact ih fun i hi => h i (by omega)

/-- Trim `i` evaluated anew with its value in force as the base (R303). -/
def State.trimRenewed (s : State) (i : Nat) : Word :=
  BitVec.ofInt 32 (trimValue (s.reg (AEN_TRQ i)).toInt (s.reg (AEN_ELO i)).toInt (s.reg (AEN_EHI i)).toInt
    (s.fld (AEN_ESL i) AEN_ESL_SLEW) (s.reg (AEN_TRM i)).toInt)

/-- One trim's turn. -/
theorem State.trimTurn_renews (s : State) (i : Nat) :
    ((s.setTrimBase i (s.reg (AEN_TRM i))).trimUpdate i).trimBase i = s.reg (AEN_TRM i)
      ∧ ((s.setTrimBase i (s.reg (AEN_TRM i))).trimUpdate i).reg (AEN_TRM i) = s.trimRenewed i := by
  have hbase : (s.setTrimBase i (s.reg (AEN_TRM i))).trimBase i = s.reg (AEN_TRM i) := tabGet_tabSet_same _ _ _ _
  refine ⟨hbase, ?_⟩
  rw [State.reg_trimUpdate_same, State.trimEval, hbase]
  rfl

/-- The registers that a trim's evaluation reads are the same where no other trim's turn writes. -/
theorem State.trimRenewed_congr {s t : State} {i : Nat}
    (h : ∀ k ∈ [AEN_TRQ i, AEN_ELO i, AEN_EHI i, AEN_ESL i, AEN_TRM i], t.reg k = s.reg k) : t.trimRenewed i = s.trimRenewed i := by
  simp only [List.forall_mem_cons] at h
  obtain ⟨hreq, hlo, hhi, hslew, htrim, -⟩ := h
  simp only [State.trimRenewed, State.fld, hreq, hlo, hhi, hslew, htrim]

theorem State.trimBoundary_renews (s : State) {i n : Nat} (hn : n ≤ 512) (hi : i < n) :
    (s.trimBoundary n).trimBase i = s.reg (AEN_TRM i) ∧ (s.trimBoundary n).reg (AEN_TRM i) = s.trimRenewed i := by
  induction n with
  | zero => omega
  | succ n ih =>
    by_cases h : i = n
    · subst h
      have hsame : ∀ k ∈ [AEN_TRQ i, AEN_ELO i, AEN_EHI i, AEN_ESL i, AEN_TRM i], (s.trimBoundary i).reg k = s.reg k := by
        intro k hk
        refine s.reg_trimBoundary_ne fun j hj => ?_
        simp only [List.mem_cons, List.not_mem_nil, or_false, AEN_TRQ, AEN_ELO, AEN_EHI, AEN_ESL, AEN_TRM] at hk
        simp only [AEN_TRM, AEN_TRS]
        omega
      obtain ⟨hbase, hreg⟩ := (s.trimBoundary i).trimTurn_renews i
      exact ⟨hbase.trans (hsame _ (by simp)), hreg.trans (State.trimRenewed_congr hsame)⟩
    · obtain ⟨hbase, hreg⟩ := ih (by omega) (by omega)
      have hkeep : (s.trimBoundary (n + 1)).trimBase i = (s.trimBoundary n).trimBase i := tabGet_tabSet_ne _ _ _ h
      refine ⟨hkeep.trans hbase, ?_⟩
      rw [State.trimBoundary, State.reg_trimUpdate_ne _ (by simp only [AEN_TRM]; omega) (by simp only [AEN_TRM, AEN_TRS]; omega)]
      exact hreg

theorem State.updObs_trimBoundary (s : State) (n : Nat) (f : Obs → Obs) : (s.trimBoundary n).updObs f =
    { s with regs := (s.trimBoundary n).regs, trimB := (s.trimBoundary n).trimB, obs := f s.obs } := by
  have heq := s.trimBoundary_eq n
  generalize s.trimBoundary n = u at heq ⊢
  rw [State.updObs, heq]

theorem State.reg_updObs (s : State) (f : Obs → Obs) (k : Nat) : (s.updObs f).reg k = s.reg k := rfl

theorem State.trimBase_updObs (s : State) (f : Obs → Obs) (i : Nat) : (s.updObs f).trimBase i = s.trimBase i := rfl

/-- Every trim evaluated anew, and the cycle count kept. -/
def State.cycleBegun (s : State) : State := (s.trimBoundary 512).updObs fun o => { o with cycle := s.angW.toNat / 2 ^ 24 }

theorem State.cycleBegun_eq (s : State) : s.cycleBegun = { s with
    regs := (s.trimBoundary 512).regs, trimB := (s.trimBoundary 512).trimB, obs := { s.obs with cycle := s.angW.toNat / 2 ^ 24 } } :=
  s.updObs_trimBoundary 512 _

theorem exec_cycleBoundary {s : State} (hplaced : s.placed = true) (hcycle : s.angW.toNat / 2 ^ 24 ≠ s.obs.cycle) :
    exec .cycleBoundary s = .next s.cycleBegun.coastCheck :=
  congrArg Host.Outcome.next (if_pos (by rw [hplaced, decide_eq_true hcycle]; rfl))

theorem exec_cycleBoundary_idle {s : State} (h : s.placed = false ∨ s.angW.toNat / 2 ^ 24 = s.obs.cycle) :
    exec .cycleBoundary s = .next s := by
  refine congrArg Host.Outcome.next (if_neg ?_)
  rcases h with hplaced | hcycle
  · rw [hplaced]
    exact Bool.false_ne_true
  · rw [decide_eq_false (not_not.mpr hcycle), Bool.and_false]
    exact Bool.false_ne_true

theorem cycleBoundary_renews {s : State} (hplaced : s.placed = true) (hcycle : s.angW.toNat / 2 ^ 24 ≠ s.obs.cycle) :
    ∃ t, exec .cycleBoundary s = .next t ∧ t.obs.cycle = s.angW.toNat / 2 ^ 24 ∧ t.mem = s.mem ∧ t.obs.ang = s.obs.ang
      ∧ ∀ i : Fin 512, t.trimBase i = s.reg (AEN_TRM i) ∧ t.reg (AEN_TRM i) = s.trimRenewed i
        ∧ t.reg (AEN_TRQ i) = s.reg (AEN_TRQ i) := by
  have hframe : s.cycleBegun.ObsFrame s.cycleBegun.coastCheck := .coastCheck (.refl _)
  have hobs : s.cycleBegun.LearnDiffers s.cycleBegun.coastCheck := .coastCheck _
  have hkeep : ∀ k, 0x40070000 ≤ k → s.cycleBegun.coastCheck.reg k = (s.trimBoundary 512).reg k := fun k hk =>
    (hframe.reg k (.inr hk)).trans (State.reg_updObs _ _ k)
  refine ⟨_, exec_cycleBoundary hplaced hcycle, ?_, ?_, ?_, fun i => ?_⟩
  · rw [hobs, s.cycleBegun_eq]
  · rw [hframe.eq, s.cycleBegun_eq]
  · rw [hobs, s.cycleBegun_eq]
  · obtain ⟨hbase, hreg⟩ := s.trimBoundary_renews (Nat.le_refl 512) i.isLt
    refine ⟨?_, (hkeep _ (by simp only [AEN_TRM]; omega)).trans hreg,
      (hkeep _ (by simp only [AEN_TRQ]; omega)).trans (s.reg_trimBoundary_ne fun j hj => ?_)⟩
    · have htrim : s.cycleBegun.coastCheck.trimB = s.cycleBegun.trimB := by rw [hframe.eq]
      rw [State.trimBase, htrim]
      exact (State.trimBase_updObs _ _ _).trans hbase
    · simp only [AEN_TRQ, AEN_TRM, AEN_TRS]
      omega

/-! ### Clearing the learned tables (R129, R132, R136) -/

/-- Registers written one after the other with one value. -/
theorem State.reg_foldl_setReg_mem (key : Nat → Nat) (v : Word) (s : State) {l : List Nat} {i : Nat} (hi : i ∈ l) :
    (l.foldl (fun t i => t.setReg (key i) v) s).reg (key i) = v := by
  induction l generalizing s with
  | nil => cases hi
  | cons j l ih =>
    rw [List.foldl_cons]
    rcases List.mem_cons.mp hi with rfl | hmem
    · refine List.foldlRecOn l _ (motive := fun t : State => t.reg (key i) = v) (s.reg_setReg_same _ _) fun t ht m _ => ?_
      rw [State.reg_setReg, ht, ite_self]
    · exact ih _ hmem

/-- `t` is `s` but for registers and the learning of the wheels. -/
def State.TablesDiffer (s t : State) : Prop := t = { s with regs := t.regs, obs := { s.obs with learn := t.obs.learn } }

theorem State.TablesDiffer.refl (s : State) : s.TablesDiffer s := rfl

theorem State.TablesDiffer.trans {s t u : State} (h : s.TablesDiffer t) (h' : t.TablesDiffer u) : s.TablesDiffer u :=
  Eq.trans h' (by rw [h])

theorem State.RegsDiffer.tables {s t : State} (h : s.RegsDiffer t) : s.TablesDiffer t := by
  unfold State.TablesDiffer
  rw [h]

theorem State.RegsDiffer.updObs {s t : State} (h : s.RegsDiffer t) (f : Obs → Obs) :
    t.updObs f = { s with regs := (t.updObs f).regs, obs := f s.obs } := by
  rw [State.updObs, h]

/-- The factors of wheel `n` at 16,384. -/
def State.factorsSet (s : State) (n : Nat) : State := (List.range 2048).foldl (fun t i => t.setReg (OBS_FACT n i) 0x40004000) s

theorem State.clearFactors_eq (s : State) (n : Nat) : s.clearFactors n
    = ((s.factorsSet n).setBit OBS_FLAGS (8 + n) false).updLearn n fun l => { l with passes := 0 } := rfl

theorem State.RegsDiffer.factorsSet (s : State) (n : Nat) : s.RegsDiffer (s.factorsSet n) := (State.foldl_setReg_spec _ _ _ s).1

theorem State.TablesDiffer.updLearn (s : State) (n : Nat) (f : Learn → Learn) : s.TablesDiffer (s.updLearn n f) := rfl

theorem State.TablesDiffer.clearFactors (s : State) (n : Nat) : s.TablesDiffer (s.clearFactors n) := by
  rw [State.clearFactors_eq]
  exact ((State.RegsDiffer.factorsSet s n).trans (.setReg _ _ _)).tables.trans (.updLearn _ _ _)

theorem State.reg_factorsSet_ne (s : State) {n k : Nat} (h : ∀ i, i < 2048 → k ≠ OBS_FACT n i) : (s.factorsSet n).reg k = s.reg k :=
  (State.foldl_setReg_spec _ _ _ s).2 k fun i hi => h i (List.mem_range.mp hi)

theorem State.reg_clearFactors (s : State) (n : Nat) {k : Nat} (hk : k ≠ OBS_FLAGS) :
    (s.clearFactors n).reg k = (s.factorsSet n).reg k := by
  rw [State.clearFactors_eq, State.updLearn, State.reg_updObs, State.reg_setBit_ne _ _ _ hk]

theorem State.fval_clearFactors (s : State) (n j : Nat) :
    (s.clearFactors n).fval j = bitOf (withBit (s.reg OBS_FLAGS) (8 + n) false) (8 + j) := by
  have hflags : (s.factorsSet n).reg OBS_FLAGS = s.reg OBS_FLAGS :=
    s.reg_factorsSet_ne fun i _ => by simp only [OBS_FLAGS, OBS_FACT]; omega
  rw [State.fval, State.bit, State.clearFactors_eq, State.updLearn, State.reg_updObs, State.reg_setBit_same, hflags]

/-- FVAL and the factors of wheel `n`. -/
def State.factView (n : Nat) (s : State) : Bool × (Fin 2048 → Word) := (s.fval n, fun i => s.reg (OBS_FACT n i))

theorem State.factView_clearFactors_same (s : State) {n : Nat} (hn : n < 6) :
    (s.clearFactors n).factView n = (false, fun _ => 0x40004000) := by
  refine Prod.ext ?_ (funext fun i => ?_)
  · exact (s.fval_clearFactors n n).trans (bitOf_withBit_same _ _ _ (by omega))
  · exact (s.reg_clearFactors n (by simp only [OBS_FACT, OBS_FLAGS]; omega)).trans
      (State.reg_foldl_setReg_mem _ _ _ (List.mem_range.mpr i.isLt))

theorem State.factView_clearFactors_ne (s : State) {n m : Nat} (hn : n ≠ m) : (s.clearFactors m).factView n = s.factView n := by
  refine Prod.ext ?_ (funext fun i => ?_)
  · exact (s.fval_clearFactors m n).trans (bitOf_withBit_ne _ _ (by omega))
  · exact (s.reg_clearFactors m (by simp only [OBS_FACT, OBS_FLAGS]; omega)).trans
      (s.reg_factorsSet_ne fun j hj => by simp only [OBS_FACT]; omega)

/-- The turn of wheel `n` in a write of OBS_CLR. -/
def State.clearTurn (w : Word) (t : State) (n : Nat) : State := if bitOf w n then t.clearFactors n else t

/-- The wheels that a write of OBS_CLR names have their factors cleared. -/
def State.factorsCleared (s : State) (w : Word) : State := (List.range 6).foldl (State.clearTurn w) s

theorem State.TablesDiffer.factorsCleared (s : State) (w : Word) : s.TablesDiffer (s.factorsCleared w) :=
  List.foldlRecOn _ _ (.refl s) fun t ht n _ => by
    unfold State.clearTurn
    split
    · exact ht.trans (.clearFactors t n)
    · exact ht

theorem State.factorsCleared_of_none (s : State) {w : Word} (h : ∀ n, n < 6 → bitOf w n = false) : s.factorsCleared w = s :=
  List.foldlRecOn _ _ (motive := fun t => t = s) rfl fun t ht n hn => by
    rw [State.clearTurn, h n (List.mem_range.mp hn), ht]
    rfl

theorem State.factView_factorsCleared (s : State) (w : Word) {n : Nat} (hn : n < 6) :
    (s.factorsCleared w).factView n = if bitOf w n then (false, fun _ => 0x40004000) else s.factView n := by
  obtain ⟨u, hu, hturn⟩ := exists_turn_of_foldl (State.factView n) (f := State.clearTurn w) s (List.mem_range.mpr hn) List.nodup_range
    fun t m _ hmn => by
      unfold State.clearTurn
      split
      · exact t.factView_clearFactors_ne hmn.symm
      · rfl
  rw [State.factorsCleared, hturn, State.clearTurn]
  split
  · exact u.factView_clearFactors_same hn
  · exact hu

/-- Two factors to a word, both at 16,384 (R102, R125). -/
theorem State.half_of_factView {s : State} {n : Nat} (h : (s.factView n).2 = fun _ => 0x40004000) {i : Nat} (hi : i < 4096) :
    s.half (OBS_FACT n 0) i = 16384 := by
  have hreg : s.reg (OBS_FACT n 0 + 4 * (i / 2)) = 0x40004000 := congrFun h ⟨i / 2, by omega⟩
  rw [State.half, hreg]
  rcases Nat.mod_two_eq_zero_or_one i with hpar | hpar <;> rw [hpar] <;> decide

/-! ### Writes of OBS_CLR (R13, R136) -/

/-- The row of OBS_CLR: three command fields, which the register does not keep. -/
def obsClrRow : Row :=
  { off := 0x4c, s1 := 0x4, c1 := 1, s2 := 0x4, c2 := 1, rst := 0x0, werr := .bit 19, lock := .none,
    flds := [⟨OBS_CLR_FACT, .wo, .any⟩, ⟨OBS_CLR_TORS, .wo, .any⟩, ⟨OBS_CLR_JMAX, .wo, .any⟩] }

theorem rowFind_OBS_CLR : rowFind (blockRows (blkOf OBS_CLR)) (OBS_CLR % 0x10000) = some (obsClrRow, 0, 0) := by decide

/-- What a legal write of OBS_CLR does (R136). -/
def State.obsClr (t : State) (w : Word) : State :=
  let t1 := t.factorsCleared w
  let t2 := if bitOf w 8 then t1.clearTorsional else t1
  if bitOf w 9 then t2.setReg OBS_JMAX 0 else t2

/-- OBS_CLR does not keep what is written to it. -/
def State.clrAsked (s : State) : State := s.setReg OBS_CLR (s.reg OBS_CLR)

theorem State.reg_clrAsked (s : State) (k : Nat) : s.clrAsked.reg k = s.reg k := s.reg_setReg_self OBS_CLR k

theorem State.obsLegal_OBS_CLR (s : State) (w : Word) : (s.obsLegal OBS_CLR w && s.syncLegal OBS_CLR w)
    = (((OBS_CLR_FACT.get w) &&& (s.fld OBS_LCTL OBS_LCTL_LEN) == 0) && (OBS_CLR_TORS.get w == 0 || s.fld OBS_LCTL OBS_LCTL_TEN == 0)) :=
  Bool.and_true _

theorem State.obsWrite_OBS_CLR {s : State} {w : Word} (h : (s.obsLegal OBS_CLR w && s.syncLegal OBS_CLR w) = true) :
    s.obsWrite OBS_CLR w = s.clrAsked.obsClr w := by
  rw [State.obsWrite, State.writeWith_of_rwcSame rowFind_OBS_CLR rfl, State.writeWith_of_legal rowFind_OBS_CLR rfl rfl h,
    if_neg (by decide), if_neg (by decide), if_pos rfl]
  rfl

theorem State.obsWrite_OBS_CLR_refused {s : State} {w : Word} (h : (s.obsLegal OBS_CLR w && s.syncLegal OBS_CLR w) = false) :
    s.writeRefused (s.obsWrite OBS_CLR w) OBS_CLR := by
  rw [State.obsWrite, State.writeWith_of_illegal rowFind_OBS_CLR h]
  exact State.refuseWrite_refused rowFind_OBS_CLR

/-- The wheels named, and no other command. -/
theorem State.obsLegal_clrFact (s : State) (m : BitVec 6) :
    (s.obsLegal OBS_CLR (m.setWidth 32) && s.syncLegal OBS_CLR (m.setWidth 32)) = (m.toNat &&& s.fld OBS_LCTL OBS_LCTL_LEN == 0) := by
  have hm := m.isLt
  have hfact : OBS_CLR_FACT.get (m.setWidth 32) = m.toNat := by
    change (m.setWidth 32).toNat / 2 ^ 0 % 2 ^ 6 = m.toNat
    rw [BitVec.toNat_setWidth]
    omega
  have htors : OBS_CLR_TORS.get (m.setWidth 32) = 0 := by
    change (m.setWidth 32).toNat / 2 ^ 8 % 2 ^ 1 = 0
    rw [BitVec.toNat_setWidth]
    omega
  rw [s.obsLegal_OBS_CLR, hfact, htors]
  exact Bool.and_true _

theorem State.obsClr_of_wheels (t : State) (m : BitVec 6) : t.obsClr (m.setWidth 32) = t.factorsCleared (m.setWidth 32) := by
  have hbit : ∀ i, 6 ≤ i → ¬ bitOf (m.setWidth 32) i = true := fun i hi => by
    rw [bitOf, BitVec.getLsbD_setWidth, BitVec.getLsbD_of_ge _ _ hi, Bool.and_false]
    exact Bool.false_ne_true
  rw [State.obsClr, if_neg (hbit 8 (by omega)), if_neg (hbit 9 (by omega))]

theorem obsClrFact_clears {s : State} {m : BitVec 6} (h : m.toNat &&& s.fld OBS_LCTL OBS_LCTL_LEN = 0) :
    ∃ t, exec (.obsClrFact m) s = .next t
      ∧ (∀ n, n < 6 → m.getLsbD n = true → t.fval n = false ∧ ∀ i, i < 4096 → t.half (OBS_FACT n 0) i = 16384)
      ∧ (∀ n, n < 6 → m.getLsbD n = false → t.fval n = s.fval n ∧ ∀ i, i < 2048 → t.reg (OBS_FACT n i) = s.reg (OBS_FACT n i))
      ∧ t = { s with regs := t.regs, obs := t.obs } ∧ t.obs = { s.obs with learn := t.obs.learn } := by
  have hexec : exec (.obsClrFact m) s = .next (s.clrAsked.factorsCleared (m.setWidth 32)) := by
    change Host.Outcome.next (s.obsWrite OBS_CLR (m.setWidth 32)) = _
    rw [State.obsWrite_OBS_CLR (by rw [s.obsLegal_clrFact, h]; rfl), State.obsClr_of_wheels]
  have hdiff : s.TablesDiffer (s.clrAsked.factorsCleared (m.setWidth 32)) :=
    (State.RegsDiffer.setReg s _ _).tables.trans (.factorsCleared _ _)
  have hview : ∀ n, n < 6 → (s.clrAsked.factorsCleared (m.setWidth 32)).factView n
      = if m.getLsbD n then (false, fun _ => 0x40004000) else s.factView n := fun n hn => by
    have hbit : bitOf (m.setWidth 32) n = m.getLsbD n := by
      rw [bitOf, BitVec.getLsbD_setWidth, decide_eq_true (show n < 32 by omega), Bool.true_and]
    have hself : s.clrAsked.factView n = s.factView n := by
      simp only [State.factView, State.fval, State.bit, State.reg_clrAsked]
    rw [State.factView_factorsCleared _ _ hn, hbit, hself]
  refine ⟨_, hexec, fun n hn hm => ?_, fun n hn hm => ?_, ?_, ?_⟩
  · have hn' := (hview n hn).trans (if_pos hm)
    exact ⟨congrArg Prod.fst hn', fun i hi => State.half_of_factView (congrArg Prod.snd hn') hi⟩
  · have hn' := (hview n hn).trans (if_neg (by rw [hm]; exact Bool.false_ne_true))
    exact ⟨congrArg Prod.fst hn', fun i hi => congrFun (congrArg Prod.snd hn') ⟨i, hi⟩⟩
  · rw [hdiff]
  · exact congrArg State.obs hdiff

theorem obsClrFact_refused {s : State} {m : BitVec 6} (h : m.toNat &&& s.fld OBS_LCTL OBS_LCTL_LEN ≠ 0) :
    ∃ t, exec (.obsClrFact m) s = .next t ∧ s.writeRefused t OBS_CLR :=
  ⟨_, rfl, State.obsWrite_OBS_CLR_refused (by rw [s.obsLegal_clrFact]; exact beq_false_of_ne h)⟩

/-! ### The torsional terms and the largest jump (R132, R136) -/

theorem State.obsLegal_clrTors (s : State) :
    (s.obsLegal OBS_CLR 0x100 && s.syncLegal OBS_CLR 0x100) = (s.fld OBS_LCTL OBS_LCTL_TEN == 0) := by
  rw [s.obsLegal_OBS_CLR, show OBS_CLR_FACT.get 0x100 = 0 by decide, show OBS_CLR_TORS.get 0x100 = 1 by decide, Nat.zero_and]
  rfl

/-- The torsional terms at 0. -/
def State.torsionalSet (s : State) : State := (List.range 384).foldl (fun t i => t.setReg (OBS_TORS i) 0) s

theorem State.RegsDiffer.torsionalSet (s : State) : s.RegsDiffer s.torsionalSet := (State.foldl_setReg_spec _ _ _ s).1

theorem State.reg_torsionalSet_ne (s : State) {k : Nat} (h : ∀ i, i < 384 → k ≠ OBS_TORS i) : s.torsionalSet.reg k = s.reg k :=
  (State.foldl_setReg_spec _ _ _ s).2 k fun i hi => h i (List.mem_range.mp hi)

theorem State.reg_torsionalSet (s : State) {i : Nat} (hi : i < 384) : s.torsionalSet.reg (OBS_TORS i) = 0 :=
  State.reg_foldl_setReg_mem _ _ _ (List.mem_range.mpr hi)

theorem State.clearTorsional_eq (s : State) : s.clearTorsional
    = (s.torsionalSet.setFld OBS_FLAGS OBS_FLAGS_TVAL 0).updObs fun o => { o with torsCount := 0 } := rfl

theorem State.obsClr_torsional (t : State) : t.obsClr 0x100 = t.clearTorsional := by
  rw [State.obsClr, t.factorsCleared_of_none (by decide), if_neg (by decide), if_pos (by decide)]

theorem obsClrTors_clears {s : State} (h : s.fld OBS_LCTL OBS_LCTL_TEN = 0) : ∃ t, exec .obsClrTors s = .next t
    ∧ (∀ i, i < 384 → t.reg (OBS_TORS i) = 0) ∧ t.fld OBS_FLAGS OBS_FLAGS_TVAL = 0
    ∧ t = { s with regs := t.regs, obs := { s.obs with torsCount := 0 } }
    ∧ ∀ k, k ≠ OBS_FLAGS → (∀ i, i < 384 → k ≠ OBS_TORS i) → t.reg k = s.reg k := by
  have hdiff : s.RegsDiffer s.clrAsked.torsionalSet := (State.RegsDiffer.setReg s _ _).trans (.torsionalSet _)
  refine ⟨(s.clrAsked.torsionalSet.setFld OBS_FLAGS OBS_FLAGS_TVAL 0).updObs fun o => { o with torsCount := 0 }, ?_, fun i hi => ?_,
    ?_, ?_, fun k hflags htors => ?_⟩
  · change Host.Outcome.next (s.obsWrite OBS_CLR 0x100) = _
    rw [State.obsWrite_OBS_CLR (by rw [s.obsLegal_clrTors, h]; rfl), State.obsClr_torsional, State.clearTorsional_eq]
  · rw [State.reg_updObs, State.reg_setFld_ne _ _ _ (by simp only [OBS_TORS, OBS_FLAGS]; omega), State.reg_torsionalSet _ hi]
  · rw [State.fld, State.reg_updObs, State.reg_setFld_same]
    exact Fld.get_set_same _ _ _ (by decide)
  · exact (hdiff.trans (.setFld _ _ _ _)).updObs _
  · rw [State.reg_updObs, State.reg_setFld_ne _ _ _ hflags, State.reg_torsionalSet_ne _ htors, s.reg_clrAsked]

theorem obsClrTors_refused {s : State} (h : s.fld OBS_LCTL OBS_LCTL_TEN = 1) :
    ∃ t, exec .obsClrTors s = .next t ∧ s.writeRefused t OBS_CLR :=
  ⟨_, rfl, State.obsWrite_OBS_CLR_refused (by rw [s.obsLegal_clrTors, h]; rfl)⟩

theorem obsClrJmax_clears (s : State) : ∃ t, exec .obsClrJmax s = .next t ∧ t.reg OBS_JMAX = 0 ∧ s.onlyRegs t [OBS_JMAX] := by
  refine ⟨s.clrAsked.setReg OBS_JMAX 0, ?_, State.reg_setReg_same _ _ _, rfl, fun k hk => ?_⟩
  · have hlegal : (s.obsLegal OBS_CLR 0x200 && s.syncLegal OBS_CLR 0x200) = true := by
      rw [s.obsLegal_OBS_CLR, show OBS_CLR_FACT.get 0x200 = 0 by decide, show OBS_CLR_TORS.get 0x200 = 0 by decide, Nat.zero_and]
      rfl
    change Host.Outcome.next (s.obsWrite OBS_CLR 0x200) = _
    rw [State.obsWrite_OBS_CLR hlegal, State.obsClr, State.factorsCleared_of_none _ (by decide), if_pos (by decide), if_neg (by decide)]
  · rw [State.reg_setReg_ne _ _ (by simpa using hk), s.reg_clrAsked]

/-! ### The read of OBS_ANG (R104, R136) -/

theorem obsAngRead_answers (s : State) : ∃ t, exec .obsAngRead s = .next t
    ∧ t.answer = { data := if s.placed then s.angW else 0, err := false }
    ∧ t.reg OBS_ANGT = s.slotW ∧ s.onlyRegs { t with answer := s.answer } [OBS_ANGT] :=
  ⟨_, rfl, rfl, State.reg_setReg_same _ _ _, rfl, fun k hk => State.reg_setReg_ne s _ (by simpa using hk)⟩

/-! ### Writes of OBS_CFG (R13, R103, R137) -/

/-- The row of OBS_CFG. -/
def obsCfgRow : Row :=
  { off := 0x0, s1 := 0x4, c1 := 1, s2 := 0x4, c2 := 1, rst := 0x100, werr := .bit 0, lock := .obs,
    flds := [⟨OBS_CFG_EN, .rw, .any⟩, ⟨OBS_CFG_CYCLE, .rwc, .any⟩, ⟨OBS_CFG_SRC, .rwc, .u 0 5⟩, ⟨OBS_CFG_NFIRE, .rwc, .u 1 24⟩] }

theorem rowFind_OBS_CFG : rowFind (blockRows (blkOf OBS_CFG)) (OBS_CFG % 0x10000) = some (obsCfgRow, 0, 0) := by decide

/-- OBS_CFG after a legal write. -/
def obsCfgWritten (old w : Word) : Word := maskedWrite 0x1F73 old w

theorem mergeFields_OBS_CFG (old w : Word) : mergeFields obsCfgRow.flds old w = obsCfgWritten old w := by
  rw [mergeFields_of_writable (by decide), show writtenBits obsCfgRow.flds = 0x1F73 by decide]
  rfl

theorem fieldsLegal_OBS_CFG {w : Word} (hsrc : OBS_CFG_SRC.get w ≤ 5) (hlow : 1 ≤ OBS_CFG_NFIRE.get w)
    (hhigh : OBS_CFG_NFIRE.get w ≤ 24) : fieldsLegal obsCfgRow.flds w = true := by
  simp [fieldsLegal, obsCfgRow, Rng.ok, hsrc, hlow, hhigh]

/-- A write that repeats OBS_CFG but for EN repeats its RWC fields. -/
theorem rwcSame_OBS_CFG_clearEn (old : Word) : rwcSame obsCfgRow.flds old (old &&& 0xFFFFFFFE) = true := by
  have hkeep : ∀ f : Fld, 0 < f.lo → f.get (old &&& 0xFFFFFFFE) = f.get old := fun f hf =>
    f.get_withBit_ne old 0 false (.inl hf)
  simp only [rwcSame, obsCfgRow, List.all_cons, List.all_nil, Bool.true_and, Bool.and_true, Bool.and_eq_true, beq_iff_eq]
  exact ⟨hkeep _ (by decide), hkeep _ (by decide), hkeep _ (by decide)⟩

theorem State.obsLegal_OBS_CFG (s : State) (w : Word) : (s.obsLegal OBS_CFG w && s.syncLegal OBS_CFG w)
    = (OBS_CFG_EN.get w == 0 || s.role (OBS_CFG_SRC.get w) == 0) :=
  Bool.and_true _

/-- The state with OBS_CFG written. -/
def State.cfgWritten (s : State) (w : Word) : State := s.setReg OBS_CFG (obsCfgWritten (s.reg OBS_CFG) w)

theorem State.en_cfgWritten (s : State) (w : Word) : (s.cfgWritten w).fld OBS_CFG OBS_CFG_EN = OBS_CFG_EN.get w := by
  rw [State.fld, State.cfgWritten, State.reg_setReg_same, obsCfgWritten, Fld.get_maskedWrite _ _ (by decide)]

theorem State.src_cfgWritten (s : State) (w : Word) : (s.cfgWritten w).fld OBS_CFG OBS_CFG_SRC = OBS_CFG_SRC.get w := by
  rw [State.fld, State.cfgWritten, State.reg_setReg_same, obsCfgWritten, Fld.get_maskedWrite _ _ (by decide)]

/-- A write that sets EN on an ANGLE wheel enables the observer. -/
theorem State.obsWrite_enables {s : State} {w : Word} (hoff : s.fld OBS_CFG OBS_CFG_EN = 0) (hon : OBS_CFG_EN.get w = 1)
    (hsrc : OBS_CFG_SRC.get w ≤ 5) (hlow : 1 ≤ OBS_CFG_NFIRE.get w) (hhigh : OBS_CFG_NFIRE.get w ≤ 24)
    (hrole : s.role (OBS_CFG_SRC.get w) = 0) : s.obsWrite OBS_CFG w = (s.cfgWritten w).obsEnabled := by
  have hlegal : (s.obsLegal OBS_CFG w && s.syncLegal OBS_CFG w) = true := by rw [s.obsLegal_OBS_CFG, hrole, hon]; rfl
  have hen := s.en_cfgWritten w
  rw [hon, State.cfgWritten] at hen
  rw [State.obsWrite, State.writeWith_of_legal rowFind_OBS_CFG (fieldsLegal_OBS_CFG hsrc hlow hhigh) (by rw [hoff]; rfl) hlegal,
    mergeFields_OBS_CFG, if_pos rfl, hoff, hen]
  rfl

/-- A write that clears EN and repeats the rest disables the observer. -/
theorem State.obsWrite_disables {s : State} {w : Word} (hon : s.fld OBS_CFG OBS_CFG_EN = 1) (hw : w = s.reg OBS_CFG &&& 0xFFFFFFFE)
    (hsrc : OBS_CFG_SRC.get w ≤ 5) (hlow : 1 ≤ OBS_CFG_NFIRE.get w) (hhigh : OBS_CFG_NFIRE.get w ≤ 24) :
    s.obsWrite OBS_CFG w = (s.cfgWritten w).obsDisabled ∧ (s.cfgWritten w).fld OBS_CFG OBS_CFG_EN = 0 := by
  have hoff : OBS_CFG_EN.get w = 0 := hw ▸ get_en_clearEn _
  have hlegal : (s.obsLegal OBS_CFG w && s.syncLegal OBS_CFG w) = true := by rw [s.obsLegal_OBS_CFG, hoff]; rfl
  have hen := (s.en_cfgWritten w).trans hoff
  refine ⟨?_, hen⟩
  rw [State.cfgWritten] at hen
  rw [State.obsWrite, State.writeWith_of_rwcSame rowFind_OBS_CFG (hw ▸ rwcSame_OBS_CFG_clearEn _),
    State.writeWith_of_legal rowFind_OBS_CFG (fieldsLegal_OBS_CFG hsrc hlow hhigh) rfl hlegal, mergeFields_OBS_CFG, if_pos rfl, hon, hen]
  rfl

/-! ### Enabling (R103, R138) -/

theorem State.reg_obsEnabled (s : State) (k : Nat) :
    s.obsEnabled.reg k = (s.setFld OBS_FLAGS OBS_FLAGS_SRCA (s.fld OBS_CFG OBS_CFG_SRC)).reg k := rfl

theorem State.sec_obsEnabled (s : State) : s.obsEnabled.sync.sec = s.fld OBS_SCFG OBS_SCFG_SEC := rfl

/-- R103, R138: the observer is enabled in the state it has, with the configured source and secondary in force. -/
theorem obsEnable_enables {s : State} {w : Word} (hoff : s.fld OBS_CFG OBS_CFG_EN = 0) (hon : OBS_CFG_EN.get w = 1)
    (hsrc : OBS_CFG_SRC.get w ≤ 5) (hlow : 1 ≤ OBS_CFG_NFIRE.get w) (hhigh : OBS_CFG_NFIRE.get w ≤ 24)
    (hrole : s.role (OBS_CFG_SRC.get w) = 0) :
    ∃ t, exec (.obsEnable w) s = .next t ∧ t.reg OBS_CFG = (s.reg OBS_CFG &&& 0xFFFFE08C) ||| (w &&& 0x1F73)
      ∧ t.srcWheel = OBS_CFG_SRC.get w ∧ t.sync.sec = s.fld OBS_SCFG OBS_SCFG_SEC ∧ t.syncSt = s.syncSt
      ∧ s.onlyRegs { t with sync := s.sync } [OBS_CFG, OBS_FLAGS] := by
  have hreg : ∀ k, k ∉ [OBS_CFG, OBS_FLAGS] → (s.cfgWritten w).obsEnabled.reg k = s.reg k := fun k hk => by
    simp only [List.mem_cons, List.not_mem_nil, or_false, not_or] at hk
    obtain ⟨hcfg, hflags⟩ := hk
    rw [State.reg_obsEnabled, State.reg_setFld_ne _ _ _ hflags, State.cfgWritten, State.reg_setReg_ne _ _ hcfg]
  refine ⟨(s.cfgWritten w).obsEnabled, congrArg _ (State.obsWrite_enables hoff hon hsrc hlow hhigh hrole), ?_, ?_, ?_, ?_, rfl, hreg⟩
  · rw [State.reg_obsEnabled, State.reg_setFld_ne _ _ _ (by decide), State.cfgWritten, State.reg_setReg_same]
    rfl
  · rw [State.srcWheel, State.fld, State.reg_obsEnabled, State.reg_setFld_same, Fld.get_set_same _ _ _ (by decide), s.src_cfgWritten]
    exact Nat.mod_eq_of_lt (Nat.lt_of_le_of_lt hsrc (by decide))
  · rw [State.sec_obsEnabled, State.cfgWritten, State.fld_setReg_ne _ _ _ (by decide)]
  · exact congrArg OBS_STATE_SYNC.get (hreg OBS_STATE (by decide))

theorem obsEnable_refused {s : State} {w : Word} (hon : OBS_CFG_EN.get w = 1) (hrole : s.role (OBS_CFG_SRC.get w) ≠ 0) :
    ∃ t, exec (.obsEnable w) s = .next t ∧ s.writeRefused t OBS_CFG := by
  have hlegal : (s.obsLegal OBS_CFG w && s.syncLegal OBS_CFG w) = false := by
    rw [s.obsLegal_OBS_CFG, hon, beq_false_of_ne hrole]
    rfl
  refine ⟨s.refuseWrite OBS_CFG, congrArg Host.Outcome.next ?_, State.refuseWrite_refused rowFind_OBS_CFG⟩
  rw [State.obsWrite, State.writeWith_of_illegal rowFind_OBS_CFG hlegal]

/-! ### What a safe end, an abandonment and a withdrawal leave of the sync state (R163, R171, R469) -/

/-- OBS_CFG and the registers of synchronisation, from OBS_STATE to OBS_SDIFF. -/
abbrev syncReg (k : Nat) : Prop := k = OBS_CFG ∨ (0x40060200 ≤ k ∧ k < 0x40060228)

/-- OBS_CFG and the registers of synchronisation are in `t` what they are in `s`. -/
def State.SyncKept (s t : State) : Prop := ∀ k, syncReg k → t.reg k = s.reg k

namespace State.SyncKept

variable {s t u : State}

theorem refl (s : State) : s.SyncKept s := fun _ _ => rfl

theorem trans (h : s.SyncKept t) (h' : t.SyncKept u) : s.SyncKept u := fun k hk => (h' k hk).trans (h k hk)

theorem same (h : s.SyncKept t) (hreg : ∀ k, u.reg k = t.reg k := by exact fun _ => rfl) : s.SyncKept u :=
  h.trans fun k _ => hreg k

theorem ite {c : Prop} [Decidable c] (ht : s.SyncKept t) (hu : s.SyncKept u) : s.SyncKept (if c then t else u) := by
  split
  · exact ht
  · exact hu

theorem foldl {α : Type} {f : State → α → State} {l : List α} (h : s.SyncKept t) (hf : ∀ v x, s.SyncKept v → s.SyncKept (f v x)) :
    s.SyncKept (l.foldl f t) :=
  List.foldlRecOn l f h fun v hv x _ => hf v x hv

theorem setReg {k : Nat} {v : Word} (h : s.SyncKept t) (hk : ¬ syncReg k := by decide) : s.SyncKept (t.setReg k v) :=
  h.trans fun _ hj => State.reg_setReg_ne _ _ (by rintro rfl; exact hk hj)

theorem launch {i j : Island} {b : Body} (h : s.SyncKept t) : s.SyncKept (t.launch i j b) := h.same

theorem raise {evt bit : Nat} (h : s.SyncKept t) (hk : ¬ syncReg evt := by decide) : s.SyncKept (t.raise evt bit) := (h.setReg hk).launch

theorem updObs {f : Obs → Obs} (h : s.SyncKept t) : s.SyncKept (t.updObs f) := h.same

theorem updSync {f : Sync → Sync} (h : s.SyncKept t) : s.SyncKept (t.updSync f) := h.same

/-! #### Coasting and learning (R127, R128) -/

theorem countDiscard (h : s.SyncKept t) : s.SyncKept t.countDiscard := (h.setReg.setReg).launch

theorem dropPass {n : Nat} (h : s.SyncKept t) : s.SyncKept (t.dropPass n) := .ite h.updObs.countDiscard h

theorem dropPasses (h : s.SyncKept t) : s.SyncKept ((List.range 6).foldl State.dropPass t) := h.foldl fun _ _ hv => hv.dropPass

theorem coastCheck (h : s.SyncKept t) : s.SyncKept t.coastCheck := .setReg (.ite h.dropPasses h)

theorem learnLost (h : s.SyncKept t) : s.SyncKept t.learnLost := h.dropPasses.updObs

theorem unplace (h : s.SyncKept t) : s.SyncKept t.unplace := h.setReg.setReg.setReg.learnLost

/-! #### Outputs (R163, R203) -/

theorem setPin {n : Nat} {b : Bool} (h : s.SyncKept t) : s.SyncKept (t.setPin n b) := .ite h.setReg.updObs.coastCheck h.setReg

theorem updOut {c : Nat} {f : OutCh → OutCh} (h : s.SyncKept t) : s.SyncKept (t.updOut c f) := h.same fun _ => State.reg_updOut ..

theorem updCyc {n : Nat} {f : CycCh → CycCh} (h : s.SyncKept t) : s.SyncKept (t.updCyc n f) :=
  h.same fun _ => by simp only [State.reg, State.updCyc]

theorem retire {a : Action} {st dur : Nat} {start : Word} (h : s.SyncKept t) : s.SyncKept (t.retire a st start dur) :=
  h.trans fun k hk => (t.retire_frame a st start dur).2 k (by simp only [syncReg, OBS_CFG] at hk; simp only [retireReg]; omega)

theorem retirePending {p : Action → Bool} {st : Nat} (h : s.SyncKept t) : s.SyncKept (t.retirePending p st) :=
  h.foldl fun _ _ hv => .ite hv.retire hv

theorem softStart {n : Nat} (h : s.SyncKept t) : s.SyncKept (t.softStart n) := h.updOut.setReg.setReg.raise

theorem endEdge {a : Action} {te : Nat} {fast : Bool} (h : s.SyncKept t) : s.SyncKept (t.endEdge a te fast) :=
  .ite h.launch.setReg.updOut (.ite h.setReg.updOut h.setPin.updOut)

theorem endPulse {a : Action} {st : Nat} {fast : Bool} (h : s.SyncKept t) : s.SyncKept (t.endPulse a st fast) :=
  .ite (.ite h.endEdge.retire h.same) (.ite h.softStart.retire h.endEdge.retire)

theorem endActive {p : Action → Bool} {st : Nat} {fast : Bool} (h : s.SyncKept t) : s.SyncKept (t.endActive p st fast) :=
  h.foldl fun _ _ hv => .ite hv.endPulse hv

theorem safeEnd (h : s.SyncKept t) : s.SyncKept t.safeEnd := by
  unfold State.safeEnd
  extract_lets s1 s2 x
  have h1 : s.SyncKept s1 := h.endActive.retirePending
  have h2 : s.SyncKept s2 := h1.foldl fun _ _ hv => .ite hv.setPin.updCyc hv
  have hx : s.SyncKept x := h2.launch
  exact hx.same

/-! #### Echo generators (R93) -/

theorem echoLevel {k : Nat} {b : Bool} (h : s.SyncKept t) : s.SyncKept (t.echoLevel k b) := by
  have hdriven : s.SyncKept (t.echoDriven k b) := .ite (setPin h.same) h.same
  exact hdriven.same fun _ => State.reg_echoLevel ..

theorem echoFollowLow (h : s.SyncKept t) : s.SyncKept t.echoFollowLow := h.foldl fun _ _ hv => .ite hv.echoLevel.same hv

/-! #### The combustion datapath (R469, R488) -/

theorem setCoast {b : Bool} (h : s.SyncKept t) : s.SyncKept (t.setCoast b) :=
  .ite h.setReg.setReg.coastCheck h.setReg.setReg.coastCheck.raise

theorem abandonStr {c : Nat} (h : s.SyncKept t) : s.SyncKept (t.abandonStr c) := by
  unfold State.abandonStr
  extract_lets _ _ _ s1 s2
  have h1 : s.SyncKept s1 := h.same
  have h2 : s.SyncKept s2 := .setReg (.raise (h1.setReg (by simp only [syncReg, OBS_CFG, CMB_SCNT]; omega)))
  exact .ite h (.ite h2.setCoast h2)

theorem abandonAll (h : s.SyncKept t) : s.SyncKept t.abandonAll := h.foldl fun _ _ hv => hv.abandonStr

/-! #### Threads, the trace and the prediction (R105, R239, R633) -/

theorem setPendAll {k : Nat} (h : s.SyncKept t) : s.SyncKept (t.setPendAll k) :=
  h.trans fun j hj => t.reg_setPendWhere_ne _ _ _ fun n _ => by
    simp only [syncReg, OBS_CFG] at hj
    simp only [AEN_TSTAT]
    omega

theorem tracePut {on : Bool} {p : List Byte} (h : s.SyncKept t) : s.SyncKept (t.tracePut on p) :=
  h.trans fun k hk => t.reg_tracePut_ne on p (by simp only [syncReg, OBS_CFG] at hk; simp only [DBG_STAT]; omega)

theorem withdraw (h : s.SyncKept t) : s.SyncKept t.withdraw := by
  have hsrc : t.srcWheel < 2 ^ 3 := Nat.mod_lt _ (by decide)
  have hdrop : s.SyncKept (t.dropPrediction t.srcWheel) := setReg h.same (by simp only [syncReg, OBS_CFG, WHL_PRED]; omega)
  exact .setReg hdrop.updObs

end State.SyncKept

/-! ### Disabling (R165, R171) -/

/-- The record of an exit from FULL or HOLD, before the safe end (R171). -/
def State.exitRecorded (s : State) (cause : Nat) : State :=
  (((s.setFld OBS_SCAUSE OBS_SCAUSE_CAUSE cause).setFld OBS_SCAUSE OBS_SCAUSE_FROM s.syncSt).setFld OBS_SCAUSE OBS_SCAUSE_WHEEL
    s.srcWheel).setReg OBS_SLOSTA s.angW

theorem State.leaveFull_kept (s : State) (cause : Nat) : (s.exitRecorded cause).SyncKept (s.leaveFull cause) :=
  .abandonAll (.echoFollowLow (.safeEnd (.refl _)))

theorem State.cause_leaveFull (s : State) {cause : Nat} (h : cause < 16) : (s.leaveFull cause).fld OBS_SCAUSE OBS_SCAUSE_CAUSE = cause := by
  rw [State.fld, s.leaveFull_kept cause _ (.inr (by decide)), State.exitRecorded, State.reg_setReg_ne _ _ (by decide),
    State.reg_setFld_same, Fld.get_set_ne _ _ _ _ (by decide), State.reg_setFld_same, Fld.get_set_ne _ _ _ _ (by decide),
    State.reg_setFld_same, Fld.get_set_same _ _ _ (by decide)]
  exact Nat.mod_eq_of_lt h

theorem State.slosta_leaveFull (s : State) (cause : Nat) : (s.leaveFull cause).reg OBS_SLOSTA = s.angW :=
  (s.leaveFull_kept cause _ (.inr (by decide))).trans (State.reg_setReg_same _ _ _)

theorem State.cfg_leaveFull (s : State) (cause : Nat) : (s.leaveFull cause).reg OBS_CFG = s.reg OBS_CFG := by
  rw [s.leaveFull_kept cause _ (.inl rfl), State.exitRecorded, State.reg_setReg_ne _ _ (by decide), State.reg_setFld_ne _ _ _ (by decide),
    State.reg_setFld_ne _ _ _ (by decide), State.reg_setFld_ne _ _ _ (by decide)]

/-- A withdrawn placement writes of these registers OBS_STATE and OBS_SCNT alone. -/
theorem State.reg_leavePlaced (s : State) {k : Nat} (hk : syncReg k) (hstate : k ≠ OBS_STATE) (hcnt : k ≠ OBS_SCNT) :
    s.leavePlaced.reg k = s.reg k := by
  unfold State.leavePlaced
  extract_lets s1
  have hkept : ∀ f, s.SyncKept (s1.unplace.withdraw.updSync f) := fun _ => .updSync (.withdraw (.unplace (.updSync (.refl s))))
  rw [State.reg_setFld_ne _ _ _ hcnt, State.reg_setFld_ne _ _ _ hstate, State.reg_setFld_ne _ _ _ hstate, State.secReset,
    State.reg_setFld_ne _ _ _ hstate, State.reg_setFld_ne _ _ _ hstate]
  exact hkept _ k hk

/-- The placement withdrawn, behind the safe end where the state was FULL or HOLD. -/
def State.stopPrepared (s : State) (cause : Nat) : State := (if s.fires then s.leaveFull cause else s).leavePlaced

theorem State.enterSync_stop (s : State) (old cause : Nat) : s.enterSync old syncSTOP cause = s := by
  rw [State.enterSync, if_neg (by decide), if_neg (by decide), if_neg (by decide), if_neg (by decide), if_neg (by decide)]

theorem State.goSync_stop_eq {s : State} (h : s.syncSt ≠ syncSTOP) (cause : Nat) : s.goSync syncSTOP cause
    = ((((s.stopPrepared cause).setFld OBS_STATE OBS_STATE_SYNC syncSTOP).coastCheck).setPendAll pdSYNC).traceSync := by
  have hends : (if (s.syncSt = syncFULL ∨ s.syncSt = syncHOLD) ∧ (syncSTOP = syncSTOP ∨ syncSTOP = syncLOST ∨ syncSTOP = syncREVERSE)
      then s.leaveFull cause else s) = if s.fires then s.leaveFull cause else s :=
    if_congr (by simp [State.fires]) rfl rfl
  rw [State.goSync, if_neg h.symm]
  dsimp only
  rw [hends, if_pos (Or.inl rfl), State.enterSync_stop, State.stopPrepared]

theorem State.goSync_stop_kept {s : State} (h : s.syncSt ≠ syncSTOP) (cause : Nat) :
    ((s.stopPrepared cause).setFld OBS_STATE OBS_STATE_SYNC syncSTOP).SyncKept (s.goSync syncSTOP cause) := by
  rw [State.goSync_stop_eq h]
  exact .tracePut (.setPendAll (.coastCheck (.refl _)))

theorem State.syncSt_goSync_stop (s : State) (cause : Nat) : (s.goSync syncSTOP cause).syncSt = 0 := by
  by_cases h : s.syncSt = syncSTOP
  · rw [State.goSync, if_pos h.symm, h]
  · rw [State.syncSt, State.fld, State.goSync_stop_kept h cause _ (.inr (by decide)), State.reg_setFld_same]
    exact Fld.get_set_same _ _ _ (by decide)

/-- OBS_CFG and the record of the exit through a change into STOP. -/
theorem State.reg_goSync_stop {s : State} (h : s.syncSt ≠ syncSTOP) (cause : Nat) {k : Nat} (hk : syncReg k) (hstate : k ≠ OBS_STATE)
    (hcnt : k ≠ OBS_SCNT) : (s.goSync syncSTOP cause).reg k = (if s.fires then s.leaveFull cause else s).reg k := by
  rw [State.goSync_stop_kept h cause _ hk, State.reg_setFld_ne _ _ _ hstate, State.stopPrepared, State.reg_leavePlaced _ hk hstate hcnt]

theorem State.cfg_goSync_stop (s : State) (cause : Nat) : (s.goSync syncSTOP cause).reg OBS_CFG = s.reg OBS_CFG := by
  by_cases h : s.syncSt = syncSTOP
  · rw [State.goSync, if_pos h.symm]
  · rw [State.reg_goSync_stop h cause (.inl rfl) (by decide) (by decide)]
    split
    · exact s.cfg_leaveFull cause
    · rfl

theorem State.reg_goSync_stop_of_fires {s : State} (h : s.fires = true) (cause : Nat) {k : Nat} (hk : syncReg k) (hstate : k ≠ OBS_STATE)
    (hcnt : k ≠ OBS_SCNT) : (s.goSync syncSTOP cause).reg k = (s.leaveFull cause).reg k := by
  have hst : s.syncSt ≠ syncSTOP := by
    intro hst
    rw [State.fires, hst] at h
    cases h
  rw [State.reg_goSync_stop hst cause hk hstate hcnt, if_pos h]

theorem State.withdraw_kept (s : State) : s.SyncKept s.withdraw := .withdraw (.refl s)

theorem State.obsDisabled_stops (s : State) : s.obsDisabled.reg OBS_CFG = s.reg OBS_CFG ∧ s.obsDisabled.syncSt = 0
    ∧ s.obsDisabled.obs.pred = none ∧ s.obsDisabled.obs.hist = [] ∧ s.obsDisabled.fld OBS_FLAGS OBS_FLAGS_PRED = 0 := by
  refine ⟨?_, ?_, rfl, rfl, State.fld_setFld_same _ _ _ _ (by decide)⟩
  · exact ((s.goSync syncSTOP caDISABLED).withdraw_kept _ (.inl rfl)).trans (s.cfg_goSync_stop _)
  · exact (congrArg OBS_STATE_SYNC.get ((s.goSync syncSTOP caDISABLED).withdraw_kept _ (.inr (by decide)))).trans
      (s.syncSt_goSync_stop caDISABLED)

theorem State.obsDisabled_records {s : State} (h : s.fires = true) :
    s.obsDisabled.fld OBS_SCAUSE OBS_SCAUSE_CAUSE = 8 ∧ s.obsDisabled.reg OBS_SLOSTA = s.angW := by
  have hreg : ∀ k, syncReg k → k ≠ OBS_STATE → k ≠ OBS_SCNT → s.obsDisabled.reg k = (s.leaveFull caDISABLED).reg k :=
    fun k hk hstate hcnt => ((s.goSync syncSTOP caDISABLED).withdraw_kept k hk).trans
      (State.reg_goSync_stop_of_fires h caDISABLED hk hstate hcnt)
  rw [State.fld, hreg _ (.inr (by decide)) (by decide) (by decide), hreg _ (.inr (by decide)) (by decide) (by decide)]
  exact ⟨s.cause_leaveFull (by decide), s.slosta_leaveFull caDISABLED⟩

/-- R165: disabled, the observer is in STOP with no prediction; an exit from FULL or HOLD leaves its cause and the angle. -/
theorem obsDisable_disables {s : State} {w : Word} (hon : s.fld OBS_CFG OBS_CFG_EN = 1) (hw : w = s.reg OBS_CFG &&& 0xFFFFFFFE)
    (hsrc : OBS_CFG_SRC.get w ≤ 5) (hlow : 1 ≤ OBS_CFG_NFIRE.get w) (hhigh : OBS_CFG_NFIRE.get w ≤ 24) :
    ∃ t, exec (.obsDisable w) s = .next t ∧ t.fld OBS_CFG OBS_CFG_EN = 0 ∧ t.syncSt = 0
      ∧ t.obs.pred = none ∧ t.obs.hist = [] ∧ t.fld OBS_FLAGS OBS_FLAGS_PRED = 0
      ∧ (s.fires = true → t.fld OBS_SCAUSE OBS_SCAUSE_CAUSE = 8 ∧ t.reg OBS_SLOSTA = s.angW) := by
  obtain ⟨hwrite, hen⟩ := State.obsWrite_disables hon hw hsrc hlow hhigh
  obtain ⟨hcfg, hst, hpred, hhist, hflag⟩ := (s.cfgWritten w).obsDisabled_stops
  refine ⟨(s.cfgWritten w).obsDisabled, congrArg Host.Outcome.next hwrite, (congrArg OBS_CFG_EN.get hcfg).trans hen, hst, hpred, hhist,
    hflag, fun hfires => ?_⟩
  have hsync : (s.cfgWritten w).syncSt = s.syncSt := State.fld_setReg_ne s _ _ (by decide)
  have hfires' : (s.cfgWritten w).fires = true := by rwa [State.fires, hsync]
  exact State.obsDisabled_records hfires'

end Sys2Proof.Machine

open Sys2Proof.Machine

/-- Settles O25: each command is run on its own. A safe end, the abandoned records and the withdrawn prediction leave OBS_CFG and the
registers of synchronisation alone, and each trim's turn at a cycle boundary leaves every other trim alone. -/
theorem angleObserver : Obligations.AngleObserver := by
  refine ⟨⟨fun s => ⟨exec_provisionalPrediction_idle, fun r htref hprov hhist hplaced hen => ?_⟩,
      fun s => ⟨ceil_holds, exec_ceil_idle⟩, fun s => ⟨fun hplaced hcycle => ?_, exec_cycleBoundary_idle⟩⟩,
    obsAngRead_answers, fun m s => ⟨obsClrFact_clears, obsClrFact_refused⟩, fun s => ⟨obsClrTors_clears, obsClrTors_refused⟩,
    obsClrJmax_clears, fun s w hoff hon hsrc hlow hhigh => ⟨obsEnable_enables hoff hon hsrc hlow hhigh, obsEnable_refused hon⟩,
    fun s w => obsDisable_disables⟩
  · intro n u v hword
    exact provisionalPrediction_continues htref hprov hhist hplaced hen hword
  · obtain ⟨t, hexec, hcount, hmem, hang, htrims⟩ := cycleBoundary_renews hplaced hcycle
    exact ⟨t, hexec, hcount, hmem, hang, htrims⟩

end

section
/-! PROOFS. What the outputs, the calendar, the trims, the echo generators, the combustion datapath and the threads leave of
synchronisation, of the angle word and of the actions that wait when a change of the sync state reaches them (R139, R140, R163, R203). -/

namespace Sys2Proof.Machine

/-! ### The actions of the calendar and its stages -/

/-- The actions that are not retired. -/
def State.actions (s : State) : List Action := s.calq ++ s.stage

/-- An action that has not started: it waits, or is held back (R188). -/
def Action.Pends (a : Action) : Prop := a.place = .waiting ∨ a.place = .held

/-- What follows every change of the sync state: coasting is evaluated, the threads' SYNC bits are set, the trace is told. -/
def State.syncTold (s : State) : State := (s.coastCheck.setPendAll pdSYNC).traceSync

/-- `t` has synchronisation and the angle word of `s`, and no action waits in it that is not an action of `s`. -/
structure State.AngleFrame (s t : State) : Prop where
  sync : t.sync = s.sync
  ang : t.obs.ang = s.obs.ang
  pending : ∀ a ∈ t.actions, a.Pends → a ∈ s.actions

theorem State.LearnDiffers.ang {s t : State} (h : s.LearnDiffers t) : t.obs.ang = s.obs.ang := by rw [h]

theorem State.LearnDiffers.pred {s t : State} (h : s.LearnDiffers t) : t.obs.pred = s.obs.pred := by rw [h]

/-- The entry of an action freed with its final status (R177). -/
def State.freed (s : State) (a : Action) (st : Nat) : State :=
  { s with
    calq := s.calq.filter fun b => b.idx != a.idx
    stage := s.stage.filter fun b => b.idx != a.idx
    calEnt := tabSet (fun _ => {}) s.calEnt a.idx { gen := a.gen, st := st, used := true } }

theorem State.mem_actions_freed {s : State} {a b : Action} {st : Nat} (h : b ∈ (s.freed a st).actions) :
    b ∈ s.actions ∧ b.idx ≠ a.idx := by
  rw [State.actions, State.freed, ← List.filter_append, List.mem_filter, bne_iff_ne] at h
  exact h

namespace State.AngleFrame

variable {s t u : State}

theorem refl (s : State) : s.AngleFrame s := ⟨rfl, rfl, fun _ ha _ => ha⟩

theorem trans (h : s.AngleFrame t) (h' : t.AngleFrame u) : s.AngleFrame u :=
  ⟨h'.sync.trans h.sync, h'.ang.trans h.ang, fun a ha hp => h.pending a (h'.pending a ha hp) hp⟩

/-- A change of anything else. -/
theorem same (h : s.AngleFrame t) (hsync : u.sync = t.sync := by rfl) (hang : u.obs.ang = t.obs.ang := by rfl)
    (hcalq : u.calq = t.calq := by rfl) (hstage : u.stage = t.stage := by rfl) : s.AngleFrame u :=
  h.trans ⟨hsync, hang, fun _ ha _ => by rwa [State.actions, hcalq, hstage] at ha⟩

theorem ite {c : Prop} [Decidable c] (ht : s.AngleFrame t) (hu : s.AngleFrame u) : s.AngleFrame (if c then t else u) := by
  split
  · exact ht
  · exact hu

theorem foldl {α : Type} {f : State → α → State} {l : List α} (h : s.AngleFrame t)
    (hf : ∀ v x, s.AngleFrame v → s.AngleFrame (f v x)) : s.AngleFrame (l.foldl f t) :=
  List.foldlRecOn l f h fun v hv x _ => hf v x hv

theorem ofObs (h : s.AngleFrame t) (ho : t.ObsFrame u) (hang : u.obs.ang = t.obs.ang) : s.AngleFrame u :=
  h.same (by rw [ho.eq]) hang (by rw [ho.eq]) (by rw [ho.eq])

theorem setReg {k : Nat} {v : Word} (h : s.AngleFrame t) : s.AngleFrame (t.setReg k v) := h.same

theorem launch {i j : Island} {b : Body} (h : s.AngleFrame t) : s.AngleFrame (t.launch i j b) := h.same

theorem raise {evt bit : Nat} (h : s.AngleFrame t) : s.AngleFrame (t.raise evt bit) := h.same

theorem wrBytes {a : Nat} {l : List Byte} (h : s.AngleFrame t) : s.AngleFrame (t.wrBytes a l) := by
  induction l generalizing a t with
  | nil => exact h
  | cons b l ih => exact ih (a := a + 1) (h.same (u := t.wr8 a b))

theorem budDraw {acct : Option Nat} {r n : Nat} (h : s.AngleFrame t) : s.AngleFrame (t.budDraw acct r n) :=
  h.same (State.budDraw_sync _ _ _ _) (congrArg Obs.ang (State.budDraw_obs _ _ _ _)) (State.budDraw_calq _ _ _ _)
    (State.budDraw_stage _ _ _ _)

/-! #### Threads, queues and the trace -/

theorem setPendWhere {k n : Nat} {p : Nat → Bool} (h : s.AngleFrame t) : s.AngleFrame (t.setPendWhere k p n) := by
  induction n with
  | zero => exact h
  | succ n ih => exact .ite ih.setReg ih

theorem syncQueue {q : Nat} (h : s.AngleFrame t) : s.AngleFrame (t.syncQueue q) := .ite h (h.foldl fun _ _ hv => hv.setPendWhere)

theorem qRefuse {q : Nat} (h : s.AngleFrame t) : s.AngleFrame (t.qRefuse q) := h.setReg.raise

theorem qput {q : Nat} {e : List Byte} (h : s.AngleFrame t) : s.AngleFrame (t.qput q e).1 := by
  unfold State.qput
  split
  · exact h.qRefuse
  · split
    · exact h.qRefuse
    · exact h.wrBytes.setReg.setReg.syncQueue

theorem tracePut {on : Bool} {p : List Byte} (h : s.AngleFrame t) : s.AngleFrame (t.tracePut on p) := by
  unfold State.tracePut
  refine .ite h ?_
  split
  · exact h.same
  · exact .ite h.same h.same

/-! #### Coasting (R127) -/

theorem coastCheck (h : s.AngleFrame t) : s.AngleFrame t.coastCheck :=
  h.ofObs (.coastCheck (.refl t)) (State.LearnDiffers.coastCheck t).ang

theorem fuelled (h : s.AngleFrame t) : s.AngleFrame t.fuelled := coastCheck h.same

/-! #### Outputs (R163, R177, R203) -/

theorem setPin {n : Nat} {b : Bool} (h : s.AngleFrame t) : s.AngleFrame (t.setPin n b) := .ite h.setReg.fuelled h.setReg

theorem updOut {c : Nat} {f : OutCh → OutCh} (h : s.AngleFrame t) : s.AngleFrame (t.updOut c f) := by
  refine h.same ?_ ?_ ?_ ?_ <;> simp only [State.updOut]

theorem updCyc {n : Nat} {f : CycCh → CycCh} (h : s.AngleFrame t) : s.AngleFrame (t.updCyc n f) := by
  refine h.same ?_ ?_ ?_ ?_ <;> simp only [State.updCyc]

/-- A released action that comes to end does not wait. -/
theorem updStage {i : Nat} {f : Action → Action} (h : s.AngleFrame t) (hf : ∀ a, (f a).place = .ending) :
    s.AngleFrame (t.updStage i f) := by
  refine h.trans ⟨rfl, rfl, fun a ha hp => ?_⟩
  rcases List.mem_append.mp ha with hcal | hstage
  · exact List.mem_append_left _ hcal
  · obtain ⟨b, hb, rfl⟩ := List.mem_map.mp hstage
    split at hp
    · rw [Action.Pends, hf] at hp
      simp at hp
    · next hi =>
      rw [if_neg hi]
      exact List.mem_append_right _ hb

theorem countStatus {st : Nat} (h : s.AngleFrame t) : s.AngleFrame (t.countStatus st) :=
  .ite h.setReg.raise (.ite h.setReg.raise (.ite h.setReg.raise h))

theorem putRecord {a : Action} {st dur : Nat} {start : Word} (h : s.AngleFrame t) : s.AngleFrame (t.putRecord a st start dur) :=
  .ite (.ite h.budDraw.qput h.budDraw.qput.setReg.raise) h

theorem freed {a : Action} {st : Nat} (h : s.AngleFrame t) : s.AngleFrame (t.freed a st) :=
  h.trans ⟨rfl, rfl, fun _ hb _ => (State.mem_actions_freed hb).1⟩

/-- Beside freeing its entry a retirement only counts and reports. -/
theorem ofFreed (s : State) (a : Action) (st : Nat) (start : Word) (dur : Nat) : (s.freed a st).AngleFrame (s.retire a st start dur) := by
  have h2 : (s.freed a st).AngleFrame
      (((s.freed a st).setFld CAL_USED ⟨0, 18⟩ ((s.freed a st).fld CAL_USED ⟨0, 18⟩ - 1)).countStatus st) :=
    .countStatus (.setReg (.refl _))
  exact .putRecord (.ite (setReg (.ite h2.raise h2)) (.ite h2.raise h2))

theorem retire {a : Action} {st dur : Nat} {start : Word} (h : s.AngleFrame t) : s.AngleFrame (t.retire a st start dur) :=
  h.freed.trans (.ofFreed t a st start dur)

theorem retirePending {p : Action → Bool} {st : Nat} (h : s.AngleFrame t) : s.AngleFrame (t.retirePending p st) :=
  h.foldl fun _ _ hv => .ite hv.retire hv

theorem softStart {n : Nat} (h : s.AngleFrame t) : s.AngleFrame (t.softStart n) := h.updOut.setReg.setReg.raise

theorem endEdge {a : Action} {te : Nat} {fast : Bool} (h : s.AngleFrame t) : s.AngleFrame (t.endEdge a te fast) :=
  .ite h.launch.setReg.updOut (.ite h.setReg.updOut h.setPin.updOut)

theorem endPulse {a : Action} {st : Nat} {fast : Bool} (h : s.AngleFrame t) : s.AngleFrame (t.endPulse a st fast) :=
  .ite (.ite h.endEdge.retire (h.updStage fun _ => rfl)) (.ite h.softStart.retire h.endEdge.retire)

theorem endActive {p : Action → Bool} {st : Nat} {fast : Bool} (h : s.AngleFrame t) : s.AngleFrame (t.endActive p st fast) :=
  h.foldl fun _ _ hv => .ite hv.endPulse hv

/-- Once the pulses have ended and everything pending has retired, a safe end only drives pins and tells the drive island. -/
theorem ofSafeEnd (s : State) :
    ((s.endActive (fun _ => true) stSYNCLOST true).retirePending (fun _ => true) stSYNCLOST).AngleFrame s.safeEnd := by
  unfold State.safeEnd
  extract_lets s1 s2 x
  have h2 : s1.AngleFrame s2 := (refl s1).foldl fun _ _ hv => .ite hv.setPin.updCyc hv
  have hx : s1.AngleFrame x := h2.launch
  exact hx.same

theorem safeEnd (h : s.AngleFrame t) : s.AngleFrame t.safeEnd := h.endActive.retirePending.trans (.ofSafeEnd t)

/-! #### Echo generators (R93) -/

theorem echoLevel {k : Nat} {b : Bool} (h : s.AngleFrame t) : s.AngleFrame (t.echoLevel k b) := by
  have hdriven : s.AngleFrame (t.echoDriven k b) := .ite (setPin h.same) h.same
  have hsees : s.AngleFrame ((t.echoDriven k b).wheelsSee k b) := by
    rw [State.wheelsSee_eq]
    exact hdriven.same
  exact .ite hsees hsees.same

theorem echoFollowLow (h : s.AngleFrame t) : s.AngleFrame t.echoFollowLow := h.foldl fun _ _ hv => .ite hv.echoLevel.same hv

theorem echoFollowFrom (h : s.AngleFrame t) : s.AngleFrame t.echoFollowFrom := h.foldl fun _ _ hv => .ite hv.same hv

/-! #### The combustion datapath and the trims (R303, R469, R488) -/

theorem setCoast {b : Bool} (h : s.AngleFrame t) : s.AngleFrame (t.setCoast b) :=
  .ite h.setReg.setReg.coastCheck h.setReg.setReg.coastCheck.raise

theorem abandonStr {c : Nat} (h : s.AngleFrame t) : s.AngleFrame (t.abandonStr c) := by
  unfold State.abandonStr
  extract_lets _ _ _ s1 s2
  have h1 : s.AngleFrame s1 := h.same
  have h2 : s.AngleFrame s2 := h1.setReg.raise.setReg
  exact .ite h (.ite h2.setCoast h2)

theorem abandonAll (h : s.AngleFrame t) : s.AngleFrame t.abandonAll := h.foldl fun _ _ hv => hv.abandonStr

theorem trimBoundary {n : Nat} (h : s.AngleFrame t) : s.AngleFrame (t.trimBoundary n) := by
  rw [State.trimBoundary_eq]
  exact h.same

/-! #### The end of a change of the sync state (R127, R239, R633) -/

theorem syncTold (h : s.AngleFrame t) : s.AngleFrame t.syncTold := h.coastCheck.setPendWhere.tracePut

end State.AngleFrame

/-! ### Loops that retire (R140, R163) -/

/-- A loop whose turn of an action that satisfies `q` retires it leaves none of those it has come to. -/
theorem State.mem_actions_foldl {a : Action} {q : Prop} {f : State → Action → State} {l : List Action} {s : State}
    (hf : ∀ t b, a ∈ (f t b).actions → a ∈ t.actions ∧ (a = b → ¬ q)) (ha : a ∈ (l.foldl f s).actions) :
    a ∈ s.actions ∧ (a ∈ l → ¬ q) := by
  induction l generalizing s with
  | nil => exact ⟨ha, fun hmem => absurd hmem List.not_mem_nil⟩
  | cons b l ih =>
    obtain ⟨hturn, hl⟩ := ih ha
    obtain ⟨hs, hb⟩ := hf s b hturn
    exact ⟨hs, fun hmem => (List.mem_cons.mp hmem).elim hb hl⟩

theorem State.mem_actions_retire {s : State} {a b : Action} {st dur : Nat} {start : Word} (hp : a.Pends)
    (ha : a ∈ (s.retire b st start dur).actions) : a ∈ s.actions ∧ a ≠ b := by
  obtain ⟨hmem, hidx⟩ := State.mem_actions_freed ((AngleFrame.ofFreed s b st start dur).pending a ha hp)
  exact ⟨hmem, fun hab => hidx (congrArg Action.idx hab)⟩

/-- Nothing waits once everything pending has retired. -/
theorem State.not_pends_retirePending (s : State) (st : Nat) : ∀ a ∈ (s.retirePending (fun _ => true) st).actions, ¬ a.Pends := by
  intro a ha hp
  have hpending : (a.place == .waiting || a.place == .held) = true := by rcases hp with h | h <;> rw [h] <;> rfl
  obtain ⟨hmem, hgone⟩ := State.mem_actions_foldl (q := True) (fun t b hb => by
    split at hb
    · exact ⟨(State.mem_actions_retire hp hb).1, fun hab => absurd hab (State.mem_actions_retire hp hb).2⟩
    · next hnot =>
      refine ⟨hb, ?_⟩
      rintro rfl
      exact absurd hpending hnot) ha
  exact hgone (List.mem_append.mpr (List.mem_append.mp hmem).symm) trivial

/-- R163: a safe end leaves nothing waiting. -/
theorem State.not_pends_safeEnd (s : State) : ∀ a ∈ s.safeEnd.actions, ¬ a.Pends := fun a ha hp =>
  State.not_pends_retirePending _ _ a ((AngleFrame.ofSafeEnd s).pending a ha hp) hp

/-- The actions held before an entry into FULL whose angle lies at or before its first angle word (R140). -/
def State.heldBack (s : State) : List Action := (s.calq ++ s.stage).filter fun a => wReached s.angW a.w0 && a.place == .waiting

/-- They retire (R140). -/
def State.heldRetired (s : State) : State := s.heldBack.foldl (fun t a => t.retire a stWITHHELD 0 0) s

theorem State.calendarFull_eq (s : State) : s.calendarFull
    = { (if s.heldBack.isEmpty then s.heldRetired else s.heldRetired.raise OBS_SEVT OBS_SEVT_WITHHELD) with
        walked := some (walkEnd s.angW), cyc := Vector.replicate 16 { setFrom := s.angW, clrFrom := s.angW } } := rfl

theorem State.AngleFrame.ofHeldRetired (s : State) : s.heldRetired.AngleFrame s.calendarFull := by
  rw [State.calendarFull_eq]
  exact State.AngleFrame.same (.ite (.refl _) (.raise (.refl _)))

theorem State.AngleFrame.calendarFull {s t : State} (h : s.AngleFrame t) : s.AngleFrame t.calendarFull :=
  .trans (h.foldl fun _ _ hv => hv.retire) (.ofHeldRetired t)

/-- R140: what waits after an entry into FULL lies ahead of its first angle word. -/
theorem State.ahead_of_mem_calendarFull (s : State) {a : Action} (ha : a ∈ s.calendarFull.actions) (hwait : a.place = .waiting) :
    wReached s.angW a.w0 = false := by
  obtain ⟨hmem, hgone⟩ := State.mem_actions_foldl (q := True) (fun t b hb =>
    ⟨(State.mem_actions_retire (.inl hwait) hb).1, fun hab => absurd hab (State.mem_actions_retire (.inl hwait) hb).2⟩)
    ((AngleFrame.ofHeldRetired s).pending a ha (.inl hwait))
  by_contra hreached
  exact hgone (List.mem_filter.mpr ⟨hmem, by rw [Bool.not_eq_false] at hreached; rw [hreached, hwait]; rfl⟩) trivial

end Sys2Proof.Machine

end

section
/-! PROOFS. Changes of the sync state (R138 to R140, R150, R155, R163, R165, R171): what each change ends with, then the entries into
FULL, LOST, SEEK and HOLD. -/

namespace Sys2Proof.Machine

/-! ### What every change ends with (R127, R239, R633) -/

theorem State.tracePut_eq (s : State) (on : Bool) (p : List Byte) :
    s.tracePut on p = { s with regs := (s.tracePut on p).regs, dbg := (s.tracePut on p).dbg } := by
  unfold State.tracePut
  split
  · rfl
  · split
    · rfl
    · split <;> rfl

theorem State.syncTold_eq (s : State) : s.syncTold = { s with
    regs := s.syncTold.regs, inflight := s.coastCheck.inflight, obs := s.coastCheck.obs, dbg := s.syncTold.dbg } := by
  have hcoast : s.ObsFrame s.coastCheck := .coastCheck (.refl s)
  have hpend : s.coastCheck.RegsDiffer (s.coastCheck.setPendAll pdSYNC) := .setPendWhere _ _ _ _
  have htrace : s.syncTold = { s.coastCheck.setPendAll pdSYNC with regs := s.syncTold.regs, dbg := s.syncTold.dbg } :=
    State.tracePut_eq _ _ _
  rw [htrace, hpend, hcoast.eq]

/-- Memory, the calendar and its stages. -/
def State.stores (s : State) : List Host.Cell × List Action × List Action := (s.mem, s.calq, s.stage)

theorem State.actions_of_stores {s t : State} (h : t.stores = s.stores) : t.actions = s.actions :=
  congrArg (fun x : List Host.Cell × List Action × List Action => x.2.1 ++ x.2.2) h

theorem State.ObsFrame.stores {s t : State} (h : s.ObsFrame t) : t.stores = s.stores := by
  rw [h.eq]
  rfl

@[simp] theorem State.stores_setReg (s : State) (k : Nat) (v : Word) : (s.setReg k v).stores = s.stores := rfl
@[simp] theorem State.stores_setFld (s : State) (k : Nat) (f : Fld) (v : Nat) : (s.setFld k f v).stores = s.stores := rfl
@[simp] theorem State.stores_raise (s : State) (evt bit : Nat) : (s.raise evt bit).stores = s.stores := rfl
@[simp] theorem State.stores_updSync (s : State) (f : Sync → Sync) : (s.updSync f).stores = s.stores := rfl
@[simp] theorem State.stores_updObs (s : State) (f : Obs → Obs) : (s.updObs f).stores = s.stores := rfl
@[simp] theorem State.stores_updWhl (s : State) (n : Nat) (f : Whl → Whl) : (s.updWhl n f).stores = s.stores := rfl

@[simp] theorem State.stores_withdraw (s : State) : s.withdraw.stores = s.stores := by simp [State.withdraw, State.dropPrediction]

@[simp] theorem State.stores_secReset (s : State) : s.secReset.stores = s.stores := by simp [State.secReset]

theorem State.stores_syncTold (s : State) : s.syncTold.stores = s.stores := by
  rw [s.syncTold_eq]
  rfl

theorem State.sync_syncTold (s : State) : s.syncTold.sync = s.sync := by rw [s.syncTold_eq]

/-- The observer's part but for its learning. -/
theorem State.LearnDiffers.syncTold (s : State) : s.LearnDiffers s.syncTold := by
  have hobs : s.syncTold.obs = s.coastCheck.obs := by rw [s.syncTold_eq]
  have hlearn : s.coastCheck.obs = { s.obs with learn := s.coastCheck.obs.learn } := LearnDiffers.coastCheck s
  rw [State.LearnDiffers, hobs]
  exact hlearn

theorem State.angW_syncTold (s : State) : s.syncTold.angW = s.angW :=
  congrArg (fun a : BitVec 56 => a.extractLsb' 24 32) (LearnDiffers.syncTold s).ang

theorem State.syncTold_kept (s : State) : s.SyncKept s.syncTold := .tracePut (.setPendAll (.coastCheck (.refl s)))

/-- Passes are discarded with a count and an event (R128). -/
theorem State.reg_dropPasses (s : State) {k : Nat} (hcnt : k ≠ OBS_LCNT) (hevt : k ≠ OBS_EVT) :
    ((List.range 6).foldl State.dropPass s).reg k = s.reg k := by
  refine List.foldlRecOn _ _ (motive := fun t : State => t.reg k = s.reg k) rfl fun t ht n _ => ?_
  unfold State.dropPass
  split
  · rw [State.countDiscard, State.reg_raise_ne _ _ hevt, State.count, State.reg_setFld_ne _ _ _ hcnt]
    exact ht
  · exact ht

/-- Of OBS_FLAGS only COAST changes. -/
theorem State.fld_flags_syncTold (s : State) {f : Fld} (hf : f.lo + f.w ≤ 2 ∨ 3 ≤ f.lo) :
    s.syncTold.fld OBS_FLAGS f = s.fld OBS_FLAGS f := by
  have hpend : (s.coastCheck.setPendAll pdSYNC).reg OBS_FLAGS = s.coastCheck.reg OBS_FLAGS :=
    State.reg_setPendWhere_ne _ _ _ _ fun n _ => AEN_TSTAT_ne_of_lt (by decide) n
  have hcoast : s.coastCheck.fld OBS_FLAGS f = s.fld OBS_FLAGS f := by
    unfold State.coastCheck
    extract_lets c s1
    have h1 : s1.reg OBS_FLAGS = s.reg OBS_FLAGS := by
      unfold s1
      split
      · exact s.reg_dropPasses (by decide) (by decide)
      · rfl
    rw [State.fld, State.reg_setFld_same, Fld.get_set_ne OBS_FLAGS_COAST f _ _ hf.symm, h1, State.fld]
  rw [State.fld, State.syncTold, State.traceSync, State.reg_tracePut_ne _ _ _ (by decide), hpend, ← State.fld, hcoast]

theorem State.pend_syncTold (s : State) (n : Fin 64) : (s.syncTold.pend n).testBit 0 = true := by
  have hset := s.coastCheck.testBit_pend_setPendWhere (k := 0) (b := 0) (fun _ => true) 64 n (by decide) (by decide)
  rw [State.testBit_pend _ _ (by decide), decide_eq_true n.isLt] at hset
  rw [State.testBit_pend _ _ (by decide), State.syncTold, State.traceSync,
    State.reg_tracePut_ne _ _ _ (by simp only [AEN_TSTAT, DBG_STAT]; omega)]
  exact hset.trans (by simp)

/-- What is in flight stays in flight. -/
theorem State.mem_inflight_syncTold {s : State} {x : Item} (h : x ∈ s.inflight) : x ∈ s.syncTold.inflight := by
  have hdrop : x ∈ ((List.range 6).foldl State.dropPass s).inflight := by
    refine List.foldlRecOn _ _ (motive := fun t : State => x ∈ t.inflight) h fun t ht n _ => ?_
    unfold State.dropPass
    split
    · exact List.mem_append_left _ ht
    · exact ht
  have hcoast : x ∈ s.coastCheck.inflight := by
    unfold State.coastCheck
    extract_lets c s1
    change x ∈ s1.inflight
    unfold s1
    split
    · exact hdrop
    · exact h
  rw [s.syncTold_eq]
  exact hcoast

/-! ### A change of the state, by the state entered (R165) -/

/-- The loss is counted and reported (R155, R171). -/
def State.lossReported (s : State) (cause : Nat) : State :=
  ((s.count OBS_SCNT OBS_SCNT_LOST 1).raise OBS_SEVT OBS_SEVT_LOST).sendFault blkOBS 0 0x10 clsU cause

/-- LOST entered and reported. -/
def State.lossEntered (s : State) (cause : Nat) : State :=
  ((s.setFld OBS_STATE OBS_STATE_SYNC syncLOST).lossReported cause).syncTold

theorem State.enterSync_lost (s : State) (old cause : Nat) : s.enterSync old syncLOST cause = s.lossReported cause := by
  rw [State.enterSync, if_neg (by decide), if_neg (by decide), if_neg (by decide), if_pos rfl]
  rfl

theorem State.enterSync_seek (s : State) (old cause : Nat) : s.enterSync old syncSEEK cause = s := by
  rw [State.enterSync, if_neg (by decide), if_neg (by decide), if_neg (by decide), if_neg (by decide), if_neg (by decide)]

theorem State.enterSync_hold (s : State) (old cause : Nat) : s.enterSync old syncHOLD cause = s.raise OBS_SEVT OBS_SEVT_HOLD := by
  rw [State.enterSync, if_neg (by decide), if_pos rfl]

/-- Into a placed state nothing is withdrawn. -/
theorem State.goSync_stays {s : State} {new : Nat} (h : new ≠ s.syncSt) (hnew : new = syncFULL ∨ new = syncHOLD) (cause : Nat) :
    s.goSync new cause = ((s.setFld OBS_STATE OBS_STATE_SYNC new).enterSync s.syncSt new cause).syncTold := by
  unfold State.goSync
  extract_lets old ends s1 s2 s3
  have h1 : s1 = s := if_neg fun hends => by rcases hnew with rfl | rfl <;> exact absurd hends.2 (by decide)
  have h2 : s2 = s := (if_neg (by rcases hnew with rfl | rfl <;> decide)).trans h1
  rw [if_neg h]
  change ((s2.setFld OBS_STATE OBS_STATE_SYNC new).enterSync s.syncSt new cause).syncTold = _
  rw [h2]

/-- From FULL or HOLD into LOST the safe end comes first, then the placement is withdrawn. -/
theorem State.goSync_lost {s : State} (h : s.fires = true) (cause : Nat) : s.goSync syncLOST cause
    = (s.leaveFull cause).leavePlaced.lossEntered cause := by
  have hst : s.syncSt = syncFULL ∨ s.syncSt = syncHOLD := by simpa [State.fires] using h
  unfold State.goSync
  extract_lets old ends s1 s2 s3
  have h1 : s1 = s.leaveFull cause := if_pos ⟨hst, .inr (.inl rfl)⟩
  have h2 : s2 = s1.leavePlaced := if_pos (.inr (.inr (.inl rfl)))
  rw [if_neg (by rcases hst with hfull | hhold <;> simp [old, *]), State.enterSync_lost]
  change s2.lossEntered cause = _
  rw [h2, h1]

theorem State.goSync_seek {s : State} (h : s.syncSt = syncLOST) (cause : Nat) :
    s.goSync syncSEEK cause = (s.leavePlaced.setFld OBS_STATE OBS_STATE_SYNC syncSEEK).syncTold := by
  unfold State.goSync
  extract_lets old ends s1 s2 s3
  have h1 : s1 = s := if_neg fun hends => by
    rcases hends.1 with hfull | hhold
    · exact absurd (h.symm.trans hfull) (by decide)
    · exact absurd (h.symm.trans hhold) (by decide)
  have h2 : s2 = s1.leavePlaced := if_pos (.inr (.inl rfl))
  rw [if_neg fun hold => absurd (hold.trans h) (by decide), State.enterSync_seek]
  change (s2.setFld OBS_STATE OBS_STATE_SYNC syncSEEK).syncTold = _
  rw [h2, h1]

/-! ### The placement withdrawn (R105, R138) -/

theorem State.ObsFrame.unplace (s : State) : s.ObsFrame s.unplace := by
  unfold State.unplace State.learnLost
  exact .updObs (.dropPasses (.setReg (.setReg (.setReg (.refl s)))))

@[simp] theorem State.stores_unplace (s : State) : s.unplace.stores = s.stores := (State.ObsFrame.unplace s).stores

theorem State.stores_leavePlaced (s : State) : s.leavePlaced.stores = s.stores := by simp [State.leavePlaced]

theorem State.sync_unplace (s : State) : s.unplace.sync = s.sync := by rw [(State.ObsFrame.unplace s).eq]

theorem State.sync_withdraw (s : State) : s.withdraw.sync = s.sync := rfl

theorem State.phErr_secReset (s : State) : s.secReset.sync.phErr = s.sync.phErr := rfl

theorem State.phErr_leavePlaced (s : State) : s.leavePlaced.sync.phErr = s.sync.phErr := by
  unfold State.leavePlaced
  extract_lets s1
  rw [State.setFld_sync, State.setFld_sync, State.setFld_sync, State.phErr_secReset, State.sync_withdraw, State.sync_unplace]
  rfl

/-- A withdrawn prediction shows in PRED of OBS_FLAGS and at the source wheel. -/
theorem State.flags_withdraw (s : State) : s.withdraw.reg OBS_FLAGS = OBS_FLAGS_PRED.set (s.reg OBS_FLAGS) 0 := by
  have hpred : OBS_FLAGS ≠ WHL_PRED s.srcWheel := by
    have hsrc : s.srcWheel < 2 ^ 3 := Nat.mod_lt _ (by decide)
    simp only [OBS_FLAGS, WHL_PRED]
    omega
  have hdrop : (s.dropPrediction s.srcWheel).reg OBS_FLAGS = s.reg OBS_FLAGS := by
    rw [State.dropPrediction, State.reg_setReg_ne _ _ hpred, State.reg_updWhl]
  rw [State.withdraw, State.reg_setFld_same, State.reg_updObs, hdrop]

theorem State.valid_unplace (s : State) : s.unplace.fld OBS_FLAGS OBS_FLAGS_VALID = 0 := by
  rw [State.fld, State.unplace, State.learnLost, State.reg_updObs, State.reg_dropPasses _ (by decide) (by decide),
    State.reg_setReg_ne _ _ (by decide), State.reg_setFld_same, Fld.get_set_ne _ _ _ _ (by decide), State.reg_setFld_same,
    Fld.get_set_same _ _ _ (by decide)]
  rfl

theorem State.valid_leavePlaced (s : State) : s.leavePlaced.fld OBS_FLAGS OBS_FLAGS_VALID = 0 := by
  unfold State.leavePlaced
  extract_lets s1
  have hset : ∀ t : State, t.secReset.reg OBS_FLAGS = t.reg OBS_FLAGS := fun t => by
    rw [State.secReset, State.reg_setFld_ne _ _ _ (by decide), State.reg_setFld_ne _ _ _ (by decide)]
    rfl
  rw [State.fld, State.reg_setFld_ne _ _ _ (by decide), State.reg_setFld_ne _ _ _ (by decide), State.reg_setFld_ne _ _ _ (by decide),
    hset, State.flags_withdraw, Fld.get_set_ne _ _ _ _ (by decide)]
  exact s1.valid_unplace

/-- Of OBS_SCNT only EARLYREV is cleared. -/
theorem State.lostCount_leavePlaced (s : State) : s.leavePlaced.fld OBS_SCNT OBS_SCNT_LOST = s.fld OBS_SCNT OBS_SCNT_LOST := by
  unfold State.leavePlaced
  extract_lets s1
  have hkept : ∀ f, s.SyncKept (s1.unplace.withdraw.updSync f) := fun _ => .updSync (.withdraw (.unplace (.updSync (.refl s))))
  rw [State.fld_setFld_ne _ _ _ _ _ (by decide), State.fld, State.reg_setFld_ne _ _ _ (by decide), State.reg_setFld_ne _ _ _ (by decide),
    State.secReset, State.reg_setFld_ne _ _ _ (by decide), State.reg_setFld_ne _ _ _ (by decide), hkept _ _ (.inr (by decide)), State.fld]

/-! ### Into LOST (R155, R163, R171) -/

theorem State.from_leaveFull (s : State) (cause : Nat) : (s.leaveFull cause).fld OBS_SCAUSE OBS_SCAUSE_FROM = s.syncSt := by
  rw [State.fld, s.leaveFull_kept cause _ (.inr (by decide)), State.exitRecorded, State.reg_setReg_ne _ _ (by decide),
    State.reg_setFld_same, Fld.get_set_ne _ _ _ _ (by decide), State.reg_setFld_same, Fld.get_set_same _ _ _ (by decide)]
  exact Nat.mod_eq_of_lt (Nat.mod_lt _ (by decide))

theorem State.lostCount_leaveFull (s : State) (cause : Nat) :
    (s.leaveFull cause).fld OBS_SCNT OBS_SCNT_LOST = s.fld OBS_SCNT OBS_SCNT_LOST := by
  rw [State.fld, s.leaveFull_kept cause _ (.inr (by decide)), State.exitRecorded, State.reg_setReg_ne _ _ (by decide),
    State.reg_setFld_ne _ _ _ (by decide), State.reg_setFld_ne _ _ _ (by decide), State.reg_setFld_ne _ _ _ (by decide), State.fld]

theorem State.AngleFrame.leaveFull (s : State) (cause : Nat) : s.AngleFrame (s.leaveFull cause) :=
  .abandonAll (.echoFollowLow (.safeEnd (.setReg (.setReg (.setReg (.setReg (.refl s)))))))

/-- Nothing waits past an exit from FULL or HOLD (R163). -/
theorem State.not_pends_leaveFull (s : State) (cause : Nat) : ∀ a ∈ (s.leaveFull cause).actions, ¬ a.Pends := by
  have hafter : (s.exitRecorded cause).safeEnd.AngleFrame (s.leaveFull cause) := .abandonAll (.echoFollowLow (.refl _))
  exact fun a ha hp => State.not_pends_safeEnd _ a (hafter.pending a ha hp) hp

/-- A report of a loss writes the count and the event of it. -/
theorem State.reg_lossReported (s : State) (cause : Nat) {k : Nat} (hcnt : k ≠ OBS_SCNT) (hevt : k ≠ OBS_SEVT) :
    (s.lossReported cause).reg k = s.reg k := by
  rw [State.lossReported, State.sendFault, State.reg_launch, State.reg_raise_ne _ _ hevt, State.count, State.reg_setFld_ne _ _ _ hcnt]

theorem State.reg_lossEntered (s : State) (cause : Nat) {k : Nat} (hk : syncReg k) (hstate : k ≠ OBS_STATE) (hcnt : k ≠ OBS_SCNT)
    (hevt : k ≠ OBS_SEVT) : (s.lossEntered cause).reg k = s.reg k := by
  rw [State.lossEntered, State.syncTold_kept _ k hk, State.reg_lossReported _ _ hcnt hevt, State.reg_setFld_ne _ _ _ hstate]

theorem State.syncSt_lossEntered (s : State) (cause : Nat) : (s.lossEntered cause).syncSt = 5 := by
  rw [State.syncSt, State.fld, State.lossEntered, State.syncTold_kept _ _ (.inr (by decide)),
    State.reg_lossReported _ _ (by decide) (by decide), State.reg_setFld_same]
  exact Fld.get_set_same _ _ _ (by decide)

theorem State.count_lossEntered (s : State) (cause : Nat) : (s.lossEntered cause).fld OBS_SCNT OBS_SCNT_LOST
    = min (2 ^ OBS_SCNT_LOST.w - 1) (s.fld OBS_SCNT OBS_SCNT_LOST + 1) := by
  rw [State.fld, State.lossEntered, State.syncTold_kept _ _ (.inr (by decide)), State.lossReported, State.sendFault, State.reg_launch,
    State.reg_raise_ne _ _ (by decide), ← State.fld, State.fld_count _ _ _ _ (by decide), State.fld,
    State.reg_setFld_ne _ _ _ (by decide), State.fld]

theorem State.event_lossEntered (s : State) (cause : Nat) : (s.lossEntered cause).bit OBS_SEVT OBS_SEVT_LOST = true := by
  rw [State.bit, State.lossEntered, State.syncTold_kept _ _ (.inr (by decide)), State.lossReported, State.sendFault, State.reg_launch]
  exact State.bit_raise _ _ (by decide)

theorem State.message_lossEntered (s : State) (cause : Nat) :
    faultItem blkOBS 0 0x10 clsU cause ∈ (s.lossEntered cause).inflight :=
  State.mem_inflight_syncTold (List.mem_append_right _ List.mem_cons_self)

theorem State.valid_lossEntered (s : State) (cause : Nat) :
    (s.lossEntered cause).fld OBS_FLAGS OBS_FLAGS_VALID = s.fld OBS_FLAGS OBS_FLAGS_VALID := by
  rw [State.lossEntered, State.fld_flags_syncTold _ (by decide), State.fld, State.reg_lossReported _ _ (by decide) (by decide),
    State.reg_setFld_ne _ _ _ (by decide), State.fld]

theorem State.sync_lossEntered (s : State) (cause : Nat) : (s.lossEntered cause).sync = s.sync := State.sync_syncTold _

theorem State.stores_lossEntered (s : State) (cause : Nat) : (s.lossEntered cause).stores = s.stores := State.stores_syncTold _

/-- `t` is `s` after an exit from FULL or HOLD into LOST (R155, R163, R171). -/
structure State.LostBy (cause : Nat) (s t : State) : Prop where
  state : t.syncSt = 5
  source : t.fld OBS_SCAUSE OBS_SCAUSE_FROM = s.syncSt
  angle : t.reg OBS_SLOSTA = s.angW
  count : t.fld OBS_SCNT OBS_SCNT_LOST = min (2 ^ OBS_SCNT_LOST.w - 1) (s.fld OBS_SCNT OBS_SCNT_LOST + 1)
  event : t.bit OBS_SEVT OBS_SEVT_LOST = true
  message : faultItem blkOBS 0 0x10 clsU cause ∈ t.inflight
  valid : t.fld OBS_FLAGS OBS_FLAGS_VALID = 0
  phErr : t.sync.phErr = s.sync.phErr
  idle : ∀ a ∈ t.actions, ¬ a.Pends
  reason : t.fld OBS_SCAUSE OBS_SCAUSE_CAUSE = cause

theorem State.goSync_lostBy {s : State} (h : s.fires = true) {cause : Nat} (hcause : cause < 16) :
    State.LostBy cause s (s.goSync syncLOST cause) := by
  have hreg : ∀ k, syncReg k → k ≠ OBS_STATE → k ≠ OBS_SCNT → k ≠ OBS_SEVT →
      ((s.leaveFull cause).leavePlaced.lossEntered cause).reg k = (s.leaveFull cause).reg k := fun k hk hstate hcnt hevt =>
    (State.reg_lossEntered _ _ hk hstate hcnt hevt).trans (State.reg_leavePlaced _ hk hstate hcnt)
  have hstores : ((s.leaveFull cause).leavePlaced.lossEntered cause).stores = (s.leaveFull cause).stores :=
    (State.stores_lossEntered _ _).trans (State.stores_leavePlaced _)
  have hphErr : ((s.leaveFull cause).leavePlaced.lossEntered cause).sync.phErr = s.sync.phErr := by
    rw [State.sync_lossEntered, State.phErr_leavePlaced, (State.AngleFrame.leaveFull s cause).sync]
  rw [State.goSync_lost h]
  refine ⟨State.syncSt_lossEntered _ _, ?_, ?_, ?_, State.event_lossEntered _ _, State.message_lossEntered _ _, ?_, hphErr,
    fun a ha => ?_, ?_⟩
  · exact (congrArg OBS_SCAUSE_FROM.get (hreg _ (.inr (by decide)) (by decide) (by decide) (by decide))).trans (s.from_leaveFull cause)
  · exact (hreg _ (.inr (by decide)) (by decide) (by decide) (by decide)).trans (s.slosta_leaveFull cause)
  · refine (State.count_lossEntered _ _).trans ?_
    rw [State.lostCount_leavePlaced, State.lostCount_leaveFull]
  · exact (State.valid_lossEntered _ _).trans (State.valid_leavePlaced _)
  · have hqueues : ((s.leaveFull cause).leavePlaced.lossEntered cause).actions = (s.leaveFull cause).actions :=
      State.actions_of_stores hstores
    exact s.not_pends_leaveFull cause a (hqueues ▸ ha)
  · exact (congrArg OBS_SCAUSE_CAUSE.get (hreg _ (.inr (by decide)) (by decide) (by decide) (by decide))).trans
      (s.cause_leaveFull hcause)

/-! ### Into SEEK (R142, R165) -/

/-- `t` is `s` after the gap search has been started anew from LOST. -/
structure State.SeeksAnew (s t : State) : Prop where
  state : t.syncSt = 1
  search : t.sync.search = {}
  valid : t.fld OBS_FLAGS OBS_FLAGS_VALID = 0
  pend : ∀ n : Fin 64, (t.pend n).testBit 0 = true
  stores : t.stores = s.stores

/-- SEEK entered and told. -/
def State.seekEntered (s : State) : State := (s.leavePlaced.setFld OBS_STATE OBS_STATE_SYNC syncSEEK).syncTold

theorem State.syncSt_seekEntered (s : State) : s.seekEntered.syncSt = 1 := by
  rw [State.syncSt, State.fld, State.seekEntered, State.syncTold_kept _ _ (.inr (by decide)), State.reg_setFld_same]
  exact Fld.get_set_same _ _ _ (by decide)

theorem State.valid_seekEntered (s : State) : s.seekEntered.fld OBS_FLAGS OBS_FLAGS_VALID = 0 := by
  rw [State.seekEntered, State.fld_flags_syncTold _ (by decide), State.fld, State.reg_setFld_ne _ _ _ (by decide)]
  exact s.valid_leavePlaced

theorem State.pend_seekEntered (s : State) (n : Fin 64) : (s.seekEntered.pend n).testBit 0 = true := State.pend_syncTold _ n

theorem State.stores_seekEntered (s : State) : s.seekEntered.stores = s.stores :=
  (State.stores_syncTold _).trans ((State.stores_setFld _ _ _ _).trans s.stores_leavePlaced)

theorem State.reg_updSync (s : State) (f : Sync → Sync) (k : Nat) : (s.updSync f).reg k = s.reg k := rfl

theorem State.seek_seeksAnew {s : State} (h : s.syncSt = syncLOST) (n : Nat) : s.SeeksAnew (s.seek n none) := by
  have hseek : s.seek n none = s.seekEntered.updSync fun y => { y with search := {}, camRef := false } :=
    congrArg (fun t : State => t.updSync fun y => { y with search := {}, camRef := false }) (State.goSync_seek h 0)
  rw [hseek]
  refine ⟨?_, rfl, ?_, fun n => ?_, (State.stores_updSync _ _).trans s.stores_seekEntered⟩
  · rw [State.syncSt, State.fld, State.reg_updSync, ← State.fld, ← State.syncSt, s.syncSt_seekEntered]
  · rw [State.fld, State.reg_updSync, ← State.fld, s.valid_seekEntered]
  · rw [State.pend, State.fld, State.reg_updSync, ← State.fld, ← State.pend, s.pend_seekEntered]

/-! ### Into FULL from CRANK (R139, R140, R148 to R150) -/

/-- The event, the phase, the generation and what counts from the entry on. -/
def State.fullMarked (s : State) : State :=
  let s1 := (s.raise OBS_SEVT OBS_SEVT_FULL).setFld OBS_STATE OBS_STATE_PHASE 1
  let s2 := s1.setFld OBS_STATE OBS_STATE_SGEN ((s1.fld OBS_STATE OBS_STATE_SGEN + 1) % 256)
  (s2.updSync fun y => { y with phErr := 0, camLost := false, camW := s.angW }).updObs fun o =>
    { o with noFuel := 0, cycle := s.angW.toNat / 2 ^ 24 }

/-- What acts at an entry into FULL: combustion windows, the calendar, FOLLOW generators and the trims. -/
def State.fullActs (s : State) : State := (s.abandonAll.calendarFull.echoFollowFrom).trimBoundary 512

/-- FULL entered from CRANK. -/
def State.fullEntered (s : State) : State := (s.setFld OBS_STATE OBS_STATE_SYNC syncFULL).fullMarked.fullActs.syncTold

theorem State.enterSync_full (s : State) (cause : Nat) : s.enterSync syncCRANK syncFULL cause = s.fullMarked.fullActs := by
  rw [State.enterSync, if_pos rfl]
  dsimp only
  rw [if_pos (by decide)]
  rfl

theorem State.goSync_full {s : State} (h : s.syncSt = syncCRANK) (cause : Nat) : s.goSync syncFULL cause = s.fullEntered := by
  rw [State.goSync_stays (by rw [h]; decide) (.inl rfl), h, State.enterSync_full]
  rfl

theorem State.reg_raise_bit_ne (s : State) (evt : Nat) {b i : Nat} (h : i ≠ b) : (s.raise evt b).bit evt i = s.bit evt i := by
  rw [State.bit, State.raise, State.reg_launch, State.reg_setBit_same, bitOf_withBit_ne _ _ h, State.bit]

theorem State.SyncKept.heldRetired (s : State) : s.SyncKept s.heldRetired := (refl s).foldl fun _ _ hv => hv.retire

theorem State.SyncKept.echoFollowFrom {s t : State} (h : s.SyncKept t) : s.SyncKept t.echoFollowFrom :=
  h.foldl fun _ _ hv => .ite hv.same hv

theorem State.SyncKept.trimBoundary {s t : State} (h : s.SyncKept t) {n : Nat} (hn : n ≤ 512) : s.SyncKept (t.trimBoundary n) :=
  h.trans fun k hk => t.reg_trimBoundary_ne fun i hi => by
    simp only [syncReg, OBS_CFG] at hk
    simp only [AEN_TRM, AEN_TRS]
    omega

theorem State.reg_calendarFull (s : State) (k : Nat) : s.calendarFull.reg k
    = (if s.heldBack.isEmpty then s.heldRetired else s.heldRetired.raise OBS_SEVT OBS_SEVT_WITHHELD).reg k := by
  rw [State.calendarFull_eq]
  rfl

/-- The retired actions show in OBS_SEVT, and there as WITHHELD alone (R140). -/
theorem State.calendarFull_kept (s : State) : (∀ k, syncReg k → k ≠ OBS_SEVT → s.calendarFull.reg k = s.reg k)
    ∧ ∀ i, i ≠ OBS_SEVT_WITHHELD → s.calendarFull.bit OBS_SEVT i = s.bit OBS_SEVT i := by
  have hkept := State.SyncKept.heldRetired s
  refine ⟨fun k hk hevt => ?_, fun i hi => ?_⟩
  · rw [State.reg_calendarFull]
    split
    · exact hkept k hk
    · rw [State.reg_raise_ne _ _ hevt, hkept k hk]
  · have hbit : s.heldRetired.bit OBS_SEVT i = s.bit OBS_SEVT i := congrArg (bitOf · i) (hkept _ (.inr (by decide)))
    rw [State.bit, State.reg_calendarFull]
    split
    · exact hbit
    · exact (State.reg_raise_bit_ne _ _ hi).trans hbit

/-- What acts at an entry into FULL leaves the registers of synchronisation alone, but for WITHHELD. -/
theorem State.fullActs_kept (s : State) : (∀ k, syncReg k → k ≠ OBS_SEVT → s.fullActs.syncTold.reg k = s.reg k)
    ∧ ∀ i, i ≠ OBS_SEVT_WITHHELD → s.fullActs.syncTold.bit OBS_SEVT i = s.bit OBS_SEVT i := by
  have hbefore : s.SyncKept s.abandonAll := .abandonAll (.refl s)
  obtain ⟨hreg, hbit⟩ := s.abandonAll.calendarFull_kept
  have hafter : s.abandonAll.calendarFull.SyncKept s.fullActs.syncTold :=
    (State.SyncKept.trimBoundary (.echoFollowFrom (.refl _)) (Nat.le_refl 512)).trans (State.syncTold_kept _)
  refine ⟨fun k hk hevt => ?_, fun i hi => ?_⟩
  · rw [hafter k hk, hreg k hk hevt, hbefore k hk]
  · rw [State.bit, hafter _ (.inr (by decide)), ← State.bit, hbit i hi, State.bit, hbefore _ (.inr (by decide)), State.bit]

theorem State.AngleFrame.fullActs (s : State) : s.AngleFrame s.fullActs.syncTold :=
  .syncTold (.trimBoundary (.echoFollowFrom (.calendarFull (.abandonAll (.refl s)))))

theorem State.AngleFrame.angW {s t : State} (h : s.AngleFrame t) : t.angW = s.angW := by rw [State.angW, h.ang, State.angW]

/-- R140: what waits after the entry lies ahead of its angle word. -/
theorem State.ahead_of_mem_fullActs (s : State) {a : Action} (ha : a ∈ s.fullActs.syncTold.actions) (hwait : a.place = .waiting) :
    wReached s.angW a.w0 = false := by
  have hbefore : s.AngleFrame s.abandonAll := .abandonAll (.refl s)
  have hafter : s.abandonAll.calendarFull.AngleFrame s.fullActs.syncTold := .syncTold (.trimBoundary (.echoFollowFrom (.refl _)))
  rw [← hbefore.angW]
  exact s.abandonAll.ahead_of_mem_calendarFull (hafter.pending a ha (.inl hwait)) hwait

/-- OBS_STATE marked at an entry into FULL. -/
theorem State.state_fullMarked (s : State) : s.fullMarked.reg OBS_STATE
    = OBS_STATE_SGEN.set (OBS_STATE_PHASE.set (s.reg OBS_STATE) 1) ((s.fld OBS_STATE OBS_STATE_SGEN + 1) % 256) := by
  have hreg : ((s.raise OBS_SEVT OBS_SEVT_FULL).setFld OBS_STATE OBS_STATE_PHASE 1).reg OBS_STATE
      = OBS_STATE_PHASE.set (s.reg OBS_STATE) 1 := by
    rw [State.reg_setFld_same, State.reg_raise_ne _ _ (by decide)]
  rw [State.fullMarked, State.reg_updObs, State.reg_updSync, State.reg_setFld_same, State.fld, hreg,
    Fld.get_set_ne _ _ _ _ (by decide), State.fld]

/-- OBS_STATE after an entry into FULL (R150, R155). -/
theorem State.state_fullEntered (s : State) : s.fullEntered.syncSt = 3 ∧ s.fullEntered.fld OBS_STATE OBS_STATE_PHASE = 1
    ∧ s.fullEntered.fld OBS_STATE OBS_STATE_SGEN = (s.fld OBS_STATE OBS_STATE_SGEN + 1) % 256 := by
  have hreg : s.fullEntered.reg OBS_STATE = OBS_STATE_SGEN.set (OBS_STATE_PHASE.set (OBS_STATE_SYNC.set (s.reg OBS_STATE) syncFULL) 1)
      ((s.fld OBS_STATE OBS_STATE_SGEN + 1) % 256) := by
    rw [State.fullEntered, (State.fullActs_kept _).1 _ (.inr (by decide)) (by decide), State.state_fullMarked, State.fld,
      State.reg_setFld_same, Fld.get_set_ne _ _ _ _ (by decide), State.fld]
  refine ⟨?_, ?_, ?_⟩
  · rw [State.syncSt, State.fld, hreg, Fld.get_set_ne _ _ _ _ (by decide), Fld.get_set_ne _ _ _ _ (by decide)]
    exact Fld.get_set_same _ _ _ (by decide)
  · rw [State.fld, hreg, Fld.get_set_ne _ _ _ _ (by decide)]
    exact Fld.get_set_same _ _ _ (by decide)
  · rw [State.fld, hreg, Fld.get_set_same _ _ _ (by decide)]
    exact Nat.mod_mod _ _

theorem State.event_fullEntered (s : State) : s.fullEntered.bit OBS_SEVT OBS_SEVT_FULL = true := by
  rw [State.fullEntered, (State.fullActs_kept _).2 _ (by decide), State.bit, State.fullMarked, State.reg_updObs, State.reg_updSync,
    State.reg_setFld_ne _ _ _ (by decide), State.reg_setFld_ne _ _ _ (by decide)]
  exact State.bit_raise _ _ (by decide)

theorem State.sync_fullEntered (s : State) :
    s.fullEntered.sync = { s.sync with phErr := 0, camLost := false, camW := s.angW } :=
  (State.AngleFrame.fullActs _).sync

theorem State.angW_setFld (s : State) (k : Nat) (f : Fld) (v : Nat) : (s.setFld k f v).angW = s.angW := rfl

theorem State.angW_updSync (s : State) (f : Sync → Sync) : (s.updSync f).angW = s.angW := rfl

theorem State.angW_fullMarked (s : State) : s.fullMarked.angW = s.angW := rfl

theorem State.angW_fullEntered (s : State) : s.fullEntered.angW = s.angW := by
  rw [State.fullEntered, (State.AngleFrame.fullActs _).angW, State.angW_fullMarked, State.angW_setFld]

theorem State.ahead_of_mem_fullEntered (s : State) {a : Action} (ha : a ∈ s.fullEntered.actions) (hwait : a.place = .waiting) :
    wReached s.angW a.w0 = false := by
  have hahead := State.ahead_of_mem_fullActs (s.setFld OBS_STATE OBS_STATE_SYNC syncFULL).fullMarked ha hwait
  rwa [State.angW_fullMarked, State.angW_setFld] at hahead

/-! ### The phase resolved (R148, R149) -/

/-- Half a cycle on an angle with 24 fraction bits is half a cycle on its word. -/
theorem extractLsb'_add_halfCycle (a : BitVec 56) :
    (a + BitVec.ofNat 56 (2 ^ 47)).extractLsb' 24 32 = a.extractLsb' 24 32 + BitVec.ofNat 32 (2 ^ 23) := by
  apply BitVec.eq_of_toNat_eq
  rw [BitVec.extractLsb'_toNat, BitVec.toNat_add, BitVec.toNat_add, BitVec.extractLsb'_toNat, Nat.shiftRight_eq_div_pow,
    Nat.shiftRight_eq_div_pow, BitVec.toNat_ofNat, BitVec.toNat_ofNat]
  omega

theorem State.angW_addHalfCycle (s : State) : s.addHalfCycle.angW = s.angW + BitVec.ofNat 32 (2 ^ 23) :=
  extractLsb'_add_halfCycle s.obs.ang

/-- `t` is `s` after the phase has been resolved in CRANK, with 2^23 added or not, by command or not. -/
structure State.PhaseResolved (add byCmd : Bool) (s t : State) : Prop where
  state : t.syncSt = 3
  command : t.sync.byCmd = byCmd
  camAngle : t.sync.camW = t.angW
  angle : t.angW = if add then s.angW + BitVec.ofNat 32 (2 ^ 23) else s.angW
  phase : t.fld OBS_STATE OBS_STATE_PHASE = 1
  gen : t.fld OBS_STATE OBS_STATE_SGEN = (s.fld OBS_STATE OBS_STATE_SGEN + 1) % 256
  event : t.bit OBS_SEVT OBS_SEVT_FULL = true
  ahead : ∀ a ∈ t.actions, a.place = .waiting → wReached t.angW a.w0 = false

/-- The revolution chosen, and by what. -/
def State.phaseChosen (s : State) (add byCmd : Bool) : State :=
  (if add then s.addHalfCycle else s).updSync fun y => { y with byCmd := byCmd }

theorem State.reg_phaseChosen (s : State) (add byCmd : Bool) (k : Nat) : (s.phaseChosen add byCmd).reg k = s.reg k := by
  rw [State.phaseChosen, State.reg_updSync]
  cases add with
  | false => rfl
  | true => exact State.reg_updObs s _ k

theorem State.angW_phaseChosen (s : State) (add byCmd : Bool) :
    (s.phaseChosen add byCmd).angW = if add then s.angW + BitVec.ofNat 32 (2 ^ 23) else s.angW := by
  rw [State.phaseChosen, State.angW_updSync]
  cases add with
  | false => rfl
  | true => exact s.angW_addHalfCycle

theorem State.resolvePhase_eq {s : State} (h : s.syncSt = syncCRANK) (add byCmd : Bool) :
    s.resolvePhase add byCmd = (s.phaseChosen add byCmd).fullEntered := by
  have hst : (s.phaseChosen add byCmd).syncSt = syncCRANK := by
    rw [State.syncSt, State.fld, State.reg_phaseChosen, ← State.fld, ← State.syncSt, h]
  rw [State.resolvePhase, ← State.phaseChosen, State.goSync_full hst]

theorem State.resolvePhase_resolves {s : State} (h : s.syncSt = syncCRANK) (add byCmd : Bool) :
    State.PhaseResolved add byCmd s (s.resolvePhase add byCmd) := by
  obtain ⟨hstate, hphase, hgen⟩ := (s.phaseChosen add byCmd).state_fullEntered
  rw [State.resolvePhase_eq h]
  refine ⟨hstate, ?_, ?_, ?_, hphase, ?_, State.event_fullEntered _, fun a ha hwait => ?_⟩
  · rw [State.sync_fullEntered]
    rfl
  · rw [State.sync_fullEntered, State.angW_fullEntered]
  · rw [State.angW_fullEntered, State.angW_phaseChosen]
  · rw [hgen, State.fld, State.reg_phaseChosen, State.fld]
  · rw [State.angW_fullEntered]
    exact State.ahead_of_mem_fullEntered _ ha hwait

/-! ### Into HOLD with the source changed (R151, R158, R159) -/

/-- HOLD entered and told. -/
def State.holdEntered (s : State) : State := ((s.setFld OBS_STATE OBS_STATE_SYNC syncHOLD).raise OBS_SEVT OBS_SEVT_HOLD).syncTold

theorem State.goSync_hold {s : State} (h : s.syncSt = syncFULL) (cause : Nat) : s.goSync syncHOLD cause = s.holdEntered := by
  rw [State.goSync_stays (by rw [h]; decide) (.inr rfl), State.enterSync_hold]
  rfl

/-- The source in force and the secondary changed over. -/
def State.sourceSwitched (s : State) : State :=
  (((s.changeSource s.sync.sec).updSync fun y => { y with sec := s.srcWheel, revRun := 0 }).secReset).raise OBS_SEVT OBS_SEVT_SWITCH

theorem State.switchSource_eq (s : State) : s.switchSource = s.sourceSwitched.hold 16 := rfl

theorem State.reg_setTooth (s : State) (n : Nat) (t : Tooth) (k : Nat) : (s.setTooth n t).reg k = s.reg k := rfl

theorem State.SyncKept.changeSource (s : State) (n : Nat) : s.SyncKept (s.changeSource n) := fun k hk => by
  have hflags : k ≠ OBS_FLAGS := by rintro rfl; exact absurd hk (by decide)
  rw [State.changeSource, State.reg_setTooth, State.reg_setFld_ne _ _ _ hflags]
  exact s.withdraw_kept k hk

theorem State.stores_setTooth (s : State) (n : Nat) (t : Tooth) : (s.setTooth n t).stores = s.stores := rfl

theorem State.stores_sourceSwitched (s : State) : s.sourceSwitched.stores = s.stores := by
  rw [State.sourceSwitched, State.stores_raise, State.stores_secReset, State.stores_updSync, State.changeSource, State.stores_setTooth,
    State.stores_setFld, State.stores_withdraw]

theorem State.pred_sourceSwitched (s : State) : s.sourceSwitched.obs.pred = none := rfl

theorem State.flags_sourceSwitched (s : State) : s.sourceSwitched.fld OBS_FLAGS OBS_FLAGS_SRCA = s.sync.sec % 8 := by
  rw [State.fld, State.sourceSwitched, State.reg_raise_ne _ _ (by decide), State.secReset, State.reg_setFld_ne _ _ _ (by decide),
    State.reg_setFld_ne _ _ _ (by decide), State.reg_updSync, State.reg_updSync, State.changeSource, State.reg_setTooth,
    State.reg_setFld_same]
  exact Fld.get_set_same _ _ _ (by decide)

/-- OBS_STATE loses SECPL and AGREE (R156, R159). -/
theorem State.state_sourceSwitched (s : State) :
    s.sourceSwitched.reg OBS_STATE = OBS_STATE_AGREE.set (OBS_STATE_SECPL.set (s.reg OBS_STATE) 0) 0 := by
  rw [State.sourceSwitched, State.reg_raise_ne _ _ (by decide), State.secReset, State.reg_setFld_same, State.reg_setFld_same,
    State.reg_updSync, State.reg_updSync, State.SyncKept.changeSource _ _ _ (.inr (by decide))]

/-- `t` is `s` after the source in force has changed in FULL (R158, R159). -/
structure State.Switched (s t : State) : Prop where
  source : t.fld OBS_FLAGS OBS_FLAGS_SRCA = s.sync.sec % 8
  second : t.sync.sec = s.srcWheel
  state : t.syncSt = 4
  teeth : t.fld OBS_STATE OBS_STATE_HOLDN = 16
  angle : t.angW = s.angW
  switchEvent : t.bit OBS_SEVT OBS_SEVT_SWITCH = true
  holdEvent : t.bit OBS_SEVT OBS_SEVT_HOLD = true
  pred : t.obs.pred = none
  agree : t.fld OBS_STATE OBS_STATE_AGREE = 0
  stores : t.stores = s.stores

theorem State.reg_holdEntered (s : State) {k : Nat} (hk : syncReg k) (hevt : k ≠ OBS_SEVT) :
    s.holdEntered.reg k = (s.setFld OBS_STATE OBS_STATE_SYNC syncHOLD).reg k := by
  rw [State.holdEntered, State.syncTold_kept _ k hk, State.reg_raise_ne _ _ hevt]

theorem State.flags_holdEntered (s : State) : s.holdEntered.fld OBS_FLAGS OBS_FLAGS_SRCA = s.fld OBS_FLAGS OBS_FLAGS_SRCA := by
  rw [State.holdEntered, State.fld_flags_syncTold _ (by decide), State.fld, State.reg_raise_ne _ _ (by decide),
    State.reg_setFld_ne _ _ _ (by decide), State.fld]

theorem State.bit_holdEntered (s : State) (i : Nat) :
    s.holdEntered.bit OBS_SEVT i = ((s.setFld OBS_STATE OBS_STATE_SYNC syncHOLD).raise OBS_SEVT OBS_SEVT_HOLD).bit OBS_SEVT i :=
  congrArg (bitOf · i) (State.syncTold_kept _ _ (.inr (by decide)))

theorem State.syncSt_sourceSwitched (s : State) : s.sourceSwitched.syncSt = s.syncSt := by
  rw [State.syncSt, State.fld, State.state_sourceSwitched, Fld.get_set_ne _ _ _ _ (by decide), Fld.get_set_ne _ _ _ _ (by decide),
    ← State.fld, ← State.syncSt]

theorem State.switchSource_hold {s : State} (h : s.syncSt = syncFULL) :
    s.switchSource = s.sourceSwitched.holdEntered.setFld OBS_STATE OBS_STATE_HOLDN 16 := by
  rw [State.switchSource_eq, State.hold, State.goSync_hold (s.syncSt_sourceSwitched.trans h)]

/-- OBS_STATE once the source has changed and HOLD is entered. -/
theorem State.state_switchSource {s : State} (h : s.syncSt = syncFULL) : s.switchSource.reg OBS_STATE = OBS_STATE_HOLDN.set
    (OBS_STATE_SYNC.set (OBS_STATE_AGREE.set (OBS_STATE_SECPL.set (s.reg OBS_STATE) 0) 0) syncHOLD) 16 := by
  rw [State.switchSource_hold h, State.reg_setFld_same, State.reg_holdEntered _ (.inr (by decide)) (by decide), State.reg_setFld_same,
    State.state_sourceSwitched]

theorem State.obs_holdEntered (s : State) : s.holdEntered.obs.pred = s.obs.pred ∧ s.holdEntered.angW = s.angW :=
  ⟨(State.LearnDiffers.syncTold _).pred, State.angW_syncTold _⟩

theorem State.sec_holdEntered (s : State) : s.holdEntered.sync = s.sync := State.sync_syncTold _

theorem State.stores_holdEntered (s : State) : s.holdEntered.stores = s.stores := by
  rw [State.holdEntered, State.stores_syncTold, State.stores_raise, State.stores_setFld]

theorem State.angW_raise (s : State) (evt bit : Nat) : (s.raise evt bit).angW = s.angW := rfl

theorem State.angW_withdraw (s : State) : s.withdraw.angW = s.angW := rfl

theorem State.angW_setTooth (s : State) (n : Nat) (t : Tooth) : (s.setTooth n t).angW = s.angW := rfl

theorem State.angW_sourceSwitched (s : State) : s.sourceSwitched.angW = s.angW := by
  rw [State.sourceSwitched, State.angW_raise, State.secReset, State.angW_setFld, State.angW_setFld, State.angW_updSync, State.angW_updSync,
    State.changeSource, State.angW_setTooth, State.angW_setFld, State.angW_withdraw]

theorem State.event_sourceSwitched (s : State) : s.sourceSwitched.bit OBS_SEVT OBS_SEVT_SWITCH = true := State.bit_raise _ _ (by decide)

theorem State.events_holdEntered (s : State) : s.holdEntered.bit OBS_SEVT OBS_SEVT_HOLD = true
    ∧ ∀ i, i ≠ OBS_SEVT_HOLD → s.holdEntered.bit OBS_SEVT i = s.bit OBS_SEVT i := by
  refine ⟨(s.bit_holdEntered _).trans (State.bit_raise _ _ (by decide)), fun i hi => ?_⟩
  rw [State.bit_holdEntered, State.reg_raise_bit_ne _ _ hi, State.bit, State.reg_setFld_ne _ _ _ (by decide), State.bit]

theorem State.switchSource_switches {s : State} (h : s.syncSt = syncFULL) : s.Switched s.switchSource := by
  have hstate := State.state_switchSource h
  have hbit : ∀ i, s.switchSource.bit OBS_SEVT i = s.sourceSwitched.holdEntered.bit OBS_SEVT i := fun i => by
    rw [State.switchSource_hold h, State.bit, State.reg_setFld_ne _ _ _ (by decide), State.bit]
  obtain ⟨hhold, hevents⟩ := s.sourceSwitched.events_holdEntered
  obtain ⟨hpred, hang⟩ := s.sourceSwitched.obs_holdEntered
  refine ⟨?_, ?_, ?_, ?_, ?_, ?_, ?_, ?_, ?_, ?_⟩
  · rw [State.switchSource_hold h, State.fld, State.reg_setFld_ne _ _ _ (by decide), ← State.fld, State.flags_holdEntered,
      State.flags_sourceSwitched]
  · rw [State.switchSource_hold h, State.setFld_sync, State.sec_holdEntered]
    rfl
  · rw [State.syncSt, State.fld, hstate, Fld.get_set_ne _ _ _ _ (by decide)]
    exact Fld.get_set_same _ _ _ (by decide)
  · rw [State.fld, hstate]
    exact Fld.get_set_same _ _ _ (by decide)
  · rw [State.switchSource_hold h, State.angW_setFld, hang, State.angW_sourceSwitched]
  · rw [hbit, hevents _ (by decide), State.event_sourceSwitched]
  · rw [hbit, hhold]
  · rw [State.switchSource_hold h, State.setFld_obs, hpred, State.pred_sourceSwitched]
  · rw [State.fld, hstate, Fld.get_set_ne _ _ _ _ (by decide), Fld.get_set_ne _ _ _ _ (by decide)]
    exact Fld.get_set_same _ _ _ (by decide)
  · rw [State.switchSource_hold h, State.stores_setFld, State.stores_holdEntered, State.stores_sourceSwitched]

end Sys2Proof.Machine

end

section
/-! PROOFS. Cam edges, the loss of the cam and the secondary sensor (R144, R147, R148, R154, R156, R157). -/

namespace Sys2Proof.Machine

/-! ### A delivered cam edge, by the state it finds (R144, R147) -/

/-- The oldest delivered cam edge taken. -/
def State.camTaken (s : State) : State := s.updSync fun y => { y with cams := y.cams.tail }

theorem exec_camEdge_none {s : State} (h : s.sync.cams = []) : exec .camEdge s = .next s := by
  change execCamEdge s = _
  rw [execCamEdge, h]

theorem exec_camEdge {s : State} {e : Edge} (h : s.sync.cams.head? = some e) : exec .camEdge s = .next (s.camTaken.camEdge e) := by
  obtain ⟨l, hl⟩ := List.head?_eq_some_iff.mp h
  have htail : s.camTaken = s.updSync fun y => { y with cams := l } := by
    change (s.updSync fun y => { y with cams := s.sync.cams.tail }) = _
    rw [hl, List.tail_cons]
  change execCamEdge s = _
  rw [execCamEdge, hl, htail]

/-- A cam edge with the angle placed: CAMLOSS counts from it (R154). -/
def State.camSeen (s : State) (e : Edge) : State := s.updSync fun y => { y with camW := e.angle, camLost := false }

/-- The cam wheel (R170). -/
def State.camWheel (s : State) : Nat := s.fld OBS_SCFG OBS_SCFG_CAM

/-- The edge matches an entry of the cam table in the revolution of the angle word, and in the other one (R147). -/
def State.hits (s : State) (e : Edge) : Bool := s.camHit s.camWheel (bucketOf e.angle) e.level

def State.hitsOther (s : State) (e : Edge) : Bool := s.camHit s.camWheel ((bucketOf e.angle + 2048) % 4096) e.level

theorem State.camEdge_off {s : State} (h : s.fld OBS_SCFG OBS_SCFG_CAMEN = 0) (e : Edge) : s.camEdge e = s := by
  rw [State.camEdge]
  exact if_pos h

theorem State.camEdge_seek {s : State} (hen : s.fld OBS_SCFG OBS_SCFG_CAMEN = 1) (hst : s.syncSt = syncSEEK) (e : Edge) :
    s.camEdge e = s.updSync fun y => { y with camRef := y.camRef
      || (decide (s.fld OBS_SCFG OBS_SCFG_PLACE = 1) && (s.patEntry s.camWheel 0 / 4096 % 2 == b2n e.level)) } := by
  rw [State.camEdge]
  dsimp only
  rw [if_neg (by rw [hen]; decide), if_pos hst]
  split
  · next h =>
    obtain ⟨hplace, hlevel⟩ := h
    rw [State.camWheel, hplace, hlevel, beq_self_eq_true, decide_eq_true rfl, Bool.and_true]
    simp only [Bool.or_true]
  · next h =>
    have hno : (decide (s.fld OBS_SCFG OBS_SCFG_PLACE = 1) && (s.patEntry s.camWheel 0 / 4096 % 2 == b2n e.level)) = false := by
      simpa [State.camWheel] using h
    simp only [hno, Bool.or_false]
    rfl

theorem State.placed_of_fires {s : State} (h : s.fires = true) : s.placed = true := by rw [State.placed, h, Bool.or_true]

theorem State.camEdge_placed {s : State} (hen : s.fld OBS_SCFG OBS_SCFG_CAMEN = 1) (h : s.fires = true) (e : Edge) :
    s.camEdge e = (s.camSeen e).camPlaced (s.fld (WHL_CFG s.camWheel) WHL_CFG_EDGE == 3) (s.hits e) (s.hitsOther e)
      (s.camHit s.camWheel (bucketOf e.angle) (!e.level)) := by
  have hst : s.syncSt = syncFULL ∨ s.syncSt = syncHOLD := by simpa [State.fires] using h
  rw [State.camEdge]
  dsimp only
  rw [if_neg (by rw [hen]; decide), if_neg (by rcases hst with h | h <;> rw [h] <;> decide), if_pos (State.placed_of_fires h),
    if_neg (by rcases hst with h | h <;> rw [h] <;> decide)]
  rfl

theorem State.camEdge_crank {s : State} (hen : s.fld OBS_SCFG OBS_SCFG_CAMEN = 1) (hst : s.syncSt = syncCRANK) (e : Edge) :
    s.camEdge e = (s.camSeen e).camCrank (s.fld (WHL_CFG s.camWheel) WHL_CFG_EDGE == 3) (s.hits e) (s.hitsOther e)
      (s.camHit s.camWheel (bucketOf e.angle) (!e.level))
      (s.camHit s.camWheel ((bucketOf e.angle + 2048) % 4096) (!e.level)) := by
  have hplaced : s.placed = true := by rw [State.placed, hst]; rfl
  rw [State.camEdge]
  dsimp only
  rw [if_neg (by rw [hen]; decide), if_neg (by rw [hst]; decide), if_pos hplaced, if_pos hst]
  rfl

/-! ### In FULL and HOLD (R154) -/

/-- A phase error is counted; NCONF of them lose synchronisation. -/
theorem State.camPlaced_other (s : State) (r0 : Bool) : s.camPlaced false false true r0
    = if s.fld OBS_SCAM OBS_SCAM_NCONF ≤ s.sync.phErr + 1 then (s.updSync fun y => { y with phErr := y.phErr + 1 }).goSync syncLOST caPHASE
      else s.updSync fun y => { y with phErr := y.phErr + 1 } := rfl

theorem camEdge_confirms {s : State} {e : Edge} (he : s.sync.cams.head? = some e) (hen : s.fld OBS_SCFG OBS_SCFG_CAMEN = 1)
    (hfires : s.fires = true) (hhit : s.hits e = true) :
    ∃ t, exec .camEdge s = .next t ∧ t = { s with sync := { s.sync with
      cams := s.sync.cams.tail, camW := e.angle, camLost := false, phErr := 0, byCmd := false } } := by
  have hhit' : s.camTaken.hits e = true := hhit
  refine ⟨_, (exec_camEdge he).trans (congrArg Host.Outcome.next (State.camEdge_placed (s := s.camTaken) hen hfires e)), ?_⟩
  rw [hhit']
  rfl

theorem camEdge_errs {s : State} {e : Edge} (he : s.sync.cams.head? = some e) (hen : s.fld OBS_SCFG OBS_SCFG_CAMEN = 1)
    (hfires : s.fires = true) (hhit : s.hits e = false) (hedge : s.fld (WHL_CFG s.camWheel) WHL_CFG_EDGE ≠ 3)
    (hother : s.hitsOther e = true) :
    ∃ t, exec .camEdge s = .next t ∧ t.sync.phErr = s.sync.phErr + 1
      ∧ (s.sync.phErr + 1 < s.fld OBS_SCAM OBS_SCAM_NCONF → t = { s with sync := t.sync })
      ∧ (s.fld OBS_SCAM OBS_SCAM_NCONF ≤ s.sync.phErr + 1 → t.syncSt = 5 ∧ t.fld OBS_SCAUSE OBS_SCAUSE_CAUSE = 5) := by
  have hcam := State.camEdge_placed (s := s.camTaken) hen hfires e
  have hhit' : s.camTaken.hits e = false := hhit
  have hother' : s.camTaken.hitsOther e = true := hother
  have hedge' : (s.camTaken.fld (WHL_CFG s.camTaken.camWheel) WHL_CFG_EDGE == 3) = false := beq_false_of_ne hedge
  rw [hhit', hother', hedge', State.camPlaced_other] at hcam
  refine ⟨_, (exec_camEdge he).trans (congrArg Host.Outcome.next hcam), ?_⟩
  have hfew : ((s.camTaken.camSeen e).fld OBS_SCAM OBS_SCAM_NCONF ≤ (s.camTaken.camSeen e).sync.phErr + 1)
      = (s.fld OBS_SCAM OBS_SCAM_NCONF ≤ s.sync.phErr + 1) := rfl
  simp only [hfew]
  split
  · next hmany =>
    have hlost := State.goSync_lostBy (s := (s.camTaken.camSeen e).updSync fun y => { y with phErr := y.phErr + 1 }) hfires
      (cause := caPHASE) (by decide)
    exact ⟨hlost.phErr, fun hlt => absurd hmany (Nat.not_le.mpr hlt), fun _ => ⟨hlost.state, hlost.reason⟩⟩
  · next hfew => exact ⟨rfl, fun _ => rfl, fun hle => absurd hle hfew⟩

theorem State.camError_counts (s : State) : s.camError.fld OBS_SCNT OBS_SCNT_CAMERR
      = min (2 ^ OBS_SCNT_CAMERR.w - 1) (s.fld OBS_SCNT OBS_SCNT_CAMERR + 1)
    ∧ s.camError.bit OBS_SEVT OBS_SEVT_CAMERR = true
    ∧ s.onlySends s.camError [OBS_SCNT, OBS_SEVT] [evtItem OBS_SEVT OBS_SEVT_CAMERR] := by
  refine ⟨?_, State.bit_raise _ _ (by decide), State.onlySends_raise _ (by decide) (.setReg _ _ _) fun k hk => ?_⟩
  · rw [State.fld, State.camError, State.reg_raise_ne _ _ (by decide), ← State.fld, State.fld_count _ _ _ _ (by decide)]
  · exact State.reg_setFld_ne _ _ _ fun h => hk (h ▸ List.mem_cons_self)

theorem State.camError_updSync (s : State) (f : Sync → Sync) : (s.updSync f).camError = s.camError.updSync f := rfl

theorem State.resynced_camError (s : State) (f g : Sync → Sync) :
    ({ (s.camError.updSync f).updSync g with sync := s.sync } : State) = s.camError := rfl

theorem camEdge_unmatched {s : State} {e : Edge} (he : s.sync.cams.head? = some e) (hen : s.fld OBS_SCFG OBS_SCFG_CAMEN = 1)
    (hfires : s.fires = true) (hhit : s.hits e = false) (hedge : s.fld (WHL_CFG s.camWheel) WHL_CFG_EDGE ≠ 3)
    (hother : s.hitsOther e = false) :
    ∃ t, exec .camEdge s = .next t
      ∧ t.fld OBS_SCNT OBS_SCNT_CAMERR = min (2 ^ OBS_SCNT_CAMERR.w - 1) (s.fld OBS_SCNT OBS_SCNT_CAMERR + 1)
      ∧ t.bit OBS_SEVT OBS_SEVT_CAMERR = true
      ∧ s.onlySends { t with sync := s.sync } [OBS_SCNT, OBS_SEVT] [evtItem OBS_SEVT OBS_SEVT_CAMERR] := by
  have hcam := State.camEdge_placed (s := s.camTaken) hen hfires e
  have hhit' : s.camTaken.hits e = false := hhit
  have hother' : s.camTaken.hitsOther e = false := hother
  have hedge' : (s.camTaken.fld (WHL_CFG s.camTaken.camWheel) WHL_CFG_EDGE == 3) = false := beq_false_of_ne hedge
  rw [hhit', hother', hedge'] at hcam
  obtain ⟨hcount, hevent, hsends⟩ := s.camError_counts
  refine ⟨(s.camTaken.camSeen e).camError, (exec_camEdge he).trans (congrArg Host.Outcome.next hcam), ?_⟩
  rw [State.camTaken, State.camSeen, State.camError_updSync, State.camError_updSync]
  refine ⟨hcount, hevent, ?_⟩
  rwa [State.resynced_camError]

/-! ### In CRANK (R148) -/

/-- The edges in a row that match the side of this one, with it. -/
def State.camCount (s : State) (other : Bool) : Nat := if s.sync.camSide = some other then s.sync.camRun + 1 else 1

/-- The side and the count kept. -/
def State.camSided (s : State) (other : Bool) : State := s.updSync fun y => { y with camSide := some other, camRun := s.camCount other }

theorem State.camCrank_one {s : State} {both m0 m1 r0 r1 : Bool} (h : m0 ≠ m1) : s.camCrank both m0 m1 r0 r1
    = if s.fld OBS_SCAM OBS_SCAM_NCONF ≤ s.camCount m1 then (s.camSided m1).resolvePhase m1 false else s.camSided m1 := by
  rw [State.camCrank, if_pos (bne_iff_ne.mpr h)]
  rfl

theorem camEdge_crank_resolves {s : State} {e : Edge} (he : s.sync.cams.head? = some e) (hen : s.fld OBS_SCFG OBS_SCFG_CAMEN = 1)
    (hst : s.syncSt = 2) (hone : s.hits e ≠ s.hitsOther e) :
    ∃ t, exec .camEdge s = .next t
      ∧ t.sync.camW = (if s.fld OBS_SCAM OBS_SCAM_NCONF ≤ s.camCount (s.hitsOther e) then t.angW else e.angle)
      ∧ (s.fld OBS_SCAM OBS_SCAM_NCONF ≤ s.camCount (s.hitsOther e) →
          t.syncSt = 3 ∧ t.sync.byCmd = false
            ∧ t.angW = (if s.hitsOther e then s.angW + BitVec.ofNat 32 (2 ^ 23) else s.angW))
      ∧ (s.camCount (s.hitsOther e) < s.fld OBS_SCAM OBS_SCAM_NCONF →
          t = { s with sync := t.sync } ∧ t.sync.camSide = some (s.hitsOther e) ∧ t.sync.camRun = s.camCount (s.hitsOther e)) := by
  have hcam := State.camEdge_crank (s := s.camTaken) hen hst e
  have hone' : s.camTaken.hits e ≠ s.camTaken.hitsOther e := hone
  have hsame : s.camTaken.hitsOther e = s.hitsOther e := rfl
  rw [State.camCrank_one hone', hsame] at hcam
  have henough : ((s.camTaken.camSeen e).fld OBS_SCAM OBS_SCAM_NCONF ≤ (s.camTaken.camSeen e).camCount (s.hitsOther e))
      = (s.fld OBS_SCAM OBS_SCAM_NCONF ≤ s.camCount (s.hitsOther e)) := rfl
  refine ⟨_, (exec_camEdge he).trans (congrArg Host.Outcome.next hcam), ?_⟩
  simp only [henough]
  split
  · next hmany =>
    have hres := State.resolvePhase_resolves (s := (s.camTaken.camSeen e).camSided (s.hitsOther e)) hst (s.hitsOther e) false
    exact ⟨hres.camAngle, fun _ => ⟨hres.state, hres.command, hres.angle⟩, fun hlt => absurd hmany (Nat.not_le.mpr hlt)⟩
  · next hfew => exact ⟨rfl, fun hle => absurd hle hfew, fun _ => ⟨rfl, rfl, rfl⟩⟩

/-! ### The loss of the cam (R154) -/

/-- Two whole cycles have passed since the last cam edge or the entry into FULL. -/
def State.camlossDue (s : State) : Bool := s.fires && s.fld OBS_SCFG OBS_SCFG_CAMEN == 1 && !s.sync.camLost
  && wReached s.angW (s.sync.camW + BitVec.ofNat 32 (2 ^ 25))

theorem camloss_set {s : State} (h : s.camlossDue = true) : ∃ t, exec .camloss s = .next t ∧ t.sync = { s.sync with camLost := true }
    ∧ t.bit OBS_SEVT OBS_SEVT_CAMLOSS = true ∧ s.onlySends { t with sync := s.sync } [OBS_SEVT] [evtItem OBS_SEVT OBS_SEVT_CAMLOSS] :=
  ⟨(s.updSync fun y => { y with camLost := true }).raise OBS_SEVT OBS_SEVT_CAMLOSS, congrArg Host.Outcome.next (if_pos h), rfl,
    State.bit_raise _ _ (by decide), State.onlySends_raise _ (by decide) (.refl s) fun _ _ => rfl⟩

theorem exec_camloss_idle {s : State} (h : s.camlossDue = false) : exec .camloss s = .next s :=
  congrArg Host.Outcome.next (if_neg (Bool.eq_false_iff.mp h))

/-! ### The secondary sensor (R156, R157) -/

/-- The oldest tooth of the secondary taken. -/
def State.secTaken (s : State) : State := s.updSync fun y => { y with secs := y.secs.tail }

theorem exec_secondaryTooth_none {s : State} (h : s.sync.secs = []) : exec .secondaryTooth s = .next s := by
  change execSecondaryTooth s = _
  rw [execSecondaryTooth, h]

theorem exec_secondaryTooth {s : State} {x : Word × Nat} (h : s.sync.secs.head? = some x) :
    exec .secondaryTooth s = .next (s.secTaken.secJudge x.1 x.2) := by
  obtain ⟨l, hl⟩ := List.head?_eq_some_iff.mp h
  have htail : s.secTaken = s.updSync fun y => { y with secs := l } := by
    change (s.updSync fun y => { y with secs := s.sync.secs.tail }) = _
    rw [hl, List.tail_cons]
  change execSecondaryTooth s = _
  rw [execSecondaryTooth, hl, htail]

/-- What the judgement of a tooth leaves alone beside OBS_SDIFF. -/
structure State.JudgeFrame (s t : State) : Prop where
  secs : t.sync.secs = s.sync.secs
  mem : t.mem = s.mem
  obs : t.obs = s.obs
  reg : ∀ k, k ≠ OBS_STATE → k ≠ OBS_SEVT → t.reg k = s.reg k

namespace State.JudgeFrame

variable {s t : State}

theorem refl (s : State) : s.JudgeFrame s := ⟨rfl, rfl, rfl, fun _ _ _ => rfl⟩

theorem setState {f : Fld} {v : Nat} (h : s.JudgeFrame t) : s.JudgeFrame (t.setFld OBS_STATE f v) :=
  ⟨h.secs, h.mem, h.obs, fun k hs he => (State.reg_setFld_ne _ _ _ hs).trans (h.reg k hs he)⟩

theorem raise {bit : Nat} (h : s.JudgeFrame t) : s.JudgeFrame (t.raise OBS_SEVT bit) :=
  ⟨h.secs, h.mem, h.obs, fun k hs he => (State.reg_raise_ne _ _ he).trans (h.reg k hs he)⟩

theorem sendFault {blk unit kind cls detail : Nat} (h : s.JudgeFrame t) : s.JudgeFrame (t.sendFault blk unit kind cls detail) :=
  ⟨h.secs, h.mem, h.obs, h.reg⟩

theorem updSync {f : Sync → Sync} (h : s.JudgeFrame t) (hf : (f t.sync).secs = t.sync.secs) : s.JudgeFrame (t.updSync f) :=
  ⟨hf.trans h.secs, h.mem, h.obs, h.reg⟩

theorem ite {c : Prop} [Decidable c] {u : State} (ht : s.JudgeFrame t) (hu : s.JudgeFrame u) : s.JudgeFrame (if c then t else u) := by
  split
  · exact ht
  · exact hu

theorem secLose (h : s.JudgeFrame t) : s.JudgeFrame t.secLose := by
  have hin : s.JudgeFrame (t.updSync fun y => { y with secIn := 0 }) := h.updSync rfl
  exact .ite hin.setState.raise.sendFault hin

theorem secJudge (s : State) (w : Word) (i : Nat) :
    (s.setReg OBS_SDIFF (BitVec.ofInt 32 (s.secError s.sync.sec w i))).JudgeFrame (s.secJudge w i) := by
  unfold State.secJudge
  extract_lets e s1 sIn sOut
  have hin : s1.JudgeFrame sIn := (refl s1).updSync rfl
  have hout : s1.JudgeFrame sOut := (refl s1).updSync rfl
  exact .ite (.ite hin.setState hin) (.ite hout.secLose hout)

end State.JudgeFrame

/-- A tooth within RTOL of its angle. -/
def State.secNear (s : State) (e : Int) : State :=
  (s.setReg OBS_SDIFF (BitVec.ofInt 32 e)).updSync fun y => { y with secIn := min 16 (y.secIn + 1), secOut := 0 }

/-- A tooth outside it. -/
def State.secFar (s : State) (e : Int) : State :=
  (s.setReg OBS_SDIFF (BitVec.ofInt 32 e)).updSync fun y => { y with secIn := 0, secOut := y.secOut + 1 }

theorem State.secJudge_near {s : State} {w : Word} {i : Nat} (h : (s.secError s.sync.sec w i).natAbs ≤ s.fld OBS_SCFG OBS_SCFG_RTOL) :
    s.secJudge w i = if 15 ≤ s.sync.secIn then (s.secNear (s.secError s.sync.sec w i)).setFld OBS_STATE OBS_STATE_AGREE 1
      else s.secNear (s.secError s.sync.sec w i) := by
  have henough : (16 ≤ min 16 (s.sync.secIn + 1)) = (15 ≤ s.sync.secIn) := propext (by omega)
  rw [State.secJudge, if_pos h]
  simp only [capAt_eq_min]
  exact if_congr (iff_of_eq henough) rfl rfl

theorem State.secJudge_far {s : State} {w : Word} {i : Nat} (h : s.fld OBS_SCFG OBS_SCFG_RTOL < (s.secError s.sync.sec w i).natAbs) :
    s.secJudge w i = if s.fld OBS_SCFG OBS_SCFG_NMIS ≤ s.sync.secOut + 1 then (s.secFar (s.secError s.sync.sec w i)).secLose
      else s.secFar (s.secError s.sync.sec w i) := by
  have hmis : (s.secFar (s.secError s.sync.sec w i)).fld OBS_SCFG OBS_SCFG_NMIS = s.fld OBS_SCFG OBS_SCFG_NMIS :=
    State.fld_setReg_ne s _ _ (by decide)
  rw [State.secJudge, if_neg (Nat.not_le.mpr h), ← hmis]
  rfl

theorem State.agree_lt_two (s : State) : s.fld OBS_STATE OBS_STATE_AGREE < 2 := Nat.mod_lt _ (by decide)

/-- Agreement lost: told where it had been found (R155, R157). -/
theorem State.secLose_ends (s : State) : s.secLose.fld OBS_STATE OBS_STATE_AGREE = 0 ∧ s.secLose.sync = { s.sync with secIn := 0 }
    ∧ (s.fld OBS_STATE OBS_STATE_AGREE = 1 → s.secLose.bit OBS_SEVT OBS_SEVT_DISAGREE = true
      ∧ faultItem blkOBS 0 0x12 clsC s.sync.sec ∈ s.secLose.inflight) := by
  unfold State.secLose
  extract_lets s1
  have hagree : s1.fld OBS_STATE OBS_STATE_AGREE = s.fld OBS_STATE OBS_STATE_AGREE := rfl
  split
  · refine ⟨?_, rfl, fun _ => ⟨?_, List.mem_append_right _ List.mem_cons_self⟩⟩
    · rw [State.fld, State.sendFault, State.reg_launch, State.reg_raise_ne _ _ (by decide), ← State.fld]
      exact State.fld_setFld_same _ _ _ _ (by decide)
    · rw [State.bit, State.sendFault, State.reg_launch]
      exact State.bit_raise _ _ (by decide)
  · next hno =>
    refine ⟨?_, rfl, fun h => absurd (hagree.trans h) hno⟩
    have := s1.agree_lt_two
    omega

theorem secondaryTooth_judged {s : State} {x : Word × Nat} (hx : s.sync.secs.head? = some x) :
    ∃ t, exec .secondaryTooth s = .next t ∧ t.sync.secs = s.sync.secs.tail
      ∧ t.reg OBS_SDIFF = BitVec.ofInt 32 (s.secError s.sync.sec x.1 x.2)
      ∧ ((s.secError s.sync.sec x.1 x.2).natAbs ≤ s.fld OBS_SCFG OBS_SCFG_RTOL → t.sync.secIn = min 16 (s.sync.secIn + 1)
          ∧ t.sync.secOut = 0 ∧ (15 ≤ s.sync.secIn → t.fld OBS_STATE OBS_STATE_AGREE = 1)
          ∧ (s.sync.secIn < 15 → t.reg OBS_STATE = s.reg OBS_STATE))
      ∧ (s.fld OBS_SCFG OBS_SCFG_RTOL < (s.secError s.sync.sec x.1 x.2).natAbs → t.sync.secIn = 0
          ∧ t.sync.secOut = s.sync.secOut + 1
          ∧ (s.sync.secOut + 1 < s.fld OBS_SCFG OBS_SCFG_NMIS → t.reg OBS_STATE = s.reg OBS_STATE ∧ t.inflight = s.inflight)
          ∧ (s.fld OBS_SCFG OBS_SCFG_NMIS ≤ s.sync.secOut + 1 → t.fld OBS_STATE OBS_STATE_AGREE = 0
              ∧ (s.fld OBS_STATE OBS_STATE_AGREE = 1 → t.bit OBS_SEVT OBS_SEVT_DISAGREE = true
                  ∧ faultItem blkOBS 0 0x12 clsC s.sync.sec ∈ t.inflight)))
      ∧ t.mem = s.mem ∧ t.obs = s.obs ∧ ∀ k, k ≠ OBS_SDIFF → k ≠ OBS_STATE → k ≠ OBS_SEVT → t.reg k = s.reg k := by
  obtain ⟨hsecs, hmem, hobs, hreg⟩ := State.JudgeFrame.secJudge s.secTaken x.1 x.2
  have hshown : ∀ e : Int, (s.secTaken.setReg OBS_SDIFF (BitVec.ofInt 32 e)).reg OBS_STATE = s.reg OBS_STATE := fun e =>
    State.reg_setReg_ne _ _ (by decide)
  refine ⟨_, exec_secondaryTooth hx, hsecs, (hreg _ (by decide) (by decide)).trans (State.reg_setReg_same _ _ _), fun hnear => ?_,
    fun hfar => ?_, hmem, hobs, fun k hdiff hstate hevt => (hreg k hstate hevt).trans (State.reg_setReg_ne _ _ hdiff)⟩
  · rw [State.secJudge_near (s := s.secTaken) hnear]
    split
    · next hin => exact ⟨rfl, rfl, fun _ => State.fld_setFld_same _ _ _ _ (by decide), fun hlt => absurd hin (Nat.not_le.mpr hlt)⟩
    · next hin => exact ⟨rfl, rfl, fun hle => absurd hle hin, fun _ => hshown _⟩
  · rw [State.secJudge_far (s := s.secTaken) hfar]
    split
    · next hout =>
      obtain ⟨hagree, hsync, htold⟩ := (s.secTaken.secFar (s.secTaken.secError s.secTaken.sync.sec x.1 x.2)).secLose_ends
      refine ⟨congrArg Sync.secIn hsync, congrArg Sync.secOut hsync, fun hlt => absurd hout (Nat.not_le.mpr hlt),
        fun _ => ⟨hagree, fun h => ?_⟩⟩
      exact htold ((congrArg OBS_STATE_AGREE.get (hshown _)).trans h)
    · next hout => exact ⟨rfl, rfl, fun _ => ⟨hshown _, rfl⟩, fun hle => absurd hle hout⟩

end Sys2Proof.Machine

end

section
/-! PROOFS. The commands of OBS_SCMD (R149, R158, R163, R165 to R167, R171). -/

namespace Sys2Proof.Machine

/-! ### Writes of OBS_SCMD (R13, R171) -/

/-- The row of OBS_SCMD: four command fields, which the register does not keep. -/
def obsScmdRow : Row :=
  { off := 0x210, s1 := 0x4, c1 := 1, s2 := 0x4, c2 := 1, rst := 0x0, werr := .bit 31, lock := .none,
    flds := [⟨OBS_SCMD_RESEEK, .wo, .any⟩, ⟨OBS_SCMD_PHASE, .wo, .u 0 2⟩,
      ⟨OBS_SCMD_SWAP, .wo, .any⟩, ⟨OBS_SCMD_DROP, .wo, .any⟩] }

theorem rowFind_OBS_SCMD : rowFind (blockRows (blkOf OBS_SCMD)) (OBS_SCMD % 0x10000) = some (obsScmdRow, 0, 0) := by decide

/-- OBS_SCMD does not keep what is written to it. -/
def State.scmdAsked (s : State) : State := s.setReg OBS_SCMD (s.reg OBS_SCMD)

theorem State.fld_scmdAsked (s : State) (k : Nat) (f : Fld) : s.scmdAsked.fld k f = s.fld k f :=
  congrArg f.get (s.reg_setReg_self OBS_SCMD k)

theorem State.syncSt_scmdAsked (s : State) : s.scmdAsked.syncSt = s.syncSt := s.fld_scmdAsked _ _

theorem State.fires_scmdAsked (s : State) : s.scmdAsked.fires = s.fires := by rw [State.fires, State.syncSt_scmdAsked, State.fires]

theorem State.srcWheel_scmdAsked (s : State) : s.scmdAsked.srcWheel = s.srcWheel := s.fld_scmdAsked _ _

/-- The state a command has to find (R171): no other condition holds a write of OBS_SCMD up. -/
def State.scmdLegal (s : State) (w : Word) : Bool :=
  (OBS_SCMD_RESEEK.get w == 0 || s.syncSt == syncLOST)
    && (OBS_SCMD_PHASE.get w == 0 || (s.syncSt == syncCRANK && OBS_SCMD_PHASE.get w != 3))
    && (OBS_SCMD_SWAP.get w == 0 || (s.syncSt == syncFULL && s.fld OBS_STATE OBS_STATE_AGREE == 1))
    && (OBS_SCMD_DROP.get w == 0 || s.fires)

theorem State.obsLegal_OBS_SCMD (s : State) (w : Word) : (s.obsLegal OBS_SCMD w && s.syncLegal OBS_SCMD w) = s.scmdLegal w :=
  Bool.true_and _

theorem State.obsWrite_OBS_SCMD {s : State} {w : Word} (hflds : fieldsLegal obsScmdRow.flds w = true) (h : s.scmdLegal w = true) :
    s.obsWrite OBS_SCMD w = s.scmdAsked.syncCommand w := by
  rw [State.obsWrite, State.writeWith_of_rwcSame rowFind_OBS_SCMD rfl,
    State.writeWith_of_legal rowFind_OBS_SCMD hflds rfl ((s.obsLegal_OBS_SCMD w).trans h),
    if_neg (by decide), if_neg (by decide), if_neg (by decide), if_pos rfl]
  rfl

theorem State.obsWrite_OBS_SCMD_refused {s : State} {w : Word} (h : s.scmdLegal w = false) :
    s.writeRefused (s.obsWrite OBS_SCMD w) OBS_SCMD := by
  rw [State.obsWrite, State.writeWith_of_illegal rowFind_OBS_SCMD ((s.obsLegal_OBS_SCMD w).trans h)]
  exact State.refuseWrite_refused rowFind_OBS_SCMD

theorem State.scmdLegal_reseek (s : State) : s.scmdLegal 1 = (s.syncSt == syncLOST) := by
  change (s.syncSt == syncLOST && true && true && true) = _
  simp only [Bool.and_true]

theorem State.scmdLegal_phaseKeep (s : State) : s.scmdLegal 2 = (s.syncSt == syncCRANK) := by
  change (s.syncSt == syncCRANK && true && true && true) = _
  simp only [Bool.and_true]

theorem State.scmdLegal_phaseAdd (s : State) : s.scmdLegal 4 = (s.syncSt == syncCRANK) := by
  change (s.syncSt == syncCRANK && true && true && true) = _
  simp only [Bool.and_true]

theorem State.scmdLegal_swap (s : State) : s.scmdLegal 8 = (s.syncSt == syncFULL && s.fld OBS_STATE OBS_STATE_AGREE == 1) :=
  Bool.and_true _

theorem State.scmdLegal_drop (s : State) : s.scmdLegal 16 = s.fires := rfl

/-! ### RESEEK (R165) -/

theorem reseek_seeks {s : State} (h : s.syncSt = 5) : ∃ t, exec .reseek s = .next t ∧ t.syncSt = 1 ∧ t.sync.search = {}
    ∧ t.fld OBS_FLAGS OBS_FLAGS_VALID = 0 ∧ (∀ n : Fin 64, (t.pend n).testBit 0 = true)
    ∧ t.mem = s.mem ∧ t.calq = s.calq ∧ t.stage = s.stage := by
  have hwrite : s.obsWrite OBS_SCMD 1 = s.scmdAsked.seek s.scmdAsked.srcWheel none :=
    State.obsWrite_OBS_SCMD rfl (by rw [State.scmdLegal_reseek, h]; rfl)
  have hseeks := State.seek_seeksAnew (s.syncSt_scmdAsked.trans h) s.scmdAsked.srcWheel
  obtain ⟨hmem, hrest⟩ := Prod.mk.inj hseeks.stores
  obtain ⟨hcalq, hstage⟩ := Prod.mk.inj hrest
  exact ⟨_, congrArg Host.Outcome.next hwrite, hseeks.state, hseeks.search, hseeks.valid, hseeks.pend, hmem, hcalq, hstage⟩

theorem reseek_refused {s : State} (h : s.syncSt ≠ 5) : ∃ t, exec .reseek s = .next t ∧ s.writeRefused t OBS_SCMD :=
  ⟨_, rfl, State.obsWrite_OBS_SCMD_refused (s.scmdLegal_reseek.trans (beq_false_of_ne h))⟩

/-! ### PHASE (R149) -/

theorem phaseKeep_resolves {s : State} (h : s.syncSt = 2) : ∃ t, exec .phaseKeep s = .next t ∧ t.syncSt = 3 ∧ t.sync.byCmd = true
    ∧ t.angW = s.angW ∧ t.fld OBS_STATE OBS_STATE_PHASE = 1
    ∧ t.fld OBS_STATE OBS_STATE_SGEN = (s.fld OBS_STATE OBS_STATE_SGEN + 1) % 256 ∧ t.bit OBS_SEVT OBS_SEVT_FULL = true
    ∧ ∀ a ∈ t.calq ++ t.stage, a.place = .waiting → wReached s.angW a.w0 = false := by
  have hwrite : s.obsWrite OBS_SCMD 2 = s.scmdAsked.resolvePhase false true :=
    State.obsWrite_OBS_SCMD rfl (by rw [State.scmdLegal_phaseKeep, h]; rfl)
  have hres := State.resolvePhase_resolves (s.syncSt_scmdAsked.trans h) false true
  have hang : (s.scmdAsked.resolvePhase false true).angW = s.angW := hres.angle
  refine ⟨_, congrArg Host.Outcome.next hwrite, hres.state, hres.command, hang, hres.phase, ?_, hres.event, ?_⟩
  · rw [hres.gen, State.fld_scmdAsked]
  · rw [← hang]
    exact hres.ahead

theorem phaseAdd_resolves {s : State} (h : s.syncSt = 2) : ∃ t, exec .phaseAdd s = .next t ∧ t.syncSt = 3 ∧ t.sync.byCmd = true
    ∧ t.angW = s.angW + BitVec.ofNat 32 (2 ^ 23) ∧ t.bit OBS_SEVT OBS_SEVT_FULL = true := by
  have hwrite : s.obsWrite OBS_SCMD 4 = s.scmdAsked.resolvePhase true true :=
    State.obsWrite_OBS_SCMD rfl (by rw [State.scmdLegal_phaseAdd, h]; rfl)
  have hres := State.resolvePhase_resolves (s.syncSt_scmdAsked.trans h) true true
  exact ⟨_, congrArg Host.Outcome.next hwrite, hres.state, hres.command, hres.angle, hres.event⟩

theorem phase_refused {s : State} (h : s.syncSt ≠ 2) : (∃ t, exec .phaseKeep s = .next t ∧ s.writeRefused t OBS_SCMD)
    ∧ ∃ t, exec .phaseAdd s = .next t ∧ s.writeRefused t OBS_SCMD :=
  ⟨⟨_, rfl, State.obsWrite_OBS_SCMD_refused (s.scmdLegal_phaseKeep.trans (beq_false_of_ne h))⟩,
    _, rfl, State.obsWrite_OBS_SCMD_refused (s.scmdLegal_phaseAdd.trans (beq_false_of_ne h))⟩

/-! ### SWAP (R158, R159) -/

theorem swapSource_swaps {s : State} (h : s.syncSt = 3) (hagree : s.fld OBS_STATE OBS_STATE_AGREE = 1) (hsec : s.sync.sec < 6) :
    ∃ t, exec .swapSource s = .next t
      ∧ t.srcWheel = s.sync.sec ∧ t.sync.sec = s.srcWheel ∧ t.syncSt = 4 ∧ t.fld OBS_STATE OBS_STATE_HOLDN = 16
      ∧ t.angW = s.angW ∧ t.bit OBS_SEVT OBS_SEVT_SWITCH = true ∧ t.bit OBS_SEVT OBS_SEVT_HOLD = true ∧ t.obs.pred = none
      ∧ t.fld OBS_STATE OBS_STATE_AGREE = 0 ∧ t.mem = s.mem ∧ t.calq = s.calq ∧ t.stage = s.stage := by
  have hwrite : s.obsWrite OBS_SCMD 8 = s.scmdAsked.switchSource :=
    State.obsWrite_OBS_SCMD rfl (by rw [State.scmdLegal_swap, h, hagree]; rfl)
  have hswitch := State.switchSource_switches (s.syncSt_scmdAsked.trans h)
  have hsource : s.scmdAsked.switchSource.srcWheel = s.sync.sec := hswitch.source.trans (Nat.mod_eq_of_lt (Nat.lt_trans hsec (by decide)))
  obtain ⟨hmem, hrest⟩ := Prod.mk.inj hswitch.stores
  obtain ⟨hcalq, hstage⟩ := Prod.mk.inj hrest
  exact ⟨_, congrArg Host.Outcome.next hwrite, hsource, hswitch.second.trans s.srcWheel_scmdAsked, hswitch.state, hswitch.teeth,
    hswitch.angle, hswitch.switchEvent, hswitch.holdEvent, hswitch.pred, hswitch.agree, hmem, hcalq, hstage⟩

theorem swapSource_refused {s : State} (h : s.syncSt ≠ 3 ∨ s.fld OBS_STATE OBS_STATE_AGREE = 0) :
    ∃ t, exec .swapSource s = .next t ∧ s.writeRefused t OBS_SCMD := by
  refine ⟨_, rfl, State.obsWrite_OBS_SCMD_refused ?_⟩
  rw [State.scmdLegal_swap]
  rcases h with hst | hagree
  · rw [beq_false_of_ne hst, Bool.false_and]
  · rw [hagree, Bool.and_eq_false_iff]
    exact .inr rfl

/-! ### DROP (R163, R167) -/

theorem dropSync_drops {s : State} (h : s.fires = true) : ∃ t, exec .dropSync s = .next t ∧ t.syncSt = 5
    ∧ t.fld OBS_SCAUSE OBS_SCAUSE_CAUSE = 7 ∧ t.fld OBS_SCAUSE OBS_SCAUSE_FROM = s.syncSt ∧ t.reg OBS_SLOSTA = s.angW
    ∧ t.fld OBS_SCNT OBS_SCNT_LOST = min (2 ^ OBS_SCNT_LOST.w - 1) (s.fld OBS_SCNT OBS_SCNT_LOST + 1)
    ∧ t.bit OBS_SEVT OBS_SEVT_LOST = true ∧ faultItem blkOBS 0 0x10 clsU 7 ∈ t.inflight ∧ t.fld OBS_FLAGS OBS_FLAGS_VALID = 0
    ∧ ∀ a ∈ t.calq ++ t.stage, a.place ≠ .waiting ∧ a.place ≠ .held := by
  have hwrite : s.obsWrite OBS_SCMD 16 = s.scmdAsked.goSync syncLOST caSOFTWARE :=
    State.obsWrite_OBS_SCMD rfl (s.scmdLegal_drop.trans h)
  have hlost := State.goSync_lostBy (s.fires_scmdAsked.trans h) (cause := caSOFTWARE) (by decide)
  refine ⟨_, congrArg Host.Outcome.next hwrite, hlost.state, hlost.reason, hlost.source.trans s.syncSt_scmdAsked, hlost.angle, ?_,
    hlost.event, hlost.message, hlost.valid, fun a ha => not_or.mp (hlost.idle a ha)⟩
  rw [hlost.count, State.fld_scmdAsked]

theorem dropSync_refused {s : State} (h : s.fires = false) : ∃ t, exec .dropSync s = .next t ∧ s.writeRefused t OBS_SCMD :=
  ⟨_, rfl, State.obsWrite_OBS_SCMD_refused (s.scmdLegal_drop.trans h)⟩

end Sys2Proof.Machine

open Sys2Proof.Machine

/-- Settles O26: a delivered cam edge and a tooth of the secondary are judged branch by branch, and each command of OBS_SCMD is a legal or a
refused write of its word. What a change of the sync state ends with leaves the registers of synchronisation and the actions not retired. -/
theorem synchronisation : Obligations.Synchronisation := by
  refine ⟨⟨fun s => exec_camEdge_none, fun s e he => ?_, fun s => ⟨camloss_set, exec_camloss_idle⟩,
      fun s => ⟨exec_secondaryTooth_none, fun x => secondaryTooth_judged⟩⟩,
    fun s => ⟨reseek_seeks, reseek_refused⟩, fun s => ⟨fun h => ⟨phaseKeep_resolves h, phaseAdd_resolves h⟩, phase_refused⟩,
    fun s => ⟨swapSource_swaps, swapSource_refused⟩, fun s => ⟨dropSync_drops, dropSync_refused⟩⟩
  intro cam b hit other
  refine ⟨fun hoff => ?_, fun hon hst => ?_, camEdge_confirms he, camEdge_errs he, camEdge_unmatched he, camEdge_crank_resolves he⟩
  · exact ⟨_, exec_camEdge he, State.camEdge_off (s := s.camTaken) hoff e⟩
  · exact ⟨_, exec_camEdge he, State.camEdge_seek (s := s.camTaken) hon hst e⟩

end

section
/-! PROOFS. What a retirement and an abort do to the calendar, and what they leave alone (R177, R198, R199, R203 to R209). -/

namespace Sys2Proof.Machine

/-! ### The record of a retirement (R204, R239) -/

/-- The registers in which the record and the report of a retirement are kept: the counts and events of CAL, AEN, and QUE. -/
abbrev recordReg (k : Nat) : Prop := k = CAL_CNT1 ∨ k = CAL_EVT ∨ (0x40080000 ≤ k ∧ k < 0x40090000) ∨ 0x40160000 ≤ k

/-- `t` is `s` but for the registers of a record, memory, meters, and items launched behind the earlier ones; an event of CAL once
set stays set. -/
structure State.RecordFrame (s t : State) : Prop where
  eq : t = { s with regs := t.regs, mem := t.mem, inflight := t.inflight, meters := t.meters }
  sent : s.inflight ⊆ t.inflight
  reg : ∀ k, ¬ recordReg k → t.reg k = s.reg k
  evt : ∀ i, s.bit CAL_EVT i = true → t.bit CAL_EVT i = true

namespace State.RecordFrame

variable {s t u : State}

theorem refl (s : State) : s.RecordFrame s := ⟨rfl, fun _ h => h, fun _ _ => rfl, fun _ h => h⟩

theorem trans (h : s.RecordFrame t) (h' : t.RecordFrame u) : s.RecordFrame u :=
  ⟨h'.eq.trans (by rw [h.eq]), fun _ hx => h'.sent (h.sent hx), fun k hk => (h'.reg k hk).trans (h.reg k hk),
    fun i hi => h'.evt i (h.evt i hi)⟩

theorem setReg {k : Nat} {v : Word} (h : s.RecordFrame t) (hk : recordReg k) (hne : k ≠ CAL_EVT) : s.RecordFrame (t.setReg k v) :=
  h.trans ⟨rfl, fun _ hx => hx, fun _ hj => State.reg_setReg_ne _ _ (by rintro rfl; exact hj hk), fun i hi => by
    rwa [State.bit, State.reg_setReg_ne _ _ (Ne.symm hne), ← State.bit]⟩

/-- An event adds its bit. -/
theorem raise {evt bit : Nat} (h : s.RecordFrame t) (hk : recordReg evt) : s.RecordFrame (t.raise evt bit) := by
  refine h.trans ⟨rfl, fun _ hx => List.mem_append_left _ hx, fun _ hj => State.reg_raise_ne _ _ (by rintro rfl; exact hj hk),
    fun i hi => ?_⟩
  by_cases hevt : CAL_EVT = evt
  · subst hevt
    have hlt : i < 32 := by
      by_contra hge
      rw [State.bit, bitOf, BitVec.getLsbD_of_ge _ _ (Nat.le_of_not_lt hge)] at hi
      cases hi
    by_cases hi' : i = bit
    · exact hi' ▸ State.bit_raise _ _ (hi' ▸ hlt)
    · rw [State.bit, State.raise, State.reg_launch, State.reg_setBit_same, bitOf_withBit_ne _ _ hi']
      exact hi
  · rwa [State.bit, State.reg_raise_ne _ _ hevt]

theorem ite {c : Prop} [Decidable c] (ht : s.RecordFrame t) (hu : s.RecordFrame u) : s.RecordFrame (if c then t else u) := by
  split
  · exact ht
  · exact hu

theorem budDraw {acct : Option Nat} {r n : Nat} (h : s.RecordFrame t) : s.RecordFrame (t.budDraw acct r n) := by
  cases acct with
  | none => exact h
  | some a =>
    exact h.trans ⟨by simp only [State.budDraw, State.updMeter], by rw [State.budDraw_inflight]; exact List.Subset.refl _,
      fun _ _ => State.budDraw_reg _ _ _ _ _, fun i hi => by
      rwa [State.bit, State.budDraw_reg]⟩

theorem wrBytes {a : Nat} {l : List Byte} (h : s.RecordFrame t) : s.RecordFrame (t.wrBytes a l) := by
  induction l generalizing a t with
  | nil => exact h
  | cons b l ih => exact ih (a := a + 1) (h.trans (u := t.wr8 a b) ⟨rfl, fun _ hx => hx, fun _ _ => rfl, fun _ hi => hi⟩)

theorem setPend {n k : Nat} (h : s.RecordFrame t) (hn : n < 64) : s.RecordFrame (t.setPend n k) :=
  h.setReg (by simp only [recordReg, AEN_TSTAT]; omega) (by simp only [AEN_TSTAT, CAL_EVT]; omega)

theorem setPendWhere {k n : Nat} {p : Nat → Bool} (h : s.RecordFrame t) (hn : n ≤ 64) : s.RecordFrame (t.setPendWhere k p n) := by
  induction n with
  | zero => exact h
  | succ n ih => exact .ite ((ih (by omega)).setPend (by omega)) (ih (by omega))

theorem syncQueue {q : Nat} (h : s.RecordFrame t) : s.RecordFrame (t.syncQueue q) :=
  .ite h (List.foldlRecOn _ _ (motive := fun u : State => s.RecordFrame u) h fun _ hu _ _ => hu.setPendWhere (by omega))

theorem setQueueReg {k : Nat} {v : Word} (h : s.RecordFrame t) (hk : 0x40160000 ≤ k) : s.RecordFrame (t.setReg k v) :=
  h.setReg (by simp only [recordReg]; omega) (by simp only [CAL_EVT]; omega)

theorem qRefuse {q : Nat} (h : s.RecordFrame t) : s.RecordFrame (t.qRefuse q) :=
  (h.setQueueReg (by simp only [QUE_QDROP]; omega)).raise (by decide)

theorem qput {q : Nat} {e : List Byte} (h : s.RecordFrame t) : s.RecordFrame (t.qput q e).1 := by
  unfold State.qput
  split
  · exact h.qRefuse
  · split
    · exact h.qRefuse
    · exact (h.wrBytes.setQueueReg (by simp only [QUE_QHEAD]; omega)).setQueueReg (by simp only [QUE_QCNT]; omega) |>.syncQueue

theorem putRecord {a : Action} {st dur : Nat} {start : Word} (h : s.RecordFrame t) : s.RecordFrame (t.putRecord a st start dur) :=
  .ite (.ite h.budDraw.qput ((h.budDraw.qput.setReg (by decide) (by decide)).raise (by decide))) h

end State.RecordFrame

/-! ### A retirement (R177, R203, R209) -/

/-- The entry of an action freed and its final status counted. -/
def State.counted (s : State) (a : Action) (st : Nat) : State :=
  ((s.freed a st).setFld CAL_USED ⟨0, 18⟩ ((s.freed a st).fld CAL_USED ⟨0, 18⟩ - 1)).countStatus st

/-- What follows the count: DEFER is reported. -/
def State.reported (s : State) (a : Action) (st : Nat) : State :=
  if a.defer then (s.counted a st).raise CAL_EVT CAL_EVT_DEFER else s.counted a st

/-- The poster is told. -/
def State.posterTold (s : State) (a : Action) (st : Nat) : State :=
  if a.poster < 64 ∧ st ≠ stDONE then (s.reported a st).setPend a.poster pdRETIRE else s.reported a st

theorem State.retire_eq (s : State) (a : Action) (st : Nat) (start : Word) (dur : Nat) :
    s.retire a st start dur = (s.posterTold a st).putRecord a st start dur := rfl

theorem State.RecordFrame.posterTold (s : State) (a : Action) (st : Nat) : (s.reported a st).RecordFrame (s.posterTold a st) := by
  unfold State.posterTold
  split
  · next h => exact State.RecordFrame.setPend (.refl _) h.1
  · exact .refl _

theorem State.RecordFrame.ofReported (s : State) (a : Action) (st : Nat) (start : Word) (dur : Nat) :
    (s.reported a st).RecordFrame (s.retire a st start dur) := (State.RecordFrame.posterTold s a st).putRecord

theorem State.RecordFrame.ofCounted (s : State) (a : Action) (st : Nat) (start : Word) (dur : Nat) :
    (s.counted a st).RecordFrame (s.retire a st start dur) :=
  (State.RecordFrame.ite (.raise (.refl _) (by decide)) (.refl _)).trans (.ofReported s a st start dur)

/-- The registers that a retirement can change. -/
abbrev bookReg (k : Nat) : Prop := k = CAL_USED ∨ k = CAL_CNT0 ∨ recordReg k

/-- `t` is `s` with the entry of an action freed under its final status, but for the registers of the books, memory, meters, and items
launched behind the earlier ones. -/
structure State.Retired (s t : State) (a : Action) (st : Nat) : Prop where
  eq : t = { s.freed a st with regs := t.regs, mem := t.mem, inflight := t.inflight, meters := t.meters }
  sent : s.inflight ⊆ t.inflight
  reg : ∀ k, ¬ bookReg k → t.reg k = s.reg k

theorem State.counted_retired (s : State) (a : Action) (st : Nat) : s.Retired (s.counted a st) a st := by
  have hused : s.Retired ((s.freed a st).setFld CAL_USED ⟨0, 18⟩ ((s.freed a st).fld CAL_USED ⟨0, 18⟩ - 1)) a st :=
    ⟨rfl, fun _ hx => hx, fun k hk => State.reg_setFld_ne _ _ _ fun h => hk (.inl h)⟩
  have hcount : ∀ u f bit, s.Retired u a st → s.Retired ((u.count CAL_CNT0 f 1).raise CAL_EVT bit) a st := by
    intro u f bit hu
    refine ⟨?_, fun _ hx => List.mem_append_left _ (hu.sent hx), fun k hk => ?_⟩
    · rw [hu.eq]
      rfl
    · rw [State.reg_raise_ne _ _ (by rintro rfl; exact hk (by decide)), State.count,
        State.reg_setFld_ne _ _ _ (by rintro rfl; exact hk (by decide)), hu.reg k hk]
  unfold State.counted State.countStatus
  split
  · exact hcount _ _ _ hused
  · split
    · exact hcount _ _ _ hused
    · split
      · exact hcount _ _ _ hused
      · exact hused

theorem State.retire_retired (s : State) (a : Action) (st : Nat) (start : Word) (dur : Nat) :
    s.Retired (s.retire a st start dur) a st := by
  have hc := s.counted_retired a st
  have hr := State.RecordFrame.ofCounted s a st start dur
  refine ⟨hr.eq.trans ?_, fun _ hx => hr.sent (hc.sent hx), fun k hk => (hr.reg k fun h => hk (.inr (.inr h))).trans (hc.reg k hk)⟩
  rw [hc.eq]

namespace State.Retired

variable {s t : State} {a : Action} {st : Nat}

/-- No action of the entry is left. -/
theorem gone (h : s.Retired t a st) : ∀ b ∈ t.calq ++ t.stage, b.idx ≠ a.idx := by
  intro b hb
  rw [h.eq] at hb
  exact (State.mem_actions_freed (s := s) (st := st) hb).2

/-- The entry keeps its final status. -/
theorem status (h : s.Retired t a st) : (tabGet (fun _ => ({} : CalEnt)) t.calEnt a.idx).st = st := by
  rw [h.eq]
  exact congrArg CalEnt.st (tabGet_tabSet_same _ _ _ _)

theorem bit (h : s.Retired t a st) {k : Nat} (hk : ¬ bookReg k) (i : Nat) : t.bit k i = s.bit k i := by
  rw [State.bit, h.reg k hk, State.bit]

theorem outOf (h : s.Retired t a st) (c : Nat) : t.outOf c = s.outOf c := by
  rw [h.eq]
  rfl

end State.Retired

/-- A drop is counted with its event. -/
theorem State.retire_dropped (s : State) (a : Action) (start : Word) (dur : Nat) :
    (s.retire a stDROPPED start dur).fld CAL_CNT0 CAL_CNT0_DROP = min (2 ^ CAL_CNT0_DROP.w - 1) (s.fld CAL_CNT0 CAL_CNT0_DROP + 1)
      ∧ (s.retire a stDROPPED start dur).bit CAL_EVT CAL_EVT_DROP = true := by
  have hr := State.RecordFrame.ofCounted s a stDROPPED start dur
  refine ⟨?_, hr.evt _ (State.bit_raise _ _ (by decide))⟩
  rw [State.fld, hr.reg _ (by decide), State.counted, State.countStatus, if_neg (by decide), if_pos rfl,
    State.reg_raise_ne _ _ (by decide), ← State.fld, State.fld_count _ _ _ _ (by decide), State.fld,
    State.reg_setFld_ne _ _ _ (by decide)]
  rfl

/-- The event DEFER follows a start that was held back. -/
theorem State.retire_deferred (s : State) {a : Action} (h : a.defer = true) (st : Nat) (start : Word) (dur : Nat) :
    (s.retire a st start dur).bit CAL_EVT CAL_EVT_DEFER = true := by
  refine (State.RecordFrame.ofReported s a st start dur).evt _ ?_
  rw [State.reported, if_pos h]
  exact State.bit_raise _ _ (by decide)

/-! ### Ends of pulses, for the parts of the state they do not concern -/

/-- The spark or the end was held to t_min (R186, R187). -/
def Action.clippedMin (a : Action) : Bool := a.tEnd == a.tmin && a.ta.any fun t => decide (t < a.tmin)

/-- The end was held to t_max (R186). -/
def Action.clippedMax (a : Action) : Bool := a.tEnd == a.tmax && a.ta.all fun t => decide (a.tmax < t)

/-- The action with the clips of its end flagged. -/
def Action.clipped (a : Action) : Action := { a with clipMin := a.clippedMin, clipMax := a.clippedMax }

/-- The spark of an ignition action comes late (R187). -/
def Action.sparkLate (a : Action) : Bool := a.kind == kIGN && (a.lateEnd || a.clippedMin)

/-- A clip is reported. -/
def State.clipTold (s : State) (a : Action) : State :=
  if a.clippedMin || a.clippedMax then s.raise OUT_EVT OUT_EVT_CLIP else s

theorem State.naturalEnd_eq (s : State) (a : Action) :
    s.naturalEnd a = if a.sparkLate && beyond a.limit (lateness s.angW a.endAngle)
      then ((s.clipTold a).softStart a.chan).retire a.clipped stSUPPRESSED a.startW (a.tEnd - a.ts)
      else ((s.clipTold a).endEdge a a.tEnd false).retire a.clipped (if a.sparkLate || a.late then stLATE else stDONE) a.startW
        (a.tEnd - a.ts) := by
  unfold State.naturalEnd State.clipTold Action.sparkLate Action.clipped Action.clippedMin Action.clippedMax
  cases a.ta <;> rfl

theorem Action.clippedMin_iff (a : Action) : a.clippedMin = true ↔ a.tEnd = a.tmin ∧ ∃ x, a.ta = some x ∧ x < a.tmin := by
  unfold Action.clippedMin
  cases a.ta <;> simp

theorem beyond_iff (limit l : Nat) : beyond limit l = true ↔ limit ≠ 255 ∧ 1024 * limit < l := by
  simp [beyond]

/-- R187: the spark is suppressed where it is late beyond its limit. -/
theorem State.suppressed_iff (s : State) (a : Action) :
    s.suppressed a ↔ (a.sparkLate && beyond a.limit (lateness s.angW a.endAngle)) = true := by
  simp only [State.suppressed, Action.sparkLate, Bool.and_eq_true, Bool.or_eq_true, beyond_iff, Action.clippedMin_iff, beq_iff_eq,
    lateness]
  tauto

theorem State.naturalEnd_suppressed {s : State} {a : Action} (h : s.suppressed a) :
    s.naturalEnd a = ((s.clipTold a).softStart a.chan).retire a.clipped stSUPPRESSED a.startW (a.tEnd - a.ts) :=
  (s.naturalEnd_eq a).trans (if_pos ((s.suppressed_iff a).mp h))

theorem State.naturalEnd_fires {s : State} {a : Action} (h : ¬ s.suppressed a) :
    s.naturalEnd a = ((s.clipTold a).endEdge a a.tEnd false).retire a.clipped (if a.sparkLate || a.late then stLATE else stDONE)
      a.startW (a.tEnd - a.ts) :=
  (s.naturalEnd_eq a).trans (if_neg fun hs => h ((s.suppressed_iff a).mpr hs))

namespace State.OutFrame

variable {s t : State}

theorem naturalEnd {a : Action} (h : s.OutFrame t) : s.OutFrame (t.naturalEnd a) := by
  have hclip : s.OutFrame (t.clipTold a) := .ite h.raise h
  rw [State.naturalEnd_eq]
  exact .ite hclip.softStart.retire hclip.endEdge.retire

theorem abortDone {st : Nat} (h : s.OutFrame t) : s.OutFrame (t.abortDone st).1 := by
  unfold State.abortDone
  split
  · exact h.raise
  · exact h

/-- An abort leaves the threads, the clocks and the aborts behind it alone. -/
theorem abortHandle {hd : Word} (h : s.OutFrame t) : s.OutFrame (t.abortHandle hd).1 := by
  unfold State.abortHandle
  split
  · split
    · exact h.retire
    · split
      · exact h
      · split
        · exact h.naturalEnd.abortDone
        · exact h.endPulse
  · dsimp only
    split
    · exact h.abortDone
    · exact h

end State.OutFrame

/-! ### What an abort finds (R198, R199) -/

section
variable {s : State} {hd : Word} {a : Action}

theorem Action.pends_iff (a : Action) : a.Pends ↔ (a.place == .waiting || a.place == .held) = true := by
  simp [Action.Pends]

theorem State.abortHandle_pending (h : s.liveHandle hd = some a) (hp : a.Pends) :
    s.abortHandle hd = (s.retire a stCANCELLED 0 0, stCANCELLED) := by
  simp only [State.abortHandle, h, a.pends_iff.mp hp, if_true]

theorem State.abortHandle_early (h : s.liveHandle hd = some a) (hp : a.place = .active) (ht : s.now + a.lead < a.tEnd) :
    s.abortHandle hd = (s.endPulse a stABORTED false, stABORTED) := by
  simp [State.abortHandle, h, hp, Nat.not_le.mpr ht]

theorem State.abortHandle_ended (h : s.liveHandle hd = some a) (hp : a.place = .active) (ht : a.tEnd ≤ s.now + a.lead) :
    s.abortHandle hd = (s.naturalEnd a).abortDone (tabGet (fun _ => ({} : CalEnt)) (s.naturalEnd a).calEnt a.idx).st := by
  simp [State.abortHandle, h, hp, ht]

theorem State.abortHandle_ending (h : s.liveHandle hd = some a) (hp : a.place = .ending) : s.abortHandle hd = (s, a.endSt) := by
  simp [State.abortHandle, h, hp]

theorem State.abortHandle_none (h : s.liveHandle hd = none) :
    s.abortHandle hd = (if (tabGet (fun _ => ({} : CalEnt)) s.calEnt (hd.toNat % 2 ^ 17)).used = true
        ∧ (tabGet (fun _ => ({} : CalEnt)) s.calEnt (hd.toNat % 2 ^ 17)).gen = hd.toNat / 2 ^ 17
      then s.abortDone (tabGet (fun _ => ({} : CalEnt)) s.calEnt (hd.toNat % 2 ^ 17)).st else (s, stSTALE)) := by
  simp only [State.abortHandle, h, Bool.and_eq_true, beq_iff_eq]

theorem State.abortDone_completed {st : Nat} (h : st = stDONE ∨ st = stLATE) :
    s.abortDone st = (s.raise OUT_EVT OUT_EVT_ALATE, stABORTLATE) := if_pos h

theorem State.abortDone_other {st : Nat} (h : ¬ (st = stDONE ∨ st = stLATE)) : s.abortDone st = (s, st) := if_neg h

end

/-- An abort that reaches the output unit gives the status R198 says, and does what that status says. -/
theorem State.abortHandle_spec {s : State} {hd : Word} {st : Nat} (h : s.abortStatus hd st) :
    (s.abortHandle hd).2 = st ∧ s.aborted (s.abortHandle hd).1 hd st := by
  rcases h with ⟨a, ha, hp, rfl⟩ | ⟨a, ha, hp, ht, rfl⟩ | ⟨a, ha, hp, ht, hsup, hfire⟩ | ⟨a, ha, hp, rfl⟩ | ⟨hnone, e, rfl, hret, hstale⟩
  · have hret := s.retire_retired a stCANCELLED 0 0
    rw [State.abortHandle_pending ha hp]
    refine ⟨rfl, fun b hb _ => ?_, fun h6 => absurd h6 (by decide), fun hn => absurd (ha.symm.trans hn) (by simp)⟩
    cases ha.symm.trans hb
    exact ⟨hret.gone, hret.status⟩
  · rw [State.abortHandle_early ha hp ht]
    refine ⟨rfl, fun b hb hpend => ?_, fun h6 => absurd h6 (by decide), fun hn => absurd (ha.symm.trans hn) (by simp)⟩
    cases ha.symm.trans hb
    simp [hp] at hpend
  · have hother : ∀ t st', (st' = 6 → t.bit OUT_EVT 3 = true) → s.aborted t hd st' := by
      intro t st' h6
      refine ⟨fun b hb hpend => ?_, fun h _ _ => h6 h, fun hn => absurd (ha.symm.trans hn) (by simp)⟩
      cases ha.symm.trans hb
      simp [hp] at hpend
    rw [State.abortHandle_ended ha hp ht]
    by_cases hs : s.suppressed a
    · rw [State.naturalEnd_suppressed hs]
      have hst := (State.retire_retired ((s.clipTold a).softStart a.chan) a.clipped stSUPPRESSED a.startW (a.tEnd - a.ts)).status
      rw [show a.clipped.idx = a.idx from rfl] at hst
      rw [hst, State.abortDone_other (by decide), hsup hs]
      exact ⟨rfl, hother _ _ fun h => absurd h (by decide)⟩
    · rw [State.naturalEnd_fires hs]
      have hst := (State.retire_retired ((s.clipTold a).endEdge a a.tEnd false) a.clipped (if a.sparkLate || a.late then stLATE else stDONE)
        a.startW (a.tEnd - a.ts)).status
      rw [show a.clipped.idx = a.idx from rfl] at hst
      rw [hst, State.abortDone_completed (by split <;> simp), hfire hs]
      exact ⟨rfl, hother _ _ fun _ => State.bit_raise _ _ (by decide)⟩
  · rw [State.abortHandle_ending ha hp]
    refine ⟨rfl, fun b hb hpend => ?_, fun _ hact => ?_, fun hn => absurd (ha.symm.trans hn) (by simp)⟩
    · cases ha.symm.trans hb
      simp [hp] at hpend
    · exact absurd (hp.symm.trans (hact a ha)) (by decide)
  · have hidle : ∀ t, t.calq = s.calq → t.stage = s.stage → t.mem = s.mem →
        (st = 6 → (tabGet (fun _ => ({} : CalEnt)) s.calEnt (hd.toNat % 2 ^ 17)).st ≠ 6 → t.bit OUT_EVT 3 = true) →
        s.aborted t hd st := fun t hcalq hstage hmem hbit =>
      ⟨fun a ha => absurd (ha.symm.trans hnone) (by simp), fun h6 _ hne => hbit h6 (hne hnone), fun _ => ⟨hcalq, hstage, hmem⟩⟩
    rw [State.abortHandle_none hnone]
    split
    · next hgen =>
      by_cases hdone : (tabGet (fun _ => ({} : CalEnt)) s.calEnt (hd.toNat % 2 ^ 17)).st = stDONE
          ∨ (tabGet (fun _ => ({} : CalEnt)) s.calEnt (hd.toNat % 2 ^ 17)).st = stLATE
      · rw [State.abortDone_completed hdone]
        exact ⟨((hret hgen).trans (if_pos hdone)).symm, hidle _ rfl rfl rfl fun _ _ => State.bit_raise _ _ (by decide)⟩
      · have hst := (hret hgen).trans (if_neg hdone)
        rw [State.abortDone_other hdone]
        exact ⟨hst.symm, hidle _ rfl rfl rfl fun h6 hne => absurd (hst.symm.trans h6) hne⟩
    · next hgen =>
      have hst := hstale hgen
      exact ⟨hst.symm, hidle _ rfl rfl rfl fun h6 => absurd (hst.symm.trans h6) (by decide)⟩

/-- What an abort gives depends on the actions, their entries, the time and the angle alone. -/
theorem State.abortStatus_congr {s u : State} {hd : Word} {st : Nat} (h : s.abortStatus hd st) (hcalq : u.calq = s.calq)
    (hstage : u.stage = s.stage) (hent : u.calEnt = s.calEnt) (hnow : u.now = s.now) (hobs : u.obs = s.obs) : u.abortStatus hd st := by
  unfold State.abortStatus State.liveHandle State.suppressed State.angW at h ⊢
  rwa [hcalq, hstage, hent, hnow, hobs]

/-- So does what it does, of what it leaves the actions, their entries, memory and the event alone. -/
theorem State.aborted_congr {s u t v : State} {hd : Word} {st : Nat} (h : u.aborted v hd st)
    (hu : u.calq = s.calq ∧ u.stage = s.stage ∧ u.calEnt = s.calEnt ∧ u.mem = s.mem)
    (ht : t.calq = v.calq ∧ t.stage = v.stage ∧ t.calEnt = v.calEnt ∧ t.mem = v.mem ∧ t.reg OUT_EVT = v.reg OUT_EVT) :
    s.aborted t hd st := by
  obtain ⟨hcalq, hstage, hent, hmem⟩ := hu
  obtain ⟨tcalq, tstage, tent, tmem, treg⟩ := ht
  unfold State.aborted State.liveHandle State.bit at h ⊢
  rwa [tcalq, tstage, tent, tmem, treg, ← hcalq, ← hstage, ← hent, ← hmem]

end Sys2Proof.Machine
end

section
/-! PROOFS. Posts: the entry a post takes, what an accepted and a refused post do (R174 to R178, R209). -/

namespace Sys2Proof.Machine

/-! ### The free entry (R176) -/

/-- Where the search ends at an entry in use, every entry it has come to is in use. -/
theorem mem_of_firstFree_mem {used : List Nat} {fuel i : Nat} (h : firstFree used i fuel ∈ used) :
    ∀ j ≤ fuel, (i + j) % calEntries ∈ used := by
  induction fuel generalizing i with
  | zero =>
    intro j hj
    obtain rfl : j = 0 := by omega
    exact h
  | succ fuel ih =>
    rw [firstFree] at h
    split at h
    · next hused =>
      intro j hj
      cases j with
      | zero => exact List.contains_iff_mem.mp hused
      | succ j =>
        rw [show i + (j + 1) = i + 1 + j by omega]
        exact ih h j (by omega)
    · next hfree => exact absurd (List.contains_iff_mem.mpr h) hfree

theorem firstFree_lt (used : List Nat) (i fuel : Nat) : firstFree used i fuel < 131072 := by
  induction fuel generalizing i with
  | zero => exact Nat.mod_lt _ (by decide)
  | succ fuel ih =>
    rw [firstFree]
    split
    · exact ih _
    · exact Nat.mod_lt _ (by decide)

/-- While fewer entries are in use than there are, the search of one more than are in use finds a free one. -/
theorem firstFree_not_mem {used : List Nat} (h : used.length < calEntries) (i : Nat) : firstFree used i used.length ∉ used := by
  intro hmem
  have hall := mem_of_firstFree_mem hmem
  have hinj : Set.InjOn (fun j => (i + j) % calEntries) (Finset.range (used.length + 1)) := by
    intro j hj j' hj' he
    simp only [Finset.coe_range, Set.mem_Iio] at hj hj'
    simp only [calEntries] at h he
    omega
  have hsub : (Finset.range (used.length + 1)).image (fun j => (i + j) % calEntries) ⊆ used.toFinset := by
    intro x hx
    obtain ⟨j, hj, rfl⟩ := Finset.mem_image.mp hx
    exact List.mem_toFinset.mpr (hall j (Nat.lt_succ_iff.mp (Finset.mem_range.mp hj)))
  have hcard := Finset.card_le_card hsub
  rw [Finset.card_image_of_injOn hinj, Finset.card_range] at hcard
  have := used.toFinset_card_le
  omega

/-! ### Runs of bytes -/

theorem State.length_rdBytes (s : State) (a n : Nat) : (s.rdBytes a n).length = n := by
  induction n generalizing a with
  | zero => rfl
  | succ n ih => rw [State.rdBytes, List.length_cons, ih]

theorem State.getElem_rdBytes (s : State) (a n : Nat) {i : Nat} (h : i < (s.rdBytes a n).length) :
    (s.rdBytes a n)[i] = s.rd8 (a + i) := by
  induction n generalizing a i with
  | zero => exact absurd h (by simp [State.rdBytes])
  | succ n ih =>
    cases i with
    | zero => rfl
    | succ i => exact (ih (a + 1) (by simpa [State.rdBytes] using h)).trans (congrArg s.rd8 (by omega))

theorem State.rd8_congr {s t : State} (h : t.mem = s.mem) (a : Nat) : t.rd8 a = s.rd8 a := by rw [State.rd8, h, State.rd8]

theorem State.rdBytes_congr {s t : State} (h : t.mem = s.mem) (a n : Nat) : t.rdBytes a n = s.rdBytes a n := by
  refine List.ext_getElem (by simp [State.length_rdBytes]) fun i _ _ => ?_
  rw [State.getElem_rdBytes, State.getElem_rdBytes, State.rd8_congr h]

/-- Bytes read as they were written. -/
theorem State.rdBytes_wrBytes (s : State) (a : Nat) (l : List Byte) : (s.wrBytes a l).rdBytes a l.length = l := by
  refine List.ext_getElem (State.length_rdBytes _ _ _) fun i _ h => ?_
  rw [State.getElem_rdBytes, State.rd8_wrBytes_in _ _ _ _ h]

theorem State.wrBytes_eq (s : State) (a : Nat) (l : List Byte) : s.wrBytes a l = { s with mem := (s.wrBytes a l).mem } := by
  induction l generalizing s a with
  | nil => rfl
  | cons b l ih =>
    rw [State.wrBytes, ih]
    rfl

theorem State.budDraw_eq (s : State) (acct : Option Nat) (r n : Nat) :
    s.budDraw acct r n = { s with meters := (s.budDraw acct r n).meters } := by
  cases acct with
  | none => rfl
  | some a => simp only [State.budDraw, State.updMeter]

/-! ### An accepted post -/

/-- The entry that the next post takes. -/
def State.entryFor (s : State) : Nat :=
  firstFree ((s.calq ++ s.stage).map Action.idx) (s.freeVal 0) (s.calq ++ s.stage).length

/-- The generation of its use (R177). -/
def State.genFor (s : State) : Nat :=
  if (tabGet (fun _ => ({} : CalEnt)) s.calEnt s.entryFor).used
  then ((tabGet (fun _ => ({} : CalEnt)) s.calEnt s.entryFor).gen + 1) % 128 else 0

/-- The action as it stands in the calendar. -/
def State.entryTaken (s : State) (a : Action) : Action := { a with idx := s.entryFor, gen := s.genFor }

/-- The action stands behind every earlier one, and its words lie in its entry. -/
def State.described (s : State) (a : Action) : State :=
  let s1 : State := { s.useFree with calq := s.calq ++ [s.entryTaken a] }
  (s1.budDraw (s1.binding 0) resFABRIC 1).wrBytes (s.calArea + 16 * s.entryFor) (wordsToBytes [a.w0, a.w1, a.w2, a.w3])

/-- CAL_USED counts it. -/
def State.usedCounted (s : State) (a : Action) : State :=
  (s.described a).setFld CAL_USED ⟨0, 18⟩ (s.described a).calUsed

/-- CAL_BMAX holds the largest fill of a bucket. -/
def State.fillNoted (s : State) (w : Word) : State :=
  if s.fld CAL_BMAX ⟨0, 11⟩ < s.bucketFill w then s.setFld CAL_BMAX ⟨0, 11⟩ (s.bucketFill w) else s

section
variable {s : State} {w0 w1 w2 w3 : Word} {poster : Nat}

theorem State.post_accepted_eq (h : s.refusal { w0, w1, w2, w3, poster } = none) :
    s.post w0 w1 w2 w3 poster = ((s.usedCounted { w0, w1, w2, w3, poster }).fillNoted w0,
      BitVec.ofNat 32 (s.entryFor + 2 ^ 17 * s.genFor)) := by
  simp only [State.post, h]
  rfl

theorem State.post_refused_eq {st : Nat} (h : s.refusal { w0, w1, w2, w3, poster } = some st) :
    s.post w0 w1 w2 w3 poster = (s.refusePost st, refusedWord st) := by
  simp only [State.post, h]

theorem State.calUsed_lt_of_accepted {a : Action} (h : s.refusal a = none) : s.calq.length + s.stage.length < 131072 := by
  unfold State.refusal at h
  split_ifs at h with _ _ _ hfull
  exact Nat.lt_of_not_le fun hle => hfull (.inl hle)

theorem State.described_eq (s : State) (a : Action) :
    s.described a = { s with
      mem := (s.described a).mem, calq := s.calq ++ [s.entryTaken a], meters := (s.described a).meters,
      freeUses := (s.described a).freeUses } := by
  unfold State.described
  extract_lets s1
  rw [State.wrBytes_eq, State.budDraw_eq]
  rfl

theorem length_fourWords (w0 w1 w2 w3 : Word) : (wordsToBytes [w0, w1, w2, w3]).length = 16 := rfl

/-- R178: the words lie in the entry's 16 bytes, and no other byte changes. -/
theorem State.rdBytes_described (s : State) (a : Action) :
    (s.described a).rdBytes (s.calArea + 16 * s.entryFor) 16 = wordsToBytes [a.w0, a.w1, a.w2, a.w3] := by
  have h := State.rdBytes_wrBytes (({ s.useFree with calq := s.calq ++ [s.entryTaken a] } : State).budDraw
    (({ s.useFree with calq := s.calq ++ [s.entryTaken a] } : State).binding 0) resFABRIC 1) (s.calArea + 16 * s.entryFor)
    (wordsToBytes [a.w0, a.w1, a.w2, a.w3])
  rwa [length_fourWords] at h

theorem State.rd8_described (s : State) (a : Action) {x : Nat}
    (hx : x < s.calArea + 16 * s.entryFor ∨ s.calArea + 16 * s.entryFor + 16 ≤ x) : (s.described a).rd8 x = s.rd8 x := by
  have hout : x < s.calArea + 16 * s.entryFor
      ∨ s.calArea + 16 * s.entryFor + (wordsToBytes [a.w0, a.w1, a.w2, a.w3]).length ≤ x := by
    rwa [length_fourWords]
  rw [State.described, State.rd8_wrBytes_out _ _ _ _ hout, State.rd8_congr (State.budDraw_mem _ _ _ _)]
  rfl

theorem State.reg_described (s : State) (a : Action) (k : Nat) : (s.described a).reg k = s.reg k := by
  rw [State.reg, s.described_eq]
  rfl

theorem State.fillNoted_eq (t : State) (w : Word) : t.fillNoted w = { t with regs := (t.fillNoted w).regs } := by
  unfold State.fillNoted
  split <;> rfl

theorem State.reg_fillNoted_ne (t : State) (w : Word) {k : Nat} (hk : k ≠ CAL_BMAX) : (t.fillNoted w).reg k = t.reg k := by
  unfold State.fillNoted
  split
  · exact State.reg_setFld_ne _ _ _ hk
  · rfl

/-- An accepted post, but for what `posted` says: nothing else changes. -/
theorem State.post_frame (h : s.refusal { w0, w1, w2, w3, poster } = none) :
    (s.post w0 w1 w2 w3 poster).1 = { s with
      regs := (s.post w0 w1 w2 w3 poster).1.regs, mem := (s.post w0 w1 w2 w3 poster).1.mem,
      calq := (s.post w0 w1 w2 w3 poster).1.calq, meters := (s.post w0 w1 w2 w3 poster).1.meters,
      freeUses := (s.post w0 w1 w2 w3 poster).1.freeUses }
    ∧ ∀ k, k ≠ CAL_USED → k ≠ CAL_BMAX → (s.post w0 w1 w2 w3 poster).1.reg k = s.reg k := by
  rw [State.post_accepted_eq h]
  refine ⟨?_, fun k hu hb => ?_⟩
  · dsimp only
    rw [State.fillNoted_eq, State.usedCounted, State.setFld, State.setReg, State.described_eq]
  · rw [State.reg_fillNoted_ne _ _ hb, State.usedCounted, State.reg_setFld_ne _ _ _ hu, State.reg_described]

/-- An accepted post (R174 to R178). -/
theorem State.post_posted (h : s.refusal { w0, w1, w2, w3, poster } = none) :
    s.posted (s.post w0 w1 w2 w3 poster).1 w0 w1 w2 w3 poster (s.post w0 w1 w2 w3 poster).2 := by
  have hlt := State.calUsed_lt_of_accepted h
  rw [State.post_accepted_eq h]
  generalize ha : ({ w0, w1, w2, w3, poster } : Action) = a
  have hmem : ((s.usedCounted a).fillNoted w0).mem = (s.described a).mem := by
    rw [State.fillNoted_eq]
    rfl
  have hfree : s.entryFor ∉ (s.calq ++ s.stage).map Action.idx := by
    have hlen : ((s.calq ++ s.stage).map Action.idx).length = (s.calq ++ s.stage).length := List.length_map _
    rw [State.entryFor, ← hlen]
    refine firstFree_not_mem ?_ _
    rw [hlen, List.length_append]
    exact hlt
  subst ha
  refine ⟨s.entryTaken { w0, w1, w2, w3, poster }, ?_, ?_, rfl, rfl, rfl, rfl, rfl, rfl, firstFree_lt _ _ _, ?_, fun b hb he => ?_, rfl,
    ?_, ?_, fun x hx => ?_⟩
  · rw [State.fillNoted_eq, State.usedCounted, State.setFld, State.setReg, State.described_eq]
  · rw [State.fillNoted_eq, State.usedCounted, State.setFld, State.setReg, State.described_eq]
  · change s.genFor < 128
    unfold State.genFor
    split
    · exact Nat.mod_lt _ (by decide)
    · decide
  · exact hfree (List.mem_map.mpr ⟨b, hb, he⟩)
  · have hused : (s.described { w0, w1, w2, w3, poster }).calUsed = s.calq.length + s.stage.length + 1 := by
      rw [State.described_eq, State.calUsed, List.length_append]
      simp only [List.length_singleton]
      omega
    rw [State.fld, State.reg_fillNoted_ne _ _ (by decide), ← State.fld, State.usedCounted,
      State.fld_setFld_same _ _ _ _ (by decide), hused]
    change (s.calq.length + s.stage.length + 1) % 2 ^ 18 = _
    exact Nat.mod_eq_of_lt (by omega)
  · rw [State.rdBytes_congr hmem]
    exact s.rdBytes_described _
  · rw [State.rd8_congr hmem]
    exact s.rd8_described _ hx

end

/-! ### A refused post (R175, R209) -/

theorem State.reg_refusePost_ne (s : State) (st : Nat) {k : Nat} (hc : k ≠ CAL_CNT1) (he : k ≠ CAL_EVT) :
    (s.refusePost st).reg k = s.reg k := by
  rw [State.refusePost, State.reg_raise_ne _ _ he, State.count, State.reg_setFld_ne _ _ _ hc]

theorem State.refusePost_unposted (s : State) (st : Nat) : s.unposted (s.refusePost st) st (refusedWord st) := by
  refine ⟨rfl, rfl, rfl, rfl, ?_, ?_⟩
  · rw [State.refusePost, State.fld, State.reg_raise_ne _ _ (by decide), ← State.fld, State.fld_count _ _ _ _ (by decide)]
    rfl
  · exact State.bit_raise _ _ (by split <;> decide)

/-! ### What posts depend on -/

/-- The registers that decide on a refusal: CAL_CTRL, the enables of the outputs and the converters, the owners of AOUT pins. -/
abbrev refusalReg (k : Nat) : Prop := k = CAL_CTRL ∨ (0x40050000 ≤ k ∧ k < 0x40060000) ∨ 0x40090000 ≤ k

theorem State.echoOwns_congr {s u : State} (hcfg : ∀ k < 2, u.reg (WHL_ECFG k) = s.reg (WHL_ECFG k)) (n : Nat) :
    u.echoOwns n = s.echoOwns n := by
  simp [State.echoOwns, State.fld, hcfg 0, hcfg 1]

theorem State.aoutOn_congr {s u : State} (hreg : ∀ k, refusalReg k → u.reg k = s.reg k) (n : Nat) : u.aoutOn n = s.aoutOn n := by
  have hecho : u.echoOwns n = s.echoOwns n :=
    State.echoOwns_congr (fun k hk => hreg _ (by simp only [refusalReg, WHL_ECFG]; omega)) n
  rw [State.aoutOn, State.bit, hreg _ (by decide), hecho]
  rfl

theorem State.targetOn_congr {s u : State} (hreg : ∀ k, refusalReg k → u.reg k = s.reg k) (a : Action) :
    u.targetOn a = s.targetOn a := by
  simp only [State.targetOn, State.aoutOn_congr hreg, State.bit, hreg OUT_ENI (by decide), hreg OUT_ENG (by decide),
    hreg FADC_CTRL (by decide)]

theorem State.refusal_congr {s u : State} (hcalq : u.calq = s.calq) (hstage : u.stage = s.stage)
    (hreg : ∀ k, refusalReg k → u.reg k = s.reg k) (a : Action) : u.refusal a = s.refusal a := by
  have hcyc : ∀ n, u.aoutCyc n = s.aoutCyc n := fun n => by
    rw [State.aoutCyc, State.fld, hreg _ (by simp only [refusalReg, OUT_AOUT]; omega)]
    rfl
  have hen : u.fld CAL_CTRL CAL_CTRL_EN = s.fld CAL_CTRL CAL_CTRL_EN := by rw [State.fld, hreg _ (by decide), State.fld]
  have hused : u.calUsed = s.calUsed := by rw [State.calUsed, hcalq, hstage, State.calUsed]
  have hfill : u.bucketFill a.w0 = s.bucketFill a.w0 := by rw [State.bucketFill, hcalq, State.bucketFill]
  unfold State.refusal
  rw [hen, State.targetOn_congr hreg, hcyc, hused, hfill]

theorem State.posted_congr {s u t v : State} {w0 w1 w2 w3 res : Word} {poster : Nat} (h : u.posted v w0 w1 w2 w3 poster res)
    (hu : u.calq = s.calq ∧ u.stage = s.stage ∧ u.mem = s.mem ∧ u.reg CAL_BASE = s.reg CAL_BASE)
    (ht : t.calq = v.calq ∧ t.stage = v.stage ∧ t.mem = v.mem ∧ t.reg CAL_USED = v.reg CAL_USED) :
    s.posted t w0 w1 w2 w3 poster res := by
  obtain ⟨hcalq, hstage, hmem, hbase⟩ := hu
  obtain ⟨tcalq, tstage, tmem, tused⟩ := ht
  unfold State.posted State.calArea State.fld at h ⊢
  simpa only [tcalq, tstage, tused, State.rdBytes_congr tmem, State.rd8_congr tmem, State.rd8_congr hmem, hcalq, hstage, hbase] using h

theorem State.unposted_congr {s u t v : State} {st : Nat} {res : Word} (h : u.unposted v st res)
    (hu : u.calq = s.calq ∧ u.stage = s.stage ∧ u.mem = s.mem ∧ u.reg CAL_CNT1 = s.reg CAL_CNT1)
    (ht : t.calq = v.calq ∧ t.stage = v.stage ∧ t.mem = v.mem ∧ t.reg CAL_CNT1 = v.reg CAL_CNT1 ∧ t.reg CAL_EVT = v.reg CAL_EVT) :
    s.unposted t st res := by
  obtain ⟨hcalq, hstage, hmem, hcnt⟩ := hu
  obtain ⟨tcalq, tstage, tmem, tcnt, tevt⟩ := ht
  unfold State.unposted State.fld State.bit at h ⊢
  simpa only [tcalq, tstage, tmem, tcnt, tevt, hcalq, hstage, hmem, hcnt] using h

end Sys2Proof.Machine
end

section
/-! PROOFS. The instructions that post and abort (R241, R244 to R246, R260, R269). -/

namespace Sys2Proof.Machine

/-! ### A thread takes its answer -/

/-- The thread has its answer in rd, the post is traced, and the thread goes on. -/
def State.posterAnswered (s : State) (n : Fin 64) (rd : BitVec 5) (r : Word) : State :=
  ((s.setTg n rd.toNat r).traceThr n 1 (s.thPc n)).retireIns (.thread n .clean)

section
variable (s : State) (n : Fin 64) (rd : BitVec 5) (r : Word)

theorem State.setTg_eq : s.setTg n rd.toNat r = { s with regs := (s.setTg n rd.toNat r).regs } := by
  unfold State.setTg
  split <;> rfl

theorem State.reg_setTg_ne {k : Nat} (hk : k ≠ AEN_TG n rd.toNat) : (s.setTg n rd.toNat r).reg k = s.reg k := by
  unfold State.setTg
  split
  · rfl
  · exact State.reg_setReg_ne _ _ hk

theorem State.tg_setTg : (s.setTg n rd.toNat r).tg n rd.toNat = if rd = 0 then 0 else r := by
  by_cases h : rd = 0
  · rw [if_pos h, h]
    rfl
  · have hne : ¬ rd.toNat = 0 := fun h0 => h (BitVec.eq_of_toNat_eq h0)
    rw [if_neg h, State.tg, if_neg hne, State.setTg, if_neg hne, State.reg_setReg_same]

theorem State.thr_setTg : (s.setTg n rd.toNat r).thr n = s.thr n := by rw [State.thr, State.setTg_eq, State.thr]

theorem State.posterAnswered_eq : s.posterAnswered n rd r = { s with
    regs := (s.posterAnswered n rd r).regs, dbg := (s.posterAnswered n rd r).dbg,
    threads := (s.posterAnswered n rd r).threads } := by
  simp only [State.posterAnswered, State.retireIns, State.setThPc, State.updThr]
  rw [State.traceThr, State.tracePut_eq, State.setTg_eq]

theorem State.reg_posterAnswered_ne {k : Nat} (hk : k ≠ AEN_TG n rd.toNat) (hd : k ≠ DBG_STAT) :
    (s.posterAnswered n rd r).reg k = s.reg k := by
  rw [State.posterAnswered, State.retireIns, State.setThPc, State.reg_updThr, State.traceThr, State.reg_tracePut_ne _ _ _ hd,
    State.reg_setTg_ne _ _ _ _ hk]

theorem State.tg_posterAnswered (h : rd.toNat < 16) : (s.posterAnswered n rd r).tg n rd.toNat = if rd = 0 then 0 else r := by
  have hreg : (s.posterAnswered n rd r).reg (AEN_TG n rd.toNat) = (s.setTg n rd.toNat r).reg (AEN_TG n rd.toNat) := by
    rw [State.posterAnswered, State.retireIns, State.setThPc, State.reg_updThr, State.traceThr, State.reg_tracePut_ne]
    have := n.isLt
    simp only [AEN_TG, DBG_STAT]
    omega
  rw [← s.tg_setTg n rd r, State.tg, hreg, State.tg]

theorem State.thr_congr {t : State} (h : t.threads = s.threads) : t.thr n = s.thr n := by rw [State.thr, h, State.thr]

theorem State.refusePost_threads (st : Nat) : (s.refusePost st).threads = s.threads := rfl

theorem State.pc_retireIns_thread : ((s.retireIns (.thread n .clean)).thr n).pc = (s.thr n).pc + 4 := by
  rw [State.retireIns, State.setThPc, State.thr_updThr_same _ _ _ n.isLt]

theorem State.pc_posterAnswered : ((s.posterAnswered n rd r).thr n).pc = (s.thr n).pc + 4 := by
  have hthr : ((s.setTg n rd.toNat r).traceThr n 1 (s.thPc n)).thr n = s.thr n := by
    rw [State.traceThr, State.tracePut_eq]
    exact s.thr_setTg n rd r
  rw [State.posterAnswered, State.pc_retireIns_thread, hthr]

end

/-! ### The posts -/

/-- What a post from a template does: the descriptor, or the refusal, in the issued state, and the answer. -/
def State.postTaken (s : State) (o : PostOp) : State :=
  let u := s.issued (.thread o.n .clean) 2 0
  let p := if o.bad then (u.refusePost stILLEGAL, refusedWord stILLEGAL) else u.post o.w0 o.w1 o.w2 o.w3 o.n
  p.1.posterAnswered o.n o.rd p.2

theorem State.issued_mem (s : State) (n : Fin 64) (sl b : Nat) : (s.issued (.thread n .clean) sl b).mem = s.mem := by
  rw [Shape.issued s (.thread n .clean) sl b]

theorem State.rdWords_congr {s t : State} (h : t.mem = s.mem) (a n : Nat) : t.rdWords a n = s.rdWords a n := by
  induction n generalizing a with
  | zero => rfl
  | succ n ih => rw [State.rdWords, ih, State.rd32, State.rdBytes_congr h, State.rdWords, State.rd32]

/-- The four words of the template. -/
theorem State.rdWords_template (s : State) (n : Nat) (k : BitVec 11) :
    s.rdWords (threadData n (16 * k.toNat)) 4 = [s.tmplWord n k 0, s.tmplWord n k 1, s.tmplWord n k 2, s.tmplWord n k 3] := rfl

section
variable {s : State} {n : Fin 64} {rd rs1 rs2 : BitVec 5} {k : BitVec 11} {op : Nat} {f : State → List Word → List Word × Bool}

theorem State.postIns_run {w0 w1 w2 w3 : Word} {bad : Bool} (h : s.canIssue (.thread n .clean) [rd, rs1, rs2] [] 2 0)
    (hf : f (s.issued (.thread n .clean) 2 0) [s.tmplWord n k 0, s.tmplWord n k 1, s.tmplWord n k 2, s.tmplWord n k 3]
      = ([w0, w1, w2, w3], bad)) :
    s.postIns (.thread n .clean) op rd rs1 rs2 k .clean f
      = s.postTaken { n, g := [rd, rs1, rs2], rd, k, w0, w1, w2, w3, bad } := by
  have harm : (s.issued (.thread n .clean) 2 0).flt.armed = none := by rw [State.issued_flt]; exact h.1
  have hread : (s.issued (.thread n .clean) 2 0).template n k.toNat .clean = (s.issued (.thread n .clean) 2 0,
      [s.tmplWord n k 0, s.tmplWord n k 1, s.tmplWord n k 2, s.tmplWord n k 3], false) := by
    rw [State.template, State.eccRead_clean _ _ _ _ harm, State.rdWords_congr (s.issued_mem n 2 0), State.rdWords_template]
  rw [State.postIns, State.angIns_run _ _ _ _ _ h rfl, hread]
  simp only [hf, Bool.false_eq_true, if_false]
  rfl

theorem State.issued_tg (h : s.canIssue (.thread n .clean) [rd, rs1, rs2] [] 2 0) :
    (s.issued (.thread n .clean) 2 0).gr (.thread n .clean) rs1 = s.tg n rs1.toNat
      ∧ (s.issued (.thread n .clean) 2 0).gr (.thread n .clean) rs2 = s.tg n rs2.toNat :=
  have hlt : ∀ r ∈ [rd, rs1, rs2], r.toNat < 16 := h.2.2.2.2.2.1
  ⟨State.issued_gr _ _ _ _ _ (.inr (hlt _ (by simp))), State.issued_gr _ _ _ _ _ (.inr (hlt _ (by simp)))⟩

end

/-- Every post from a template does what its operation says. -/
theorem exec_postOp {i : Instr} {s : State} {o : PostOp} (h : s.postOp i = some o)
    (hissue : s.canIssue (.thread o.n .clean) o.g [] 2 0) : Machine.exec i s = .next (s.postTaken o) := by
  unfold State.postOp at h
  split at h
  · next n d x y k =>
    cases h
    obtain ⟨hx, hy⟩ := State.issued_tg hissue
    refine congrArg Host.Outcome.next (State.postIns_run hissue ?_)
    dsimp only
    rw [hx, hy]
    split <;> rfl
  · next n d x y k =>
    cases h
    obtain ⟨hx, hy⟩ := State.issued_tg hissue
    refine congrArg Host.Outcome.next (State.postIns_run hissue ?_)
    dsimp only
    rw [hx, hy]
    refine Prod.ext rfl (Bool.eq_iff_iff.mpr ?_)
    simp only [kindOf, Action.kind, List.getD_cons_succ, List.getD_cons_zero, Bool.or_eq_true, Bool.not_eq_true', Bool.or_eq_false_iff,
      beq_eq_false_iff_ne, beq_iff_eq, decide_eq_true_iff, BitVec.toNat_eq, BitVec.ofNat_eq_ofNat, BitVec.toNat_ofNat,
      Nat.zero_mod, kINJ, kIGN, kAPULSE]
    omega
  · next n d x y k =>
    cases h
    obtain ⟨hx, hy⟩ := State.issued_tg hissue
    refine congrArg Host.Outcome.next (State.postIns_run hissue ?_)
    dsimp only
    rw [hx, hy]
    refine Prod.ext ?_ (Bool.eq_iff_iff.mpr ?_)
    · dsimp only
      split <;> rfl
    · simp [kindOf, Action.kind]
  · cases h

/-- The issue of an instruction of a thread changes nothing that a post or an abort depends on. -/
theorem State.issued_calendar (s : State) (n : Fin 64) (sl b : Nat) :
    (s.issued (.thread n .clean) sl b).calq = s.calq ∧ (s.issued (.thread n .clean) sl b).stage = s.stage
      ∧ (s.issued (.thread n .clean) sl b).calEnt = s.calEnt ∧ (s.issued (.thread n .clean) sl b).now = s.now
      ∧ (s.issued (.thread n .clean) sl b).obs = s.obs ∧ (s.issued (.thread n .clean) sl b).thr n = s.thr n := by
  rw [Shape.issued s (.thread n .clean) sl b]
  exact ⟨rfl, rfl, rfl, rfl, rfl, by simp [State.issued, State.thr, State.count]⟩

theorem State.issued_reg_thread (s : State) (n : Fin 64) (sl b : Nat) {k : Nat} (hk : k < 0x40080000 ∨ 0x40090000 ≤ k) :
    (s.issued (.thread n .clean) sl b).reg k = s.reg k := by
  refine State.issued_reg _ _ _ _ _ ?_
  have := n.isLt
  simp only [ownKeys, List.mem_singleton, AEN_TISS]
  omega

theorem State.issued_thState {s : State} {n : Fin 64} {g : List (BitVec 5)} {sl b : Nat}
    (h : s.canIssue (.thread n .clean) g [] sl b) : (s.issued (.thread n .clean) sl b).thState n = 1 := by
  have hst : s.thState n = 1 := h.2.2.1
  rwa [State.thState, State.fld, State.issued_reg, ← State.fld, ← State.thState]
  simp only [ownKeys, List.mem_singleton, AEN_TISS, AEN_TSTAT]
  omega

/-- The calendar keeps its registers where a thread takes an answer. -/
theorem State.reg_posterAnswered_calendar (s : State) (n : Fin 64) (rd : BitVec 5) (r : Word) {k : Nat} (hk : k < 0x40080000) :
    (s.posterAnswered n rd r).reg k = s.reg k :=
  State.reg_posterAnswered_ne _ _ _ _ (by simp only [AEN_TG]; omega) (by simp only [DBG_STAT]; omega)

/-- A thread that has run takes the answer and goes on. -/
theorem State.posterAnswered_answer {s v : State} {n : Fin 64} {rd : BitVec 5} (r : Word) (hrd : rd.toNat < 16)
    (hthr : v.thr n = s.thr n) (hst : v.thState n = 1) :
    (v.posterAnswered n rd r).tg n rd.toNat = (if rd = 0 then 0 else r)
      ∧ ((v.posterAnswered n rd r).thr n).pc = (s.thr n).pc + 4 ∧ (v.posterAnswered n rd r).thState n = 1 := by
  refine ⟨State.tg_posterAnswered _ _ _ _ hrd, by rw [State.pc_posterAnswered, hthr], ?_⟩
  have := n.isLt
  rwa [State.thState, State.fld, State.reg_posterAnswered_ne, ← State.fld, ← State.thState]
  · simp only [AEN_TSTAT, AEN_TG]
    omega
  · simp only [AEN_TSTAT, DBG_STAT]
    omega

/-- What a refusal depends on is as it was when the instruction issued. -/
theorem State.refusal_issued (s : State) (n : Fin 64) (sl b : Nat) (a : Action) :
    (s.issued (.thread n .clean) sl b).refusal a = s.refusal a := by
  obtain ⟨hcalq, hstage, -⟩ := s.issued_calendar n sl b
  exact State.refusal_congr hcalq hstage (fun k hk => s.issued_reg_thread n sl b (by
    simp only [refusalReg, CAL_CTRL] at hk
    omega)) a

section
variable {s : State} {o : PostOp}

/-- A post that the calendar takes. -/
theorem State.postTaken_accepted (hissue : s.canIssue (.thread o.n .clean) o.g [] 2 0) (hrd : o.rd.toNat < 16) (hbad : o.bad = false)
    (hacc : s.refusal o.action = none) :
    ∃ r, s.posted (s.postTaken o) o.w0 o.w1 o.w2 o.w3 o.n r ∧ (s.postTaken o).tg o.n o.rd.toNat = (if o.rd = 0 then 0 else r)
      ∧ ((s.postTaken o).thr o.n).pc = (s.thr o.n).pc + 4 ∧ (s.postTaken o).thState o.n = 1 := by
  obtain ⟨hcalq, hstage, -, -, -, hthr⟩ := s.issued_calendar o.n 2 0
  have hst := State.issued_thState hissue
  have hacc' := (s.refusal_issued o.n 2 0 o.action).trans hacc
  have hpost := State.post_posted hacc'
  obtain ⟨heq, hreg⟩ := State.post_frame hacc'
  simp only [State.postTaken, hbad, Bool.false_eq_true, if_false]
  generalize (s.issued (.thread o.n .clean) 2 0).post o.w0 o.w1 o.w2 o.w3 o.n = p at *
  refine ⟨p.2, State.posted_congr hpost ⟨hcalq, hstage, s.issued_mem o.n 2 0, s.issued_reg_thread o.n 2 0 (by decide)⟩ ?_,
    State.posterAnswered_answer p.2 hrd ?_ ?_⟩
  · refine ⟨?_, ?_, ?_, State.reg_posterAnswered_calendar _ _ _ _ (by decide)⟩ <;> rw [State.posterAnswered_eq]
  · exact (State.thr_congr _ _ (by rw [heq])).trans hthr
  · rwa [State.thState, State.fld, hreg, ← State.fld, ← State.thState] <;> simp only [AEN_TSTAT, CAL_USED, CAL_BMAX] <;> omega

/-- A post that is refused, by the calendar or by the instruction itself. -/
theorem State.postTaken_refused {st : Nat} (hissue : s.canIssue (.thread o.n .clean) o.g [] 2 0) (hrd : o.rd.toNat < 16)
    (href : (o.bad = true ∧ st = 16) ∨ (o.bad = false ∧ s.refusal o.action = some st)) :
    ∃ r, s.unposted (s.postTaken o) st r ∧ (s.postTaken o).tg o.n o.rd.toNat = (if o.rd = 0 then 0 else r)
      ∧ ((s.postTaken o).thr o.n).pc = (s.thr o.n).pc + 4 ∧ (s.postTaken o).thState o.n = 1 := by
  obtain ⟨hcalq, hstage, -, -, -, hthr⟩ := s.issued_calendar o.n 2 0
  have hst := State.issued_thState hissue
  have htaken : s.postTaken o
      = ((s.issued (.thread o.n .clean) 2 0).refusePost st).posterAnswered o.n o.rd (refusedWord st) := by
    rcases href with ⟨hbad, rfl⟩ | ⟨hbad, href⟩
    · simp only [State.postTaken, hbad, if_true]
    · simp only [State.postTaken, hbad, Bool.false_eq_true, if_false]
      rw [State.post_refused_eq ((s.refusal_issued o.n 2 0 _).trans href)]
  rw [htaken]
  have hsame : ((s.issued (.thread o.n .clean) 2 0).refusePost st).thr o.n = s.thr o.n :=
    (State.thr_congr _ _ (State.refusePost_threads _ _)).trans hthr
  have hun := (s.issued (.thread o.n .clean) 2 0).refusePost_unposted st
  refine ⟨refusedWord st, State.unposted_congr hun ⟨hcalq, hstage, s.issued_mem o.n 2 0, s.issued_reg_thread o.n 2 0 (by decide)⟩ ?_,
    State.posterAnswered_answer _ hrd hsame ?_⟩
  · refine ⟨?_, ?_, ?_, State.reg_posterAnswered_calendar _ _ _ _ (by decide), State.reg_posterAnswered_calendar _ _ _ _ (by decide)⟩
      <;> rw [State.posterAnswered_eq]
  · rwa [State.thState, State.fld, State.reg_refusePost_ne, ← State.fld, ← State.thState] <;>
      simp only [AEN_TSTAT, CAL_CNT1, CAL_EVT] <;> omega

/-- The register rd of a post is one that it names. -/
theorem State.postOp_rd {i : Instr} (h : s.postOp i = some o) : o.rd ∈ o.g := by
  unfold State.postOp at h
  split at h <;> cases h <;> exact List.mem_cons_self

end

/-! ### The abort of a thread (R198, R241) -/

/-- CANCL aborts in the issued state, and takes the status. -/
theorem exec_cancl {s : State} {n : Fin 64} {rd x : BitVec 5} (hissue : s.canIssue (.thread n .clean) [rd, x] [] 1 0) :
    Machine.exec (.cancl (.thread n .clean) rd x) s = .next
      ((((s.issued (.thread n .clean) 1 0).abortHandle (s.tg n x.toNat)).1.setTg n rd.toNat
        (BitVec.ofNat 32 ((s.issued (.thread n .clean) 1 0).abortHandle (s.tg n x.toNat)).2)).retireIns (.thread n .clean)) := by
  have hx : x.toNat < 16 := hissue.2.2.2.2.2.1 x (by simp)
  have hgr : (s.issued (.thread n .clean) 1 0).gr (.thread n .clean) x = s.tg n x.toNat := State.issued_gr _ _ _ _ _ (.inr hx)
  refine congrArg Host.Outcome.next ((State.angIns_run _ _ _ _ _ hissue rfl).trans ?_)
  dsimp only
  rw [hgr]

/-- What CANCL leaves. -/
theorem cancl_spec {s : State} {n : Fin 64} {rd x : BitVec 5} {st : Nat} (hissue : s.canIssue (.thread n .clean) [rd, x] [] 1 0)
    (hst : s.abortStatus (s.tg n x.toNat) st) :
    ∃ t, Machine.exec (.cancl (.thread n .clean) rd x) s = .next t
      ∧ t.tg n rd.toNat = (if rd = 0 then 0 else BitVec.ofNat 32 st) ∧ (t.thr n).pc = (s.thr n).pc + 4
      ∧ s.aborted t (s.tg n x.toNat) st := by
  have hrd : rd.toNat < 16 := hissue.2.2.2.2.2.1 rd (by simp)
  obtain ⟨hcalq, hstage, hent, hnow, hobs, hthr⟩ := s.issued_calendar n 1 0
  obtain ⟨hres, hab⟩ := State.abortHandle_spec (State.abortStatus_congr hst hcalq hstage hent hnow hobs)
  have hframe : (s.issued (.thread n .clean) 1 0).OutFrame ((s.issued (.thread n .clean) 1 0).abortHandle (s.tg n x.toNat)).1 :=
    (State.OutFrame.refl _).abortHandle
  refine ⟨_, exec_cancl hissue, ?_, ?_, ?_⟩
  all_goals
    generalize (s.issued (.thread n .clean) 1 0).abortHandle (s.tg n x.toNat) = p at *
  · have hreg : ∀ u : State, (u.retireIns (.thread n .clean)).tg n rd.toNat = u.tg n rd.toNat := fun u => by
      simp only [State.tg, State.retireIns, State.setThPc, State.reg_updThr]
    rw [hreg, State.tg_setTg, hres]
  · have hsame : p.1.thr n = s.thr n := (State.thr_congr _ _ (by rw [hframe.eq])).trans hthr
    rw [State.pc_retireIns_thread, State.thr_setTg, hsame]
  · refine State.aborted_congr hab ⟨hcalq, hstage, hent, s.issued_mem n 1 0⟩ ?_
    have hout : (p.1.setTg n rd.toNat (BitVec.ofNat 32 p.2)).reg OUT_EVT = p.1.reg OUT_EVT :=
      State.reg_setTg_ne _ _ _ _ (by have := n.isLt; simp only [AEN_TG, OUT_EVT]; omega)
    simp only [State.retireIns, State.setThPc, State.updThr_calq, State.updThr_stage, State.updThr_calEnt, State.updThr_mem,
      State.reg_updThr, hout, and_true]
    rw [State.setTg_eq]
    exact ⟨rfl, rfl, rfl, rfl⟩

end Sys2Proof.Machine

open Sys2Proof.Machine

/-- Settles O11: a post takes effect in the issued state, where the calendar decides as it would have before; so does an abort. -/
theorem postsAndAborts : Obligations.PostsAndAborts := by
  refine ⟨fun i s o ho hissue => ?_, fun n s rd x st hissue hst => cancl_spec hissue hst⟩
  have hrd : o.rd.toNat < 16 := hissue.2.2.2.2.2.1 _ (State.postOp_rd ho)
  have hexec := exec_postOp ho hissue
  refine ⟨fun hbad hacc => ?_, fun st href => ?_⟩
  · obtain ⟨r, hpost⟩ := State.postTaken_accepted hissue hrd hbad hacc
    exact ⟨_, r, hexec, hpost⟩
  · obtain ⟨r, hpost⟩ := State.postTaken_refused hissue hrd href
    exact ⟨_, r, hexec, hpost⟩

end

section
/-! PROOFS. The edges of the outputs, and what disabling a channel and the calendar does (R163, R190, R191, R200, R201). -/

namespace Sys2Proof.Machine

/-! ### Edges -/

/-- The registers of the observer, and those in which the outputs show their channels and events. -/
abbrev edgeReg (k : Nat) : Prop := (0x40060000 ≤ k ∧ k < 0x40070000) ∨ (0x4009000c ≤ k ∧ k ≤ 0x4009001c)

/-- `t` is `s` but for the channels of the outputs, the observer's own part and their registers, and items launched behind the earlier
ones. -/
structure State.EdgeFrame (s t : State) : Prop where
  eq : t = { s with regs := t.regs, inflight := t.inflight, obs := t.obs, outCh := t.outCh, cyc := t.cyc }
  sent : s.inflight ⊆ t.inflight
  reg : ∀ k, ¬ edgeReg k → t.reg k = s.reg k

theorem State.inflight_coastCheck (s : State) : s.inflight ⊆ s.coastCheck.inflight := fun x hx => by
  have h := State.mem_inflight_syncTold hx
  rwa [State.syncTold_eq] at h

namespace State.EdgeFrame

variable {s t u : State}

theorem refl (s : State) : s.EdgeFrame s := ⟨rfl, fun _ h => h, fun _ _ => rfl⟩

theorem trans (h : s.EdgeFrame t) (h' : t.EdgeFrame u) : s.EdgeFrame u :=
  ⟨h'.eq.trans (by rw [h.eq]), fun _ hx => h'.sent (h.sent hx), fun k hk => (h'.reg k hk).trans (h.reg k hk)⟩

theorem ite {c : Prop} [Decidable c] (ht : s.EdgeFrame t) (hu : s.EdgeFrame u) : s.EdgeFrame (if c then t else u) := by
  split
  · exact ht
  · exact hu

theorem setReg {k : Nat} {v : Word} (h : s.EdgeFrame t) (hk : edgeReg k := by decide) : s.EdgeFrame (t.setReg k v) :=
  h.trans ⟨rfl, fun _ hx => hx, fun _ hj => State.reg_setReg_ne _ _ (by rintro rfl; exact hj hk)⟩

theorem launch {i j : Island} {b : Body} (h : s.EdgeFrame t) : s.EdgeFrame (t.launch i j b) :=
  h.trans ⟨rfl, fun _ hx => List.mem_append_left _ hx, fun _ _ => rfl⟩

theorem raise {evt bit : Nat} (h : s.EdgeFrame t) (hk : edgeReg evt := by decide) : s.EdgeFrame (t.raise evt bit) :=
  (h.setReg hk).launch

theorem updOut {c : Nat} {f : OutCh → OutCh} (h : s.EdgeFrame t) : s.EdgeFrame (t.updOut c f) :=
  h.trans ⟨by simp only [State.updOut], by rw [State.updOut]; exact List.Subset.refl _, fun k _ => State.reg_updOut _ _ _ k⟩

theorem updCyc {n : Nat} {f : CycCh → CycCh} (h : s.EdgeFrame t) : s.EdgeFrame (t.updCyc n f) :=
  h.trans ⟨by simp only [State.updCyc], by rw [State.updCyc]; exact List.Subset.refl _,
    fun _ _ => by simp only [State.updCyc, State.reg]⟩

theorem fuelled (h : s.EdgeFrame t) : s.EdgeFrame t.fuelled := by
  have hobs := State.ObsFrame.fuelled (.refl t)
  refine h.trans ⟨hobs.eq.trans (by rw [hobs.eq]), ?_, fun k hk => hobs.reg k (by simp only [edgeReg] at hk; omega)⟩
  exact State.inflight_coastCheck (t.updObs fun o => { o with noFuel := 0 })

theorem setPin {n : Nat} {b : Bool} (h : s.EdgeFrame t) : s.EdgeFrame (t.setPin n b) := .ite h.setReg.fuelled h.setReg

theorem softStart {n : Nat} (h : s.EdgeFrame t) : s.EdgeFrame (t.softStart n) := h.updOut.setReg.setReg.raise

theorem endEdge {a : Action} {te : Nat} {fast : Bool} (h : s.EdgeFrame t) : s.EdgeFrame (t.endEdge a te fast) :=
  .ite h.launch.setReg.updOut (.ite h.setReg.updOut h.setPin.updOut)

theorem clipTold {a : Action} (h : s.EdgeFrame t) : s.EdgeFrame (t.clipTold a) := .ite h.raise h

/-- The actions stand as they did. -/
theorem actions (h : s.EdgeFrame t) : t.actions = s.actions := by
  rw [h.eq]
  rfl

theorem calEnt (h : s.EdgeFrame t) : t.calEnt = s.calEnt := by rw [h.eq]

theorem mem (h : s.EdgeFrame t) : t.mem = s.mem := by rw [h.eq]

end State.EdgeFrame

/-! ### The registers that only posts and register writes change -/

/-- The registers that edges and retirements change. -/
abbrev drivenReg (k : Nat) : Prop := edgeReg k ∨ bookReg k

/-- Every other register of `t` is as in `s`. -/
def State.DrivenFrame (s t : State) : Prop := ∀ k, ¬ drivenReg k → t.reg k = s.reg k

theorem not_drivenReg_OUT_AOUT {n : Nat} (hn : n < 16) : ¬ drivenReg (OUT_AOUT n) := by
  simp only [drivenReg, edgeReg, bookReg, recordReg, OUT_AOUT, CAL_USED, CAL_CNT0, CAL_CNT1, CAL_EVT]
  omega

theorem not_drivenReg_WHL_ECFG {k : Nat} (hk : k < 2) : ¬ drivenReg (WHL_ECFG k) := by
  simp only [drivenReg, edgeReg, bookReg, recordReg, WHL_ECFG, CAL_USED, CAL_CNT0, CAL_CNT1, CAL_EVT]
  omega

namespace State.DrivenFrame

variable {s t u : State}

theorem refl (s : State) : s.DrivenFrame s := fun _ _ => rfl

theorem trans (h : s.DrivenFrame t) (h' : t.DrivenFrame u) : s.DrivenFrame u := fun k hk => (h' k hk).trans (h k hk)

theorem ite {c : Prop} [Decidable c] (ht : s.DrivenFrame t) (hu : s.DrivenFrame u) : s.DrivenFrame (if c then t else u) := by
  split
  · exact ht
  · exact hu

theorem foldl {α : Type} {f : State → α → State} {l : List α} (h : s.DrivenFrame t)
    (hf : ∀ v x, s.DrivenFrame v → s.DrivenFrame (f v x)) : s.DrivenFrame (l.foldl f t) :=
  List.foldlRecOn l f h fun v hv x _ => hf v x hv

theorem edge (h : s.DrivenFrame t) (he : t.EdgeFrame u) : s.DrivenFrame u :=
  h.trans fun k hk => he.reg k fun hedge => hk (.inl hedge)

theorem retire {a : Action} {st dur : Nat} {start : Word} (h : s.DrivenFrame t) : s.DrivenFrame (t.retire a st start dur) :=
  h.trans fun k hk => (State.retire_retired t a st start dur).reg k fun hbook => hk (.inr hbook)

theorem endPulse {a : Action} {st : Nat} {fast : Bool} (h : s.DrivenFrame t) : s.DrivenFrame (t.endPulse a st fast) :=
  have hedge : ∀ te, s.DrivenFrame (t.endEdge a te fast) := fun _ => h.edge (.endEdge (.refl t))
  .ite (.ite (hedge _).retire (h.trans fun _ _ => rfl)) (.ite (h.edge (.softStart (.refl t))).retire (hedge _).retire)

theorem endActive {p : Action → Bool} {st : Nat} {fast : Bool} (h : s.DrivenFrame t) : s.DrivenFrame (t.endActive p st fast) :=
  h.foldl fun _ _ hv => .ite hv.endPulse hv

theorem retirePending {p : Action → Bool} {st : Nat} (h : s.DrivenFrame t) : s.DrivenFrame (t.retirePending p st) :=
  h.foldl fun _ _ hv => .ite hv.retire hv

theorem disableChannel {c : Nat} (h : s.DrivenFrame t) : s.DrivenFrame (t.disableChannel c) :=
  have hended := (h.endActive (p := fun a => a.channel == some c) (st := stCANCELLED) (fast := true)).retirePending
    (p := fun a => a.channel == some c) (st := stCANCELLED)
  .ite (hended.edge (.updCyc (.setPin (.refl _)))) hended

theorem disableCalendar (h : s.DrivenFrame t) : s.DrivenFrame t.disableCalendar :=
  State.DrivenFrame.retirePending (h.foldl fun _ _ hv => hv.disableChannel)

end State.DrivenFrame

/-! ### Nothing is left to start (R200, R201) -/

/-- What waits after a channel has been disabled waited before, and is not of that channel. -/
theorem State.AngleFrame.disableChannel {s t : State} {c : Nat} (h : s.AngleFrame t) : s.AngleFrame (t.disableChannel c) :=
  .ite h.endActive.retirePending.setPin.updCyc h.endActive.retirePending

/-- Nothing that satisfies `p` waits once everything pending that does has retired. -/
theorem State.not_pends_retirePending_of (s : State) {p : Action → Bool} (st : Nat) {a : Action}
    (ha : a ∈ (s.retirePending p st).actions) (hp : p a = true) : ¬ a.Pends := by
  intro hpend
  have hpending : (p a && (a.place == .waiting || a.place == .held)) = true := by rw [hp, a.pends_iff.mp hpend]; rfl
  obtain ⟨hmem, hgone⟩ := State.mem_actions_foldl (q := True) (fun t b hb => by
    split at hb
    · exact ⟨(State.mem_actions_retire hpend hb).1, fun hab => absurd hab (State.mem_actions_retire hpend hb).2⟩
    · next hnot =>
      refine ⟨hb, ?_⟩
      rintro rfl
      exact absurd hpending hnot) ha
  exact hgone (List.mem_append.mpr (List.mem_append.mp hmem).symm) trivial

theorem State.not_pends_disableChannel (s : State) (c : Nat) {a : Action} (ha : a ∈ (s.disableChannel c).actions)
    (hc : a.channel = some c) : ¬ a.Pends := by
  intro hpend
  have hend : ((s.endActive (fun a => a.channel == some c) stCANCELLED true).retirePending (fun a => a.channel == some c)
      stCANCELLED).AngleFrame (s.disableChannel c) := .ite (.updCyc (.setPin (.refl _))) (.refl _)
  exact State.not_pends_retirePending_of _ stCANCELLED (hend.pending a ha hpend) (by simp [hc]) hpend

/-! ### A waiting action is cancelled (R200, R201, R203) -/

/-- The status that an entry keeps of its last retirement. -/
def State.entrySt (s : State) (i : Nat) : Nat := (tabGet (fun _ => ({} : CalEnt)) s.calEnt i).st

/-- Action `a` is retired CANCELLED, or stands alone under its entry. -/
def State.Cancels (a : Action) (t : State) : Prop :=
  t.entrySt a.idx = stCANCELLED ∨ (a ∈ t.actions ∧ ∀ b ∈ t.actions, b.idx = a.idx → b = a)

/-- An entry retired CANCELLED stays so while others are. -/
theorem State.Retired.entrySt {s t : State} {b : Action} {i : Nat} (hr : s.Retired t b stCANCELLED) (h : s.entrySt i = stCANCELLED) :
    t.entrySt i = stCANCELLED := by
  by_cases hi : i = b.idx
  · rw [State.entrySt, hi]
    exact hr.status
  · rw [← h, State.entrySt, hr.eq]
    exact congrArg CalEnt.st (tabGet_tabSet_ne _ _ _ hi)

theorem State.EdgeFrame.entrySt {s t : State} (h : s.EdgeFrame t) (i : Nat) : t.entrySt i = s.entrySt i := by
  rw [State.entrySt, h.calEnt, State.entrySt]

theorem State.entrySt_endPulse {s : State} {i : Nat} (b : Action) (fast : Bool) (h : s.entrySt i = stCANCELLED) :
    (s.endPulse b stCANCELLED fast).entrySt i = stCANCELLED := by
  have hretire : ∀ (t : State) start dur, s.EdgeFrame t → (t.retire b stCANCELLED start dur).entrySt i = stCANCELLED :=
    fun t start dur ht => (State.retire_retired t b stCANCELLED start dur).entrySt ((ht.entrySt i).trans h)
  unfold State.endPulse
  split
  · split
    · exact hretire _ _ _ (.endEdge (.refl s))
    · exact h
  · split
    · exact hretire _ _ _ (.softStart (.refl s))
    · exact hretire _ _ _ (.endEdge (.refl s))

namespace State.Cancels

variable {a b : Action} {s t : State}

theorem congr (h : s.Cancels a) (hacts : t.actions = s.actions) (hent : t.calEnt = s.calEnt) : t.Cancels a := by
  rwa [State.Cancels, State.entrySt, hacts, hent]

theorem edge (h : s.Cancels a) (he : s.EdgeFrame t) : t.Cancels a := h.congr he.actions he.calEnt

theorem ite {c : Prop} [Decidable c] (hs : s.Cancels a) (ht : t.Cancels a) : (if c then s else t).Cancels a := by
  split
  · exact hs
  · exact ht

/-- A retirement cancels `a`, or leaves it alone. -/
theorem retired (h : s.Cancels a) (hr : s.Retired t b stCANCELLED) : t.Cancels a := by
  have hacts : t.actions = (s.freed b stCANCELLED).actions := by rw [State.actions, hr.eq]; rfl
  rcases h with hst | ⟨hmem, halone⟩
  · exact .inl (hr.entrySt hst)
  · by_cases hi : a.idx = b.idx
    · left
      rw [State.entrySt, hi]
      exact hr.status
    · refine .inr ⟨?_, fun c hc => halone c (State.mem_actions_freed (hacts ▸ hc)).1⟩
      rw [hacts, State.actions, State.freed, ← List.filter_append, List.mem_filter, bne_iff_ne]
      exact ⟨hmem, hi⟩

theorem retire {start : Word} {dur : Nat} (h : s.Cancels a) : (s.retire b stCANCELLED start dur).Cancels a :=
  h.retired (State.retire_retired s b stCANCELLED start dur)

/-- A change of a released action of another entry leaves `a` alone. -/
theorem updStage {i : Nat} {f : Action → Action} (h : s.Cancels a) (hf : ∀ b, (f b).idx = b.idx)
    (hi : i = a.idx → s.entrySt a.idx = stCANCELLED) : (s.updStage i f).Cancels a := by
  rcases h with hst | ⟨hmem, halone⟩
  · exact .inl hst
  · by_cases hia : i = a.idx
    · exact .inl (hi hia)
    · have hsame : ∀ b : Action, b.idx = a.idx → (if b.idx = i then f b else b) = b := fun b hb =>
        if_neg fun hbi => hia (hbi.symm.trans hb)
      refine .inr ⟨?_, fun c hc hidx => ?_⟩
      · rcases List.mem_append.mp hmem with hcal | hstage
        · exact List.mem_append_left _ hcal
        · exact List.mem_append_right _ (List.mem_map.mpr ⟨a, hstage, hsame a rfl⟩)
      · rcases List.mem_append.mp hc with hcal | hstage
        · exact halone c (List.mem_append_left _ hcal) hidx
        · obtain ⟨b, hb, rfl⟩ := List.mem_map.mp hstage
          have hbi : b.idx = a.idx := by
            rw [← hidx]
            split
            · exact (hf b).symm
            · rfl
          rw [hsame b hbi]
          exact halone b (List.mem_append_right _ hb) hbi

theorem endPulse {fast : Bool} (h : s.Cancels a) (hb : b.idx = a.idx → s.entrySt a.idx = stCANCELLED) :
    (s.endPulse b stCANCELLED fast).Cancels a :=
  have hedge : ∀ te, (s.endEdge b te fast).Cancels a := fun _ => h.edge (.endEdge (.refl s))
  .ite (.ite (hedge _).retire (h.updStage (fun _ => rfl) hb)) (.ite (h.edge (.softStart (.refl s))).retire (hedge _).retire)

/-- The ends of pulses leave an action alone that is none. -/
theorem endActive {p : Action → Bool} {fast : Bool} (h : s.Cancels a) (ha : a.place ≠ .active) :
    (s.endActive p stCANCELLED fast).Cancels a := by
  rcases h with hst | ⟨hmem, halone⟩
  · refine .inl (List.foldlRecOn _ _ (motive := fun t : State => t.entrySt a.idx = stCANCELLED) hst fun t ht b _ => ?_)
    split
    · exact State.entrySt_endPulse b fast ht
    · exact ht
  · refine List.foldlRecOn _ _ (motive := fun t : State => t.Cancels a) (.inr ⟨hmem, halone⟩) fun t ht b hb => ?_
    split
    · next hact =>
      refine ht.endPulse fun hidx => absurd ?_ ha
      rw [← halone b (List.mem_append_right _ hb) hidx]
      simpa using (Bool.and_eq_true_iff.mp hact).2
    · exact ht

theorem retirePending {p : Action → Bool} (h : s.Cancels a) : (s.retirePending p stCANCELLED).Cancels a :=
  List.foldlRecOn _ _ (motive := fun t : State => t.Cancels a) h fun _ ht _ _ => .ite ht.retire ht

theorem disableChannel {c : Nat} (h : s.Cancels a) (ha : a.place ≠ .active) : (s.disableChannel c).Cancels a :=
  have hended := (h.endActive (p := fun b => b.channel == some c) (fast := true) ha).retirePending
    (p := fun b => b.channel == some c)
  .ite (hended.edge (.updCyc (.setPin (.refl _)))) hended

theorem disableCalendar (h : s.Cancels a) (ha : a.place ≠ .active) : s.disableCalendar.Cancels a :=
  retirePending (List.foldlRecOn _ _ (motive := fun t : State => t.Cancels a) h fun _ ht _ _ => ht.disableChannel ha)

end State.Cancels

/-- R201: a waiting action that stands alone under its entry is retired CANCELLED. -/
theorem State.entrySt_disableCalendar {s : State} {a : Action} (ha : a ∈ s.actions) (hwait : a.place = .waiting)
    (halone : ∀ b ∈ s.actions, b.idx = a.idx → b = a) : s.disableCalendar.entrySt a.idx = stCANCELLED := by
  have hcancels : s.Cancels a := .inr ⟨ha, halone⟩
  rcases hcancels.disableCalendar (by simp [hwait]) with hst | ⟨hmem, -⟩
  · exact hst
  · exact absurd (.inl hwait) (State.not_pends_retirePending _ _ a hmem)

end Sys2Proof.Machine
end

section
/-! PROOFS. The action calendar (R174 to R177, R180, R181, R198, R201, R209). -/

namespace Sys2Proof.Machine

/-! ### Writes to the registers of CAL -/

/-- A write that no lock on RWC fields bears on. -/
theorem State.writeWith_free {s : State} {addr : Nat} {w : Word} {locked : Bool} {act : State → State} {r : Row} {i j : Nat}
    (hrow : rowFind (blockRows (blkOf addr)) (addr % 0x10000) = some (r, i, j)) (hflds : fieldsLegal r.flds w = true)
    (hfree : rwcSame r.flds (s.reg addr) w = true) :
    s.writeWith addr w locked true act = act (s.setReg addr (mergeFields r.flds (s.reg addr) w)) :=
  (State.writeWith_of_rwcSame hrow hfree).trans (State.writeWith_of_legal hrow hflds rfl rfl)

/-- A row of a policy port with one field of 32 bits. -/
def portRow (off : Nat) (acc : Acc) : Row :=
  { off, s1 := 0x20, c1 := 4, s2 := 0x4, c2 := 1, rst := 0x0, werr := .none, lock := .none, flds := [⟨⟨0, 32⟩, acc, .any⟩] }

theorem rowFind_CAL_PPD3 (p : Fin 4) :
    rowFind (blockRows (blkOf (CAL_PPD3 p))) (CAL_PPD3 p % 0x10000) = some (portRow 0x10c .rw, p.val, 0) := by
  fin_cases p <;> decide

theorem rowFind_CAL_PPCAN (p : Fin 4) :
    rowFind (blockRows (blkOf (CAL_PPCAN p))) (CAL_PPCAN p % 0x10000) = some (portRow 0x114 .wo, p.val, 0) := by
  fin_cases p <;> decide

theorem mergeFields_port (off : Nat) (old w : Word) : mergeFields (portRow off .rw).flds old w = w := by
  have hall : writtenBits (portRow off .rw).flds = BitVec.allOnes 32 := by rfl
  rw [mergeFields_of_writable (by simp [portRow]), hall, maskedWrite, BitVec.not_allOnes, BitVec.and_zero, BitVec.zero_or,
    BitVec.and_allOnes]

/-- The state in which a policy port posts: word 3 is in its register. -/
def State.portWritten (s : State) (p : Fin 4) (w : Word) : State := s.setReg (CAL_PPD3 p) w

/-- A policy port's post (R174). -/
def State.portPost (s : State) (p : Fin 4) (w : Word) : State × Word :=
  (s.portWritten p w).post (s.reg (CAL_PPD0 p)) (s.reg (CAL_PPD1 p)) (s.reg (CAL_PPD2 p)) w (64 + p)

theorem State.calWrite_PPD3 (s : State) (p : Fin 4) (w : Word) :
    s.calWrite (CAL_PPD3 p) w = (s.portPost p w).1.setReg (CAL_PPRES p) (s.portPost p w).2 := by
  have hp := p.isLt
  have hport : (CAL_PPD3 p % 0x10000 - 0x100) / 0x20 = p := by simp only [CAL_PPD3]; omega
  have hword : ∀ k, k ≠ CAL_PPD3 p → (s.setReg (CAL_PPD3 p) w).reg k = s.reg k := fun k hk => State.reg_setReg_ne _ _ hk
  rw [State.calWrite]
  dsimp only
  rw [State.writeWith_free (rowFind_CAL_PPD3 p) rfl rfl, mergeFields_port, hport, if_neg (by simp only [CAL_PPD3, CAL_CTRL]; omega),
    if_neg (by simp only [CAL_PPD3, CAL_CLR]; omega), if_pos (by simp only [CAL_PPD3, and_true]; omega),
    hword _ (by simp only [CAL_PPD0, CAL_PPD3]; omega), hword _ (by simp only [CAL_PPD1, CAL_PPD3]; omega),
    hword _ (by simp only [CAL_PPD2, CAL_PPD3]; omega), State.reg_setReg_same]
  rfl

theorem State.calWrite_PPCAN (s : State) (p : Fin 4) (h : Word) :
    s.calWrite (CAL_PPCAN p) h = { s.setReg (CAL_PPCAN p) (s.reg (CAL_PPCAN p)) with aborts := s.aborts ++ [(p.val, h)] } := by
  have hp := p.isLt
  have hport : (CAL_PPCAN p % 0x10000 - 0x100) / 0x20 = p := by simp only [CAL_PPCAN]; omega
  rw [State.calWrite]
  dsimp only
  rw [State.writeWith_free (rowFind_CAL_PPCAN p) rfl rfl, hport, if_neg (by simp only [CAL_PPCAN, CAL_CTRL]; omega),
    if_neg (by simp only [CAL_PPCAN, CAL_CLR]; omega), if_neg (by simp only [CAL_PPCAN, CAL_PPD3]; omega),
    if_pos (by simp only [CAL_PPCAN, and_true]; omega)]
  rfl

/-- A masked write of the word itself. -/
theorem maskedWrite_self (m r : Word) : maskedWrite m r r = r :=
  BitVec.eq_of_getLsbD_eq fun i hi => by rw [maskedWrite_getLsbD _ _ _ hi, ite_self]

/-- The row of CAL_CTRL. -/
def calCtrlRow : Row :=
  { off := 0x0, s1 := 0x4, c1 := 1, s2 := 0x4, c2 := 1, rst := 0x0, werr := .bit 0, lock := .none, flds := [⟨CAL_CTRL_EN, .rw, .any⟩] }

theorem rowFind_CAL_CTRL : rowFind (blockRows (blkOf CAL_CTRL)) (CAL_CTRL % 0x10000) = some (calCtrlRow, 0, 0) := by decide

/-- The calendar's enable cleared (R201). -/
def State.calOff (s : State) : State := s.setFld CAL_CTRL CAL_CTRL_EN 0

theorem State.calOff_EN (s : State) : s.calOff.fld CAL_CTRL CAL_CTRL_EN = 0 := State.fld_setFld_same _ _ _ _ (by decide)

theorem State.calWrite_CTRL (s : State) :
    s.calWrite CAL_CTRL 0 = if s.fld CAL_CTRL CAL_CTRL_EN = 1 then s.calOff.disableCalendar else s.calOff := by
  have hmerge : s.setReg CAL_CTRL (mergeFields calCtrlRow.flds (s.reg CAL_CTRL) 0) = s.calOff := rfl
  rw [State.calWrite]
  dsimp only
  rw [State.writeWith_free rowFind_CAL_CTRL rfl rfl, if_pos rfl, hmerge, s.calOff_EN]
  simp only [and_true]

/-- The row of CAL_CLR: two command bits, which the register does not keep. -/
def calClrRow : Row :=
  { off := 0x2c, s1 := 0x4, c1 := 1, s2 := 0x4, c2 := 1, rst := 0x0, werr := .bit 3, lock := .none,
    flds := [⟨CAL_CLR_CNT, .wo, .any⟩, ⟨CAL_CLR_BMAX, .wo, .any⟩] }

theorem rowFind_CAL_CLR : rowFind (blockRows (blkOf CAL_CLR)) (CAL_CLR % 0x10000) = some (calClrRow, 0, 0) := by decide

/-- What a write of CAL_CLR does (R209). -/
def State.calClr (t : State) (w : Word) : State :=
  let t1 := if bitOf w 0 then ((t.setReg CAL_CNT0 0).setReg CAL_CNT1 0).setReg CAL_RSTALL 0 else t
  if bitOf w 1 then t1.setReg CAL_BMAX 0 else t1

theorem State.calWrite_CLR (s : State) (w : Word) : s.calWrite CAL_CLR w = (s.setReg CAL_CLR (s.reg CAL_CLR)).calClr w := by
  rw [State.calWrite]
  dsimp only
  rw [State.writeWith_free rowFind_CAL_CLR rfl rfl, if_neg (by decide), if_pos rfl]
  rfl

/-! ### The policy ports (R174 to R177, R198) -/

theorem State.portWritten_refusal (s : State) (p : Fin 4) (w : Word) (a : Action) : (s.portWritten p w).refusal a = s.refusal a :=
  State.refusal_congr (s := s) (u := s.portWritten p w) rfl rfl (fun k hk => State.reg_setReg_ne _ _ (by
    have := p.isLt
    simp only [refusalReg, CAL_CTRL] at hk
    simp only [CAL_PPD3]
    omega)) a

/-- R174: an accepted post of a policy port. -/
theorem policyPost_accepted {s : State} {p : Fin 4} {w : Word}
    (h : s.refusal { w0 := s.reg (CAL_PPD0 p), w1 := s.reg (CAL_PPD1 p), w2 := s.reg (CAL_PPD2 p), w3 := w, poster := 64 + p } = none) :
    ∃ t, Machine.exec (.policyPost p w) s = .next t
      ∧ s.posted t (s.reg (CAL_PPD0 p)) (s.reg (CAL_PPD1 p)) (s.reg (CAL_PPD2 p)) w (64 + p) (t.reg (CAL_PPRES p))
      ∧ t.reg (CAL_PPD3 p) = w ∧ t.inflight = s.inflight
      ∧ ∀ k, k ≠ CAL_PPD3 p → k ≠ CAL_PPRES p → k ≠ CAL_USED → k ≠ CAL_BMAX → t.reg k = s.reg k := by
  have hacc := (s.portWritten_refusal p w _).trans h
  have hpost := State.post_posted hacc
  obtain ⟨heq, hreg⟩ := State.post_frame hacc
  refine ⟨_, congrArg Host.Outcome.next (s.calWrite_PPD3 p w), ?_⟩
  rw [State.portPost]
  generalize (s.portWritten p w).post _ _ _ _ _ = q at *
  refine ⟨?_, ?_, ?_, fun k hd hr hu hb => ?_⟩
  · rw [State.reg_setReg_same]
    refine State.posted_congr hpost ⟨rfl, rfl, rfl, State.reg_setReg_ne _ _ ?_⟩ ⟨rfl, rfl, rfl, State.reg_setReg_ne _ _ ?_⟩
    · simp only [CAL_BASE, CAL_PPD3]
      omega
    · simp only [CAL_USED, CAL_PPRES]
      omega
  · rw [State.reg_setReg_ne _ _ (by simp only [CAL_PPD3, CAL_PPRES]; omega), hreg _ (by simp only [CAL_PPD3, CAL_USED]; omega)
      (by simp only [CAL_PPD3, CAL_BMAX]; omega)]
    exact State.reg_setReg_same _ _ _
  · change q.1.inflight = s.inflight
    rw [heq]
    rfl
  · rw [State.reg_setReg_ne _ _ hr, hreg _ hu hb]
    exact State.reg_setReg_ne _ _ hd

/-- R175: a refused post of a policy port. -/
theorem policyPost_refused {s : State} {p : Fin 4} {w : Word} {st : Nat}
    (h : s.refusal { w0 := s.reg (CAL_PPD0 p), w1 := s.reg (CAL_PPD1 p), w2 := s.reg (CAL_PPD2 p), w3 := w, poster := 64 + p } = some st) :
    ∃ t, Machine.exec (.policyPost p w) s = .next t ∧ s.unposted t st (t.reg (CAL_PPRES p)) ∧ t.reg (CAL_PPD3 p) = w
      ∧ ∀ k, k ≠ CAL_PPD3 p → k ≠ CAL_PPRES p → k ≠ CAL_CNT1 → k ≠ CAL_EVT → t.reg k = s.reg k := by
  refine ⟨_, congrArg Host.Outcome.next (s.calWrite_PPD3 p w), ?_⟩
  rw [State.portPost, State.post_refused_eq ((s.portWritten_refusal p w _).trans h)]
  have hun := (s.portWritten p w).refusePost_unposted st
  refine ⟨?_, ?_, fun k hd hr hc he => ?_⟩
  · rw [State.reg_setReg_same]
    refine State.unposted_congr hun ⟨rfl, rfl, rfl, State.reg_setReg_ne _ _ ?_⟩
      ⟨rfl, rfl, rfl, State.reg_setReg_ne _ _ ?_, State.reg_setReg_ne _ _ ?_⟩
    · simp only [CAL_CNT1, CAL_PPD3]
      omega
    · simp only [CAL_CNT1, CAL_PPRES]
      omega
    · simp only [CAL_EVT, CAL_PPRES]
      omega
  · rw [State.reg_setReg_ne _ _ (by simp only [CAL_PPD3, CAL_PPRES]; omega), State.reg_refusePost_ne _ _
      (by simp only [CAL_PPD3, CAL_CNT1]; omega) (by simp only [CAL_PPD3, CAL_EVT]; omega)]
    exact State.reg_setReg_same _ _ _
  · rw [State.reg_setReg_ne _ _ hr, State.reg_refusePost_ne _ _ hc he]
    exact State.reg_setReg_ne _ _ hd

/-- R198: the abort of a policy port is on its way to the output unit. -/
theorem policyAbort_sends (p : Fin 4) (h : Word) (s : State) : ∃ t, Machine.exec (.policyAbort p h) s = .next t
    ∧ t = { s with regs := t.regs, aborts := s.aborts ++ [(p.val, h)] } ∧ ∀ k, t.reg k = s.reg k :=
  ⟨_, congrArg Host.Outcome.next (s.calWrite_PPCAN p h), rfl, fun k => s.reg_setReg_self (CAL_PPCAN p) k⟩

/-- The oldest abort reaches the output unit (R198). -/
theorem abortArrival_answers {s : State} {x : Nat × Word} (h : s.aborts.head? = some x) {st : Nat} (hst : s.abortStatus x.2 st) :
    ∃ t, Machine.exec .abortArrival s = .next t ∧ t.aborts = s.aborts.tail ∧ t.reg (CAL_PPCRES x.1) = BitVec.ofNat 32 st
      ∧ s.aborted t x.2 st := by
  obtain ⟨l, hl⟩ : ∃ l, s.aborts = x :: l := by
    cases hs : s.aborts with
    | nil => rw [hs] at h; cases h
    | cons y l => rw [hs] at h; cases h; exact ⟨l, rfl⟩
  obtain ⟨hres, hab⟩ := State.abortHandle_spec (s := { s with aborts := l }) (State.abortStatus_congr hst rfl rfl rfl rfl rfl)
  have hframe : ({ s with aborts := l } : State).OutFrame (State.abortHandle { s with aborts := l } x.2).1 :=
    (State.OutFrame.refl _).abortHandle
  refine ⟨(State.abortHandle { s with aborts := l } x.2).1.setReg (CAL_PPCRES x.1)
    (BitVec.ofNat 32 (State.abortHandle { s with aborts := l } x.2).2), ?_, ?_, ?_, ?_⟩
  · change execAbortArrival s = _
    rw [execAbortArrival, hl]
  · rw [hl]
    change (State.abortHandle { s with aborts := l } x.2).1.aborts = l
    rw [hframe.eq]
  · rw [State.reg_setReg_same, hres]
  · refine State.aborted_congr hab ⟨rfl, rfl, rfl, rfl⟩ ⟨rfl, rfl, rfl, rfl, State.reg_setReg_ne _ _ ?_⟩
    simp only [OUT_EVT, CAL_PPCRES]
    omega

/-! ### The walk (R180) -/

theorem exec_bucketWalk {s : State} {w : Word} (h : s.walked = some w) : Machine.exec .bucketWalk s
    = .next (if s.fires && wLater ((s.angW &&& 0xFFFFF000) + 0x1FFF) w
        then { s with walked := some ((s.angW &&& 0xFFFFF000) + 0x1FFF) } else s) := by
  change execBucketWalk s = _
  rw [execBucketWalk, h]
  rfl

/-! ### The release (R181) -/

theorem earliest_eq_none {l : List Action} : earliest l = none ↔ l = [] := by
  cases l with
  | nil => exact ⟨fun _ => rfl, fun _ => rfl⟩
  | cons a l =>
    rw [earliest]
    split
    · simp
    · split <;> simp

theorem mem_of_earliest {l : List Action} {a : Action} (h : earliest l = some a) : a ∈ l := by
  induction l generalizing a with
  | nil => cases h
  | cons b l ih =>
    rw [earliest] at h
    split at h
    · cases h
      exact List.mem_cons_self
    · next c hc =>
      split at h
      · cases h
        exact List.mem_cons_of_mem _ (ih hc)
      · cases h
        exact List.mem_cons_self

/-- Seen from an angle with no action half the range or more ahead of it, the later of two words is the larger. -/
theorem wLater_iff_lt {a b x : Word} (ha : (a - x).toNat < 2 ^ 31) (hb : (b - x).toNat < 2 ^ 31) :
    wLater a b = true ↔ (b - x).toNat < (a - x).toNat := by
  simp only [wLater, Bool.and_eq_true, decide_eq_true_iff, BitVec.toNat_sub] at *
  have := a.isLt
  have := b.isLt
  have := x.isLt
  omega

theorem earliest_least {l : List Action} {a : Action} {x : Word} (h : earliest l = some a)
    (hx : ∀ b ∈ l, (b.w0 - x).toNat < 2 ^ 31) : ∀ b ∈ l, (a.w0 - x).toNat ≤ (b.w0 - x).toNat := by
  induction l generalizing a with
  | nil => cases h
  | cons b l ih =>
    have hb := hx b List.mem_cons_self
    have hl : ∀ c ∈ l, (c.w0 - x).toNat < 2 ^ 31 := fun c hc => hx c (List.mem_cons_of_mem _ hc)
    rw [earliest] at h
    split at h
    · next hnone =>
      cases h
      rw [earliest_eq_none.mp hnone]
      simp
    · next c hc =>
      have hleast := ih hc hl
      have hlater := wLater_iff_lt hb (hl c (mem_of_earliest hc))
      split at h
      · next hlt =>
        cases h
        exact List.forall_mem_cons.mpr ⟨(hlater.mp hlt).le, hleast⟩
      · next hge =>
        cases h
        have hle := Nat.le_of_not_lt fun hlt => hge (hlater.mpr hlt)
        exact List.forall_mem_cons.mpr ⟨le_rfl, fun d hd => hle.trans (hleast d hd)⟩

/-- A release that waits is counted (R181, R209). -/
theorem State.releaseWaits_spec {s u : State} (hu : u = { s with meters := u.meters }) :
    u.releaseWaits = { s with regs := u.releaseWaits.regs, inflight := s.inflight ++ [evtItem CAL_EVT CAL_EVT_RSTALL],
                              meters := u.releaseWaits.meters }
      ∧ (u.releaseWaits.reg CAL_RSTALL).toNat = min (2 ^ 32 - 1) ((s.reg CAL_RSTALL).toNat + 1)
      ∧ u.releaseWaits.bit CAL_EVT CAL_EVT_RSTALL = true
      ∧ ∀ k, k ≠ CAL_RSTALL → k ≠ CAL_EVT → u.releaseWaits.reg k = s.reg k := by
  have hreg : ∀ k, u.reg k = s.reg k := fun k => by rw [State.reg, hu, State.reg]
  have hword : ∀ w : Word, (⟨0, 32⟩ : Fld).get w = w.toNat := fun w => by
    change w.toNat / 2 ^ 0 % 2 ^ 32 = w.toNat
    rw [Nat.pow_zero, Nat.div_one, Nat.mod_eq_of_lt w.isLt]
  refine ⟨?_, ?_, State.bit_raise _ _ (by decide), fun k hr he => ?_⟩
  · rw [hu]
    rfl
  · have hcount := State.fld_count u CAL_RSTALL 1 ⟨0, 32⟩ (by decide)
    rw [State.fld, State.fld, hword, hword, hreg] at hcount
    rw [State.releaseWaits, State.reg_raise_ne _ _ (by decide), hcount]
  · rw [State.releaseWaits, State.reg_raise_ne _ _ he, State.count, State.reg_setFld_ne _ _ _ hr, hreg]

theorem State.budStarve_eq (s : State) (acct : Option Nat) (r : Nat) :
    s.budStarve acct r = { s with meters := (s.budStarve acct r).meters } := by
  cases acct with
  | none => rfl
  | some a => simp only [State.budStarve, State.updMeter]

/-- The actions that wait before `a` in its stage fill it (R181). -/
def State.stageFull (s : State) (a : Action) : Bool :=
  decide (stageDepth a.stageNo ≤ (s.stage.filter fun b => b.stageNo == a.stageNo && (b.place == .waiting || b.place == .held)).length)

theorem exec_actionRelease {s : State} {a : Action} (h : earliest (s.calq.filter s.dueForRelease) = some a) :
    Machine.exec .actionRelease s = .next (if s.stageFull a then s.releaseWaits
      else if !s.budHas (s.binding 0) resFABRIC 1 then (s.budStarve (s.binding 0) resFABRIC).releaseWaits else s.release a) := by
  change execActionRelease s = _
  rw [execActionRelease, h, State.stageFull]
  simp only [decide_eq_true_iff]
  split
  · rfl
  · split <;> rfl

theorem actionRelease_waits {s : State} {a : Action} (h : earliest (s.calq.filter s.dueForRelease) = some a)
    (hwait : s.stageFull a = true ∨ s.budHas (s.binding 0) resFABRIC 1 = false) :
    ∃ t, Machine.exec .actionRelease s = .next t
      ∧ t = { s with regs := t.regs, inflight := s.inflight ++ [evtItem CAL_EVT CAL_EVT_RSTALL], meters := t.meters }
      ∧ (t.reg CAL_RSTALL).toNat = min (2 ^ 32 - 1) ((s.reg CAL_RSTALL).toNat + 1) ∧ t.bit CAL_EVT CAL_EVT_RSTALL = true
      ∧ ∀ k, k ≠ CAL_RSTALL → k ≠ CAL_EVT → t.reg k = s.reg k := by
  rw [exec_actionRelease h]
  by_cases hfull : s.stageFull a = true
  · rw [if_pos hfull]
    exact ⟨_, rfl, State.releaseWaits_spec rfl⟩
  · have hbud : s.budHas (s.binding 0) resFABRIC 1 = false := hwait.resolve_left hfull
    rw [if_neg hfull, hbud]
    exact ⟨_, rfl, State.releaseWaits_spec (State.budStarve_eq _ _ _)⟩

theorem actionRelease_releases {s : State} {a : Action} (h : earliest (s.calq.filter s.dueForRelease) = some a)
    (hfull : s.stageFull a = false) (hbud : s.budHas (s.binding 0) resFABRIC 1 = true) :
    ∃ t, Machine.exec .actionRelease s = .next t
      ∧ t = { s with calq := s.calq.filter (fun b => b.idx != a.idx), stage := t.stage, meters := t.meters }
      ∧ t.stage = s.stage ++ [{ a with late := wReached (s.compared a) a.w0 && !s.onJumpAngle a }] := by
  rw [exec_actionRelease h, hfull, hbud]
  refine ⟨s.release a, rfl, ?_, ?_⟩ <;> rw [State.release, State.budDraw_eq]

/-! ### Disabling the calendar, and the clears (R201, R209) -/

theorem State.calOff_reg {s : State} {k : Nat} (hk : k ≠ CAL_CTRL) : s.calOff.reg k = s.reg k := State.reg_setFld_ne _ _ _ hk

theorem calendarDisable_cancels {s : State} (h : s.fld CAL_CTRL CAL_CTRL_EN = 1) :
    ∃ t, Machine.exec .calendarDisable s = .next t ∧ t.fld CAL_CTRL CAL_CTRL_EN = 0
      ∧ (∀ a ∈ t.calq ++ t.stage, a.place ≠ .waiting ∧ a.place ≠ .held)
      ∧ (∀ a ∈ s.calq ++ s.stage, a.place = .waiting → (∀ b ∈ s.calq ++ s.stage, b ≠ a → b.idx ≠ a.idx) →
          (tabGet (fun _ => ({} : CalEnt)) t.calEnt a.idx).st = 4)
      ∧ t.reg OUT_ENI = s.reg OUT_ENI ∧ t.reg OUT_ENG = s.reg OUT_ENG ∧ t.reg OUT_ENA = s.reg OUT_ENA := by
  have hexec : Machine.exec .calendarDisable s = .next s.calOff.disableCalendar :=
    congrArg Host.Outcome.next (s.calWrite_CTRL.trans (if_pos h))
  have hreg : s.calOff.DrivenFrame s.calOff.disableCalendar := .disableCalendar (.refl _)
  refine ⟨_, hexec, ?_, fun a ha => ?_, fun a ha hwait halone => ?_, (hreg _ (by decide)).trans (State.calOff_reg (by decide)),
    (hreg _ (by decide)).trans (State.calOff_reg (by decide)), (hreg _ (by decide)).trans (State.calOff_reg (by decide))⟩
  · rw [State.fld, hreg _ (by decide)]
    exact s.calOff_EN
  · have hpend := State.not_pends_retirePending _ stCANCELLED a ha
    exact ⟨fun hw => hpend (.inl hw), fun hh => hpend (.inr hh)⟩
  · exact State.entrySt_disableCalendar (s := s.calOff) ha hwait fun b hb hidx => by_contra fun hne => halone b hb hne hidx

theorem calendarDisable_again {s : State} (h : s.fld CAL_CTRL CAL_CTRL_EN = 0) :
    ∃ t, Machine.exec .calendarDisable s = .next t ∧ t = { s with regs := t.regs } ∧ ∀ k, t.reg k = s.reg k := by
  have hset : s.calOff = s.setReg CAL_CTRL (s.reg CAL_CTRL) := by
    have hsame : CAL_CTRL_EN.set (s.reg CAL_CTRL) (s.fld CAL_CTRL CAL_CTRL_EN) = s.reg CAL_CTRL := by
      rw [State.fld, Fld.set_get, maskedWrite_self]
    rw [h] at hsame
    rw [State.calOff, State.setFld, hsame]
  have hexec : Machine.exec .calendarDisable s = .next s.calOff :=
    congrArg Host.Outcome.next (s.calWrite_CTRL.trans (if_neg (by rw [h]; decide)))
  refine ⟨_, hexec, rfl, fun k => ?_⟩
  rw [hset]
  exact s.reg_setReg_self CAL_CTRL k

theorem calClrCnt_clears (s : State) : ∃ t, Machine.exec .calClrCnt s = .next t ∧ t.reg CAL_CNT0 = 0 ∧ t.reg CAL_CNT1 = 0
    ∧ t.reg CAL_RSTALL = 0 ∧ s.onlyRegs t [CAL_CNT0, CAL_CNT1, CAL_RSTALL] := by
  refine ⟨(((s.setReg CAL_CLR (s.reg CAL_CLR)).setReg CAL_CNT0 0).setReg CAL_CNT1 0).setReg CAL_RSTALL 0,
    congrArg Host.Outcome.next (s.calWrite_CLR 1), ?_, ?_, State.reg_setReg_same _ _ _, rfl, fun k hk => ?_⟩
  · rw [State.reg_setReg_ne _ _ (by decide), State.reg_setReg_ne _ _ (by decide), State.reg_setReg_same]
  · rw [State.reg_setReg_ne _ _ (by decide), State.reg_setReg_same]
  · simp only [List.mem_cons, List.not_mem_nil, or_false, not_or] at hk
    obtain ⟨h0, h1, hr⟩ := hk
    rw [State.reg_setReg_ne _ _ hr, State.reg_setReg_ne _ _ h1, State.reg_setReg_ne _ _ h0, State.reg_setReg_self]

theorem calClrBmax_clears (s : State) : ∃ t, Machine.exec .calClrBmax s = .next t ∧ t.reg CAL_BMAX = 0 ∧ s.onlyRegs t [CAL_BMAX] := by
  refine ⟨(s.setReg CAL_CLR (s.reg CAL_CLR)).setReg CAL_BMAX 0, congrArg Host.Outcome.next (s.calWrite_CLR 2),
    State.reg_setReg_same _ _ _, rfl, fun k hk => ?_⟩
  rw [State.reg_setReg_ne _ _ (by simpa using hk), State.reg_setReg_self]

end Sys2Proof.Machine

open Sys2Proof.Machine

/-- Settles O27: the ports, the walk, the release and the registers of the calendar, each by its lemma. -/
theorem calendarFlow : Obligations.CalendarFlow := by
  refine ⟨fun p w s => ⟨fun h => policyPost_accepted h, fun st h => policyPost_refused h⟩, policyAbort_sends,
    fun s => ⟨fun h => ?_, fun x hx st hst => abortArrival_answers hx hst⟩, fun s => ⟨fun w hw => ⟨fun hfires hlater => ?_, fun h => ?_⟩,
      fun hnone => ?_⟩, fun s => ⟨fun h => ?_, fun a ha => ?_⟩, fun s => ⟨calendarDisable_cancels, calendarDisable_again⟩,
    fun s => ⟨calClrCnt_clears s, calClrBmax_clears s⟩⟩
  · change execAbortArrival s = _
    rw [execAbortArrival, h]
  · rw [exec_bucketWalk hw, hfires, hlater]
    rfl
  · rw [exec_bucketWalk hw]
    rcases h with h | h <;> rw [h] <;> simp
  · change execBucketWalk s = _
    rw [execBucketWalk, hnone]
  · change execActionRelease s = _
    rw [execActionRelease, earliest_eq_none.mpr (List.filter_eq_nil_iff.mpr fun a ha => by simp [h a ha])]
  · obtain ⟨hmem, hdue⟩ := List.mem_filter.mp (mem_of_earliest ha)
    refine ⟨hmem, hdue, fun x hx b hb hb' => earliest_least ha (fun c hc => ?_) b (List.mem_filter.mpr ⟨hb, hb'⟩),
      actionRelease_releases ha, actionRelease_waits ha⟩
    obtain ⟨hc, hcdue⟩ := List.mem_filter.mp hc
    exact hx c hc hcdue

end

section
/-! PROOFS. A released action fires (R182 to R189, R193, R197, R294, R295). -/

namespace Sys2Proof.Machine

/-! ### A put into a queue (R294, R295) -/

/-- Threads bound to the queue are told; nothing else changes. -/
theorem State.syncQueue_frame (s : State) (q : Nat) :
    s.RegsDiffer (s.syncQueue q) ∧ ∀ k, 0x40090000 ≤ k → (s.syncQueue q).reg k = s.reg k := by
  unfold State.syncQueue
  split
  · exact ⟨.refl s, fun _ _ => rfl⟩
  · refine List.foldlRecOn _ _ (motive := fun t : State => s.RegsDiffer t ∧ ∀ k, 0x40090000 ≤ k → t.reg k = s.reg k)
      ⟨.refl s, fun _ _ => rfl⟩ fun t ⟨hdiff, hreg⟩ i _ => ⟨hdiff.trans (.setPendWhere _ _ _ _), fun k hk => ?_⟩
    rw [State.reg_setPendWhere_ne _ _ _ _ fun n hn => by simp only [AEN_TSTAT]; omega, hreg k hk]

section
variable {s : State} {q : Nat} {e : List Byte}

/-- What a put answers (R241, R295). -/
theorem State.qput_result (s : State) (q : Nat) (e : List Byte) : (s.qput q e).2
    = if s.fld (QUE_QCFG q) QUE_QCFG_EN = 0 then 2 else if s.qDepth q ≤ s.qCount q then 1 else 0 := by
  unfold State.qput
  split
  · rfl
  · split <;> rfl

theorem State.qput_refused (h : s.fld (QUE_QCFG q) QUE_QCFG_EN = 0 ∨ s.qDepth q ≤ s.qCount q) : (s.qput q e).1 = s.qRefuse q := by
  unfold State.qput
  split
  · rfl
  · next hen => rw [if_pos (h.resolve_left hen)]

/-- The entry stands in the ring and is counted. -/
def State.qFilled (s : State) (q : Nat) (e : List Byte) : State :=
  ((s.wrBytes (s.qAddr q (s.fld (QUE_QHEAD q) QUE_QHEAD_INDEX)) e).setFld (QUE_QHEAD q) QUE_QHEAD_INDEX
    ((s.fld (QUE_QHEAD q) QUE_QHEAD_INDEX + 1) % s.qDepth q)).setFld (QUE_QCNT q) QUE_QCNT_COUNT (s.qCount q + 1)

theorem State.qput_taken (hen : s.fld (QUE_QCFG q) QUE_QCFG_EN = 1) (hroom : s.qCount q < s.qDepth q) (hlen : e.length = 16) :
    (s.qput q e).1 = (s.qFilled q e).syncQueue q := by
  rw [State.qput, if_neg (by omega), if_neg (by omega)]
  dsimp only
  rw [List.take_of_length_le hlen.le, State.qFilled]

theorem State.qput_queued (hlog : s.fld (QUE_QCFG q) QUE_QCFG_LOG2 ≤ 16) (hlen : e.length = 16) :
    s.queued (s.qput q e).1 q e (s.qput q e).2 := by
  rw [State.qput_result]
  refine ⟨fun href => ?_, fun hen hroom => ?_⟩
  · rw [State.qput_refused href]
    refine ⟨?_, rfl, ?_, ?_, State.bit_raise _ _ (by decide)⟩
    · split
      · rfl
      · next hen => rw [if_pos (href.resolve_left hen)]
    · rw [State.qCount, State.fld, State.qRefuse, State.reg_raise_ne _ _ (by simp only [QUE_QCNT, QUE_EVT]; omega), State.count,
        State.reg_setFld_ne _ _ _ (by simp only [QUE_QCNT, QUE_QDROP]; omega)]
      rfl
    · rw [State.fld, State.qRefuse, State.reg_raise_ne _ _ (by simp only [QUE_QDROP, QUE_EVT]; omega), ← State.fld,
        State.fld_count _ _ _ _ (by decide)]
      rfl
  · have hdepth : s.qDepth q ≤ 2 ^ 16 := Nat.pow_le_pow_right (by decide) hlog
    obtain ⟨hdiff, hreg⟩ := (s.qFilled q e).syncQueue_frame q
    have hmem : ((s.qFilled q e).syncQueue q).mem = (s.wrBytes (s.qAddr q (s.fld (QUE_QHEAD q) QUE_QHEAD_INDEX)) e).mem := by
      rw [hdiff]
      rfl
    rw [State.qput_taken hen hroom hlen]
    refine ⟨?_, ?_, ?_, ?_, fun x hx => ?_⟩
    · rw [if_neg (by omega), if_neg (by omega)]
    · rw [State.qCount, State.fld, hreg _ (by simp only [QUE_QCNT]; omega), ← State.fld, State.qFilled,
        State.fld_setFld_same _ _ _ _ (by decide)]
      exact Nat.mod_eq_of_lt (by change _ < 2 ^ 17; omega)
    · rw [State.fld, hreg _ (by simp only [QUE_QHEAD]; omega), State.qFilled,
        State.reg_setFld_ne _ _ _ (by simp only [QUE_QHEAD, QUE_QCNT]; omega), ← State.fld, State.fld_setFld_same _ _ _ _ (by decide)]
      have hlt : (s.fld (QUE_QHEAD q) QUE_QHEAD_INDEX + 1) % s.qDepth q < s.qDepth q := Nat.mod_lt _ (by omega)
      exact Nat.mod_eq_of_lt (by change _ < 2 ^ 16; omega)
    · rw [State.rdBytes_congr hmem, ← hlen, State.rdBytes_wrBytes]
    · rw [State.rd8_congr hmem, State.rd8_wrBytes_out _ _ _ _ (by rwa [hlen])]

theorem State.queued_congr {t v : State} {res : Nat} (h : s.queued v q e res) (hmem : t.mem = v.mem)
    (hreg : ∀ k, 0x40160000 ≤ k → t.reg k = v.reg k) : s.queued t q e res := by
  have hcnt := hreg (QUE_QCNT q) (by simp only [QUE_QCNT]; omega)
  have hdrop := hreg (QUE_QDROP q) (by simp only [QUE_QDROP]; omega)
  have hhead := hreg (QUE_QHEAD q) (by simp only [QUE_QHEAD]; omega)
  have hevt := hreg QUE_EVT (by decide)
  unfold State.queued State.qCount State.fld State.bit at h ⊢
  simpa only [hcnt, hdrop, hhead, hevt, hmem, State.rdBytes_congr hmem, State.rd8_congr hmem] using h

end

/-- `t` has memory and the registers of the queues as they are in `s`. -/
structure State.QueueKept (s t : State) : Prop where
  mem : t.mem = s.mem
  reg : ∀ k, 0x40160000 ≤ k → t.reg k = s.reg k

namespace State.QueueKept

variable {s t u : State}

theorem refl (s : State) : s.QueueKept s := ⟨rfl, fun _ _ => rfl⟩

theorem setReg {k : Nat} {v : Word} (h : s.QueueKept t) (hk : k < 0x40160000) : s.QueueKept (t.setReg k v) :=
  ⟨h.mem, fun _ hj => (State.reg_setReg_ne _ _ (by omega)).trans (h.reg _ hj)⟩

theorem raise {evt bit : Nat} (h : s.QueueKept t) (hk : evt < 0x40160000) : s.QueueKept (t.raise evt bit) :=
  ⟨h.mem, fun _ hj => (State.reg_raise_ne _ _ (by omega)).trans (h.reg _ hj)⟩

theorem ite {c : Prop} [Decidable c] (ht : s.QueueKept t) (hu : s.QueueKept u) : s.QueueKept (if c then t else u) := by
  split
  · exact ht
  · exact hu

theorem countStatus {st : Nat} (h : s.QueueKept t) : s.QueueKept (t.countStatus st) :=
  have hcount : ∀ f bit, s.QueueKept ((t.count CAL_CNT0 f 1).raise CAL_EVT bit) := fun _ _ => (h.setReg (by decide)).raise (by decide)
  .ite (hcount _ _) (.ite (hcount _ _) (.ite (hcount _ _) h))

/-- A retirement with no record leaves memory and the queues alone. -/
theorem retire {a : Action} (ha : a.rep = false) (st : Nat) (start : Word) (dur : Nat) : s.QueueKept (s.retire a st start dur) := by
  have hfreed : s.QueueKept (s.freed a st) := ⟨rfl, fun _ _ => rfl⟩
  have hcounted : s.QueueKept (s.counted a st) := countStatus (hfreed.setReg (by decide))
  have hreported : s.QueueKept (s.reported a st) := .ite (hcounted.raise (by decide)) hcounted
  rw [State.retire_eq, State.putRecord, ha, Bool.false_and, if_neg Bool.false_ne_true, State.posterTold]
  split
  · next hposter => exact hreported.setReg (by simp only [AEN_TSTAT]; omega)
  · exact hreported

end State.QueueKept

/-! ### The released action -/

section
variable {s : State} {i : Nat} {a : Action}

theorem State.mem_of_staged (h : s.staged i = some a) : a ∈ s.stage := List.mem_of_find?_eq_some h

theorem exec_actionFire (h : s.staged i = some a) :
    Machine.exec (.actionFire i) s = .next (if s.isDue a then s.fireAction a else s) := by
  change execActionFire i s = _
  rw [execActionFire, h]

theorem exec_deferredStart (h : s.staged i = some a) : Machine.exec (.deferredStart i) s
    = .next (if a.place == .held && s.fires && !s.channelBusy a (s.now + a.lead) && !s.heldBefore a then s.deferredStart a else s) := by
  change execDeferredStart i s = _
  rw [execDeferredStart, h]

/-- The channel of a start is not free (R188). -/
def State.blocked (s : State) (a : Action) : Bool := a.isPulse && (s.channelBusy a (s.now + a.lead) || s.heldBefore a)

/-- A late action lies beyond its limit (R185). -/
def State.overLate (s : State) (a : Action) : Bool :=
  a.late && a.limit != 255 && decide (1024 * a.limit < (wDiff (s.compared a) a.w0).toNat)

theorem State.fireAction_eq (s : State) (a : Action) : s.fireAction a
    = if s.blocked a then (s.updStage a.idx fun b => { b with place := .held }).raise OUT_EVT OUT_EVT_DEFER
      else if s.overLate a then s.dropAction a else if a.isPulse then s.startPulse a a.late else s.fireSingle a a.late := by
  rw [State.overLate, Bool.and_assoc]
  rfl

/-- A start that is held back (R188). -/
theorem actionFire_held (h : s.staged i = some a) (hdue : s.isDue a = true) (hblock : s.blocked a = true) :
    ∃ t, Machine.exec (.actionFire i) s = .next t ∧ t.bit OUT_EVT OUT_EVT_DEFER = true
      ∧ t.stage = (s.stage.map fun b => if b.idx = a.idx then { b with place := .held } else b)
      ∧ s.onlySends { t with stage := s.stage } [OUT_EVT] [evtItem OUT_EVT OUT_EVT_DEFER] := by
  refine ⟨(s.updStage a.idx fun b => { b with place := .held }).raise OUT_EVT OUT_EVT_DEFER, ?_, State.bit_raise _ _ (by decide), rfl, ?_⟩
  · rw [exec_actionFire h, if_pos hdue, State.fireAction_eq, if_pos hblock]
  · exact State.onlySends_raise (u := s) _ (by decide) (.refl s) fun _ _ => rfl

/-! ### Drops (R185) -/

/-- A drop retires, behind what the converter is told. -/
theorem State.dropAction_spec (s : State) (a : Action) :
    (∀ b ∈ (s.dropAction a).calq ++ (s.dropAction a).stage, b.idx ≠ a.idx)
      ∧ (tabGet (fun _ => ({} : CalEnt)) (s.dropAction a).calEnt a.idx).st = 3
      ∧ (s.dropAction a).fld CAL_CNT0 CAL_CNT0_DROP = min (2 ^ CAL_CNT0_DROP.w - 1) (s.fld CAL_CNT0 CAL_CNT0_DROP + 1)
      ∧ (s.dropAction a).bit CAL_EVT CAL_EVT_DROP = true ∧ ∀ k, ¬ bookReg k → (s.dropAction a).reg k = s.reg k := by
  have hreg : ∀ k, (if a.kind = kSAMPLE then s.launch .angle .converter (.sampleMiss a.chan a.w0 s.now a.w2 a.w3) else s).reg k
      = s.reg k := fun k => by split <;> rfl
  unfold State.dropAction
  generalize (if a.kind = kSAMPLE then s.launch .angle .converter (.sampleMiss a.chan a.w0 s.now a.w2 a.w3) else s) = u at hreg
  have hret := u.retire_retired a stDROPPED 0 0
  obtain ⟨hcount, hevt⟩ := u.retire_dropped a 0 0
  rw [State.fld, State.fld, hreg, ← State.fld, ← State.fld] at hcount
  exact ⟨hret.gone, hret.status, hcount, hevt, fun k hk => (hret.reg k hk).trans (hreg k)⟩

theorem actionFire_dropped (h : s.staged i = some a) (hdue : s.isDue a = true) (hblock : s.blocked a = false)
    (hlate : s.overLate a = true) :
    ∃ t, Machine.exec (.actionFire i) s = .next t ∧ (∀ b ∈ t.calq ++ t.stage, b.idx ≠ a.idx)
      ∧ (tabGet (fun _ => ({} : CalEnt)) t.calEnt a.idx).st = 3
      ∧ t.fld CAL_CNT0 CAL_CNT0_DROP = min (2 ^ CAL_CNT0_DROP.w - 1) (s.fld CAL_CNT0 CAL_CNT0_DROP + 1) ∧ t.bit CAL_EVT CAL_EVT_DROP = true
      ∧ t.reg OUT_ACTI = s.reg OUT_ACTI ∧ t.reg OUT_ACTG = s.reg OUT_ACTG ∧ t.reg OUT_LVLA = s.reg OUT_LVLA := by
  obtain ⟨hgone, hst, hcount, hevt, hreg⟩ := s.dropAction_spec a
  refine ⟨s.dropAction a, ?_, hgone, hst, hcount, hevt, hreg _ (by decide), hreg _ (by decide), hreg _ (by decide)⟩
  rw [exec_actionFire h, if_pos hdue, State.fireAction_eq, hblock, if_neg Bool.false_ne_true, if_pos hlate]

/-! ### Starts of pulses (R186, R189) -/

/-- The pulse as it stands once started. -/
def State.started (s : State) (a : Action) (late : Bool) (b : Action) : Action :=
  { b with
    place := .active, late := late, startW := s.compared a, ts := s.now + a.lead
    tmin := s.now + a.lead + a.minDur * a.unit, tmax := s.now + a.lead + a.maxDur * a.unit
    ta := if wReached (s.compared a) a.endAngle then some (s.now + a.lead) else none }

theorem State.startPulse_eq (s : State) (a : Action) (late : Bool) : s.startPulse a late
    = if a.kind = kINJ then
        (((s.updStage a.idx (s.started a late)).launch .angle .drive
          (.injStart a.chan a.prof (s.now + a.lead) (s.now + a.lead + a.minDur * a.unit))).setBit OUT_ACTI a.chan true).fuelled
      else if a.kind = kIGN then (s.updStage a.idx (s.started a late)).setBit OUT_ACTG a.chan true
      else (s.updStage a.idx (s.started a late)).setPin a.chan (!s.aoutIdle a.chan) := rfl

theorem State.startPulse_frame (s : State) (a : Action) (late : Bool) :
    (s.updStage a.idx (s.started a late)).EdgeFrame (s.startPulse a late) := by
  rw [State.startPulse_eq]
  exact .ite (State.EdgeFrame.launch (.refl _)).setReg.fuelled (.ite (.setReg (.refl _)) (.setPin (.refl _)))

/-- The pulse stands in its stage. -/
theorem State.mem_startPulse_stage {b : Action} (hb : b ∈ s.stage) (hidx : b.idx = a.idx) (late : Bool) :
    s.started a late b ∈ (s.startPulse a late).stage := by
  rw [(s.startPulse_frame a late).eq]
  exact List.mem_map.mpr ⟨b, hb, if_pos hidx⟩

theorem State.reg_fuelled {k : Nat} (hk : 0x40070000 ≤ k) : s.fuelled.reg k = s.reg k :=
  (State.ObsFrame.fuelled (.refl s)).reg k (.inr hk)

/-- An injection start is dispatched with its slot and its t_min. -/
theorem State.startPulse_inj (hkind : a.kind = 0) (hchan : a.chan < 32) (late : Bool) :
    (s.startPulse a late).bit OUT_ACTI a.chan = true
      ∧ ⟨.angle, .drive, .injStart a.chan a.prof (s.now + a.lead) (s.now + a.lead + a.minDur * a.unit)⟩ ∈ (s.startPulse a late).inflight := by
  rw [State.startPulse_eq, if_pos hkind]
  refine ⟨?_, ?_⟩
  · rw [State.bit, State.reg_fuelled (by decide), ← State.bit, State.bit_setBit_same _ _ _ _ hchan]
  · exact (State.EdgeFrame.fuelled (.refl _)).sent (List.mem_append_right _ (List.mem_singleton_self _))

theorem State.startPulse_ign (hkind : a.kind = 1) (hchan : a.chan < 32) (late : Bool) :
    (s.startPulse a late).bit OUT_ACTG a.chan = true := by
  rw [State.startPulse_eq, if_neg (by rw [hkind]; decide), if_pos hkind, State.bit_setBit_same _ _ _ _ hchan]

theorem State.startPulse_aout (hkind : a.kind = 2) (hchan : a.chan < 32) (late : Bool) :
    (s.startPulse a late).bit OUT_LVLA a.chan = !s.aoutIdle a.chan := by
  rw [State.startPulse_eq, if_neg (by rw [hkind]; decide), if_neg (by rw [hkind]; decide), State.bit_setPin _ _ hchan]

/-- Every legal channel has a bit. -/
theorem Action.chan_lt (h : a.chanOk = true) (hkind : a.kind ≠ 4) : a.chan < 32 := by
  unfold Action.chanOk at h
  split at h <;> simp only [decide_eq_true_iff, Bool.false_eq_true] at h <;> omega

theorem actionFire_starts (h : s.staged i = some a) (hok : a.chanOk = true) (hdue : s.isDue a = true) (hblock : s.blocked a = false)
    (hlate : s.overLate a = false) (hpulse : a.isPulse = true) :
    ∃ t, Machine.exec (.actionFire i) s = .next t
      ∧ (∃ b ∈ t.stage, b.idx = a.idx ∧ b.place = .active ∧ b.late = a.late ∧ b.startW = s.compared a ∧ b.ts = s.now + a.lead
          ∧ b.tmin = s.now + a.lead + a.minDur * 4 ^ (a.scale + 1) ∧ b.tmax = s.now + a.lead + a.maxDur * 4 ^ (a.scale + 1)
          ∧ b.ta = (if wReached (s.compared a) a.endAngle then some (s.now + a.lead) else none))
      ∧ (a.kind = 0 → t.bit OUT_ACTI a.chan = true
          ∧ ⟨.angle, .drive, .injStart a.chan a.prof (s.now + a.lead) (s.now + a.lead + a.minDur * 4 ^ (a.scale + 1))⟩ ∈ t.inflight)
      ∧ (a.kind = 1 → t.bit OUT_ACTG a.chan = true) ∧ (a.kind = 2 → t.bit OUT_LVLA a.chan = !s.aoutIdle a.chan)
      ∧ t.mem = s.mem ∧ t.calq = s.calq := by
  have hchan : a.kind ≠ 4 → a.chan < 32 := Action.chan_lt hok
  refine ⟨s.startPulse a a.late, ?_,
    ⟨_, State.mem_startPulse_stage (State.mem_of_staged h) rfl a.late, rfl, rfl, rfl, rfl, rfl, rfl, rfl, rfl⟩,
    fun hk => State.startPulse_inj hk (hchan (by omega)) _, fun hk => State.startPulse_ign hk (hchan (by omega)) _,
    fun hk => State.startPulse_aout hk (hchan (by omega)) _, ?_, ?_⟩
  · rw [exec_actionFire h, if_pos hdue, State.fireAction_eq, hblock, hlate, if_neg Bool.false_ne_true, if_neg Bool.false_ne_true,
      if_pos hpulse]
  · exact (s.startPulse_frame a a.late).mem
  · rw [(s.startPulse_frame a a.late).eq]
    rfl

/-! ### Single events (R193, R197) -/

/-- What an event other than a message does at its edge. -/
def State.singleEdge (s : State) (a : Action) (late : Bool) : State :=
  if a.kind = kAEDGE then s.setPin a.chan (a.level != s.aoutIdle a.chan)
  else if a.kind = kSAMPLE then s.launch .angle .converter (.sample a.chan (s.now + 16) late a.w2 a.w3)
  else s.pulseLine .angle a.chan

theorem State.fireSingle_eq (hkind : a.kind ≠ 5) (late : Bool) :
    s.fireSingle a late = (s.singleEdge a late).retire a (if late then 2 else 1) (s.compared a) 0 := by
  unfold State.fireSingle State.singleEdge
  dsimp only
  by_cases hedge : a.kind = kAEDGE
  · rw [if_pos hedge, if_pos hedge]
  · rw [if_neg hedge, if_neg hedge]
    by_cases hsample : a.kind = kSAMPLE
    · rw [if_pos hsample, if_pos hsample]
    · rw [if_neg hsample, if_neg hsample, if_neg hkind]

theorem State.fireAction_single (hpulse : a.isPulse = false) (hlate : s.overLate a = false) :
    s.fireAction a = s.fireSingle a a.late := by
  rw [State.fireAction_eq, State.blocked, hpulse, hlate, Bool.false_and, if_neg Bool.false_ne_true, if_neg Bool.false_ne_true,
    if_neg Bool.false_ne_true]

theorem actionFire_single (h : s.staged i = some a) (hok : a.chanOk = true) (hdue : s.isDue a = true)
    (hlate : s.overLate a = false) (hpulse : a.isPulse = false) (hkind : a.kind ≠ 5) :
    ∃ t, Machine.exec (.actionFire i) s = .next t
      ∧ (∀ b ∈ t.calq ++ t.stage, b.idx ≠ a.idx)
      ∧ (tabGet (fun _ => ({} : CalEnt)) t.calEnt a.idx).st = (if a.late then 2 else 1)
      ∧ (a.kind = 3 → t.bit OUT_LVLA a.chan = (a.level != s.aoutIdle a.chan))
      ∧ (a.kind = 4 → ⟨.angle, .converter, .sample a.chan (s.now + 16) a.late a.w2 a.w3⟩ ∈ t.inflight)
      ∧ (a.kind = 6 → ∀ d ∈ [Island.angle, .fabric, .converter, .timer, .drive, .link], ⟨.angle, d, .trigger a.chan⟩ ∈ t.inflight) := by
  have hret := (s.singleEdge a a.late).retire_retired a (if a.late then 2 else 1) (s.compared a) 0
  refine ⟨(s.singleEdge a a.late).retire a (if a.late then 2 else 1) (s.compared a) 0, ?_, hret.gone, hret.status, fun hk => ?_,
    fun hk => hret.sent ?_, fun hk d hd => hret.sent ?_⟩
  · rw [exec_actionFire h, if_pos hdue, State.fireAction_single hpulse hlate, State.fireSingle_eq hkind]
  · rw [hret.bit (by decide), State.singleEdge, if_pos hk, State.bit_setPin _ _ (Action.chan_lt hok (by omega))]
  · rw [State.singleEdge, if_neg (by rw [hk]; decide), if_pos hk]
    exact List.mem_append_right _ (List.mem_singleton_self _)
  · rw [State.singleEdge, if_neg (by rw [hk]; decide), if_neg (by rw [hk]; decide), State.pulseLine]
    simp only [State.launch, List.mem_append, List.mem_singleton]
    simp only [List.mem_cons, List.not_mem_nil, or_false] at hd
    rcases hd with rfl | rfl | rfl | rfl | rfl | rfl <;> simp

/-- A message goes into its queue; a message that the queue refuses is dropped (R197). -/
theorem actionFire_message (h : s.staged i = some a) (hdue : s.isDue a = true) (hlate : s.overLate a = false) (hkind : a.kind = 5) :
    ∃ t, Machine.exec (.actionFire i) s = .next t
      ∧ (tabGet (fun _ => ({} : CalEnt)) t.calEnt a.idx).st
          = (if (s.qput a.chan (wordsToBytes [s.angW, a.w1, a.w2, a.w3])).2 = 0 then if a.late then 2 else 1 else 3)
      ∧ (a.rep = false → s.fld (QUE_QCFG a.chan) QUE_QCFG_LOG2 ≤ 16 →
          s.queued t a.chan (wordsToBytes [s.angW, a.w1, a.w2, a.w3]) (s.qput a.chan (wordsToBytes [s.angW, a.w1, a.w2, a.w3])).2) := by
  have hpulse : a.isPulse = false := by simp [Action.isPulse, hkind, kINJ, kIGN, kAPULSE]
  have hfire : ∃ start, s.fireAction a = (s.qput a.chan (wordsToBytes [s.angW, a.w1, a.w2, a.w3])).1.retire a
      (if (s.qput a.chan (wordsToBytes [s.angW, a.w1, a.w2, a.w3])).2 = 0 then if a.late then 2 else 1 else 3) start 0 := by
    rw [State.fireAction_single hpulse hlate, State.fireSingle, if_neg (by rw [hkind]; decide), if_neg (by rw [hkind]; decide),
      if_pos hkind]
    dsimp only
    by_cases hput : (s.qput a.chan (wordsToBytes [s.angW, a.w1, a.w2, a.w3])).2 = 0
    · rw [if_pos hput, if_pos hput]
      exact ⟨_, rfl⟩
    · rw [if_neg hput, if_neg hput]
      exact ⟨_, rfl⟩
  obtain ⟨start, hfire⟩ := hfire
  refine ⟨_, (exec_actionFire h).trans (congrArg Host.Outcome.next ((if_pos hdue).trans hfire)),
    (State.retire_retired _ a _ start 0).status, fun hrep hlog => ?_⟩
  have hkept := State.QueueKept.retire (s := (s.qput a.chan (wordsToBytes [s.angW, a.w1, a.w2, a.w3])).1) hrep
    (if (s.qput a.chan (wordsToBytes [s.angW, a.w1, a.w2, a.w3])).2 = 0 then if a.late then 2 else 1 else 3) start 0
  exact State.queued_congr (State.qput_queued hlog rfl) hkept.mem hkept.reg

/-! ### Deferred starts (R188) -/

/-- The released action with the event that its start was held back. -/
def State.deferNoted (s : State) (a : Action) : State := s.updStage a.idx fun b => { b with defer := true }

theorem State.deferredStart_eq (s : State) (a : Action) : s.deferredStart a
    = if beyond a.limit (lateness (s.compared a) a.w0) then (s.deferNoted a).dropAction { a with late := true, defer := true }
      else (s.deferNoted a).startPulse { a with defer := true } true := rfl

theorem deferredStart_proceeds (h : s.staged i = some a) (hheld : a.place = .held) (hfires : s.fires = true)
    (hbusy : s.channelBusy a (s.now + a.lead) = false) (hfirst : s.heldBefore a = false)
    (hlimit : a.limit = 255 ∨ (wDiff (s.compared a) a.w0).toNat ≤ 1024 * a.limit) :
    ∃ t, Machine.exec (.deferredStart i) s = .next t
      ∧ ∃ b ∈ t.stage, b.idx = a.idx ∧ b.place = .active ∧ b.late = true ∧ b.defer = true ∧ b.ts = s.now + a.lead := by
  have hwithin : beyond a.limit (lateness (s.compared a) a.w0) = false := by
    rw [Bool.eq_false_iff, ne_eq, beyond_iff]
    rintro ⟨hne, hlt⟩
    exact absurd hlt (Nat.not_lt.mpr (hlimit.resolve_left hne))
  have hnoted : ({ a with defer := true } : Action) ∈ (s.deferNoted a).stage := List.mem_map.mpr ⟨a, State.mem_of_staged h, if_pos rfl⟩
  refine ⟨(s.deferNoted a).startPulse { a with defer := true } true, ?_,
    ⟨_, State.mem_startPulse_stage hnoted rfl true, rfl, rfl, rfl, rfl, rfl⟩⟩
  rw [exec_deferredStart h, hheld, hfires, hbusy, hfirst, State.deferredStart_eq, hwithin]
  rfl

theorem deferredStart_dropped (h : s.staged i = some a) (hheld : a.place = .held) (hfires : s.fires = true)
    (hbusy : s.channelBusy a (s.now + a.lead) = false) (hfirst : s.heldBefore a = false) (hlimit : a.limit ≠ 255)
    (hlate : 1024 * a.limit < (wDiff (s.compared a) a.w0).toNat) :
    ∃ t, Machine.exec (.deferredStart i) s = .next t ∧ (∀ b ∈ t.calq ++ t.stage, b.idx ≠ a.idx)
      ∧ (tabGet (fun _ => ({} : CalEnt)) t.calEnt a.idx).st = 3 ∧ t.bit CAL_EVT CAL_EVT_DEFER = true := by
  obtain ⟨hgone, hst, -⟩ := (s.deferNoted a).dropAction_spec { a with late := true, defer := true }
  refine ⟨(s.deferNoted a).dropAction { a with late := true, defer := true }, ?_, hgone, hst, State.retire_deferred _ rfl _ _ _⟩
  rw [exec_deferredStart h, hheld, hfires, hbusy, hfirst, State.deferredStart_eq,
    (beyond_iff a.limit (lateness (s.compared a) a.w0)).mpr ⟨hlimit, hlate⟩]
  rfl

end

end Sys2Proof.Machine
end

section
/-! PROOFS. The ends of pulses, soft shutdowns, CYC compares, and writes that clear enables (R33, R186, R187, R190, R191, R194, R196,
R200). -/

namespace Sys2Proof.Machine

/-! ### End edges -/

section
variable {s : State} {a : Action} {te : Nat} {fast : Bool}

theorem State.outOf_updOut (s : State) {c : Nat} (f : OutCh → OutCh) (hc : c < 52) : (s.updOut c f).outOf c = f (s.outOf c) := by
  simp only [State.outOf, State.updOut, vat_vupd_same _ _ hc]

theorem State.outOf_setBit (s : State) (k i : Nat) (b : Bool) (c : Nat) : (s.setBit k i b).outOf c = s.outOf c := rfl

theorem State.outOf_raise (s : State) (evt i c : Nat) : (s.raise evt i).outOf c = s.outOf c := rfl

theorem State.bit_updOut (s : State) (c : Nat) (f : OutCh → OutCh) (k i : Nat) : (s.updOut c f).bit k i = s.bit k i := by
  rw [State.bit, State.reg_updOut, State.bit]

theorem State.aoutIdle_congr {t : State} {n : Nat} (h : t.reg (OUT_AOUT n) = s.reg (OUT_AOUT n)) : t.aoutIdle n = s.aoutIdle n := by
  rw [State.aoutIdle, State.fld, h, State.aoutIdle, State.fld]

/-- R186: the end command of an injection. -/
theorem State.endEdge_inj (hkind : a.kind = 0) (hchan : a.chan < 32) :
    ⟨.angle, .drive, .injEnd a.chan te fast⟩ ∈ (s.endEdge a te fast).inflight
      ∧ (s.endEdge a te fast).bit OUT_ACTI a.chan = false ∧ ((s.endEdge a te fast).outOf a.chan).lastEnd = some te := by
  rw [State.endEdge, if_pos hkind]
  refine ⟨?_, ?_, ?_⟩
  · exact (State.EdgeFrame.updOut (.setReg (.refl _))).sent (List.mem_append_right _ (List.mem_singleton_self _))
  · rw [State.bit_updOut, State.bit_setBit_same _ _ _ _ hchan]
  · rw [State.outOf_updOut _ _ (by omega)]

theorem State.endEdge_ign (hkind : a.kind = 1) (hchan : a.chan < 32) :
    (s.endEdge a te fast).bit OUT_ACTG a.chan = false ∧ ((s.endEdge a te fast).outOf (12 + a.chan)).lastEnd = some te
      ∧ ((s.endEdge a te fast).outOf (12 + a.chan)).soft = (s.outOf (12 + a.chan)).soft := by
  rw [State.endEdge, if_neg (by rw [hkind]; decide), if_pos hkind, State.bit_updOut, State.bit_setBit_same _ _ _ _ hchan,
    State.outOf_updOut _ _ (by omega)]
  exact ⟨rfl, rfl, rfl⟩

theorem State.endEdge_aout (hkind : a.kind = 2) (hchan : a.chan < 16) :
    (s.endEdge a te fast).bit OUT_LVLA a.chan = s.aoutIdle a.chan
      ∧ ((s.endEdge a te fast).outOf (36 + a.chan)).lastEnd = some te := by
  rw [State.endEdge, if_neg (by rw [hkind]; decide), if_neg (by rw [hkind]; decide), State.bit_updOut, State.pinIdle,
    State.bit_setPin _ _ (by omega), State.outOf_updOut _ _ (by omega)]
  exact ⟨rfl, rfl⟩

theorem State.softStart_spec (s : State) {n : Nat} (hn : n < 32) :
    (s.softStart n).bit OUT_ACTG n = false ∧ ((s.softStart n).outOf (12 + n)).soft = some s.now
      ∧ (s.softStart n).bit OUT_SOFTG n = true ∧ (s.softStart n).bit OUT_EVT OUT_EVT_SOFT = true := by
  refine ⟨?_, ?_, ?_, State.bit_raise _ _ (by decide)⟩
  · rw [State.bit, State.softStart, State.reg_raise_ne _ _ (by decide), State.reg_setBit_ne _ _ _ (by decide), ← State.bit,
      State.bit_setBit_same _ _ _ _ hn]
  · rw [State.softStart, State.outOf_raise, State.outOf_setBit, State.outOf_setBit, State.outOf_updOut _ _ (by omega)]
  · rw [State.bit, State.softStart, State.reg_raise_ne _ _ (by decide), ← State.bit, State.bit_setBit_same _ _ _ _ hn]

/-! ### Natural ends (R186, R187) -/

theorem State.outOf_clipTold (s : State) (a : Action) (c : Nat) : (s.clipTold a).outOf c = s.outOf c := by
  unfold State.clipTold
  split <;> rfl

theorem State.now_clipTold (s : State) (a : Action) : (s.clipTold a).now = s.now := by rw [(State.EdgeFrame.clipTold (.refl s)).eq]

theorem State.not_suppressed (h : a.kind ≠ 1) : ¬ s.suppressed a := fun hs => h hs.1

theorem Action.sparkLate_of_kind (h : a.kind ≠ 1) : a.sparkLate = false := by
  simp [Action.sparkLate, kIGN, h]

/-- The natural end of a pulse that is no ignition: its edge, and its retirement. -/
theorem State.naturalEnd_of_kind (h : a.kind ≠ 1) : s.naturalEnd a = ((s.clipTold a).endEdge a a.tEnd false).retire a.clipped
    (if a.late then 2 else 1) a.startW (a.tEnd - a.ts) := by
  rw [State.naturalEnd_fires (State.not_suppressed h), Action.sparkLate_of_kind h, Bool.false_or]

theorem Action.chan_lt_16 (h : a.chanOk = true) (hkind : a.kind = 2) : a.chan < 16 := by
  rw [Action.chanOk, hkind] at h
  exact Nat.lt_succ_of_le (of_decide_eq_true h)

end

/-! ### The end of an injection (R33, R186) -/

section
variable {s : State} {i : Nat} {a : Action}

theorem exec_injEndDispatch_other (h : s.staged i = some a) (hkind : a.kind ≠ 0) : Machine.exec (.injEndDispatch i) s = .next s := by
  change execInjEndDispatch i s = _
  rw [execInjEndDispatch, h]
  exact if_pos hkind

theorem exec_injEndDispatch_active (h : s.staged i = some a) (hkind : a.kind = 0) (hact : a.place = .active) :
    Machine.exec (.injEndDispatch i) s = .next (if a.tEnd ≤ s.now + 64 then s.naturalEnd a else s) := by
  change execInjEndDispatch i s = _
  simp only [execInjEndDispatch, h, hkind, hact]
  rfl

theorem exec_injEndDispatch_ending (h : s.staged i = some a) (hkind : a.kind = 0) (hend : a.place = .ending) (hloc : a.endLocal = false) :
    Machine.exec (.injEndDispatch i) s
      = .next (if a.tmin ≤ s.now + 64 then (s.endEdge a a.tmin true).retire a a.endSt a.startW (a.tmin - a.ts) else s) := by
  change execInjEndDispatch i s = _
  simp only [execInjEndDispatch, h, hkind, hend, hloc]
  rfl

theorem exec_injEndDispatch_local (h : s.staged i = some a) (hkind : a.kind = 0) (hend : a.place = .ending) (hloc : a.endLocal = true) :
    Machine.exec (.injEndDispatch i) s = .next (if a.tmin ≤ s.now
      then (s.updOut a.chan fun c => { c with lastEnd := some a.tmin }).retire a a.endSt a.startW (a.tmin - a.ts) else s) := by
  change execInjEndDispatch i s = _
  simp only [execInjEndDispatch, h, hkind, hend, hloc]
  rfl

theorem injEndDispatch_ends (h : s.staged i = some a) (hok : a.chanOk = true) (hkind : a.kind = 0) (hact : a.place = .active)
    (ht : a.tEnd ≤ s.now + 64) :
    ∃ t, Machine.exec (.injEndDispatch i) s = .next t
      ∧ ⟨.angle, .drive, .injEnd a.chan a.tEnd false⟩ ∈ t.inflight ∧ t.bit OUT_ACTI a.chan = false
      ∧ (t.outOf a.chan).lastEnd = some a.tEnd ∧ (∀ b ∈ t.calq ++ t.stage, b.idx ≠ a.idx)
      ∧ (tabGet (fun _ => ({} : CalEnt)) t.calEnt a.idx).st = (if a.late then 2 else 1) := by
  obtain ⟨hsent, hbit, hend⟩ := State.endEdge_inj (s := s.clipTold a) (te := a.tEnd) (fast := false) hkind (Action.chan_lt hok (by omega))
  have hret := ((s.clipTold a).endEdge a a.tEnd false).retire_retired a.clipped (if a.late then 2 else 1) a.startW (a.tEnd - a.ts)
  refine ⟨_, (exec_injEndDispatch_active h hkind hact).trans
    (congrArg Host.Outcome.next ((if_pos ht).trans (State.naturalEnd_of_kind (by omega)))), hret.sent hsent, ?_, ?_, hret.gone,
    hret.status⟩
  · rw [hret.bit (by decide), hbit]
  · rw [hret.outOf, hend]

theorem injEndDispatch_endsEarly (h : s.staged i = some a) (hok : a.chanOk = true) (hkind : a.kind = 0) (hend : a.place = .ending)
    (hloc : a.endLocal = false) (ht : a.tmin ≤ s.now + 64) :
    ∃ t, Machine.exec (.injEndDispatch i) s = .next t ∧ ⟨.angle, .drive, .injEnd a.chan a.tmin true⟩ ∈ t.inflight
      ∧ (tabGet (fun _ => ({} : CalEnt)) t.calEnt a.idx).st = a.endSt := by
  obtain ⟨hsent, -⟩ := State.endEdge_inj (s := s) (te := a.tmin) (fast := true) hkind (Action.chan_lt hok (by omega))
  have hret := (s.endEdge a a.tmin true).retire_retired a a.endSt a.startW (a.tmin - a.ts)
  exact ⟨_, (exec_injEndDispatch_ending h hkind hend hloc).trans (congrArg Host.Outcome.next (if_pos ht)), hret.sent hsent, hret.status⟩

theorem injEndDispatch_endsLocally (h : s.staged i = some a) (hok : a.chanOk = true) (hkind : a.kind = 0) (hend : a.place = .ending)
    (hloc : a.endLocal = true) (ht : a.tmin ≤ s.now) :
    ∃ t, Machine.exec (.injEndDispatch i) s = .next t ∧ (t.outOf a.chan).lastEnd = some a.tmin
      ∧ (tabGet (fun _ => ({} : CalEnt)) t.calEnt a.idx).st = a.endSt := by
  have hchan : a.chan < 32 := Action.chan_lt hok (by omega)
  have hret := (s.updOut a.chan fun c => { c with lastEnd := some a.tmin }).retire_retired a a.endSt a.startW (a.tmin - a.ts)
  refine ⟨_, (exec_injEndDispatch_local h hkind hend hloc).trans (congrArg Host.Outcome.next (if_pos ht)), ?_, hret.status⟩
  rw [hret.outOf, State.outOf_updOut _ _ (by omega)]

/-! ### The end of a pulse at its pin (R186, R187, R191) -/

theorem exec_pulseEnd (h : s.staged i = some a) : Machine.exec (.pulseEnd i) s
    = .next (if a.kind != kINJ && a.place == .active && decide (a.tEnd ≤ s.now) then s.naturalEnd a else s) := by
  change execPulseEnd i s = _
  rw [execPulseEnd, h]

theorem exec_pulseEnd_due (h : s.staged i = some a) (hkind : a.kind ≠ 0) (hact : a.place = .active) (ht : a.tEnd ≤ s.now) :
    Machine.exec (.pulseEnd i) s = .next (s.naturalEnd a) := by
  rw [exec_pulseEnd h, if_pos]
  simp [kINJ, hkind, hact, ht]

theorem pulseEnd_sparks (h : s.staged i = some a) (hok : a.chanOk = true) (hkind : a.kind = 1) (hact : a.place = .active)
    (ht : a.tEnd ≤ s.now) (hfires : ¬ s.suppressed a) :
    ∃ t, Machine.exec (.pulseEnd i) s = .next t ∧ t.bit OUT_ACTG a.chan = false ∧ (t.outOf (12 + a.chan)).lastEnd = some a.tEnd
      ∧ (t.outOf (12 + a.chan)).soft = (s.outOf (12 + a.chan)).soft := by
  obtain ⟨hbit, hend, hsoft⟩ := State.endEdge_ign (s := s.clipTold a) (te := a.tEnd) (fast := false) hkind (Action.chan_lt hok (by omega))
  have hret := State.retire_retired ((s.clipTold a).endEdge a a.tEnd false) a.clipped
    (if a.sparkLate || a.late then stLATE else stDONE) a.startW (a.tEnd - a.ts)
  refine ⟨_, (exec_pulseEnd_due h (by omega) hact ht).trans (congrArg Host.Outcome.next (State.naturalEnd_fires hfires)), ?_, ?_, ?_⟩
  · rw [hret.bit (by decide), hbit]
  · rw [hret.outOf, hend]
  · rw [hret.outOf, hsoft, State.outOf_clipTold]

theorem pulseEnd_suppresses (h : s.staged i = some a) (hok : a.chanOk = true) (hkind : a.kind = 1) (hact : a.place = .active)
    (ht : a.tEnd ≤ s.now) (hsup : s.suppressed a) :
    ∃ t, Machine.exec (.pulseEnd i) s = .next t ∧ t.bit OUT_ACTG a.chan = false ∧ (t.outOf (12 + a.chan)).soft = some s.now
      ∧ t.bit OUT_SOFTG a.chan = true ∧ t.bit OUT_EVT OUT_EVT_SOFT = true
      ∧ (tabGet (fun _ => ({} : CalEnt)) t.calEnt a.idx).st = 9 := by
  obtain ⟨hact', hsoft, hshown, hevt⟩ := (s.clipTold a).softStart_spec (Action.chan_lt hok (by omega))
  have hret := State.retire_retired ((s.clipTold a).softStart a.chan) a.clipped stSUPPRESSED a.startW (a.tEnd - a.ts)
  refine ⟨_, (exec_pulseEnd_due h (by omega) hact ht).trans (congrArg Host.Outcome.next (State.naturalEnd_suppressed hsup)), ?_, ?_, ?_, ?_,
    hret.status⟩
  · rw [hret.bit (by decide), hact']
  · rw [hret.outOf, hsoft, State.now_clipTold]
  · rw [hret.bit (by decide), hshown]
  · rw [hret.bit (by decide), hevt]

theorem pulseEnd_rests (h : s.staged i = some a) (hok : a.chanOk = true) (hkind : a.kind = 2) (hact : a.place = .active)
    (ht : a.tEnd ≤ s.now) :
    ∃ t, Machine.exec (.pulseEnd i) s = .next t ∧ t.bit OUT_LVLA a.chan = s.aoutIdle a.chan
      ∧ (t.outOf (36 + a.chan)).lastEnd = some a.tEnd
      ∧ (tabGet (fun _ => ({} : CalEnt)) t.calEnt a.idx).st = (if a.late then 2 else 1) := by
  obtain ⟨hlevel, hend⟩ := State.endEdge_aout (s := s.clipTold a) (te := a.tEnd) (fast := false) hkind (Action.chan_lt_16 hok hkind)
  have hret := ((s.clipTold a).endEdge a a.tEnd false).retire_retired a.clipped (if a.late then 2 else 1) a.startW (a.tEnd - a.ts)
  refine ⟨_, (exec_pulseEnd_due h (by omega) hact ht).trans (congrArg Host.Outcome.next (State.naturalEnd_of_kind (by omega))), ?_, ?_,
    hret.status⟩
  · rw [hret.bit (by decide), hlevel]
    exact State.aoutIdle_congr ((State.EdgeFrame.clipTold (.refl s)).reg _ (fun h => not_drivenReg_OUT_AOUT (Action.chan_lt_16 hok hkind) (.inl h)))
  · rw [hret.outOf, hend]

end

/-! ### The end of a soft shutdown (R191) -/

theorem exec_softShutdownEnd {s : State} {n : Fin 24} {x : Nat} (h : (s.outOf (12 + n)).soft = some x) :
    Machine.exec (.softShutdownEnd n) s = if x + 2000000 ≤ s.now
      then .next ((s.updOut (12 + n) fun c => { c with soft := none, lastEnd := some (x + 2000000) }).setBit OUT_SOFTG n false)
      else .next s := by
  change execSoftShutdownEnd n s = _
  rw [execSoftShutdownEnd, h]

theorem softShutdownEnd_rests {s : State} {n : Fin 24} {x : Nat} (h : (s.outOf (12 + n)).soft = some x) (ht : x + 2000000 ≤ s.now) :
    ∃ t, Machine.exec (.softShutdownEnd n) s = .next t ∧ (t.outOf (12 + n)).soft = none
      ∧ (t.outOf (12 + n)).lastEnd = some (x + 2000000) ∧ t.bit OUT_SOFTG n = false
      ∧ s.onlyRegs { t with outCh := s.outCh } [OUT_SOFTG] := by
  have hn := n.isLt
  refine ⟨_, (exec_softShutdownEnd h).trans (if_pos ht), ?_, ?_, State.bit_setBit_same _ _ _ _ (by omega), ?_, fun k hk => ?_⟩
  · rw [State.outOf_setBit, State.outOf_updOut _ _ (by omega)]
  · rw [State.outOf_setBit, State.outOf_updOut _ _ (by omega)]
  · simp only [State.updOut, State.setBit, State.setReg]
  · have hne : k ≠ OUT_SOFTG := by simpa using hk
    have hreg : ∀ u : State, ({ u with outCh := s.outCh } : State).reg k = u.reg k := fun _ => rfl
    rw [hreg, State.reg_setBit_ne _ _ _ hne, State.reg_updOut]

/-! ### CYC compares (R194, R196) -/

section
variable {s : State} {n : Fin 16}

theorem State.cycOf_setPin (s : State) (m : Nat) (b : Bool) (c : Nat) : (s.setPin m b).cycOf c = s.cycOf c := by
  rw [State.cycOf, (s.setPin_frame m b).eq]
  rfl

theorem State.cycOf_updCyc (s : State) (n : Fin 16) (f : CycCh → CycCh) : (s.updCyc n f).cycOf n = f (s.cycOf n) := by
  simp only [State.cycOf, State.updCyc, vat_vupd_same _ _ n.isLt]

theorem State.aoutIdle_updCyc (s : State) (c : Nat) (f : CycCh → CycCh) (n : Nat) : (s.updCyc c f).aoutIdle n = s.aoutIdle n :=
  State.aoutIdle_congr (by simp only [State.updCyc, State.reg])

theorem cycCompare_sets (h : s.setDue n = true) : ∃ t, Machine.exec (.cycCompare n false) s = .next t
    ∧ t.bit OUT_LVLA n = !s.aoutIdle n ∧ (t.cycOf n).setFrom = s.angW ∧ (t.cycOf n).clrFrom = (s.cycOf n).clrFrom ∧ t.mem = s.mem := by
  have hn := n.isLt
  have hcyc : (s.cycSet n).cycOf n = { s.cycOf n with setFrom := s.angW } := by
    rw [State.cycSet, State.cycOf_setPin, State.cycOf_updCyc]
  refine ⟨s.cycSet n, congrArg Host.Outcome.next (if_pos h), State.bit_setPin _ _ (by omega), by rw [hcyc], by rw [hcyc],
    (State.EdgeFrame.setPin (.updCyc (.refl s)) : s.EdgeFrame (s.cycSet n)).mem⟩

/-- A CYC channel rests (R194, R196). -/
theorem State.pinIdle_updCyc (s : State) (n : Fin 16) (f : CycCh → CycCh) : ((s.updCyc n f).pinIdle n).bit OUT_LVLA n = s.aoutIdle n
    ∧ ((s.updCyc n f).pinIdle n).cycOf n = f (s.cycOf n) ∧ ((s.updCyc n f).pinIdle n).mem = s.mem := by
  have hn := n.isLt
  refine ⟨?_, ?_, ?_⟩
  · rw [State.pinIdle, State.bit_setPin _ _ (by omega), State.aoutIdle_updCyc]
  · rw [State.pinIdle, State.cycOf_setPin, State.cycOf_updCyc]
  · exact (State.EdgeFrame.setPin (.updCyc (.refl s)) : s.EdgeFrame ((s.updCyc n f).pinIdle n)).mem

theorem cycCompare_clears (h : s.clrDue n = true) : ∃ t, Machine.exec (.cycCompare n true) s = .next t
    ∧ t.bit OUT_LVLA n = s.aoutIdle n ∧ (t.cycOf n).clrFrom = s.angW ∧ (t.cycOf n).setFrom = (s.cycOf n).setFrom ∧ t.mem = s.mem := by
  obtain ⟨hlevel, hcyc, hmem⟩ := s.pinIdle_updCyc n fun c => { c with clrFrom := s.angW }
  refine ⟨s.cycClr n, congrArg Host.Outcome.next (if_pos h), hlevel, ?_, ?_, hmem⟩
  · exact (congrArg CycCh.clrFrom hcyc).trans rfl
  · exact (congrArg CycCh.setFrom hcyc).trans rfl

theorem exec_cycReturnDelayed {x : Nat} (h : (s.cycOf n).ret = some x) : Machine.exec (.cycReturnDelayed n) s
    = .next (if x ≤ s.now then (s.updCyc n fun c => { c with ret := none }).pinIdle n else s) := by
  change execCycReturnDelayed n s = _
  rw [execCycReturnDelayed, h]

theorem cycReturnDelayed_rests {x : Nat} (h : (s.cycOf n).ret = some x) (ht : x ≤ s.now) :
    ∃ t, Machine.exec (.cycReturnDelayed n) s = .next t ∧ t.bit OUT_LVLA n = s.aoutIdle n ∧ (t.cycOf n).ret = none ∧ t.mem = s.mem := by
  obtain ⟨hlevel, hcyc, hmem⟩ := s.pinIdle_updCyc n fun c => { c with ret := none }
  exact ⟨_, (exec_cycReturnDelayed h).trans (congrArg Host.Outcome.next (if_pos ht)), hlevel, by rw [hcyc], hmem⟩

end

end Sys2Proof.Machine
end

section
/-! PROOFS. Writes that clear the enables of output channels (R190, R200, R210, R211). -/

namespace Sys2Proof.Machine

/-! ### The enable registers -/

/-- The row of an enable register of OUT. -/
def enableRow (off n werr : Nat) : Row :=
  { off, s1 := 0x4, c1 := 1, s2 := 0x4, c2 := 1, rst := 0x0, werr := .bit werr, lock := .none, flds := [⟨⟨0, n⟩, .rw, .any⟩] }

theorem rowFind_OUT_ENI : rowFind (blockRows (blkOf OUT_ENI)) (OUT_ENI % 0x10000) = some (enableRow 0x0 12 0, 0, 0) := by decide

theorem rowFind_OUT_ENG : rowFind (blockRows (blkOf OUT_ENG)) (OUT_ENG % 0x10000) = some (enableRow 0x4 24 1, 0, 0) := by decide

theorem rowFind_OUT_ENA : rowFind (blockRows (blkOf OUT_ENA)) (OUT_ENA % 0x10000) = some (enableRow 0x8 16 2, 0, 0) := by decide

/-- An enable register of `n` channels once it has taken its word. -/
def State.enableWritten (s : State) (key n : Nat) (w : Word) : State := s.setReg key (maskedWrite (⟨0, n⟩ : Fld).mask (s.reg key) w)

theorem State.bit_enableWritten (s : State) (key : Nat) {n c : Nat} (w : Word) (hn : n ≤ 32) (hc : c < n) :
    (s.enableWritten key n w).bit key c = bitOf w c := by
  have hmask : (⟨0, n⟩ : Fld).mask.getLsbD c = true := by
    rw [Fld.mask_getLsbD]
    simp
    omega
  rw [State.bit, State.enableWritten, State.reg_setReg_same, bitOf, maskedWrite_getLsbD _ _ _ (by omega), hmask, if_pos rfl, bitOf]

theorem State.outWrite_enable {s : State} {key off n werr : Nat} {w : Word}
    (hrow : rowFind (blockRows (blkOf key)) (key % 0x10000) = some (enableRow off n werr, 0, 0)) (hlock : s.outLocked key = false)
    (hlegal : s.outLegal key w = true) {act : State → State} :
    s.writeWith key w (s.outLocked key) (s.outLegal key w) act = act (s.enableWritten key n w) := by
  rw [State.writeWith_of_legal hrow rfl hlock hlegal, State.enableWritten, ← Fld.set_get]
  rfl

theorem State.outLocked_low {s : State} {addr : Nat} (h : addr % 0x10000 < 0x100) : s.outLocked addr = false := by
  unfold State.outLocked
  dsimp only
  rw [if_neg (by omega), if_neg (by omega), if_neg (by omega)]

theorem State.outLegal_OUT_ENI (s : State) (w : Word) :
    s.outLegal OUT_ENI w = (s.d2dUp || (w &&& ~~~s.reg OUT_ENI).toNat % 4096 == 0) := by
  unfold State.outLegal
  exact if_pos rfl

/-- The turn of channel `i` of OUT_ENA; `t` is the state with the word written. -/
def State.enaTurn (s t u : State) (i : Nat) : State :=
  if s.echoOwns i then u
  else if s.bit OUT_ENA i && !t.bit OUT_ENA i then u.disableChannel (36 + i)
  else if !s.bit OUT_ENA i && t.bit OUT_ENA i then u.updCyc i fun _ => { setFrom := s.angW, clrFrom := s.angW } else u

theorem State.outWrite_ENI {s : State} {w : Word} (hlegal : s.d2dUp = true ∨ (w &&& ~~~s.reg OUT_ENI).toNat % 4096 = 0) :
    s.outWrite OUT_ENI w = (s.enableWritten OUT_ENI 12 w).disableBits (s.reg OUT_ENI) OUT_ENI 0 12 := by
  have hok : s.outLegal OUT_ENI w = true := by
    rw [State.outLegal_OUT_ENI, Bool.or_eq_true, beq_iff_eq]
    exact hlegal
  rw [State.outWrite]
  dsimp only
  rw [State.outWrite_enable rowFind_OUT_ENI (State.outLocked_low (by decide)) hok, if_pos rfl]

theorem State.outWrite_ENG (s : State) (w : Word) :
    s.outWrite OUT_ENG w = (s.enableWritten OUT_ENG 24 w).disableBits (s.reg OUT_ENG) OUT_ENG 12 24 := by
  rw [State.outWrite]
  dsimp only
  rw [State.outWrite_enable rowFind_OUT_ENG (State.outLocked_low (by decide)) rfl, if_neg (by decide), if_pos rfl]

theorem State.outWrite_ENA (s : State) (w : Word) :
    s.outWrite OUT_ENA w = (List.range 16).foldl (s.enaTurn (s.enableWritten OUT_ENA 16 w)) (s.enableWritten OUT_ENA 16 w) := by
  rw [State.outWrite]
  dsimp only
  rw [State.outWrite_enable rowFind_OUT_ENA (State.outLocked_low (by decide)) rfl, if_neg (by decide), if_neg (by decide), if_pos rfl]
  rfl

/-! ### Loops over channels -/

/-- A loop that comes to `n` reaches what the turn of `n` brings about and no other turn undoes. -/
theorem foldl_reaches {α : Type} {f : State → α → State} {l : List α} {n : α} {s : State} {Q P : State → Prop} (hn : n ∈ l) (hs : Q s)
    (hstep : ∀ t x, Q t → Q (f t x)) (hset : ∀ t, Q t → P (f t n)) (hkeep : ∀ t x, x ≠ n → Q t → P t → P (f t x)) :
    P (l.foldl f s) := by
  obtain ⟨l1, l2, rfl⟩ := List.append_of_mem hn
  have hfirst : Q (l1.foldl f s) := List.foldlRecOn l1 f hs fun t ht x _ => hstep t x ht
  rw [List.foldl_append, List.foldl_cons]
  refine (List.foldlRecOn l2 f (motive := fun t => Q t ∧ P t) ⟨hstep _ _ hfirst, hset _ hfirst⟩
    fun t ⟨hq, hp⟩ x _ => ⟨hstep t x hq, ?_⟩).2
  by_cases hx : x = n
  · exact hx ▸ hset t hq
  · exact hkeep t x hx hq hp

/-- No action of channel `c` waits. -/
def State.Quiet (c : Nat) (t : State) : Prop := ∀ a ∈ t.actions, a.channel = some c → ¬ a.Pends

theorem State.Quiet.keep {s t : State} {c : Nat} (h : s.Quiet c) (ht : s.AngleFrame t) : t.Quiet c :=
  fun a ha hc hp => h a (ht.pending a ha hp) hc hp

theorem State.Quiet.places {t : State} {c : Nat} (h : t.Quiet c) :
    ∀ a ∈ t.calq ++ t.stage, a.channel = some c → a.place ≠ .waiting ∧ a.place ≠ .held :=
  fun a ha hc => ⟨fun hw => h a ha hc (.inl hw), fun hh => h a ha hc (.inr hh)⟩

/-- R200: a channel whose bit a write clears holds nothing that waits. -/
theorem State.quiet_disableBits {s : State} {old : Word} {key n i : Nat} (base : Nat) (hi : i < n) (hwas : bitOf old i = true)
    (hnow : s.bit key i = false) : (s.disableBits old key base n).Quiet (base + i) := by
  refine foldl_reaches (n := i) (Q := fun _ => True) (List.mem_range.mpr hi) trivial (fun _ _ _ => trivial) (fun t _ => ?_)
    fun t x _ _ ht => ht.keep (.ite (.disableChannel (.refl t)) (.refl t))
  simp only [hwas, hnow, Bool.not_false, Bool.and_self, if_true]
  exact fun a ha hc => t.not_pends_disableChannel _ ha hc

theorem State.DrivenFrame.disableBits {s : State} (old : Word) (key base n : Nat) : s.DrivenFrame (s.disableBits old key base n) :=
  State.DrivenFrame.foldl (.refl s) fun _ _ hv => .ite hv.disableChannel hv

theorem State.DrivenFrame.bit {s t : State} (h : s.DrivenFrame t) {k : Nat} (hk : ¬ drivenReg k) (i : Nat) : t.bit k i = s.bit k i := by
  rw [State.bit, h k hk, State.bit]

theorem channelDisable_ENI {s : State} {w : Word} {c : Nat} (hc : c < 12)
    (hlegal : s.d2dUp = true ∨ (w &&& ~~~s.reg OUT_ENI).toNat % 4096 = 0) (hwas : s.bit OUT_ENI c = true) (hw : bitOf w c = false) :
    ∃ t, Machine.exec (.channelDisable 0 w) s = .next t ∧ t.bit OUT_ENI c = false
      ∧ ∀ a ∈ t.calq ++ t.stage, a.channel = some c → a.place ≠ .waiting ∧ a.place ≠ .held := by
  have hnow := (s.bit_enableWritten OUT_ENI w (by decide) hc).trans hw
  have hquiet := State.quiet_disableBits (s := s.enableWritten OUT_ENI 12 w) 0 hc hwas hnow
  rw [Nat.zero_add] at hquiet
  exact ⟨_, congrArg Host.Outcome.next (State.outWrite_ENI hlegal),
    ((State.DrivenFrame.disableBits _ _ _ _).bit (by decide) c).trans hnow, hquiet.places⟩

/-- R211: while the link is down no injection channel is enabled. -/
theorem channelDisable_refused {s : State} {w : Word} (hdown : s.d2dUp = false) (hset : (w &&& ~~~s.reg OUT_ENI).toNat % 4096 ≠ 0) :
    ∃ t, Machine.exec (.channelDisable 0 w) s = .next t ∧ s.writeRefused t OUT_ENI := by
  have hlegal : s.outLegal OUT_ENI w = false := by
    rw [State.outLegal_OUT_ENI, hdown, Bool.false_or, beq_eq_false_iff_ne]
    exact hset
  have hwrite : s.outWrite OUT_ENI w = s.refuseWrite OUT_ENI := by
    rw [State.outWrite]
    dsimp only
    rw [State.writeWith_of_illegal rowFind_OUT_ENI hlegal]
  exact ⟨_, congrArg Host.Outcome.next hwrite, State.refuseWrite_refused rowFind_OUT_ENI⟩

theorem channelDisable_ENG {s : State} {w : Word} {c : Nat} (hc : c < 24) (hwas : s.bit OUT_ENG c = true) (hw : bitOf w c = false) :
    ∃ t, Machine.exec (.channelDisable 1 w) s = .next t ∧ t.bit OUT_ENG c = false
      ∧ ∀ a ∈ t.calq ++ t.stage, a.channel = some (12 + c) → a.place ≠ .waiting ∧ a.place ≠ .held := by
  have hnow := (s.bit_enableWritten OUT_ENG w (by decide) hc).trans hw
  exact ⟨_, congrArg Host.Outcome.next (s.outWrite_ENG w), ((State.DrivenFrame.disableBits _ _ _ _).bit (by decide) c).trans hnow,
    (State.quiet_disableBits 12 hc hwas hnow).places⟩

/-! ### The pins of AOUT (R190, R200) -/

theorem State.bit_setBit_ne (s : State) (k : Nat) {i j : Nat} (b : Bool) (h : j ≠ i) : (s.setBit k i b).bit k j = s.bit k j := by
  rw [State.bit, State.reg_setBit_same, bitOf_withBit_ne _ _ h, State.bit]

/-- Another pin keeps its level. -/
theorem State.bit_setPin_ne (s : State) {n c : Nat} (b : Bool) (h : c ≠ n) : (s.setPin n b).bit OUT_LVLA c = s.bit OUT_LVLA c := by
  rw [State.bit, (s.setPin_frame n b).reg _ (.inr (by decide)), ← State.bit, State.bit_setBit_ne _ _ _ h]

theorem State.bit_updCyc (s : State) (n : Nat) (f : CycCh → CycCh) (k i : Nat) : (s.updCyc n f).bit k i = s.bit k i := by
  simp only [State.bit, State.reg, State.updCyc]

/-- Of the pins an end edge drives that of its own channel alone. -/
theorem State.level_endEdge {s : State} {a : Action} {n c : Nat} (te : Nat) (fast : Bool) (hchan : a.channel = some (36 + n)) (hc : c ≠ n) :
    (s.endEdge a te fast).bit OUT_LVLA c = s.bit OUT_LVLA c := by
  unfold State.endEdge
  split
  · rw [State.bit_updOut, State.bit, State.reg_setBit_ne _ _ _ (by decide)]
    rfl
  · next hinj =>
    split
    · rw [State.bit_updOut, State.bit, State.reg_setBit_ne _ _ _ (by decide)]
      rfl
    · next hign =>
      have hn : a.chan = n := by
        rw [Action.channel, if_neg hinj, if_neg hign] at hchan
        split at hchan
        · exact Nat.add_left_cancel (Option.some.inj hchan)
        · cases hchan
      rw [State.bit_updOut, State.pinIdle, State.bit_setPin_ne _ _ (hn ▸ hc)]

theorem State.level_softStart (s : State) (n c : Nat) : (s.softStart n).bit OUT_LVLA c = s.bit OUT_LVLA c := by
  rw [State.bit, State.softStart, State.reg_raise_ne _ _ (by decide), State.reg_setBit_ne _ _ _ (by decide),
    State.reg_setBit_ne _ _ _ (by decide), State.reg_updOut, State.bit]

theorem State.level_retire (s : State) (a : Action) (st : Nat) (start : Word) (dur c : Nat) :
    (s.retire a st start dur).bit OUT_LVLA c = s.bit OUT_LVLA c := (s.retire_retired a st start dur).bit (by decide) c

theorem State.level_endPulse {s : State} {a : Action} {n c : Nat} (st : Nat) (fast : Bool) (hchan : a.channel = some (36 + n)) (hc : c ≠ n) :
    (s.endPulse a st fast).bit OUT_LVLA c = s.bit OUT_LVLA c := by
  unfold State.endPulse
  split
  · split
    · rw [State.level_retire, State.level_endEdge _ _ hchan hc]
    · rfl
  · split
    · rw [State.level_retire, State.level_softStart]
    · rw [State.level_retire, State.level_endEdge _ _ hchan hc]

/-- A channel of AOUT that comes to be disabled leaves the other pins alone. -/
theorem State.level_disableChannel (s : State) {n c : Nat} (hc : c ≠ n) : (s.disableChannel (36 + n)).bit OUT_LVLA c = s.bit OUT_LVLA c := by
  have hactive : (s.endActive (fun a => a.channel == some (36 + n)) stCANCELLED true).bit OUT_LVLA c = s.bit OUT_LVLA c := by
    refine List.foldlRecOn _ _ (motive := fun t : State => t.bit OUT_LVLA c = s.bit OUT_LVLA c) rfl fun t ht a _ => ?_
    split
    · next hact =>
      rw [Bool.and_eq_true, beq_iff_eq] at hact
      rw [State.level_endPulse _ _ hact.1 hc, ht]
    · exact ht
  have hpending : ((s.endActive (fun a => a.channel == some (36 + n)) stCANCELLED true).retirePending
      (fun a => a.channel == some (36 + n)) stCANCELLED).bit OUT_LVLA c = s.bit OUT_LVLA c := by
    refine List.foldlRecOn _ _ (motive := fun t : State => t.bit OUT_LVLA c = s.bit OUT_LVLA c) hactive fun t ht a _ => ?_
    split
    · rw [State.level_retire, ht]
    · exact ht
  unfold State.disableChannel
  dsimp only
  split
  · rw [State.bit_updCyc, Nat.add_sub_cancel_left, State.pinIdle, State.bit_setPin_ne _ _ hc, hpending]
  · exact hpending

/-- R200: a channel of AOUT that comes to be disabled rests at its idle level. -/
theorem State.level_disableChannel_own (s : State) {c : Nat} (hc : c < 16) (hown : s.echoOwns c = false) :
    (s.disableChannel (36 + c)).bit OUT_LVLA c = s.aoutIdle c := by
  have hreg : s.DrivenFrame ((s.endActive (fun a => a.channel == some (36 + c)) stCANCELLED true).retirePending
      (fun a => a.channel == some (36 + c)) stCANCELLED) := .retirePending (.endActive (.refl s))
  unfold State.disableChannel
  dsimp only
  rw [Nat.add_sub_cancel_left, hown, if_pos ⟨Nat.le_add_right _ _, rfl⟩, State.bit_updCyc, State.pinIdle, State.bit_setPin _ _ (by omega)]
  exact State.aoutIdle_congr (hreg _ (not_drivenReg_OUT_AOUT hc))

/-- What the other turns of OUT_ENA leave: the registers that no edge and no retirement changes. -/
theorem State.DrivenFrame.enaTurn {s t u v : State} (h : v.DrivenFrame u) (i : Nat) : v.DrivenFrame (s.enaTurn t u i) :=
  .ite h (.ite h.disableChannel (.ite (h.edge (.updCyc (.refl u))) h))

theorem State.level_enaTurn {s t : State} (u : State) {i c : Nat} (hc : c ≠ i) : (s.enaTurn t u i).bit OUT_LVLA c = u.bit OUT_LVLA c := by
  unfold State.enaTurn
  split
  · rfl
  · split
    · exact u.level_disableChannel hc
    · split
      · exact State.bit_updCyc _ _ _ _ _
      · rfl

theorem channelDisable_ENA {s : State} {w : Word} {c : Nat} (hc : c < 16) (hown : s.echoOwns c = false) (hwas : s.bit OUT_ENA c = true)
    (hw : bitOf w c = false) :
    ∃ t, Machine.exec (.channelDisable 2 w) s = .next t ∧ t.bit OUT_ENA c = false ∧ t.bit OUT_LVLA c = s.aoutIdle c
      ∧ ∀ a ∈ t.calq ++ t.stage, a.channel = some (36 + c) → a.place ≠ .waiting ∧ a.place ≠ .held := by
  have hnow := (s.bit_enableWritten OUT_ENA w (by decide) hc).trans hw
  have hwritten : ∀ k, k ≠ OUT_ENA → (s.enableWritten OUT_ENA 16 w).reg k = s.reg k := fun k hk => State.reg_setReg_ne _ _ hk
  generalize ht : s.enableWritten OUT_ENA 16 w = t at hnow hwritten
  have hturn : ∀ u, s.enaTurn t u c = u.disableChannel (36 + c) := fun u => by
    rw [State.enaTurn, hown, hwas, hnow]
    rfl
  obtain ⟨hlevel, hquiet⟩ : ((List.range 16).foldl (s.enaTurn t) t).bit OUT_LVLA c = s.aoutIdle c
      ∧ ((List.range 16).foldl (s.enaTurn t) t).Quiet (36 + c) := by
    refine foldl_reaches (n := c) (Q := fun u => t.DrivenFrame u) (P := fun u => u.bit OUT_LVLA c = s.aoutIdle c ∧ u.Quiet (36 + c))
      (List.mem_range.mpr hc) (.refl t) (fun u i hu => hu.enaTurn i) (fun u hu => ?_) fun u i hi _ ⟨hlevel, hquiet⟩ => ⟨?_, hquiet.keep ?_⟩
    · have hcfg : ∀ k < 2, u.reg (WHL_ECFG k) = s.reg (WHL_ECFG k) := fun k hk => by
        rw [hu _ (not_drivenReg_WHL_ECFG hk), hwritten _ (by simp only [WHL_ECFG, OUT_ENA]; omega)]
      have hidle : u.aoutIdle c = s.aoutIdle c := State.aoutIdle_congr (by
        rw [hu _ (not_drivenReg_OUT_AOUT hc), hwritten _ (by simp only [OUT_AOUT, OUT_ENA]; omega)])
      rw [hturn]
      exact ⟨(u.level_disableChannel_own hc ((State.echoOwns_congr hcfg c).trans hown)).trans hidle,
        fun a ha hchan => u.not_pends_disableChannel _ ha hchan⟩
    · rw [State.level_enaTurn _ hi.symm, hlevel]
    · exact .ite (.refl u) (.ite (.disableChannel (.refl u)) (.ite (.updCyc (.refl u)) (.refl u)))
  have hframe : t.DrivenFrame ((List.range 16).foldl (s.enaTurn t) t) := .foldl (.refl t) fun _ i hv => hv.enaTurn i
  exact ⟨_, congrArg Host.Outcome.next ((s.outWrite_ENA w).trans (by rw [ht])), (hframe.bit (by decide) c).trans hnow,
    hlevel, hquiet.places⟩

/-! ### What happens before anything is due -/

section
variable {s : State} {i : Nat} {a : Action}

theorem deferredStart_waits (h : s.staged i = some a)
    (hwait : a.place ≠ .held ∨ s.fires = false ∨ s.channelBusy a (s.now + a.lead) = true ∨ s.heldBefore a = true) :
    Machine.exec (.deferredStart i) s = .next s := by
  rw [exec_deferredStart h, if_neg]
  rcases hwait with hw | hw | hw | hw <;> simp [hw]

theorem pulseEnd_waits (h : s.staged i = some a) (hwait : a.kind = 0 ∨ a.place ≠ .active ∨ s.now < a.tEnd) :
    Machine.exec (.pulseEnd i) s = .next s := by
  rw [exec_pulseEnd h, if_neg]
  rcases hwait with hw | hw | hw <;> simp [hw, kINJ]

end

end Sys2Proof.Machine

open Sys2Proof.Machine

/-- Settles O28: a released action by what it finds when it is due, a pulse by how it ends, a channel by the write that disables it. -/
theorem actionsAndPulses : Obligations.ActionsAndPulses := by
  refine ⟨fun i s => ⟨fun hnone => ⟨?_, ?_⟩, fun a ha hok => ?_⟩, fun i s => ⟨fun hnone => ⟨?_, ?_⟩, fun a ha hok => ?_⟩,
    fun n s => ⟨fun hnone => ?_, fun x hx => ⟨fun ht => ?_, softShutdownEnd_rests hx⟩⟩,
    fun n s => ⟨cycCompare_sets, fun h => ?_, cycCompare_clears, fun h => ?_, fun hnone => ?_,
      fun x hx => ⟨fun ht => ?_, cycReturnDelayed_rests hx⟩⟩,
    fun w s c => ⟨channelDisable_ENI, channelDisable_refused, channelDisable_ENG, channelDisable_ENA⟩⟩
  · change execActionFire i s = _
    rw [execActionFire, hnone]
  · change execDeferredStart i s = _
    rw [execDeferredStart, hnone]
  · refine ⟨fun hdue => ?_, actionFire_held ha, actionFire_dropped ha, actionFire_starts ha hok, actionFire_single ha hok,
      fun hdue hlate hkind => ?_, deferredStart_waits ha,
      fun hheld hfires hbusy hfirst _ => ⟨deferredStart_proceeds ha hheld hfires hbusy hfirst,
        deferredStart_dropped ha hheld hfires hbusy hfirst⟩⟩
    · rw [exec_actionFire ha, hdue]
      rfl
    · obtain ⟨t, hexec, hst, hqueued⟩ := actionFire_message ha hdue hlate hkind
      rw [State.qput_result] at hst hqueued
      exact ⟨t, hexec, hst, hqueued⟩
  · change execInjEndDispatch i s = _
    rw [execInjEndDispatch, hnone]
  · change execPulseEnd i s = _
    rw [execPulseEnd, hnone]
  · refine ⟨fun hkind hact => ⟨fun ht => ?_, injEndDispatch_ends ha hok hkind hact⟩,
      fun hkind hend hloc => ⟨fun ht => ?_, injEndDispatch_endsEarly ha hok hkind hend hloc⟩,
      fun hkind hend hloc => ⟨fun ht => ?_, injEndDispatch_endsLocally ha hok hkind hend hloc⟩, exec_injEndDispatch_other ha,
      pulseEnd_waits ha, pulseEnd_sparks ha hok, pulseEnd_suppresses ha hok, pulseEnd_rests ha hok⟩
    · rw [exec_injEndDispatch_active ha hkind hact, if_neg (Nat.not_le.mpr ht)]
    · rw [exec_injEndDispatch_ending ha hkind hend hloc, if_neg (Nat.not_le.mpr ht)]
    · rw [exec_injEndDispatch_local ha hkind hend hloc, if_neg (Nat.not_le.mpr ht)]
  · change execSoftShutdownEnd n s = _
    rw [execSoftShutdownEnd, hnone]
  · rw [exec_softShutdownEnd hx, if_neg (Nat.not_le.mpr ht)]
  · exact congrArg Host.Outcome.next (if_neg (Bool.eq_false_iff.mp h))
  · exact congrArg Host.Outcome.next (if_neg (Bool.eq_false_iff.mp h))
  · change execCycReturnDelayed n s = _
    rw [execCycReturnDelayed, hnone]
  · rw [exec_cycReturnDelayed hx, if_neg (Nat.not_le.mpr ht)]

end

section
/-! PROOFS. The words of the Gental instructions (R216, R217): the fields of the two formats, and that encoding and decoding agree. -/

namespace Sys2Proof.Machine

/-! ### Fields of an encoded word (R216) -/

section
variable {op fn : Nat} {rd rs1 rs2 : BitVec 5} {imm : BitVec 16}

theorem encR_toNat (hop : op < 64) (hfn : fn < 2 ^ 11) : (encR op rd rs1 rs2 fn).toNat
    = op * 2 ^ 26 + rd.toNat * 2 ^ 21 + rs1.toNat * 2 ^ 16 + rs2.toNat * 2 ^ 11 + fn := by
  have := rd.isLt
  have := rs1.isLt
  have := rs2.isLt
  rw [encR, BitVec.toNat_ofNat, Nat.mod_eq_of_lt]
  omega

theorem encI_toNat (hop : op < 64) : (encI op rd rs1 imm).toNat
    = op * 2 ^ 26 + rd.toNat * 2 ^ 21 + rs1.toNat * 2 ^ 16 + imm.toNat := by
  have := rd.isLt
  have := rs1.isLt
  have := imm.isLt
  rw [encI, BitVec.toNat_ofNat, Nat.mod_eq_of_lt]
  omega

theorem extractLsb'_eq_iff {w : Word} {lo n : Nat} {x : BitVec n} : w.extractLsb' lo n = x ↔ w.toNat / 2 ^ lo % 2 ^ n = x.toNat := by
  rw [← BitVec.toNat_inj, BitVec.extractLsb'_toNat, Nat.shiftRight_eq_div_pow]

theorem fields_encR (hop : op < 64) (hfn : fn < 2 ^ 11) :
    wOp (encR op rd rs1 rs2 fn) = op ∧ wRd (encR op rd rs1 rs2 fn) = rd ∧ wRs1 (encR op rd rs1 rs2 fn) = rs1
      ∧ wRs2 (encR op rd rs1 rs2 fn) = rs2 ∧ wFn (encR op rd rs1 rs2 fn) = fn := by
  have := rd.isLt
  have := rs1.isLt
  have := rs2.isLt
  simp only [wOp, wRd, wRs1, wRs2, wFn, extractLsb'_eq_iff, encR_toNat hop hfn]
  omega

theorem fields_encI (hop : op < 64) :
    wOp (encI op rd rs1 imm) = op ∧ wRd (encI op rd rs1 imm) = rd ∧ wRs1 (encI op rd rs1 imm) = rs1
      ∧ wImm (encI op rd rs1 imm) = imm := by
  have := rd.isLt
  have := rs1.isLt
  have := imm.isLt
  simp only [wOp, wRd, wRs1, wImm, extractLsb'_eq_iff, encI_toNat hop]
  omega

end

section
variable {op fn : Nat} {rd rs1 rs2 : BitVec 5} {imm : BitVec 16}

@[simp] theorem wOp_encR (hop : op < 64) (hfn : fn < 2 ^ 11) : wOp (encR op rd rs1 rs2 fn) = op := (fields_encR hop hfn).1

@[simp] theorem wRd_encR (hop : op < 64) (hfn : fn < 2 ^ 11) : wRd (encR op rd rs1 rs2 fn) = rd := (fields_encR hop hfn).2.1

@[simp] theorem wRs1_encR (hop : op < 64) (hfn : fn < 2 ^ 11) : wRs1 (encR op rd rs1 rs2 fn) = rs1 := (fields_encR hop hfn).2.2.1

@[simp] theorem wRs2_encR (hop : op < 64) (hfn : fn < 2 ^ 11) : wRs2 (encR op rd rs1 rs2 fn) = rs2 :=
  (fields_encR hop hfn).2.2.2.1

@[simp] theorem wFn_encR (hop : op < 64) (hfn : fn < 2 ^ 11) : wFn (encR op rd rs1 rs2 fn) = fn := (fields_encR hop hfn).2.2.2.2

@[simp] theorem wOp_encI (hop : op < 64) : wOp (encI op rd rs1 imm) = op := (fields_encI hop).1

@[simp] theorem wRd_encI (hop : op < 64) : wRd (encI op rd rs1 imm) = rd := (fields_encI hop).2.1

@[simp] theorem wRs1_encI (hop : op < 64) : wRs1 (encI op rd rs1 imm) = rs1 := (fields_encI hop).2.2.1

@[simp] theorem wImm_encI (hop : op < 64) : wImm (encI op rd rs1 imm) = imm := (fields_encI hop).2.2.2

/-- The low bits [10:0] of an R-format word, where an operand stands in the place of the function. -/
theorem extractLsb'_encR (k : BitVec 11) (hop : op < 64) : (encR op rd rs1 rs2 k.toNat).extractLsb' 0 11 = k := by
  have hfn : wFn (encR op rd rs1 rs2 k.toNat) = k.toNat := wFn_encR hop k.isLt
  rw [extractLsb'_eq_iff, Nat.pow_zero, Nat.div_one]
  exact hfn

end

theorem encR_of_fields {w : Word} {op fn : Nat} (hop : wOp w = op) (hfn : wFn w = fn) :
    encR op (wRd w) (wRs1 w) (wRs2 w) fn = w := by
  have := w.isLt
  subst hop hfn
  apply BitVec.eq_of_toNat_eq
  simp only [encR, wOp, wRd, wRs1, wRs2, wFn, BitVec.extractLsb'_toNat, Nat.shiftRight_eq_div_pow, BitVec.toNat_ofNat]
  omega

theorem encI_of_fields {w : Word} {op : Nat} (hop : wOp w = op) : encI op (wRd w) (wRs1 w) (wImm w) = w := by
  have := w.isLt
  subst hop
  apply BitVec.eq_of_toNat_eq
  simp only [encI, wOp, wRd, wRs1, wImm, BitVec.extractLsb'_toNat, Nat.shiftRight_eq_div_pow, BitVec.toNat_ofNat]
  omega

/-- The register fields that an instruction leaves unused hold 0 (R217). -/
theorem unusedZero_eq (w : Word) (rd rs1 rs2 : Bool) :
    unusedZero w rd rs1 rs2 = ((rd || wRd w == 0) && (rs1 || wRs1 w == 0) && (rs2 || wRs2 w == 0)) := rfl

theorem ifZero_eq_some {ok : Bool} {i j : Instr} : ifZero ok i = some j ↔ ok = true ∧ i = j := by
  cases ok <;> simp [ifZero]

@[simp] theorem ifZero_true (i : Instr) : ifZero true i = some i := rfl

/-! ### From an instruction to its word and back (R218) -/

theorem gentalInstr_of_gentalWord {i : Instr} {w : Word} (h : gentalWord i = some w) : ∃ a e, gentalInstr a e w = some i := by
  cases i with
  | add a | sub a | and a | or a | xor a | sll a | srl a | sra a | slt a | sltu a | min a | max a | minu a | maxu a =>
    obtain rfl := Option.some.inj h
    exact ⟨a, .clean, by simp [gentalInstr, decodeInt]⟩
  | mul a | mulsh a | muluh a | divs a | divu a | mods a | modu a =>
    obtain rfl := Option.some.inj h
    exact ⟨a, .clean, by simp [gentalInstr, decodeMul]⟩
  | slli a | srli a | srai a =>
    obtain rfl := Option.some.inj h
    exact ⟨a, .clean, by simp [gentalInstr, decodeShift]⟩
  | addi a | andi a | ori a | xori a | slti a | sltiu a | beq a | bne a | blt a | bge a | bltu a | bgeu a | jalr a | trimRead a =>
    obtain rfl := Option.some.inj h
    exact ⟨a, .clean, by simp [gentalInstr]⟩
  | lui a | jal a | csrr a | csrw a | waitEvt a =>
    obtain rfl := Option.some.inj h
    exact ⟨a, .clean, by simp [gentalInstr, unusedZero_eq]⟩
  | fence a | ecall a | eret a | wfi a | brk a =>
    obtain rfl := Option.some.inj h
    exact ⟨a, .clean, by simp [gentalInstr, decodeSystem, unusedZero_eq]⟩
  | fadd a | fsub a | fmul a | fdiv a | fmin a | fmax a | fminn a | fmaxn a | fcpys a | fcmp a | fcmps a | fmac a | fmsc a | fscl a
  | fsqrt a | fabs a | fneg a | ftype a | ftoi a | ftoiz a | ftoiu a | fitof a | futof a | fmvgf a | fmvfg a =>
    obtain rfl := Option.some.inj h
    exact ⟨a, .clean, by simp [gentalInstr, decodeFp, unusedZero_eq]⟩
  | waitAng a | cancl a | syncq a | tend a =>
    obtain rfl := Option.some.inj h
    exact ⟨a, .clean, by simp [gentalInstr, unusedZero_eq]⟩
  | waitTim a _ _ _ rel =>
    obtain rfl := Option.some.inj h
    exact ⟨a, .clean, by cases rel <;> simp [gentalInstr, b2n]⟩
  | angq a _ k =>
    have hk : k.val < 4 := k.isLt
    obtain rfl := Option.some.inj h
    exact ⟨a, .clean, by simp [gentalInstr, unusedZero_eq, wOp_encR, wFn_encR, hk, Nat.lt_trans hk]⟩
  | qget a _ _ q =>
    have hq : q.toNat % 65536 < 32 := lt_of_le_of_lt (Nat.mod_le _ _) q.isLt
    obtain rfl := Option.some.inj h
    exact ⟨a, .clean, by simp [gentalInstr, hq]⟩
  | sigt a _ _ sig =>
    have hsig : sig.toNat % 65536 < 4 := lt_of_le_of_lt (Nat.mod_le _ _) sig.isLt
    obtain rfl := Option.some.inj h
    exact ⟨a, .clean, by simp [gentalInstr, hsig]⟩
  | lw a _ _ _ e | lh a _ _ _ e | lhu a _ _ _ e | lb a _ _ _ e | lbu a _ _ _ e | flw a _ _ _ e | sw a _ _ _ e | sh a _ _ _ e
  | sb a _ _ _ e | fsw a _ _ _ e =>
    obtain rfl := Option.some.inj h
    exact ⟨a, e, by simp [gentalInstr]⟩
  | aswp a _ _ _ e | aadd a _ _ _ e | aadds a _ _ _ e | aand a _ _ _ e | aorr a _ _ _ e | acas a _ _ _ e =>
    obtain rfl := Option.some.inj h
    exact ⟨a, e, by simp [gentalInstr, decodeAtomic]⟩
  | postAction a _ _ _ k e | pulse a _ _ _ k e | samp a _ _ _ k e =>
    have hk : k.toNat < 2048 := k.isLt
    obtain rfl := Option.some.inj h
    exact ⟨a, e, by simp [gentalInstr, hk, extractLsb'_encR]⟩
  | qput a _ _ q e =>
    have hq : q.toNat % 65536 < 32 := lt_of_le_of_lt (Nat.mod_le _ _) q.isLt
    obtain rfl := Option.some.inj h
    exact ⟨a, e, by simp [gentalInstr, hq]⟩
  | _ => cases h

/-- Words of the R-format: the function selects an instruction that takes all three register fields. -/
theorem gentalWord_of_decodeInt {a : Agent} {w : Word} {i : Instr} (hop : wOp w = 0x00) (h : decodeInt a w = some i) :
    gentalWord i = some w := by
  unfold decodeInt at h
  split at h <;> cases h
  all_goals exact congrArg some (encR_of_fields hop ‹_›)

theorem gentalWord_of_decodeMul {a : Agent} {w : Word} {i : Instr} (hop : wOp w = 0x01) (h : decodeMul a w = some i) :
    gentalWord i = some w := by
  unfold decodeMul at h
  split at h <;> cases h
  all_goals exact congrArg some (encR_of_fields hop ‹_›)

theorem gentalWord_of_decodeShift {a : Agent} {w : Word} {i : Instr} (hop : wOp w = 0x09) (h : decodeShift a w = some i) :
    gentalWord i = some w := by
  unfold decodeShift at h
  split at h <;> cases h
  all_goals exact congrArg some (encR_of_fields hop ‹_›)

theorem gentalWord_of_decodeAtomic {a : Agent} {e : Ecc} {w : Word} {i : Instr} (hop : wOp w = 0x1D)
    (h : decodeAtomic a e w = some i) : gentalWord i = some w := by
  unfold decodeAtomic at h
  split at h <;> cases h
  all_goals exact congrArg some (encR_of_fields hop ‹_›)

/-- The registers that the word of a system instruction does not name are 0. -/
theorem encR_of_unusedAll {w : Word} {op fn : Nat} (hop : wOp w = op) (hfn : wFn w = fn)
    (h : unusedZero w false false false = true) : encR op 0 0 0 fn = w := by
  simp only [unusedZero_eq, Bool.false_or, Bool.and_eq_true, beq_iff_eq] at h
  obtain ⟨⟨hrd, hrs1⟩, hrs2⟩ := h
  rw [← encR_of_fields hop hfn, hrd, hrs1, hrs2]

theorem encR_of_unusedRs2 {w : Word} {op fn : Nat} (hop : wOp w = op) (hfn : wFn w = fn)
    (h : unusedZero w true true false = true) : encR op (wRd w) (wRs1 w) 0 fn = w := by
  simp only [unusedZero_eq, Bool.true_or, Bool.true_and, Bool.false_or, beq_iff_eq] at h
  rw [← h, encR_of_fields hop hfn]

theorem encR_of_unusedRs {w : Word} {op fn : Nat} (hop : wOp w = op) (hfn : wFn w = fn)
    (h : unusedZero w true false false = true) : encR op (wRd w) 0 0 fn = w := by
  simp only [unusedZero_eq, Bool.true_or, Bool.true_and, Bool.false_or, Bool.and_eq_true, beq_iff_eq] at h
  obtain ⟨hrs1, hrs2⟩ := h
  have hw := encR_of_fields hop hfn
  rwa [hrs1, hrs2] at hw

theorem encI_of_unusedRs1 {w : Word} {op : Nat} (hop : wOp w = op) (h : unusedZero w true false true = true) :
    encI op (wRd w) 0 (wImm w) = w := by
  simp only [unusedZero_eq, Bool.true_or, Bool.true_and, Bool.and_true, Bool.false_or, beq_iff_eq] at h
  rw [← h, encI_of_fields hop]

theorem encI_of_unusedRd {w : Word} {op : Nat} (hop : wOp w = op) (h : unusedZero w false true true = true) :
    encI op 0 (wRs1 w) (wImm w) = w := by
  simp only [unusedZero_eq, Bool.true_or, Bool.and_true, Bool.false_or, beq_iff_eq] at h
  rw [← h, encI_of_fields hop]

theorem gentalWord_of_decodeSystem {a : Agent} {w : Word} {i : Instr} (hop : wOp w = 0x1A) (h : decodeSystem a w = some i) :
    gentalWord i = some w := by
  unfold decodeSystem at h
  split at h
  case h_6 => cases h
  all_goals
    obtain ⟨hzero, rfl⟩ := ifZero_eq_some.mp h
    exact congrArg some (encR_of_unusedAll hop ‹_› hzero)

theorem gentalWord_of_decodeFp {a : Agent} {w : Word} {i : Instr} (hop : wOp w = 0x20) (h : decodeFp a w = some i) :
    gentalWord i = some w := by
  unfold decodeFp at h
  split at h
  case h_26 => cases h
  case h_15 | h_16 | h_17 | h_18 | h_19 | h_20 | h_21 | h_22 | h_23 | h_24 | h_25 =>
    obtain ⟨hzero, rfl⟩ := ifZero_eq_some.mp h
    exact congrArg some (encR_of_unusedRs2 hop ‹_› hzero)
  all_goals
    cases h
    exact congrArg some (encR_of_fields hop ‹_›)

/-- An operand in the place of the function. -/
theorem toNat_extractLsb'_low (w : Word) : (w.extractLsb' 0 11).toNat = wFn w := by
  rw [BitVec.extractLsb'_toNat, Nat.shiftRight_zero, wFn]

theorem setWidth_setWidth_of_lt {n m : Nat} {x : BitVec m} (h : x.toNat < 2 ^ n) : (x.setWidth n).setWidth m = x := by
  apply BitVec.eq_of_toNat_eq
  rw [BitVec.toNat_setWidth, BitVec.toNat_setWidth, Nat.mod_eq_of_lt h, Nat.mod_eq_of_lt x.isLt]

theorem gentalWord_of_gentalInstr {a : Agent} {e : Ecc} {w : Word} {i : Instr} (h : gentalInstr a e w = some i) :
    gentalWord i = some w := by
  unfold gentalInstr at h
  split at h
  -- The opcodes with functions of their own.
  case h_1 hop => exact gentalWord_of_decodeInt hop h
  case h_2 hop => exact gentalWord_of_decodeMul hop h
  case h_10 hop => exact gentalWord_of_decodeShift hop h
  case h_27 hop => exact gentalWord_of_decodeSystem hop h
  case h_30 hop => exact gentalWord_of_decodeAtomic hop h
  case h_31 hop => exact gentalWord_of_decodeFp hop h
  -- LUI, JAL, CSRR and WAIT.EVT name no rs1, CSRW no rd.
  case h_9 hop | h_25 hop | h_28 hop | h_36 hop =>
    obtain ⟨hzero, rfl⟩ := ifZero_eq_some.mp h
    exact congrArg some (encI_of_unusedRs1 hop hzero)
  case h_29 hop =>
    obtain ⟨hzero, rfl⟩ := ifZero_eq_some.mp h
    exact congrArg some (encI_of_unusedRd hop hzero)
  -- WAIT.ANG and WAIT.TIM.
  case h_34 hop =>
    obtain ⟨hfn, rfl⟩ := ifZero_eq_some.mp h
    exact congrArg some (encR_of_fields hop (beq_iff_eq.mp hfn))
  case h_35 hop =>
    obtain ⟨hfn, rfl⟩ := ifZero_eq_some.mp h
    have hrel : wFn w = b2n (wFn w == 1) := by
      have : wFn w ≤ 1 := of_decide_eq_true hfn
      interval_cases wFn w <;> rfl
    exact congrArg some (encR_of_fields hop hrel)
  -- The posts, with the template in the place of the function.
  case h_37 hop | h_38 hop | h_39 hop =>
    cases h
    exact congrArg some (encR_of_fields hop (toNat_extractLsb'_low w).symm)
  -- CANCL, SYNCQ, ANGQ and TEND leave register fields unused.
  case h_40 hop =>
    obtain ⟨hok, rfl⟩ := ifZero_eq_some.mp h
    obtain ⟨hfn, hzero⟩ := (Bool.and_eq_true _ _).mp hok
    exact congrArg some (encR_of_unusedRs2 hop (beq_iff_eq.mp hfn) hzero)
  case h_44 hop =>
    obtain ⟨hok, rfl⟩ := ifZero_eq_some.mp h
    obtain ⟨hfn, hzero⟩ := (Bool.and_eq_true _ _).mp hok
    exact congrArg some (encR_of_unusedRs hop (beq_iff_eq.mp hfn) hzero)
  case h_45 hop =>
    obtain ⟨hok, rfl⟩ := ifZero_eq_some.mp h
    obtain ⟨hfn, hzero⟩ := (Bool.and_eq_true _ _).mp hok
    have hval : wFn w = (Fin.ofNat 4 (wFn w)).val := (Nat.mod_eq_of_lt (of_decide_eq_true hfn)).symm
    exact congrArg some (encR_of_unusedRs hop hval hzero)
  case h_47 hop =>
    obtain ⟨hok, rfl⟩ := ifZero_eq_some.mp h
    obtain ⟨hfn, hzero⟩ := (Bool.and_eq_true _ _).mp hok
    exact congrArg some (encR_of_unusedAll hop (beq_iff_eq.mp hfn) hzero)
  -- QPUT, QGET and SIGT: a small number in the place of imm16.
  case h_42 hop | h_43 hop | h_46 hop =>
    obtain ⟨hlt, rfl⟩ := ifZero_eq_some.mp h
    refine (congrArg (fun m => some (encI _ _ _ m)) (setWidth_setWidth_of_lt ?_)).trans (congrArg some (encI_of_fields hop))
    exact of_decide_eq_true hlt
  case h_48 => cases h
  all_goals
    cases h
    exact congrArg some (encI_of_fields ‹_›)

end Sys2Proof.Machine

open Sys2Proof.Machine

/-- Settles O8: the fields of a word and the word determine each other, opcode by opcode and function by function. -/
theorem encodeDecode : Obligations.EncodeDecode :=
  ⟨fun _ _ h => gentalInstr_of_gentalWord h, fun _ _ _ _ h => gentalWord_of_gentalInstr h⟩

end

section
/-! PROOFS. The integer instructions (R220 to R222): each row's result where its agent can issue it, and the division rule. -/

namespace Sys2Proof.Machine

/-! ### The registers that an instruction names (R213, R214) -/

/-- An agent that can issue an instruction has the registers it names. -/
theorem State.canIssue_g {s : State} {a : Agent} {g f : List (BitVec 5)} {sl b : Nat} {r : BitVec 5} (h : s.canIssue a g f sl b)
    (hr : r ∈ g) : isPair a = true ∨ r.toNat < 16 := by
  obtain ⟨-, h⟩ := h
  cases a with
  | pair t e => exact .inl rfl
  | thread n e =>
    obtain ⟨-, -, -, -, hg, -⟩ := h
    exact .inr (hg r hr)

theorem State.issued_gr_named {s : State} {a : Agent} {g f : List (BitVec 5)} {sl b sl' b' : Nat} {r : BitVec 5}
    (h : s.canIssue a g f sl b) (hr : r ∈ g) : (s.issued a sl' b').gr a r = s.gr a r :=
  State.issued_gr _ _ _ _ _ (State.canIssue_g h hr)

/-! ### The forms of the integer instructions -/

/-- The answer `r` to an integer instruction: a next state in which the destination holds the value of its row. -/
def State.intAnswer (s : State) (o : IntOp) (r : Host.Outcome State Fault Refusal) : Prop :=
  ∃ t, r = .next t ∧ t.gr o.a o.rd = (if o.rd = 0 then 0 else o.val) ∧ t.pcOf o.a = s.pcOf o.a + 4
    ∧ s.onlyWrites t o.a 1 0 (if o.rd = 0 then [] else [gKeyOf o.a o.rd])

section
variable {s : State} {o : IntOp} {x y : BitVec 5}

theorem State.regReg_answer {op fn : Nat} {p : Profile} {f : Word → Word → Word} (h : s.canIssue o.a (o.rd :: o.src) [] 1 0)
    (hsrc : o.src = [x, y]) (hp : p = .both ∨ (p = .onlyP ∧ isPair o.a = true)) (hval : f (s.gr o.a x) (s.gr o.a y) = o.val) :
    s.intAnswer o (.next (s.regReg o.a op fn p o.rd x y f)) := by
  rw [hsrc] at h
  refine State.toReg_spec s o.a _ o.rd _ rfl rfl h List.mem_cons_self hp o.val ?_
  rw [State.issued_gr_named h (by simp), State.issued_gr_named h (by simp), hval]

theorem State.regImm_answer {op : Nat} {imm : BitVec 16} {f : Word → Word} (h : s.canIssue o.a (o.rd :: o.src) [] 1 0)
    (hsrc : o.src = [x]) (hval : f (s.gr o.a x) = o.val) : s.intAnswer o (.next (s.regImm o.a op o.rd x imm f)) := by
  rw [hsrc] at h
  refine State.toReg_spec s o.a _ o.rd _ rfl rfl h List.mem_cons_self (.inl rfl) o.val ?_
  rw [State.issued_gr_named h (by simp), hval]

theorem State.shiftImm_answer {fn : Nat} {k : BitVec 5} {f : Word → Nat → Word} (h : s.canIssue o.a (o.rd :: o.src) [] 1 0)
    (hsrc : o.src = [x]) (hval : f (s.gr o.a x) k.toNat = o.val) : s.intAnswer o (.next (s.shiftImm o.a fn o.rd x k f)) := by
  rw [hsrc] at h
  refine State.toReg_spec s o.a _ o.rd _ rfl rfl h List.mem_cons_self (.inl rfl) o.val ?_
  rw [State.issued_gr_named h (by simp), hval]

end

/-! ### The values of the rows (R220) -/

theorem flagWord_slt (x y : Word) : flagWord (x.slt y) = if x.toInt < y.toInt then 1 else 0 := by
  simp only [flagWord, BitVec.slt_eq_decide, decide_eq_true_eq]

theorem flagWord_ult (x y : Word) : flagWord (x.ult y) = if x.toNat < y.toNat then 1 else 0 := by
  simp only [flagWord, BitVec.ult_eq_decide, decide_eq_true_eq]

theorem flagWord_slt_sext (x : Word) (m : BitVec 16) : flagWord (x.slt (sext m)) = if x.toInt < m.toInt then 1 else 0 := by
  rw [flagWord_slt, sext, BitVec.toInt_signExtend_of_le (by decide)]

theorem ite_slt_eq_min (x y : Word) : (if x.slt y then x else y) = BitVec.ofInt 32 (min x.toInt y.toInt) := by
  rw [BitVec.slt_eq_decide]
  by_cases h : x.toInt < y.toInt
  · simp [h, min_eq_left h.le]
  · simp [h, min_eq_right (not_lt.mp h)]

theorem ite_slt_eq_max (x y : Word) : (if x.slt y then y else x) = BitVec.ofInt 32 (max x.toInt y.toInt) := by
  rw [BitVec.slt_eq_decide]
  by_cases h : x.toInt < y.toInt
  · simp [h, max_eq_right h.le]
  · simp [h, max_eq_left (not_lt.mp h)]

theorem ite_ult_eq_min (x y : Word) : (if x.ult y then x else y) = BitVec.ofNat 32 (min x.toNat y.toNat) := by
  rw [BitVec.ult_eq_decide]
  by_cases h : x.toNat < y.toNat
  · simp [h, min_eq_left h.le]
  · simp [h, min_eq_right (not_lt.mp h)]

theorem ite_ult_eq_max (x y : Word) : (if x.ult y then y else x) = BitVec.ofNat 32 (max x.toNat y.toNat) := by
  rw [BitVec.ult_eq_decide]
  by_cases h : x.toNat < y.toNat
  · simp [h, max_eq_right h.le]
  · simp [h, max_eq_left (not_lt.mp h)]

theorem zext_shiftLeft (m : BitVec 16) : zext m <<< 16 = BitVec.ofNat 32 (m.toNat * 2 ^ 16) := by
  have := m.isLt
  apply BitVec.eq_of_toNat_eq
  rw [zext, BitVec.toNat_shiftLeft, BitVec.toNat_setWidth, BitVec.toNat_ofNat, Nat.shiftLeft_eq, Nat.mod_eq_of_lt (a := m.toNat) (by omega)]

theorem mul_eq_ofNat (x y : Word) : x * y = BitVec.ofNat 32 (x.toNat * y.toNat) := by
  rw [BitVec.ofNat_mul, BitVec.ofNat_toNat, BitVec.ofNat_toNat, BitVec.setWidth_eq, BitVec.setWidth_eq]

/-- Every integer instruction that its agent can issue answers the value of its row. -/
theorem exec_intOp {i : Instr} {s : State} {o : IntOp} (ho : s.intOp i = some o) (hok : o.ok)
    (h : s.canIssue o.a (o.rd :: o.src) [] 1 0) : s.intAnswer o (Machine.exec i s) := by
  cases i with
  | add | sub | and | or | xor | sll | srl | sra | mulsh | muluh =>
    cases ho
    exact State.regReg_answer h rfl (.inl rfl) rfl
  | mul =>
    cases ho
    exact State.regReg_answer h rfl (.inl rfl) (mul_eq_ofNat _ _)
  | slt =>
    cases ho
    exact State.regReg_answer h rfl (.inl rfl) (flagWord_slt _ _)
  | sltu =>
    cases ho
    exact State.regReg_answer h rfl (.inl rfl) (flagWord_ult _ _)
  | min =>
    cases ho
    exact State.regReg_answer h rfl (.inl rfl) (ite_slt_eq_min _ _)
  | max =>
    cases ho
    exact State.regReg_answer h rfl (.inl rfl) (ite_slt_eq_max _ _)
  | minu =>
    cases ho
    exact State.regReg_answer h rfl (.inl rfl) (ite_ult_eq_min _ _)
  | maxu =>
    cases ho
    exact State.regReg_answer h rfl (.inl rfl) (ite_ult_eq_max _ _)
  | divs | divu | mods | modu =>
    cases ho
    exact State.regReg_answer h rfl (.inr ⟨rfl, hok rfl⟩) rfl
  | addi | andi | ori | xori =>
    cases ho
    exact State.regImm_answer h rfl rfl
  | slti =>
    cases ho
    exact State.regImm_answer h rfl (flagWord_slt_sext _ _)
  | sltiu =>
    cases ho
    exact State.regImm_answer h rfl (flagWord_ult _ _)
  | lui a rd imm =>
    cases ho
    exact State.toReg_spec s a _ rd _ rfl rfl h List.mem_cons_self (.inl rfl) _ (zext_shiftLeft imm)
  | slli | srli | srai =>
    cases ho
    exact State.shiftImm_answer h rfl rfl
  | _ => cases ho

/-! ### Division (R221) -/

theorem toInt_ofInt_of_range {i : Int} (hlo : -2 ^ 31 ≤ i) (hhi : i < 2 ^ 31) : (BitVec.ofInt 32 i).toInt = i := by
  rw [BitVec.toInt_ofInt]
  exact Int.bmod_eq_of_le (by omega) (by omega)

theorem word_toInt_range (x : Word) : -2 ^ 31 ≤ x.toInt ∧ x.toInt < 2 ^ 31 := ⟨BitVec.le_toInt x, BitVec.toInt_lt⟩

theorem toInt_ne_zero {y : Word} (hy : y ≠ 0) : y.toInt ≠ 0 := fun h => hy (BitVec.eq_of_toInt_eq h)

theorem modS_toInt {y : Word} (x : Word) (hy : y ≠ 0) : (modS x y).toInt = x.toInt.tmod y.toInt := by
  obtain ⟨hlo, hhi⟩ := word_toInt_range y
  have habs : (x.toInt.tmod y.toInt).natAbs < y.toInt.natAbs := by
    rw [Int.natAbs_tmod]
    exact Nat.mod_lt _ (Int.natAbs_pos.mpr (toInt_ne_zero hy))
  rw [modS, if_neg hy]
  exact toInt_ofInt_of_range (by omega) (by omega)

theorem natAbs_modS {y : Word} (x : Word) (hy : y ≠ 0) : (modS x y).toInt.natAbs < y.toInt.natAbs := by
  rw [modS_toInt x hy, Int.natAbs_tmod]
  exact Nat.mod_lt _ (Int.natAbs_pos.mpr (toInt_ne_zero hy))

/-- The one quotient out of range is that of the smallest number by -1. -/
theorem tdiv_lt_of_ne {x y : Word} (h : ¬(x = 0x80000000 ∧ y = 0xFFFFFFFF)) : x.toInt.tdiv y.toInt < 2 ^ 31 := by
  obtain ⟨hlo, hhi⟩ := word_toInt_range x
  by_contra hge
  have hquot : 2 ^ 31 ≤ (x.toInt.tdiv y.toInt).natAbs := by omega
  have habs : 2 ^ 31 ≤ x.toInt.natAbs / y.toInt.natAbs := hquot.trans_eq (Int.natAbs_tdiv _ _)
  have hle : x.toInt.natAbs / y.toInt.natAbs ≤ x.toInt.natAbs := Nat.div_le_self _ _
  have hx : x.toInt = -2 ^ 31 := by omega
  have hy : y.toInt.natAbs = 1 := by
    rw [hx] at habs
    generalize y.toInt.natAbs = n at habs
    rcases n with _ | _ | n
    · exact absurd habs (by decide)
    · rfl
    · exact absurd (habs.trans (Nat.div_le_div_left (c := 2) (by omega) (by decide))) (by decide)
  rcases Int.natAbs_eq_iff.mp hy with hone | hneg
  · rw [hx, hone] at hge
    exact hge (by decide)
  · exact h ⟨BitVec.eq_of_toInt_eq hx, BitVec.eq_of_toInt_eq hneg⟩

theorem divS_toInt {x y : Word} (hy : y ≠ 0) (h : ¬(x = 0x80000000 ∧ y = 0xFFFFFFFF)) :
    (divS x y).toInt = x.toInt.tdiv y.toInt := by
  obtain ⟨hlo, hhi⟩ := word_toInt_range x
  have habs : (x.toInt.tdiv y.toInt).natAbs ≤ x.toInt.natAbs := by
    rw [Int.natAbs_tdiv]
    exact Nat.div_le_self _ _
  rw [divS, if_neg hy, if_neg h]
  exact toInt_ofInt_of_range (by omega) (tdiv_lt_of_ne h)

theorem divS_mul_add_modS {x y : Word} (hy : y ≠ 0) (h : ¬(x = 0x80000000 ∧ y = 0xFFFFFFFF)) :
    (divS x y).toInt * y.toInt + (modS x y).toInt = x.toInt := by
  rw [divS_toInt hy h, modS_toInt x hy, Int.tdiv_mul_add_tmod]

theorem modS_sign {y : Word} (x : Word) (hy : y ≠ 0) :
    (modS x y).toInt = 0 ∨ ((modS x y).toInt < 0 ↔ x.toInt < 0) := by
  rw [modS_toInt x hy]
  by_cases hx : x.toInt < 0
  · have := Int.tmod_nonneg y.toInt (Int.neg_nonneg_of_nonpos hx.le)
    rw [Int.neg_tmod] at this
    omega
  · have := Int.tmod_nonneg y.toInt (not_lt.mp hx)
    omega

theorem divU_mul_add_modU {y : Word} (x : Word) (hy : y ≠ 0) :
    (divU x y).toNat * y.toNat + (modU x y).toNat = x.toNat ∧ (modU x y).toNat < y.toNat := by
  have hpos : 0 < y.toNat := Nat.pos_of_ne_zero fun h => hy (BitVec.eq_of_toNat_eq h)
  have hdiv : (divU x y).toNat = x.toNat / y.toNat := by
    rw [divU, if_neg hy, BitVec.toNat_ofNat, Nat.mod_eq_of_lt (lt_of_le_of_lt (Nat.div_le_self _ _) x.isLt)]
  have hmod : (modU x y).toNat = x.toNat % y.toNat := by
    rw [modU, if_neg hy, BitVec.toNat_ofNat, Nat.mod_eq_of_lt (lt_of_le_of_lt (Nat.mod_le _ _) x.isLt)]
  rw [hdiv, hmod]
  exact ⟨Nat.div_add_mod' _ _, Nat.mod_lt _ hpos⟩

theorem divS_zero (x : Word) : divS x 0 = if x.toInt < 0 then 0x80000000 else 0x7FFFFFFF := by
  simp [divS, BitVec.slt_eq_decide]

end Sys2Proof.Machine

open Sys2Proof.Machine

/-- Settles O1: each row runs in the issued state, which reads the registers as they were; the division rule is that of the quotient
toward zero. -/
theorem integerResults : Obligations.IntegerResults :=
  ⟨fun _ _ _ ho hok h => exec_intOp ho hok h,
    fun x _ hy h => ⟨divS_mul_add_modS hy h, natAbs_modS x hy, modS_sign x hy⟩, fun x _ hy => divU_mul_add_modU x hy,
    fun x => ⟨rfl, rfl, rfl, divS_zero x⟩, by decide, by decide⟩

end

section
/-! PROOFS. Branches and jumps (R231): where an instruction goes, what it links, and what it leaves alone. -/

namespace Sys2Proof.Machine

/-! ### Issue without an exception -/

/-- An agent that can issue an instruction of its profile does not find it illegal (R214, R215, R217). -/
theorem State.canIssue_legal {s : State} {a : Agent} {x : Form} {sl b : Nat} (h : s.canIssue a x.g x.f sl b)
    (hp : x.prof = .both ∨ (x.prof = .onlyP ∧ isPair a = true)) : x.illegal a = false := by
  obtain ⟨-, h⟩ := h
  cases a with
  | pair t e =>
    obtain ⟨-, -, -, -, hf, -⟩ := h
    have hprof : (x.prof == .onlyA) = false := by rcases hp with hp | ⟨hp, -⟩ <;> simp [hp]
    rw [Form.illegal, hprof, Bool.false_or, List.any_eq_false]
    exact fun r hr => by simpa using hf r hr
  | thread n e =>
    obtain ⟨-, -, -, -, hg, -⟩ := h
    have hprof : (x.prof == .onlyP) = false := by rcases hp with hp | ⟨-, hp⟩ <;> simp_all [isPair]
    rw [Form.illegal, hprof, Bool.false_or, List.any_eq_false]
    exact fun r hr => by simpa using hg r hr

/-- An instruction of its profile that the agent can issue takes its effect in the issued state. -/
theorem State.issueIns_legal {s : State} {a : Agent} {x : Form} {f : Effect} (h : s.canIssue a x.g x.f x.slots (f.beats s))
    (hp : x.prof = .both ∨ (x.prof = .onlyP ∧ isPair a = true)) :
    s.issueIns a x f = f.run (s.issued a x.slots (f.beats s)) :=
  State.issueIns_run s a x f h (State.canIssue_legal h hp)

theorem State.issued_pcOf (s : State) (a : Agent) (sl b : Nat) : (s.issued a sl b).pcOf a = s.pcOf a := by
  cases a with
  | pair t e => simp [State.issued, State.pcOf, State.ppc]
  | thread n e => simp [State.issued, State.pcOf]

/-! ### A taken branch -/

/-- Nothing but registers, meters, pairs, threads and Loupe's own part differs. -/
def TraceShape (s t : State) : Prop :=
  t = { s with regs := t.regs, meters := t.meters, pairs := t.pairs, threads := t.threads, dbg := t.dbg }

theorem TraceShape.trans {s t u : State} (h1 : TraceShape s t) (h2 : TraceShape t u) : TraceShape s u := by
  unfold TraceShape at *
  rw [h2, h1]

theorem Shape.traceShape {s t : State} (h : Shape s t) : TraceShape s t := by
  unfold Shape at h
  unfold TraceShape
  rw [h]

theorem TraceShape.tracePut (s : State) (on : Bool) (p : List Byte) : TraceShape s (s.tracePut on p) := by
  unfold TraceShape
  rw [State.tracePut_eq]

theorem TraceShape.branchTo (s : State) (a : Agent) (pc : Word) : TraceShape s (s.branchTo a pc) := by
  cases a with
  | pair t e => exact ((Shape.setReg ..).trans (Shape.updPair ..)).traceShape.trans (.tracePut ..)
  | thread n e => exact (Shape.updThr ..).traceShape

theorem State.reg_tracePc_ne (s : State) (t : Nat) (pc : Word) {k : Nat} (hk : k ≠ DBG_STAT) : (s.tracePc t pc).reg k = s.reg k :=
  State.reg_tracePut_ne _ _ _ hk

theorem State.reg_branchTo_ne (s : State) (a : Agent) (pc : Word) {k : Nat} (hk : k ∉ ownKeys a) (hd : k ≠ DBG_STAT) :
    (s.branchTo a pc).reg k = s.reg k := by
  cases a with
  | pair t e =>
    rw [ownKeys, List.mem_singleton] at hk
    rw [State.branchTo, State.reg_tracePc_ne _ _ _ hd, State.retirePair, State.reg_updPair, State.setPpc, State.reg_setReg_ne _ _ hk]
  | thread n e => rw [State.branchTo, State.setThPc, State.reg_updThr]

theorem State.pcOf_branchTo (s : State) (a : Agent) (pc : Word) : (s.branchTo a pc).pcOf a = pc := by
  cases a with
  | pair t e =>
    have hkey : pcKey t ≠ DBG_STAT := by simp only [pcKey, DBG_STAT]; omega
    simp only [State.branchTo, State.pcOf, State.ppc]
    rw [State.reg_tracePc_ne _ _ _ hkey, State.retirePair, State.reg_updPair, State.setPpc, State.reg_setReg_same]
  | thread n e => simp only [State.branchTo, State.pcOf, State.setThPc, State.thr_updThr_same _ _ _ n.isLt]

/-! ### The rows of R231 -/

/-- The answer `r` to a branch or jump. -/
def State.jumpAnswer (s : State) (o : JumpOp) (r : Host.Outcome State Fault Refusal) : Prop :=
  ∃ t, r = .next t ∧ t.pcOf o.a = (if o.taken then o.target else s.pcOf o.a + 4)
    ∧ (∀ rd, o.link = some rd → t.gr o.a rd = if rd = 0 then 0 else s.pcOf o.a + 4)
    ∧ (∀ k, k ∉ ownKeys o.a → (∀ rd, o.link = some rd → k ≠ gKeyOf o.a rd) → k ≠ DBG_STAT → t.reg k = s.reg k)
    ∧ t = { s with regs := t.regs, meters := t.meters, pairs := t.pairs, threads := t.threads, dbg := t.dbg }

theorem State.branchIns_answer {s : State} {o : JumpOp} {op : Nat} {x y : BitVec 5} {imm : BitVec 16} {f : Word → Word → Bool}
    (h : s.canIssue o.a o.g [] 1 0) (hg : o.g = [y, x]) (htaken : o.taken = f (s.gr o.a x) (s.gr o.a y))
    (htarget : o.target = s.pcOf o.a + imm.signExtend 32 * 4) (hlink : o.link = none) :
    s.jumpAnswer o (.next (s.branchIns o.a op y x imm f)) := by
  rw [hg] at h
  have hrun : s.branchIns o.a op y x imm f
      = if o.taken then (s.issued o.a 1 0).branchTo o.a o.target else (s.issued o.a 1 0).retireIns o.a := by
    rw [State.branchIns, State.issueIns_legal h (.inl rfl)]
    simp only [State.issued_gr_named h (r := x) (by simp), State.issued_gr_named h (r := y) (by simp), State.issued_pcOf, htaken,
      htarget, sext]
  refine ⟨_, rfl, ?_, fun rd hrd => ?_, fun k hk _ hd => ?_, ?_⟩ <;> rw [hrun]
  · split
    · exact State.pcOf_branchTo _ _ _
    · exact State.pcOf_retireIns s _ o.a 1 0 rfl fun t e ha => by simp [ha, State.issued]
  · rw [hlink] at hrd
    cases hrd
  · split
    · rw [State.reg_branchTo_ne _ _ _ hk hd, State.issued_reg _ _ _ _ _ hk]
    · rw [State.retireIns_reg _ _ _ hk, State.issued_reg _ _ _ _ _ hk]
  · split
    · exact (Shape.issued ..).traceShape.trans (.branchTo ..)
    · exact ((Shape.issued ..).trans (Shape.retireIns ..)).traceShape

/-- A jump that links in `rd`. -/
theorem State.link_answer {s : State} {o : JumpOp} {x : Form} {f : Effect} {rd : BitVec 5} (h : s.canIssue o.a o.g [] 1 0)
    (hform : x.g = o.g ∧ x.f = [] ∧ x.slots = 1 ∧ x.prof = .both) (hbeats : f.beats s = 0) (hrd : rd ∈ o.g)
    (htaken : o.taken = true) (hlink : o.link = some rd)
    (hrun : f.run (s.issued o.a 1 0) = ((s.issued o.a 1 0).setGr o.a rd (s.pcOf o.a + 4)).branchTo o.a o.target) :
    s.jumpAnswer o (.next (s.issueIns o.a x f)) := by
  obtain ⟨hg, hf, hs, hp⟩ := hform
  have hreg := gKey_own o.a rd (State.canIssue_g h hrd)
  have hdbg : gKeyOf o.a rd ≠ DBG_STAT := by
    have := rd.isLt
    cases o.a with
    | pair t e => simp only [gKeyOf, gKey, DBG_STAT]; omega
    | thread n e => have := n.isLt; simp only [gKeyOf, AEN_TG, DBG_STAT]; omega
  have hissue : s.issueIns o.a x f = ((s.issued o.a 1 0).setGr o.a rd (s.pcOf o.a + 4)).branchTo o.a o.target := by
    rw [State.issueIns_legal (by rwa [hg, hf, hs, hbeats]) (.inl hp), hs, hbeats, hrun]
  refine ⟨_, rfl, ?_, fun rd' hrd' => ?_, fun k hk hne hd => ?_, ?_⟩ <;> rw [hissue]
  · rw [State.pcOf_branchTo, htaken, if_pos rfl]
  · obtain rfl : rd = rd' := Option.some.inj (hlink.symm.trans hrd')
    rw [State.gr_eq, State.reg_branchTo_ne _ _ _ hreg hdbg, State.setGr_eq]
    split
    · rfl
    · exact State.reg_setReg_same _ _ _
  · rw [State.reg_branchTo_ne _ _ _ hk hd, State.setGr_eq]
    split
    · exact State.issued_reg _ _ _ _ _ hk
    · rw [State.reg_setReg_ne _ _ (hne rd hlink), State.issued_reg _ _ _ _ _ hk]
  · have hset : Shape (s.issued o.a 1 0) ((s.issued o.a 1 0).setGr o.a rd (s.pcOf o.a + 4)) := by
      rw [State.setGr_eq]
      split
      · rfl
      · exact Shape.setReg ..
    exact ((Shape.issued ..).trans hset).traceShape.trans (.branchTo ..)

theorem not_slt_eq_decide (x y : Word) : (!x.slt y) = decide (y.toInt ≤ x.toInt) := by
  simp only [BitVec.slt_eq_decide, ← decide_not, not_lt]

theorem not_ult_eq_decide (x y : Word) : (!x.ult y) = decide (y.toNat ≤ x.toNat) := by
  simp only [BitVec.ult_eq_decide, ← decide_not, not_lt]

/-- Every branch and jump that its agent can issue goes where its row says. -/
theorem exec_jumpOp {i : Instr} {s : State} {o : JumpOp} (ho : s.jumpOp i = some o) (h : s.canIssue o.a o.g [] 1 0) :
    s.jumpAnswer o (Machine.exec i s) := by
  cases i with
  | beq | bne =>
    cases ho
    exact State.branchIns_answer h rfl rfl rfl rfl
  | blt =>
    cases ho
    exact State.branchIns_answer h rfl (BitVec.slt_eq_decide ..).symm rfl rfl
  | bge =>
    cases ho
    exact State.branchIns_answer h rfl (not_slt_eq_decide _ _).symm rfl rfl
  | bltu =>
    cases ho
    exact State.branchIns_answer h rfl (BitVec.ult_eq_decide ..).symm rfl rfl
  | bgeu =>
    cases ho
    exact State.branchIns_answer h rfl (not_ult_eq_decide _ _).symm rfl rfl
  | jal a rd imm =>
    cases ho
    refine State.link_answer h ⟨rfl, rfl, rfl, rfl⟩ rfl List.mem_cons_self rfl rfl ?_
    dsimp only
    rw [State.issued_pcOf, sext]
  | jalr a rd x imm =>
    cases ho
    refine State.link_answer h ⟨rfl, rfl, rfl, rfl⟩ rfl List.mem_cons_self rfl rfl ?_
    dsimp only
    rw [State.issued_pcOf, State.issued_gr_named h (by simp), sext]
  | _ => cases ho

end Sys2Proof.Machine

open Sys2Proof.Machine

/-- Settles O2: a branch or jump runs in the issued state, and what it writes beside its pc is its link and the trace. -/
theorem jumpResults : Obligations.JumpResults := fun _ _ _ ho h => exec_jumpOp ho h

end

section
/-! PROOFS. The floating-point instructions (R215, R237, R238): destination, flags and frame of each row. -/

namespace Sys2Proof.Machine

/-! ### What a pair reads in the issued state -/

section
variable (s : State) (t : Fin 4) (e : Ecc) (sl b : Nat) (r : BitVec 5)

theorem State.issued_reg_pair (k : Nat) : (s.issued (.pair t e) sl b).reg k = s.reg k := by simp [State.issued]

theorem State.issued_fr : (s.issued (.pair t e) sl b).fr (.pair t e) r = s.freg t r := State.issued_reg_pair ..

theorem State.issued_rm : (s.issued (.pair t e) sl b).rm (.pair t e) = s.rmOf t := by
  simp only [State.rm, State.csr, State.issued_reg_pair, State.rmOf]

theorem State.issued_gr_pair : (s.issued (.pair t e) sl b).gr (.pair t e) r = s.pg t r.toNat := State.issued_gr _ _ _ _ _ (.inl rfl)

end

/-! ### Destinations -/

/-- The state with the destination written: none is g0, a write to which is discarded (R213). -/
def State.setDst (s : State) (dst : Option Nat) (w : Word) : State := (dst.map fun k => s.setReg k w).getD s

section
variable (s : State) (t : Fin 4) (e : Ecc) (r : BitVec 5) (w : Word)

theorem State.setGr_eq_setDst : s.setGr (.pair t e) r w = s.setDst (gDst t r) w := by
  rw [State.setGr_eq, gDst]
  split <;> rfl

/-- A destination is a general or a floating-point register of the pair: neither its FCSR nor its pc. -/
def fpDst (t : Fin 4) (dst : Option Nat) : Prop := ∀ k, dst = some k → k < csrKey t 0 ∧ pcKey t ≠ k

theorem fpDst_gDst : fpDst t (gDst t r) := by
  intro k hk
  have := r.isLt
  unfold gDst at hk
  split at hk
  · cases hk
  · cases hk
    simp only [gKey, csrKey, pcKey]
    omega

theorem fpDst_fKey (h : r.toNat < 16) : fpDst t (some (fKey t r.toNat)) := by
  intro k hk
  cases hk
  simp only [fKey, csrKey, pcKey]
  omega

theorem State.reg_setDst_ne {dst : Option Nat} {k : Nat} (h : k ∉ dst.toList) : (s.setDst dst w).reg k = s.reg k := by
  cases dst with
  | none => rfl
  | some d => exact State.reg_setReg_ne _ _ (by simpa using h)

theorem State.RegsDiffer.setDst (dst : Option Nat) : s.RegsDiffer (s.setDst dst w) := by
  cases dst with
  | none => exact .refl s
  | some d => exact .setReg ..

end

/-! ### The forms of the floating-point instructions -/

/-- The answer `r` to a floating-point instruction. -/
def State.fpAnswer (s : State) (o : FpOp) (r : Host.Outcome State Fault Refusal) : Prop :=
  ∃ t, r = .next t ∧ (∀ k, o.dst = some k → t.reg k = o.res.1)
    ∧ t.csr o.t csFCSR = s.csr o.t csFCSR ||| BitVec.ofNat 32 (o.res.2 % 32 * 16) ∧ t.ppc o.t = s.ppc o.t + 4
    ∧ s.onlyWrites t (.pair o.t o.e) 1 0 (csrKey o.t csFCSR :: o.dst.toList)

section
variable {s : State} {o : FpOp} {fn : Nat} {d x y : BitVec 5}

/-- An instruction that changes registers alone and completes: its pc and its frame. -/
theorem State.onlyWrites_regs (s : State) {u : State} {a : Agent} {sl b : Nat} {ks : List Nat} (hu : (s.issued a sl b).RegsDiffer u)
    (hks : ∀ t e, a = .pair t e → pcKey t ∉ ks) (hreg : ∀ k, k ∉ ks → u.reg k = (s.issued a sl b).reg k) :
    (u.retireIns a).pcOf a = s.pcOf a + 4 ∧ s.onlyWrites (u.retireIns a) a sl b ks := by
  have hshape : Shape (s.issued a sl b) u := by
    unfold Shape
    rw [hu]
  have hthreads : u.threads = (s.issued a sl b).threads := by rw [hu]
  refine ⟨State.pcOf_retireIns s u a sl b hthreads ?_, State.onlyWrites_retire s u a sl b ks hshape ?_ ?_ hthreads hreg⟩
  · rintro t e rfl
    rw [hreg _ (hks t e rfl), State.issued_reg_pair]
  · rw [hu]
  · rw [hu]

/-- The destination takes the result, FCSR the flags, and the instruction completes. -/
theorem State.fpTaken_answer (hdst : fpDst o.t o.dst) :
    s.fpAnswer o (.next ((((s.issued (.pair o.t o.e) 1 0).setDst o.dst o.res.1).addFlags (.pair o.t o.e) o.res.2).retireIns
      (.pair o.t o.e))) := by
  have hcsr : csrKey o.t csFCSR ∉ o.dst.toList := fun h => by
    obtain ⟨hlt, -⟩ := hdst _ (by simpa using h)
    exact absurd hlt (by simp only [csrKey]; omega)
  have hpc : pcKey o.t ∉ csrKey o.t csFCSR :: o.dst.toList := by
    rw [List.mem_cons, not_or]
    exact ⟨by simp only [pcKey, csrKey, csFCSR]; omega, fun h => (hdst _ (by simpa using h)).2 rfl⟩
  have hdiff : (s.issued (.pair o.t o.e) 1 0).RegsDiffer
      (((s.issued (.pair o.t o.e) 1 0).setDst o.dst o.res.1).addFlags (.pair o.t o.e) o.res.2) :=
    (State.RegsDiffer.setDst ..).trans (.setReg ..)
  have hreg : ∀ k, k ∉ csrKey o.t csFCSR :: o.dst.toList →
      (((s.issued (.pair o.t o.e) 1 0).setDst o.dst o.res.1).addFlags (.pair o.t o.e) o.res.2).reg k
        = (s.issued (.pair o.t o.e) 1 0).reg k := fun k hk => by
    rw [List.mem_cons, not_or] at hk
    exact (State.reg_setReg_ne _ _ hk.1).trans (State.reg_setDst_ne _ _ hk.2)
  obtain ⟨hnext, hframe⟩ := s.onlyWrites_regs hdiff (fun t e ha => by cases ha; exact hpc) hreg
  refine ⟨_, rfl, fun k hk => ?_, ?_, hnext, hframe⟩
  · obtain ⟨hlt, hne⟩ := hdst k hk
    rw [State.retireIns_reg _ _ _ (by simpa [ownKeys] using hne.symm), State.addFlags, State.setCsr,
      State.reg_setReg_ne _ _ (by simp only [csrKey] at *; omega), hk]
    exact State.reg_setReg_same _ _ _
  · rw [State.csr, State.retireIns_reg _ _ _ (by simp only [ownKeys, List.mem_singleton, csrKey, pcKey, csFCSR]; omega),
      State.addFlags, State.setCsr, State.reg_setReg_same, State.csr, State.reg_setDst_ne _ _ hcsr, State.issued_reg_pair, State.csr]

variable (h : s.canIssue (.pair o.t o.e) o.g o.f 1 0)
include h

theorem State.canIssue_f {r : BitVec 5} (hr : r ∈ o.f) : r.toNat < 16 := by
  obtain ⟨-, -, -, -, -, hf, -⟩ := h
  exact hf r hr

theorem State.toF_answer {v : State → Word × Nat} (hd : d ∈ o.f) (hdst : o.dst = some (fKey o.t d.toNat))
    (hres : v (s.issued (.pair o.t o.e) 1 0) = o.res) :
    s.fpAnswer o (.next (s.toF (.pair o.t o.e) (fpForm fn d x y o.g o.f) d v)) := by
  have hkey : fpDst o.t o.dst := hdst ▸ fpDst_fKey o.t d (State.canIssue_f h hd)
  have hrun : s.toF (.pair o.t o.e) (fpForm fn d x y o.g o.f) d v
      = (((s.issued (.pair o.t o.e) 1 0).setDst o.dst o.res.1).addFlags (.pair o.t o.e) o.res.2).retireIns (.pair o.t o.e) := by
    rw [State.toF, State.issueIns_legal (x := fpForm fn d x y o.g o.f) h (.inr ⟨rfl, rfl⟩), hdst, ← hres]
    rfl
  rw [hrun]
  exact State.fpTaken_answer hkey

theorem State.toG_answer {v : State → Word × Nat} (hdst : o.dst = gDst o.t d) (hres : v (s.issued (.pair o.t o.e) 1 0) = o.res) :
    s.fpAnswer o (.next (s.toG (.pair o.t o.e) (fpForm fn d x y o.g o.f) d v)) := by
  have hkey : fpDst o.t o.dst := hdst ▸ fpDst_gDst o.t d
  have hrun : s.toG (.pair o.t o.e) (fpForm fn d x y o.g o.f) d v
      = (((s.issued (.pair o.t o.e) 1 0).setDst o.dst o.res.1).addFlags (.pair o.t o.e) o.res.2).retireIns (.pair o.t o.e) := by
    rw [State.toG, State.issueIns_legal (x := fpForm fn d x y o.g o.f) h (.inr ⟨rfl, rfl⟩), hdst, ← State.setGr_eq_setDst, ← hres]
    rfl
  rw [hrun]
  exact State.fpTaken_answer hkey

end

/-- Every floating-point instruction that its pair can issue answers the result and the flags of its row. -/
theorem exec_fpOp {i : Instr} {s : State} {o : FpOp} (ho : s.fpOp i = some o) (h : s.canIssue (.pair o.t o.e) o.g o.f 1 0) :
    s.fpAnswer o (Machine.exec i s) := by
  unfold State.fpOp at ho
  split at ho
  case h_26 => cases ho
  -- The rows with their result in a general register.
  case h_13 | h_14 | h_15 | h_16 | h_17 | h_18 | h_21 =>
    cases ho
    refine State.toG_answer h rfl ?_
    simp only [State.issued_fr, State.issued_rm]
  all_goals
    cases ho
    refine State.toF_answer h List.mem_cons_self rfl ?_
    simp only [State.issued_fr, State.issued_rm, State.issued_gr_pair, fAbs, fNeg]

end Sys2Proof.Machine

open Sys2Proof.Machine

/-- Settles O6: each row runs in the issued state, which reads the pair's registers as they were. -/
theorem floatResults : Obligations.FloatResults := fun _ _ _ ho h => exec_fpOp ho h

end

section
/-! PROOFS. Exceptions (R217, R224, R228, R247 to R251) and the protection regions of a pair (R286). -/

namespace Sys2Proof.Machine

/-! ### The entry sequence of a pair (R249, R329) -/

theorem csrKey_inj (p : Nat) {c d : Nat} : csrKey p c = csrKey p d ↔ c = d := by simp only [csrKey]; omega

theorem csrKey_ne_pcKey (p : Nat) {c : Nat} (hc : c < 13) : csrKey p c ≠ pcKey p := by simp only [csrKey, pcKey]; omega

theorem csrKey_ne_DBG_STAT (p c : Nat) : csrKey p c ≠ DBG_STAT := by simp only [csrKey, DBG_STAT]; omega

theorem csrKey_ne_IRQ_RUN (p : Fin 4) (c : Nat) : csrKey p c ≠ IRQ_RUN p := by simp only [csrKey, IRQ_RUN]; omega

section
variable (s : State) (p : Fin 4)

/-- The registers at the start of a handler. -/
theorem State.reg_toHandler (cause : Nat) (eval off : Word) {k : Nat} (hk : k ≠ DBG_STAT) : (s.toHandler p cause eval off).reg k
    = if k = pcKey p then (s.csr p csVBASE &&& 0xFFFFFF00) + off else if k = csrKey p csSTATUS then 2
      else if k = csrKey p csEVAL then eval else if k = csrKey p csECAUSE then BitVec.ofNat 32 cause else s.reg k := by
  rw [State.toHandler, State.reg_tracePc_ne _ _ _ hk]
  simp only [State.setPpc, State.setCsr, State.reg_setReg]

theorem State.toHandler_mem (cause : Nat) (eval off : Word) : (s.toHandler p cause eval off).mem = s.mem := by
  have h := TraceShape.tracePut
    ((((s.setCsr p csECAUSE (BitVec.ofNat 32 cause)).setCsr p csEVAL eval).setCsr p csSTATUS 2).setPpc p
      ((s.csr p csVBASE &&& 0xFFFFFF00) + off))
  unfold TraceShape at h
  rw [State.toHandler, State.tracePc, h]
  rfl

/-- The state with the frame stacked and EPC set, from which the handler begins. -/
def State.framed (epc : Word) : State :=
  (((s.wrBytes (frameKey p (s.frames p)) (wordsToBytes (s.frameWords p))).setFld (IRQ_RUN p) IRQ_RUN_DEPTH
    (s.frames p + 1)).setCsr p csEPC epc)

theorem State.frames_wrBytes (a : Nat) (l : List Byte) : (s.wrBytes a l).frames p = s.frames p := by
  simp only [State.frames, State.fld, State.reg, State.wrBytes_regs]

/-- An exception with room for a frame and no load into g1 to g3 outstanding. -/
theorem State.pairTrap_eq (cause : Nat) (eval : Word) (hscratch : s.scratchReady p) (hframes : s.frames p < 64) :
    s.pairTrap p cause eval = (s.framed p (s.ppc p)).toHandler p cause eval 0 := by
  have hsettle : s.settle p [1, 2, 3] = s := by
    refine State.settle_none _ _ _ fun d hd => ?_
    obtain ⟨h1, h2, h3⟩ := hscratch d hd
    simp [h1, h2, h3]
  rw [State.pairTrap, State.pairEnter, if_neg (Nat.not_le.mpr hframes), hsettle]
  simp only [State.frames_wrBytes, Bool.false_eq_true, if_false]
  rfl

theorem State.reg_framed (epc : Word) (k : Nat) : (s.framed p epc).reg k = if k = csrKey p csEPC then epc
    else if k = IRQ_RUN p then IRQ_RUN_DEPTH.set (s.reg (IRQ_RUN p)) (s.frames p + 1) else s.reg k := by
  have hregs : ∀ (a : Nat) (l : List Byte) (k : Nat), (s.wrBytes a l).reg k = s.reg k := fun a l k => by
    simp only [State.reg, State.wrBytes_regs]
  simp only [State.framed, State.setCsr, State.setFld, State.reg_setReg, hregs]

theorem State.pairTrap_entered (cause : Nat) (eval : Word) (hscratch : s.scratchReady p) (hframes : s.frames p < 64) :
    s.entered (s.pairTrap p cause eval) p (s.ppc p) cause eval 0 := by
  rw [State.pairTrap_eq s p cause eval hscratch hframes]
  have hmem : ((s.framed p (s.ppc p)).toHandler p cause eval 0).mem
      = (s.wrBytes (frameKey p (s.frames p)) (wordsToBytes (s.frameWords p))).mem := State.toHandler_mem ..
  have hcsr : ∀ c, ((s.framed p (s.ppc p)).toHandler p cause eval 0).csr p c = if csrKey p c = pcKey p then
      ((s.framed p (s.ppc p)).csr p csVBASE &&& 0xFFFFFF00) + 0 else if c = csSTATUS then 2 else if c = csEVAL then eval
      else if c = csECAUSE then BitVec.ofNat 32 cause else (s.framed p (s.ppc p)).csr p c := fun c => by
    rw [State.csr, State.reg_toHandler _ _ _ _ _ (csrKey_ne_DBG_STAT p c)]
    simp only [csrKey_inj, State.csr]
  have hvbase : (s.framed p (s.ppc p)).csr p csVBASE = s.csr p csVBASE := by
    rw [State.csr, State.reg_framed, if_neg ((csrKey_inj p).not.mpr (by decide)), if_neg (csrKey_ne_IRQ_RUN p _), State.csr]
  refine ⟨?_, ?_, ?_, ?_, ?_, ?_, ?_, fun k hk => ?_⟩
  · rw [hcsr, if_neg (csrKey_ne_pcKey p (by decide)), if_neg (by decide), if_neg (by decide), if_neg (by decide), State.csr,
      State.reg_framed, if_pos rfl]
  · rw [hcsr, if_neg (csrKey_ne_pcKey p (by decide)), if_neg (by decide), if_neg (by decide), if_pos rfl]
  · rw [hcsr, if_neg (csrKey_ne_pcKey p (by decide)), if_neg (by decide), if_pos rfl]
  · rw [hcsr, if_neg (csrKey_ne_pcKey p (by decide)), if_pos rfl]
  · rw [State.ppc, State.reg_toHandler _ _ _ _ _ (by simp only [pcKey, DBG_STAT]; omega), if_pos rfl, hvbase]
  · have hrun : ((s.framed p (s.ppc p)).toHandler p cause eval 0).reg (IRQ_RUN p)
        = IRQ_RUN_DEPTH.set (s.reg (IRQ_RUN p)) (s.frames p + 1) := by
      have hne := csrKey_ne_IRQ_RUN p
      rw [State.reg_toHandler _ _ _ _ _ (by simp only [IRQ_RUN, DBG_STAT]; omega), if_neg (by simp only [IRQ_RUN, pcKey]; omega),
        if_neg (hne _).symm, if_neg (hne _).symm, if_neg (hne _).symm, State.reg_framed, if_neg (hne _).symm, if_pos rfl]
    rw [State.frames, State.fld, hrun, Fld.get_set_same _ _ _ (by decide)]
    exact Nat.mod_eq_of_lt (Nat.lt_of_le_of_lt hframes (by decide))
  · rw [State.rdBytes_congr hmem]
    exact State.rdBytes_wrBytes _ _ _
  · rw [State.rd8_congr hmem]
    exact State.rd8_wrBytes_out _ _ _ _ hk

theorem State.issued_regs_pair (e : Ecc) (sl b : Nat) : (s.issued (.pair p e) sl b).regs = s.regs := by simp [State.issued]

theorem State.issued_mem_pair (e : Ecc) (sl b : Nat) : (s.issued (.pair p e) sl b).mem = s.mem := by simp [State.issued]

theorem State.issued_loads (e : Ecc) (sl b : Nat) : ((s.issued (.pair p e) sl b).pair p).loads = (s.pair p).loads := by
  rw [State.issued, State.useStep, State.pair_updPair_same _ _ _ p.isLt, State.pair_budDraw]

theorem State.entered_congr {u : State} (hr : u.regs = s.regs) (hm : u.mem = s.mem) (t : State) (epc : Word) (cause : Nat)
    (eval vector : Word) (h : u.entered t p epc cause eval vector) : s.entered t p epc cause eval vector := by
  have hreg : ∀ k, u.reg k = s.reg k := fun k => by rw [State.reg, hr, State.reg]
  simpa only [State.entered, State.csr, State.frames, State.fld, State.runp, State.pg, hreg, State.rd8_congr hm] using h

/-- An exception in the issued state is one of the state before the issue. -/
theorem State.issued_trap (e : Ecc) (sl b cause : Nat) (eval : Word) (hscratch : s.scratchReady p) (hframes : s.frames p < 64) :
    s.entered ((s.issued (.pair p e) sl b).pairTrap p cause eval) p (s.ppc p) cause eval 0 := by
  have hpc : (s.issued (.pair p e) sl b).ppc p = s.ppc p := State.issued_reg_pair ..
  have hin : (s.issued (.pair p e) sl b).frames p = s.frames p := by
    rw [State.frames, State.fld, State.issued_reg_pair, ← State.fld, ← State.frames]
  have henter := (s.issued (.pair p e) sl b).pairTrap_entered p cause eval (by rwa [State.scratchReady, State.issued_loads])
    (hin ▸ hframes)
  rw [hpc] at henter
  exact s.entered_congr p (s.issued_regs_pair p e sl b) (s.issued_mem_pair p e sl b) _ _ _ _ _ henter

theorem exec_illegal_pair {w : Word} (hw : wordLegalP w = false) (h : s.canIssue (.pair p .clean) [] [] 1 0) :
    Machine.exec (.illegal (.pair p .clean) w) s = .next ((s.issued (.pair p .clean) 1 0).pairTrap p excILLEGAL w) := by
  change execIllegal (.pair p .clean) w s = _
  simp only [execIllegal, hw, Bool.false_eq_true, if_false]
  rw [State.issueIns_legal h (.inl rfl)]
  rfl

end

/-! ### An exception of a thread (R251, R258) -/

/-- BLOCK, KIND and class of a fault message (R550). -/
theorem faultWord_fields (blk unit kind cls detail : Nat) : (faultWord blk unit kind cls 0 detail).toNat / 2 ^ 58 = blk % 64
    ∧ (faultWord blk unit kind cls 0 detail).toNat / 2 ^ 46 % 256 = kind % 256
    ∧ (faultWord blk unit kind cls 0 detail).toNat / 2 ^ 44 % 4 = cls % 4 := by
  have hblk : blk % 64 < 64 := Nat.mod_lt _ (by decide)
  have hunit : unit % 16 < 16 := Nat.mod_lt _ (by decide)
  have hkind : kind % 256 < 256 := Nat.mod_lt _ (by decide)
  have hcls : cls % 4 < 4 := Nat.mod_lt _ (by decide)
  have hdetail : detail % 2 ^ 32 < 2 ^ 32 := Nat.mod_lt _ (by decide)
  rw [faultWord, BitVec.toNat_ofNat]
  generalize blk % 64 = a, unit % 16 = b, kind % 256 = c, cls % 4 = d, detail % 2 ^ 32 = e at *
  omega

section
variable (s : State) (n : Fin 64)

/-- Beside registers and the trace, an exception of a thread changes the items in flight alone: its event and its message. -/
theorem State.threadTrap_rest (code : Nat) (eval : Word) :
    (s.threadTrap n code eval).mem = s.mem ∧ (s.threadTrap n code eval).threads = s.threads
      ∧ (s.threadTrap n code eval).inflight = s.inflight ++ [evtItem AEN_EVT (AEN_EVT_FAULT0 + n / 32)]
        ++ [faultItem blkAEN (n / 32) 0x10 clsU (s.thPc n % 2 ^ 18 + 2 ^ 18 * n + 2 ^ 24 * code)] := by
  have hset : s.RegsDiffer ((((s.setReg (AEN_TFC n) (BitVec.ofNat 32 code)).setReg (AEN_TFAD n)
      (BitVec.ofNat 32 (s.thPc n % 2 ^ 18))).setReg (AEN_TFVAL n) eval).setTh n thFAULTED) :=
    (((State.RegsDiffer.setReg ..).trans (.setReg ..)).trans (.setReg ..)).trans (.setTh ..)
  rw [State.threadTrap, State.sendFault_spec, State.traceThr, State.tracePut_eq, State.raise_spec, hset]
  exact ⟨rfl, rfl, rfl⟩

/-- The registers of the engines below those of the general registers that an exception leaves as the trap registers set them. -/
theorem State.reg_threadTrap (code : Nat) (eval : Word) {k : Nat} (ht : k ≠ AEN_TSTAT n) (hs : k ≠ AEN_STAT) (he : k ≠ AEN_EVT)
    (hd : k ≠ DBG_STAT) : (s.threadTrap n code eval).reg k = if k = AEN_TFVAL n then eval
      else if k = AEN_TFAD n then BitVec.ofNat 32 (s.thPc n % 2 ^ 18) else if k = AEN_TFC n then BitVec.ofNat 32 code
      else s.reg k := by
  rw [State.threadTrap, State.sendFault, State.reg_launch, State.traceThr, State.reg_tracePut_ne _ _ _ hd, State.raise, State.reg_launch,
    State.reg_setBit_ne _ _ _ he, State.reg_setTh_ne _ ht hs]
  simp only [State.reg_setReg]

theorem State.thState_threadTrap (code : Nat) (eval : Word) : (s.threadTrap n code eval).thState n = thFAULTED := by
  have hlt := n.isLt
  rw [State.thState, State.fld, State.threadTrap, State.sendFault, State.reg_launch, State.traceThr,
    State.reg_tracePut_ne _ _ _ (by simp only [AEN_TSTAT, DBG_STAT]; omega), State.raise, State.reg_launch,
    State.reg_setBit_ne _ _ _ (by simp only [AEN_TSTAT, AEN_EVT]; omega), ← State.fld, ← State.thState]
  exact State.thState_setTh_same _ _ (by decide) (by decide)

/-- An illegal word on a thread (R217, R251). -/
theorem illegal_thread_spec {w : Word} (hw : wordLegalA w = false) (h : s.canIssue (.thread n .clean) [] [] 1 0) :
    ∃ t, Machine.exec (.illegal (.thread n .clean) w) s = .next t
      ∧ t.thState n = 4 ∧ t.reg (AEN_TFC n) = 1 ∧ t.reg (AEN_TFAD n) = BitVec.ofNat 32 (s.thPc n) ∧ t.reg (AEN_TFVAL n) = w
      ∧ t.thr n = s.thr n ∧ t.mem = s.mem
      ∧ (∃ m, ⟨.angle, .guard, .fault m⟩ ∈ t.inflight ∧ m.toNat / 2 ^ 58 = 8 ∧ m.toNat / 2 ^ 46 % 256 = 0x10
          ∧ m.toNat / 2 ^ 44 % 4 = 2) := by
  have hlt := n.isLt
  have hfetch : s.thMayFetch n (s.thPc n) = true := h.2.2.2.2.1
  have hpc : s.thPc n % 2 ^ 18 = s.thPc n := by
    rw [State.thMayFetch, Bool.and_eq_true, decide_eq_true_eq] at hfetch
    exact Nat.mod_eq_of_lt hfetch.1
  have hissued : (s.issued (.thread n .clean) 1 0).thr n = s.thr n := (s.issued_calendar n 1 0).2.2.2.2.2
  have hpcu : (s.issued (.thread n .clean) 1 0).thPc n = s.thPc n := by rw [State.thPc, hissued, State.thPc]
  have hexec : Machine.exec (.illegal (.thread n .clean) w) s
      = .next ((s.issued (.thread n .clean) 1 0).threadTrap n excILLEGAL w) := by
    change execIllegal (.thread n .clean) w s = _
    simp only [execIllegal, hw, Bool.false_eq_true, if_false]
    rw [State.issueIns_legal h (.inl rfl)]
    rfl
  have hreg {k : Nat} (hk : k = AEN_TFC n ∨ k = AEN_TFAD n ∨ k = AEN_TFVAL n) := (s.issued (.thread n .clean) 1 0).reg_threadTrap n
    excILLEGAL w (k := k) (by simp only [AEN_TSTAT, AEN_TFC, AEN_TFAD, AEN_TFVAL] at *; omega)
    (by simp only [AEN_STAT, AEN_TFC, AEN_TFAD, AEN_TFVAL] at *; omega)
    (by simp only [AEN_EVT, AEN_TFC, AEN_TFAD, AEN_TFVAL] at *; omega)
    (by simp only [DBG_STAT, AEN_TFC, AEN_TFAD, AEN_TFVAL] at *; omega)
  obtain ⟨hmem, hthreads, hsent⟩ := (s.issued (.thread n .clean) 1 0).threadTrap_rest n excILLEGAL w
  refine ⟨_, hexec, State.thState_threadTrap _ _ _ _, ?_, ?_, ?_, ?_, hmem.trans (s.issued_mem n 1 0), _,
    hsent ▸ List.mem_append_right _ (List.mem_singleton_self _), ?_⟩
  · rw [hreg (.inl rfl), if_neg (by simp only [AEN_TFC, AEN_TFVAL]; omega), if_neg (by simp only [AEN_TFC, AEN_TFAD]; omega), if_pos rfl]
    rfl
  · rw [hreg (.inr (.inl rfl)), if_neg (by simp only [AEN_TFAD, AEN_TFVAL]; omega), if_pos rfl, hpcu, hpc]
  · rw [hreg (.inr (.inr rfl)), if_pos rfl]
  · exact (State.thr_congr _ n hthreads).trans hissued
  · exact faultWord_fields ..

end

/-! ### Loads and stores that trap (R224, R228) -/

theorem State.reg_congr {s u : State} (h : u.regs = s.regs) (k : Nat) : u.reg k = s.reg k := by rw [State.reg, h, State.reg]

theorem State.bit_congr {s u : State} (h : u.regs = s.regs) (k i : Nat) : u.bit k i = s.bit k i := by
  rw [State.bit, State.reg_congr h, State.bit]

theorem State.fld_congr {s u : State} (h : u.regs = s.regs) (k : Nat) (f : Fld) : u.fld k f = s.fld k f := by
  rw [State.fld, State.reg_congr h, State.fld]

theorem State.atS_congr {s u : State} (h : u.regs = s.regs) (t : Nat) : u.atS t = s.atS t := by
  rw [State.atS, State.csr, State.reg_congr h, State.atS, State.csr]

theorem State.covers_congr {s u : State} (h : u.regs = s.regs) (t r x : Nat) : u.covers t r x = s.covers t r x := by
  rw [State.covers, State.bit_congr h, State.fld_congr h, State.fld_congr h, State.covers]

theorem State.protOk_congr {s u : State} (h : u.regs = s.regs) (t x : Nat) (use : Use) : u.protOk t x use = s.protOk t x use := by
  have hregion : u.decidingRegion t x = s.decidingRegion t x := by
    simp only [State.decidingRegion, State.covers_congr h]
  have hbit : ∀ k, u.bit k = s.bit k := fun k => funext (State.bit_congr h k)
  unfold State.protOk
  rw [hregion]
  simp only [hbit, State.atS_congr h]

/-- The form of a load or store: it names the registers of its row, its address register among them, and has its profile. -/
structure AccessForm (x : Form) (g f : List (BitVec 5)) (pOnly : Bool) (rs1 : BitVec 5) : Prop where
  general : x.g = g
  float : x.f = f
  slots : x.slots = 1
  prof : x.prof = .both ∨ (x.prof = .onlyP ∧ pOnly = true)
  base : rs1 ∈ g

theorem exec_loadOp {i : Instr} {s : State} {o : LoadOp} (ho : s.loadOp i = some o) :
    ∃ x rs1 imm ext, Machine.exec i s = .next (s.loadIns o.a x o.dst rs1 imm o.n o.ecc ext) ∧ o.addr = s.ea o.a rs1 imm
      ∧ AccessForm x o.g o.f o.pOnly rs1 := by
  cases i with
  | lw | lh | lhu | lb | lbu =>
    cases ho
    exact ⟨_, _, _, _, rfl, rfl, ⟨rfl, rfl, rfl, .inl rfl, by simp⟩⟩
  | flw =>
    cases ho
    exact ⟨_, _, _, _, rfl, rfl, ⟨rfl, rfl, rfl, .inr ⟨rfl, rfl⟩, by simp⟩⟩
  | _ => cases ho

theorem exec_storeOp {i : Instr} {s : State} {o : StoreOp} (ho : s.storeOp i = some o) :
    ∃ x rs1 imm v, Machine.exec i s = .next (s.storeIns o.a x rs1 imm o.n o.ecc v) ∧ o.addr = s.ea o.a rs1 imm
      ∧ AccessForm x o.g o.f o.pOnly rs1 ∧ o.val = v s ∧ (o.n = 1 ∨ o.n = 2 ∨ o.n = 4)
      ∧ ∀ sl b, s.canIssue o.a o.g o.f sl b → (o.pOnly = true → isPair o.a = true) → v (s.issued o.a sl b) = v s := by
  cases i with
  | sw | sh | sb =>
    cases ho
    exact ⟨_, _, _, _, rfl, rfl, ⟨rfl, rfl, rfl, .inl rfl, by simp⟩, rfl, by simp,
      fun sl b h _ => State.issued_gr_named h List.mem_cons_self⟩
  | fsw a =>
    cases ho
    refine ⟨_, _, _, _, rfl, rfl, ⟨rfl, rfl, rfl, .inr ⟨rfl, rfl⟩, by simp⟩, rfl, by simp, fun sl b _ hp => ?_⟩
    cases a with
    | pair t e => exact State.issued_reg_pair ..
    | thread => cases hp rfl
  | _ => cases ho

section
variable {s : State} {p : Fin 4}

theorem State.issued_ea {a : Agent} {g f : List (BitVec 5)} {sl b sl' b' : Nat} {r : BitVec 5} (h : s.canIssue a g f sl b) (hr : r ∈ g)
    (imm : BitVec 16) : (s.issued a sl' b').ea a r imm = s.ea a r imm := by
  rw [State.ea, State.issued_gr_named h hr, State.ea]

section
variable {a : Agent} {x : Form} {rs1 : BitVec 5} {imm : BitVec 16} {n : Nat} {ecc : Ecc}

theorem State.loadIns_exc {u : State} {d c : Nat} {ext : Nat → Word}
    (h : s.canIssue a x.g x.f x.slots (s.accessBeats a (s.ea a rs1 imm) n .load)) (hbase : rs1 ∈ x.g)
    (hp : x.prof = .both ∨ (x.prof = .onlyP ∧ isPair a = true))
    (hgot : (s.issued a x.slots (s.accessBeats a (s.ea a rs1 imm) n .load)).loadAt a (s.ea a rs1 imm) n ecc = (u, .exc c)) :
    s.loadIns a x d rs1 imm n ecc ext = u.takeExc a c (BitVec.ofNat 32 (s.ea a rs1 imm)) := by
  rw [State.loadIns, State.issueIns_legal h hp]
  dsimp only
  rw [State.issued_ea h hbase, hgot]

theorem State.storeIns_exc {u : State} {c : Nat} {v : State → Word}
    (h : s.canIssue a x.g x.f x.slots (s.accessBeats a (s.ea a rs1 imm) n .store)) (hbase : rs1 ∈ x.g)
    (hp : x.prof = .both ∨ (x.prof = .onlyP ∧ isPair a = true))
    (hgot : (s.issued a x.slots (s.accessBeats a (s.ea a rs1 imm) n .store)).storeAt a (s.ea a rs1 imm) n
      (v (s.issued a x.slots (s.accessBeats a (s.ea a rs1 imm) n .store))) ecc = (u, some c)) :
    s.storeIns a x rs1 imm n ecc v = u.takeExc a c (BitVec.ofNat 32 (s.ea a rs1 imm)) := by
  rw [State.storeIns, State.issueIns_legal h hp]
  dsimp only
  rw [State.issued_ea h hbase, hgot]

end

theorem length_toBytes (n v : Nat) : (toBytes n v).length = n := by
  induction n generalizing v with
  | zero => rfl
  | succ n ih => rw [toBytes, List.length_cons, ih]

/-- A load of a pair that gets an exception. -/
theorem load_traps {i : Instr} {o : LoadOp} {c : Nat} (ho : s.loadOp i = some o) (ha : o.a = .pair p .clean)
    (hscratch : s.scratchReady p) (hframes : s.frames p < 64) (h : s.canIssue o.a o.g o.f 1 (s.accessBeats o.a o.addr o.n .load))
    (hgot : ∀ u : State, u.regs = s.regs → u.loadPair p o.addr o.n o.ecc = (u, .exc c)) :
    ∃ t, Machine.exec i s = .next t ∧ s.entered t p (s.ppc p) c (BitVec.ofNat 32 o.addr) 0 := by
  obtain ⟨x, rs1, imm, ext, hexec, haddr, hform⟩ := exec_loadOp ho
  rw [← hform.general, ← hform.float, ← hform.slots, haddr, ha] at h
  rw [haddr] at hgot ⊢
  rw [ha] at hexec hgot ⊢
  refine ⟨_, hexec, ?_⟩
  rw [State.loadIns_exc h (hform.general ▸ hform.base) (hform.prof.imp_right fun hp => ⟨hp.1, rfl⟩)
    (hgot _ (State.issued_regs_pair ..))]
  exact State.issued_trap _ _ _ _ _ _ _ hscratch hframes

/-- A store of a pair that gets an exception. -/
theorem store_traps {i : Instr} {o : StoreOp} {c : Nat} (ho : s.storeOp i = some o) (ha : o.a = .pair p .clean)
    (hscratch : s.scratchReady p) (hframes : s.frames p < 64) (h : s.canIssue o.a o.g o.f 1 (s.accessBeats o.a o.addr o.n .store))
    (hgot : ∀ u : State, u.regs = s.regs → ∀ bytes : List Byte, bytes.length = o.n →
      u.storePair p o.addr bytes o.ecc = (u, some c)) :
    ∃ t, Machine.exec i s = .next t ∧ s.entered t p (s.ppc p) c (BitVec.ofNat 32 o.addr) 0 := by
  obtain ⟨x, rs1, imm, v, hexec, haddr, hform, -⟩ := exec_storeOp ho
  rw [← hform.general, ← hform.float, ← hform.slots, haddr, ha] at h
  rw [haddr] at hgot ⊢
  rw [ha] at hexec hgot ⊢
  refine ⟨_, hexec, ?_⟩
  rw [State.storeIns_exc h (hform.general ▸ hform.base) (hform.prof.imp_right fun hp => ⟨hp.1, rfl⟩)
    (hgot _ (State.issued_regs_pair ..) _ (length_toBytes _ _))]
  exact State.issued_trap _ _ _ _ _ _ _ hscratch hframes

end

/-! ### Protection regions (R286) -/

/-- The last of the numbers below `n` that satisfy `p`. -/
theorem find?_reverse_range {p : Nat → Bool} {n r : Nat} (hr : r < n) (hp : p r = true) (hlast : ∀ q, r < q → q < n → p q = false) :
    (List.range n).reverse.find? p = some r := by
  induction n with
  | zero => cases hr
  | succ n ih =>
    rw [List.range_succ, List.reverse_append, List.reverse_singleton, List.singleton_append, List.find?_cons]
    by_cases hn : r = n
    · rw [← hn, hp]
    · rw [hlast n (by omega) n.lt_succ_self]
      exact ih (by omega) fun q hrq hqn => hlast q hrq (by omega)

section
variable (s : State) (p : Fin 4) (x : Nat)

theorem State.protOk_uncovered (h : ∀ r, r < 16 → s.covers p r x = false) (u : Use) : s.protOk p x u = s.atS p := by
  have hnone : s.decidingRegion p x = none := by
    rw [State.decidingRegion, List.find?_eq_none]
    intro r hr
    rw [h r (by simpa using hr)]
    exact Bool.false_ne_true
  rw [State.protOk, hnone]

theorem State.decidingRegion_eq {r : Nat} (hr : r < 16) (hcov : s.covers p r x = true)
    (hlast : ∀ q, r < q → q < 16 → s.covers p q x = false) : s.decidingRegion p x = some r :=
  find?_reverse_range hr hcov hlast

end

end Sys2Proof.Machine

open Sys2Proof.Machine

/-- Settles O7: an exception stacks its frame in the issued state, and the region of highest number is the first found from above. -/
theorem instructionTraps : Obligations.InstructionTraps := by
  refine ⟨⟨fun p s w hw h hscratch hframes => ⟨_, exec_illegal_pair s p hw h, s.issued_trap p _ _ _ _ _ hscratch hframes⟩,
    fun n s w hw h => illegal_thread_spec s n hw h⟩,
    ⟨fun i s o p ho ha hscratch hframes h => ⟨fun hmis => ?_, fun hali hprot => ?_⟩,
      fun i s o p ho ha hscratch hframes h => ⟨fun hmis => ?_, fun hali hprot => ?_⟩⟩,
    fun s p x => ⟨s.protOk_uncovered p x, fun r hr hcov hlast => ?_⟩⟩
  · refine load_traps ho ha hscratch hframes h fun u _ => ?_
    rw [State.loadPair, if_pos hmis]
  · refine load_traps ho ha hscratch hframes h fun u hu => ?_
    rw [State.loadPair, if_neg (not_not.mpr hali), State.protOk_congr hu, hprot]
    rfl
  · refine store_traps ho ha hscratch hframes h fun u _ bytes hlen => ?_
    rw [State.storePair, hlen, if_pos hmis]
  · refine store_traps ho ha hscratch hframes h fun u hu bytes hlen => ?_
    rw [State.storePair, hlen, if_neg (not_not.mpr hali), State.protOk_congr hu, hprot]
    rfl
  · have hregion := s.decidingRegion_eq p x hr hcov hlast
    refine ⟨fun hS => ?_, fun hU => ?_⟩
    · simp [State.protOk, hregion, hS]
    · simp [State.protOk, hregion, hU]

end

section
/-! PROOFS. Stores and atomic instructions (R223, R224, R230, R256, R286): the bytes stored and no other. -/

namespace Sys2Proof.Machine

/-! ### Bytes and words (R6) -/

theorem ofBytes_toBytes (n v : Nat) : ofBytes (toBytes n v) = v % 256 ^ n := by
  induction n generalizing v with
  | zero => rw [Nat.pow_zero, Nat.mod_one]; rfl
  | succ n ih =>
    rw [toBytes, ofBytes, ih, BitVec.toNat_ofNat, Nat.pow_succ' (n := n)]
    exact Nat.mod_mul.symm

/-- A word reads as it was written. -/
theorem State.rd32_wrBytes (s : State) (x : Nat) (v : Word) : (s.wrBytes x (toBytes 4 v.toNat)).rd32 x = v := by
  have hread := s.rdBytes_wrBytes x (toBytes 4 v.toNat)
  rw [length_toBytes] at hread
  have hlt : v.toNat < 256 ^ 4 := v.isLt
  rw [State.rd32, hread, ofBytes_toBytes, Nat.mod_eq_of_lt hlt, BitVec.ofNat_toNat, BitVec.setWidth_eq]

/-! ### Where a store goes (R37, R225, R284) -/

theorem State.eccStore_clean (s : State) (m : Mem) (x n : Nat) (h : s.flt.armed = none) : s.eccStore m x n .clean = s := by
  rw [State.eccStore, State.eccRead_clean _ _ _ _ h]
  split <;> rfl

/-- An address in the code of an engine is its window's base and the offset in it. -/
theorem codeAddr_of_region {x e : Nat} (h : regionOf x = .mem (.code e)) : 0x30000000 + 0x100000 * e + x % 0x100000 = x := by
  unfold regionOf at h
  split_ifs at h <;> cases h <;> omega

section
variable {s : State} {a : Agent} {x n key : Nat}

/-- A store that nothing refuses writes its bytes where they belong. -/
theorem State.storeAt_ok (harm : s.flt.armed = none) (hali : x % n = 0) (hallow : s.allows a x .store)
    (hkey : s.storeKey a x n = some key) (v : Word) :
    s.storeAt a x n v .clean = (s.wrBytes key (toBytes n v.toNat), none) := by
  have hlen := length_toBytes n v.toNat
  cases a with
  | pair t e =>
    have hprot : s.protOk t x .store = true := hallow
    rw [State.storeAt, State.storePair, hlen, if_neg (not_not.mpr hali), hprot]
    simp only [State.storeKey] at hkey
    simp only [Bool.not_true, Bool.false_eq_true, if_false]
    split at hkey
    next hwin =>
      cases hkey
      rw [if_pos hwin, State.eccStore_clean _ _ _ _ harm]
    next hwin =>
      rw [if_neg hwin, State.busWrite]
      split at hkey
      next hreg =>
        split at hkey
        · cases hkey
        next hown =>
          cases hkey
          simp only [hreg, hlen, if_neg hown, State.eccStore_clean _ _ _ _ harm]
      next hreg =>
        cases hkey
        simp only [hreg, State.eccStore_clean _ _ _ _ harm]
      next hreg =>
        split at hkey
        · cases hkey
        next hprotected =>
          cases hkey
          simp only [hreg, if_neg hprotected, State.eccStore_clean _ _ _ _ harm, State.codeWrite, codeAddr_of_region hreg]
      · cases hkey
  | thread k e =>
    have hmay : s.thMayWrite k x = true := hallow rfl
    cases hkey
    rw [State.storeAt, State.storeThread, hlen, if_neg (not_not.mpr hali), hmay, State.eccStore_clean _ _ _ _ harm]
    rfl

theorem State.calOwns_congr {u : State} (h : u.regs = s.regs) (x n : Nat) : u.calOwns x n = s.calOwns x n := by
  simp only [State.calOwns, State.fld_congr h]

theorem State.codeProtected_congr {u : State} (h : u.regs = s.regs) (e off : Nat) : u.codeProtected e off = s.codeProtected e off := by
  rw [State.codeProtected, State.bit_congr h, State.bit_congr h, State.codeProtected]

theorem State.issued_storeKey (sl b : Nat) : (s.issued a sl b).storeKey a x n = s.storeKey a x n := by
  cases a with
  | pair t e =>
    have hregs := s.issued_regs_pair t e sl b
    have howns : (s.issued (.pair t e) sl b).calOwns = s.calOwns := funext₂ (State.calOwns_congr hregs)
    have hprotected : (s.issued (.pair t e) sl b).codeProtected = s.codeProtected := funext₂ (State.codeProtected_congr hregs)
    rw [State.storeKey, howns, hprotected, State.storeKey]
  | thread k e => simp only [State.storeKey]

theorem State.issued_allows (sl b : Nat) (use : Use) (h : s.allows a x use) : (s.issued a sl b).allows a x use := by
  cases a with
  | pair t e => exact (State.protOk_congr (s.issued_regs_pair t e sl b) t x use).trans h
  | thread k e =>
    intro huse
    have hwin : (s.issued (.thread k e) sl b).reg (AEN_TWIN k) = s.reg (AEN_TWIN k) :=
      State.issued_reg _ _ _ _ _ (by simp only [ownKeys, List.mem_singleton, AEN_TWIN, AEN_TISS]; omega)
    rw [← h huse, State.thMayWrite, State.fld, State.fld, hwin, State.thMayWrite, State.fld, State.fld]

theorem State.storeIns_ok {x : Form} {rs1 : BitVec 5} {imm : BitVec 16} {ecc : Ecc} {v : State → Word} {u : State}
    (h : s.canIssue a x.g x.f x.slots (s.accessBeats a (s.ea a rs1 imm) n .store)) (hbase : rs1 ∈ x.g)
    (hp : x.prof = .both ∨ (x.prof = .onlyP ∧ isPair a = true))
    (hput : (s.issued a x.slots (s.accessBeats a (s.ea a rs1 imm) n .store)).storeAt a (s.ea a rs1 imm) n
      (v (s.issued a x.slots (s.accessBeats a (s.ea a rs1 imm) n .store))) ecc = (u, none)) :
    s.storeIns a x rs1 imm n ecc v = u.retireIns a := by
  rw [State.storeIns, State.issueIns_legal h hp]
  dsimp only
  rw [State.issued_ea h hbase, hput]

end

/-- Every store that is aligned, allowed and has a place writes its bytes there in the issued state, and completes. -/
theorem exec_storeOp_ok {i : Instr} {s : State} {o : StoreOp} {key : Nat} (ho : s.storeOp i = some o) (hecc : o.ecc = .clean)
    (hpair : o.pOnly = true → isPair o.a = true) (hali : o.addr % o.n = 0) (hallow : s.allows o.a o.addr .store)
    (hkey : s.storeKey o.a o.addr o.n = some key)
    (h : s.canIssue o.a o.g o.f 1 (s.accessBeats o.a o.addr o.n .store)) :
    Machine.exec i s = .next (((s.issued o.a 1 (s.accessBeats o.a o.addr o.n .store)).wrBytes key
      (toBytes o.n o.val.toNat)).retireIns o.a) := by
  obtain ⟨x, rs1, imm, v, hexec, haddr, hform, hval, -, hsame⟩ := exec_storeOp ho
  have hv := hsame 1 (s.accessBeats o.a o.addr o.n .store) h hpair
  have harm : (s.issued o.a 1 (s.accessBeats o.a o.addr o.n .store)).flt.armed = none := by
    rw [State.issued_flt]
    exact h.1
  have hput := State.storeAt_ok harm hali (State.issued_allows _ _ _ hallow) ((State.issued_storeKey _ _).trans hkey) o.val
  have hprof : x.prof = .both ∨ (x.prof = .onlyP ∧ isPair o.a = true) := hform.prof.imp_right fun ⟨hx, hb⟩ => ⟨hx, hpair hb⟩
  rw [hexec, hecc]
  rw [haddr, ← hform.slots] at hput hv ⊢
  rw [haddr, ← hform.general, ← hform.float, ← hform.slots] at h
  rw [hval, ← hv] at hput ⊢
  exact congrArg Host.Outcome.next (State.storeIns_ok h (hform.general ▸ hform.base) hprof hput)

/-! ### What a store changes (R223, R256) -/

theorem Shape.mem_eq {s t : State} (h : Shape s t) : t.mem = s.mem := by
  unfold Shape at h
  rw [h]

theorem State.reg_wrBytes (s : State) (x : Nat) (l : List Byte) (k : Nat) : (s.wrBytes x l).reg k = s.reg k := by
  rw [State.reg, State.wrBytes_regs, State.reg]

theorem State.issued_mem_eq (s : State) (a : Agent) (sl b : Nat) : (s.issued a sl b).mem = s.mem := (Shape.issued s a sl b).mem_eq

section
variable (s : State) (a : Agent) (sl b key : Nat) (l : List Byte)

/-- The state after an instruction that, once issued, writes a run of bytes and completes. -/
def State.stored : State := ((s.issued a sl b).wrBytes key l).retireIns a

theorem State.stored_mem : (s.stored a sl b key l).mem = ((s.issued a sl b).wrBytes key l).mem := (Shape.retireIns _ a).mem_eq

theorem State.rdBytes_stored : (s.stored a sl b key l).rdBytes key l.length = l := by
  rw [State.rdBytes_congr (s.stored_mem a sl b key l)]
  exact State.rdBytes_wrBytes ..

theorem State.rd8_stored_out {x : Nat} (h : x < key ∨ key + l.length ≤ x) : (s.stored a sl b key l).rd8 x = s.rd8 x := by
  rw [State.rd8_congr (s.stored_mem a sl b key l), State.rd8_wrBytes_out _ _ _ _ h, State.rd8_congr (s.issued_mem_eq a sl b)]

theorem State.reg_stored {k : Nat} (h : k ∉ ownKeys a) : (s.stored a sl b key l).reg k = s.reg k := by
  rw [State.stored, State.retireIns_reg _ _ _ h, State.reg_wrBytes, State.issued_reg _ _ _ _ _ h]

theorem State.pcOf_stored : (s.stored a sl b key l).pcOf a = s.pcOf a + 4 := by
  refine State.pcOf_retireIns s _ a sl b (by rw [State.wrBytes_eq]) fun t e ha => ?_
  rw [State.reg_wrBytes, ha]
  exact State.issued_reg_pair ..

theorem State.stored_eq : s.stored a sl b key l = { s with
    regs := (s.stored a sl b key l).regs, mem := (s.stored a sl b key l).mem, meters := (s.stored a sl b key l).meters
    pairs := (s.stored a sl b key l).pairs, threads := (s.stored a sl b key l).threads } := by
  have hissued := Shape.issued s a sl b
  have hwritten := (s.issued a sl b).wrBytes_eq key l
  have hretired := Shape.retireIns ((s.issued a sl b).wrBytes key l) a
  unfold Shape at hissued hretired
  rw [State.stored, hretired, hwritten, hissued]

end

/-! ### Atomic instructions (R230) -/

section
variable {s : State} {o : AtomOp}

/-- Every atomic instruction is `atomicIns`, at the function of its row. -/
theorem exec_atomOp {i : Instr} (ho : s.atomOp i = some o) : ∃ fn f,
    Machine.exec i s = .next (s.atomicIns (.pair o.t o.e) fn o.rd o.rs1 o.rs2 o.ecc f)
      ∧ ∀ old, f old (s.pg o.t o.rs2.toNat) (s.pg o.t o.rd.toNat) = o.new old := by
  cases i with
  | aswp a | aadd a | aadds a | aand a | aorr a | acas a =>
    cases a with
    | pair t e =>
      cases ho
      exact ⟨_, _, rfl, fun _ => rfl⟩
    | thread => cases ho
  | _ => cases ho

theorem regionOf_sram {x : Nat} (h : regionOf x = .mem .sram) : inWindow x = false ∧ sramBeats x = 1 := by
  refine ⟨?_, by rw [sramBeats, if_pos h]⟩
  unfold regionOf at h
  have hx : x < 0x20800000 := by
    split_ifs at h <;> cases h
    omega
  rw [inWindow, Bool.and_eq_false_iff, decide_eq_false_iff_not]
  exact .inl (by omega)

/-- An atomic instruction makes one SRAM beat. -/
theorem State.accessBeats_sram {t : Fin 4} {e : Ecc} {x : Nat} (hali : x % 4 = 0) (hprot : s.protOk t x .store = true)
    (hsram : regionOf x = .mem .sram) : s.accessBeats (.pair t e) x 4 .store = 1 := by
  obtain ⟨hwin, hbeats⟩ := regionOf_sram hsram
  rw [State.accessBeats, hali, hprot, hwin, hbeats]
  rfl

/-- What an atomic instruction makes of memory. -/
def State.atomWritten (s : State) (x : Nat) : Option Word → State
  | some v => s.wrBytes x (toBytes 4 v.toNat)
  | none => s

theorem State.atomicAt_ok {t : Fin 4} {x : Nat} (upd : Word → Option Word) (harm : s.flt.armed = none) (hali : x % 4 = 0)
    (hprot : s.protOk t x .store = true) (hsram : regionOf x = .mem .sram) (hown : s.calOwns x 4 = false) :
    s.atomicAt t x .clean upd = (s.atomWritten x (upd (s.rd32 x)), .data (ofBytes (s.rdBytes x 4))) := by
  rw [State.atomicAt, if_neg (not_not.mpr hali), hprot, if_neg (not_not.mpr hsram), hown, State.eccRead_clean _ _ _ _ harm]
  simp only [Bool.not_true, Bool.false_eq_true, if_false]
  cases hupd : upd (s.rd32 x) with
  | some v =>
    rw [State.rd32] at hupd
    rw [hupd]
    rfl
  | none =>
    rw [State.rd32] at hupd
    rw [hupd]
    rfl

theorem State.addLoad_room {t d : Nat} {v : Word} (h : (s.pair t).loads.length < 4) :
    s.addLoad t d v = s.updPair t fun x => { x with loads := x.loads ++ [(d, v)] } := by
  rw [State.addLoad, if_neg (Nat.not_le.mpr h)]

end

section
variable (s : State) (p : Fin 4) (e : Ecc) (d x : Nat) (new : Option Word)

theorem State.atomWritten_eq : s.atomWritten x new = { s with mem := (s.atomWritten x new).mem } := by
  cases new with
  | some v => exact s.wrBytes_eq ..
  | none => rfl

theorem State.pair_atomWritten (q : Nat) : (s.atomWritten x new).pair q = s.pair q := by
  rw [State.atomWritten_eq]
  rfl

theorem State.rd32_atomWritten : (s.atomWritten x new).rd32 x = new.getD (s.rd32 x) := by
  cases new with
  | some v => exact s.rd32_wrBytes x v
  | none => rfl

theorem State.rd8_atomWritten_out {y : Nat} (h : y < x ∨ x + 4 ≤ y) : (s.atomWritten x new).rd8 y = s.rd8 y := by
  cases new with
  | some v => exact State.rd8_wrBytes_out _ _ _ _ (by rwa [length_toBytes])
  | none => rfl

/-- The state after an atomic instruction that, once issued, writes its word, leaves the old word in flight and completes. -/
def State.atomDone : State :=
  (((s.issued (.pair p e) 1 1).atomWritten x new).updPair p fun y => { y with loads := y.loads ++ [(d, s.rd32 x)] }).retireIns (.pair p e)

theorem State.atomDone_mem : (s.atomDone p e d x new).mem = ((s.issued (.pair p e) 1 1).atomWritten x new).mem :=
  ((Shape.updPair ..).trans (Shape.retireIns ..)).mem_eq

theorem State.issued_rd32 (sl b : Nat) : (s.issued (.pair p e) sl b).rd32 x = s.rd32 x := by
  rw [State.rd32, State.rdBytes_congr (s.issued_mem_pair p e sl b), State.rd32]

theorem State.rd32_atomDone : (s.atomDone p e d x new).rd32 x = new.getD (s.rd32 x) := by
  rw [State.rd32, State.rdBytes_congr (s.atomDone_mem p e d x new), ← State.rd32, State.rd32_atomWritten, State.issued_rd32]

theorem State.rd8_atomDone_out {y : Nat} (h : y < x ∨ x + 4 ≤ y) : (s.atomDone p e d x new).rd8 y = s.rd8 y := by
  rw [State.rd8_congr (s.atomDone_mem p e d x new), State.rd8_atomWritten_out _ _ _ h, State.rd8_congr (s.issued_mem_pair p e 1 1)]

theorem State.loads_atomDone : ((s.atomDone p e d x new).pair p).loads = (s.pair p).loads ++ [(d, s.rd32 x)] := by
  have hloads := s.issued_loads p e 1 1
  have hpc : ∀ (u : State) (w : Word), (u.setPpc p w).pair p = u.pair p := fun _ _ => rfl
  rw [State.atomDone, State.retireIns, State.retirePair, State.pair_updPair_same _ _ _ p.isLt, hpc, State.pair_updPair_same _ _ _ p.isLt,
    State.pair_atomWritten, hloads]

theorem State.reg_atomDone {k : Nat} (h : k ≠ pcKey p) : (s.atomDone p e d x new).reg k = s.reg k := by
  have hwritten : ((s.issued (.pair p e) 1 1).atomWritten x new).reg k = (s.issued (.pair p e) 1 1).reg k := by
    rw [State.atomWritten_eq]
    rfl
  rw [State.atomDone, State.retireIns_reg _ _ _ (by simpa [ownKeys] using h), State.reg_updPair, hwritten, State.issued_reg_pair]

theorem State.ppc_atomDone : (s.atomDone p e d x new).ppc p = s.ppc p + 4 := by
  refine State.pcOf_retireIns s _ (.pair p e) 1 1 ?_ fun t e' ha => ?_
  · rw [State.atomWritten_eq]
    rfl
  · rw [State.reg_updPair, State.atomWritten_eq]
    exact s.issued_reg_pair p e 1 1 _

end

/-- An atomic instruction that its access refuses nothing: the old word is a load in flight, and the instruction completes. -/
theorem State.atomicIns_ok {s u : State} {p : Fin 4} {e ecc : Ecc} {fn v : Nat} {rd rs1 rs2 : BitVec 5}
    {f : Word → Word → Word → Option Word} (h : s.canIssue (.pair p e) [rd, rs1, rs2] [] 1 1)
    (hbeats : s.accessBeats (.pair p e) (s.pg p rs1.toNat).toNat 4 .store = 1)
    (hgot : (s.issued (.pair p e) 1 1).atomicAt p (s.pg p rs1.toNat).toNat ecc
      (fun old => f old (s.pg p rs2.toNat) (s.pg p rd.toNat)) = (u, .data v)) :
    s.atomicIns (.pair p e) fn rd rs1 rs2 ecc f = (u.addLoad p rd.toNat (BitVec.ofNat 32 v)).retireIns (.pair p e) := by
  have hbeats : s.accessBeats (.pair p e) (s.gr (.pair p e) rs1).toNat 4 .store = 1 := hbeats
  have h : s.canIssue (.pair p e) [rd, rs1, rs2] [] 1 (s.accessBeats (.pair p e) (s.gr (.pair p e) rs1).toNat 4 .store) := by
    rwa [hbeats]
  rw [State.atomicIns, State.issueIns_legal h (.inr ⟨rfl, rfl⟩)]
  simp only [hbeats, State.issued_gr_pair, hgot, State.loaded]

/-- Every atomic instruction on an aligned SRAM word that its pair may store to, with room for the load. -/
theorem exec_atomOp_ok {i : Instr} {s : State} {o : AtomOp} (ho : s.atomOp i = some o) (hecc : o.ecc = .clean)
    (hali : (s.pg o.t o.rs1.toNat).toNat % 4 = 0) (hprot : s.protOk o.t (s.pg o.t o.rs1.toNat).toNat .store = true)
    (hsram : regionOf (s.pg o.t o.rs1.toNat).toNat = .mem .sram) (hown : s.calOwns (s.pg o.t o.rs1.toNat).toNat 4 = false)
    (hroom : (s.pair o.t).loads.length < 4) (h : s.canIssue (.pair o.t o.e) [o.rd, o.rs1, o.rs2] [] 1 1) :
    Machine.exec i s = .next (s.atomDone o.t o.e o.rd.toNat (s.pg o.t o.rs1.toNat).toNat
      (o.new (s.rd32 (s.pg o.t o.rs1.toNat).toNat))) := by
  obtain ⟨fn, f, hexec, hf⟩ := exec_atomOp ho
  have hregs := s.issued_regs_pair o.t o.e 1 1
  have harm : (s.issued (.pair o.t o.e) 1 1).flt.armed = none := by
    rw [State.issued_flt]
    exact h.1
  have hgot := State.atomicAt_ok (fun old => f old (s.pg o.t o.rs2.toNat) (s.pg o.t o.rd.toNat)) harm hali
    ((State.protOk_congr hregs ..).trans hprot) hsram ((State.calOwns_congr hregs ..).trans hown)
  have hloads : ∀ y, (((s.issued (.pair o.t o.e) 1 1).atomWritten (s.pg o.t o.rs1.toNat).toNat y).pair o.t).loads.length < 4 :=
    fun y => by rwa [State.pair_atomWritten, State.issued_loads]
  rw [hexec, hecc, State.atomicIns_ok h (State.accessBeats_sram hali hprot hsram) hgot, hf, State.addLoad_room (hloads _),
    ← State.rd32, State.issued_rd32]
  rfl

end Sys2Proof.Machine

open Sys2Proof.Machine

/-- Settles O4: a store, and an atomic instruction, that nothing refuses write their bytes in the issued state and complete. -/
theorem storeResults : Obligations.StoreResults := by
  unfold Obligations.StoreResults
  refine ⟨fun i s o key ho hecc hpair hali hallow hkey h => ?_, fun i s o ho hecc hali hprot hsram hown hroom h => ?_⟩
  · have hlen := length_toBytes o.n o.val.toNat
    refine ⟨_, exec_storeOp_ok ho hecc hpair hali hallow hkey h, State.pcOf_stored .., ?_, fun x hx => ?_,
      fun k hk => State.reg_stored _ _ _ _ _ _ hk, State.stored_eq ..⟩
    · have hread := s.rdBytes_stored o.a 1 (s.accessBeats o.a o.addr o.n .store) key (toBytes o.n o.val.toNat)
      rwa [hlen] at hread
    · exact State.rd8_stored_out _ _ _ _ _ _ (by rwa [hlen])
  · exact ⟨_, exec_atomOp_ok ho hecc hali hprot hsram hown hroom h, State.rd32_atomDone .., State.loads_atomDone ..,
      State.ppc_atomDone .., fun x hx => State.rd8_atomDone_out _ _ _ _ _ _ hx, fun k hk => State.reg_atomDone _ _ _ _ _ _ hk⟩

end

section
/-! PROOFS. Outstanding loads whose destination is no register: the loads (R229) and FENCE (R234). -/

namespace Sys2Proof.Machine

/-- Pair 0 runs with these loads outstanding; every register is at its reset. -/
def loadsOut (loads : List (Nat × Word)) : State :=
  { State.reset with
    sys := { State.reset.sys with por := false }
    pairs := vset State.reset.pairs 0 { run := .run, loads } }

/-- Destination 960 is no register, and its place is that of the pc. -/
theorem ppc_putLoad_960 (s : State) (v : Word) : (s.putLoad 0 (960, v)).ppc 0 = v := State.reg_setReg_same s (pcKey 0) v

/-- An instruction that completes moves its pair's pc on by 4 from wherever it is. -/
theorem State.ppc_retireIns (s : State) (p : Fin 4) (e : Ecc) : (s.retireIns (.pair p e)).ppc p = s.ppc p + 4 := by
  rw [State.retireIns, State.retirePair, State.ppc, State.reg_updPair]
  exact State.reg_setReg_same ..

section
variable {loads : List (Nat × Word)}

theorem loadsOut_regs : (loadsOut loads).regs = State.reset.regs := rfl

theorem loadsOut_atS : (loadsOut loads).atS 0 = true := (State.atS_congr loadsOut_regs 0).trans (by decide)

theorem reset_regionOff : ∀ r < 16, State.reset.bit (QUE_RB (0 : Fin 4) r) QUE_RB_EN = false := by decide

theorem loadsOut_protOk (x : Nat) (use : Use) : (loadsOut loads).protOk (0 : Fin 4) x use = true := by
  have hcovers : ∀ r < 16, (loadsOut loads).covers (0 : Fin 4) r x = false := fun r hr => by
    rw [State.covers, State.bit_congr loadsOut_regs, reset_regionOff r hr, Bool.false_and]
  rw [State.protOk_uncovered _ _ _ hcovers]
  exact loadsOut_atS

theorem loadsOut_binding : (loadsOut loads).binding 8 = none := by
  rw [State.binding, State.fld_congr loadsOut_regs]
  exact if_neg (by decide)

theorem loadsOut_pairActive : (loadsOut loads).pairActive 0 = true := by
  have hhalted : (loadsOut loads).pairHalted 0 = false := (State.bit_congr loadsOut_regs DBG_PSTAT 0).trans (by decide)
  rw [State.pairActive, hhalted]
  rfl

/-- Pair 0 fetches at address 0 in ROM, at level S, with no region and no budget in force. -/
theorem loadsOut_canIssue {g : List (BitVec 5)} {beats : Nat} (hready : ∀ d ∈ loads, d.1 ∉ g.map BitVec.toNat) :
    (loadsOut loads).canIssue (.pair 0 .clean) g [] 1 beats := by
  have hfetch : (loadsOut loads).mayFetch (0 : Fin 4) 0 = true := by
    rw [State.mayFetch, loadsOut_protOk]
    rfl
  refine ⟨rfl, rfl, loadsOut_pairActive, hfetch, fun d hd => ⟨hready d hd, List.not_mem_nil⟩,
    fun _ hr => (List.not_mem_nil hr).elim, ?_⟩
  change (loadsOut loads).budHas ((loadsOut loads).binding 8) _ _ = true
  rw [loadsOut_binding]
  rfl

end

theorem exec_fence {p : Fin 4} {s : State} (h : s.canIssue (.pair p .clean) [] [] 1 0) :
    Machine.exec (.fence (.pair p .clean)) s
      = .next (((s.issued (.pair p .clean) 1 0).settleAll p).retireIns (.pair p .clean)) :=
  congrArg Host.Outcome.next (State.issueIns_legal h (.inr ⟨rfl, rfl⟩))

theorem State.ppc_settleAll_960 {u : State} {v : Word} (h : (u.pair 0).loads = [(960, v)]) : (u.settleAll 0).ppc 0 = v := by
  rw [State.settleAll, State.settleWhere, h, State.ppc, State.reg_updPair]
  exact ppc_putLoad_960 ..

end Sys2Proof.Machine

open Sys2Proof.Machine

/-- Refutes O5: the statement allows an outstanding load of any destination, and FENCE puts the data of destination 960 into the pc,
which then is not the old pc and 4. -/
theorem not_systemInstructions : ¬ Obligations.SystemInstructions := by
  intro h
  obtain ⟨⟨hfence, -⟩, -⟩ := h
  have hissue : (loadsOut [(960, 4)]).canIssue (.pair 0 .clean) [] [] 1 0 := loadsOut_canIssue (by simp)
  obtain ⟨t, ht, -, hpc, -⟩ := hfence 0 (loadsOut [(960, 4)]) hissue
  obtain rfl := Host.Outcome.next.inj ((exec_fence hissue).symm.trans ht)
  have hsettled : (((loadsOut [(960, 4)]).issued (.pair 0 .clean) 1 0).settleAll 0).ppc 0 = 4 :=
    State.ppc_settleAll_960 (State.issued_loads _ 0 ..)
  rw [State.ppc_retireIns] at hpc
  exact absurd ((congrArg (· + 4) hsettled).symm.trans hpc) (by decide)

end

section
/-! PROOFS. A fifth load (R229) beside an outstanding load whose destination is no register. -/

namespace Sys2Proof.Machine

section
variable {s u : State} {p : Fin 4}

theorem State.loadIns_ok {a : Agent} {x : Form} {rs1 : BitVec 5} {imm : BitVec 16} {n d v : Nat} {ecc : Ecc} {ext : Nat → Word}
    (h : s.canIssue a x.g x.f x.slots (s.accessBeats a (s.ea a rs1 imm) n .load)) (hbase : rs1 ∈ x.g)
    (hp : x.prof = .both ∨ (x.prof = .onlyP ∧ isPair a = true))
    (hgot : (s.issued a x.slots (s.accessBeats a (s.ea a rs1 imm) n .load)).loadAt a (s.ea a rs1 imm) n ecc = (u, .data v)) :
    s.loadIns a x d rs1 imm n ecc ext = (u.loaded a d (ext v)).retireIns a := by
  rw [State.loadIns, State.issueIns_legal h hp]
  dsimp only
  rw [State.issued_ea h hbase, hgot]

theorem State.loadPair_rom {x n : Nat} {ecc : Ecc} (hali : x % n = 0) (hprot : s.protOk p x .load = true)
    (hwin : inWindow x = false) (hrom : regionOf x = .rom) : s.loadPair p x n ecc = (s, .data (ofBytes (s.rdBytes x n))) := by
  rw [State.loadPair, if_neg (not_not.mpr hali), hprot, hwin, State.busRead, hrom]
  rfl

/-- `LW` of a word of ROM: the load joins the outstanding ones in the issued state, and the instruction completes. -/
theorem exec_lw_rom {e : Ecc} {rd rs1 : BitVec 5} {imm : BitVec 16} {x : Nat} (haddr : s.ea (.pair p e) rs1 imm = x)
    (hali : x % 4 = 0) (hprot : s.protOk p x .load = true) (hwin : inWindow x = false) (hrom : regionOf x = .rom)
    (h : ∀ b, s.canIssue (.pair p e) [rd, rs1] [] 1 b) : ∃ b v, Machine.exec (.lw (.pair p e) rd rs1 imm .clean) s
      = .next (((s.issued (.pair p e) 1 b).addLoad p rd.toNat v).retireIns (.pair p e)) := by
  subst haddr
  have hissued := (State.protOk_congr (s.issued_regs_pair p e 1 (s.accessBeats (.pair p e) (s.ea (.pair p e) rs1 imm) 4 .load)) p
    (s.ea (.pair p e) rs1 imm) .load).trans hprot
  exact ⟨_, _, congrArg Host.Outcome.next
    (State.loadIns_ok (h _) (by simp) (.inl rfl) (State.loadPair_rom hali hissued hwin hrom))⟩

/-- A load that finds four outstanding lets the oldest reach its destination, the pc where that is 960. -/
theorem State.ppc_addLoad_960 {rest : List (Nat × Word)} {v w : Word} {d : Nat} (h : (s.pair 0).loads = (960, v) :: rest)
    (hfull : 3 ≤ rest.length) : (s.addLoad 0 d w).ppc 0 = v := by
  have hfour : 4 ≤ (s.pair 0).loads.length := by
    rw [h, List.length_cons]
    omega
  rw [State.addLoad, if_pos hfour, State.finishLoad, h, State.ppc, State.reg_updPair, State.reg_updPair]
  exact ppc_putLoad_960 ..

end

/-- Pair 0 has four loads outstanding, the oldest of them with a destination that is no register. -/
def fourLoadsOut : State := loadsOut [(960, 4), (3, 0), (4, 0), (5, 0)]

/-- `LW` of the word at address 0, in ROM. -/
def fifthLoad : Instr := .lw (.pair 0 .clean) 1 2 0 .clean

def fifthLoadOp : LoadOp := { a := .pair 0 .clean, g := [1, 2], dst := 1, addr := 0, n := 4, ext := BitVec.ofNat 32, ecc := .clean }

theorem fourLoadsOut_loadOp : fourLoadsOut.loadOp fifthLoad = some fifthLoadOp := rfl

theorem fourLoadsOut_canIssue (beats : Nat) : fourLoadsOut.canIssue (.pair 0 .clean) [1, 2] [] 1 beats :=
  loadsOut_canIssue (by decide)

theorem exec_fifthLoad_ppc {t : State} (ht : Machine.exec fifthLoad fourLoadsOut = .next t) : t.ppc 0 = 8 := by
  obtain ⟨b, v, hexec⟩ := exec_lw_rom (p := 0) (e := .clean) (rd := 1) (rs1 := 2) (imm := 0) (x := 0) (by rfl) rfl
    (loadsOut_protOk 0 .load) rfl rfl fourLoadsOut_canIssue
  obtain rfl := Host.Outcome.next.inj (hexec.symm.trans ht)
  have hloaded : ((fourLoadsOut.issued (.pair 0 .clean) 1 b).addLoad 0 1 v).ppc 0 = 4 :=
    State.ppc_addLoad_960 (State.issued_loads _ 0 ..) (by decide)
  exact (State.ppc_retireIns _ 0 .clean).trans (congrArg (· + 4) hloaded)

end Sys2Proof.Machine

open Sys2Proof.Machine

/-- Refutes O3: the statement allows an outstanding load of any destination, and where four are outstanding the oldest of them reaches
the pc, its destination being 960, which then is not the old pc and 4. -/
theorem not_loadResults : ¬ Obligations.LoadResults := by
  intro h
  obtain ⟨hload, -⟩ := h
  obtain ⟨t, ht, hpc, -⟩ := hload fifthLoad fourLoadsOut fifthLoadOp 0 fourLoadsOut_loadOp rfl (fun _ => rfl) rfl
    (loadsOut_protOk 0 .load) rfl (fourLoadsOut_canIssue _)
  have hnew := exec_fifthLoad_ppc ht
  exact absurd (hnew.symm.trans hpc) (by decide)

end

section
/-! PROOFS. A trapped TRIM (R241, R251) with thread trace on (R633, R640). -/

namespace Sys2Proof.Machine

/-- Register 0x3B801 of thread 0, which no instruction names: its place is that of DBG_STAT. -/
theorem tg_DBG_STAT (s : State) : s.tg (0 : Fin 64) 0x3B801 = s.reg DBG_STAT := rfl

/-- A packet that enters an empty trace buffer shows in DBG_STAT.FILL, in units of 16 bytes. -/
theorem State.fill_tracePut {s : State} {p : List Byte} (hen : s.fld DBG_CTRL DBG_CTRL_EN = 1) (hbuf : s.dbg.buf = [])
    (hlost : s.dbg.lost = none) (hlen : p.length ≤ 16) (hpos : 0 < p.length) :
    (s.tracePut true p).fld DBG_STAT DBG_STAT_FILL = 1 := by
  have hfill : s.dbg.fill = 0 := by
    rw [Dbg.fill, hbuf]
    rfl
  have hnew : (s.updDbg fun d => { d with buf := d.buf ++ [p] }).dbg.fill = p.length := by simp [State.updDbg, Dbg.fill, hbuf]
  have hunits : (p.length + 15) / 16 = 1 := by omega
  have hroom : ¬ 4096 < 0 + p.length := by omega
  have hput : s.tracePut true p = (s.updDbg fun d => { d with buf := d.buf ++ [p] }).showFill := by
    rw [State.tracePut, hen, hlost, hfill]
    exact if_neg hroom
  rw [hput, State.showFill, State.fld_setFld_same _ _ _ _ (by decide), hnew, hunits]
  rfl

section
variable (s : State) (n : Fin 64) (code : Nat) (eval : Word)

/-- The state with an exception of a thread recorded and its event raised, before its trace and its message. -/
def State.faultNoted : State :=
  ((((s.setReg (AEN_TFC n) (BitVec.ofNat 32 code)).setReg (AEN_TFAD n) (BitVec.ofNat 32 (s.thPc n % 2 ^ 18))).setReg
    (AEN_TFVAL n) eval).setTh n thFAULTED).raise AEN_EVT (AEN_EVT_FAULT0 + n / 32)

theorem State.threadTrap_eq : s.threadTrap n code eval = ((s.faultNoted n code eval).traceThr n 2 (s.thPc n % 2 ^ 18)).sendFault blkAEN
    (n / 32) 0x10 clsU (s.thPc n % 2 ^ 18 + 2 ^ 18 * n + 2 ^ 24 * code) := rfl

theorem State.faultNoted_dbg : (s.faultNoted n code eval).dbg = s.dbg := by
  have hset : s.RegsDiffer ((((s.setReg (AEN_TFC n) (BitVec.ofNat 32 code)).setReg (AEN_TFAD n)
      (BitVec.ofNat 32 (s.thPc n % 2 ^ 18))).setReg (AEN_TFVAL n) eval).setTh n thFAULTED) :=
    (((State.RegsDiffer.setReg ..).trans (.setReg ..)).trans (.setReg ..)).trans (.setTh ..)
  rw [State.faultNoted, State.raise_spec, hset]
  rfl

theorem State.reg_faultNoted {k : Nat} (hk : 0x40090000 ≤ k) : (s.faultNoted n code eval).reg k = s.reg k := by
  have hlt := n.isLt
  rw [State.faultNoted, State.reg_raise_ne _ _ (by simp only [AEN_EVT]; omega),
    State.reg_setTh_ne _ (by simp only [AEN_TSTAT]; omega) (by simp only [AEN_STAT]; omega),
    State.reg_setReg_ne _ _ (by simp only [AEN_TFVAL]; omega), State.reg_setReg_ne _ _ (by simp only [AEN_TFAD]; omega),
    State.reg_setReg_ne _ _ (by simp only [AEN_TFC]; omega)]

end

/-- The trace of a trapped thread enters an empty trace buffer. -/
theorem State.fill_threadTrap {s : State} {n : Fin 64} (code : Nat) (eval : Word) (hen : s.fld DBG_CTRL DBG_CTRL_EN = 1)
    (hon : s.bit DBG_TCFG (4 + n / 32) = true) (hbuf : s.dbg.buf = []) (hlost : s.dbg.lost = none) :
    (s.threadTrap n code eval).fld DBG_STAT DBG_STAT_FILL = 1 := by
  have hdbg := s.faultNoted_dbg n code eval
  rw [State.threadTrap_eq, State.fld, State.sendFault, State.reg_launch, ← State.fld, State.traceThr, State.bit,
    State.reg_faultNoted _ _ _ _ (by decide), ← State.bit, hon]
  refine State.fill_tracePut ?_ (by rwa [hdbg]) (by rwa [hdbg]) ?_ ?_
  · rw [State.fld, State.reg_faultNoted _ _ _ _ (by decide), ← State.fld, hen]
  · simp [State.stamp16, length_toBytes]
  · simp

/-- Thread 0 is READY, and its engine's threads are traced. -/
def tracedThread : State :=
  { State.reset with
    regs := [(AEN_TSTAT 0, 1), (DBG_TCFG, 0x10)]
    sys := { State.reset.sys with por := false } }

theorem tracedThread_canIssue : tracedThread.canIssue (.thread 0 .clean) [1, 0] [] 1 0 := by
  refine ⟨rfl, rfl, by decide, rfl, by decide, by decide, by decide, by decide⟩

/-- `TRIM` of an index above 511 is a LOADFAULT in the issued state. -/
theorem exec_trimRead_above {s : State} {n : Fin 64} {rd x : BitVec 5} {m : BitVec 16} {i : Word}
    (h : s.canIssue (.thread n .clean) [rd, x] [] 1 0) (hi : s.tg n x.toNat + m.setWidth 32 = i) (habove : 511 < i.toNat) :
    Machine.exec (.trimRead (.thread n .clean) rd x m) s
      = .next ((s.issued (.thread n .clean) 1 0).threadTrap n excLOADFAULT i) := by
  have hbase : (s.issued (.thread n .clean) 1 0).gr (.thread n .clean) x = s.tg n x.toNat :=
    State.issued_gr_named h (List.mem_cons_of_mem _ (List.mem_singleton_self _))
  have hindex : (s.issued (.thread n .clean) 1 0).gr (.thread n .clean) x + zext m = i := by rw [hbase, ← hi, zext]
  change Host.Outcome.next (s.angIns (.thread n .clean) _ _ 0) = _
  rw [State.angIns_run s n { word := encI 0x37 rd x m, g := [rd, x] } _ 0 h rfl]
  dsimp only
  rw [hindex, if_pos habove]
  rfl

/-- The index is 512, of g0 and 512. -/
theorem tracedThread_index : tracedThread.tg (0 : Fin 64) (0 : BitVec 5).toNat + (512 : BitVec 16).setWidth 32 = 512 := by
  have hzero : tracedThread.tg (0 : Fin 64) (0 : BitVec 5).toNat = 0 := if_pos rfl
  rw [hzero]
  decide

theorem tracedThread_fill : ((tracedThread.issued (.thread 0 .clean) 1 0).threadTrap (0 : Fin 64) excLOADFAULT 512).fld DBG_STAT
    DBG_STAT_FILL = 1 := by
  have hdbg : (tracedThread.issued (.thread 0 .clean) 1 0).dbg = tracedThread.dbg := by rw [Shape.issued]
  have hreg {k : Nat} (hk : 0x40090000 ≤ k) := State.issued_reg_thread tracedThread 0 1 0 (.inr hk)
  refine State.fill_threadTrap _ _ ?_ ?_ (by rw [hdbg]; rfl) (by rw [hdbg]; rfl)
  · rw [State.fld, hreg (by decide)]
    decide
  · rw [State.bit, hreg (by decide)]
    decide

end Sys2Proof.Machine

open Sys2Proof.Machine

/-- Refutes O9: the statement has a trapped thread keep registers beyond the sixteen it has, and the place of register 0x3B801 of thread
0 is DBG_STAT, whose FILL counts the trace packet of the exception. -/
theorem not_angleQueriesAndTrims : ¬ Obligations.AngleQueriesAndTrims := by
  intro h
  obtain ⟨hissue, -⟩ := h
  obtain ⟨t, ht, htrapped⟩ := ((hissue 0 tracedThread 1).2 0 512 tracedThread_canIssue).2 (by rw [tracedThread_index]; decide)
  obtain ⟨-, -, -, -, -, -, hkept, -⟩ := htrapped
  obtain rfl := Host.Outcome.next.inj ((exec_trimRead_above tracedThread_canIssue tracedThread_index (by decide)).symm.trans ht)
  have hsame := hkept 0x3B801
  rw [tg_DBG_STAT, tg_DBG_STAT] at hsame
  have hfill := tracedThread_fill
  rw [State.fld, hsame] at hfill
  exact absurd hfill (by decide)

end
